-- ==== Sys2Proof/Word.lean ====
section
/-! DEFINITION. The plain word types of the model: bytes, 32-bit register words and sparse maps by
address or index. Everything that could be read wrongly (byte order, fields) stands in
Machine/Bytes.lean, not here. -/

namespace Sys2Proof

/-- One byte. -/
abbrev Byte := BitVec 8

/-- A string of bytes, lowest address (or first sent) first. -/
abbrev Bytes := List Byte

/-- A BAR0 register: 32 bits (R10). -/
abbrev Reg := BitVec 32

/-- A sparse map from addresses or indexes to values, kept in one canonical form: keys strictly
rising, and no entry equal to what an unlisted key reads as (see `Machine/SMap.lean`). -/
abbrev SMap (α : Type) := List (Nat × α)

end Sys2Proof
end

