-- ==== Sys2Proof/Syntax.lean ====
section
/-! DEFINITION. The commands of the block: one constructor of `Instr` per row of
spec/opcode_table.json, with the row's operands. Commands that a packet or the mailbox carries hold
where they came from (`Origin`) and the operand bytes from packet byte 16 on (R44); their meanings
decode the fields. Commands that are events hold what the event brings. -/

namespace Sys2Proof

/-- Who accesses a register: the host, or control core c (R65, R81). -/
inductive Agent where
  | host
  | core (c : Nat)
  deriving DecidableEq, Repr

/-- The channel a command came by: the mailbox (R70) or a submission ring (R55). -/
inductive Chan where
  | mailbox
  | ring (r : Nat)
  deriving DecidableEq, Repr

/-- Where a command came from: its channel and the packet header fields that its completion needs
(R44): SEQ_TAG, FLAGS and SIGNAL_TALLY. -/
structure Origin where
  chan : Chan
  seqTag : Nat
  flags : Nat
  signal : Nat
  deriving DecidableEq, Repr

/-- A PCIe configuration request (R631), by what it reads or sets among the capabilities of R625
and R627. -/
inductive ConfigReq where
  /-- Read the vendor, device and revision identifiers (R624). -/
  | readId
  /-- Read the device serial number capability (R625). -/
  | readSerial
  /-- Read the MSI-X Enable and Function Mask bits. -/
  | readMsix
  /-- Set MSI-X Enable and Function Mask (R629). -/
  | setMsix (enable mask : Bool)
  /-- Set Memory Space Enable. -/
  | setMemory (on : Bool)
  /-- Resize BAR2 to 2^n bytes (R627). -/
  | resizeBar2 (n : Nat)
  /-- Move between D0 and D3hot (R625). -/
  | setPower (d3hot : Bool)
  deriving DecidableEq, Repr

/-- Why a cell-port or far-port frame is discarded at the port (R393, R396, R476). -/
inductive FrameFault where
  /-- Bad frame check sequence. -/
  | fcs
  /-- Bad ICRC or UDP checksum. -/
  | icrc
  /-- Traffic of a kind the port does not handle, a fragment, or a malformed header. -/
  | unhandled
  /-- The reception also corrected, or failed to correct, FEC codewords. -/
  | fec (corrected uncorrectable : Nat)
  deriving DecidableEq, Repr

/-- A PTP message as received and stamped (R578, R579): the port, its one- or two-step flag, its
sequence number, the times it carries and the stamps the device took, all in ns, and the sender's
best-master data. -/
structure PtpMsg where
  port : Nat
  twoStep : Bool
  seq : Nat
  origin : Nat
  correction : Int
  rxStamp : Nat
  domain : Nat
  clockId : Nat
  priority1 : Nat
  clockClass : Nat
  accuracy : Nat
  variance : Nat
  priority2 : Nat
  stepsRemoved : Nat
  deriving DecidableEq, Repr

/-- A debug port write at level FULL (R617): a register, or device memory by flat address. -/
inductive DbgAccess where
  | reg (off : Nat) (v : Reg)
  | memWrite (flat : Nat) (bs : Bytes)
  | memRead (flat n : Nat)
  deriving DecidableEq, Repr

/-- What a shadow replay agrees with, captured value by captured value (R608): the sampled array's own
results, the first replay's (of the second replay), or neither. -/
inductive ReplayMatch where
  | sample
  | first
  | neither
  deriving DecidableEq, Repr
/-- A cipher request row: the queue it takes from, and, of queue 2, the request that a control core puts into it
first, 64 bytes (R514); empty: none. -/
structure CipherArgs where
  queue : Nat
  req : Bytes
  deriving DecidableEq, Repr

/-- Inputs of a control core's own SCALARMULT (R519), with the core it runs on. -/
structure PkScalarArgs where
  core : Nat
  scalar : Bytes
  point : Bytes
  deriving DecidableEq, Repr

/-- Inputs of a control core's own ECDH or SIGN (R519): a private slot, and the peer's point or the digest. -/
structure PkSlotArgs where
  core : Nat
  slot : Nat
  input : Bytes
  deriving DecidableEq, Repr

/-- Inputs of a control core's own VERIFY (R519). -/
structure PkVerifyArgs where
  core : Nat
  point : Bytes
  digest : Bytes
  sig : Bytes
  deriving DecidableEq, Repr

/-- Input of a control core's own VALIDATE (R519). -/
structure PkPointArgs where
  core : Nat
  point : Bytes
  deriving DecidableEq, Repr

/-- The commands of the block, in the order of spec/opcode_table.json: first those with
operands, then those without (so that Lean can compile every constructor). -/
inductive Instr where
  /-- FLR_FUNCTION0 (R630). A Function Level Reset, Hot Reset or link down of function 0 destroys every job, group, target and partner slot and unmaps every job page, or is applied as a warm reset when it cannot complete in time. -/
  | flrFunction0 (late : Bool)
  /-- BOOT_ROM_START (R632). After lock the boot ROM reads fuses, trains stacks, loads the DIK, chooses and verifies a flash image and starts it or stays in ROM. -/
  | bootRomStart (trained : Nat)
  /-- CONFIG_REQUEST (R631). A PCIe configuration request is answered with Request Retry Status during the first 20 ms after PERST# deassertion and served normally after. -/
  | configRequest (fn : Nat) (rq : ConfigReq)
  /-- BAR2_READ (R628). A host read through BAR2 is translated and checked under the catalogue or flat map, returning all ones on refusal or poison. -/
  | bar2Read (x : Nat) (n : Nat)
  /-- BAR2_WRITE (R628). A host write through BAR2 is translated and checked under the catalogue or flat map and discarded on refusal. -/
  | bar2Write (x : Nat) (bs : Bytes)
  /-- MSIX_TABLE_WRITE (R629). A write to an MSI-X table entry that unmasks a vector sends its pending message. -/
  | msixTableWrite (fn : Nat) (off : Nat) (v : Reg)
  /-- REGISTER_WRITE (R12). A write to a register with no row of its own sets, clears or ignores fields by their types and writer permissions. -/
  | registerWrite (who : Agent) (off : Nat) (v : Reg)
  /-- READ_CLEAR_REGISTER (R12). A primary read of an RC register returns its value and clears it to its reset value. -/
  | readClearRegister (off : Nat)
  /-- CAP_POP_READ (R589). A read of TMU.CAP_POP_LO pops the oldest capture stamp and latches its high bits, or returns 0 on an empty FIFO. -/
  | capPopRead (input : Nat)
  /-- MBOX_REGISTER_WRITE (R71). A host write to a mailbox opcode or argument register sets it, or is ignored and sets DROPPED while the result is PENDING. -/
  | mboxRegisterWrite (off : Nat) (v : Reg)
  /-- MBOX_DOORBELL (R71). Writing 1 to CMD.MBOX_DOORBELL latches the opcode and arguments and sets the result to PENDING. -/
  | mboxDoorbell (v : Reg)
  /-- RING_TAIL_DOORBELL (R54). A write to QSU.RING_TAIL of a submission ring makes the QSU read whole packets from head to tail. -/
  | ringTailDoorbell (r : Nat) (v : Reg)
  /-- RING_HEAD_WRITE (R49). A host write to QSU.RING_HEAD of a completion or event ring releases consumed entries. -/
  | ringHeadWrite (r : Nat) (v : Reg)
  /-- RING_ERROR_CLEAR (R52). Writing 1 to QSU.RING_STATUS.ERROR clears it and resumes dispatch at the current head, re-reading the head entry. -/
  | ringErrorClear (r : Nat)
  /-- PACKET_DISPATCH (R55). The head packet of a submission ring is dispatched once its wait, fence and completion reservation are all satisfied. -/
  | packetDispatch (r : Nat)
  /-- COMMAND_COMPLETION (R57). A command that took time completes: its SIGNAL tally is added after its writes are visible and its completion record or mailbox result is written. -/
  | commandCompletion (k : Nat)
  /-- COMPLETION_OVERDUE (R61). A completion ring held without a free entry beyond the drain bound sets OVERDUE and posts 0x0109. -/
  | completionOverdue (r : Nat)
  /-- TALLY_ADD_WRITE (R62). A write to QSU.TALLY_ADD adds AMOUNT, saturating with OVERFLOW and 0x0108, raising its interrupt and releasing satisfied waits. -/
  | tallyAddWrite (t : Nat) (v : Reg)
  /-- TALLY_VALUE_WRITE (R62). A write to QSU.TALLY_VALUE sets the value, re-arming the interrupt when it falls below the threshold. -/
  | tallyValueWrite (t : Nat) (v : Reg)
  /-- NOP (R73). The NOP command completes with RESULT 0. -/
  | nop (o : Origin) (ops : Bytes)
  /-- QUERY_DEVICE (R634). QUERY_DEVICE returns the serial and device identity, state, link and power data in every curator state. -/
  | queryDevice (o : Origin) (ops : Bytes)
  /-- RING_CREATE (R653). RING_CREATE checks its operands and enables a new ring at the lowest free index from 16. -/
  | ringCreate (o : Origin) (ops : Bytes)
  /-- RING_DESTROY (R60). RING_DESTROY stops dispatch, aborts undispatched packets, waits for dispatched ones and disables the ring. -/
  | ringDestroy (o : Origin) (ops : Bytes)
  /-- TALLY_ALLOC (R654). TALLY_ALLOC allocates a contiguous range of tallies at reset values to an existing job. -/
  | tallyAlloc (o : Origin) (ops : Bytes)
  /-- TALLY_FREE (R74). TALLY_FREE releases a range of tallies. -/
  | tallyFree (o : Origin) (ops : Bytes)
  /-- FW_LOAD (R78). FW_LOAD verifies a signed Coson image and starts it, passing through LOADING to RUNNING. -/
  | fwLoad (o : Origin) (ops : Bytes)
  /-- FW_REHANG (R82). FW_REHANG verifies a staged image, stops dispatch, writes the handoff block, enters REHANG and resets the control cores into the new image. -/
  | fwRehang (o : Origin) (ops : Bytes)
  /-- JOB_CREATE (R74). JOB_CREATE creates a job with a protection domain and a first step number. -/
  | jobCreate (o : Origin) (ops : Bytes)
  /-- JOB_DESTROY (R651). JOB_DESTROY aborts the job's packets, waits for its commands, releases its resources and disables its rings. -/
  | jobDestroy (o : Origin) (ops : Bytes)
  /-- EVENT_RING_BIND (R655). EVENT_RING_BIND binds the classes in its mask to an event ring and unbinds the others. -/
  | eventRingBind (o : Origin) (ops : Bytes)
  /-- WDOG_PET (R79). A control-core write to CMD.WDOG_PET restarts that core's watchdog. -/
  | wdogPet (c : Nat)
  /-- WATCHDOG_EXPIRY (R80). A control-core watchdog expiry, including one at the end of the rehang window, enters the ROM fatal routine with cause 0x010B. -/
  | watchdogExpiry (c : Nat)
  /-- MAP (R338). MAP checks a range and writes catalogue entries naming free or explicit frames, zeroing them when required. -/
  | map (o : Origin) (ops : Bytes)
  /-- UNMAP (R338). UNMAP invalidates the range's entries and returns their frames after an invalidation. -/
  | unmap (o : Origin) (ops : Bytes)
  /-- INVALIDATE (R334). INVALIDATE removes cached entries of its pages and completes after every access under them has ended. -/
  | invalidate (o : Origin) (ops : Bytes)
  /-- COPY (R339). COPY moves bytes between device addresses as if the whole source were read first. -/
  | copy (o : Origin) (ops : Bytes)
  /-- FILL (R339). FILL writes a repeated pattern over a device range. -/
  | fill (o : Origin) (ops : Bytes)
  /-- HOST_DMA (R339). HOST_DMA moves bytes between host memory and device memory. -/
  | hostDma (o : Origin) (ops : Bytes)
  /-- WEAK_PAGE_MOVE (R345). The curator moves a weak frame's page by COPY and REPLACE with SYNC at once or at the next UNMAP or STEP_END leaving it unwritten. -/
  | weakPageMove (pfn : Nat)
  /-- HBM_PATROL_SCRUB (R344). The patrol scrub reads a codeword of its stack in idle cycles, finishing every codeword within the scrub period. -/
  | hbmPatrolScrub (stack : Nat)
  /-- HBM_STACK_FAILED (R346). A stack with uncorrectable errors in more than 1,024 codewords in one second is marked FAILED and posts 0x0219. -/
  | hbmStackFailed (stack : Nat)
  /-- PROG_LOAD (R287). PROG_LOAD checks a program image and writes the selected code and chain table, leaving the tile READY. -/
  | progLoad (o : Origin) (ops : Bytes)
  /-- STAGE_MAP (R295). STAGE_MAP checks and applies a stage map, or unmaps a pipeline, setting region bindings. -/
  | stageMap (o : Origin) (ops : Bytes)
  /-- PIPELINE_START (R312). PIPELINE_START starts every local stage tile at ENTRY and enters RUNNING. -/
  | pipelineStart (o : Origin) (ops : Bytes)
  /-- MICROBATCH_ADMIT (R300). MICROBATCH_ADMIT checks every descriptor and queues them all, or refuses the whole packet. -/
  | microbatchAdmit (o : Origin) (ops : Bytes)
  /-- PIPELINE_DRAIN (R312). PIPELINE_DRAIN enters DRAINING and completes into STEP_END once every stage is at a boundary and every micro-batch has retired. -/
  | pipelineDrain (o : Origin) (ops : Bytes)
  /-- TILE_HALT (R288). TILE_HALT halts a tile, or resumes a halt of status 0x0273 or 0x0276. -/
  | tileHalt (o : Origin) (ops : Bytes)
  /-- PASS_DELIVERY (R303). A stage's next pass is delivered when its MBBEGIN holds issue and the pass's descriptor is admitted, loading g8 to g15. -/
  | passDelivery (tile : Nat)
  /-- PIPELINE_STAGE_FAULT (R313). After a stage tile halts unresumed, the curator halts the other local stages, sets FAULTED and posts 0x020D. -/
  | pipelineStageFault (tile : Nat)
  /-- SEQ_CTRL_HALT (R283). A control-core write of CMD.SEQ_CTRL.HALT halts the tile with status 0x0276. -/
  | seqCtrlHalt (tile : Nat)
  /-- SEQ_CTRL_RESUME (R285). A control-core write of CMD.SEQ_CTRL.RESUME restarts aborted instructions and resumes issue, unless a codec or TDMA fault is still recorded. -/
  | seqCtrlResume (tile : Nat)
  /-- SEQ_CTRL_UNLOAD (R289). A control-core write of CMD.SEQ_CTRL.UNLOAD from READY or HALTED clears the program and sets EMPTY. -/
  | seqCtrlUnload (tile : Nat)
  /-- NOP_INSTRUCTION (R268). The tile NOP instruction issues with no effect. -/
  | nopInstruction (tile : Nat)
  /-- ALU (R268). ALU computes a 64-bit scalar function into a g register at issue. -/
  | alu (tile : Nat)
  /-- CMP (R268). CMP writes a predicate from a comparison at issue. -/
  | cmp (tile : Nat)
  /-- PLOG (R268). PLOG combines predicates at issue. -/
  | plog (tile : Nat)
  /-- AOP (R268). AOP performs address arithmetic modulo 2^48 at issue. -/
  | aop (tile : Nat)
  /-- JMP (R268). JMP sets the PC, conditionally by its predicate. -/
  | jmp (tile : Nat)
  /-- LOOP (R268). LOOP decrements a g register and branches while it is nonzero. -/
  | loop (tile : Nat)
  /-- MBBEGIN (R276). MBBEGIN holds issue until the next pass is delivered, then loads the descriptor, resets chains and applies region origins. -/
  | mbbegin (tile : Nat)
  /-- MBEND (R277). MBEND waits for the main context's earlier instructions and then reports the micro-batch finished on the tile. -/
  | mbend (tile : Nat)
  /-- DEFER (R278). DEFER appends a deferral entry, is a yield point when the queue is full, or halts with 0x0275 when no switch is possible. -/
  | defer (tile : Nat)
  /-- DRET (R278). DRET ends the current routine, frees its entry and starts the next or returns issue to the main context. -/
  | dret (tile : Nat)
  /-- DYIELD (R279). DYIELD returns issue to the main context when its yield point no longer holds and the arrays are idle and empty. -/
  | dyield (tile : Nat)
  /-- HALTP (R268). HALTP halts the tile with status 0x0273 and records its code. -/
  | haltp (tile : Nat)
  /-- CONTEXT_SWITCH (R279). Issue passes to the deferred context when the main context is at a yield point, work is deferred and the arrays are idle and empty. -/
  | contextSwitch (tile : Nat)
  /-- MLOAD (R127). MLOAD loads one weight block column by column into an array's incoming registers. -/
  | mload (tile : Nat)
  /-- MLOAD_TRANSFER (R127). In its transfer cycle an array moves the incoming registers to the shadow registers, completing the MLOAD. -/
  | mloadTransfer (tile : Nat) (a : Nat)
  /-- MSTREAM (R270). MSTREAM is issued after its issue-time checks and reserves its chain cursor ranges. -/
  | mstream (tile : Nat)
  /-- MSTREAM_START (R131). A stream starts at the array edge once its predecessor's drain or weight transfer allows, swapping in the shadow block when SWAP is set. -/
  | mstreamStart (tile : Nat) (a : Nat)
  /-- STREAM_COMMIT (R143). When its last row is written a stream commits its accumulator slots and emits a commit marker. -/
  | streamCommit (tile : Nat) (a : Nat)
  /-- EXPANDER_BLOCK_FAULT (R182). An expander finding a codec fault aborts the feeding instruction, emits an abort marker and halts the tile. -/
  | expanderBlockFault (tile : Nat) (a : Nat)
  /-- CODEC_FAULT_RETRY (R184). After the re-run transfer's tally, the curator clears the codec fault and resumes the tile at the aborted instruction. -/
  | codecFaultRetry (tile : Nat)
  /-- VRUN (R202). VRUN starts a vector-only run over scratchpad source elements. -/
  | vrun (tile : Nat)
  /-- CRESET (R271). CRESET waits until every earlier stream on the chain is released and zeroes its cursors. -/
  | creset (tile : Nat)
  /-- CFLUSH (R203). CFLUSH completes the chain's tessera stream by publishing the last segment and writing directory and header. -/
  | cflush (tile : Nat)
  /-- DMA (R272). DMA issues a descriptor from scratchpad to a TDMA channel with register overrides. -/
  | dma (tile : Nat)
  /-- WAITT (R273). WAITT waits for a tally threshold, gating issue or queues. -/
  | waitt (tile : Nat)
  /-- WAITR (R273). WAITR waits for region data or space, gating issue or queues. -/
  | waitr (tile : Nat)
  /-- TADD (R274). TADD adds an amount to its tally. -/
  | tadd (tile : Nat)
  /-- REL (R274). REL moves a region's HEAD to the offset named, returning credit, or halts with 0x0267 when invalid. -/
  | rel (tile : Nat)
  /-- INSTRUCTION_COMPLETE (R259). A tile instruction that took time completes and, with SIG, adds 1 to its tally after its writes are visible. -/
  | instructionComplete (tile : Nat) (k : Nat)
  /-- PANEL_ROW_TAKE (R197). The vector engine takes a finished-panel entry into a lane group and runs it through its chain into the commit buffer. -/
  | panelRowTake (tile : Nat)
  /-- COMMIT_MARKER (R215). A commit marker makes its stream's buffered lines committed and writes column reductions. -/
  | commitMarker (tile : Nat)
  /-- ABORT_MARKER (R216). An abort marker discards its stream's buffered lines and restores the encoder state. -/
  | abortMarker (tile : Nat)
  /-- COMMIT_BUFFER_RELEASE (R215). The commit buffer releases committed lines to scratchpad when region space allows, advancing TAIL. -/
  | commitBufferRelease (tile : Nat)
  /-- VRUN_STARVED_TAKE (R196). A vector-only run that waited 64 cycles takes all 8 lane groups in the next cycle. -/
  | vrunStarvedTake (tile : Nat)
  /-- BANK_STARVED (R226). A requester losing 32 consecutive cycles at a bank becomes starved and is granted ahead of class order. -/
  | bankStarved (tile : Nat) (bank : Nat) (requester : Nat)
  /-- REGION_DESCRIPTOR_WRITE (R230). A control-core region descriptor write is refused when invalid and held while an operation is in flight. -/
  | regionDescriptorWrite (tile : Nat) (off : Nat) (v : Reg)
  /-- REMOTE_REGION_WRITE (R235). A corridor line written into a remotely fed region under credit advances TAIL. -/
  | remoteRegionWrite (tile : Nat) (region : Nat) (line : Bytes)
  /-- DESCRIPTOR_START (R247). A TDMA channel starts its next descriptor by checking it whole and pinning its translations. -/
  | descriptorStart (tile : Nat) (ch : Nat)
  /-- DESCRIPTOR_COMPLETE (R239). A descriptor completes when its writes are visible, signalling its tally and releasing its source region. -/
  | descriptorComplete (tile : Nat) (ch : Nat)
  /-- DESCRIPTOR_DATA_FAULT (R249). An uncorrectable read stops a started descriptor, sets channel ERROR and halts or fails its issuer. -/
  | descriptorDataFault (tile : Nat) (ch : Nat)
  /-- TDMA_ERROR_CLEAR (R253). Writing 1 to TDMA.CH_STATE.ERROR resumes the channel with its next descriptor. -/
  | tdmaErrorClear (tile : Nat) (ch : Nat)
  /-- MXA_MAP_WRITE (R157). A write to MXA.MAP is held until every array is idle, or refused when it names a failed or duplicate array. -/
  | mxaMapWrite (tile : Nat) (v : Reg)
  /-- PSE_CONFIG (R359). PSE_CONFIG checks the parameter table and hyperparameters and configures the job, fixing its seed. -/
  | pseConfig (o : Origin) (ops : Bytes)
  /-- STEP_UPDATE (R362). STEP_UPDATE runs the norm pass, guard decision, inner update and average, then the step boundary. -/
  | stepUpdate (o : Origin) (ops : Bytes)
  /-- APPLY_BOUNDARY (R378). At the apply boundary, once the distribution is complete, the PSE applies the outer step and the slot enters LATE. -/
  | applyBoundary (job : Nat)
  /-- NORM_GUARD_CFG (R368). NORM_GUARD_CFG sets the guard's ratio, window, minimum history and clip, or clears the history. -/
  | normGuardCfg (o : Origin) (ops : Bytes)
  /-- SEAL (R382). SEAL seals every ROUND entry in host outer-step mode. -/
  | sealCmd (o : Origin) (ops : Bytes)
  /-- OUTER_APPLY (R382). OUTER_APPLY applies a host-supplied combined delta or new anchor in host outer-step mode. -/
  | outerApply (o : Origin) (ops : Bytes)
  /-- ROLLOUT_COPY (R383). ROLLOUT_COPY writes the E4M3 rollout copy of every ROLLOUT entry. -/
  | rolloutCopy (o : Origin) (ops : Bytes)
  /-- DIGEST (R384). DIGEST computes two 64-bit lanes over a copy of a range of entries. -/
  | digest (o : Origin) (ops : Bytes)
  /-- GROUP_CREATE (R403). GROUP_CREATE checks and creates a collective group in a slot. -/
  | groupCreate (o : Origin) (ops : Bytes)
  /-- GROUP_DESTROY (R405). GROUP_DESTROY frees a group slot unless a collective runs or waits on it. -/
  | groupDestroy (o : Origin) (ops : Bytes)
  /-- REDUCE_SCATTER (R407). REDUCE_SCATTER checks its ranges, sends READY and reduces each shard to its owner in ORDERED, EXACT or INTEGER mode. -/
  | reduceScatter (o : Origin) (ops : Bytes)
  /-- ALL_GATHER (R412). ALL_GATHER sends each member's bytes to every member's destination slot. -/
  | allGather (o : Origin) (ops : Bytes)
  /-- PERMUTE (R413). PERMUTE exchanges paired send and receive entries as if every source were read first. -/
  | permute (o : Origin) (ops : Bytes)
  /-- GROUP_RESERVE (R417). GROUP_RESERVE sets a class's weight and bandwidth reservation within the 90 % limit. -/
  | groupReserve (o : Origin) (ops : Bytes)
  /-- COLLECTIVE_COMPLETE (R415). A collective completes when all its bytes are acknowledged, written and folded, and adds to its tally. -/
  | collectiveComplete (slot : Nat)
  /-- GROUP_TIMEOUT (R420). A collective not complete within the group timeout fails and puts the group in FAILED. -/
  | groupTimeout (slot : Nat)
  /-- CFI_DATA (R398). A received transport DATA frame is checked and its payload placed at its offset, folded or written to a link region. -/
  | cfiData (port : Nat) (bs : Bytes)
  /-- CFI_ACK (R399). A received transport ACK releases acknowledged frames, triggers fast retransmission and adjusts the sending rate. -/
  | cfiAck (port : Nat) (bs : Bytes)
  /-- CFI_READY (R406). A received READY records the peer's descriptor summary for a sequence number, or sets MISMATCH when it differs. -/
  | cfiReady (port : Nat) (bs : Bytes)
  /-- CFI_GRANT (R411). A received GRANT permits sending a segment to its owner. -/
  | cfiGrant (port : Nat) (bs : Bytes)
  /-- CFI_CREDIT (R422). A received CREDIT raises the offset up to which a pipeline link may send. -/
  | cfiCredit (port : Nat) (bs : Bytes)
  /-- CFI_ACK_TIMER (R399). An ACK is sent 2 µs after the first unacknowledged DATA frame. -/
  | cfiAckTimer (peer : Nat) (cls : Nat)
  /-- CFI_RETX_TIMER (R399). A transport retransmission timer expires, resending the frame and doubling the timer. -/
  | cfiRetxTimer (peer : Nat) (cls : Nat) (psn : Nat)
  /-- CFI_RATE_INCREASE (R400). Every 50 µs without congestion echo the rate to a receiver rises by 2 GB/s. -/
  | cfiRateIncrease (peer : Nat)
  /-- LINK_SLOT_SEND (R296). Once READY reaches the micro-batch, the producer's CFI reads the staging slot and sends it to the consumer's device. -/
  | linkSlotSend (pipe : Nat) (link : Nat)
  /-- LINK_SLOT_SENT (R296). Once the whole slot has been read, the producer's CFI adds 1 to SENT. -/
  | linkSlotSent (pipe : Nat) (link : Nat)
  /-- CELL_PORT_DOWN (R421). A cell port going down posts 0x040C, moves its traffic to other ports and rescales reservations. -/
  | cellPortDown (port : Nat)
  /-- CELL_PORT_UP (R421). A cell port coming up posts 0x040D. -/
  | cellPortUp (port : Nat)
  /-- PFC_PAUSE (R394). A received PFC pause frame pauses the priorities set in PFC_OBEY. -/
  | pfcPause (port : Nat) (mask : Nat) (quanta : Nat)
  /-- NEIGHBOR_SOLICITATION (R393). An ICMPv6 Neighbor Solicitation for an own address is answered. -/
  | neighborSolicitation (port : Nat) (bs : Bytes)
  /-- ECHO_REQUEST (R393). An ICMP Echo Request is answered at no more than 1,000 per second per port. -/
  | echoRequest (port : Nat) (bs : Bytes)
  /-- CELL_FRAME_DISCARD (R393). A frame failing FCS, ICRC or type checks, or of unhandled traffic, is discarded and counted. -/
  | cellFrameDiscard (port : Nat) (why : FrameFault)
  /-- ROCE_ACK (R424). A RoCEv2 Acknowledge releases the queue pair's acknowledged packets. -/
  | roceAck (qp : Nat) (psn : Nat)
  /-- ROCE_NAK (R424). A RoCEv2 NAK triggers go-back-N retransmission. -/
  | roceNak (qp : Nat) (psn : Nat)
  /-- ROCE_RNR_NAK (R424). An RNR NAK makes the queue pair wait the advertised time. -/
  | roceRnrNak (qp : Nat) (psn : Nat) (ns : Nat)
  /-- ROCE_READ_RESPONSE (R423). An RDMA READ Response delivers data for an outstanding read. -/
  | roceReadResponse (qp : Nat) (psn : Nat) (bs : Bytes)
  /-- ROCE_CNP (R423). A received CNP reduces the queue pair's rate. -/
  | roceCnp (qp : Nat)
  /-- ROCE_INBOUND_REQUEST (R423). An inbound RoCEv2 request opcode is discarded and counted. -/
  | roceInboundRequest (port : Nat)
  /-- ROCE_RETRY_TIMER (R424). A RoCEv2 retry timer expires, retransmitting or moving the queue pair to error with 0x040A. -/
  | roceRetryTimer (qp : Nat)
  /-- ROCE_RNR_WAIT_EXPIRY (R424). The RNR wait ends and the queue pair resumes sending. -/
  | roceRnrWaitExpiry (qp : Nat)
  /-- ROUND_CONFIG (R434). ROUND_CONFIG checks the shard list and round area and configures the job's rounds. -/
  | roundConfig (o : Origin) (ops : Bytes)
  /-- ROUND_OPEN (R436). ROUND_OPEN opens rounds at a first step, or stops them at the next seal boundary. -/
  | roundOpen (o : Origin) (ops : Bytes)
  /-- PARTNER_ADD (R462). PARTNER_ADD issues a partner stream slot with a new generation and starts its handshake. -/
  | partnerAdd (o : Origin) (ops : Bytes)
  /-- PARTNER_REMOVE (R465). PARTNER_REMOVE stops a slot, closes its windows and puts it in quarantine. -/
  | partnerRemove (o : Origin) (ops : Bytes)
  /-- EPOCH_COMMIT (R467). EPOCH_COMMIT commits the next epoch and membership to take effect at the next seal boundary. -/
  | epochCommit (o : Origin) (ops : Bytes)
  /-- LOAN_COPY_SEND (R469). LOAN_COPY_SEND encodes each shard's anchor and sends it as LOAN fragments to a joining cell. -/
  | loanCopySend (o : Origin) (ops : Bytes)
  /-- OWN_PACKAGE_GATHER (R444). Once its encodes complete, each member issues the own-package all-gather on the distribution group. -/
  | ownPackageGather (job : Nat)
  /-- DECISION_DEADLINE (R452). The deadline after the seal boundary expires and fixes the decision of the accession. -/
  | decisionDeadline (job : Nat) (acc : Nat)
  /-- FAR_FRAME_ARRIVAL (R485). A frame on a far port passes FCS, format, slot, replay and vestibule checks and is queued for opening, or is discarded. -/
  | farFrameArrival (port : Nat) (bs : Bytes)
  /-- CIPHER_OPEN_COMPLETE (R487). The cipher engine reports PASS or FAIL for a vestibule frame, scrubbing failures and acting on authenticated frames. -/
  | cipherOpenComplete (pair : Nat)
  /-- FRAGMENT_DRAINED (R449). A drained fragment counts as received, releases its cells and DSEQ and may cover chunks or complete the decision. -/
  | fragmentDrained (k : Nat)
  /-- FRAGMENT_SEND (R500). A slot with window and pacing room sends its next retransmission, DELTA or LOAN fragment by deficit round robin. -/
  | fragmentSend (slot : Nat)
  /-- TXP_ACK_TIMER (R490). An ACK is sent 100 µs after the first unacknowledged release. -/
  | txpAckTimer (slot : Nat)
  /-- GAP_NACK_TIMER (R491). A GAP NACK is sent 4 ms after the first higher DSEQ arrived past a missing one. -/
  | gapNackTimer (slot : Nat)
  /-- TXP_RETX_TIMER (R492). A fragment's retransmission timer expires, resending it and doubling the timer. -/
  | txpRetxTimer (slot : Nat) (dseq : Nat)
  /-- FULL_NACK_DELAY (R492). A fragment NACKed for FULL is resent after a further RTO_MIN. -/
  | fullNackDelay (slot : Nat) (dseq : Nat)
  /-- PROBE_IDLE (R484). An OPEN slot that sent nothing for 100 ms sends a PROBE. -/
  | probeIdle (slot : Nat)
  /-- PARTNER_SILENT (R484). A slot without an authenticated frame for 8 × RTO_MAX posts 0x0517. -/
  | partnerSilent (slot : Nat)
  /-- WANT_TIMER (R494). A sender with nonzero backlog sends a WANT every 100 ms. -/
  | wantTimer (slot : Nat)
  /-- CREDIT_TIMER (R495). An OPEN slot resends CREDIT every 10 × sRTT, bounded to 1 ms to 100 ms. -/
  | creditTimer (slot : Nat)
  /-- PACING_INCREASE (R501). After each sRTT without congestion or GAP NACK the pacing rate rises by 5 %. -/
  | pacingIncrease (slot : Nat)
  /-- QUARANTINE_EXPIRY (R483). A removed slot whose quarantine has passed since its last use becomes FREE. -/
  | quarantineExpiry (slot : Nat)
  /-- SLOT_WINDOW_WRITE (R496). A window write that would raise the sum above 128 MiB is refused and posts 0x0516. -/
  | slotWindowWrite (slot : Nat) (v : Reg)
  /-- FAR_PORT_DOWN (R478). A far port going down posts 0x0510 and its outstanding frames are recovered by retransmission. -/
  | farPortDown (port : Nat)
  /-- FAR_PORT_UP (R478). A far port coming up posts 0x0511. -/
  | farPortUp (port : Nat)
  /-- ARP_REQUEST (R476). An IPv4 ARP request for an own address is answered. -/
  | arpRequest (port : Nat) (bs : Bytes)
  /-- PACKET_TOO_BIG (R477). An ICMP path-MTU message below the frame size posts 0x0515 and changes nothing. -/
  | packetTooBig (port : Nat) (mtu : Nat) (slot : Nat)
  /-- FAR_FRAME_DISCARD (R476). A far-port frame of unhandled traffic or an IP fragment is discarded and counted. -/
  | farFrameDiscard (port : Nat) (why : FrameFault)
  /-- HELLO_RESEND (R527). Until the peer's HELLO arrives a side resends its HELLO every 200 ms. -/
  | helloResend (slot : Nat)
  /-- HANDSHAKE_RETRY (R527). After a failure the device sends a fresh HELLO every 1 s and posts 0x060A once per cause. -/
  | handshakeRetry (slot : Nat)
  /-- HANDSHAKE_TIMEOUT (R527). No completed handshake within 30 s of PARTNER_ADD is a failure of cause 8. -/
  | handshakeTimeout (slot : Nat)
  /-- PREVIOUS_KEY_ERASE (R531). The previous inbound key is erased a quarantine after the move to a new phase. -/
  | previousKeyErase (slot : Nat)
  /-- KEY_GENERATE (R510). KEY_GENERATE creates an AES key, a P-384 key pair or an imported validated public point in a slot. -/
  | keyGenerate (o : Origin) (ops : Bytes)
  /-- HANDSHAKE (R522). HANDSHAKE stores the own endorsement or starts a rekey of a partner slot. -/
  | handshake (o : Origin) (ops : Bytes)
  /-- KEY_DESTROY (R511). KEY_DESTROY zeroises a slot and frees it once its requests complete. -/
  | keyDestroy (o : Origin) (ops : Bytes)
  /-- ATTEST (R536). ATTEST writes a DIK-signed record of device and curator identity with the host nonce. -/
  | attest (o : Origin) (ops : Bytes)
  /-- CIPHER_SEAL_REQUEST (R514). A SEAL request is taken from a queue onto a pipeline pair. -/
  | cipherSealRequest (r : CipherArgs)
  /-- CIPHER_OPEN_REQUEST (R515). An OPEN request is taken from a queue onto a pipeline pair, or refused with 0x0612. -/
  | cipherOpenRequest (r : CipherArgs)
  /-- CIPHER_SEAL_COMPLETE (R514). A SEAL request completes, writing the tag and releasing the sealed frame for transmission. -/
  | cipherSealComplete (pair : Nat)
  /-- PK_SCALARMULT (R519). A SCALARMULT operation starts on a public-key core: the one at the front of the queue, or with nothing
  queued a control core's own, on the inputs given. -/
  | pkScalarmult (a : PkScalarArgs)
  /-- PK_KEYGEN (R519). A KEYGEN operation starts on a public-key core. -/
  | pkKeygen (core : Nat)
  /-- PK_ECDH (R519). An ECDH operation starts on a public-key core. -/
  | pkEcdh (a : PkSlotArgs)
  /-- PK_SIGN (R519). A SIGN operation starts on a public-key core. -/
  | pkSign (a : PkSlotArgs)
  /-- PK_VERIFY (R519). A VERIFY operation starts on a public-key core. -/
  | pkVerify (a : PkVerifyArgs)
  /-- PK_VALIDATE (R519). A VALIDATE operation starts on a public-key core. -/
  | pkValidate (a : PkPointArgs)
  /-- PK_HKDF (R526). An HKDF derivation starts on a public-key core. -/
  | pkHkdf (core : Nat)
  /-- PK_OPERATION_COMPLETE (R520). A public-key operation completes after its fixed time with its output or the first failing check. -/
  | pkOperationComplete (core : Nat)
  /-- FUSE_REVOKE (R635). A write to HIF.FUSE_PROGRAM.REVOKE blows a root revocation fuse only under the conditions of R635, otherwise it is refused and logged. -/
  | fuseRevoke (who : Agent) (v : Reg)
  /-- STORAGE_TARGET_ADD (R541). STORAGE_TARGET_ADD adds a target with queue pairs at a random PSN, or removes one. -/
  | storageTargetAdd (o : Origin) (ops : Bytes)
  /-- CKPT_WRITE (R552). CKPT_WRITE writes a checkpoint object: zero header, directory and payloads, then the header. -/
  | ckptWrite (o : Origin) (ops : Bytes)
  /-- CKPT_READ (R558). CKPT_READ checks the sources' directories and fills the job's copies and job state. -/
  | ckptRead (o : Origin) (ops : Bytes)
  /-- SNAPSHOT (R555). SNAPSHOT writes a snapshot object to a target or the staging extent. -/
  | snapshot (o : Origin) (ops : Bytes)
  /-- TIME_CONFIG (R582). TIME_CONFIG sets time sources, PTP and PPS parameters and optionally SETs the time base. -/
  | timeConfig (o : Origin) (ops : Bytes)
  /-- TIMER_ARM (R584). TIMER_ARM arms a timer with deadline, period and action. -/
  | timerArm (o : Origin) (ops : Bytes)
  /-- TIMER_CANCEL (R585). TIMER_CANCEL frees a job's timer, reporting whether an expiry was pending. -/
  | timerCancel (o : Origin) (ops : Bytes)
  /-- CAPTURE_CFG (R587). CAPTURE_CFG sets a capture input's edge, enable and notify level. -/
  | captureCfg (o : Origin) (ops : Bytes)
  /-- TIMER_EXPIRY (R583). A timer reaches its deadline and posts 0x0803, adds to its tally, or both. -/
  | timerExpiry (t : Nat)
  /-- PTP_SYNC (R574). A received and stamped Sync, with its delay measurement, gives a servo sample that may lock, unlock or step the time base. -/
  | ptpSync (m : PtpMsg)
  /-- PTP_FOLLOW_UP (R578). A received Follow_Up completes a two-step Sync. -/
  | ptpFollowUp (m : PtpMsg)
  /-- PTP_DELAY_RESP (R578). A received Delay_Resp completes a delay measurement. -/
  | ptpDelayResp (m : PtpMsg)
  /-- PTP_ANNOUNCE (R578). A received Announce takes part in best-master selection. -/
  | ptpAnnounce (m : PtpMsg)
  /-- PPS_IN_EDGE (R580). A PPS_IN edge gives a servo sample when PPS is a source, or is discarded when too far from a second. -/
  | ppsInEdge (rising : Bool)
  /-- CAPTURE_EDGE (R587). An edge on a capture input pushes a stamp, or sets OVERFLOW when the FIFO is full, and may post 0x0809. -/
  | captureEdge (input : Nat) (rising : Bool)
  /-- TCLK_DIV_WRITE (R569). A write of a wing's TCLK divider starts a move toward the larger of it and the clamp minimum. -/
  | tclkDivWrite (who : Agent) (v : Reg)
  /-- TCLK_DIVIDER_STEP (R569). Every 1 µs a changing divider moves one step at a TCLK edge. -/
  | tclkDividerStep (wing : Nat)
  /-- LOAN_POLICY (R606). LOAN_POLICY sets the test interval and deferral limit, requests a test now or cancels a waiting loan. -/
  | loanPolicy (o : Origin) (ops : Bytes)
  /-- MARGIN_SWEEP (R609). MARGIN_SWEEP sweeps a reserve tile's supply offset per divider and reports passing margins. -/
  | marginSweep (o : Origin) (ops : Bytes)
  /-- FAULT_HISTORY_READ (R615). FAULT_HISTORY_READ copies records, summaries or flash dumps to the host, or acquits a unit. -/
  | faultHistoryRead (o : Origin) (ops : Bytes)
  /-- TELEMETRY_CFG (R612). TELEMETRY_CFG sets the telemetry buffer, sample count, decimation and enable. -/
  | telemetryCfg (o : Origin) (ops : Bytes)
  /-- DUMP_READ (R615). DUMP_READ copies part of the archive dump to the host, or clears it. -/
  | dumpRead (o : Origin) (ops : Bytes)
  /-- FAULT_RING_RETIRE (R592). A control-core write advancing CSV.FRING_HEAD retires handled entries into the history log. -/
  | faultRingRetire (v : Reg)
  /-- HANDLE_MIN_EXPIRY (R593). A retired fault leaves handling once HANDLE_MIN has passed since its entry. -/
  | handleMinExpiry (k : Nat)
  /-- SUSPICION_DECAY (R596). A unit in WATCH for 24 h without a fault returns to CLEAR. -/
  | suspicionDecay (unit : Nat)
  /-- REVIEW_TEST_COMPLETE (R597). A stack, port, cipher or public-key review test ends and moves the unit to WATCH or PERMANENT. -/
  | reviewTestComplete (unit : Nat) (pass : Bool)
  /-- SEVEN_ARRAY_SWITCH (R154). At the tile's next boundary a failed array is marked and the seven-array program loaded. -/
  | sevenArraySwitch (tile : Nat)
  /-- TILE_REMAP (R602). At the next boundary a PERMANENT tile's stage is moved to a reserve tile. -/
  | tileRemap (tile : Nat)
  /-- LOAN_DUE (R602). A tile's test falls due and a reserve is chosen to receive its stage. -/
  | loanDue (tile : Nat)
  /-- FIELD_TEST_COMPLETE (R604). The 1.5 s in-field test ends, posting 0x0701 and returning the tile to the reserve pool, or 0x0709 and a fault. -/
  | fieldTestComplete (tile : Nat) (signature : Nat)
  /-- REPLAY_SELECT (R607). Every replay interval the conservator chooses a tile and array and captures its next START stream. -/
  | replaySelect (tile : Nat) (a : Nat)
  /-- REPLAY_COMPARE (R608). A replay on a reserve ends and its results are compared bit for bit, charging any mismatch. -/
  | replayCompare (agrees : ReplayMatch)
  /-- SPM_SCRUB (R610). The conservator scrubs a scratchpad or program store line in a class-5 slot. -/
  | spmScrub (tile : Nat)
  /-- LANE_RETRAIN (R610). A lane with more than 10 uncorrectable FEC codewords per second is retrained, taking its port down and up. -/
  | laneRetrain (port : Nat)
  /-- TELEMETRY_SAMPLE (R612). Each millisecond the conservator writes a telemetry sample to the circular buffer. -/
  | telemetrySample (sample : Bytes)
  /-- DEBUG_UNLOCK (R618). DEBUG_UNLOCK issues a challenge, accepts a signed token to raise the debug level, or relocks. -/
  | debugUnlock (o : Origin) (ops : Bytes)
  /-- CORE_HALT (R620). CORE_HALT requests a halt of control cores at their next instruction boundary outside a locked sequence. -/
  | coreHalt (o : Origin) (ops : Bytes)
  /-- CORE_HALT_GRANT (R620). A pending core halt takes effect when the core leaves its locked sequence, suspending watchdogs. -/
  | coreHaltGrant (c : Nat)
  /-- HALT_FORCED (R620). A halt not granted within 65,536 CCLK cycles is forced and completes with 0x0903. -/
  | haltForced (c : Nat)
  /-- CORE_RESUME (R620). CORE_RESUME resumes halted cores and restarts their watchdogs with a full period. -/
  | coreResume (o : Origin) (ops : Bytes)
  /-- REG_READ (R619). REG_READ returns up to 8 registers read through their aliases. -/
  | regRead (o : Origin) (ops : Bytes)
  /-- DEBUG_PORT_READ (R619). A debug port read of a BAR0 offset is served from its alias without side effect. -/
  | debugPortRead (off : Nat)
  /-- DEBUG_PORT_WRITE (R617). At level FULL the debug port writes a register or accesses memory by flat address. -/
  | debugPortWrite (a : DbgAccess)
  /-- POWER_CLAMP_EVAL (R639). Every 100 µs the power clamp raises or lowers every wing's minimum divider against the limits. -/
  | powerClampEval (sample : Nat) (average : Nat)
  /-- THERMAL_CLAMP_EVAL (R640). Every 100 µs the thermal clamp raises or lowers each wing's minimum divider against CLAMP_C. -/
  | thermalClampEval (temps : List Int)
  /-- RAIL_OUT_OF_TOLERANCE (R637). A rail leaving its tolerance is reported in HIF.RAIL_STATUS with no action by the device. -/
  | railOutOfTolerance (rail : Nat)
  /-- ENTDAA (R643). The I3C ENTDAA common command assigns a dynamic address. -/
  | entdaa (a : Nat)
  /-- SETDASA (R643). The I3C SETDASA common command sets the dynamic address from the static one. -/
  | setdasa (a : Nat)
  /-- ENEC (R645). The I3C ENEC common command enables in-band interrupts. -/
  | enec (events : Nat)
  /-- DISEC (R643). The I3C DISEC common command disables in-band interrupts. -/
  | disec (events : Nat)
  /-- SETMWL (R643). The I3C SETMWL common command sets the maximum write length. -/
  | setmwl (n : Nat)
  /-- SETMRL (R643). The I3C SETMRL common command sets the maximum read length. -/
  | setmrl (n : Nat)
  /-- RSTACT (R643). The I3C RSTACT common command sets the target reset action. -/
  | rstact (action : Nat)
  /-- SET_PWR_LIMIT (R638). The I3C SET_PWR_LIMIT command sets the BMC power limit. -/
  | setPwrLimit (bs : Bytes)
  /-- READ_SUMMARY (R644). The I3C READ_SUMMARY command returns a 256-byte block of a flash fatal summary. -/
  | readSummary (bs : Bytes)
  /-- FLASH_WRITE (R644). The I3C FLASH_WRITE command writes 256 bytes to the slot that did not boot, voiding any commit. -/
  | flashWrite (bs : Bytes)
  /-- FLASH_COMMIT (R644). The I3C FLASH_COMMIT command checks the written image's format and makes its slot PREFERRED with TRIES 3. -/
  | flashCommit (bs : Bytes)
  /-- WARM_RESET (R644). The I3C WARM_RESET command with data 0x5752 starts a warm reset. -/
  | warmReset (bs : Bytes)
  /-- SAMPLE_PRELOAD (R646). The JTAG SAMPLE/PRELOAD instruction samples or preloads the boundary-scan register. -/
  | samplePreload (v : Nat)
  /-- RAIL_IN_TOLERANCE (R637). A rail that returns within its tolerance sets its bit in HIF.RAIL_STATUS.IN_RANGE. -/
  | railInTolerance (rail : Nat)
  /-- PCIE_LINK_TRAINED (R648). The PCIe link completes training and HIF.LINK reports its width and speed in place of 0. -/
  | pcieLinkTrained (width : Nat) (speed : Nat)
  /-- LEAVER_TIMEOUT (R498). A leaver whose outstanding bytes have not reached 0 leaves the active set 2 × its retransmission timer after rotation, and the first waiting slot enters. -/
  | leaverTimeout (slot : Nat)
  /-- COLD_RESET (R630). PWRGD rising resets everything, loses HBM content and the archive, and returns the debug level and DEBUG bit to 0. -/
  | coldReset
  /-- PERST_ASSERT (R630). PERST# asserted while PWRGD is high causes a warm reset that keeps HBM content in self-refresh and zeroises key slots 1 to 1,023. -/
  | perstAssert
  /-- PERST_DEASSERT (R631). PERST# deassertion starts link training, and function 0 answers configuration requests with Request Retry Status for at most 20 ms. -/
  | perstDeassert
  /-- RESET_CTL_WARM (R630). A host write of 1 to HIF.RESET_CTL.WARM starts a warm reset. -/
  | resetCtlWarm
  /-- FLR_FUNCTION1 (R630). A Function Level Reset of function 1 resets function 1 only. -/
  | flrFunction1
  /-- PLL_LOCK (R568). The root PLL achieves lock and TMU.STATE.PLL_LOCKED reads 1. -/
  | pllLock
  /-- REFCLK_LOST (R568). A loss of PLL lock lasting more than 10 µs is a fatal cause with status 0x0810. -/
  | refclkLost
  /-- TIME_LO_READ (R589). A read of TMU.TIME_LO returns time base bits 31:0 and latches bits 63:32. -/
  | timeLoRead
  /-- MBOX_HELD_SERVE (R72). A mailbox command held while the curator state reads LOADING or REHANG is served once the state leaves it, under the rules of the state reached. -/
  | mboxHeldServe
  /-- EVENT_HOLD_DELIVERY (R76). When space returns, held event records are delivered, preceded by one 0x010C EVENTS_LOST record when records were dropped. -/
  | eventHoldDelivery
  /-- REHANG_RESUME (R82). The new curator reads the handoff block, claims or cancels timers, releases held timer events, resumes dispatch and sets RUNNING. -/
  | rehangResume
  /-- ROTATE_QUANTUM (R498). While wanting slots wait, the active set rotates out one leaver per quantum and admits the next waiter. -/
  | rotateQuantum
  /-- OVERCOMMIT_DECREASE (R499). At the end of a 10 ms interval with a FULL drop the effective overcommit falls by 1. -/
  | overcommitDecrease
  /-- OVERCOMMIT_INCREASE (R499). After 1,000 ms without a FULL drop the effective overcommit rises by 1. -/
  | overcommitIncrease
  /-- ENTROPY_FAIL (R516). A failing entropy health test posts 0x0613 and refuses requests for fresh randomness. -/
  | entropyFail
  /-- REFERENCE_LOSS (R574). No sample for 3 intervals or an announce timeout puts the TMU in HOLDOVER and posts 0x0805. -/
  | referenceLoss
  /-- HOLDOVER_LIMIT (R577). After HOLDOVER_S seconds the TMU enters FREE_RUN and posts 0x0806. -/
  | holdoverLimit
  /-- PPS_MISSING (R580). An expected PPS edge missing for 3 s posts 0x080A. -/
  | ppsMissing
  /-- PPS_OUT_RISE (R581). PPS_OUT rises when the time base crosses a whole second plus the offset. -/
  | ppsOutRise
  /-- PPS_OUT_FALL (R581). PPS_OUT falls after its width. -/
  | ppsOutFall
  /-- LOAN_BOUNDARY (R602). At the tile's micro-batch boundary credit is held and the stage state copied to the reserve. -/
  | loanBoundary
  /-- LOAN_COPY_COMPLETE (R602). The copy ends, the logical tile names the reserve, credit is released and the freed tile's test starts. -/
  | loanCopyComplete
  /-- LOAN_DEFERRAL_EXPIRY (R605). A loan whose tile reaches no boundary within the deferral limit is cancelled with 0x0708. -/
  | loanDeferralExpiry
  /-- SECOND_REPLAY_TIMEOUT (R608). When no second reserve frees within 10 s the fault is charged to the sampled array. -/
  | secondReplayTimeout
  /-- FLASH_SUMMARY_WRITE (R611). At most once per 60 s, or within 1 s of a PERMANENT verdict, the conservator writes unit summaries to flash. -/
  | flashSummaryWrite
  /-- THERMAL_TRIP (R641). A junction at trip temperature for 100 µs asserts THERMTRIP# and starts the fatal routine with 0x0706. -/
  | thermalTrip
  /-- RSTDAA (R643). The I3C RSTDAA common command resets the dynamic address. -/
  | rstdaa
  /-- GETPID (R643). The I3C GETPID common command returns the provisioned ID. -/
  | getpid
  /-- GETBCR (R643). The I3C GETBCR common command returns the bus characteristics. -/
  | getbcr
  /-- GETDCR (R643). The I3C GETDCR common command returns the device characteristics. -/
  | getdcr
  /-- GETSTATUS (R643). The I3C GETSTATUS common command returns the target status. -/
  | getstatus
  /-- GETMWL (R643). The I3C GETMWL common command returns the maximum write length. -/
  | getmwl
  /-- GETMRL (R643). The I3C GETMRL common command returns the maximum read length. -/
  | getmrl
  /-- READ_TELEMETRY (R644). The I3C READ_TELEMETRY command returns the latest telemetry sample. -/
  | readTelemetry
  /-- READ_STATE (R644). The I3C READ_STATE command returns curator state, fatal cause, assembly, power limit and clamp bits. -/
  | readState
  /-- EXTEST (R646). The JTAG EXTEST instruction drives boundary-scan outputs while PERST# is asserted. -/
  | extest
  /-- IDCODE (R646). The JTAG IDCODE instruction selects the IDCODE register. -/
  | idcode
  /-- HIGHZ (R646). The JTAG HIGHZ instruction floats the outputs while PERST# is asserted. -/
  | highz
  /-- CLAMP (R646). The JTAG CLAMP instruction holds the outputs while PERST# is asserted. -/
  | clamp
  /-- DBG (R646). The JTAG DBG instruction selects the debug access port under the debug levels. -/
  | dbg
  /-- BYPASS (R646). The JTAG BYPASS instruction, and any other code, selects the bypass register. -/
  | bypass
  /-- PWRGD_DEASSERT (R637). The board deasserts PWRGD ahead of removing power, after which the I3C target answers only the common command codes and the next rise is a cold reset. -/
  | pwrgdDeassert
  /-- ENTROPY_TESTS_PASSING (R516). The entropy source's health tests pass, SEC.STATE.ENTROPY_OK reads 1, and requests for fresh randomness no longer fail with 0x0613. -/
  | entropyTestsPassing
  /-- TEST_LOGIC_RESET (R646). TRST# or the TAP reaching test-logic reset resets the test access port and selects IDCODE. -/
  | testLogicReset
  deriving DecidableEq, Repr

end Sys2Proof
end

