-- ==== Sys2Proof/Decode.lean ====
section
/-! DEFINITION. The command a word spells. No row of the command table has an encoding of bits: commands
come as packets, register accesses, frames and pins, whose layouts the meanings read (for the packet
dispatcher see `Machine/CommandPlane.lean`). -/

namespace Sys2Proof

/-- The command that `nbits` bits `w` spell by the table: it gives no row bits, so none. -/
def decodeTableWord (_nbits _w : Nat) : Option Instr := none

end Sys2Proof
end

