-- ==== Sys2Proof/Machine/Bytes.lean ====
section
/-! DEFINITION. Byte strings, byte order (R8) and bit fields: the helpers every unit reads its
operands, records and frames with. Reads beyond the end of a string give 0. -/

namespace Sys2Proof.Machine

/-- Bits hi:lo of a natural number (R8: bit 0 is the least significant). -/
def bits (n hi lo : Nat) : Nat := (n >>> lo) % 2 ^ (hi + 1 - lo)

/-- Bit i of a natural number. -/
def bit (n i : Nat) : Bool := n.testBit i

/-- 1 for true, 0 for false. -/
def b2n (b : Bool) : Nat := if b then 1 else 0

/-- `n` with bits hi:lo replaced by the low bits of `v`. -/
def putBits (n hi lo v : Nat) : Nat :=
  n - bits n hi lo * 2 ^ lo + (v % 2 ^ (hi + 1 - lo)) * 2 ^ lo

/-- Bits hi:lo of a register. -/
def fieldOf (w : Reg) (hi lo : Nat) : Nat := bits w.toNat hi lo

/-- A register with bits hi:lo replaced. -/
def withField (w : Reg) (hi lo v : Nat) : Reg := BitVec.ofNat 32 (putBits w.toNat hi lo v)

/-- A little-endian number (R8: device memory, packets, records, registers). -/
def leNat : Bytes → Nat
  | [] => 0
  | b :: bs => b.toNat + 256 * leNat bs

/-- `n` bytes of a number, little-endian. -/
def leBytes : Nat → Nat → Bytes
  | 0, _ => []
  | n + 1, v => BitVec.ofNat 8 v :: leBytes n (v / 256)

/-- A big-endian number (R8: frames on the cell and far ports). -/
def beNat (bs : Bytes) : Nat := leNat bs.reverse

/-- `n` bytes of a number, big-endian. -/
def beBytes (n v : Nat) : Bytes := (leBytes n v).reverse

/-- `n` bytes from offset `off`; bytes past the end read 0. -/
def slice (bs : Bytes) (off n : Nat) : Bytes :=
  let t := (bs.drop off).take n
  t ++ List.replicate (n - t.length) 0

/-- The little-endian field of `n` bytes at offset `off`. -/
def le (bs : Bytes) (off n : Nat) : Nat := leNat ((bs.drop off).take n)

/-- The big-endian field of `n` bytes at offset `off`. -/
def be (bs : Bytes) (off n : Nat) : Nat := beNat (slice bs off n)

/-- Are bytes off to off+n-1 all 0 (absent ones read 0)? -/
def zeroBytes (bs : Bytes) (off n : Nat) : Bool := ((bs.drop off).take n).all (· == 0)

/-- `bs` with the bytes from offset `off` replaced by `v` (within its length). -/
def patch (bs : Bytes) (off : Nat) (v : Bytes) : Bytes :=
  bs.take off ++ v ++ bs.drop (off + v.length)

/-- A string of `n` zero bytes. -/
def zeros (n : Nat) : Bytes := List.replicate n 0

/-- A two's complement reading of the low `w` bits of `n`. -/
def sext (w n : Nat) : Int :=
  let m := n % 2 ^ w
  if w ≠ 0 ∧ m ≥ 2 ^ (w - 1) then (m : Int) - (2 ^ w : Nat) else m

/-- The low `w` bits of an integer's two's complement. -/
def wrap (w : Nat) (i : Int) : Nat := (i % ((2 ^ w : Nat) : Int)).toNat

/-- An integer held within the signed range of `w` bits. -/
def clampSigned (w : Nat) (i : Int) : Int :=
  let m : Int := ((2 ^ (w - 1) : Nat) : Int)
  if i > m - 1 then m - 1 else if i < -m then -m else i

/-- Division rounded up. -/
def ceilDiv (a b : Nat) : Nat := (a + b - 1) / b

/-- `a` rounded up to a multiple of `b`. -/
def alignUp (a b : Nat) : Nat := ceilDiv a b * b

/-- The indexes below `n` whose bit of `mask` is 1, lowest first. -/
def maskBits (mask n : Nat) : List Nat := (List.range n).filter (fun i => mask.testBit i)

/-- How many of the `n` lowest bits of `mask` are 1. -/
def popCount (mask n : Nat) : Nat := (maskBits mask n).length

/-- Insertion sort; `le` holds of what may stand first. -/
def insertBy {α : Type} (le : α → α → Bool) (x : α) : List α → List α
  | [] => [x]
  | y :: ys => if le x y then x :: y :: ys else y :: insertBy le x ys
def sortBy {α : Type} (le : α → α → Bool) : List α → List α
  | [] => []
  | x :: xs => insertBy le x (sortBy le xs)

end Sys2Proof.Machine
end

