-- ==== Sys2Proof/Machine/Operands.lean ====
section
/-! DEFINITION. Operand forms: the scalar operands of tile instructions (R268) and the functions of
`ALU` and `AOP`; the operand fields of command packets, which start at packet byte 16 (R44). -/

namespace Sys2Proof.Machine

/-! ## Scalar tile instructions (R268) -/

def opDst (w : Nat) : Nat := bits w 37 32
def opSrcA (w : Nat) : Nat := bits w 43 38
def opSrcB (w : Nat) : Nat := bits w 49 44
def opBimm (w : Nat) : Bool := bit w 50
def opFunc (w : Nat) : Nat := bits w 55 51
/-- IMM, and its parts: a PC target and a HALTP code. -/
def opImm (w : Nat) : Nat := bits w 127 64
def opTarget (w : Nat) : Nat := bits w 77 64
def opCode (w : Nat) : Nat := bits w 79 64
/-- VREG forms: a 32-bit value, or the g register that holds it (R273, R274). -/
def opVreg (w : Nat) : Bool := bit w 38
def opValue (w : Nat) : Nat := bits w 95 64
def opValueReg (w : Nat) : Nat := bits w 69 64

/-- A 64-bit value as two's complement. -/
def s64 (n : Nat) : Int := sext 64 n

/-- The sum and the difference of 64-bit words. -/
def add64 (a b : Nat) : Nat := (a + b) % 2 ^ 64
def sub64 (a b : Nat) : Nat := (a + (2 ^ 64 - b % 2 ^ 64)) % 2 ^ 64

/-- `ALU` FUNC of 64-bit operands (R268). -/
def aluFn (f a b : Nat) : Nat :=
  match f with
  | 0 => add64 a b
  | 1 => sub64 a b
  | 2 => a &&& b
  | 3 => a ||| b
  | 4 => a ^^^ b
  | 5 => (a <<< (b % 64)) % 2 ^ 64
  | 6 => a >>> (b % 64)
  | 7 => wrap 64 (s64 a >>> (b % 64))
  | 8 => (a * b) % 2 ^ 64
  | 9 => min a b
  | 10 => max a b
  | 11 => if s64 a ≤ s64 b then a else b
  | 12 => if s64 a ≤ s64 b then b else a
  | _ => a

/-- The FUNC values R268 defines, by opcode. -/
def funcCount (op : Nat) : Nat :=
  match op with
  | 0x01 => 13
  | 0x02 => 6
  | 0x03 => 5
  | 0x04 => 3
  | _ => 1

/-! ## Command operands -/

/-- The operand byte, halfword, word and doubleword at packet byte `off` (operands start at 16). -/
def opnd (ops : Bytes) (off n : Nat) : Nat := le ops (off - 16) n

/-- Are packet bytes off to off+n-1 all 0? -/
def opndZero (ops : Bytes) (off n : Nat) : Bool := zeroBytes ops (off - 16) n

end Sys2Proof.Machine
end

