-- ==== Sys2Proof/Machine/Float.lean ====
section
/-! DEFINITION. Number formats and rounding (R93 to R122). A value is exact until it is rounded:
a finite value is a sign, a natural mantissa and a power of two, so a conversion is one rounding of
the exact value of its source (R104). Codes are natural numbers holding the element's bits. -/

namespace Sys2Proof.Machine

/-- An exact value: (−1)^neg × m × 2^e, an infinity or a NaN. Payloads and NaN signs are not kept
(R97). -/
inductive Val where
  | nan
  | inf (neg : Bool)
  | fin (neg : Bool) (m : Nat) (e : Int)
  deriving DecidableEq, Repr

/-- The flags of a conversion (R110) and of an operation. -/
structure FFlags where
  inv : Bool := false
  ovf : Bool := false
  unf : Bool := false
  inx : Bool := false
  nanIn : Bool := false
  divz : Bool := false
  deriving DecidableEq, Repr

def FFlags.or (a b : FFlags) : FFlags :=
  ⟨a.inv || b.inv, a.ovf || b.ovf, a.unf || b.unf, a.inx || b.inx, a.nanIn || b.nanIn, a.divz || b.divz⟩

/-- A floating-point layout of R94: exponent and mantissa widths and bias. `ieee` layouts give the
all-ones exponent to infinities and NaNs; E4M3 has one NaN code and no infinity; the group elements
have neither. -/
structure FpFmt where
  ebits : Nat
  mbits : Nat
  bias : Int
  ieee : Bool
  oneNan : Bool
  deriving DecidableEq, Repr

def fmtFP32 : FpFmt := ⟨8, 23, 127, true, false⟩
def fmtBF16 : FpFmt := ⟨8, 7, 127, true, false⟩
def fmtFP16 : FpFmt := ⟨5, 10, 15, true, false⟩
def fmtE4M3 : FpFmt := ⟨4, 3, 7, false, true⟩
def fmtE5M2 : FpFmt := ⟨5, 2, 15, true, false⟩
def fmtE3M2 : FpFmt := ⟨3, 2, 3, false, false⟩
def fmtE2M1 : FpFmt := ⟨2, 1, 1, false, false⟩

/-- The width of a layout in bits. -/
def fpWidth (t : FpFmt) : Nat := 1 + t.ebits + t.mbits

/-- The largest finite code without its sign (R94). -/
def fpMaxCode (t : FpFmt) : Nat :=
  if t.ieee then (2 ^ t.ebits - 1) * 2 ^ t.mbits - 1
  else if t.oneNan then 2 ^ (t.ebits + t.mbits) - 2
  else 2 ^ (t.ebits + t.mbits) - 1

/-- The exponent of the least subnormal: one unit of the mantissa at E = 0 (R95). -/
def fpEmin (t : FpFmt) : Int := 1 - t.bias - t.mbits

/-- The canonical NaN (R97); 0 for the layouts without one. -/
def fpNan (t : FpFmt) : Nat :=
  if t.ieee then (2 ^ t.ebits - 1) * 2 ^ t.mbits + 2 ^ (t.mbits - 1)
  else if t.oneNan then 2 ^ (t.ebits + t.mbits) - 1 else 0

/-- The infinity code of an `ieee` layout. -/
def fpInf (t : FpFmt) : Nat := (2 ^ t.ebits - 1) * 2 ^ t.mbits

/-- The sign bit. -/
def fpSign (t : FpFmt) (neg : Bool) : Nat := if neg then 2 ^ (t.ebits + t.mbits) else 0

/-- The exact value of a code (R94, R95). -/
def fpDecode (t : FpFmt) (code : Nat) : Val :=
  let neg := code.testBit (t.ebits + t.mbits)
  let ex := bits code (t.ebits + t.mbits - 1) t.mbits
  let mn := code % 2 ^ t.mbits
  if t.ieee ∧ ex = 2 ^ t.ebits - 1 then (if mn = 0 then .inf neg else .nan)
  else if t.oneNan ∧ ex = 2 ^ t.ebits - 1 ∧ mn = 2 ^ t.mbits - 1 then .nan
  else if ex = 0 then .fin neg mn (fpEmin t)
  else .fin neg (2 ^ t.mbits + mn) (ex - t.bias - t.mbits)

/-- Is a value a NaN? -/
def Val.isNan : Val → Bool
  | .nan => true
  | _ => false

/-- Is a value finite? -/
def Val.isFin : Val → Bool
  | .fin .. => true
  | _ => false

/-- Is a value +0 or −0? -/
def Val.isZero : Val → Bool
  | .fin _ m _ => m == 0
  | _ => false

/-- The sign of a value (false for a NaN). -/
def Val.isNeg : Val → Bool
  | .nan => false
  | .inf n => n
  | .fin n _ _ => n

/-- Rounding modes of R106, with the 16 random bits of an SR conversion. -/
inductive Rnd where
  | rne
  | sr (r : Nat)
  deriving DecidableEq, Repr

/-- Round the magnitude m × 2^e to a multiple of 2^u (R107, R108): the multiple, and whether it is
inexact. -/
def roundTo (md : Rnd) (m : Nat) (e u : Int) : Nat × Bool :=
  if u ≤ e then (m * 2 ^ (e - u).toNat, false)
  else
    let sh := (u - e).toNat
    let lo := m / 2 ^ sh
    let rem := m % 2 ^ sh
    if rem = 0 then (lo, false)
    else match md with
      | .rne =>
        let twice := 2 * rem
        let up := decide (twice > 2 ^ sh) || (decide (twice = 2 ^ sh) && lo % 2 == 1)
        (if up then lo + 1 else lo, true)
      | .sr r => (if rem * 65536 / 2 ^ sh + r % 65536 ≥ 65536 then lo + 1 else lo, true)

/-- Compare the magnitudes m × 2^e and n × 2^u. -/
def magCmp (m : Nat) (e : Int) (n : Nat) (u : Int) : Ordering :=
  if e ≥ u then compare (m * 2 ^ (e - u).toNat) n else compare m (n * 2 ^ (u - e).toNat)

/-- The code of the magnitude n × 2^u, which the layout represents. -/
def fpEncodeMag (t : FpFmt) (n : Nat) (u : Int) : Nat :=
  if n = 0 then 0
  else
    let k : Int := Nat.log2 n + u
    let ex : Int := k + t.bias
    if ex ≤ 0 then
      let sh := u - fpEmin t
      if sh ≥ 0 then n * 2 ^ sh.toNat else n / 2 ^ (-sh).toNat
    else
      let mn := if Nat.log2 n ≥ t.mbits then n / 2 ^ (Nat.log2 n - t.mbits) else n * 2 ^ (t.mbits - Nat.log2 n)
      ex.toNat * 2 ^ t.mbits + (mn - 2 ^ t.mbits)

/-- Convert an exact value into a floating-point layout (R104 to R110). For the group element
layouts NaN and infinity have no code: the group encoder treats them first (R101). -/
def fpConvert (t : FpFmt) (md : Rnd) (sat : Bool) : Val → Nat × FFlags
  | .nan => (fpNan t, {})
  | .inf neg =>
    if t.ieee then (fpSign t neg + fpInf t, {})
    else if t.oneNan then (fpNan t, { inx := true })
    else (fpSign t neg + fpMaxCode t, { inx := true })
  | .fin neg m e =>
    if m = 0 then (fpSign t neg, {})
    else
      let k : Int := Nat.log2 m + e
      let u := max (k - t.mbits) (fpEmin t)
      let (n, inx) := roundTo md m e u
      let small := decide (k < 1 - t.bias)
      match fpDecode t (fpMaxCode t) with
      | .fin _ mm me =>
        if magCmp n u mm me == .gt then
          let code := if t.ieee && !sat then fpInf t else fpMaxCode t
          (fpSign t neg + code, { ovf := true, inx := true })
        else (fpSign t neg + fpEncodeMag t n u, { inx := inx, unf := inx && small })
      | _ => (0, {})

/-- Convert an exact value to an integer of `w` bits, RNE (R106, R109). An infinity becomes a value other than it; a
NaN has no exact value to differ from. An integer format has no smallest normal: an inexact result of magnitude below 1
underflows (DESIGN CHOICE, log 78). -/
def intConvert (w : Nat) : Val → Int × FFlags
  | .nan => (0, { inv := true })
  | .inf neg => (if neg then -(2 ^ (w - 1) : Nat) else (2 ^ (w - 1) : Nat) - 1, { inv := true, inx := true })
  | .fin neg m e =>
    let (n, inx) := roundTo .rne m e 0
    let i : Int := if neg then -(n : Int) else n
    let c := clampSigned w i
    if c = i then (i, { inx := inx, unf := inx && (magCmp m e 1 0 == .lt) })
    else (c, { ovf := true, inx := true })

/-- An integer as an exact value. -/
def valOfInt (i : Int) : Val := .fin (decide (i < 0)) i.natAbs 0

/-- The integer n × 2^k times a value. -/
def valScale (k : Int) : Val → Val
  | .fin n m e => .fin n m (e + k)
  | v => v

/-! ## Scaled groups (R98 to R101) -/

/-- The three group formats. -/
inductive GFmt where
  | mb6 | mb4 | d2
  deriving DecidableEq, Repr

/-- Bits per element. -/
def gWidth : GFmt → Nat
  | .mb6 => 6 | .mb4 => 4 | .d2 => 2

/-- emax of R101, as (mantissa, exponent). -/
def gEmax : GFmt → Nat × Int
  | .mb6 => (28, 0) | .mb4 => (6, 0) | .d2 => (3, -1)

/-- The value of an element code under scale byte s (R98, R99). -/
def gDecode (g : GFmt) (s code : Nat) : Val :=
  if s = 255 then .nan
  else
    let v : Val := match g with
      | .mb6 => fpDecode fmtE3M2 code
      | .mb4 => fpDecode fmtE2M1 code
      | .d2 => if s = 0 then .fin false 0 0
               else .fin (code.testBit 1) (if code.testBit 0 then 3 else 1) (-1)
    valScale (s - 127) v

/-- Does amax = (m, e) fit emax × 2^(s − 127)? -/
def gFits (g : GFmt) (m : Nat) (e : Int) (s : Nat) : Bool :=
  let (em, ee) := gEmax g
  magCmp m e em (ee + (s - 127)) != .gt

/-- Least s from `s` up, with `n` values left to try; 254 when none fits (R101 step 3). -/
def gScaleFrom (g : GFmt) (m : Nat) (e : Int) : Nat → Nat → Nat
  | 0, _ => 254
  | n + 1, s => if gFits g m e s then s else gScaleFrom g m e n (s + 1)

/-- The magnitude of the larger of two finite values. -/
def magMax (a b : Nat × Int) : Nat × Int := if magCmp a.1 a.2 b.1 b.2 == .lt then b else a

/-- The largest magnitude of a list of finite values. -/
def amaxOf (vs : List Val) : Nat × Int :=
  vs.foldl (fun a v => match v with | .fin _ m e => magMax a (m, e) | _ => a) (0, 0)

/-- The scale byte a group of values takes (R101 steps 1 to 3). -/
def gScale (g : GFmt) (vs : List Val) : Nat :=
  if vs.any (fun v => !v.isFin) then 255
  else
    let (m, e) := amaxOf vs
    if m = 0 then 0 else gScaleFrom g m e 255 0

/-- One element of a group under scale s (R101 step 4): its code and flags. -/
def gElement (g : GFmt) (s : Nat) (md : Rnd) (v : Val) : Nat × FFlags :=
  match valScale (127 - s) v with
  | .fin neg m e =>
    match g with
    | .mb6 => fpConvert fmtE3M2 md true (.fin neg m e)
    | .mb4 => fpConvert fmtE2M1 md true (.fin neg m e)
    | .d2 =>
      let sg := if neg then 2 else 0
      if m = 0 then (0, { inx := true, unf := true })
      else match magCmp m e 1 (-1) with
        | .lt => (sg, { inx := true, unf := true })
        | .eq => (sg, {})
        | .gt =>
          match magCmp m e 3 (-1) with
          | .gt => (sg + 1, { ovf := true, inx := true })
          | .eq => (sg + 1, {})
          | .lt =>
            -- between 0.5 and 1.5: the magnitude less 0.5 is a fraction of 1
            let (d, de) : Nat × Int :=
              if e ≥ -1 then (m * 2 ^ (e + 1).toNat - 1, -1) else (m - 2 ^ (-1 - e).toNat, e)
            let (n, _) := roundTo md d de 0
            (sg + n, { inx := true })
  | _ => (0, {})

/-- Encode a group of values (R101): scale byte, element codes, flags of each element. `rnd k` is
the rounding of element k. In a NaN group the infinities, which made it, raise I, and every element that is no NaN
comes out as another value (log 78). -/
def gEncode (g : GFmt) (rnd : Nat → Rnd) (vs : List Val) : Nat × List Nat × List FFlags :=
  let s := gScale g vs
  if s = 255 then (255, vs.map (fun _ => 0), vs.map (fun v => { inv := !v.isNan && !v.isFin, inx := !v.isNan }))
  else if (amaxOf vs).1 = 0 then
    (0, vs.map (fun _ => 0), vs.map (fun _ => {}))
  else
    let es := vs.zipIdx.map (fun (v, k) => gElement g s (rnd k) v)
    (s, es.map (·.1), es.map (·.2))

/-- Pack element codes of width w, element 0 in the lowest bits of the first byte (R100). -/
def packCodes (w : Nat) (cs : List Nat) : Bytes :=
  leBytes (ceilDiv (w * cs.length) 8) (cs.zipIdx.foldl (fun a (c, k) => a + (c % 2 ^ w) * 2 ^ (w * k)) 0)

/-- Unpack `n` element codes of width w. -/
def unpackCodes (w n : Nat) (bs : Bytes) : List Nat :=
  let v := leNat bs
  (List.range n).map (fun k => bits v (w * k + w - 1) (w * k))

/-! ## Exact arithmetic on values, and the FP32 operations of the units -/

/-- The signed mantissa. -/
def sgn (neg : Bool) (m : Nat) : Int := if neg then -(m : Int) else m

/-- The exact sum; a zero sum of opposite values is +0. -/
def valAdd : Val → Val → Val
  | .nan, _ => .nan
  | _, .nan => .nan
  | .inf a, .inf b => if a = b then .inf a else .nan
  | .inf a, _ => .inf a
  | _, .inf b => .inf b
  | .fin a m e, .fin b n u =>
    if m = 0 ∧ n = 0 then .fin (a && b) 0 0
    else
      let l := min e u
      let x := sgn a (m * 2 ^ (e - l).toNat) + sgn b (n * 2 ^ (u - l).toNat)
      .fin (decide (x < 0)) x.natAbs l

/-- The exact product. -/
def valMul : Val → Val → Val
  | .nan, _ => .nan
  | _, .nan => .nan
  | .inf a, .inf b => .inf (a != b)
  | .inf a, .fin b n _ => if n = 0 then .nan else .inf (a != b)
  | .fin a m _, .inf b => if m = 0 then .nan else .inf (a != b)
  | .fin a m e, .fin b n u => .fin (a != b) (m * n) (e + u)

/-- The negation. -/
def valNeg : Val → Val
  | .nan => .nan
  | .inf a => .inf (!a)
  | .fin a m e => .fin (!a) m e

/-- The magnitude. -/
def valAbs : Val → Val
  | .nan => .nan
  | .inf _ => .inf false
  | .fin _ m e => .fin false m e

/-- A quotient to at least 64 significant bits with a sticky lowest bit: enough for any RNE
rounding to FP32 to equal that of the exact quotient. Division by zero gives an infinity. -/
def valDiv : Val → Val → Val
  | .nan, _ => .nan
  | _, .nan => .nan
  | .inf _, .inf _ => .nan
  | .inf a, .fin b _ _ => .inf (a != b)
  | .fin a _ _, .inf b => .fin (a != b) 0 0
  | .fin a m e, .fin b n u =>
    if n = 0 then (if m = 0 then .nan else .inf (a != b))
    else
      let k := 64 + Nat.log2 n
      let q := m * 2 ^ k / n
      let st := if m * 2 ^ k % n = 0 then 0 else 1
      .fin (a != b) (2 * q + st) (e - u - k - 1)

/-- The integer square root by bisection on the bits, from bit i down. -/
def isqrtFrom (n : Nat) : Nat → Nat → Nat
  | 0, acc => acc
  | i + 1, acc =>
    let t := acc + 2 ^ i
    isqrtFrom n i (if t * t ≤ n then t else acc)

/-- floor(sqrt n). -/
def isqrt (n : Nat) : Nat := isqrtFrom n (Nat.log2 n / 2 + 1) 0

/-- A square root to at least 64 significant bits with a sticky lowest bit; −0 gives −0. -/
def valSqrt : Val → Val
  | .nan => .nan
  | .inf true => .nan
  | .inf false => .inf false
  | .fin neg m e =>
    if m = 0 then .fin neg 0 0
    else if neg then .nan
    else
      let k : Nat := if e % 2 = 0 then 130 else 131
      let n := m * 2 ^ k
      let r := isqrt n
      .fin false (2 * r + (if r * r = n then 0 else 1)) ((e - k) / 2 - 1)

/-- Order two values that are not NaN. -/
def valCmp (a b : Val) : Ordering :=
  match a, b with
  | .inf x, .inf y => if x = y then .eq else if x then .lt else .gt
  | .inf x, _ => if x then .lt else .gt
  | _, .inf y => if y then .gt else .lt
  | .fin x m e, .fin y n u =>
    if m = 0 ∧ n = 0 then .eq
    else
      let l := min e u
      compare (sgn x (m * 2 ^ (e - l).toNat)) (sgn y (n * 2 ^ (u - l).toNat))
  | _, _ => .eq

/-- An FP32 code as a value. -/
def f32 (code : Nat) : Val := fpDecode fmtFP32 code

/-- A value rounded to FP32, RNE, SAT 0: the code and its flags. -/
def toF32 (v : Val) : Nat × FFlags := fpConvert fmtFP32 .rne false v

/-- FP32 code only. -/
def toF32c (v : Val) : Nat := (toF32 v).1

/-- The canonical FP32 NaN. -/
def f32NaN : Nat := 0x7FC00000

def f32Add (a b : Nat) : Nat := toF32c (valAdd (f32 a) (f32 b))
def f32Sub (a b : Nat) : Nat := toF32c (valAdd (f32 a) (valNeg (f32 b)))
def f32Mul (a b : Nat) : Nat := toF32c (valMul (f32 a) (f32 b))
def f32Div (a b : Nat) : Nat := toF32c (valDiv (f32 a) (f32 b))
def f32Sqrt (a : Nat) : Nat := toF32c (valSqrt (f32 a))
/-- a × b + c with one rounding. -/
def f32Fma (a b c : Nat) : Nat := toF32c (valAdd (valMul (f32 a) (f32 b)) (f32 c))

/-- A BF16 code as a value, and its exact FP32 code (R105). -/
def bf16 (code : Nat) : Val := fpDecode fmtBF16 code
def bf16ToF32 (code : Nat) : Nat := toF32c (bf16 code)

/-! ## Formats by code (R93) -/

/-- Bits per element of a format code; 0 for the group formats and reserved codes. -/
def elemBits : Nat → Nat
  | 0 => 32 | 1 => 16 | 2 => 16 | 3 => 8 | 4 => 8 | 8 => 8 | 9 => 32 | 10 => 48 | _ => 0

/-- The floating-point layout of a format code. -/
def fpOfCode : Nat → Option FpFmt
  | 0 => some fmtFP32 | 1 => some fmtBF16 | 2 => some fmtFP16 | 3 => some fmtE4M3 | 4 => some fmtE5M2
  | _ => none

/-- The group format of a format code. -/
def groupOfCode : Nat → Option GFmt
  | 5 => some .mb6 | 6 => some .mb4 | 7 => some .d2 | _ => none

/-- The exact value of an element of a plain (not grouped) format. -/
def elemDecode (fmt code : Nat) : Val :=
  match fpOfCode fmt with
  | some t => fpDecode t code
  | none => valOfInt (sext (elemBits fmt) code)

/-- Convert a value to an element of a plain format. -/
def elemConvert (fmt : Nat) (md : Rnd) (sat : Bool) (v : Val) : Nat × FFlags :=
  match fpOfCode fmt with
  | some t => fpConvert t md sat v
  | none =>
    let (i, fl) := intConvert (elemBits fmt) v
    (wrap (elemBits fmt) i, fl)

/-! ## The stochastic-rounding hash (R112 to R115) -/

/-- mix of R113. -/
def srMix (x : Nat) : Nat :=
  let x := x ^^^ (x >>> 30)
  let x := x * 0xBF58476D1CE4E5B9 % 2 ^ 64
  let x := x ^^^ (x >>> 27)
  let x := x * 0x94D049BB133111EB % 2 ^ 64
  x ^^^ (x >>> 31)

/-- The 64-bit hash of R113. -/
def srHash (seed step tensor tag coord : Nat) : Nat :=
  let h := srMix ((seed % 2 ^ 64) ^^^ 0x9E3779B97F4A7C15)
  let h := srMix (h ^^^ (step % 2 ^ 64))
  let h := srMix (h ^^^ (((tensor % 2 ^ 32) <<< 32) ||| ((tag % 256) <<< 24)))
  srMix (h ^^^ (coord % 2 ^ 48))

/-- The 16 random bits of an SR conversion. -/
def srBits (seed step tensor tag coord : Nat) : Nat := srHash seed step tensor tag coord % 65536

/-! ## Exact reduction arithmetic (R118 to R122) -/

/-- e(x) of R118. -/
def expOf : Val → Option Int
  | .fin _ m e => if m = 0 then none else some (Nat.log2 m + e)
  | _ => none

/-- The group exponent: the largest e(x) of all contributions; none when all are zero. -/
def groupExp (vs : List Val) : Option Int :=
  vs.foldl (fun a v => match a, expOf v with
    | none, x => x
    | some g, some x => some (max g x)
    | a, none => a) none

/-- The EX48 value RNE(x × 2^(31 − g)) of R119. -/
def ex48Of (g : Int) (v : Val) : Int := (intConvert 48 (valScale (31 - g) v)).1

/-- The exact sum of one element over its contributors, as FP32 (R120 to R122). -/
def exactSum (g : Option Int) (anyBad : Bool) (vs : List Val) : Nat :=
  if anyBad then f32NaN
  else match g with
    | none => 0
    | some g =>
      let s := vs.foldl (fun a v => a + ex48Of g v) (0 : Int)
      if s = 0 then 0 else toF32c (valScale (g - 31) (valOfInt s))

end Sys2Proof.Machine
end

