-- ==== Sys2Proof/Machine/RegTable.lean ====
section
/-! DEFINITION. The BAR0 register map (R10 to R15): every register of the spec's register tables,
with its offset, its copies, who may write it, and its fields' types and reset values. Fields the
spec marks RSV are not listed. Values "per code" or "from flash" are listed as 0 here and computed
where the register is read (`Machine/Regs.lean`). -/

namespace Sys2Proof.Machine

/-- The register field types of R12. -/
inductive FTy where
  | ro | rw | w1c | rc | wo
  deriving DecidableEq, Repr

/-- A field: its bits, type, reset value and the values a write may set (others are ignored). -/
structure Fld where
  hi : Nat
  lo : Nat
  ty : FTy
  rst : Nat
  least : Nat
  most : Nat
  deriving DecidableEq, Repr

/-- Who may write a register; the device ignores the writes of the others. -/
inductive Writer where
  | host | cores | both
  deriving DecidableEq, Repr

/-- A register and its copies: `dims` gives the (stride, count) of each index, outermost first.
`resetIx` times the innermost index is added to the reset value. -/
structure RegDef where
  name : String
  base : Nat
  dims : List (Nat × Nat)
  writer : Writer
  resetIx : Nat
  flds : List Fld
  deriving DecidableEq, Repr

/-- A field of any value. -/
def fd (hi lo : Nat) (ty : FTy) (rst : Nat) : Fld := ⟨hi, lo, ty, rst, 0, 0xFFFFFFFF⟩
/-- A field whose writes outside least..most are ignored. -/
def fdr (hi lo : Nat) (ty : FTy) (rst least most : Nat) : Fld := ⟨hi, lo, ty, rst, least, most⟩

/-- The registers of unit HIF (R3, R629, R648). -/
def regsHif : List RegDef := [
  -- R648
  ⟨"HIF.ID", 0x00000000, [], .cores, 0x0,
    [fd 31 16 .ro 0x7208, fd 15 8 .ro 0xb0]⟩,
  -- R3
  ⟨"HIF.ASSEMBLY", 0x00000010, [], .cores, 0x0,
    [fd 15 8 .ro 0xb0, fd 7 4 .ro 0, fd 3 0 .ro 0]⟩,
  -- R648
  ⟨"HIF.BOOT_STATUS", 0x00000020, [], .cores, 0x0,
    [fd 31 16 .ro 0, fd 3 3 .ro 0, fd 2 2 .ro 0, fd 1 1 .ro 0, fd 0 0 .ro 0]⟩,
  -- R648
  ⟨"HIF.RESET_CAUSE", 0x00000024, [], .cores, 0x0,
    [fd 2 0 .ro 0]⟩,
  -- R648
  ⟨"HIF.RESET_CTL", 0x00000028, [], .host, 0x0,
    [fd 0 0 .wo 0]⟩,
  -- R648
  ⟨"HIF.BAR2_BASE_LO", 0x00000030, [], .host, 0x0,
    [fd 31 0 .rw 0]⟩,
  -- R648
  ⟨"HIF.BAR2_BASE_HI", 0x00000034, [], .host, 0x0,
    [fd 15 0 .rw 0]⟩,
  -- R648
  ⟨"HIF.BAR2_CTL", 0x00000038, [], .host, 0x0,
    [fd 7 0 .rw 0]⟩,
  -- R648
  ⟨"HIF.LINK", 0x00000040, [], .cores, 0x0,
    [fd 15 8 .ro 0, fd 7 0 .ro 0]⟩,
  -- R648
  ⟨"HIF.PWR_LIMIT", 0x00000050, [], .host, 0x0,
    [fd 15 0 .rw 0]⟩,
  -- R648
  ⟨"HIF.PWR_LIMIT_MGMT", 0x00000054, [], .cores, 0x0,
    [fd 15 0 .ro 0]⟩,
  -- R648
  ⟨"HIF.PWR_STATE", 0x00000058, [], .cores, 0x0,
    [fd 31 16 .ro 0, fd 1 1 .ro 0, fd 0 0 .ro 0]⟩,
  -- R648
  ⟨"HIF.THERM_CTL", 0x0000005C, [], .host, 0x0,
    [fdr 6 0 .rw 0x64 85 103]⟩,
  -- R648
  ⟨"HIF.CLAMP_EVENTS", 0x00000060, [], .cores, 0x0,
    [fd 31 0 .rc 0]⟩,
  -- R648
  ⟨"HIF.FUSE_PROGRAM", 0x00000064, [], .cores, 0x0,
    [fd 3 0 .wo 0]⟩,
  -- R648
  ⟨"HIF.RAIL_STATUS", 0x00000070, [], .cores, 0x0,
    [fd 10 0 .ro 0]⟩,
  -- R629
  ⟨"HIF.MSIX_ADDR_LO", 0x00010000, [(0x10, 2048)], .host, 0x0,
    [fd 31 2 .rw 0]⟩,
  -- R629
  ⟨"HIF.MSIX_ADDR_HI", 0x00010004, [(0x10, 2048)], .host, 0x0,
    [fd 31 0 .rw 0]⟩,
  -- R629
  ⟨"HIF.MSIX_DATA", 0x00010008, [(0x10, 2048)], .host, 0x0,
    [fd 31 0 .rw 0]⟩,
  -- R629
  ⟨"HIF.MSIX_CTRL", 0x0001000C, [(0x10, 2048)], .host, 0x0,
    [fd 0 0 .rw 1]⟩,
  -- R629
  ⟨"HIF.MSIX_PBA", 0x00018000, [(0x4, 64)], .cores, 0x0,
    [fd 31 0 .ro 0]⟩]

/-- The registers of unit CMD (R70, R76, R78, R79, R81, R86, R315). -/
def regsCmd : List RegDef := [
  -- R70
  ⟨"CMD.MBOX_OPCODE", 0x00100000, [], .host, 0x0,
    [fd 15 0 .rw 0]⟩,
  -- R70
  ⟨"CMD.MBOX_FLAGS", 0x00100004, [], .host, 0x0,
    [fd 0 0 .w1c 0, fd 1 1 .rw 0]⟩,
  -- R70
  ⟨"CMD.MBOX_ARGn", 0x00100010, [(0x4, 12)], .host, 0x0,
    [fd 31 0 .rw 0]⟩,
  -- R70
  ⟨"CMD.MBOX_DOORBELL", 0x00100040, [], .host, 0x0,
    [fd 0 0 .wo 0]⟩,
  -- R70
  ⟨"CMD.MBOX_RESULT", 0x00100044, [], .host, 0x0,
    [fd 15 0 .ro 0]⟩,
  -- R70
  ⟨"CMD.MBOX_DATA0", 0x00100048, [], .host, 0x0,
    [fd 31 0 .ro 0]⟩,
  -- R70
  ⟨"CMD.MBOX_DATA1", 0x0010004C, [], .host, 0x0,
    [fd 31 0 .ro 0]⟩,
  -- R70
  ⟨"CMD.MBOX_DATAn", 0x00100050, [(0x4, 8)], .host, 0x0,
    [fd 31 0 .ro 0]⟩,
  -- R78
  ⟨"CMD.CURATOR_STATE", 0x00100080, [], .cores, 0x0,
    [fd 3 0 .ro 0]⟩,
  -- R81
  ⟨"CMD.CURATOR_VERSION", 0x00100084, [], .cores, 0x0,
    [fd 31 0 .ro 0]⟩,
  -- R81
  ⟨"CMD.FATAL_CAUSE", 0x00100088, [], .cores, 0x0,
    [fd 15 0 .ro 0]⟩,
  -- R79
  ⟨"CMD.WDOG_CFG", 0x00100100, [], .cores, 0x0,
    [fdr 9 0 .rw 0x64 1 1000]⟩,
  -- R79
  ⟨"CMD.WDOG_PET", 0x00100104, [], .cores, 0x0,
    [fd 31 0 .wo 0]⟩,
  -- R86
  ⟨"CMD.REHANG_WINDOW", 0x00100108, [], .cores, 0x0,
    [fdr 11 0 .rw 0xfa 10 4000]⟩,
  -- R81
  ⟨"CMD.DRAIN_BOUND", 0x0010010C, [], .both, 0x0,
    [fdr 13 0 .rw 0xa 1 10000]⟩,
  -- R76
  ⟨"CMD.EVENT_LOST", 0x00100114, [], .cores, 0x0,
    [fd 31 0 .rc 0]⟩,
  -- R315
  ⟨"CMD.PIPE_STATE", 0x00102000, [(0x20, 64)], .cores, 0x0,
    [fd 15 8 .ro 0, fd 2 0 .ro 0]⟩,
  -- R315
  ⟨"CMD.PIPE_NEXT", 0x00102004, [(0x20, 64)], .cores, 0x0,
    [fd 31 16 .ro 0, fd 15 0 .ro 0]⟩,
  -- R315
  ⟨"CMD.PIPE_STEP_LO", 0x00102008, [(0x20, 64)], .cores, 0x0,
    [fd 31 0 .ro 0]⟩,
  -- R315
  ⟨"CMD.PIPE_STEP_HI", 0x0010200C, [(0x20, 64)], .cores, 0x0,
    [fd 31 0 .ro 0]⟩,
  -- R315
  ⟨"CMD.PIPE_RETIRED", 0x00102010, [(0x20, 64)], .cores, 0x0,
    [fd 22 16 .ro 0, fd 15 0 .ro 0]⟩,
  -- R315
  ⟨"CMD.PIPE_REJECTS", 0x00102014, [(0x20, 64)], .cores, 0x0,
    [fd 31 0 .rc 0]⟩,
  -- R315
  ⟨"CMD.PIPE_FAULT", 0x00102018, [(0x20, 64)], .cores, 0x0,
    [fd 31 16 .ro 0, fd 7 0 .ro 0]⟩]

/-- The registers of unit QSU (R52, R62). -/
def regsQsu : List RegDef := [
  -- R52
  ⟨"QSU.RING_BASE_LO", 0x00210000, [(0x20, 16384)], .cores, 0x0,
    [fd 31 6 .rw 0]⟩,
  -- R52
  ⟨"QSU.RING_BASE_HI", 0x00210004, [(0x20, 16384)], .cores, 0x0,
    [fd 31 0 .rw 0]⟩,
  -- R52
  ⟨"QSU.RING_CFG", 0x00210008, [(0x20, 16384)], .cores, 0x0,
    [fd 21 11 .rw 0, fd 10 10 .rw 0, fd 8 4 .rw 6, fd 3 2 .rw 0, fd 1 1 .rw 0, fd 0 0 .rw 0]⟩,
  -- R52
  ⟨"QSU.RING_PAIR", 0x0021000C, [(0x20, 16384)], .cores, 0x0,
    [fd 31 16 .rw 0, fd 13 0 .rw 0]⟩,
  -- R52
  ⟨"QSU.RING_HEAD", 0x00210010, [(0x20, 16384)], .both, 0x0,
    [fd 20 20 .rw 0, fd 19 0 .rw 0]⟩,
  -- R52
  ⟨"QSU.RING_TAIL", 0x00210014, [(0x20, 16384)], .both, 0x0,
    [fd 20 20 .rw 0, fd 19 0 .rw 0]⟩,
  -- R52
  ⟨"QSU.RING_STATUS", 0x00210018, [(0x20, 16384)], .both, 0x0,
    [fd 31 16 .ro 0, fd 3 3 .w1c 0, fd 2 2 .ro 0, fd 1 1 .ro 0, fd 0 0 .w1c 0]⟩,
  -- R52
  ⟨"QSU.RING_RESV", 0x0021001C, [(0x20, 16384)], .cores, 0x0,
    [fd 20 0 .ro 0]⟩,
  -- R62
  ⟨"QSU.TALLY_VALUE", 0x00300000, [(0x10, 65536)], .both, 0x0,
    [fd 31 0 .rw 0]⟩,
  -- R62
  ⟨"QSU.TALLY_ADD", 0x00300004, [(0x10, 65536)], .both, 0x0,
    [fd 15 0 .wo 0]⟩,
  -- R62
  ⟨"QSU.TALLY_IRQ", 0x00300008, [(0x10, 65536)], .both, 0x0,
    [fd 31 0 .rw 0]⟩,
  -- R62
  ⟨"QSU.TALLY_CFG", 0x0030000C, [(0x10, 65536)], .both, 0x0,
    [fd 31 16 .ro 0, fd 13 3 .rw 0, fd 2 2 .w1c 0, fd 1 1 .ro 0, fd 0 0 .rw 0]⟩]

/-- The registers of unit TMU (R589). -/
def regsTmu : List RegDef := [
  -- R589
  ⟨"TMU.STATE", 0x00600000, [], .cores, 0x0,
    [fd 12 8 .ro 0x1f, fd 3 3 .ro 0, fd 2 0 .ro 0]⟩,
  -- R589
  ⟨"TMU.TIME_LO", 0x00600004, [], .cores, 0x0,
    [fd 31 0 .rc 0]⟩,
  -- R589
  ⟨"TMU.TIME_HI_LATCH", 0x00600008, [], .cores, 0x0,
    [fd 31 0 .ro 0]⟩,
  -- R589
  ⟨"TMU.OFFSET", 0x0060000C, [], .cores, 0x0,
    [fd 31 0 .ro 0]⟩,
  -- R589
  ⟨"TMU.FREQ_ADJ", 0x00600010, [], .cores, 0x0,
    [fd 31 0 .ro 0]⟩,
  -- R589
  ⟨"TMU.ERROR_BOUND", 0x00600014, [], .cores, 0x0,
    [fd 31 0 .ro 0xffffffff]⟩,
  -- R589
  ⟨"TMU.STEPS", 0x00600018, [], .cores, 0x0,
    [fd 31 0 .rc 0]⟩,
  -- R589
  ⟨"TMU.HOLDOVER", 0x0060001C, [], .cores, 0x0,
    [fd 31 0 .ro 0]⟩,
  -- R589
  ⟨"TMU.TCLK_DIV", 0x00600020, [], .cores, 0x0,
    [fd 3 0 .rw 8, fd 7 4 .rw 8, fd 11 8 .rw 8, fd 15 12 .rw 8]⟩,
  -- R589
  ⟨"TMU.TCLK_CLAMP", 0x00600024, [], .cores, 0x0,
    [fd 3 0 .ro 8, fd 7 4 .ro 8, fd 11 8 .ro 8, fd 15 12 .ro 8]⟩,
  -- R589
  ⟨"TMU.TIMERS_ARMED", 0x00600028, [], .cores, 0x0,
    [fd 10 0 .ro 0]⟩,
  -- R589
  ⟨"TMU.MISSED", 0x0060002C, [], .cores, 0x0,
    [fd 31 0 .rc 0]⟩,
  -- R589
  ⟨"TMU.CAP_STATE", 0x00600040, [(0x4, 5)], .cores, 0x0,
    [fd 31 31 .w1c 0, fd 6 0 .ro 0]⟩,
  -- R589
  ⟨"TMU.CAP_POP_LO", 0x00600060, [(0x8, 5)], .cores, 0x0,
    [fd 31 0 .rc 0]⟩,
  -- R589
  ⟨"TMU.CAP_POP_HI", 0x00600064, [(0x8, 5)], .cores, 0x0,
    [fd 31 0 .ro 0]⟩,
  -- R589
  ⟨"TMU.PORT_LATENCY", 0x00600100, [(0x4, 20)], .cores, 0x0,
    [fd 31 16 .rw 0, fd 15 0 .rw 0]⟩]

/-- The registers of unit HMC (R350, R351). -/
def regsHmc : List RegDef := [
  -- R350
  ⟨"HMC.CTL_STATE", 0x00700000, [(0x800, 12)], .cores, 0x0,
    [fd 3 3 .ro 0, fd 2 2 .ro 0, fd 1 1 .ro 0, fd 0 0 .ro 0]⟩,
  -- R350
  ⟨"HMC.ECC_CORRECTED", 0x00700004, [(0x800, 12)], .cores, 0x0,
    [fd 31 0 .rc 0]⟩,
  -- R350
  ⟨"HMC.ECC_CHECK_ONLY", 0x00700008, [(0x800, 12)], .cores, 0x0,
    [fd 31 0 .rc 0]⟩,
  -- R350
  ⟨"HMC.ECC_UNCORR", 0x0070000C, [(0x800, 12)], .cores, 0x0,
    [fd 31 0 .rc 0]⟩,
  -- R350
  ⟨"HMC.ECC_ADDR_LO", 0x00700010, [(0x800, 12)], .cores, 0x0,
    [fd 31 0 .ro 0]⟩,
  -- R350
  ⟨"HMC.ECC_ADDR_HI", 0x00700014, [(0x800, 12)], .cores, 0x0,
    [fd 3 0 .ro 0]⟩,
  -- R350
  ⟨"HMC.POISON_WRITES", 0x00700018, [(0x800, 12)], .cores, 0x0,
    [fd 31 0 .rc 0]⟩,
  -- R350
  ⟨"HMC.SCRUB_PROGRESS", 0x0070001C, [(0x800, 12)], .cores, 0x0,
    [fd 14 0 .ro 0]⟩,
  -- R350
  ⟨"HMC.WADD_COUNT", 0x00700020, [(0x800, 12)], .cores, 0x0,
    [fd 31 0 .rc 0]⟩,
  -- R350
  ⟨"HMC.WADD_FLAGS", 0x00700024, [(0x800, 12)], .cores, 0x0,
    [fd 2 2 .w1c 0, fd 1 1 .w1c 0, fd 0 0 .w1c 0]⟩,
  -- R350
  ⟨"HMC.TRAFFIC", 0x00700028, [(0x800, 12)], .cores, 0x0,
    [fd 31 0 .rc 0]⟩,
  -- R351
  ⟨"HMC.CAT_BASE_LO", 0x00707000, [], .cores, 0x0,
    [fd 31 16 .rw 0]⟩,
  -- R351
  ⟨"HMC.CAT_BASE_HI", 0x00707004, [], .cores, 0x0,
    [fd 15 0 .rw 0]⟩,
  -- R351
  ⟨"HMC.CAT_CTL", 0x00707008, [], .cores, 0x0,
    [fd 0 0 .rw 0]⟩,
  -- R351
  ⟨"HMC.CAT_STALE", 0x0070700C, [], .cores, 0x0,
    [fdr 16 0 .rw 0x3e8 100 100000]⟩,
  -- R351
  ⟨"HMC.SCRUB_PERIOD", 0x00707010, [], .cores, 0x0,
    [fdr 7 0 .rw 0x18 1 168]⟩,
  -- R351
  ⟨"HMC.RETIRE_THRESHOLD", 0x00707014, [], .cores, 0x0,
    [fd 15 0 .rw 0x10]⟩,
  -- R351
  ⟨"HMC.PROT_FAULT", 0x00707018, [], .cores, 0x0,
    [fd 31 31 .w1c 0, fd 15 8 .ro 0, fd 7 4 .ro 0, fd 3 0 .ro 0]⟩,
  -- R351
  ⟨"HMC.PROT_ADDR_LO", 0x0070701C, [], .cores, 0x0,
    [fd 31 0 .ro 0]⟩,
  -- R351
  ⟨"HMC.PROT_ADDR_HI", 0x00707020, [], .cores, 0x0,
    [fd 15 0 .ro 0]⟩,
  -- R351
  ⟨"HMC.PROT_COUNT", 0x00707024, [], .cores, 0x0,
    [fd 31 0 .rc 0]⟩,
  -- R351
  ⟨"HMC.CAT_INVALIDATIONS", 0x00707028, [], .cores, 0x0,
    [fd 31 0 .rc 0]⟩,
  -- R351
  ⟨"HMC.STACK_MAP", 0x0070702C, [], .cores, 0x0,
    [fd 27 16 .ro 0, fd 11 0 .ro 0]⟩,
  -- R351
  ⟨"HMC.FREE_FRAMES", 0x00707030, [], .cores, 0x0,
    [fd 18 0 .ro 0]⟩,
  -- R351
  ⟨"HMC.LEAVES_FREE", 0x00707034, [], .cores, 0x0,
    [fd 11 0 .ro 0x7fc]⟩]

/-- The registers of unit PSE (R389). -/
def regsPse : List RegDef := [
  -- R389
  ⟨"PSE.STATE", 0x00800000, [], .cores, 0x0,
    [fd 10 10 .ro 0, fd 9 9 .ro 0, fd 8 8 .ro 0, fd 3 0 .ro 0]⟩,
  -- R389
  ⟨"PSE.JOB", 0x00800004, [], .cores, 0x0,
    [fd 15 0 .ro 0]⟩,
  -- R389
  ⟨"PSE.STEP_LO", 0x00800008, [], .cores, 0x0,
    [fd 31 0 .ro 0]⟩,
  -- R389
  ⟨"PSE.STEP_HI", 0x0080000C, [], .cores, 0x0,
    [fd 31 0 .ro 0]⟩,
  -- R389
  ⟨"PSE.SUPPRESSED", 0x00800010, [], .cores, 0x0,
    [fd 31 0 .rc 0]⟩,
  -- R389
  ⟨"PSE.LAST_NORM", 0x00800014, [], .cores, 0x0,
    [fd 31 0 .ro 0]⟩,
  -- R389
  ⟨"PSE.MEDIAN", 0x00800018, [], .cores, 0x0,
    [fd 31 0 .ro 0]⟩,
  -- R389
  ⟨"PSE.HISTORY", 0x0080001C, [], .cores, 0x0,
    [fd 10 0 .ro 0]⟩,
  -- R389
  ⟨"PSE.UPDATE_FLAGS", 0x00800020, [], .cores, 0x0,
    [fd 2 2 .w1c 0, fd 1 1 .w1c 0, fd 0 0 .w1c 0]⟩,
  -- R389
  ⟨"PSE.SEALED", 0x00800024, [], .cores, 0x0,
    [fd 31 0 .ro 0]⟩,
  -- R389
  ⟨"PSE.APPLIED", 0x00800028, [], .cores, 0x0,
    [fd 31 0 .ro 0]⟩,
  -- R389
  ⟨"PSE.ELEMENTS", 0x0080002C, [], .cores, 0x0,
    [fd 31 0 .rc 0]⟩]

/-- The registers of unit CFI (R425, R426, R427, R566). -/
def regsCfi : List RegDef := [
  -- R425
  ⟨"CFI.PORT_STATE", 0x00900000, [(0x100, 16)], .cores, 0x0,
    [fd 2 2 .ro 0, fd 1 1 .ro 0, fd 0 0 .rw 0]⟩,
  -- R425
  ⟨"CFI.PORT_IP6n", 0x00900004, [(0x100, 16), (0x4, 4)], .cores, 0x0,
    [fd 31 0 .rw 0]⟩,
  -- R425
  ⟨"CFI.PORT_GW_LO", 0x00900014, [(0x100, 16)], .cores, 0x0,
    [fd 31 0 .rw 0]⟩,
  -- R425
  ⟨"CFI.PORT_GW_HI", 0x00900018, [(0x100, 16)], .cores, 0x0,
    [fd 15 0 .rw 0]⟩,
  -- R425
  ⟨"CFI.PORT_MAC_LO", 0x0090001C, [(0x100, 16)], .cores, 0x0,
    [fd 31 0 .ro 0]⟩,
  -- R425
  ⟨"CFI.PORT_MAC_HI", 0x00900020, [(0x100, 16)], .cores, 0x0,
    [fd 15 0 .ro 0]⟩,
  -- R425
  ⟨"CFI.PORT_FEC_CORR", 0x00900024, [(0x100, 16)], .cores, 0x0,
    [fd 31 0 .rc 0]⟩,
  -- R425
  ⟨"CFI.PORT_FEC_UNCORR", 0x00900028, [(0x100, 16)], .cores, 0x0,
    [fd 31 0 .rc 0]⟩,
  -- R425
  ⟨"CFI.PORT_FCS_ERR", 0x0090002C, [(0x100, 16)], .cores, 0x0,
    [fd 31 0 .rc 0]⟩,
  -- R425
  ⟨"CFI.PORT_ICRC_ERR", 0x00900030, [(0x100, 16)], .cores, 0x0,
    [fd 31 0 .rc 0]⟩,
  -- R425
  ⟨"CFI.PORT_DISCARDS", 0x00900034, [(0x100, 16)], .cores, 0x0,
    [fd 31 0 .rc 0]⟩,
  -- R425
  ⟨"CFI.PORT_TX", 0x00900038, [(0x100, 16)], .cores, 0x0,
    [fd 31 0 .rc 0]⟩,
  -- R425
  ⟨"CFI.PORT_RX", 0x0090003C, [(0x100, 16)], .cores, 0x0,
    [fd 31 0 .rc 0]⟩,
  -- R425
  ⟨"CFI.PORT_RETX", 0x00900040, [(0x100, 16)], .cores, 0x0,
    [fd 31 0 .rc 0]⟩,
  -- R425
  ⟨"CFI.PORT_ECN", 0x00900044, [(0x100, 16)], .cores, 0x0,
    [fd 31 0 .rc 0]⟩,
  -- R426
  ⟨"CFI.CTL", 0x00901000, [], .cores, 0x0,
    [fd 31 24 .rw 0, fd 15 0 .rw 0xb800]⟩,
  -- R426
  ⟨"CFI.DSCP", 0x00901004, [], .cores, 0x0,
    [fd 13 8 .rw 0x2e, fd 5 0 .rw 0x1a]⟩,
  -- R426
  ⟨"CFI.RTO_MIN", 0x00901008, [], .cores, 0x0,
    [fdr 16 0 .rw 0x14 5 1000]⟩,
  -- R426
  ⟨"CFI.RTO_MAX", 0x0090100C, [], .cores, 0x0,
    [fd 16 0 .rw 0x7d0]⟩,
  -- R426
  ⟨"CFI.CAPACITY", 0x00901010, [], .cores, 0x0,
    [fd 15 0 .ro 0]⟩,
  -- R426
  ⟨"CFI.RESERVED", 0x00901014, [], .cores, 0x0,
    [fd 15 0 .ro 0]⟩,
  -- R426
  ⟨"CFI.CELL", 0x00901018, [], .cores, 0x0,
    [fd 13 0 .ro 0, fd 29 16 .ro 0]⟩,
  -- R426
  ⟨"CFI.GROUP_MISMATCH", 0x0090101C, [], .cores, 0x0,
    [fd 31 0 .rc 0]⟩,
  -- R426
  ⟨"CFI.STALE_FRAMES", 0x00901020, [], .cores, 0x0,
    [fd 31 0 .rc 0]⟩,
  -- R427
  ⟨"CFI.GROUP_STATE", 0x00902000, [(0x20, 258)], .cores, 0x0,
    [fd 29 16 .ro 0, fd 15 8 .ro 0, fd 4 4 .ro 0, fd 3 3 .ro 0, fd 2 0 .ro 0]⟩,
  -- R427
  ⟨"CFI.GROUP_TAG", 0x00902004, [(0x20, 258)], .cores, 0x0,
    [fd 31 0 .ro 0]⟩,
  -- R427
  ⟨"CFI.GROUP_SEQ", 0x00902008, [(0x20, 258)], .cores, 0x0,
    [fd 31 0 .ro 0]⟩,
  -- R427
  ⟨"CFI.GROUP_RESERVE", 0x0090200C, [(0x20, 258)], .cores, 0x0,
    [fd 31 16 .ro 0, fd 15 0 .ro 0]⟩,
  -- R427
  ⟨"CFI.GROUP_TIMEOUT", 0x00902010, [(0x20, 258)], .cores, 0x0,
    [fd 11 0 .ro 0]⟩,
  -- R427
  ⟨"CFI.GROUP_INDEX", 0x00902014, [(0x20, 258)], .cores, 0x0,
    [fd 13 0 .ro 0]⟩,
  -- R427
  ⟨"CFI.GROUP_BYTES", 0x00902018, [(0x20, 258)], .cores, 0x0,
    [fd 31 0 .rc 0]⟩,
  -- R427
  ⟨"CFI.GROUP_WAIT", 0x0090201C, [(0x20, 258)], .cores, 0x0,
    [fd 31 0 .ro 0]⟩,
  -- R566
  ⟨"CFI.STORE_STATE", 0x00905000, [(0x40, 16)], .cores, 0x0,
    [fd 31 26 .ro 0, fd 25 22 .ro 0, fd 2 0 .ro 0]⟩,
  -- R566
  ⟨"CFI.STORE_RKEY", 0x00905004, [(0x40, 16)], .cores, 0x0,
    [fd 31 0 .ro 0]⟩,
  -- R566
  ⟨"CFI.STORE_BASE_LO", 0x00905008, [(0x40, 16)], .cores, 0x0,
    [fd 31 0 .ro 0]⟩,
  -- R566
  ⟨"CFI.STORE_BASE_HI", 0x0090500C, [(0x40, 16)], .cores, 0x0,
    [fd 31 0 .ro 0]⟩,
  -- R566
  ⟨"CFI.STORE_LEN_LO", 0x00905010, [(0x40, 16)], .cores, 0x0,
    [fd 31 0 .ro 0]⟩,
  -- R566
  ⟨"CFI.STORE_LEN_HI", 0x00905014, [(0x40, 16)], .cores, 0x0,
    [fd 31 0 .ro 0]⟩,
  -- R566
  ⟨"CFI.STORE_WRITTEN", 0x00905018, [(0x40, 16)], .cores, 0x0,
    [fd 31 0 .rc 0]⟩,
  -- R566
  ⟨"CFI.STORE_READ", 0x0090501C, [(0x40, 16)], .cores, 0x0,
    [fd 31 0 .rc 0]⟩,
  -- R566
  ⟨"CFI.STORE_RETRIES", 0x00905020, [(0x40, 16)], .cores, 0x0,
    [fd 31 0 .rc 0]⟩,
  -- R566
  ⟨"CFI.STORE_PROGRESS", 0x00905024, [(0x40, 16)], .cores, 0x0,
    [fd 31 0 .ro 0]⟩]

/-- The registers of unit WXU (R472, R473, R503, R504, R505). -/
def regsWxu : List RegDef := [
  -- R472
  ⟨"WXU.ROUND_STATE", 0x00A00000, [], .cores, 0x0,
    [fd 3 3 .ro 0, fd 2 2 .ro 0, fd 1 1 .ro 0, fd 0 0 .ro 0]⟩,
  -- R472
  ⟨"WXU.ROUND_OPEN_ACC", 0x00A00004, [], .cores, 0x0,
    [fd 31 0 .ro 0]⟩,
  -- R472
  ⟨"WXU.EPOCH", 0x00A00008, [], .cores, 0x0,
    [fd 31 16 .ro 0, fd 15 0 .ro 0]⟩,
  -- R472
  ⟨"WXU.EPOCH_CTL", 0x00A0000C, [], .cores, 0x0,
    [fd 0 0 .ro 0]⟩,
  -- R472
  ⟨"WXU.QUARANTINE", 0x00A00010, [], .cores, 0x0,
    [fdr 16 0 .rw 0x190 100 60000]⟩,
  -- R472
  ⟨"WXU.SANITISED", 0x00A00014, [], .cores, 0x0,
    [fd 31 0 .rc 0]⟩,
  -- R472
  ⟨"WXU.LATE_APPLIED", 0x00A00018, [], .cores, 0x0,
    [fd 31 0 .rc 0]⟩,
  -- R472
  ⟨"WXU.LATE_DISCARDED", 0x00A0001C, [], .cores, 0x0,
    [fd 31 0 .rc 0]⟩,
  -- R472
  ⟨"WXU.STALE_GEN", 0x00A00020, [], .cores, 0x0,
    [fd 31 0 .rc 0]⟩,
  -- R472
  ⟨"WXU.EPOCH_DISCARDS", 0x00A00024, [], .cores, 0x0,
    [fd 31 0 .rc 0]⟩,
  -- R472
  ⟨"WXU.CONTRIB_REJECTS", 0x00A00028, [], .cores, 0x0,
    [fd 31 0 .rc 0]⟩,
  -- R472
  ⟨"WXU.DUP_FRAGMENTS", 0x00A0002C, [], .cores, 0x0,
    [fd 31 0 .rc 0]⟩,
  -- R473
  ⟨"WXU.ACC_STATE", 0x00A00100, [(0x40, 4)], .cores, 0x0,
    [fd 9 8 .ro 0, fd 2 0 .ro 0]⟩,
  -- R473
  ⟨"WXU.ACC_ID", 0x00A00104, [(0x40, 4)], .cores, 0x0,
    [fd 31 0 .ro 0]⟩,
  -- R473
  ⟨"WXU.ACC_SEAL_STEP_LO", 0x00A00108, [(0x40, 4)], .cores, 0x0,
    [fd 31 0 .ro 0]⟩,
  -- R473
  ⟨"WXU.ACC_SEAL_STEP_HI", 0x00A0010C, [(0x40, 4)], .cores, 0x0,
    [fd 31 0 .ro 0]⟩,
  -- R473
  ⟨"WXU.ACC_DECIDE_MS", 0x00A00110, [(0x40, 4)], .cores, 0x0,
    [fd 31 0 .ro 0]⟩,
  -- R473
  ⟨"WXU.ACC_COVERED", 0x00A00114, [(0x40, 4)], .cores, 0x0,
    [fd 31 0 .ro 0]⟩,
  -- R473
  ⟨"WXU.ACC_EXPECTED", 0x00A00118, [(0x40, 4)], .cores, 0x0,
    [fd 31 0 .ro 0]⟩,
  -- R473
  ⟨"WXU.ACC_LATE", 0x00A0011C, [(0x40, 4)], .cores, 0x0,
    [fd 31 0 .ro 0]⟩,
  -- R503
  ⟨"WXU.FAR_CTL", 0x00A00400, [], .cores, 0x0,
    [fd 15 0 .rw 0xb7fc]⟩,
  -- R503
  ⟨"WXU.VEST_CTL", 0x00A00404, [], .cores, 0x0,
    [fdr 16 8 .rw 0x40 1 256, fd 7 4 .ro 4, fdr 3 0 .rw 4 1 8]⟩,
  -- R503
  ⟨"WXU.ROTATE", 0x00A00408, [], .cores, 0x0,
    [fdr 13 0 .rw 0x14 1 10000]⟩,
  -- R503
  ⟨"WXU.RTO_MIN", 0x00A0040C, [], .cores, 0x0,
    [fdr 19 0 .rw 0x7d0 500 1000000]⟩,
  -- R503
  ⟨"WXU.RTO_MAX", 0x00A00410, [], .cores, 0x0,
    [fd 13 0 .rw 0x3e8]⟩,
  -- R503
  ⟨"WXU.AUTH_FAIL_LIMIT", 0x00A00414, [], .cores, 0x0,
    [fdr 15 0 .rw 0x10 1 65535]⟩,
  -- R503
  ⟨"WXU.DSCP", 0x00A00418, [], .cores, 0x0,
    [fd 13 8 .rw 0x2e, fd 5 0 .rw 0xa]⟩,
  -- R503
  ⟨"WXU.VEST_LEVEL", 0x00A0041C, [], .cores, 0x0,
    [fd 14 0 .ro 0]⟩,
  -- R503
  ⟨"WXU.VEST_PEAK", 0x00A00420, [], .cores, 0x0,
    [fd 14 0 .rc 0]⟩,
  -- R503
  ⟨"WXU.GRANT_SUM", 0x00A00424, [], .cores, 0x0,
    [fd 17 0 .ro 0]⟩,
  -- R503
  ⟨"WXU.DRAIN_RATE", 0x00A00428, [], .cores, 0x0,
    [fd 31 0 .ro 0]⟩,
  -- R503
  ⟨"WXU.VEST_DROPS", 0x00A0042C, [], .cores, 0x0,
    [fd 31 0 .rc 0]⟩,
  -- R503
  ⟨"WXU.AUTH_FAILS", 0x00A00430, [], .cores, 0x0,
    [fd 31 0 .rc 0]⟩,
  -- R503
  ⟨"WXU.REPLAYS", 0x00A00434, [], .cores, 0x0,
    [fd 31 0 .rc 0]⟩,
  -- R503
  ⟨"WXU.MALFORMED", 0x00A00438, [], .cores, 0x0,
    [fd 31 0 .rc 0]⟩,
  -- R503
  ⟨"WXU.RETX_SENT", 0x00A0043C, [], .cores, 0x0,
    [fd 31 0 .rc 0]⟩,
  -- R503
  ⟨"WXU.NACKS_SENT", 0x00A00440, [], .cores, 0x0,
    [fd 31 0 .rc 0]⟩,
  -- R503
  ⟨"WXU.GONE_SENT", 0x00A00444, [], .cores, 0x0,
    [fd 31 0 .rc 0]⟩,
  -- R503
  ⟨"WXU.ACTIVE", 0x00A00448, [], .cores, 0x0,
    [fd 24 16 .ro 0, fd 8 0 .ro 0]⟩,
  -- R503
  ⟨"WXU.FAR_DISCARDS", 0x00A0044C, [], .cores, 0x0,
    [fd 31 0 .rc 0]⟩,
  -- R504
  ⟨"WXU.FAR_STATE", 0x00A00800, [(0x100, 4)], .cores, 0x0,
    [fd 3 3 .rw 0, fd 2 2 .ro 0, fd 1 1 .ro 0, fd 0 0 .rw 0]⟩,
  -- R504
  ⟨"WXU.FAR_IP6n", 0x00A00804, [(0x100, 4), (0x4, 4)], .cores, 0x0,
    [fd 31 0 .rw 0]⟩,
  -- R504
  ⟨"WXU.FAR_IP4", 0x00A00814, [(0x100, 4)], .cores, 0x0,
    [fd 31 0 .rw 0]⟩,
  -- R504
  ⟨"WXU.FAR_GW_LO", 0x00A00818, [(0x100, 4)], .cores, 0x0,
    [fd 31 0 .rw 0]⟩,
  -- R504
  ⟨"WXU.FAR_GW_HI", 0x00A0081C, [(0x100, 4)], .cores, 0x0,
    [fd 15 0 .rw 0]⟩,
  -- R504
  ⟨"WXU.FAR_MAC_LO", 0x00A00820, [(0x100, 4)], .cores, 0x0,
    [fd 31 0 .ro 0]⟩,
  -- R504
  ⟨"WXU.FAR_MAC_HI", 0x00A00824, [(0x100, 4)], .cores, 0x0,
    [fd 15 0 .ro 0]⟩,
  -- R504
  ⟨"WXU.FAR_FEC_CORR", 0x00A00828, [(0x100, 4)], .cores, 0x0,
    [fd 31 0 .rc 0]⟩,
  -- R504
  ⟨"WXU.FAR_FEC_UNCORR", 0x00A0082C, [(0x100, 4)], .cores, 0x0,
    [fd 31 0 .rc 0]⟩,
  -- R504
  ⟨"WXU.FAR_FCS_ERR", 0x00A00830, [(0x100, 4)], .cores, 0x0,
    [fd 31 0 .rc 0]⟩,
  -- R504
  ⟨"WXU.FAR_TX", 0x00A00834, [(0x100, 4)], .cores, 0x0,
    [fd 31 0 .rc 0]⟩,
  -- R504
  ⟨"WXU.FAR_RX", 0x00A00838, [(0x100, 4)], .cores, 0x0,
    [fd 31 0 .rc 0]⟩,
  -- R504
  ⟨"WXU.FAR_ECN", 0x00A0083C, [(0x100, 4)], .cores, 0x0,
    [fd 31 0 .rc 0]⟩,
  -- R505
  ⟨"WXU.SLOT_STATE", 0x00A40000, [(0x20, 4096)], .cores, 0x0,
    [fd 31 24 .ro 0, fd 23 18 .ro 0, fd 17 17 .ro 0, fd 16 16 .ro 0, fd 6 6 .ro 0, fd 5 5 .ro 0, fd 4 4 .ro 0, fd 1 0 .ro 0]⟩,
  -- R505
  ⟨"WXU.SLOT_PEER", 0x00A40004, [(0x20, 4096)], .cores, 0x0,
    [fd 23 16 .ro 0, fd 15 0 .ro 0]⟩,
  -- R505
  ⟨"WXU.SLOT_WINDOW", 0x00A40008, [(0x20, 4096)], .cores, 0x0,
    [fd 27 0 .rw 0]⟩,
  -- R505
  ⟨"WXU.SLOT_PEER_WINDOW", 0x00A4000C, [(0x20, 4096)], .cores, 0x0,
    [fd 27 0 .ro 0]⟩,
  -- R505
  ⟨"WXU.SLOT_RTT", 0x00A40010, [(0x20, 4096)], .cores, 0x0,
    [fd 31 0 .ro 0]⟩,
  -- R505
  ⟨"WXU.SLOT_OUTSTANDING", 0x00A40014, [(0x20, 4096)], .cores, 0x0,
    [fd 27 0 .ro 0]⟩,
  -- R505
  ⟨"WXU.SLOT_KEY", 0x00A40018, [(0x20, 4096)], .cores, 0x0,
    [fd 25 16 .ro 0, fd 15 0 .ro 0]⟩,
  -- R505
  ⟨"WXU.SLOT_LAST_USE", 0x00A4001C, [(0x20, 4096)], .cores, 0x0,
    [fd 31 0 .ro 0]⟩]

/-- The registers of unit SEC (R538). -/
def regsSec : List RegDef := [
  -- R538
  ⟨"SEC.STATE", 0x00B00000, [], .cores, 0x0,
    [fd 15 10 .ro 0x20, fd 9 7 .ro 0, fd 2 2 .ro 0, fd 1 1 .ro 0, fd 0 0 .ro 0]⟩,
  -- R538
  ⟨"SEC.PAIR_FAILED", 0x00B00004, [], .cores, 0x0,
    [fd 31 0 .rw 0]⟩,
  -- R538
  ⟨"SEC.KEYS_FREE", 0x00B00008, [], .cores, 0x0,
    [fd 10 0 .ro 0x3f0]⟩,
  -- R538
  ⟨"SEC.QUEUE_LEVEL", 0x00B0000C, [], .cores, 0x0,
    [fd 8 0 .ro 0, fd 24 16 .ro 0]⟩,
  -- R538
  ⟨"SEC.QUEUE_LEVEL2", 0x00B00010, [], .cores, 0x0,
    [fd 8 0 .ro 0]⟩,
  -- R538
  ⟨"SEC.SEAL_BLOCKS", 0x00B00014, [], .cores, 0x0,
    [fd 31 0 .rc 0]⟩,
  -- R538
  ⟨"SEC.OPEN_BLOCKS", 0x00B00018, [], .cores, 0x0,
    [fd 31 0 .rc 0]⟩,
  -- R538
  ⟨"SEC.TAG_FAILS", 0x00B0001C, [], .cores, 0x0,
    [fd 31 0 .rc 0]⟩,
  -- R538
  ⟨"SEC.CIPHER_FAULTS", 0x00B00020, [], .cores, 0x0,
    [fd 31 0 .rc 0]⟩,
  -- R538
  ⟨"SEC.PK_OPS", 0x00B00024, [], .cores, 0x0,
    [fd 31 0 .rc 0]⟩,
  -- R538
  ⟨"SEC.PK_INVALID", 0x00B00028, [], .cores, 0x0,
    [fd 31 0 .rc 0]⟩,
  -- R538
  ⟨"SEC.HS_COMPLETE", 0x00B0002C, [], .cores, 0x0,
    [fd 31 0 .rc 0]⟩,
  -- R538
  ⟨"SEC.HS_FAILED", 0x00B00030, [], .cores, 0x0,
    [fd 31 0 .rc 0]⟩,
  -- R538
  ⟨"SEC.HS_DROPPED", 0x00B00034, [], .cores, 0x0,
    [fd 31 0 .rc 0]⟩,
  -- R538
  ⟨"SEC.REKEYS", 0x00B00038, [], .cores, 0x0,
    [fd 31 0 .rc 0]⟩,
  -- R538
  ⟨"SEC.FW_SVN", 0x00B0003C, [], .cores, 0x0,
    [fd 6 0 .ro 0]⟩,
  -- R538
  ⟨"SEC.FW_ROOT_REVOKED", 0x00B00040, [], .cores, 0x0,
    [fd 3 0 .ro 0]⟩,
  -- R538
  ⟨"SEC.FW_KEY_INDEX", 0x00B00044, [], .cores, 0x0,
    [fd 1 0 .ro 0]⟩,
  -- R538
  ⟨"SEC.KEY_TYPE", 0x00B01000, [(0x4, 1024)], .cores, 0x0,
    [fd 31 16 .ro 0, fd 2 0 .ro 0]⟩]

/-- The registers of unit CSV (R622). -/
def regsCsv : List RegDef := [
  -- R622
  ⟨"CSV.STATE", 0x00C00000, [], .cores, 0x0,
    [fd 8 8 .ro 0, fd 6 0 .ro 0]⟩,
  -- R622
  ⟨"CSV.FRING_HEAD", 0x00C00004, [], .cores, 0x0,
    [fd 5 0 .rw 0]⟩,
  -- R622
  ⟨"CSV.FRING_TAIL", 0x00C00008, [], .cores, 0x0,
    [fd 5 0 .ro 0]⟩,
  -- R622
  ⟨"CSV.FAULT_CTL", 0x00C0000C, [], .cores, 0x0,
    [fd 3 0 .rw 0]⟩,
  -- R622
  ⟨"CSV.HANDLE_MIN", 0x00C00010, [], .cores, 0x0,
    [fdr 19 0 .rw 0x3e8 100 1000000]⟩,
  -- R622
  ⟨"CSV.WATCH_LIMIT", 0x00C00014, [], .cores, 0x0,
    [fdr 7 0 .rw 3 2 255]⟩,
  -- R622
  ⟨"CSV.LOAN_CTL", 0x00C00018, [], .cores, 0x0,
    [fd 31 16 .rw 0x18, fdr 15 0 .rw 0xf0 1 10080]⟩,
  -- R622
  ⟨"CSV.LOAN_STATE", 0x00C0001C, [], .cores, 0x0,
    [fd 23 16 .ro 0, fd 15 8 .ro 0, fd 1 0 .ro 0]⟩,
  -- R622
  ⟨"CSV.RESERVE", 0x00C00020, [(0x4, 4)], .cores, 0x0,
    [fd 19 18 .ro 0, fd 17 16 .ro 3, fd 15 0 .ro 0]⟩,
  -- R622
  ⟨"CSV.REPLAY_INTERVAL", 0x00C00030, [], .cores, 0x0,
    [fdr 21 0 .rw 0x2710 100 3600000]⟩,
  -- R622
  ⟨"CSV.REPLAY_SAMPLES", 0x00C00034, [], .cores, 0x0,
    [fd 31 0 .rc 0]⟩,
  -- R622
  ⟨"CSV.REPLAY_MISMATCH", 0x00C00038, [], .cores, 0x0,
    [fd 31 0 .rc 0]⟩,
  -- R622
  ⟨"CSV.REPLAY_ABORTED", 0x00C0003C, [], .cores, 0x0,
    [fd 31 0 .rc 0]⟩,
  -- R622
  ⟨"CSV.SPM_SCRUB", 0x00C00040, [], .cores, 0x0,
    [fdr 11 0 .rw 0x3c 10 3600]⟩,
  -- R622
  ⟨"CSV.TESTS_RUN", 0x00C00044, [], .cores, 0x0,
    [fd 31 0 .rc 0]⟩,
  -- R622
  ⟨"CSV.TESTS_SKIPPED", 0x00C00048, [], .cores, 0x0,
    [fd 31 0 .rc 0]⟩,
  -- R622
  ⟨"CSV.MARGIN_MIN", 0x00C0004C, [], .cores, 0x0,
    [fdr 6 0 .rw 0x19 5 100]⟩,
  -- R622
  ⟨"CSV.FLASH_WEAR", 0x00C00050, [], .cores, 0x0,
    [fd 6 0 .ro 0]⟩,
  -- R622
  ⟨"CSV.REFUSALS", 0x00C00054, [], .cores, 0x0,
    [fd 31 0 .rc 0]⟩,
  -- R622
  ⟨"CSV.TELEM_SEQ", 0x00C00058, [], .cores, 0x0,
    [fd 31 0 .ro 0]⟩,
  -- R622
  ⟨"CSV.DBG_STATE", 0x00C0005C, [], .cores, 0x0,
    [fd 13 10 .ro 0, fd 9 6 .ro 0, fd 5 2 .ro 0, fd 1 0 .ro 0]⟩,
  -- R622
  ⟨"CSV.DBG_LOCKS", 0x00C00060, [], .cores, 0x0,
    [fd 31 0 .ro 0]⟩,
  -- R622
  ⟨"CSV.DUMP_STATE", 0x00C00064, [], .cores, 0x0,
    [fd 31 16 .ro 0, fd 15 1 .ro 0, fd 0 0 .ro 0]⟩,
  -- R622
  ⟨"CSV.SUSPICION", 0x00C40000, [(0x4000, 16), (0x4, 4096)], .cores, 0x0,
    [fd 31 16 .ro 0, fd 15 8 .ro 0, fd 1 0 .ro 0]⟩]

/-- The registers of unit CMDTile (R289). -/
def regsCmdTile : List RegDef := [
  -- R289
  ⟨"CMD.SEQ_STATE", 0x01000000, [(0x10000, 200)], .cores, 0x0,
    [fd 31 28 .ro 0, fd 27 24 .ro 0, fd 4 4 .ro 0, fd 3 3 .ro 0, fd 2 0 .ro 0]⟩,
  -- R289
  ⟨"CMD.SEQ_CTRL", 0x01000004, [(0x10000, 200)], .cores, 0x0,
    [fd 2 2 .wo 0, fd 1 1 .wo 0, fd 0 0 .wo 0]⟩,
  -- R289
  ⟨"CMD.SEQ_HALT", 0x01000008, [(0x10000, 200)], .cores, 0x0,
    [fd 31 16 .ro 0, fd 15 15 .ro 0, fd 14 14 .ro 0, fd 13 13 .ro 0, fd 12 10 .ro 0, fd 9 7 .ro 0]⟩,
  -- R289
  ⟨"CMD.SEQ_HALT_PC", 0x0100000C, [(0x10000, 200)], .cores, 0x0,
    [fd 13 0 .ro 0]⟩,
  -- R289
  ⟨"CMD.SEQ_HALT_INFO", 0x01000010, [(0x10000, 200)], .cores, 0x0,
    [fd 31 0 .ro 0]⟩,
  -- R289
  ⟨"CMD.SEQ_PC", 0x01000014, [(0x10000, 200)], .cores, 0x0,
    [fd 29 16 .ro 0, fd 13 0 .ro 0]⟩,
  -- R289
  ⟨"CMD.SEQ_MB", 0x01000018, [(0x10000, 200)], .cores, 0x0,
    [fd 31 16 .ro 0, fd 15 0 .ro 0]⟩,
  -- R289
  ⟨"CMD.SEQ_PROG", 0x0100001C, [(0x10000, 200)], .cores, 0x0,
    [fd 15 15 .ro 0, fd 14 0 .ro 0]⟩,
  -- R289
  ⟨"CMD.SEQ_ISSUED", 0x01000020, [(0x10000, 200)], .cores, 0x0,
    [fd 31 0 .rc 0]⟩,
  -- R289
  ⟨"CMD.SEQ_STALL", 0x01000024, [(0x10000, 200)], .cores, 0x0,
    [fd 31 0 .rc 0]⟩,
  -- R289
  ⟨"CMD.SEQ_DEFER_ISSUED", 0x01000028, [(0x10000, 200)], .cores, 0x0,
    [fd 31 0 .rc 0]⟩,
  -- R289
  ⟨"CMD.SEQ_SWITCHES", 0x0100002C, [(0x10000, 200)], .cores, 0x0,
    [fd 31 0 .rc 0]⟩,
  -- R289
  ⟨"CMD.SEQ_YIELD_IDLE", 0x01000030, [(0x10000, 200)], .cores, 0x0,
    [fd 31 0 .rc 0]⟩]

/-- The registers of unit MXA (R156, R157). -/
def regsMxa : List RegDef := [
  -- R156
  ⟨"MXA.STATE", 0x01002000, [(0x10000, 200), (0x100, 8)], .cores, 0x10000,
    [fd 19 19 .ro 0, fd 18 16 .ro 0, fd 15 12 .ro 0, fd 11 8 .ro 0, fd 7 7 .ro 1, fd 6 6 .ro 0, fd 5 5 .ro 0, fd 4 4 .ro 0, fd 3 3 .ro 0, fd 2 2 .ro 0, fd 1 1 .ro 0, fd 0 0 .ro 0]⟩,
  -- R156
  ⟨"MXA.FLAGS", 0x01002004, [(0x10000, 200), (0x100, 8)], .both, 0x0,
    [fd 3 3 .w1c 0, fd 2 2 .w1c 0, fd 1 1 .w1c 0, fd 0 0 .w1c 0]⟩,
  -- R156
  ⟨"MXA.ACTIVE", 0x01002008, [(0x10000, 200), (0x100, 8)], .cores, 0x0,
    [fd 31 0 .rc 0]⟩,
  -- R156
  ⟨"MXA.FREEZE_TOTAL", 0x0100200C, [(0x10000, 200), (0x100, 8)], .cores, 0x0,
    [fd 31 0 .rc 0]⟩,
  -- R156
  ⟨"MXA.FREEZE_BANK", 0x01002010, [(0x10000, 200), (0x100, 8)], .cores, 0x0,
    [fd 31 0 .rc 0]⟩,
  -- R156
  ⟨"MXA.FREEZE_EMPTY", 0x01002014, [(0x10000, 200), (0x100, 8)], .cores, 0x0,
    [fd 31 0 .rc 0]⟩,
  -- R156
  ⟨"MXA.FREEZE_FULL", 0x01002018, [(0x10000, 200), (0x100, 8)], .cores, 0x0,
    [fd 31 0 .rc 0]⟩,
  -- R156
  ⟨"MXA.LOAD_WAIT", 0x0100201C, [(0x10000, 200), (0x100, 8)], .cores, 0x0,
    [fd 31 0 .rc 0]⟩,
  -- R156
  ⟨"MXA.ROWS", 0x01002020, [(0x10000, 200), (0x100, 8)], .cores, 0x0,
    [fd 31 0 .rc 0]⟩,
  -- R157
  ⟨"MXA.MAP", 0x01002800, [(0x10000, 200)], .cores, 0x0,
    [fd 3 3 .rw 1, fd 7 7 .rw 1, fd 11 11 .rw 1, fd 15 15 .rw 1, fd 19 19 .rw 1, fd 23 23 .rw 1, fd 27 27 .rw 1, fd 31 31 .rw 1, fd 2 0 .rw 0, fd 6 4 .rw 1, fd 10 8 .rw 2, fd 14 12 .rw 3, fd 18 16 .rw 4, fd 22 20 .rw 5, fd 26 24 .rw 6, fd 30 28 .rw 7]⟩,
  -- R157
  ⟨"MXA.FAILED", 0x01002804, [(0x10000, 200)], .cores, 0x0,
    [fd 7 0 .rw 0]⟩]

/-- The registers of unit TCX (R191). -/
def regsTcx : List RegDef := [
  -- R191
  ⟨"TCX.FAULT_STATUS", 0x01003000, [(0x10000, 200)], .cores, 0x0,
    [fd 31 16 .ro 0, fd 15 8 .ro 0, fd 7 4 .ro 0, fd 0 0 .w1c 0]⟩,
  -- R191
  ⟨"TCX.FAULT_ADDR", 0x01003004, [(0x10000, 200)], .cores, 0x0,
    [fd 22 0 .ro 0]⟩,
  -- R191
  ⟨"TCX.FAULT_BLOCK", 0x01003008, [(0x10000, 200)], .cores, 0x0,
    [fd 31 0 .ro 0]⟩,
  -- R191
  ⟨"TCX.FAULT_LEN", 0x0100300C, [(0x10000, 200)], .cores, 0x0,
    [fd 15 8 .ro 0, fd 7 0 .ro 0]⟩,
  -- R191
  ⟨"TCX.FAULT_COUNT", 0x01003010, [(0x10000, 200)], .cores, 0x0,
    [fd 31 0 .rc 0]⟩,
  -- R191
  ⟨"TCX.BLOCKS_DECODED", 0x01003014, [(0x10000, 200)], .cores, 0x0,
    [fd 31 0 .rc 0]⟩,
  -- R191
  ⟨"TCX.BLOCKS_ENCODED", 0x01003018, [(0x10000, 200)], .cores, 0x0,
    [fd 31 0 .rc 0]⟩,
  -- R191
  ⟨"TCX.RAW_ENCODED", 0x0100301C, [(0x10000, 200)], .cores, 0x0,
    [fd 31 0 .rc 0]⟩,
  -- R191
  ⟨"TCX.BYTES_ENCODED", 0x01003020, [(0x10000, 200)], .cores, 0x0,
    [fd 31 0 .rc 0]⟩]

/-- The registers of unit VEC (R222). -/
def regsVec : List RegDef := [
  -- R222
  ⟨"VEC.STATE", 0x01004000, [(0x10000, 200)], .cores, 0x0,
    [fd 28 16 .ro 0, fd 12 4 .ro 0, fd 1 1 .ro 0, fd 0 0 .ro 0]⟩,
  -- R222
  ⟨"VEC.TRAP_INFO", 0x01004004, [(0x10000, 200)], .cores, 0x0,
    [fd 31 24 .ro 0, fd 20 16 .ro 0, fd 0 0 .w1c 0]⟩,
  -- R222
  ⟨"VEC.TRAP_ROW", 0x01004008, [(0x10000, 200)], .cores, 0x0,
    [fd 31 0 .ro 0]⟩,
  -- R222
  ⟨"VEC.TRAP_COL", 0x0100400C, [(0x10000, 200)], .cores, 0x0,
    [fd 31 0 .ro 0]⟩,
  -- R222
  ⟨"VEC.PANEL_ROWS", 0x01004010, [(0x10000, 200)], .cores, 0x0,
    [fd 31 0 .rc 0]⟩,
  -- R222
  ⟨"VEC.VRUN_GROUPS", 0x01004014, [(0x10000, 200)], .cores, 0x0,
    [fd 31 0 .rc 0]⟩,
  -- R222
  ⟨"VEC.STALL_BANK", 0x01004018, [(0x10000, 200)], .cores, 0x0,
    [fd 31 0 .rc 0]⟩,
  -- R222
  ⟨"VEC.STALL_CB", 0x0100401C, [(0x10000, 200)], .cores, 0x0,
    [fd 31 0 .rc 0]⟩,
  -- R222
  ⟨"VEC.ABORTS", 0x01004020, [(0x10000, 200)], .cores, 0x0,
    [fd 31 0 .rc 0]⟩,
  -- R222
  ⟨"VEC.STEP_LO", 0x01004024, [(0x10000, 200)], .cores, 0x0,
    [fd 31 0 .rw 0]⟩,
  -- R222
  ⟨"VEC.STEP_HI", 0x01004028, [(0x10000, 200)], .cores, 0x0,
    [fd 31 0 .rw 0]⟩,
  -- R222
  ⟨"VEC.SEED_LO", 0x0100402C, [(0x10000, 200)], .cores, 0x0,
    [fd 31 0 .rw 0]⟩,
  -- R222
  ⟨"VEC.SEED_HI", 0x01004030, [(0x10000, 200)], .cores, 0x0,
    [fd 31 0 .rw 0]⟩,
  -- R222
  ⟨"VEC.FLAGS", 0x01004040, [(0x10000, 200), (0x4, 32)], .cores, 0x0,
    [fd 7 0 .w1c 0]⟩,
  -- R222
  ⟨"VEC.CURSOR_E_LO", 0x01004100, [(0x10000, 200), (0x10, 32)], .cores, 0x0,
    [fd 31 0 .ro 0]⟩,
  -- R222
  ⟨"VEC.CURSOR_E_HI", 0x01004104, [(0x10000, 200), (0x10, 32)], .cores, 0x0,
    [fd 15 0 .ro 0]⟩,
  -- R222
  ⟨"VEC.CURSOR_ROW", 0x01004108, [(0x10000, 200), (0x10, 32)], .cores, 0x0,
    [fd 31 0 .ro 0]⟩,
  -- R222
  ⟨"VEC.CURSOR_COL", 0x0100410C, [(0x10000, 200), (0x10, 32)], .cores, 0x0,
    [fd 31 0 .ro 0]⟩]

/-- The registers of unit SPM (R252). -/
def regsSpm : List RegDef := [
  -- R252
  ⟨"SPM.REGION_BASE", 0x01007000, [(0x10000, 200), (0x10, 64)], .cores, 0x0,
    [fd 31 31 .rw 0, fd 22 7 .rw 0]⟩,
  -- R252
  ⟨"SPM.REGION_SIZE", 0x01007004, [(0x10000, 200), (0x10, 64)], .cores, 0x0,
    [fd 23 7 .rw 0]⟩,
  -- R252
  ⟨"SPM.REGION_HEAD", 0x01007008, [(0x10000, 200), (0x10, 64)], .cores, 0x0,
    [fd 31 0 .rw 0]⟩,
  -- R252
  ⟨"SPM.REGION_TAIL", 0x0100700C, [(0x10000, 200), (0x10, 64)], .cores, 0x0,
    [fd 31 0 .rw 0]⟩,
  -- R252
  ⟨"SPM.REGION_WORIGIN", 0x01007400, [(0x10000, 200), (0x8, 64)], .cores, 0x0,
    [fd 31 0 .rw 0]⟩,
  -- R252
  ⟨"SPM.REGION_RORIGIN", 0x01007404, [(0x10000, 200), (0x8, 64)], .cores, 0x0,
    [fd 31 0 .rw 0]⟩,
  -- R252
  ⟨"SPM.REGION_BIND", 0x01007600, [(0x10000, 200), (0x4, 64)], .cores, 0x0,
    [fd 15 8 .rw 0xff, fd 0 0 .rw 0]⟩,
  -- R252
  ⟨"SPM.BANK_LOSSES", 0x01007700, [(0x10000, 200)], .cores, 0x0,
    [fd 31 0 .rc 0]⟩,
  -- R252
  ⟨"SPM.REGION_WAITS", 0x01007704, [(0x10000, 200)], .cores, 0x0,
    [fd 31 0 .rc 0]⟩,
  -- R252
  ⟨"SPM.ECC_CORRECTED", 0x01007708, [(0x10000, 200)], .cores, 0x0,
    [fd 31 0 .rc 0]⟩,
  -- R252
  ⟨"SPM.ECC_UNCORR", 0x0100770C, [(0x10000, 200)], .cores, 0x0,
    [fd 31 0 .rc 0]⟩,
  -- R252
  ⟨"SPM.ECC_ADDR", 0x01007710, [(0x10000, 200)], .cores, 0x0,
    [fd 15 0 .ro 0]⟩]

/-- The registers of unit TDMA (R253). -/
def regsTdma : List RegDef := [
  -- R253
  ⟨"TDMA.CH_STATE", 0x01007800, [(0x10000, 200), (0x40, 4)], .cores, 0x0,
    [fd 31 16 .ro 0, fd 9 5 .ro 0, fd 1 1 .w1c 0, fd 0 0 .ro 0]⟩,
  -- R253
  ⟨"TDMA.CH_FAULT_LO", 0x01007804, [(0x10000, 200), (0x40, 4)], .cores, 0x0,
    [fd 31 0 .ro 0]⟩,
  -- R253
  ⟨"TDMA.CH_FAULT_HI", 0x01007808, [(0x10000, 200), (0x40, 4)], .cores, 0x0,
    [fd 15 0 .ro 0]⟩,
  -- R253
  ⟨"TDMA.CH_DESC", 0x0100780C, [(0x10000, 200), (0x40, 4)], .cores, 0x0,
    [fd 22 0 .ro 0]⟩,
  -- R253
  ⟨"TDMA.CH_LINES", 0x01007810, [(0x10000, 200), (0x40, 4)], .cores, 0x0,
    [fd 31 0 .rc 0]⟩,
  -- R253
  ⟨"TDMA.CH_DONE", 0x01007814, [(0x10000, 200), (0x40, 4)], .cores, 0x0,
    [fd 31 0 .rc 0]⟩,
  -- R253
  ⟨"TDMA.MOVE_ALLOW", 0x01007900, [(0x10000, 200), (0x4, 6)], .cores, 0x0,
    [fd 31 0 .rw 0]⟩]

/-- The register blocks, each with the BAR0 range [first, last] its registers lie in. -/
def regBlocks : List (Nat × Nat × List RegDef) := [
  (0x00000000, 0x000FFFFF, regsHif), (0x00100000, 0x001FFFFF, regsCmd),
  (0x00200000, 0x005FFFFF, regsQsu), (0x00600000, 0x006FFFFF, regsTmu),
  (0x00700000, 0x007FFFFF, regsHmc), (0x00800000, 0x008FFFFF, regsPse),
  (0x00900000, 0x009FFFFF, regsCfi), (0x00A00000, 0x00AFFFFF, regsWxu),
  (0x00B00000, 0x00BFFFFF, regsSec), (0x00C00000, 0x00CFFFFF, regsCsv),
  (0x01000000, 0x01C7FFFF, regsCmdTile ++ regsMxa ++ regsTcx ++ regsVec ++ regsSpm ++ regsTdma)]

/-- Does offset `o` (from a register's base) fall on a copy? The innermost index, if so. -/
def dimIx : List (Nat × Nat) → Nat → Option Nat
  | [], o => if o = 0 then some 0 else none
  | [(s, n)], o => if o % s = 0 ∧ o / s < n then some (o / s) else none
  | (s, n) :: ds, o => if o / s < n then dimIx ds (o % s) else none

/-- The register at a primary BAR0 offset, with the innermost index of the copy. -/
def findReg (off : Nat) : Option (RegDef × Nat) :=
  match regBlocks.find? (fun b => decide (b.1 ≤ off ∧ off ≤ b.2.1)) with
  | none => none
  | some (_, _, rs) =>
    rs.findSome? (fun r => if r.base ≤ off then (dimIx r.dims (off - r.base)).map (fun i => (r, i)) else none)

/-- The reset value of the register at a primary offset; 0 for a reserved offset (R11). -/
def regReset (off : Nat) : Reg :=
  if off = 0x904000 then 0x4000 else if off = 0x904020 then 0x1000
  else match findReg off with
  | none => 0
  | some (r, i) => BitVec.ofNat 32 (r.flds.foldl (fun a fl => a + fl.rst * 2 ^ fl.lo) (r.resetIx * i))

/-- Does a register have a read side effect (R13), and so a debug copy at +0x8000? -/
def regHasRc (r : RegDef) : Bool := r.flds.any (fun fl => fl.ty == .rc)

/-- The primary offset a BAR0 offset stands for when it is a debug copy (R13). -/
def debugCopyOf (off : Nat) : Option Nat :=
  if (findReg off).isSome ∨ off < 0x8000 then none
  else match findReg (off - 0x8000) with
    | some (r, _) => if regHasRc r then some (off - 0x8000) else none
    | none => none

end Sys2Proof.Machine
end

