-- ==== Sys2Proof/Machine/Fields.lean ====
section
/-! DEFINITION. Every register field of the spec's register tables under the spec's own name
(R10), with the offset and bits the tables give; the arguments number the copies, outermost first
(tile, array, ring, tally, slot ...). `REG` names the whole register. -/

namespace Sys2Proof.Machine

/-- A field of a BAR0 register: the register's primary offset and the field's bits. -/
structure FRef where
  off : Nat
  hi : Nat
  lo : Nat
  deriving DecidableEq, Repr

def HIF.ID.REG : FRef := ⟨0x0, 31, 0⟩
def HIF.ID.DEVICE : FRef := ⟨0x0, 31, 16⟩
def HIF.ID.REV : FRef := ⟨0x0, 15, 8⟩
def HIF.ASSEMBLY.REG : FRef := ⟨0x10, 31, 0⟩
def HIF.ASSEMBLY.STEPPING : FRef := ⟨0x10, 15, 8⟩
def HIF.ASSEMBLY.IO_DIES : FRef := ⟨0x10, 7, 4⟩
def HIF.ASSEMBLY.MEM_STACKS : FRef := ⟨0x10, 3, 0⟩
def HIF.BOOT_STATUS.REG : FRef := ⟨0x20, 31, 0⟩
def HIF.BOOT_STATUS.FAIL_STATUS : FRef := ⟨0x20, 31, 16⟩
def HIF.BOOT_STATUS.STACK0_FAILED : FRef := ⟨0x20, 3, 3⟩
def HIF.BOOT_STATUS.FW_LOADED : FRef := ⟨0x20, 2, 2⟩
def HIF.BOOT_STATUS.SLOT : FRef := ⟨0x20, 1, 1⟩
def HIF.BOOT_STATUS.FROM_FLASH : FRef := ⟨0x20, 0, 0⟩
def HIF.RESET_CAUSE.REG : FRef := ⟨0x24, 31, 0⟩
def HIF.RESET_CAUSE.CAUSE : FRef := ⟨0x24, 2, 0⟩
def HIF.RESET_CTL.REG : FRef := ⟨0x28, 31, 0⟩
def HIF.RESET_CTL.WARM : FRef := ⟨0x28, 0, 0⟩
def HIF.BAR2_BASE_LO.REG : FRef := ⟨0x30, 31, 0⟩
def HIF.BAR2_BASE_LO.ADDR : FRef := ⟨0x30, 31, 0⟩
def HIF.BAR2_BASE_HI.REG : FRef := ⟨0x34, 31, 0⟩
def HIF.BAR2_BASE_HI.ADDR : FRef := ⟨0x34, 15, 0⟩
def HIF.BAR2_CTL.REG : FRef := ⟨0x38, 31, 0⟩
def HIF.BAR2_CTL.DOMAIN : FRef := ⟨0x38, 7, 0⟩
def HIF.LINK.REG : FRef := ⟨0x40, 31, 0⟩
def HIF.LINK.WIDTH : FRef := ⟨0x40, 15, 8⟩
def HIF.LINK.SPEED : FRef := ⟨0x40, 7, 0⟩
def HIF.PWR_LIMIT.REG : FRef := ⟨0x50, 31, 0⟩
def HIF.PWR_LIMIT.WATTS : FRef := ⟨0x50, 15, 0⟩
def HIF.PWR_LIMIT_MGMT.REG : FRef := ⟨0x54, 31, 0⟩
def HIF.PWR_LIMIT_MGMT.WATTS : FRef := ⟨0x54, 15, 0⟩
def HIF.PWR_STATE.REG : FRef := ⟨0x58, 31, 0⟩
def HIF.PWR_STATE.IN_FORCE : FRef := ⟨0x58, 31, 16⟩
def HIF.PWR_STATE.THERMAL : FRef := ⟨0x58, 1, 1⟩
def HIF.PWR_STATE.POWER : FRef := ⟨0x58, 0, 0⟩
def HIF.THERM_CTL.REG : FRef := ⟨0x5C, 31, 0⟩
def HIF.THERM_CTL.CLAMP_C : FRef := ⟨0x5C, 6, 0⟩
def HIF.CLAMP_EVENTS.REG : FRef := ⟨0x60, 31, 0⟩
def HIF.CLAMP_EVENTS.COUNT : FRef := ⟨0x60, 31, 0⟩
def HIF.FUSE_PROGRAM.REG : FRef := ⟨0x64, 31, 0⟩
def HIF.FUSE_PROGRAM.REVOKE : FRef := ⟨0x64, 3, 0⟩
def HIF.RAIL_STATUS.REG : FRef := ⟨0x70, 31, 0⟩
def HIF.RAIL_STATUS.IN_RANGE : FRef := ⟨0x70, 10, 0⟩
def HIF.MSIX_ADDR_LO.REG (i : Nat) : FRef := ⟨0x10000 + 0x10 * i, 31, 0⟩
def HIF.MSIX_ADDR_LO.ADDR (i : Nat) : FRef := ⟨0x10000 + 0x10 * i, 31, 2⟩
def HIF.MSIX_ADDR_HI.REG (i : Nat) : FRef := ⟨0x10004 + 0x10 * i, 31, 0⟩
def HIF.MSIX_ADDR_HI.ADDR (i : Nat) : FRef := ⟨0x10004 + 0x10 * i, 31, 0⟩
def HIF.MSIX_DATA.REG (i : Nat) : FRef := ⟨0x10008 + 0x10 * i, 31, 0⟩
def HIF.MSIX_DATA.DATA (i : Nat) : FRef := ⟨0x10008 + 0x10 * i, 31, 0⟩
def HIF.MSIX_CTRL.REG (i : Nat) : FRef := ⟨0x1000C + 0x10 * i, 31, 0⟩
def HIF.MSIX_CTRL.MASK (i : Nat) : FRef := ⟨0x1000C + 0x10 * i, 0, 0⟩
def HIF.MSIX_PBA.REG (i : Nat) : FRef := ⟨0x18000 + 0x4 * i, 31, 0⟩
def HIF.MSIX_PBA.PENDING (i : Nat) : FRef := ⟨0x18000 + 0x4 * i, 31, 0⟩
def CMD.MBOX_OPCODE.REG : FRef := ⟨0x100000, 31, 0⟩
def CMD.MBOX_OPCODE.OPCODE : FRef := ⟨0x100000, 15, 0⟩
def CMD.MBOX_FLAGS.REG : FRef := ⟨0x100004, 31, 0⟩
def CMD.MBOX_FLAGS.DROPPED : FRef := ⟨0x100004, 0, 0⟩
def CMD.MBOX_FLAGS.IRQ_EN : FRef := ⟨0x100004, 1, 1⟩
def CMD.MBOX_ARG.REG (i : Nat) : FRef := ⟨0x100010 + 0x4 * i, 31, 0⟩
def CMD.MBOX_ARG.VALUE (i : Nat) : FRef := ⟨0x100010 + 0x4 * i, 31, 0⟩
def CMD.MBOX_DOORBELL.REG : FRef := ⟨0x100040, 31, 0⟩
def CMD.MBOX_DOORBELL.GO : FRef := ⟨0x100040, 0, 0⟩
def CMD.MBOX_RESULT.REG : FRef := ⟨0x100044, 31, 0⟩
def CMD.MBOX_RESULT.STATUS : FRef := ⟨0x100044, 15, 0⟩
def CMD.MBOX_DATA0.REG : FRef := ⟨0x100048, 31, 0⟩
def CMD.MBOX_DATA0.VALUE : FRef := ⟨0x100048, 31, 0⟩
def CMD.MBOX_DATA1.REG : FRef := ⟨0x10004C, 31, 0⟩
def CMD.MBOX_DATA1.VALUE : FRef := ⟨0x10004C, 31, 0⟩
def CMD.MBOX_DATA.REG (i : Nat) : FRef := ⟨0x100050 + 0x4 * i, 31, 0⟩
def CMD.MBOX_DATA.VALUE (i : Nat) : FRef := ⟨0x100050 + 0x4 * i, 31, 0⟩
def CMD.CURATOR_STATE.REG : FRef := ⟨0x100080, 31, 0⟩
def CMD.CURATOR_STATE.STATE : FRef := ⟨0x100080, 3, 0⟩
def CMD.CURATOR_VERSION.REG : FRef := ⟨0x100084, 31, 0⟩
def CMD.CURATOR_VERSION.VERSION : FRef := ⟨0x100084, 31, 0⟩
def CMD.FATAL_CAUSE.REG : FRef := ⟨0x100088, 31, 0⟩
def CMD.FATAL_CAUSE.STATUS : FRef := ⟨0x100088, 15, 0⟩
def CMD.WDOG_CFG.REG : FRef := ⟨0x100100, 31, 0⟩
def CMD.WDOG_CFG.PERIOD_MS : FRef := ⟨0x100100, 9, 0⟩
def CMD.WDOG_PET.REG : FRef := ⟨0x100104, 31, 0⟩
def CMD.WDOG_PET.PET : FRef := ⟨0x100104, 31, 0⟩
def CMD.REHANG_WINDOW.REG : FRef := ⟨0x100108, 31, 0⟩
def CMD.REHANG_WINDOW.MILLISECONDS : FRef := ⟨0x100108, 11, 0⟩
def CMD.DRAIN_BOUND.REG : FRef := ⟨0x10010C, 31, 0⟩
def CMD.DRAIN_BOUND.MILLISECONDS : FRef := ⟨0x10010C, 13, 0⟩
def CMD.EVENT_LOST.REG : FRef := ⟨0x100114, 31, 0⟩
def CMD.EVENT_LOST.COUNT : FRef := ⟨0x100114, 31, 0⟩
def CMD.PIPE_STATE.REG (i : Nat) : FRef := ⟨0x102000 + 0x20 * i, 31, 0⟩
def CMD.PIPE_STATE.LOCAL_STAGES (i : Nat) : FRef := ⟨0x102000 + 0x20 * i, 15, 8⟩
def CMD.PIPE_STATE.STATE (i : Nat) : FRef := ⟨0x102000 + 0x20 * i, 2, 0⟩
def CMD.PIPE_NEXT.REG (i : Nat) : FRef := ⟨0x102004 + 0x20 * i, 31, 0⟩
def CMD.PIPE_NEXT.N (i : Nat) : FRef := ⟨0x102004 + 0x20 * i, 31, 16⟩
def CMD.PIPE_NEXT.INDEX (i : Nat) : FRef := ⟨0x102004 + 0x20 * i, 15, 0⟩
def CMD.PIPE_STEP_LO.REG (i : Nat) : FRef := ⟨0x102008 + 0x20 * i, 31, 0⟩
def CMD.PIPE_STEP_LO.STEP (i : Nat) : FRef := ⟨0x102008 + 0x20 * i, 31, 0⟩
def CMD.PIPE_STEP_HI.REG (i : Nat) : FRef := ⟨0x10200C + 0x20 * i, 31, 0⟩
def CMD.PIPE_STEP_HI.STEP (i : Nat) : FRef := ⟨0x10200C + 0x20 * i, 31, 0⟩
def CMD.PIPE_RETIRED.REG (i : Nat) : FRef := ⟨0x102010 + 0x20 * i, 31, 0⟩
def CMD.PIPE_RETIRED.QUEUED (i : Nat) : FRef := ⟨0x102010 + 0x20 * i, 22, 16⟩
def CMD.PIPE_RETIRED.COUNT (i : Nat) : FRef := ⟨0x102010 + 0x20 * i, 15, 0⟩
def CMD.PIPE_REJECTS.REG (i : Nat) : FRef := ⟨0x102014 + 0x20 * i, 31, 0⟩
def CMD.PIPE_REJECTS.COUNT (i : Nat) : FRef := ⟨0x102014 + 0x20 * i, 31, 0⟩
def CMD.PIPE_FAULT.REG (i : Nat) : FRef := ⟨0x102018 + 0x20 * i, 31, 0⟩
def CMD.PIPE_FAULT.STATUS (i : Nat) : FRef := ⟨0x102018 + 0x20 * i, 31, 16⟩
def CMD.PIPE_FAULT.TILE (i : Nat) : FRef := ⟨0x102018 + 0x20 * i, 7, 0⟩
def QSU.RING_BASE_LO.REG (i : Nat) : FRef := ⟨0x210000 + 0x20 * i, 31, 0⟩
def QSU.RING_BASE_LO.ADDR (i : Nat) : FRef := ⟨0x210000 + 0x20 * i, 31, 6⟩
def QSU.RING_BASE_HI.REG (i : Nat) : FRef := ⟨0x210004 + 0x20 * i, 31, 0⟩
def QSU.RING_BASE_HI.ADDR (i : Nat) : FRef := ⟨0x210004 + 0x20 * i, 31, 0⟩
def QSU.RING_CFG.REG (i : Nat) : FRef := ⟨0x210008 + 0x20 * i, 31, 0⟩
def QSU.RING_CFG.VECTOR (i : Nat) : FRef := ⟨0x210008 + 0x20 * i, 21, 11⟩
def QSU.RING_CFG.IRQ_EN (i : Nat) : FRef := ⟨0x210008 + 0x20 * i, 10, 10⟩
def QSU.RING_CFG.LOG2_COUNT (i : Nat) : FRef := ⟨0x210008 + 0x20 * i, 8, 4⟩
def QSU.RING_CFG.KIND (i : Nat) : FRef := ⟨0x210008 + 0x20 * i, 3, 2⟩
def QSU.RING_CFG.LOC (i : Nat) : FRef := ⟨0x210008 + 0x20 * i, 1, 1⟩
def QSU.RING_CFG.ENABLE (i : Nat) : FRef := ⟨0x210008 + 0x20 * i, 0, 0⟩
def QSU.RING_PAIR.REG (i : Nat) : FRef := ⟨0x21000C + 0x20 * i, 31, 0⟩
def QSU.RING_PAIR.OWNER (i : Nat) : FRef := ⟨0x21000C + 0x20 * i, 31, 16⟩
def QSU.RING_PAIR.CQ (i : Nat) : FRef := ⟨0x21000C + 0x20 * i, 13, 0⟩
def QSU.RING_HEAD.REG (i : Nat) : FRef := ⟨0x210010 + 0x20 * i, 31, 0⟩
def QSU.RING_HEAD.LAP (i : Nat) : FRef := ⟨0x210010 + 0x20 * i, 20, 20⟩
def QSU.RING_HEAD.INDEX (i : Nat) : FRef := ⟨0x210010 + 0x20 * i, 19, 0⟩
def QSU.RING_TAIL.REG (i : Nat) : FRef := ⟨0x210014 + 0x20 * i, 31, 0⟩
def QSU.RING_TAIL.LAP (i : Nat) : FRef := ⟨0x210014 + 0x20 * i, 20, 20⟩
def QSU.RING_TAIL.INDEX (i : Nat) : FRef := ⟨0x210014 + 0x20 * i, 19, 0⟩
def QSU.RING_STATUS.REG (i : Nat) : FRef := ⟨0x210018 + 0x20 * i, 31, 0⟩
def QSU.RING_STATUS.LAST_STATUS (i : Nat) : FRef := ⟨0x210018 + 0x20 * i, 31, 16⟩
def QSU.RING_STATUS.OVERDUE (i : Nat) : FRef := ⟨0x210018 + 0x20 * i, 3, 3⟩
def QSU.RING_STATUS.WAITING (i : Nat) : FRef := ⟨0x210018 + 0x20 * i, 2, 2⟩
def QSU.RING_STATUS.FULL (i : Nat) : FRef := ⟨0x210018 + 0x20 * i, 1, 1⟩
def QSU.RING_STATUS.ERROR (i : Nat) : FRef := ⟨0x210018 + 0x20 * i, 0, 0⟩
def QSU.RING_RESV.REG (i : Nat) : FRef := ⟨0x21001C + 0x20 * i, 31, 0⟩
def QSU.RING_RESV.RESERVED (i : Nat) : FRef := ⟨0x21001C + 0x20 * i, 20, 0⟩
def QSU.TALLY_VALUE.REG (i : Nat) : FRef := ⟨0x300000 + 0x10 * i, 31, 0⟩
def QSU.TALLY_VALUE.VALUE (i : Nat) : FRef := ⟨0x300000 + 0x10 * i, 31, 0⟩
def QSU.TALLY_ADD.REG (i : Nat) : FRef := ⟨0x300004 + 0x10 * i, 31, 0⟩
def QSU.TALLY_ADD.AMOUNT (i : Nat) : FRef := ⟨0x300004 + 0x10 * i, 15, 0⟩
def QSU.TALLY_IRQ.REG (i : Nat) : FRef := ⟨0x300008 + 0x10 * i, 31, 0⟩
def QSU.TALLY_IRQ.THRESHOLD (i : Nat) : FRef := ⟨0x300008 + 0x10 * i, 31, 0⟩
def QSU.TALLY_CFG.REG (i : Nat) : FRef := ⟨0x30000C + 0x10 * i, 31, 0⟩
def QSU.TALLY_CFG.OWNER (i : Nat) : FRef := ⟨0x30000C + 0x10 * i, 31, 16⟩
def QSU.TALLY_CFG.VECTOR (i : Nat) : FRef := ⟨0x30000C + 0x10 * i, 13, 3⟩
def QSU.TALLY_CFG.OVERFLOW (i : Nat) : FRef := ⟨0x30000C + 0x10 * i, 2, 2⟩
def QSU.TALLY_CFG.ALLOCATED (i : Nat) : FRef := ⟨0x30000C + 0x10 * i, 1, 1⟩
def QSU.TALLY_CFG.IRQ_EN (i : Nat) : FRef := ⟨0x30000C + 0x10 * i, 0, 0⟩
def TMU.STATE.REG : FRef := ⟨0x600000, 31, 0⟩
def TMU.STATE.SOURCE : FRef := ⟨0x600000, 12, 8⟩
def TMU.STATE.PLL_LOCKED : FRef := ⟨0x600000, 3, 3⟩
def TMU.STATE.STATE : FRef := ⟨0x600000, 2, 0⟩
def TMU.TIME_LO.REG : FRef := ⟨0x600004, 31, 0⟩
def TMU.TIME_LO.NS : FRef := ⟨0x600004, 31, 0⟩
def TMU.TIME_HI_LATCH.REG : FRef := ⟨0x600008, 31, 0⟩
def TMU.TIME_HI_LATCH.NS : FRef := ⟨0x600008, 31, 0⟩
def TMU.OFFSET.REG : FRef := ⟨0x60000C, 31, 0⟩
def TMU.OFFSET.NS : FRef := ⟨0x60000C, 31, 0⟩
def TMU.FREQ_ADJ.REG : FRef := ⟨0x600010, 31, 0⟩
def TMU.FREQ_ADJ.ADJ : FRef := ⟨0x600010, 31, 0⟩
def TMU.ERROR_BOUND.REG : FRef := ⟨0x600014, 31, 0⟩
def TMU.ERROR_BOUND.NS : FRef := ⟨0x600014, 31, 0⟩
def TMU.STEPS.REG : FRef := ⟨0x600018, 31, 0⟩
def TMU.STEPS.COUNT : FRef := ⟨0x600018, 31, 0⟩
def TMU.HOLDOVER.REG : FRef := ⟨0x60001C, 31, 0⟩
def TMU.HOLDOVER.SECONDS : FRef := ⟨0x60001C, 31, 0⟩
def TMU.TCLK_DIV.REG : FRef := ⟨0x600020, 31, 0⟩
def TMU.TCLK_DIV.DIV_0 : FRef := ⟨0x600020, 3, 0⟩
def TMU.TCLK_DIV.DIV_1 : FRef := ⟨0x600020, 7, 4⟩
def TMU.TCLK_DIV.DIV_2 : FRef := ⟨0x600020, 11, 8⟩
def TMU.TCLK_DIV.DIV_3 : FRef := ⟨0x600020, 15, 12⟩
def TMU.TCLK_CLAMP.REG : FRef := ⟨0x600024, 31, 0⟩
def TMU.TCLK_CLAMP.MIN_0 : FRef := ⟨0x600024, 3, 0⟩
def TMU.TCLK_CLAMP.MIN_1 : FRef := ⟨0x600024, 7, 4⟩
def TMU.TCLK_CLAMP.MIN_2 : FRef := ⟨0x600024, 11, 8⟩
def TMU.TCLK_CLAMP.MIN_3 : FRef := ⟨0x600024, 15, 12⟩
def TMU.TIMERS_ARMED.REG : FRef := ⟨0x600028, 31, 0⟩
def TMU.TIMERS_ARMED.COUNT : FRef := ⟨0x600028, 10, 0⟩
def TMU.MISSED.REG : FRef := ⟨0x60002C, 31, 0⟩
def TMU.MISSED.COUNT : FRef := ⟨0x60002C, 31, 0⟩
def TMU.CAP_STATE.REG (i : Nat) : FRef := ⟨0x600040 + 0x4 * i, 31, 0⟩
def TMU.CAP_STATE.OVERFLOW (i : Nat) : FRef := ⟨0x600040 + 0x4 * i, 31, 31⟩
def TMU.CAP_STATE.LEVEL (i : Nat) : FRef := ⟨0x600040 + 0x4 * i, 6, 0⟩
def TMU.CAP_POP_LO.REG (i : Nat) : FRef := ⟨0x600060 + 0x8 * i, 31, 0⟩
def TMU.CAP_POP_LO.NS (i : Nat) : FRef := ⟨0x600060 + 0x8 * i, 31, 0⟩
def TMU.CAP_POP_HI.REG (i : Nat) : FRef := ⟨0x600064 + 0x8 * i, 31, 0⟩
def TMU.CAP_POP_HI.NS (i : Nat) : FRef := ⟨0x600064 + 0x8 * i, 31, 0⟩
def TMU.PORT_LATENCY.REG (i : Nat) : FRef := ⟨0x600100 + 0x4 * i, 31, 0⟩
def TMU.PORT_LATENCY.EGRESS (i : Nat) : FRef := ⟨0x600100 + 0x4 * i, 31, 16⟩
def TMU.PORT_LATENCY.INGRESS (i : Nat) : FRef := ⟨0x600100 + 0x4 * i, 15, 0⟩
def HMC.CTL_STATE.REG (i : Nat) : FRef := ⟨0x700000 + 0x800 * i, 31, 0⟩
def HMC.CTL_STATE.FAILED (i : Nat) : FRef := ⟨0x700000 + 0x800 * i, 3, 3⟩
def HMC.CTL_STATE.SCRUBBING (i : Nat) : FRef := ⟨0x700000 + 0x800 * i, 2, 2⟩
def HMC.CTL_STATE.READY (i : Nat) : FRef := ⟨0x700000 + 0x800 * i, 1, 1⟩
def HMC.CTL_STATE.FITTED (i : Nat) : FRef := ⟨0x700000 + 0x800 * i, 0, 0⟩
def HMC.ECC_CORRECTED.REG (i : Nat) : FRef := ⟨0x700004 + 0x800 * i, 31, 0⟩
def HMC.ECC_CORRECTED.COUNT (i : Nat) : FRef := ⟨0x700004 + 0x800 * i, 31, 0⟩
def HMC.ECC_CHECK_ONLY.REG (i : Nat) : FRef := ⟨0x700008 + 0x800 * i, 31, 0⟩
def HMC.ECC_CHECK_ONLY.COUNT (i : Nat) : FRef := ⟨0x700008 + 0x800 * i, 31, 0⟩
def HMC.ECC_UNCORR.REG (i : Nat) : FRef := ⟨0x70000C + 0x800 * i, 31, 0⟩
def HMC.ECC_UNCORR.COUNT (i : Nat) : FRef := ⟨0x70000C + 0x800 * i, 31, 0⟩
def HMC.ECC_ADDR_LO.REG (i : Nat) : FRef := ⟨0x700010 + 0x800 * i, 31, 0⟩
def HMC.ECC_ADDR_LO.OFFSET (i : Nat) : FRef := ⟨0x700010 + 0x800 * i, 31, 0⟩
def HMC.ECC_ADDR_HI.REG (i : Nat) : FRef := ⟨0x700014 + 0x800 * i, 31, 0⟩
def HMC.ECC_ADDR_HI.OFFSET (i : Nat) : FRef := ⟨0x700014 + 0x800 * i, 3, 0⟩
def HMC.POISON_WRITES.REG (i : Nat) : FRef := ⟨0x700018 + 0x800 * i, 31, 0⟩
def HMC.POISON_WRITES.COUNT (i : Nat) : FRef := ⟨0x700018 + 0x800 * i, 31, 0⟩
def HMC.SCRUB_PROGRESS.REG (i : Nat) : FRef := ⟨0x70001C + 0x800 * i, 31, 0⟩
def HMC.SCRUB_PROGRESS.FRAME (i : Nat) : FRef := ⟨0x70001C + 0x800 * i, 14, 0⟩
def HMC.WADD_COUNT.REG (i : Nat) : FRef := ⟨0x700020 + 0x800 * i, 31, 0⟩
def HMC.WADD_COUNT.COUNT (i : Nat) : FRef := ⟨0x700020 + 0x800 * i, 31, 0⟩
def HMC.WADD_FLAGS.REG (i : Nat) : FRef := ⟨0x700024 + 0x800 * i, 31, 0⟩
def HMC.WADD_FLAGS.OF (i : Nat) : FRef := ⟨0x700024 + 0x800 * i, 2, 2⟩
def HMC.WADD_FLAGS.NV (i : Nat) : FRef := ⟨0x700024 + 0x800 * i, 1, 1⟩
def HMC.WADD_FLAGS.NAN (i : Nat) : FRef := ⟨0x700024 + 0x800 * i, 0, 0⟩
def HMC.TRAFFIC.REG (i : Nat) : FRef := ⟨0x700028 + 0x800 * i, 31, 0⟩
def HMC.TRAFFIC.COUNT (i : Nat) : FRef := ⟨0x700028 + 0x800 * i, 31, 0⟩
def HMC.CAT_BASE_LO.REG : FRef := ⟨0x707000, 31, 0⟩
def HMC.CAT_BASE_LO.ADDR : FRef := ⟨0x707000, 31, 16⟩
def HMC.CAT_BASE_HI.REG : FRef := ⟨0x707004, 31, 0⟩
def HMC.CAT_BASE_HI.ADDR : FRef := ⟨0x707004, 15, 0⟩
def HMC.CAT_CTL.REG : FRef := ⟨0x707008, 31, 0⟩
def HMC.CAT_CTL.ENABLE : FRef := ⟨0x707008, 0, 0⟩
def HMC.CAT_STALE.REG : FRef := ⟨0x70700C, 31, 0⟩
def HMC.CAT_STALE.MICROSECONDS : FRef := ⟨0x70700C, 16, 0⟩
def HMC.SCRUB_PERIOD.REG : FRef := ⟨0x707010, 31, 0⟩
def HMC.SCRUB_PERIOD.HOURS : FRef := ⟨0x707010, 7, 0⟩
def HMC.RETIRE_THRESHOLD.REG : FRef := ⟨0x707014, 31, 0⟩
def HMC.RETIRE_THRESHOLD.COUNT : FRef := ⟨0x707014, 15, 0⟩
def HMC.PROT_FAULT.REG : FRef := ⟨0x707018, 31, 0⟩
def HMC.PROT_FAULT.VALID : FRef := ⟨0x707018, 31, 31⟩
def HMC.PROT_FAULT.DOMAIN : FRef := ⟨0x707018, 15, 8⟩
def HMC.PROT_FAULT.UNIT : FRef := ⟨0x707018, 7, 4⟩
def HMC.PROT_FAULT.CAUSE : FRef := ⟨0x707018, 3, 0⟩
def HMC.PROT_ADDR_LO.REG : FRef := ⟨0x70701C, 31, 0⟩
def HMC.PROT_ADDR_LO.ADDR : FRef := ⟨0x70701C, 31, 0⟩
def HMC.PROT_ADDR_HI.REG : FRef := ⟨0x707020, 31, 0⟩
def HMC.PROT_ADDR_HI.ADDR : FRef := ⟨0x707020, 15, 0⟩
def HMC.PROT_COUNT.REG : FRef := ⟨0x707024, 31, 0⟩
def HMC.PROT_COUNT.COUNT : FRef := ⟨0x707024, 31, 0⟩
def HMC.CAT_INVALIDATIONS.REG : FRef := ⟨0x707028, 31, 0⟩
def HMC.CAT_INVALIDATIONS.COUNT : FRef := ⟨0x707028, 31, 0⟩
def HMC.STACK_MAP.REG : FRef := ⟨0x70702C, 31, 0⟩
def HMC.STACK_MAP.FAILED : FRef := ⟨0x70702C, 27, 16⟩
def HMC.STACK_MAP.FITTED : FRef := ⟨0x70702C, 11, 0⟩
def HMC.FREE_FRAMES.REG : FRef := ⟨0x707030, 31, 0⟩
def HMC.FREE_FRAMES.COUNT : FRef := ⟨0x707030, 18, 0⟩
def HMC.LEAVES_FREE.REG : FRef := ⟨0x707034, 31, 0⟩
def HMC.LEAVES_FREE.COUNT : FRef := ⟨0x707034, 11, 0⟩
def PSE.STATE.REG : FRef := ⟨0x800000, 31, 0⟩
def PSE.STATE.EXACT_OUTER : FRef := ⟨0x800000, 10, 10⟩
def PSE.STATE.HOST_OUTER : FRef := ⟨0x800000, 9, 9⟩
def PSE.STATE.SHARDED : FRef := ⟨0x800000, 8, 8⟩
def PSE.STATE.STATE : FRef := ⟨0x800000, 3, 0⟩
def PSE.JOB.REG : FRef := ⟨0x800004, 31, 0⟩
def PSE.JOB.JOB : FRef := ⟨0x800004, 15, 0⟩
def PSE.STEP_LO.REG : FRef := ⟨0x800008, 31, 0⟩
def PSE.STEP_LO.STEP : FRef := ⟨0x800008, 31, 0⟩
def PSE.STEP_HI.REG : FRef := ⟨0x80000C, 31, 0⟩
def PSE.STEP_HI.STEP : FRef := ⟨0x80000C, 31, 0⟩
def PSE.SUPPRESSED.REG : FRef := ⟨0x800010, 31, 0⟩
def PSE.SUPPRESSED.COUNT : FRef := ⟨0x800010, 31, 0⟩
def PSE.LAST_NORM.REG : FRef := ⟨0x800014, 31, 0⟩
def PSE.LAST_NORM.NORM : FRef := ⟨0x800014, 31, 0⟩
def PSE.MEDIAN.REG : FRef := ⟨0x800018, 31, 0⟩
def PSE.MEDIAN.MEDIAN : FRef := ⟨0x800018, 31, 0⟩
def PSE.HISTORY.REG : FRef := ⟨0x80001C, 31, 0⟩
def PSE.HISTORY.COUNT : FRef := ⟨0x80001C, 10, 0⟩
def PSE.UPDATE_FLAGS.REG : FRef := ⟨0x800020, 31, 0⟩
def PSE.UPDATE_FLAGS.OF : FRef := ⟨0x800020, 2, 2⟩
def PSE.UPDATE_FLAGS.NV : FRef := ⟨0x800020, 1, 1⟩
def PSE.UPDATE_FLAGS.NAN : FRef := ⟨0x800020, 0, 0⟩
def PSE.SEALED.REG : FRef := ⟨0x800024, 31, 0⟩
def PSE.SEALED.ACCESSION : FRef := ⟨0x800024, 31, 0⟩
def PSE.APPLIED.REG : FRef := ⟨0x800028, 31, 0⟩
def PSE.APPLIED.ACCESSION : FRef := ⟨0x800028, 31, 0⟩
def PSE.ELEMENTS.REG : FRef := ⟨0x80002C, 31, 0⟩
def PSE.ELEMENTS.COUNT : FRef := ⟨0x80002C, 31, 0⟩
def CFI.PORT_STATE.REG (i : Nat) : FRef := ⟨0x900000 + 0x100 * i, 31, 0⟩
def CFI.PORT_STATE.UP (i : Nat) : FRef := ⟨0x900000 + 0x100 * i, 2, 2⟩
def CFI.PORT_STATE.PRESENT (i : Nat) : FRef := ⟨0x900000 + 0x100 * i, 1, 1⟩
def CFI.PORT_STATE.ENABLE (i : Nat) : FRef := ⟨0x900000 + 0x100 * i, 0, 0⟩
def CFI.PORT_IP6.REG (i j : Nat) : FRef := ⟨0x900004 + 0x100 * i + 0x4 * j, 31, 0⟩
def CFI.PORT_IP6.ADDR (i j : Nat) : FRef := ⟨0x900004 + 0x100 * i + 0x4 * j, 31, 0⟩
def CFI.PORT_GW_LO.REG (i : Nat) : FRef := ⟨0x900014 + 0x100 * i, 31, 0⟩
def CFI.PORT_GW_LO.MAC (i : Nat) : FRef := ⟨0x900014 + 0x100 * i, 31, 0⟩
def CFI.PORT_GW_HI.REG (i : Nat) : FRef := ⟨0x900018 + 0x100 * i, 31, 0⟩
def CFI.PORT_GW_HI.MAC (i : Nat) : FRef := ⟨0x900018 + 0x100 * i, 15, 0⟩
def CFI.PORT_MAC_LO.REG (i : Nat) : FRef := ⟨0x90001C + 0x100 * i, 31, 0⟩
def CFI.PORT_MAC_LO.MAC (i : Nat) : FRef := ⟨0x90001C + 0x100 * i, 31, 0⟩
def CFI.PORT_MAC_HI.REG (i : Nat) : FRef := ⟨0x900020 + 0x100 * i, 31, 0⟩
def CFI.PORT_MAC_HI.MAC (i : Nat) : FRef := ⟨0x900020 + 0x100 * i, 15, 0⟩
def CFI.PORT_FEC_CORR.REG (i : Nat) : FRef := ⟨0x900024 + 0x100 * i, 31, 0⟩
def CFI.PORT_FEC_CORR.COUNT (i : Nat) : FRef := ⟨0x900024 + 0x100 * i, 31, 0⟩
def CFI.PORT_FEC_UNCORR.REG (i : Nat) : FRef := ⟨0x900028 + 0x100 * i, 31, 0⟩
def CFI.PORT_FEC_UNCORR.COUNT (i : Nat) : FRef := ⟨0x900028 + 0x100 * i, 31, 0⟩
def CFI.PORT_FCS_ERR.REG (i : Nat) : FRef := ⟨0x90002C + 0x100 * i, 31, 0⟩
def CFI.PORT_FCS_ERR.COUNT (i : Nat) : FRef := ⟨0x90002C + 0x100 * i, 31, 0⟩
def CFI.PORT_ICRC_ERR.REG (i : Nat) : FRef := ⟨0x900030 + 0x100 * i, 31, 0⟩
def CFI.PORT_ICRC_ERR.COUNT (i : Nat) : FRef := ⟨0x900030 + 0x100 * i, 31, 0⟩
def CFI.PORT_DISCARDS.REG (i : Nat) : FRef := ⟨0x900034 + 0x100 * i, 31, 0⟩
def CFI.PORT_DISCARDS.COUNT (i : Nat) : FRef := ⟨0x900034 + 0x100 * i, 31, 0⟩
def CFI.PORT_TX.REG (i : Nat) : FRef := ⟨0x900038 + 0x100 * i, 31, 0⟩
def CFI.PORT_TX.COUNT (i : Nat) : FRef := ⟨0x900038 + 0x100 * i, 31, 0⟩
def CFI.PORT_RX.REG (i : Nat) : FRef := ⟨0x90003C + 0x100 * i, 31, 0⟩
def CFI.PORT_RX.COUNT (i : Nat) : FRef := ⟨0x90003C + 0x100 * i, 31, 0⟩
def CFI.PORT_RETX.REG (i : Nat) : FRef := ⟨0x900040 + 0x100 * i, 31, 0⟩
def CFI.PORT_RETX.COUNT (i : Nat) : FRef := ⟨0x900040 + 0x100 * i, 31, 0⟩
def CFI.PORT_ECN.REG (i : Nat) : FRef := ⟨0x900044 + 0x100 * i, 31, 0⟩
def CFI.PORT_ECN.COUNT (i : Nat) : FRef := ⟨0x900044 + 0x100 * i, 31, 0⟩
def CFI.CTL.REG : FRef := ⟨0x901000, 31, 0⟩
def CFI.CTL.PFC_OBEY : FRef := ⟨0x901000, 31, 24⟩
def CFI.CTL.UDP_PORT : FRef := ⟨0x901000, 15, 0⟩
def CFI.DSCP.REG : FRef := ⟨0x901004, 31, 0⟩
def CFI.DSCP.CTRL : FRef := ⟨0x901004, 13, 8⟩
def CFI.DSCP.DATA : FRef := ⟨0x901004, 5, 0⟩
def CFI.RTO_MIN.REG : FRef := ⟨0x901008, 31, 0⟩
def CFI.RTO_MIN.MICROSECONDS : FRef := ⟨0x901008, 16, 0⟩
def CFI.RTO_MAX.REG : FRef := ⟨0x90100C, 31, 0⟩
def CFI.RTO_MAX.MICROSECONDS : FRef := ⟨0x90100C, 16, 0⟩
def CFI.CAPACITY.REG : FRef := ⟨0x901010, 31, 0⟩
def CFI.CAPACITY.GBPS : FRef := ⟨0x901010, 15, 0⟩
def CFI.RESERVED.REG : FRef := ⟨0x901014, 31, 0⟩
def CFI.RESERVED.GBPS : FRef := ⟨0x901014, 15, 0⟩
def CFI.CELL.REG : FRef := ⟨0x901018, 31, 0⟩
def CFI.CELL.RANK : FRef := ⟨0x901018, 13, 0⟩
def CFI.CELL.SIZE : FRef := ⟨0x901018, 29, 16⟩
def CFI.GROUP_MISMATCH.REG : FRef := ⟨0x90101C, 31, 0⟩
def CFI.GROUP_MISMATCH.COUNT : FRef := ⟨0x90101C, 31, 0⟩
def CFI.STALE_FRAMES.REG : FRef := ⟨0x901020, 31, 0⟩
def CFI.STALE_FRAMES.COUNT : FRef := ⟨0x901020, 31, 0⟩
def CFI.GROUP_STATE.REG (i : Nat) : FRef := ⟨0x902000 + 0x20 * i, 31, 0⟩
def CFI.GROUP_STATE.MEMBERS (i : Nat) : FRef := ⟨0x902000 + 0x20 * i, 29, 16⟩
def CFI.GROUP_STATE.WEIGHT (i : Nat) : FRef := ⟨0x902000 + 0x20 * i, 15, 8⟩
def CFI.GROUP_STATE.MISMATCH (i : Nat) : FRef := ⟨0x902000 + 0x20 * i, 4, 4⟩
def CFI.GROUP_STATE.SCALED (i : Nat) : FRef := ⟨0x902000 + 0x20 * i, 3, 3⟩
def CFI.GROUP_STATE.STATE (i : Nat) : FRef := ⟨0x902000 + 0x20 * i, 2, 0⟩
def CFI.GROUP_TAG.REG (i : Nat) : FRef := ⟨0x902004 + 0x20 * i, 31, 0⟩
def CFI.GROUP_TAG.TAG (i : Nat) : FRef := ⟨0x902004 + 0x20 * i, 31, 0⟩
def CFI.GROUP_SEQ.REG (i : Nat) : FRef := ⟨0x902008 + 0x20 * i, 31, 0⟩
def CFI.GROUP_SEQ.SEQ (i : Nat) : FRef := ⟨0x902008 + 0x20 * i, 31, 0⟩
def CFI.GROUP_RESERVE.REG (i : Nat) : FRef := ⟨0x90200C + 0x20 * i, 31, 0⟩
def CFI.GROUP_RESERVE.GRANTED (i : Nat) : FRef := ⟨0x90200C + 0x20 * i, 31, 16⟩
def CFI.GROUP_RESERVE.RESERVED (i : Nat) : FRef := ⟨0x90200C + 0x20 * i, 15, 0⟩
def CFI.GROUP_TIMEOUT.REG (i : Nat) : FRef := ⟨0x902010 + 0x20 * i, 31, 0⟩
def CFI.GROUP_TIMEOUT.SECONDS (i : Nat) : FRef := ⟨0x902010 + 0x20 * i, 11, 0⟩
def CFI.GROUP_INDEX.REG (i : Nat) : FRef := ⟨0x902014 + 0x20 * i, 31, 0⟩
def CFI.GROUP_INDEX.INDEX (i : Nat) : FRef := ⟨0x902014 + 0x20 * i, 13, 0⟩
def CFI.GROUP_BYTES.REG (i : Nat) : FRef := ⟨0x902018 + 0x20 * i, 31, 0⟩
def CFI.GROUP_BYTES.COUNT (i : Nat) : FRef := ⟨0x902018 + 0x20 * i, 31, 0⟩
def CFI.GROUP_WAIT.REG (i : Nat) : FRef := ⟨0x90201C + 0x20 * i, 31, 0⟩
def CFI.GROUP_WAIT.MILLISECONDS (i : Nat) : FRef := ⟨0x90201C + 0x20 * i, 31, 0⟩
def CFI.STORE_STATE.REG (i : Nat) : FRef := ⟨0x905000 + 0x40 * i, 31, 0⟩
def CFI.STORE_STATE.FIRST_QP (i : Nat) : FRef := ⟨0x905000 + 0x40 * i, 31, 26⟩
def CFI.STORE_STATE.QP_COUNT (i : Nat) : FRef := ⟨0x905000 + 0x40 * i, 25, 22⟩
def CFI.STORE_STATE.STATE (i : Nat) : FRef := ⟨0x905000 + 0x40 * i, 2, 0⟩
def CFI.STORE_RKEY.REG (i : Nat) : FRef := ⟨0x905004 + 0x40 * i, 31, 0⟩
def CFI.STORE_RKEY.RKEY (i : Nat) : FRef := ⟨0x905004 + 0x40 * i, 31, 0⟩
def CFI.STORE_BASE_LO.REG (i : Nat) : FRef := ⟨0x905008 + 0x40 * i, 31, 0⟩
def CFI.STORE_BASE_LO.ADDR (i : Nat) : FRef := ⟨0x905008 + 0x40 * i, 31, 0⟩
def CFI.STORE_BASE_HI.REG (i : Nat) : FRef := ⟨0x90500C + 0x40 * i, 31, 0⟩
def CFI.STORE_BASE_HI.ADDR (i : Nat) : FRef := ⟨0x90500C + 0x40 * i, 31, 0⟩
def CFI.STORE_LEN_LO.REG (i : Nat) : FRef := ⟨0x905010 + 0x40 * i, 31, 0⟩
def CFI.STORE_LEN_LO.BYTES (i : Nat) : FRef := ⟨0x905010 + 0x40 * i, 31, 0⟩
def CFI.STORE_LEN_HI.REG (i : Nat) : FRef := ⟨0x905014 + 0x40 * i, 31, 0⟩
def CFI.STORE_LEN_HI.BYTES (i : Nat) : FRef := ⟨0x905014 + 0x40 * i, 31, 0⟩
def CFI.STORE_WRITTEN.REG (i : Nat) : FRef := ⟨0x905018 + 0x40 * i, 31, 0⟩
def CFI.STORE_WRITTEN.COUNT (i : Nat) : FRef := ⟨0x905018 + 0x40 * i, 31, 0⟩
def CFI.STORE_READ.REG (i : Nat) : FRef := ⟨0x90501C + 0x40 * i, 31, 0⟩
def CFI.STORE_READ.COUNT (i : Nat) : FRef := ⟨0x90501C + 0x40 * i, 31, 0⟩
def CFI.STORE_RETRIES.REG (i : Nat) : FRef := ⟨0x905020 + 0x40 * i, 31, 0⟩
def CFI.STORE_RETRIES.COUNT (i : Nat) : FRef := ⟨0x905020 + 0x40 * i, 31, 0⟩
def CFI.STORE_PROGRESS.REG (i : Nat) : FRef := ⟨0x905024 + 0x40 * i, 31, 0⟩
def CFI.STORE_PROGRESS.MIB (i : Nat) : FRef := ⟨0x905024 + 0x40 * i, 31, 0⟩
def WXU.ROUND_STATE.REG : FRef := ⟨0xA00000, 31, 0⟩
def WXU.ROUND_STATE.EXHAUSTED : FRef := ⟨0xA00000, 3, 3⟩
def WXU.ROUND_STATE.JOIN_WAIT : FRef := ⟨0xA00000, 2, 2⟩
def WXU.ROUND_STATE.STOPPING : FRef := ⟨0xA00000, 1, 1⟩
def WXU.ROUND_STATE.OPEN : FRef := ⟨0xA00000, 0, 0⟩
def WXU.ROUND_OPEN_ACC.REG : FRef := ⟨0xA00004, 31, 0⟩
def WXU.ROUND_OPEN_ACC.ACCESSION : FRef := ⟨0xA00004, 31, 0⟩
def WXU.EPOCH.REG : FRef := ⟨0xA00008, 31, 0⟩
def WXU.EPOCH.PENDING : FRef := ⟨0xA00008, 31, 16⟩
def WXU.EPOCH.CURRENT : FRef := ⟨0xA00008, 15, 0⟩
def WXU.EPOCH_CTL.REG : FRef := ⟨0xA0000C, 31, 0⟩
def WXU.EPOCH_CTL.PENDING_VALID : FRef := ⟨0xA0000C, 0, 0⟩
def WXU.QUARANTINE.REG : FRef := ⟨0xA00010, 31, 0⟩
def WXU.QUARANTINE.MILLISECONDS : FRef := ⟨0xA00010, 16, 0⟩
def WXU.SANITISED.REG : FRef := ⟨0xA00014, 31, 0⟩
def WXU.SANITISED.COUNT : FRef := ⟨0xA00014, 31, 0⟩
def WXU.LATE_APPLIED.REG : FRef := ⟨0xA00018, 31, 0⟩
def WXU.LATE_APPLIED.COUNT : FRef := ⟨0xA00018, 31, 0⟩
def WXU.LATE_DISCARDED.REG : FRef := ⟨0xA0001C, 31, 0⟩
def WXU.LATE_DISCARDED.COUNT : FRef := ⟨0xA0001C, 31, 0⟩
def WXU.STALE_GEN.REG : FRef := ⟨0xA00020, 31, 0⟩
def WXU.STALE_GEN.COUNT : FRef := ⟨0xA00020, 31, 0⟩
def WXU.EPOCH_DISCARDS.REG : FRef := ⟨0xA00024, 31, 0⟩
def WXU.EPOCH_DISCARDS.COUNT : FRef := ⟨0xA00024, 31, 0⟩
def WXU.CONTRIB_REJECTS.REG : FRef := ⟨0xA00028, 31, 0⟩
def WXU.CONTRIB_REJECTS.COUNT : FRef := ⟨0xA00028, 31, 0⟩
def WXU.DUP_FRAGMENTS.REG : FRef := ⟨0xA0002C, 31, 0⟩
def WXU.DUP_FRAGMENTS.COUNT : FRef := ⟨0xA0002C, 31, 0⟩
def WXU.ACC_STATE.REG (i : Nat) : FRef := ⟨0xA00100 + 0x40 * i, 31, 0⟩
def WXU.ACC_STATE.CAUSE (i : Nat) : FRef := ⟨0xA00100 + 0x40 * i, 9, 8⟩
def WXU.ACC_STATE.STATE (i : Nat) : FRef := ⟨0xA00100 + 0x40 * i, 2, 0⟩
def WXU.ACC_ID.REG (i : Nat) : FRef := ⟨0xA00104 + 0x40 * i, 31, 0⟩
def WXU.ACC_ID.ACCESSION (i : Nat) : FRef := ⟨0xA00104 + 0x40 * i, 31, 0⟩
def WXU.ACC_SEAL_STEP_LO.REG (i : Nat) : FRef := ⟨0xA00108 + 0x40 * i, 31, 0⟩
def WXU.ACC_SEAL_STEP_LO.STEP (i : Nat) : FRef := ⟨0xA00108 + 0x40 * i, 31, 0⟩
def WXU.ACC_SEAL_STEP_HI.REG (i : Nat) : FRef := ⟨0xA0010C + 0x40 * i, 31, 0⟩
def WXU.ACC_SEAL_STEP_HI.STEP (i : Nat) : FRef := ⟨0xA0010C + 0x40 * i, 31, 0⟩
def WXU.ACC_DECIDE_MS.REG (i : Nat) : FRef := ⟨0xA00110 + 0x40 * i, 31, 0⟩
def WXU.ACC_DECIDE_MS.MILLISECONDS (i : Nat) : FRef := ⟨0xA00110 + 0x40 * i, 31, 0⟩
def WXU.ACC_COVERED.REG (i : Nat) : FRef := ⟨0xA00114 + 0x40 * i, 31, 0⟩
def WXU.ACC_COVERED.COUNT (i : Nat) : FRef := ⟨0xA00114 + 0x40 * i, 31, 0⟩
def WXU.ACC_EXPECTED.REG (i : Nat) : FRef := ⟨0xA00118 + 0x40 * i, 31, 0⟩
def WXU.ACC_EXPECTED.COUNT (i : Nat) : FRef := ⟨0xA00118 + 0x40 * i, 31, 0⟩
def WXU.ACC_LATE.REG (i : Nat) : FRef := ⟨0xA0011C + 0x40 * i, 31, 0⟩
def WXU.ACC_LATE.COUNT (i : Nat) : FRef := ⟨0xA0011C + 0x40 * i, 31, 0⟩
def WXU.FAR_CTL.REG : FRef := ⟨0xA00400, 31, 0⟩
def WXU.FAR_CTL.UDP_PORT : FRef := ⟨0xA00400, 15, 0⟩
def WXU.VEST_CTL.REG : FRef := ⟨0xA00404, 31, 0⟩
def WXU.VEST_CTL.ACTIVE_MAX : FRef := ⟨0xA00404, 16, 8⟩
def WXU.VEST_CTL.EFFECTIVE : FRef := ⟨0xA00404, 7, 4⟩
def WXU.VEST_CTL.OVERCOMMIT : FRef := ⟨0xA00404, 3, 0⟩
def WXU.ROTATE.REG : FRef := ⟨0xA00408, 31, 0⟩
def WXU.ROTATE.QUANTUM_MS : FRef := ⟨0xA00408, 13, 0⟩
def WXU.RTO_MIN.REG : FRef := ⟨0xA0040C, 31, 0⟩
def WXU.RTO_MIN.MICROSECONDS : FRef := ⟨0xA0040C, 19, 0⟩
def WXU.RTO_MAX.REG : FRef := ⟨0xA00410, 31, 0⟩
def WXU.RTO_MAX.MILLISECONDS : FRef := ⟨0xA00410, 13, 0⟩
def WXU.AUTH_FAIL_LIMIT.REG : FRef := ⟨0xA00414, 31, 0⟩
def WXU.AUTH_FAIL_LIMIT.COUNT : FRef := ⟨0xA00414, 15, 0⟩
def WXU.DSCP.REG : FRef := ⟨0xA00418, 31, 0⟩
def WXU.DSCP.CTRL : FRef := ⟨0xA00418, 13, 8⟩
def WXU.DSCP.DATA : FRef := ⟨0xA00418, 5, 0⟩
def WXU.VEST_LEVEL.REG : FRef := ⟨0xA0041C, 31, 0⟩
def WXU.VEST_LEVEL.CELLS : FRef := ⟨0xA0041C, 14, 0⟩
def WXU.VEST_PEAK.REG : FRef := ⟨0xA00420, 31, 0⟩
def WXU.VEST_PEAK.CELLS : FRef := ⟨0xA00420, 14, 0⟩
def WXU.GRANT_SUM.REG : FRef := ⟨0xA00424, 31, 0⟩
def WXU.GRANT_SUM.KIB : FRef := ⟨0xA00424, 17, 0⟩
def WXU.DRAIN_RATE.REG : FRef := ⟨0xA00428, 31, 0⟩
def WXU.DRAIN_RATE.MB_PER_MS : FRef := ⟨0xA00428, 31, 0⟩
def WXU.VEST_DROPS.REG : FRef := ⟨0xA0042C, 31, 0⟩
def WXU.VEST_DROPS.COUNT : FRef := ⟨0xA0042C, 31, 0⟩
def WXU.AUTH_FAILS.REG : FRef := ⟨0xA00430, 31, 0⟩
def WXU.AUTH_FAILS.COUNT : FRef := ⟨0xA00430, 31, 0⟩
def WXU.REPLAYS.REG : FRef := ⟨0xA00434, 31, 0⟩
def WXU.REPLAYS.COUNT : FRef := ⟨0xA00434, 31, 0⟩
def WXU.MALFORMED.REG : FRef := ⟨0xA00438, 31, 0⟩
def WXU.MALFORMED.COUNT : FRef := ⟨0xA00438, 31, 0⟩
def WXU.RETX_SENT.REG : FRef := ⟨0xA0043C, 31, 0⟩
def WXU.RETX_SENT.COUNT : FRef := ⟨0xA0043C, 31, 0⟩
def WXU.NACKS_SENT.REG : FRef := ⟨0xA00440, 31, 0⟩
def WXU.NACKS_SENT.COUNT : FRef := ⟨0xA00440, 31, 0⟩
def WXU.GONE_SENT.REG : FRef := ⟨0xA00444, 31, 0⟩
def WXU.GONE_SENT.COUNT : FRef := ⟨0xA00444, 31, 0⟩
def WXU.ACTIVE.REG : FRef := ⟨0xA00448, 31, 0⟩
def WXU.ACTIVE.WANTING : FRef := ⟨0xA00448, 24, 16⟩
def WXU.ACTIVE.COUNT : FRef := ⟨0xA00448, 8, 0⟩
def WXU.FAR_DISCARDS.REG : FRef := ⟨0xA0044C, 31, 0⟩
def WXU.FAR_DISCARDS.COUNT : FRef := ⟨0xA0044C, 31, 0⟩
def WXU.FAR_STATE.REG (i : Nat) : FRef := ⟨0xA00800 + 0x100 * i, 31, 0⟩
def WXU.FAR_STATE.IPV4_EN (i : Nat) : FRef := ⟨0xA00800 + 0x100 * i, 3, 3⟩
def WXU.FAR_STATE.UP (i : Nat) : FRef := ⟨0xA00800 + 0x100 * i, 2, 2⟩
def WXU.FAR_STATE.PRESENT (i : Nat) : FRef := ⟨0xA00800 + 0x100 * i, 1, 1⟩
def WXU.FAR_STATE.ENABLE (i : Nat) : FRef := ⟨0xA00800 + 0x100 * i, 0, 0⟩
def WXU.FAR_IP6.REG (i j : Nat) : FRef := ⟨0xA00804 + 0x100 * i + 0x4 * j, 31, 0⟩
def WXU.FAR_IP6.ADDR (i j : Nat) : FRef := ⟨0xA00804 + 0x100 * i + 0x4 * j, 31, 0⟩
def WXU.FAR_IP4.REG (i : Nat) : FRef := ⟨0xA00814 + 0x100 * i, 31, 0⟩
def WXU.FAR_IP4.ADDR (i : Nat) : FRef := ⟨0xA00814 + 0x100 * i, 31, 0⟩
def WXU.FAR_GW_LO.REG (i : Nat) : FRef := ⟨0xA00818 + 0x100 * i, 31, 0⟩
def WXU.FAR_GW_LO.MAC (i : Nat) : FRef := ⟨0xA00818 + 0x100 * i, 31, 0⟩
def WXU.FAR_GW_HI.REG (i : Nat) : FRef := ⟨0xA0081C + 0x100 * i, 31, 0⟩
def WXU.FAR_GW_HI.MAC (i : Nat) : FRef := ⟨0xA0081C + 0x100 * i, 15, 0⟩
def WXU.FAR_MAC_LO.REG (i : Nat) : FRef := ⟨0xA00820 + 0x100 * i, 31, 0⟩
def WXU.FAR_MAC_LO.MAC (i : Nat) : FRef := ⟨0xA00820 + 0x100 * i, 31, 0⟩
def WXU.FAR_MAC_HI.REG (i : Nat) : FRef := ⟨0xA00824 + 0x100 * i, 31, 0⟩
def WXU.FAR_MAC_HI.MAC (i : Nat) : FRef := ⟨0xA00824 + 0x100 * i, 15, 0⟩
def WXU.FAR_FEC_CORR.REG (i : Nat) : FRef := ⟨0xA00828 + 0x100 * i, 31, 0⟩
def WXU.FAR_FEC_CORR.COUNT (i : Nat) : FRef := ⟨0xA00828 + 0x100 * i, 31, 0⟩
def WXU.FAR_FEC_UNCORR.REG (i : Nat) : FRef := ⟨0xA0082C + 0x100 * i, 31, 0⟩
def WXU.FAR_FEC_UNCORR.COUNT (i : Nat) : FRef := ⟨0xA0082C + 0x100 * i, 31, 0⟩
def WXU.FAR_FCS_ERR.REG (i : Nat) : FRef := ⟨0xA00830 + 0x100 * i, 31, 0⟩
def WXU.FAR_FCS_ERR.COUNT (i : Nat) : FRef := ⟨0xA00830 + 0x100 * i, 31, 0⟩
def WXU.FAR_TX.REG (i : Nat) : FRef := ⟨0xA00834 + 0x100 * i, 31, 0⟩
def WXU.FAR_TX.COUNT (i : Nat) : FRef := ⟨0xA00834 + 0x100 * i, 31, 0⟩
def WXU.FAR_RX.REG (i : Nat) : FRef := ⟨0xA00838 + 0x100 * i, 31, 0⟩
def WXU.FAR_RX.COUNT (i : Nat) : FRef := ⟨0xA00838 + 0x100 * i, 31, 0⟩
def WXU.FAR_ECN.REG (i : Nat) : FRef := ⟨0xA0083C + 0x100 * i, 31, 0⟩
def WXU.FAR_ECN.COUNT (i : Nat) : FRef := ⟨0xA0083C + 0x100 * i, 31, 0⟩
def WXU.SLOT_STATE.REG (i : Nat) : FRef := ⟨0xA40000 + 0x20 * i, 31, 0⟩
def WXU.SLOT_STATE.GEN (i : Nat) : FRef := ⟨0xA40000 + 0x20 * i, 31, 24⟩
def WXU.SLOT_STATE.CELL (i : Nat) : FRef := ⟨0xA40000 + 0x20 * i, 23, 18⟩
def WXU.SLOT_STATE.TIER (i : Nat) : FRef := ⟨0xA40000 + 0x20 * i, 17, 17⟩
def WXU.SLOT_STATE.IPV4 (i : Nat) : FRef := ⟨0xA40000 + 0x20 * i, 16, 16⟩
def WXU.SLOT_STATE.KEY_PHASE (i : Nat) : FRef := ⟨0xA40000 + 0x20 * i, 6, 6⟩
def WXU.SLOT_STATE.ACTIVE (i : Nat) : FRef := ⟨0xA40000 + 0x20 * i, 5, 5⟩
def WXU.SLOT_STATE.WANTING (i : Nat) : FRef := ⟨0xA40000 + 0x20 * i, 4, 4⟩
def WXU.SLOT_STATE.STATE (i : Nat) : FRef := ⟨0xA40000 + 0x20 * i, 1, 0⟩
def WXU.SLOT_PEER.REG (i : Nat) : FRef := ⟨0xA40004 + 0x20 * i, 31, 0⟩
def WXU.SLOT_PEER.PEER_GEN (i : Nat) : FRef := ⟨0xA40004 + 0x20 * i, 23, 16⟩
def WXU.SLOT_PEER.PEER_SLOT (i : Nat) : FRef := ⟨0xA40004 + 0x20 * i, 15, 0⟩
def WXU.SLOT_WINDOW.REG (i : Nat) : FRef := ⟨0xA40008 + 0x20 * i, 31, 0⟩
def WXU.SLOT_WINDOW.BYTES (i : Nat) : FRef := ⟨0xA40008 + 0x20 * i, 27, 0⟩
def WXU.SLOT_PEER_WINDOW.REG (i : Nat) : FRef := ⟨0xA4000C + 0x20 * i, 31, 0⟩
def WXU.SLOT_PEER_WINDOW.BYTES (i : Nat) : FRef := ⟨0xA4000C + 0x20 * i, 27, 0⟩
def WXU.SLOT_RTT.REG (i : Nat) : FRef := ⟨0xA40010 + 0x20 * i, 31, 0⟩
def WXU.SLOT_RTT.MICROSECONDS (i : Nat) : FRef := ⟨0xA40010 + 0x20 * i, 31, 0⟩
def WXU.SLOT_OUTSTANDING.REG (i : Nat) : FRef := ⟨0xA40014 + 0x20 * i, 31, 0⟩
def WXU.SLOT_OUTSTANDING.BYTES (i : Nat) : FRef := ⟨0xA40014 + 0x20 * i, 27, 0⟩
def WXU.SLOT_KEY.REG (i : Nat) : FRef := ⟨0xA40018 + 0x20 * i, 31, 0⟩
def WXU.SLOT_KEY.KEY_SLOT (i : Nat) : FRef := ⟨0xA40018 + 0x20 * i, 25, 16⟩
def WXU.SLOT_KEY.AUTH_FAILS (i : Nat) : FRef := ⟨0xA40018 + 0x20 * i, 15, 0⟩
def WXU.SLOT_LAST_USE.REG (i : Nat) : FRef := ⟨0xA4001C + 0x20 * i, 31, 0⟩
def WXU.SLOT_LAST_USE.MILLISECONDS (i : Nat) : FRef := ⟨0xA4001C + 0x20 * i, 31, 0⟩
def SEC.STATE.REG : FRef := ⟨0xB00000, 31, 0⟩
def SEC.STATE.PAIRS : FRef := ⟨0xB00000, 15, 10⟩
def SEC.STATE.PK_BUSY : FRef := ⟨0xB00000, 9, 7⟩
def SEC.STATE.IDENTITY_LOCKED : FRef := ⟨0xB00000, 2, 2⟩
def SEC.STATE.ENTROPY_OK : FRef := ⟨0xB00000, 1, 1⟩
def SEC.STATE.DIK_LOADED : FRef := ⟨0xB00000, 0, 0⟩
def SEC.PAIR_FAILED.REG : FRef := ⟨0xB00004, 31, 0⟩
def SEC.PAIR_FAILED.MASK : FRef := ⟨0xB00004, 31, 0⟩
def SEC.KEYS_FREE.REG : FRef := ⟨0xB00008, 31, 0⟩
def SEC.KEYS_FREE.COUNT : FRef := ⟨0xB00008, 10, 0⟩
def SEC.QUEUE_LEVEL.REG : FRef := ⟨0xB0000C, 31, 0⟩
def SEC.QUEUE_LEVEL.INBOUND : FRef := ⟨0xB0000C, 8, 0⟩
def SEC.QUEUE_LEVEL.OUTBOUND : FRef := ⟨0xB0000C, 24, 16⟩
def SEC.QUEUE_LEVEL2.REG : FRef := ⟨0xB00010, 31, 0⟩
def SEC.QUEUE_LEVEL2.CONTROL : FRef := ⟨0xB00010, 8, 0⟩
def SEC.SEAL_BLOCKS.REG : FRef := ⟨0xB00014, 31, 0⟩
def SEC.SEAL_BLOCKS.COUNT : FRef := ⟨0xB00014, 31, 0⟩
def SEC.OPEN_BLOCKS.REG : FRef := ⟨0xB00018, 31, 0⟩
def SEC.OPEN_BLOCKS.COUNT : FRef := ⟨0xB00018, 31, 0⟩
def SEC.TAG_FAILS.REG : FRef := ⟨0xB0001C, 31, 0⟩
def SEC.TAG_FAILS.COUNT : FRef := ⟨0xB0001C, 31, 0⟩
def SEC.CIPHER_FAULTS.REG : FRef := ⟨0xB00020, 31, 0⟩
def SEC.CIPHER_FAULTS.COUNT : FRef := ⟨0xB00020, 31, 0⟩
def SEC.PK_OPS.REG : FRef := ⟨0xB00024, 31, 0⟩
def SEC.PK_OPS.COUNT : FRef := ⟨0xB00024, 31, 0⟩
def SEC.PK_INVALID.REG : FRef := ⟨0xB00028, 31, 0⟩
def SEC.PK_INVALID.COUNT : FRef := ⟨0xB00028, 31, 0⟩
def SEC.HS_COMPLETE.REG : FRef := ⟨0xB0002C, 31, 0⟩
def SEC.HS_COMPLETE.COUNT : FRef := ⟨0xB0002C, 31, 0⟩
def SEC.HS_FAILED.REG : FRef := ⟨0xB00030, 31, 0⟩
def SEC.HS_FAILED.COUNT : FRef := ⟨0xB00030, 31, 0⟩
def SEC.HS_DROPPED.REG : FRef := ⟨0xB00034, 31, 0⟩
def SEC.HS_DROPPED.COUNT : FRef := ⟨0xB00034, 31, 0⟩
def SEC.REKEYS.REG : FRef := ⟨0xB00038, 31, 0⟩
def SEC.REKEYS.COUNT : FRef := ⟨0xB00038, 31, 0⟩
def SEC.FW_SVN.REG : FRef := ⟨0xB0003C, 31, 0⟩
def SEC.FW_SVN.COUNT : FRef := ⟨0xB0003C, 6, 0⟩
def SEC.FW_ROOT_REVOKED.REG : FRef := ⟨0xB00040, 31, 0⟩
def SEC.FW_ROOT_REVOKED.MASK : FRef := ⟨0xB00040, 3, 0⟩
def SEC.FW_KEY_INDEX.REG : FRef := ⟨0xB00044, 31, 0⟩
def SEC.FW_KEY_INDEX.INDEX : FRef := ⟨0xB00044, 1, 0⟩
def SEC.KEY_TYPE.REG (i : Nat) : FRef := ⟨0xB01000 + 0x4 * i, 31, 0⟩
def SEC.KEY_TYPE.OWNER (i : Nat) : FRef := ⟨0xB01000 + 0x4 * i, 31, 16⟩
def SEC.KEY_TYPE.TYPE (i : Nat) : FRef := ⟨0xB01000 + 0x4 * i, 2, 0⟩
def CSV.STATE.REG : FRef := ⟨0xC00000, 31, 0⟩
def CSV.STATE.REPLAY_ACTIVE : FRef := ⟨0xC00000, 8, 8⟩
def CSV.STATE.FRING_LEVEL : FRef := ⟨0xC00000, 6, 0⟩
def CSV.FRING_HEAD.REG : FRef := ⟨0xC00004, 31, 0⟩
def CSV.FRING_HEAD.INDEX : FRef := ⟨0xC00004, 5, 0⟩
def CSV.FRING_TAIL.REG : FRef := ⟨0xC00008, 31, 0⟩
def CSV.FRING_TAIL.INDEX : FRef := ⟨0xC00008, 5, 0⟩
def CSV.FAULT_CTL.REG : FRef := ⟨0xC0000C, 31, 0⟩
def CSV.FAULT_CTL.IN_PATH : FRef := ⟨0xC0000C, 3, 0⟩
def CSV.HANDLE_MIN.REG : FRef := ⟨0xC00010, 31, 0⟩
def CSV.HANDLE_MIN.MICROSECONDS : FRef := ⟨0xC00010, 19, 0⟩
def CSV.WATCH_LIMIT.REG : FRef := ⟨0xC00014, 31, 0⟩
def CSV.WATCH_LIMIT.COUNT : FRef := ⟨0xC00014, 7, 0⟩
def CSV.LOAN_CTL.REG : FRef := ⟨0xC00018, 31, 0⟩
def CSV.LOAN_CTL.INTERVAL_H : FRef := ⟨0xC00018, 31, 16⟩
def CSV.LOAN_CTL.DEFER_MIN : FRef := ⟨0xC00018, 15, 0⟩
def CSV.LOAN_STATE.REG : FRef := ⟨0xC0001C, 31, 0⟩
def CSV.LOAN_STATE.TO : FRef := ⟨0xC0001C, 23, 16⟩
def CSV.LOAN_STATE.TILE : FRef := ⟨0xC0001C, 15, 8⟩
def CSV.LOAN_STATE.PHASE : FRef := ⟨0xC0001C, 1, 0⟩
def CSV.RESERVE.REG (i : Nat) : FRef := ⟨0xC00020 + 0x4 * i, 31, 0⟩
def CSV.RESERVE.BUSY (i : Nat) : FRef := ⟨0xC00020 + 0x4 * i, 19, 18⟩
def CSV.RESERVE.VALID (i : Nat) : FRef := ⟨0xC00020 + 0x4 * i, 17, 16⟩
def CSV.RESERVE.TILES (i : Nat) : FRef := ⟨0xC00020 + 0x4 * i, 15, 0⟩
def CSV.REPLAY_INTERVAL.REG : FRef := ⟨0xC00030, 31, 0⟩
def CSV.REPLAY_INTERVAL.MILLISECONDS : FRef := ⟨0xC00030, 21, 0⟩
def CSV.REPLAY_SAMPLES.REG : FRef := ⟨0xC00034, 31, 0⟩
def CSV.REPLAY_SAMPLES.COUNT : FRef := ⟨0xC00034, 31, 0⟩
def CSV.REPLAY_MISMATCH.REG : FRef := ⟨0xC00038, 31, 0⟩
def CSV.REPLAY_MISMATCH.COUNT : FRef := ⟨0xC00038, 31, 0⟩
def CSV.REPLAY_ABORTED.REG : FRef := ⟨0xC0003C, 31, 0⟩
def CSV.REPLAY_ABORTED.COUNT : FRef := ⟨0xC0003C, 31, 0⟩
def CSV.SPM_SCRUB.REG : FRef := ⟨0xC00040, 31, 0⟩
def CSV.SPM_SCRUB.SECONDS : FRef := ⟨0xC00040, 11, 0⟩
def CSV.TESTS_RUN.REG : FRef := ⟨0xC00044, 31, 0⟩
def CSV.TESTS_RUN.COUNT : FRef := ⟨0xC00044, 31, 0⟩
def CSV.TESTS_SKIPPED.REG : FRef := ⟨0xC00048, 31, 0⟩
def CSV.TESTS_SKIPPED.COUNT : FRef := ⟨0xC00048, 31, 0⟩
def CSV.MARGIN_MIN.REG : FRef := ⟨0xC0004C, 31, 0⟩
def CSV.MARGIN_MIN.MILLIVOLTS : FRef := ⟨0xC0004C, 6, 0⟩
def CSV.FLASH_WEAR.REG : FRef := ⟨0xC00050, 31, 0⟩
def CSV.FLASH_WEAR.PERCENT : FRef := ⟨0xC00050, 6, 0⟩
def CSV.REFUSALS.REG : FRef := ⟨0xC00054, 31, 0⟩
def CSV.REFUSALS.COUNT : FRef := ⟨0xC00054, 31, 0⟩
def CSV.TELEM_SEQ.REG : FRef := ⟨0xC00058, 31, 0⟩
def CSV.TELEM_SEQ.SEQ : FRef := ⟨0xC00058, 31, 0⟩
def CSV.DBG_STATE.REG : FRef := ⟨0xC0005C, 31, 0⟩
def CSV.DBG_STATE.FORCED : FRef := ⟨0xC0005C, 13, 10⟩
def CSV.DBG_STATE.PENDING : FRef := ⟨0xC0005C, 9, 6⟩
def CSV.DBG_STATE.HALTED : FRef := ⟨0xC0005C, 5, 2⟩
def CSV.DBG_STATE.LEVEL : FRef := ⟨0xC0005C, 1, 0⟩
def CSV.DBG_LOCKS.REG : FRef := ⟨0xC00060, 31, 0⟩
def CSV.DBG_LOCKS.MASK : FRef := ⟨0xC00060, 31, 0⟩
def CSV.DUMP_STATE.REG : FRef := ⟨0xC00064, 31, 0⟩
def CSV.DUMP_STATE.CAUSE : FRef := ⟨0xC00064, 31, 16⟩
def CSV.DUMP_STATE.SEQ : FRef := ⟨0xC00064, 15, 1⟩
def CSV.DUMP_STATE.VALID : FRef := ⟨0xC00064, 0, 0⟩
def CSV.SUSPICION.REG (i j : Nat) : FRef := ⟨0xC40000 + 0x4000 * i + 0x4 * j, 31, 0⟩
def CSV.SUSPICION.TOTAL (i j : Nat) : FRef := ⟨0xC40000 + 0x4000 * i + 0x4 * j, 31, 16⟩
def CSV.SUSPICION.RECENT (i j : Nat) : FRef := ⟨0xC40000 + 0x4000 * i + 0x4 * j, 15, 8⟩
def CSV.SUSPICION.LEVEL (i j : Nat) : FRef := ⟨0xC40000 + 0x4000 * i + 0x4 * j, 1, 0⟩
def CMD.SEQ_STATE.REG (i : Nat) : FRef := ⟨0x1000000 + 0x10000 * i, 31, 0⟩
def CMD.SEQ_STATE.WAIT_SLOTS (i : Nat) : FRef := ⟨0x1000000 + 0x10000 * i, 31, 28⟩
def CMD.SEQ_STATE.DEFER_LEVEL (i : Nat) : FRef := ⟨0x1000000 + 0x10000 * i, 27, 24⟩
def CMD.SEQ_STATE.ROUTINE (i : Nat) : FRef := ⟨0x1000000 + 0x10000 * i, 4, 4⟩
def CMD.SEQ_STATE.CONTEXT (i : Nat) : FRef := ⟨0x1000000 + 0x10000 * i, 3, 3⟩
def CMD.SEQ_STATE.STATE (i : Nat) : FRef := ⟨0x1000000 + 0x10000 * i, 2, 0⟩
def CMD.SEQ_CTRL.REG (i : Nat) : FRef := ⟨0x1000004 + 0x10000 * i, 31, 0⟩
def CMD.SEQ_CTRL.UNLOAD (i : Nat) : FRef := ⟨0x1000004 + 0x10000 * i, 2, 2⟩
def CMD.SEQ_CTRL.RESUME (i : Nat) : FRef := ⟨0x1000004 + 0x10000 * i, 1, 1⟩
def CMD.SEQ_CTRL.HALT (i : Nat) : FRef := ⟨0x1000004 + 0x10000 * i, 0, 0⟩
def CMD.SEQ_HALT.REG (i : Nat) : FRef := ⟨0x1000008 + 0x10000 * i, 31, 0⟩
def CMD.SEQ_HALT.STATUS (i : Nat) : FRef := ⟨0x1000008 + 0x10000 * i, 31, 16⟩
def CMD.SEQ_HALT.VALID (i : Nat) : FRef := ⟨0x1000008 + 0x10000 * i, 15, 15⟩
def CMD.SEQ_HALT.RESTART (i : Nat) : FRef := ⟨0x1000008 + 0x10000 * i, 14, 14⟩
def CMD.SEQ_HALT.CONTEXT (i : Nat) : FRef := ⟨0x1000008 + 0x10000 * i, 13, 13⟩
def CMD.SEQ_HALT.QUEUE (i : Nat) : FRef := ⟨0x1000008 + 0x10000 * i, 12, 10⟩
def CMD.SEQ_HALT.ARRAY (i : Nat) : FRef := ⟨0x1000008 + 0x10000 * i, 9, 7⟩
def CMD.SEQ_HALT_PC.REG (i : Nat) : FRef := ⟨0x100000C + 0x10000 * i, 31, 0⟩
def CMD.SEQ_HALT_PC.PC (i : Nat) : FRef := ⟨0x100000C + 0x10000 * i, 13, 0⟩
def CMD.SEQ_HALT_INFO.REG (i : Nat) : FRef := ⟨0x1000010 + 0x10000 * i, 31, 0⟩
def CMD.SEQ_HALT_INFO.INFO (i : Nat) : FRef := ⟨0x1000010 + 0x10000 * i, 31, 0⟩
def CMD.SEQ_PC.REG (i : Nat) : FRef := ⟨0x1000014 + 0x10000 * i, 31, 0⟩
def CMD.SEQ_PC.DEFERRED (i : Nat) : FRef := ⟨0x1000014 + 0x10000 * i, 29, 16⟩
def CMD.SEQ_PC.MAIN (i : Nat) : FRef := ⟨0x1000014 + 0x10000 * i, 13, 0⟩
def CMD.SEQ_MB.REG (i : Nat) : FRef := ⟨0x1000018 + 0x10000 * i, 31, 0⟩
def CMD.SEQ_MB.DEFERRED (i : Nat) : FRef := ⟨0x1000018 + 0x10000 * i, 31, 16⟩
def CMD.SEQ_MB.MAIN (i : Nat) : FRef := ⟨0x1000018 + 0x10000 * i, 15, 0⟩
def CMD.SEQ_PROG.REG (i : Nat) : FRef := ⟨0x100001C + 0x10000 * i, 31, 0⟩
def CMD.SEQ_PROG.VARIANT7 (i : Nat) : FRef := ⟨0x100001C + 0x10000 * i, 15, 15⟩
def CMD.SEQ_PROG.COUNT (i : Nat) : FRef := ⟨0x100001C + 0x10000 * i, 14, 0⟩
def CMD.SEQ_ISSUED.REG (i : Nat) : FRef := ⟨0x1000020 + 0x10000 * i, 31, 0⟩
def CMD.SEQ_ISSUED.COUNT (i : Nat) : FRef := ⟨0x1000020 + 0x10000 * i, 31, 0⟩
def CMD.SEQ_STALL.REG (i : Nat) : FRef := ⟨0x1000024 + 0x10000 * i, 31, 0⟩
def CMD.SEQ_STALL.COUNT (i : Nat) : FRef := ⟨0x1000024 + 0x10000 * i, 31, 0⟩
def CMD.SEQ_DEFER_ISSUED.REG (i : Nat) : FRef := ⟨0x1000028 + 0x10000 * i, 31, 0⟩
def CMD.SEQ_DEFER_ISSUED.COUNT (i : Nat) : FRef := ⟨0x1000028 + 0x10000 * i, 31, 0⟩
def CMD.SEQ_SWITCHES.REG (i : Nat) : FRef := ⟨0x100002C + 0x10000 * i, 31, 0⟩
def CMD.SEQ_SWITCHES.COUNT (i : Nat) : FRef := ⟨0x100002C + 0x10000 * i, 31, 0⟩
def CMD.SEQ_YIELD_IDLE.REG (i : Nat) : FRef := ⟨0x1000030 + 0x10000 * i, 31, 0⟩
def CMD.SEQ_YIELD_IDLE.COUNT (i : Nat) : FRef := ⟨0x1000030 + 0x10000 * i, 31, 0⟩
def MXA.STATE.REG (i j : Nat) : FRef := ⟨0x1002000 + 0x10000 * i + 0x100 * j, 31, 0⟩
def MXA.STATE.FAILED (i j : Nat) : FRef := ⟨0x1002000 + 0x10000 * i + 0x100 * j, 19, 19⟩
def MXA.STATE.LOGICAL (i j : Nat) : FRef := ⟨0x1002000 + 0x10000 * i + 0x100 * j, 18, 16⟩
def MXA.STATE.SFMT (i j : Nat) : FRef := ⟨0x1002000 + 0x10000 * i + 0x100 * j, 15, 12⟩
def MXA.STATE.WFMT (i j : Nat) : FRef := ⟨0x1002000 + 0x10000 * i + 0x100 * j, 11, 8⟩
def MXA.STATE.MAPPED (i j : Nat) : FRef := ⟨0x1002000 + 0x10000 * i + 0x100 * j, 7, 7⟩
def MXA.STATE.QUAD (i j : Nat) : FRef := ⟨0x1002000 + 0x10000 * i + 0x100 * j, 6, 6⟩
def MXA.STATE.AXIS_T (i j : Nat) : FRef := ⟨0x1002000 + 0x10000 * i + 0x100 * j, 5, 5⟩
def MXA.STATE.DRAINING (i j : Nat) : FRef := ⟨0x1002000 + 0x10000 * i + 0x100 * j, 4, 4⟩
def MXA.STATE.LOADING (i j : Nat) : FRef := ⟨0x1002000 + 0x10000 * i + 0x100 * j, 3, 3⟩
def MXA.STATE.SHADOW_VALID (i j : Nat) : FRef := ⟨0x1002000 + 0x10000 * i + 0x100 * j, 2, 2⟩
def MXA.STATE.ACTIVE_VALID (i j : Nat) : FRef := ⟨0x1002000 + 0x10000 * i + 0x100 * j, 1, 1⟩
def MXA.STATE.BUSY (i j : Nat) : FRef := ⟨0x1002000 + 0x10000 * i + 0x100 * j, 0, 0⟩
def MXA.FLAGS.REG (i j : Nat) : FRef := ⟨0x1002004 + 0x10000 * i + 0x100 * j, 31, 0⟩
def MXA.FLAGS.SAT (i j : Nat) : FRef := ⟨0x1002004 + 0x10000 * i + 0x100 * j, 3, 3⟩
def MXA.FLAGS.OF (i j : Nat) : FRef := ⟨0x1002004 + 0x10000 * i + 0x100 * j, 2, 2⟩
def MXA.FLAGS.NV (i j : Nat) : FRef := ⟨0x1002004 + 0x10000 * i + 0x100 * j, 1, 1⟩
def MXA.FLAGS.NAN_IN (i j : Nat) : FRef := ⟨0x1002004 + 0x10000 * i + 0x100 * j, 0, 0⟩
def MXA.ACTIVE.REG (i j : Nat) : FRef := ⟨0x1002008 + 0x10000 * i + 0x100 * j, 31, 0⟩
def MXA.ACTIVE.COUNT (i j : Nat) : FRef := ⟨0x1002008 + 0x10000 * i + 0x100 * j, 31, 0⟩
def MXA.FREEZE_TOTAL.REG (i j : Nat) : FRef := ⟨0x100200C + 0x10000 * i + 0x100 * j, 31, 0⟩
def MXA.FREEZE_TOTAL.COUNT (i j : Nat) : FRef := ⟨0x100200C + 0x10000 * i + 0x100 * j, 31, 0⟩
def MXA.FREEZE_BANK.REG (i j : Nat) : FRef := ⟨0x1002010 + 0x10000 * i + 0x100 * j, 31, 0⟩
def MXA.FREEZE_BANK.COUNT (i j : Nat) : FRef := ⟨0x1002010 + 0x10000 * i + 0x100 * j, 31, 0⟩
def MXA.FREEZE_EMPTY.REG (i j : Nat) : FRef := ⟨0x1002014 + 0x10000 * i + 0x100 * j, 31, 0⟩
def MXA.FREEZE_EMPTY.COUNT (i j : Nat) : FRef := ⟨0x1002014 + 0x10000 * i + 0x100 * j, 31, 0⟩
def MXA.FREEZE_FULL.REG (i j : Nat) : FRef := ⟨0x1002018 + 0x10000 * i + 0x100 * j, 31, 0⟩
def MXA.FREEZE_FULL.COUNT (i j : Nat) : FRef := ⟨0x1002018 + 0x10000 * i + 0x100 * j, 31, 0⟩
def MXA.LOAD_WAIT.REG (i j : Nat) : FRef := ⟨0x100201C + 0x10000 * i + 0x100 * j, 31, 0⟩
def MXA.LOAD_WAIT.COUNT (i j : Nat) : FRef := ⟨0x100201C + 0x10000 * i + 0x100 * j, 31, 0⟩
def MXA.ROWS.REG (i j : Nat) : FRef := ⟨0x1002020 + 0x10000 * i + 0x100 * j, 31, 0⟩
def MXA.ROWS.COUNT (i j : Nat) : FRef := ⟨0x1002020 + 0x10000 * i + 0x100 * j, 31, 0⟩
def MXA.MAP.REG (i : Nat) : FRef := ⟨0x1002800 + 0x10000 * i, 31, 0⟩
def MXA.MAP.VALID_0 (i : Nat) : FRef := ⟨0x1002800 + 0x10000 * i, 3, 3⟩
def MXA.MAP.VALID_1 (i : Nat) : FRef := ⟨0x1002800 + 0x10000 * i, 7, 7⟩
def MXA.MAP.VALID_2 (i : Nat) : FRef := ⟨0x1002800 + 0x10000 * i, 11, 11⟩
def MXA.MAP.VALID_3 (i : Nat) : FRef := ⟨0x1002800 + 0x10000 * i, 15, 15⟩
def MXA.MAP.VALID_4 (i : Nat) : FRef := ⟨0x1002800 + 0x10000 * i, 19, 19⟩
def MXA.MAP.VALID_5 (i : Nat) : FRef := ⟨0x1002800 + 0x10000 * i, 23, 23⟩
def MXA.MAP.VALID_6 (i : Nat) : FRef := ⟨0x1002800 + 0x10000 * i, 27, 27⟩
def MXA.MAP.VALID_7 (i : Nat) : FRef := ⟨0x1002800 + 0x10000 * i, 31, 31⟩
def MXA.MAP.PHYS_0 (i : Nat) : FRef := ⟨0x1002800 + 0x10000 * i, 2, 0⟩
def MXA.MAP.PHYS_1 (i : Nat) : FRef := ⟨0x1002800 + 0x10000 * i, 6, 4⟩
def MXA.MAP.PHYS_2 (i : Nat) : FRef := ⟨0x1002800 + 0x10000 * i, 10, 8⟩
def MXA.MAP.PHYS_3 (i : Nat) : FRef := ⟨0x1002800 + 0x10000 * i, 14, 12⟩
def MXA.MAP.PHYS_4 (i : Nat) : FRef := ⟨0x1002800 + 0x10000 * i, 18, 16⟩
def MXA.MAP.PHYS_5 (i : Nat) : FRef := ⟨0x1002800 + 0x10000 * i, 22, 20⟩
def MXA.MAP.PHYS_6 (i : Nat) : FRef := ⟨0x1002800 + 0x10000 * i, 26, 24⟩
def MXA.MAP.PHYS_7 (i : Nat) : FRef := ⟨0x1002800 + 0x10000 * i, 30, 28⟩
def MXA.FAILED.REG (i : Nat) : FRef := ⟨0x1002804 + 0x10000 * i, 31, 0⟩
def MXA.FAILED.MASK (i : Nat) : FRef := ⟨0x1002804 + 0x10000 * i, 7, 0⟩
def TCX.FAULT_STATUS.REG (i : Nat) : FRef := ⟨0x1003000 + 0x10000 * i, 31, 0⟩
def TCX.FAULT_STATUS.STATUS (i : Nat) : FRef := ⟨0x1003000 + 0x10000 * i, 31, 16⟩
def TCX.FAULT_STATUS.SOURCE_MASK (i : Nat) : FRef := ⟨0x1003000 + 0x10000 * i, 15, 8⟩
def TCX.FAULT_STATUS.MODE (i : Nat) : FRef := ⟨0x1003000 + 0x10000 * i, 7, 4⟩
def TCX.FAULT_STATUS.VALID (i : Nat) : FRef := ⟨0x1003000 + 0x10000 * i, 0, 0⟩
def TCX.FAULT_ADDR.REG (i : Nat) : FRef := ⟨0x1003004 + 0x10000 * i, 31, 0⟩
def TCX.FAULT_ADDR.STREAM_BASE (i : Nat) : FRef := ⟨0x1003004 + 0x10000 * i, 22, 0⟩
def TCX.FAULT_BLOCK.REG (i : Nat) : FRef := ⟨0x1003008 + 0x10000 * i, 31, 0⟩
def TCX.FAULT_BLOCK.INDEX (i : Nat) : FRef := ⟨0x1003008 + 0x10000 * i, 31, 0⟩
def TCX.FAULT_LEN.REG (i : Nat) : FRef := ⟨0x100300C + 0x10000 * i, 31, 0⟩
def TCX.FAULT_LEN.DECLARED (i : Nat) : FRef := ⟨0x100300C + 0x10000 * i, 15, 8⟩
def TCX.FAULT_LEN.COMPUTED (i : Nat) : FRef := ⟨0x100300C + 0x10000 * i, 7, 0⟩
def TCX.FAULT_COUNT.REG (i : Nat) : FRef := ⟨0x1003010 + 0x10000 * i, 31, 0⟩
def TCX.FAULT_COUNT.COUNT (i : Nat) : FRef := ⟨0x1003010 + 0x10000 * i, 31, 0⟩
def TCX.BLOCKS_DECODED.REG (i : Nat) : FRef := ⟨0x1003014 + 0x10000 * i, 31, 0⟩
def TCX.BLOCKS_DECODED.COUNT (i : Nat) : FRef := ⟨0x1003014 + 0x10000 * i, 31, 0⟩
def TCX.BLOCKS_ENCODED.REG (i : Nat) : FRef := ⟨0x1003018 + 0x10000 * i, 31, 0⟩
def TCX.BLOCKS_ENCODED.COUNT (i : Nat) : FRef := ⟨0x1003018 + 0x10000 * i, 31, 0⟩
def TCX.RAW_ENCODED.REG (i : Nat) : FRef := ⟨0x100301C + 0x10000 * i, 31, 0⟩
def TCX.RAW_ENCODED.COUNT (i : Nat) : FRef := ⟨0x100301C + 0x10000 * i, 31, 0⟩
def TCX.BYTES_ENCODED.REG (i : Nat) : FRef := ⟨0x1003020 + 0x10000 * i, 31, 0⟩
def TCX.BYTES_ENCODED.COUNT (i : Nat) : FRef := ⟨0x1003020 + 0x10000 * i, 31, 0⟩
def VEC.STATE.REG (i : Nat) : FRef := ⟨0x1004000 + 0x10000 * i, 31, 0⟩
def VEC.STATE.CB_LINES (i : Nat) : FRef := ⟨0x1004000 + 0x10000 * i, 28, 16⟩
def VEC.STATE.QUEUE_LEVEL (i : Nat) : FRef := ⟨0x1004000 + 0x10000 * i, 12, 4⟩
def VEC.STATE.VRUN (i : Nat) : FRef := ⟨0x1004000 + 0x10000 * i, 1, 1⟩
def VEC.STATE.BUSY (i : Nat) : FRef := ⟨0x1004000 + 0x10000 * i, 0, 0⟩
def VEC.TRAP_INFO.REG (i : Nat) : FRef := ⟨0x1004004 + 0x10000 * i, 31, 0⟩
def VEC.TRAP_INFO.FLAGS (i : Nat) : FRef := ⟨0x1004004 + 0x10000 * i, 31, 24⟩
def VEC.TRAP_INFO.CHAIN (i : Nat) : FRef := ⟨0x1004004 + 0x10000 * i, 20, 16⟩
def VEC.TRAP_INFO.VALID (i : Nat) : FRef := ⟨0x1004004 + 0x10000 * i, 0, 0⟩
def VEC.TRAP_ROW.REG (i : Nat) : FRef := ⟨0x1004008 + 0x10000 * i, 31, 0⟩
def VEC.TRAP_ROW.ROW (i : Nat) : FRef := ⟨0x1004008 + 0x10000 * i, 31, 0⟩
def VEC.TRAP_COL.REG (i : Nat) : FRef := ⟨0x100400C + 0x10000 * i, 31, 0⟩
def VEC.TRAP_COL.COL (i : Nat) : FRef := ⟨0x100400C + 0x10000 * i, 31, 0⟩
def VEC.PANEL_ROWS.REG (i : Nat) : FRef := ⟨0x1004010 + 0x10000 * i, 31, 0⟩
def VEC.PANEL_ROWS.COUNT (i : Nat) : FRef := ⟨0x1004010 + 0x10000 * i, 31, 0⟩
def VEC.VRUN_GROUPS.REG (i : Nat) : FRef := ⟨0x1004014 + 0x10000 * i, 31, 0⟩
def VEC.VRUN_GROUPS.COUNT (i : Nat) : FRef := ⟨0x1004014 + 0x10000 * i, 31, 0⟩
def VEC.STALL_BANK.REG (i : Nat) : FRef := ⟨0x1004018 + 0x10000 * i, 31, 0⟩
def VEC.STALL_BANK.COUNT (i : Nat) : FRef := ⟨0x1004018 + 0x10000 * i, 31, 0⟩
def VEC.STALL_CB.REG (i : Nat) : FRef := ⟨0x100401C + 0x10000 * i, 31, 0⟩
def VEC.STALL_CB.COUNT (i : Nat) : FRef := ⟨0x100401C + 0x10000 * i, 31, 0⟩
def VEC.ABORTS.REG (i : Nat) : FRef := ⟨0x1004020 + 0x10000 * i, 31, 0⟩
def VEC.ABORTS.COUNT (i : Nat) : FRef := ⟨0x1004020 + 0x10000 * i, 31, 0⟩
def VEC.STEP_LO.REG (i : Nat) : FRef := ⟨0x1004024 + 0x10000 * i, 31, 0⟩
def VEC.STEP_LO.STEP (i : Nat) : FRef := ⟨0x1004024 + 0x10000 * i, 31, 0⟩
def VEC.STEP_HI.REG (i : Nat) : FRef := ⟨0x1004028 + 0x10000 * i, 31, 0⟩
def VEC.STEP_HI.STEP (i : Nat) : FRef := ⟨0x1004028 + 0x10000 * i, 31, 0⟩
def VEC.SEED_LO.REG (i : Nat) : FRef := ⟨0x100402C + 0x10000 * i, 31, 0⟩
def VEC.SEED_LO.SEED (i : Nat) : FRef := ⟨0x100402C + 0x10000 * i, 31, 0⟩
def VEC.SEED_HI.REG (i : Nat) : FRef := ⟨0x1004030 + 0x10000 * i, 31, 0⟩
def VEC.SEED_HI.SEED (i : Nat) : FRef := ⟨0x1004030 + 0x10000 * i, 31, 0⟩
def VEC.FLAGS.REG (i j : Nat) : FRef := ⟨0x1004040 + 0x10000 * i + 0x4 * j, 31, 0⟩
def VEC.FLAGS.FLAGS (i j : Nat) : FRef := ⟨0x1004040 + 0x10000 * i + 0x4 * j, 7, 0⟩
def VEC.CURSOR_E_LO.REG (i j : Nat) : FRef := ⟨0x1004100 + 0x10000 * i + 0x10 * j, 31, 0⟩
def VEC.CURSOR_E_LO.E (i j : Nat) : FRef := ⟨0x1004100 + 0x10000 * i + 0x10 * j, 31, 0⟩
def VEC.CURSOR_E_HI.REG (i j : Nat) : FRef := ⟨0x1004104 + 0x10000 * i + 0x10 * j, 31, 0⟩
def VEC.CURSOR_E_HI.E (i j : Nat) : FRef := ⟨0x1004104 + 0x10000 * i + 0x10 * j, 15, 0⟩
def VEC.CURSOR_ROW.REG (i j : Nat) : FRef := ⟨0x1004108 + 0x10000 * i + 0x10 * j, 31, 0⟩
def VEC.CURSOR_ROW.ROW_BASE (i j : Nat) : FRef := ⟨0x1004108 + 0x10000 * i + 0x10 * j, 31, 0⟩
def VEC.CURSOR_COL.REG (i j : Nat) : FRef := ⟨0x100410C + 0x10000 * i + 0x10 * j, 31, 0⟩
def VEC.CURSOR_COL.COL_BASE (i j : Nat) : FRef := ⟨0x100410C + 0x10000 * i + 0x10 * j, 31, 0⟩
def SPM.REGION_BASE.REG (i j : Nat) : FRef := ⟨0x1007000 + 0x10000 * i + 0x10 * j, 31, 0⟩
def SPM.REGION_BASE.VALID (i j : Nat) : FRef := ⟨0x1007000 + 0x10000 * i + 0x10 * j, 31, 31⟩
def SPM.REGION_BASE.BASE (i j : Nat) : FRef := ⟨0x1007000 + 0x10000 * i + 0x10 * j, 22, 7⟩
def SPM.REGION_SIZE.REG (i j : Nat) : FRef := ⟨0x1007004 + 0x10000 * i + 0x10 * j, 31, 0⟩
def SPM.REGION_SIZE.SIZE (i j : Nat) : FRef := ⟨0x1007004 + 0x10000 * i + 0x10 * j, 23, 7⟩
def SPM.REGION_HEAD.REG (i j : Nat) : FRef := ⟨0x1007008 + 0x10000 * i + 0x10 * j, 31, 0⟩
def SPM.REGION_HEAD.HEAD (i j : Nat) : FRef := ⟨0x1007008 + 0x10000 * i + 0x10 * j, 31, 0⟩
def SPM.REGION_TAIL.REG (i j : Nat) : FRef := ⟨0x100700C + 0x10000 * i + 0x10 * j, 31, 0⟩
def SPM.REGION_TAIL.TAIL (i j : Nat) : FRef := ⟨0x100700C + 0x10000 * i + 0x10 * j, 31, 0⟩
def SPM.REGION_WORIGIN.REG (i j : Nat) : FRef := ⟨0x1007400 + 0x10000 * i + 0x8 * j, 31, 0⟩
def SPM.REGION_WORIGIN.ORIGIN (i j : Nat) : FRef := ⟨0x1007400 + 0x10000 * i + 0x8 * j, 31, 0⟩
def SPM.REGION_RORIGIN.REG (i j : Nat) : FRef := ⟨0x1007404 + 0x10000 * i + 0x8 * j, 31, 0⟩
def SPM.REGION_RORIGIN.ORIGIN (i j : Nat) : FRef := ⟨0x1007404 + 0x10000 * i + 0x8 * j, 31, 0⟩
def SPM.REGION_BIND.REG (i j : Nat) : FRef := ⟨0x1007600 + 0x10000 * i + 0x4 * j, 31, 0⟩
def SPM.REGION_BIND.PRODUCER_TILE (i j : Nat) : FRef := ⟨0x1007600 + 0x10000 * i + 0x4 * j, 15, 8⟩
def SPM.REGION_BIND.REMOTE_EN (i j : Nat) : FRef := ⟨0x1007600 + 0x10000 * i + 0x4 * j, 0, 0⟩
def SPM.BANK_LOSSES.REG (i : Nat) : FRef := ⟨0x1007700 + 0x10000 * i, 31, 0⟩
def SPM.BANK_LOSSES.COUNT (i : Nat) : FRef := ⟨0x1007700 + 0x10000 * i, 31, 0⟩
def SPM.REGION_WAITS.REG (i : Nat) : FRef := ⟨0x1007704 + 0x10000 * i, 31, 0⟩
def SPM.REGION_WAITS.COUNT (i : Nat) : FRef := ⟨0x1007704 + 0x10000 * i, 31, 0⟩
def SPM.ECC_CORRECTED.REG (i : Nat) : FRef := ⟨0x1007708 + 0x10000 * i, 31, 0⟩
def SPM.ECC_CORRECTED.COUNT (i : Nat) : FRef := ⟨0x1007708 + 0x10000 * i, 31, 0⟩
def SPM.ECC_UNCORR.REG (i : Nat) : FRef := ⟨0x100770C + 0x10000 * i, 31, 0⟩
def SPM.ECC_UNCORR.COUNT (i : Nat) : FRef := ⟨0x100770C + 0x10000 * i, 31, 0⟩
def SPM.ECC_ADDR.REG (i : Nat) : FRef := ⟨0x1007710 + 0x10000 * i, 31, 0⟩
def SPM.ECC_ADDR.LINE (i : Nat) : FRef := ⟨0x1007710 + 0x10000 * i, 15, 0⟩
def TDMA.CH_STATE.REG (i j : Nat) : FRef := ⟨0x1007800 + 0x10000 * i + 0x40 * j, 31, 0⟩
def TDMA.CH_STATE.LAST_STATUS (i j : Nat) : FRef := ⟨0x1007800 + 0x10000 * i + 0x40 * j, 31, 16⟩
def TDMA.CH_STATE.LEVEL (i j : Nat) : FRef := ⟨0x1007800 + 0x10000 * i + 0x40 * j, 9, 5⟩
def TDMA.CH_STATE.ERROR (i j : Nat) : FRef := ⟨0x1007800 + 0x10000 * i + 0x40 * j, 1, 1⟩
def TDMA.CH_STATE.BUSY (i j : Nat) : FRef := ⟨0x1007800 + 0x10000 * i + 0x40 * j, 0, 0⟩
def TDMA.CH_FAULT_LO.REG (i j : Nat) : FRef := ⟨0x1007804 + 0x10000 * i + 0x40 * j, 31, 0⟩
def TDMA.CH_FAULT_LO.ADDR (i j : Nat) : FRef := ⟨0x1007804 + 0x10000 * i + 0x40 * j, 31, 0⟩
def TDMA.CH_FAULT_HI.REG (i j : Nat) : FRef := ⟨0x1007808 + 0x10000 * i + 0x40 * j, 31, 0⟩
def TDMA.CH_FAULT_HI.ADDR (i j : Nat) : FRef := ⟨0x1007808 + 0x10000 * i + 0x40 * j, 15, 0⟩
def TDMA.CH_DESC.REG (i j : Nat) : FRef := ⟨0x100780C + 0x10000 * i + 0x40 * j, 31, 0⟩
def TDMA.CH_DESC.ADDR (i j : Nat) : FRef := ⟨0x100780C + 0x10000 * i + 0x40 * j, 22, 0⟩
def TDMA.CH_LINES.REG (i j : Nat) : FRef := ⟨0x1007810 + 0x10000 * i + 0x40 * j, 31, 0⟩
def TDMA.CH_LINES.COUNT (i j : Nat) : FRef := ⟨0x1007810 + 0x10000 * i + 0x40 * j, 31, 0⟩
def TDMA.CH_DONE.REG (i j : Nat) : FRef := ⟨0x1007814 + 0x10000 * i + 0x40 * j, 31, 0⟩
def TDMA.CH_DONE.COUNT (i j : Nat) : FRef := ⟨0x1007814 + 0x10000 * i + 0x40 * j, 31, 0⟩
def TDMA.MOVE_ALLOW.REG (i j : Nat) : FRef := ⟨0x1007900 + 0x10000 * i + 0x4 * j, 31, 0⟩
def TDMA.MOVE_ALLOW.MASK (i j : Nat) : FRef := ⟨0x1007900 + 0x10000 * i + 0x4 * j, 31, 0⟩

end Sys2Proof.Machine
end

