-- ==== Sys2Proof/Machine/SMap.lean ====
section
/-! DEFINITION. Sparse maps in canonical form: keys strictly rising, and no entry equal to what an
unlisted key reads as, so that equal maps are equal data. `dflt` says what an unlisted key reads as.
Memories, register files, tile tables and slot tables are all held so. -/

namespace Sys2Proof.Machine

variable {α : Type}

/-- The value at key `k`. -/
def smapGet (dflt : Nat → α) : SMap α → Nat → α
  | [], k => dflt k
  | (j, v) :: m, k => if j = k then v else smapGet dflt m k

/-- `m` without key `k`. -/
def smapDrop (m : SMap α) (k : Nat) : SMap α := m.filter (fun e => e.1 != k)

/-- `m` with (k, v) inserted in key order, replacing an entry of key `k`. -/
def smapPut : SMap α → Nat → α → SMap α
  | [], k, v => [(k, v)]
  | (j, u) :: m, k, v =>
    if k < j then (k, v) :: (j, u) :: m
    else if k = j then (k, v) :: m
    else (j, u) :: smapPut m k v

/-- `m` with key `k` reading `v`, canonical again: writing what an unlisted key reads as removes
the entry. -/
def smapSet [DecidableEq α] (dflt : Nat → α) (m : SMap α) (k : Nat) (v : α) : SMap α :=
  if v = dflt k then smapDrop m k else smapPut m k v

/-- Are the keys of `m` strictly rising and all above `lo`? -/
def smapRising : Option Nat → SMap α → Bool
  | _, [] => true
  | none, (j, _) :: m => smapRising (some j) m
  | some l, (j, _) :: m => decide (l < j) && smapRising (some j) m

/-- The canonical form. -/
def smapWf [DecidableEq α] (dflt : Nat → α) (m : SMap α) : Bool :=
  smapRising none m && m.all (fun e => decide (e.2 ≠ dflt e.1))

/-- The entries whose keys lie in [a, a+n). -/
def smapRange (m : SMap α) (a n : Nat) : SMap α := m.filter (fun e => decide (a ≤ e.1 ∧ e.1 < a + n))

/-- `m` with every key of [a, a+n) reading as unlisted. -/
def smapClear (m : SMap α) (a n : Nat) : SMap α :=
  m.filter (fun e => !decide (a ≤ e.1 ∧ e.1 < a + n))

/-- Set several keys in turn. -/
def smapSetAll [DecidableEq α] (dflt : Nat → α) (m : SMap α) (es : List (Nat × α)) : SMap α :=
  es.foldl (fun m e => smapSet dflt m e.1 e.2) m

/-- An unlisted key reads 0. -/
def zeroDflt : Nat → Nat := fun _ => 0

/-! ## Byte memories: an unlisted byte reads 0 -/

/-- What an unlisted byte of memory reads as. DESIGN CHOICE (log 3): 0. -/
def memDflt : Nat → Byte := fun _ => 0

/-- One byte of memory. -/
def memGet (m : SMap Byte) (a : Nat) : Byte := smapGet memDflt m a

/-- Write one byte. -/
def memSet (m : SMap Byte) (a : Nat) (b : Byte) : SMap Byte := smapSet memDflt m a b

/-- Read `n` bytes from address `a`. -/
def memRead (m : SMap Byte) (a : Nat) : Nat → Bytes
  | 0 => []
  | n + 1 => memGet m a :: memRead m (a + 1) n

/-- Write a string of bytes from address `a` on, the lowest address first. -/
def memWrite (m : SMap Byte) (a : Nat) : Bytes → SMap Byte
  | [] => m
  | b :: bs => memWrite (memSet m a b) (a + 1) bs

/-- Zero `n` bytes from address `a`. -/
def memZero (m : SMap Byte) (a n : Nat) : SMap Byte := smapClear m a n

/-- Copy `n` bytes of `src` at `sa` to `m` at `da`, as if the whole source were read first. -/
def memCopy (src : SMap Byte) (sa : Nat) (m : SMap Byte) (da n : Nat) : SMap Byte :=
  smapSetAll memDflt (memZero m da n) ((smapRange src sa n).map (fun e => (e.1 - sa + da, e.2)))

/-- The canonical form of a byte memory. -/
def memWf (m : SMap Byte) : Bool := smapWf memDflt m

end Sys2Proof.Machine
end

