-- ==== Sys2Proof/Config.lean ====
section
/-! DEFINITION. What one device fixes and no command changes, and the free values. Each is a
constant without a body: nothing can be proved from its value, so a claim holds whatever it is. -/

namespace Sys2Proof

/-- The six ordering codes of R1: stacks fitted, then I/O dies. -/
inductive OrderingCode where
  | m08x2 | m10x2 | m12x2 | m08x4 | m10x4 | m12x4
  deriving DecidableEq, Repr, Inhabited

/-- The ordering code of this device (R1, R3). -/
opaque Config.orderingCode : OrderingCode

/-- The 64-bit device serial (R634). -/
opaque Config.serial : BitVec 64

/-- The 48-bit base MAC address in on-package flash, whose low 5 bits are 0 (R392). -/
opaque Config.macBase : BitVec 48

/-- Free values, one per draw: what the spec leaves undefined (a read of an RSV field, a random
PSN, key material, an undefined result). The draw number is the plain counter `Dev.draws`. -/
opaque Config.free : Nat → Nat

/-- The SHA-384 hashes of the four firmware root public keys in fuses (R534). -/
opaque Config.rootHash : Nat → Bytes

/-- The device identity key of key slot 0 (R508): its private scalar, up to the range of scalars. -/
opaque Config.dik : Nat

/-- The IPv6 flow label the device gives a partner slot's frames on a far port (R478: one for each). -/
opaque Config.flowLabel : Nat → Nat → BitVec 20

/-- What GETPID, GETBCR and GETDCR of the I3C target return (R643: the codes are supported, their values are
not stated). -/
opaque Config.i3cPid : BitVec 48
opaque Config.i3cBcr : BitVec 8
opaque Config.i3cDcr : BitVec 8

/-- The debug root in fuses: SHA-384 of the authorised debug point (R618). -/
opaque Config.debugRoot : Bytes

/-- The smoothed round-trip time of a receiver of the cell transport after a sample (R399 names it and gives no
formula; log 88): of the one before, 0 for none, and the sample. -/
opaque Config.smoothRtt : Nat → Nat → Nat

/-- Which instance of a unit performs an access that the spec places in none of them (R331: the I/O die of the CFI,
the slice of the PSE that reads a table or a list; log 8): of the time, the draws and the address. -/
opaque Config.instanceOf : Nat → Nat → Nat → Nat

/-- Whether the code detects a pattern of seven or more erroneous symbols in a codeword (R341: it does with a
probability of at least 1 − 2^−32; log 76): of the codeword and the symbols. -/
opaque Config.rsDetects : Nat → Nat → Bool

/-- The announce timeout of the PTP profile, in ns (R574 names it and states no value; log 82). -/
opaque Config.announceTimeout : Nat

end Sys2Proof
end

