-- ==== Sys2Proof/Machine/State.lean ====
section
/-! DEFINITION. The state of the device as plain data, and the state after reset. Registers of
BAR0 live in one sparse map by primary offset (`Dev.regs`, reset values from
`Machine/RegTable.lean`); everything the spec gives the device beside them lives in the units'
structures below. The queue of waiting commands, the time base and the fuses stand beside the
device proper, so that it is plain which commands touch them. -/

namespace Sys2Proof.Machine

/-! ## Faults and refusals -/

/-- Why a command could stop the device. No command of this device stops it: every row has an
effect by the spec, and an event that matches nothing in the state changes nothing. -/
inductive Fault where
  /-- Raised by no meaning; kept so that the outcome type is inhabited. Safe: it never occurs. -/
  | none
  deriving DecidableEq, Repr

/-- Why a command could have no meaning. -/
inductive Refusal where
  /-- Raised by exec's arm of a command that is not modelled. Safe. -/
  | notModelled (mnemonic : String)
  deriving DecidableEq, Repr

/-! ## The outside: what the device emits -/

/-- What the device puts out: the answers of reads, messages, frames and pins, newest first in
`Dev.out` (log 5). -/
inductive Output where
  /-- The value a register read returns. -/
  | reg (v : Reg)
  /-- The bytes a BAR2, debug-port, I3C or JTAG read returns. -/
  | data (bs : Bytes)
  /-- A configuration request answered with Request Retry Status, and one answered. -/
  | retry
  | config (v : Nat)
  /-- A posted write to host memory: its pieces (address, bytes) and its Relaxed Ordering and No Snoop attributes
  (R48, R626). -/
  | hostWrite (parts : List (Nat × Nat)) (relaxed noSnoop : Bool)
  /-- An MSI-X message of a function's vector (R629, R624). -/
  | msix (fn vec addr dat : Nat)
  /-- A frame sent on a cell port or a far port. -/
  | cellFrame (port : Nat) (bs : Bytes)
  | farFrame (port : Nat) (bs : Bytes)
  /-- A status with which the debug access port answers (R617). -/
  | status (st : Nat)
  /-- An I3C in-band interrupt and its mandatory byte (R645). -/
  | ibi (b : Nat)
  deriving DecidableEq, Repr

/-! ## Command plane -/

/-- The outcome of a command: status (R16), RESULT and inline bytes 32–63 when it returns any. -/
structure Result where
  status : Nat
  result : Nat
  inl : Bytes
  /-- No rule states its RESULT: the record carries a free value (log 72). -/
  unstated : Bool
  deriving DecidableEq, Repr

/-- What a dispatched command waits for before it completes. -/
inductive Gate where
  /-- Nothing: it completes at the next COMMAND_COMPLETION. -/
  | ready
  /-- A unit's own event gives its result. -/
  | unit
  /-- R60: the walk of ring r, and its dispatched packets. -/
  | ringDestroy (r : Nat)
  /-- R651: the walks and dispatched commands of job j. -/
  | jobDestroy (j : Nat)
  /-- R334: every pin and command on the pages, then the frames they free. -/
  | invalidate (page count : Nat)
  /-- R78: a verified image that is being started. -/
  | start
  /-- R82, step 2: the commands the old curator executes itself. -/
  | rehang
  deriving DecidableEq, Repr

/-- A dispatched command: its origin, opcode, operands and the job it runs for; the ranges of
device addresses it covers (R334), what it waits for, and its result once known. -/
structure InFlight where
  org : Origin
  opcode : Nat
  ops : Bytes
  job : Nat
  ranges : List (Nat × Nat)
  gate : Gate
  res : Option Result
  /-- When it was dispatched. -/
  disp : Nat
  deriving DecidableEq, Repr

/-- An event record before it reaches a ring (R46, R76). -/
structure EvRec where
  seq : Nat
  status : Nat
  result : Nat
  time : Nat
  inl : Bytes
  deriving DecidableEq, Repr

/-- A ring's wait slot: the head packet's wait (R63, R67). -/
structure WaitSlot where
  tally : Nat
  threshold : Nat
  sat : Bool
  deriving DecidableEq, Repr

/-- A job: its protection domain and first step number (R74), and its rounding seed once a PSE_CONFIG
or a restore has fixed it (R117, R360). -/
structure Job where
  domain : Nat
  firstStep : Nat
  seed : Option Nat
  deriving DecidableEq, Repr

/-- The mailbox command in hand: opcode, packet bytes 16–63, and whether it is held (R72, R87). -/
structure MboxCmd where
  opcode : Nat
  args : Bytes
  held : Bool
  deriving DecidableEq, Repr

/-- The fields of a Coson image header (R77) and signature block (R533) that the device acts on: `svn` is
FW_SVN and `fuseSvn` FUSE_SVN. -/
structure ImageInfo where
  version : Nat
  timerTable : Nat
  handoff : Nat
  keyIndex : Nat
  svn : Nat
  fuseSvn : Nat
  digest : Bytes
  deriving DecidableEq, Repr

/-- A timer expiry held during a rehang (R84): timer, the time it fell due, its owner job and its action
(event, tally). -/
structure HeldExpiry where
  timer : Nat
  time : Nat
  owner : Nat
  event : Bool
  tally : Option Nat
  deriving DecidableEq, Repr

/-- The command processor and the queue and synchronisation unit, beside their registers. -/
structure CmdUnit where
  /-- Dispatched commands, oldest first. -/
  inflight : List InFlight
  /-- The holding queue of R76, oldest first; at most 1,024 records. -/
  evHold : List EvRec
  /-- Records dropped since the last 0x010C record (R76). -/
  evDropped : Nat
  /-- The event sequence number of the next event record (R46). -/
  evSeq : Nat
  /-- The event ring of each status class, plus 1; 0 when unbound (R655). -/
  evBind : SMap Nat
  /-- The wait slots of the submission rings (R67). -/
  waits : SMap (Option WaitSlot)
  /-- The mailbox command in hand. -/
  mbox : Option MboxCmd
  /-- The jobs that exist. -/
  jobs : SMap (Option Job)
  /-- When each control core's watchdog was last restarted (R79). -/
  petAt : SMap Nat
  /-- The image that runs (R77), when one does. -/
  image : Option ImageInfo
  /-- The staged image of a rehang in progress (R82). -/
  staged : Option ImageInfo
  /-- The hold queue of timer expiries during a rehang (R84), oldest first; at most 256. -/
  timerHold : List HeldExpiry
  /-- Expiries that found the hold queue full in this rehang (R84). -/
  holdMissed : Nat
  /-- Rings whose walk (R60) stopped at an entry that could not be read (R649). -/
  walkHalt : List Nat
  /-- Since when a completion ring has held no free entry, and whether its record 0x0109 is posted (R61). -/
  fullSince : SMap (Option (Nat × Bool))
  /-- The format version of the handoff block that the old curator has written and the new one has not read (R82). -/
  handoff : Option Nat
  deriving DecidableEq, Repr

/-! ## Memory -/

/-- The state of a codeword of HBM (R341 to R343): erroneous data and check symbols, or poisoned. -/
inductive CwState where
  | clean
  | errs (data check : Nat)
  | poisoned
  deriving DecidableEq, Repr

/-- The state of an 8-byte word of a scratchpad with its check bits (R228). -/
inductive WordState where
  | clean | corr | uncorr
  deriving DecidableEq, Repr

/-- A physical frame (R319, R336, R345): in use or free, the domain that last held it (0 none
since reset), weak or not, correctable errors in this scrub period, the page it is mapped at, and whether an UNMAP
or a STEP_END has come since it turned weak. -/
structure Frame where
  used : Bool
  lastDom : Nat
  weak : Bool
  errs : Nat
  page : Nat
  due : Bool
  deriving DecidableEq, Repr

/-- A cached translation (R331 to R333): the page, its 16-byte entry, the fill time and the number
of started tile descriptors that pin it. -/
structure CacheEnt where
  page : Nat
  ent : Nat
  filled : Nat
  pins : Nat
  deriving DecidableEq, Repr

/-- The patrol scrub of one stack (R344): the next codeword, the start of the period, and whether every codeword
of it has been read. -/
structure Scrub where
  pos : Nat
  since : Nat
  fin : Bool
  deriving DecidableEq, Repr

/-- What the memory controllers still have to report of a codeword: a frame that turned weak (R345), or a codeword
found uncorrectable (R343). -/
inductive CwNote where
  | weak (pfn : Nat)
  | found (i : Nat)
  /-- A stack with more than 1,024 such codewords within one second (R346). -/
  | lost (k : Nat)
  deriving DecidableEq, Repr

/-- The memory controllers, the catalogue's bookkeeping and the translation caches. -/
structure HbmUnit where
  /-- The bytes of device memory by flat physical address (R320). -/
  mem : SMap Byte
  /-- Codeword states by flat codeword index (flat address / 64). -/
  cw : SMap CwState
  /-- Frames by PFN. -/
  frames : SMap Frame
  /-- Frames that return to the free pool when an invalidation covers their page (R335). -/
  limbo : List (Nat × Nat)
  /-- The catalogue leaves in use: leaf number to directory index plus 1; 0 free (R323). -/
  leaves : SMap Nat
  /-- The translation caches (R331): tiles 0–199 by physical index, 200 HIF, 201 QSU, 202–205 CFI
  by I/O die, 206 WXU, 207 and up PSE slices. -/
  caches : SMap (List CacheEnt)
  /-- The stack the 0xFF rotation of MAP gave a frame from last, plus 1 (R338). -/
  mapLast : Nat
  scrub : SMap Scrub
  /-- The codewords of each stack found uncorrectable in the last second, with the times (R346). -/
  lately : SMap (List (Nat × Nat))
  /-- What a walk or a ring's record met in a codeword and no event record tells of yet. -/
  notes : List CwNote
  /-- Pages set DAMAGED whose invalidation waits for its pins and commands (R335). -/
  pendInv : List Nat
  /-- Codewords moved since HMC.TRAFFIC last counted, per stack. -/
  traffic : SMap Nat
  deriving DecidableEq, Repr

/-! ## Host interface, power and package -/

/-- One image slot's boot record entry and contents live in flash; TRIES is 0 to 3 (R632). -/
structure BootRecord where
  /-- false: slot A is PREFERRED; true: slot B. -/
  preferB : Bool
  triesA : Nat
  triesB : Nat
  deriving DecidableEq, Repr

/-- The JTAG test access port (R646). -/
structure Jtag where
  /-- The instruction register: the instruction in force, by its code. -/
  ir : Nat
  /-- The boundary-scan register's preloaded output values, one bit per signal. -/
  preload : Nat
  /-- Are the outputs driven from the preload, floating, or held? 0 functional, 1 EXTEST, 2 HIGHZ,
  3 CLAMP. -/
  pins : Nat
  deriving DecidableEq, Repr

/-- The I3C target (R643 to R645). -/
structure I3c where
  dynAddr : Option Nat
  ibiEn : Bool
  mwl : Nat
  mrl : Nat
  rstact : Nat
  deriving DecidableEq, Repr

/-- The host interface, boot, supplies, clamps and management ports, beside their registers. -/
structure HifUnit where
  /-- MSI-X Enable and Function Mask of functions 0 and 1 (R629, R624). -/
  msixEn0 : Bool
  msixMask0 : Bool
  msixEn1 : Bool
  msixMask1 : Bool
  /-- Function 1's own MSI-X table and pending bits, by its BAR0 offset; a table control word
  unlisted reads 1 (masked), all else 0. -/
  fn1 : SMap Reg
  memEn : Bool
  bar2Log2 : Nat
  d3hot : Bool
  /-- PERST# is asserted; PWRGD is high; when PERST# was last deasserted (R631). -/
  perst : Bool
  pwrgd : Bool
  perstAt : Nat
  /-- On-package flash: slot A at 0, slot B at 32 MiB (R632). -/
  flash : SMap Byte
  boot : BootRecord
  /-- The slot whose image the boot ROM has started and that has not reached RUNNING (R632). -/
  booting : Option Bool
  /-- The slot a FLASH_COMMIT accepted and no later FLASH_WRITE voided (R644). -/
  committed : Option Bool
  /-- Minimum dividers the power clamp (one for all wings) and the thermal clamp (per wing)
  require, and for how many 100 µs intervals each has been below its lower limit (R639, R640). -/
  powerMin : Nat
  powerCalm : Nat
  thermMin : SMap Nat
  thermCalm : SMap Nat
  /-- THERMTRIP# is asserted (R641). -/
  thermtrip : Bool
  i3c : I3c
  jtag : Jtag
  deriving DecidableEq, Repr

/-! ## Conservator -/

/-- A provenance record (R599, R600). -/
structure FaultRec where
  id : Nat
  unit : Nat
  status : Nat
  source : Nat
  before : Nat
  after : Nat
  verdict : Nat
  time : Nat
  address : Nat
  whr : Nat
  job : Nat
  logical : Nat
  step : Nat
  reps : Nat
  detail : Bytes
  deriving DecidableEq, Repr

/-- A fault in handling (R593): its unit, class and entry time, and whether it is retired. -/
structure Handling where
  unit : Nat
  cls : Nat
  entered : Nat
  retired : Bool
  deriving DecidableEq, Repr

/-- A unit's summary beside CSV.SUSPICION (R601): PERMANENT verdicts, the times and classes of its
faults in the last 24 h, newest first, its last fault and all faults. -/
structure UnitSum where
  perms : Nat
  recent : List (Nat × Nat)
  lastStatus : Nat
  total : Nat
  deriving DecidableEq, Repr

/-- A loan in progress in a wing (R602): the tile, the reserve, the phase of CSV.LOAN_STATE, and when the
wait for a boundary began. -/
structure Loan where
  tile : Nat
  reserve : Nat
  phase : Nat
  since : Nat
  deriving DecidableEq, Repr

/-- A shadow replay (R607, R608): the sampled tile and array, the stage (0 waiting for the stream, 1 the
sampled stream runs, 2 first replay running, 3 waiting for a second reserve, 4 second replay running, 5
captured and waiting for a first reserve), the reserves, when the stage began, the sampled stream's place in
program order, and what the capture buffer holds (log 84). -/
structure Replay where
  tile : Nat
  array : Nat
  stage : Nat
  first : Nat
  second : Nat
  since : Nat
  seq : Nat
  sample : Bytes
  deriving DecidableEq, Repr

/-- Telemetry to a buffer (R612). -/
structure Telem where
  addr : Nat
  device : Bool
  log2 : Nat
  decim : Nat
  en : Bool
  count : Nat
  domain : Nat
  deriving DecidableEq, Repr

/-- The conservator, beside its registers. -/
structure CsvUnit where
  /-- The fault ring entries by index (R592). -/
  fring : SMap (Option FaultRec)
  handling : List Handling
  /-- The history log, oldest first; at most 4,096 (R601). -/
  history : List FaultRec
  sums : SMap UnitSum
  /-- The next RecordID, kept in flash (R599). -/
  recSeq : Nat
  /-- Unit summaries changed since the last flash write, a PERMANENT one among them, and when the
  last write was (R611). -/
  dirty : Bool
  dirtyPerm : Bool
  flashAt : Nat
  /-- The unit summaries in flash: suspicion level and summary by unit (R601, R611). -/
  flashSums : SMap (Nat × UnitSum)
  /-- The last 8 fatal summaries in flash, newest first (R613). -/
  fatals : List Bytes
  dumpSeq : Nat
  /-- A fatal cause raised and not yet served (0 none), and its record (R594, R613). -/
  fatal : Nat
  fatalRec : Option FaultRec
  /-- Loans by wing; times from which a tile's next periodic test counts; tests running with their
  start times (`testing`); physical tiles out of the reserve pool for good (`retiredTiles`). -/
  loans : SMap (Option Loan)
  dueFrom : SMap Nat
  /-- Tiles whose test falls due at once: PENDING since their last test, skip or cancel (R597, R602). -/
  dueNow : List Nat
  testing : SMap (Option Nat)
  retiredTiles : List Nat
  /-- Units that an ACQUIT returned to CLEAR from PERMANENT and that are still out of service (R615). -/
  acquitted : List Nat
  /-- Units whose review test is running (R597). -/
  reviews : List Nat
  /-- Logical tile to physical tile (R15, R602). -/
  logMap : SMap Nat
  /-- Control cores that a fault inside their fault path stalled (R595). -/
  stalled : List Nat
  replay : Option Replay
  /-- The tile that the next selection takes (R607). -/
  replayNext : Nat
  /-- When a replay was last selected (R607). -/
  replayAt : Nat
  /-- The next line of each tile's scrub: 65,536 scratchpad lines of 128 bytes, then the program store's
  2,048 (R610). -/
  spmPos : SMap Nat
  telem : Telem
  lastSample : Bytes
  /-- Counters at the previous sample (R612 bytes 92–103), less what reads have cleared since. -/
  telemBase : Int × Int × Int
  /-- The current unlock challenge (R618). -/
  challenge : Option Bytes
  /-- When each pending core halt was requested (R620), by core. -/
  haltReq : SMap (Option Nat)
  /-- Hardware locks held by each core that was halted by force (R620). -/
  locks : SMap Nat
  deriving DecidableEq, Repr

/-! ## Tiles -/

/-- A tile instruction as issued (R256): its place in program order, PC, context, opcode and
encoding, the tally it names, the operand values captured, the chain cursors reserved for it
(R201: e0, r0, c0, d0), and the g registers its chain's stages captured (R207). -/
structure TIns where
  seq : Nat
  pc : Nat
  deferred : Bool
  op : Nat
  word : Nat
  tally : Nat
  sig : Bool
  x : Nat
  y : Nat
  z : Nat
  w : Nat
  e0 : Nat
  r0 : Nat
  c0 : Nat
  d0 : Nat
  gregs : List Nat
  deriving DecidableEq, Repr

/-- An entry of an issue queue (R257, R262): an instruction, or the barrier of a wait. -/
inductive QEnt where
  | ins (i : TIns)
  | barrier (wait : Nat)
  deriving DecidableEq, Repr

/-- A wait in its slot (R262, R263): its place in program order, whether it waits on a tally or a
region, the tally or region, the amount, SPACE rather than DATA, its gate mask and YIELD, and
whether it is satisfied. -/
structure TWait where
  seq : Nat
  deferred : Bool
  isTally : Bool
  key : Nat
  amount : Nat
  space : Bool
  gates : Nat
  yields : Bool
  sat : Bool
  deriving DecidableEq, Repr

/-- A deferral entry (R278). -/
structure DeferEnt where
  pc : Nat
  gs : List Nat
  mb : Nat
  deriving DecidableEq, Repr

/-- A weight block in an array's registers (R123, R126): its format and mode, the element codes in
load-layout order and the scale byte of each column. -/
structure WBlock where
  fmt : Nat
  quad : Bool
  codes : List Nat
  scales : List Nat
  deriving DecidableEq, Repr

/-- An accumulator slot that is not EMPTY (R141): INT32 or FP32, and its 32 values. -/
structure Slot where
  isInt : Bool
  vals : List Nat
  deriving DecidableEq, Repr

/-- Where the last stream on an array read, for R136: image address or region offset, region number
plus 1, mode and next row; the image's header; the last segment entered and its start; and the blocks
read from block `lo` on, which a continuing stream shares. -/
structure ImagePos where
  base : Nat
  region : Nat
  quad : Bool
  next : Nat
  elems : Nat
  closed : Bool
  bytes : Nat
  dirOff : Nat
  seg : Nat
  start : Nat
  lo : Nat
  codes : List Nat
  scales : List Nat
  deriving DecidableEq, Repr

/-- What a stream's abort puts back in its array: the slots it has drained, with what they held, where the port
stood before it, and its weights (R143, R228). -/
structure Undo where
  drained : List (Nat × Slot)
  before : Option ImagePos
  weights : WBlock
  deriving DecidableEq, Repr

/-- An entry of the finished-panel queue (R149): a panel row or a marker of a stream, which is named
by its instruction. -/
inductive Panel where
  | row (ins : TIns) (logical m ix : Nat) (isInt : Bool) (vals : List Nat) (flags : Nat)
  | commit (ins : TIns) (logical : Nat) (undo : Undo)
  | abort (ins : TIns) (logical : Nat)
  deriving DecidableEq, Repr

/-- The stream in progress on an array: its instruction, the panel rows that have not entered the
queue, its working-copy writes, the slots it drains, its row count, where the port stood before it, and its
weights. -/
structure ArrStream where
  ins : TIns
  rows : List Panel
  writes : List (Nat × Slot)
  drains : List Nat
  finish : Bool
  count : Nat
  before : Option ImagePos
  weights : WBlock
  deriving DecidableEq, Repr

/-- A codec fault an expander holds before the tile halts (R182): the instruction, status, stream
base, block, declared and computed lengths, mode. -/
structure CodecFault where
  ins : TIns
  status : Nat
  base : Nat
  block : Nat
  declared : Nat
  computed : Nat
  mode : Nat
  deriving DecidableEq, Repr

/-- A matrix array (R123, R141), by physical number: its three weight registers, its accumulator slots, and
the streams in progress, oldest first (R153). -/
structure Arr where
  active : Option WBlock
  shadow : Option WBlock
  /-- A load in progress: its instruction and the block (R127). -/
  incoming : Option (TIns × WBlock)
  slots : SMap (Option Slot)
  cur : List ArrStream
  last : Option ImagePos
  fault : Option CodecFault
  /-- Markers that found the queue full. -/
  owed : List Panel
  /-- Aborted streams that start again, by place in program order: what they ran with, and whether they had
  committed in the array. -/
  redo : List (Nat × Undo × Bool)
  deriving DecidableEq, Repr

/-- One buffered write of a panel row (R214): its first element index, row and column, its 32 output
codes, its group scale, which lanes it writes, and its reduction word if any (address, value). -/
structure CbRow where
  e : Nat
  codes : List Nat
  scale : Nat
  keep : List Bool
  red : Option (Nat × Nat)
  deriving DecidableEq, Repr

/-- A stream's lines in the commit buffer (R214, R215): its instruction, charge in lines, buffered
rows in order, the rows it has taken, its column partials, and once committed the words its reduction
writes. -/
structure CbStream where
  ins : TIns
  charge : Nat
  rows : List CbRow
  taken : Nat
  cols : List (Option Nat)
  words : List (Nat × Nat)
  deriving DecidableEq, Repr

/-- A chain's tessera encoder (R203): elements and group scales not yet in a published segment, how
many elements it has taken, the bytes published after the header, the segment starts in order, the
groups (output index, codes, scale) that wait for those before them, and whether a stream is open and
written but not flushed. -/
structure Enc where
  codes : List Nat
  scales : List Nat
  count : Nat
  pos : Nat
  segs : List Nat
  ahead : List (Nat × List Nat × Nat)
  isOpen : Bool
  deriving DecidableEq, Repr

/-- A vector-only run in progress (R196, R202): its instruction, the next element, column partials,
and the cycles it has waited without a lane group. -/
structure VRunSt where
  ins : TIns
  next : Nat
  cols : List (Option Nat)
  starve : Nat
  deriving DecidableEq, Repr

/-- A TDMA descriptor on a channel (R239, R272): the instruction that issued it (none: the curator
firmware), its scratchpad address and its 64 bytes after overrides; the read origin of its source region;
once started, the pages pinned and the pieces of its HBM range; how many bytes a region destination has
taken (R233); and whether it was aborted and is to be read again (R285). -/
structure ChanEnt where
  ins : Option TIns
  addr : Nat
  bytes : Bytes
  origin : Nat
  pages : List Nat
  segs : List (Nat × Nat)
  done : Nat
  again : Bool
  deriving DecidableEq, Repr

/-- A TDMA channel: queued descriptors, oldest first, the one in progress, and an aborted one that runs
again before the queue (R285). -/
structure Chan where
  queue : List ChanEnt
  cur : Option ChanEnt
  redo : Option ChanEnt
  deriving DecidableEq, Repr

/-- An extent that TDMA filled from HBM (R184): the channel and scratchpad address of the descriptor, its
bytes, the pieces of scratchpad it wrote, and the logical offset when they lie in a region. -/
structure Fill where
  chan : Nat
  addr : Nat
  bytes : Bytes
  segs : List (Nat × Nat)
  offset : Nat
  deriving DecidableEq, Repr

/-- A requester starved at a bank (R226): the TCLK cycle in which it became starved, and the one in which the bank
grants it. -/
structure StarveEnt where
  bank : Nat
  requester : Nat
  since : Nat
  grant : Nat
  deriving DecidableEq, Repr

/-- A tile, by physical number. Its registers that software reads lie in BAR0 (`Dev.regs`). -/
structure Tile where
  /-- The program store: 128-bit words by PC; the first PC of the deferred part; ENTRY; the image's
  DCHAIN_MASK and REGION_MASK (R255, R286). -/
  prog : SMap Nat
  dstart : Nat
  entry : Nat
  dmask : Nat
  rmask : Nat
  /-- The chain table: 32 descriptors of 256 bytes (R198). -/
  chains : SMap Byte
  /-- g0–g63, then the deferred bank's g48–g63 at 64–79 (R264, R265). -/
  g : SMap Nat
  /-- a0–a15, then the deferred bank's a12–a15 at 16–19. -/
  a : SMap Nat
  /-- Bits 7:0 main p0–p7; bits 15:12 deferred p4–p7. -/
  p : Nat
  nextSeq : Nat
  mq : List QEnt
  aq : SMap (List TIns)
  vq : List QEnt
  dq : List QEnt
  sq : List QEnt
  waits : List TWait
  deferQ : List DeferEnt
  /-- MBBEGIN holds issue (R276); a full DEFER holds it (R278). -/
  mbHold : Bool
  deferHold : Bool
  /-- Instructions issued and not complete: place in program order, context, chain plus 1 for an
  array-fed stream or run. -/
  live : List (Nat × Bool × Nat)
  /-- Instructions complete whose tally add is due (R260). -/
  done : List TIns
  /-- MBENDs issued and not complete (R277). -/
  mbends : List Nat
  spm : SMap Byte
  /-- 8-byte words with errors in their check bits' sense (R228). -/
  spmErr : SMap WordState
  arrays : SMap Arr
  fpq : List Panel
  /-- Markers taken and not yet in effect (R194, R197). -/
  marks : List Panel
  /-- Commit buffer: streams not committed, and committed ones not yet released, in commit order. -/
  cb : List CbStream
  cbDone : List CbStream
  enc : SMap Enc
  /-- Bytes encoded that `TCX.BYTES_ENCODED` does not show yet (R191). -/
  encRem : Nat
  vrun : Option VRunSt
  ered : SMap Nat
  chans : SMap Chan
  /-- Starved requesters not yet granted, or granted less than 16 cycles ago (R226). -/
  starved : List StarveEnt
  /-- Register writes held while an operation is in flight (R230, R155). -/
  heldRegion : List (Nat × Reg)
  heldMap : Option Reg
  /-- Codec faults retried once: stream bases whose transfer was re-run (R184). -/
  retried : List Nat
  /-- Scratchpad extents that a LOAD filled from HBM (R184), newest first. -/
  fills : List Fill
  /-- The heads of the regions when credit return was held, while the stage moves (R314). -/
  creditHeld : Option (List Nat)
  /-- Write origins to be set once the tile's DMA of the micro-batch before is written (R232, R297): tile,
  region, and the place in program order where the next micro-batch begins. -/
  latches : List (Nat × Nat × Nat)
  /-- Halted before PIPELINE_START started it (R283). -/
  wasReady : Bool
  /-- A RESUME held while a codec or TDMA fault is recorded (R285). -/
  resumeHeld : Bool
  /-- The image PROG_LOAD read: device address, length and domain (R154). -/
  img : Nat × Nat × Nat
  deriving DecidableEq, Repr

/-! ## Pipelines -/

/-- A link entry of a stage map (R294). -/
structure LinkEnt where
  src : Nat
  dst : Nat
  back : Bool
  region : Nat
  rowBytes : Nat
  fixedBytes : Nat
  stageAddr : Nat
  slots : Nat
  readyOff : Nat
  sentOff : Nat
  slotBytes : Nat
  regionSize : Nat
  deriving DecidableEq, Repr

/-- A stage map (R294). -/
structure PipeMap where
  schedule : Nat
  window : Nat
  maxRows : Nat
  tallyBase : Nat
  tallyCount : Nat
  job : Nat
  step : Nat
  stages : List (Nat × Nat)
  links : List LinkEnt
  deriving DecidableEq, Repr

/-- A pipeline: its map, the admission queue (the descriptors of R298 admitted and not retired), the rows M
of the step's admitted micro-batches by index, and per stage the passes delivered and ended. -/
structure Pipe where
  map : Option PipeMap
  queue : List (List Nat)
  rows : SMap Nat
  delivered : SMap Nat
  ended : SMap Nat
  deriving DecidableEq, Repr

/-! ## Parameter state engine -/

/-- A job's PSE configuration (R359, R360), its norm guard (R366, R368) and its progress. -/
structure PseJob where
  seed : Nat
  table : Nat
  entries : Nat
  sharded : Bool
  adamw : Bool
  exact : Bool
  hostOuter : Bool
  nesterov : Bool
  beta1 : Nat
  beta2 : Nat
  eps : Nat
  lambda : Nat
  alpha : Nat
  avgEvery : Nat
  eta : Nat
  betaO : Nat
  fastW : Nat
  slowW : List Nat
  /-- 1 − β1, 1 − β2 and 1 − α as R360 copies them. -/
  one1 : Nat
  one2 : Nat
  oneA : Nat
  deriving DecidableEq, Repr

/-- The norm guard of a job: its parameters and the accepted norms, oldest first. -/
structure Guard where
  ratio : Nat
  window : Nat
  minHist : Nat
  clip : Nat
  norms : List Nat
  deriving DecidableEq, Repr

/-- A STEP_UPDATE in progress: its operands, the parameter table as it read it, its norm group, its outcome
so far (RESULT), and whether it waits at the apply boundary (R35). -/
structure StepRun where
  ops : Bytes
  table : Bytes
  group : Nat
  result : Nat
  waiting : Bool
  deriving DecidableEq, Repr

/-- What the PSE keeps for a job. -/
structure PseUnit where
  cfg : Option PseJob
  guard : Guard
  /-- What a NORM_GUARD_CFG changes at the next STEP_UPDATE (R368): RATIO, WINDOW, MIN_HISTORY, CLIP, CLEAR. -/
  pending : Option (Nat × Nat × Nat × Nat × Bool)
  /-- The last step completed, and its norm. -/
  last : Option Nat
  lastNorm : Nat
  /-- The last accession sealed, that of the last SEAL command, the accessions of completed OUTER_APPLYs (R382),
  and the last applied. -/
  sealedAcc : Option Nat
  hostSeal : Option Nat
  appliedAccs : List Nat
  applied : Nat
  /-- R381: the job is held at an apply boundary until OUTER_APPLY. -/
  held : Bool
  run : Option StepRun
  /-- What the command whose completion is still to come did last, as PSE.STATE numbers it (R389). -/
  phase : Nat
  /-- Commands that wait for the one in progress (R386), oldest first. -/
  queue : List (Origin × Nat × Bytes)
  deriving DecidableEq, Repr

/-! ## Cell fabric -/

/-- What the payload of a transfer is read from as its frames are formed: device memory in a domain, or
bytes the CFI holds. -/
inductive TxSrc where
  | mem (addr dom : Nat)
  | bytes (bs : Bytes)
  deriving DecidableEq, Repr

/-- A transfer to a peer, of which `off` bytes have been put into frames. -/
structure TxItem where
  tag : Nat
  seq : Nat
  grant : Nat
  len : Nat
  off : Nat
  src : TxSrc
  deriving DecidableEq, Repr

/-- A DATA frame sent and not acknowledged (R399). -/
structure TxFrame where
  psn : Nat
  tag : Nat
  seq : Nat
  grant : Nat
  off : Nat
  last : Bool
  data : Bytes
  sentAt : Nat
  /-- Consecutive expiries, and whether the SACK rule has resent it. -/
  tries : Nat
  fast : Bool
  /-- The port and the path entropy it was last sent with (R398). -/
  port : Nat
  ent : Nat
  deriving DecidableEq, Repr

/-- The sending side towards one receiver and class: next PSN, unacknowledged frames, oldest first, transfers
waiting, and the smoothed round-trip time in ns, 0 before the first sample. -/
structure TxPeer where
  next : Nat
  unacked : List TxFrame
  backlog : List TxItem
  srtt : Nat
  deriving DecidableEq, Repr

/-- A path entropy of a port (R398): its value, whether each of its last 10,000 frames was lost, newest first, and
its last round-trip time in ns, 0 before the first. -/
structure PathEnt where
  value : Nat
  lost : List Bool
  rtt : Nat
  deriving DecidableEq, Repr

/-- The paths of a port: the place in the cycle, the entropies in use, and those retired with the time until which. -/
structure PortPaths where
  next : Nat
  ents : List PathEnt
  retired : List (Nat × Nat)
  deriving DecidableEq, Repr

/-- The receiving side from one sender and class: the lowest PSN not received, those received above it,
DATA frames since the last ACK and when the first came, and CE marks since. -/
structure RxPeer where
  next : Nat
  above : List Nat
  count : Nat
  since : Nat
  marks : Nat
  deriving DecidableEq, Repr

/-- An entry of a PERMUTE list (R413). -/
structure PermEnt where
  peer : Nat
  len : Nat
  addr : Nat
  deriving DecidableEq, Repr

/-- What a collective was issued for: a command, or the curator firmware's own collectives (R410, R444,
R458, R470) for a job and accession. -/
inductive CollOwner where
  | command (o : Origin) (ops : Bytes)
  | normReduce (job : Nat)
  | normGather (job : Nat)
  | package (job acc : Nat)
  | decision (job acc : Nat)
  | loan (job shard : Nat)
  deriving DecidableEq, Repr

/-- An inbound transfer of the running collective: the sender's member index, grant, segment, length when
known, the byte ranges received, where the bytes go (a device address) or the bytes held. -/
structure CollRx where
  peer : Nat
  grant : Nat
  seg : Nat
  len : Option Nat
  got : List (Nat × Nat)
  place : Option Nat
  data : SMap Byte
  deriving DecidableEq, Repr

/-- A grant received and not yet served (R411): the granting member, number, segment, length. -/
structure GrantIn where
  peer : Nat
  num : Nat
  seg : Nat
  len : Nat
  deriving DecidableEq, Repr

/-- A collective of a group (R406 to R415). The first of a group's queue runs. -/
structure Coll where
  owner : CollOwner
  opcode : Nat
  /-- Mode of a reduce-scatter (R407), or VARIABLE of an all-gather. -/
  mode : Nat
  sfmt : Nat
  dfmt : Nat
  src : Nat
  dst : Nat
  /-- Shard elements E, or SLOT_BYTES. -/
  count : Nat
  /-- Own length and the length vector's address under VARIABLE. -/
  own : Nat
  lenVec : Nat
  /-- PERMUTE: list addresses and sizes, and the lists once read. -/
  sendList : Nat
  sendCount : Nat
  recvList : Nat
  recvCount : Nat
  sends : List PermEnt
  recvs : List PermEnt
  /-- The limbs of a norm record, and the sums once known (R364, R365). -/
  limbs : List Int
  dom : Nat
  since : Nat
  /-- Has it started: checked its ranges and sent READY? Its sequence number. -/
  started : Bool
  seq : Nat
  ready : List Nat
  rx : List CollRx
  /-- Grants still to issue: member, segment, length; the next grant number. -/
  toGrant : List (Nat × Nat × Nat)
  nextGrant : Nat
  grants : List GrantIn
  /-- (member, segment) pairs whose bytes this member has handed to the transport. -/
  served : List (Nat × Nat)
  /-- Segments of the own shard folded; saturated elements. -/
  segDone : Nat
  sat : Nat
  /-- EXACT: the agreed codes of each owner's shard known here. -/
  codes : List (Nat × List Nat)
  /-- Staged receives of a PERMUTE to copy into place. -/
  staged : Bool
  /-- A failure found while it ran: status and address. -/
  err : Option (Nat × Nat)
  deriving DecidableEq, Repr

/-- A READY or GRANT that came before this member's own collective of that sequence number: type, SEQ,
sender's rank, grant number, payload. -/
structure EarlyCtl where
  type : Nat
  seq : Nat
  rank : Nat
  grant : Nat
  data : Bytes
  deriving DecidableEq, Repr

/-- A group (R402, R403), beside its registers. -/
structure Group where
  cell : Bool
  members : List Nat
  domain : Nat
  staging : Nat
  stagingLen : Nat
  hash : Nat
  queue : List Coll
  early : List EarlyCtl
  /-- Bytes sent beyond what CFI.GROUP_BYTES counts. -/
  sentRem : Nat
  deriving DecidableEq, Repr

/-- The sending side of a cross-device link (R296, R422): the next micro-batch, its logical offset in the
consumer's region, the credited offset, and whether the slot's last read is still to be counted in SENT. -/
structure LinkTx where
  k : Nat
  base : Nat
  credit : Nat
  reading : Bool
  deriving DecidableEq, Repr

/-- The receiving side of a cross-device link: the micro-batch arriving or next to arrive, the ranges received and
its length once its last frame has come. -/
structure LinkRx where
  k : Nat
  got : List (Nat × Nat)
  len : Option Nat
  deriving DecidableEq, Repr

/-- A frame that waits for the end of a PFC pause (R394): one of the transport's response channel, sent on the next port
that may; or a frame of a port (with the sequence number when it is a Delay_Req, which is stamped as it leaves). -/
inductive HeldFrame where
  | ctl (type flags cls rank tag seq grant : Nat) (data : List (BitVec 8))
  | port (port prio : Nat) (frame : List (BitVec 8)) (req : Option Nat)
  deriving DecidableEq, Repr

/-- The cell fabric interface, beside its registers. -/
structure CfiUnit where
  groups : SMap (Option Group)
  /-- IPv6 device prefixes by cell rank (R402). -/
  prefixes : List Nat
  /-- By 2 × rank + class (R395). -/
  tx : SMap TxPeer
  rx : SMap RxPeer
  /-- Sending rate towards each rank in MB/s, and when it last changed (R400). -/
  rates : SMap Nat
  rateAt : SMap Nat
  /-- Path entropies by port (R398). -/
  paths : SMap PortPaths
  /-- The port the last frame was sent on. -/
  rot : Nat
  /-- By 8 × port + priority: when a PFC pause ends (R394). -/
  paused : SMap Nat
  /-- Frames that a pause holds, oldest first. -/
  held : List HeldFrame
  /-- Links by pipeline × 65,536 + link. -/
  linkTx : SMap LinkTx
  linkRx : SMap LinkRx
  /-- The factor of R418 while reservations are scaled: reservable and reserved GB/s. -/
  factor : Option (Nat × Nat)
  /-- When each port last answered Echo Requests, newest first (R393). -/
  echoes : SMap (List Nat)
  deriving DecidableEq, Repr

/-! ## Accession rounds -/

/-- A shard of the shard list (R431) with what its table entry fixes. -/
structure Shard where
  id : Nat
  entry : Nat
  record : Nat
  /-- Partner cell and local stream slot, in list order. -/
  partners : List (Nat × Nat)
  tensor : Nat
  first : Nat
  count : Nat
  total : Nat
  deriving DecidableEq, Repr

/-- A partner's stream of one source accession at the device of record: its shard and partner indexes,
the byte ranges received, STREAM_BYTES once a fragment names it, the checks of R448 and R449, the covered
set at the last decision that had a record of it and at the last decision, and its window (R455). -/
structure PStream where
  shard : Nat
  partner : Nat
  acc : Nat
  got : List (Nat × Nat)
  bytes : Option Nat
  accepted : Bool
  rejected : Bool
  posted : Bool
  covered : List Nat
  faulted : List Nat
  prior : List Nat
  seen : List Nat
  isOpen : Bool
  deriving DecidableEq, Repr

/-- A contribution of an accession as R377 hands it to the PSE: shard index, partner cell (none: the own
delta), staleness, the decode buffer, and the presence bitmap. -/
structure Contrib where
  shard : Nat
  cell : Option Nat
  k : Nat
  addr : Nat
  presence : List (BitVec 8)
  deriving DecidableEq, Repr

/-- An accession slot, beside its registers (R438, R439). -/
structure AccSlot where
  acc : Nat
  epoch : Nat
  sealedAt : Nat
  sealStep : Nat
  /-- Encodes done, and the bytes of the own package; own-package all-gather issued and completed; decision all-gather issued. -/
  encoded : Bool
  ownLen : Nat
  pkgSent : Bool
  pkgDone : Bool
  decSent : Bool
  contribs : List Contrib
  deriving DecidableEq, Repr

/-- A loan copy arriving for a shard (R470): ranges received, STREAM_BYTES, NEXT_ACCESSION, whether it is
wholly covered. -/
structure LoanIn where
  shard : Nat
  got : List (Nat × Nat)
  bytes : Option Nat
  next : Nat
  done : Bool
  deriving DecidableEq, Repr

/-- A LOAN_COPY_SEND in progress: where it came from, its slot, NEXT_ACCESSION. -/
structure LoanOut where
  org : Origin
  ops : Bytes
  slot : Nat
  next : Nat
  deriving DecidableEq, Repr

/-- The round configuration (R433) and layout inputs. -/
structure RoundCfg where
  job : Nat
  h : Nat
  lag : Nat
  deadlineMs : Nat
  d2 : Bool
  stoch : Bool
  fragLog2 : Nat
  join : Bool
  group : Nat
  cell : Nat
  area : Nat
  shards : List Shard
  deriving DecidableEq, Repr

/-- The rounds, beside their registers. -/
structure RoundUnit where
  cfg : Option RoundCfg
  /-- An accession that opens at the boundary before a step: accession and first step. -/
  opening : Option (Nat × Nat)
  /-- The step whose boundary seals the open accession, and the time it opened. -/
  sealAfter : Nat
  /-- The last accession sealed in the current epoch; was the epoch committed with RESTART; has an
  accession ever opened; the committed epoch's RESTART flag and members. -/
  lastSealed : Option Nat
  restart : Bool
  everOpened : Bool
  pendRestart : Bool
  pendMembers : Nat
  members : Nat
  /-- The accession slots in use. -/
  slots : SMap (Option AccSlot)
  streams : List PStream
  loansIn : List LoanIn
  loansOut : List LoanOut
  /-- JOIN: the loan copy is installed. -/
  joined : Bool
  /-- Host mode (R381): steps whose boundaries are apply boundaries, ascending. -/
  hostApply : List Nat
  deriving DecidableEq, Repr

/-! ## Far ports, vestibule and partner slots -/

/-- A DELTA or LOAN fragment sent and not acknowledged (R490 to R494). `out`: it counts in the
outstanding bytes; `due`: when a FULL NACK lets it go again; `again`: it waits to be sent again. -/
structure SentFrag where
  dseq : Nat
  loan : Bool
  acc : Nat
  shard : Nat
  frag : Nat
  len : Nat
  bytes : Nat
  last : Bool
  index : Bool
  sentAt : Nat
  tries : Nat
  first : Bool
  out : Bool
  due : Option Nat
  again : Bool
  port : Nat
  deriving DecidableEq, Repr

/-- A stream a slot sends: loan or delta, accession, shard index, STREAM_BYTES, the device address, and
the fragments not yet sent, in order. -/
structure OutStream where
  loan : Bool
  acc : Nat
  shard : Nat
  bytes : Nat
  addr : Nat
  todo : List Nat
  deriving DecidableEq, Repr

/-- A partner stream slot, beside its registers (R483). -/
structure PSlot where
  addr : Nat
  port : Nat
  anchor : Nat
  job : Nat
  addedAt : Nat
  lastUse : Nat
  /-- Handshake (R521 to R528): ephemeral scalar, own HELLO, times sent, last sent at; the peer's HELLO,
  received at, verified so far; the confirm keys; causes posted; last HELLO accepted at; next retry. -/
  eph : Bytes
  hello : Bytes
  helloSends : Nat
  helloAt : Nat
  peerHello : Bytes
  peerAt : Nat
  peerOk : Bool
  shared : Bytes
  mkOwn : Bytes
  mkPeer : Bytes
  chain0 : Bytes
  confirmed : Bool
  confirmIn : Bytes
  confirmAt : Nat
  causes : List Nat
  hsAccepted : Option Nat
  retryAt : Option Nat
  /-- A rekey is due under the conditions of R529; the phase a REKEY command waits for. -/
  rekeyDue : Bool
  rekeyTo : Nat
  /-- Sending: TX_SEQ and DSEQ last used, fragments kept, streams, credit, WANT and pacing. -/
  txSeq : Nat
  dseq : Nat
  kept : List SentFrag
  streams : List OutStream
  peerCreditSeq : Nat
  accLimit : Nat
  wantAt : Option Nat
  rate : Nat
  sentAt : Nat
  gapAt : Nat
  rateAt : Nat
  goneSent : List (Nat × Nat)
  /-- What the slot may send before the next takes its turn (R500), in bytes; when its pace lets it send next (R501). -/
  deficit : Nat
  paceAt : Nat
  /-- Receiving: authenticated TX_SEQ (highest and window) of the current and previous phase, DSEQ
  released, missing ones NACKed and when, ACK state, CE marks, credit sent. -/
  seenHi : Nat
  seen : List Nat
  prevHi : Nat
  prevSeen : List Nat
  relCum : Nat
  relAbove : List Nat
  arrived : List (Nat × Nat)
  gapNacks : List (Nat × Nat)
  ackCount : Nat
  ackSince : Nat
  marks : Nat
  creditSeq : Nat
  limitSent : Nat
  creditAt : Nat
  heardAt : Nat
  silent : Bool
  authed : Bool
  limitHit : Bool
  /-- Round-trip time and variation, in ns; QUARANTINE_SHORT posted. -/
  srtt : Nat
  rttvar : Nat
  srttAt : Nat
  shortPosted : Bool
  /-- The active set (R497, R498): backlog of the last WANT, oldest accession, when it first wanted and
  when it became active; when a leaving slot began to leave. -/
  backlog : Nat
  wantedAt : Option Nat
  activeAt : Nat
  leavingAt : Option Nat
  /-- The REKEY command that waits for both directions (R522). -/
  rekeyCmd : Option (Origin × Bytes)
  deriving DecidableEq, Repr

/-- A frame held in the vestibule or the control store (R485, R486): slot, header, sealed payload and
tag, CE mark, and when it arrived. -/
structure VFrame where
  slot : Nat
  hdr : Bytes
  text : Bytes
  tag : Bytes
  ce : Bool
  rx : Nat
  deriving DecidableEq, Repr

/-- An authenticated fragment being drained to HBM (R488): slot, header, plaintext. -/
structure Drain where
  slot : Nat
  hdr : Bytes
  text : Bytes
  deriving DecidableEq, Repr

/-- The wide-area exchange unit, beside its registers. -/
structure WxuUnit where
  slots : SMap (Option PSlot)
  /-- Every frame in the vestibule whose outcome is open: waiting for the cipher engine or on a pair. -/
  drains : List Drain
  rot : Nat
  /-- Drain accounting (R503): bytes in this millisecond, and which one. -/
  drained : Nat
  drainMs : Nat
  /-- FULL drops since the last 10 ms interval, and since when there has been none (R499). -/
  fullDrop : Bool
  calmSince : Nat
  rotateAt : Nat
  /-- The slot whose turn to send it is (R500); when the far ports together may carry the next fragment (R501). -/
  turn : Nat
  lineAt : Nat
  echoes : SMap (List Nat)
  deriving DecidableEq, Repr

/-! ## Security engines -/

/-- The key schedule of a partner stream (R526, R529): phase, current keys and salts in the sending and
receiving directions, the previous phase's inbound key and salt and when it moved, and CS of the next. -/
structure Session where
  phase : Nat
  roleA : Bool
  txKey : Bytes
  txSalt : Bytes
  rxKey : Bytes
  rxSalt : Bytes
  prev : Option (Bytes × Bytes)
  movedAt : Nat
  chain : Bytes
  authed : Bool
  deriving DecidableEq, Repr

/-- The contents of a key slot (R507). `bad`: its CRC does not match (R509). -/
inductive KeyVal where
  | aes (key : Bytes)
  | priv (d : Bytes) (pt : Bytes)
  | pub (pt : Bytes)
  | session (s : Session)
  | identity
  deriving DecidableEq, Repr

/-- A key slot: its contents and whether they fail their CRC. -/
structure KeySlot where
  val : KeyVal
  bad : Bool
  deriving DecidableEq, Repr

/-- A request of the symmetric engine (R514): SEAL of a frame of a slot (its header and payload, and the
port it goes to), OPEN of a frame in the vestibule, or a control core's own, as its 64 bytes. `rerun`: it has faulted
once (R518). -/
inductive CReq where
  | sealFrame (slot key port : Nat) (hdr text : Bytes) (rerun : Bool)
  | openFrame (f : VFrame) (key : Nat) (rerun : Bool)
  | core (req : Bytes) (rerun : Bool)
  deriving DecidableEq, Repr

/-- What a public-key operation is for. -/
inductive PkUse where
  /-- The ephemeral key of a slot's HELLO. -/
  | ephemeral (slot gen : Nat)
  /-- The endorsement of the peer's HELLO, the shared secret, the schedule, the CONFIRM's signature. -/
  | endorse (slot gen : Nat)
  | shared (slot gen : Nat)
  | schedule (slot gen : Nat)
  | confirm (slot gen : Nat)
  /-- The peer's CONFIRM. -/
  | peerConfirm (slot gen : Nat)
  /-- A key slot command: KEY_GENERATE of a private key, or the import of a point. -/
  | generate (o : Origin) (ops : Bytes) (slot : Nat)
  | import_ (o : Origin) (ops : Bytes) (slot : Nat)
  /-- The endorsement given to HANDSHAKE; the record of ATTEST. -/
  | ownEndorse (o : Origin) (ops : Bytes)
  | attest (o : Origin) (ops : Bytes)
  /-- The token of DEBUG_UNLOCK RESPOND; the level it asks for, 0 when another check of it failed (R618). -/
  | unlock (o : Origin) (ops : Bytes) (level : Nat)
  /-- An operation of a control core; the status its key slot gave, 0 for none. -/
  | core (st : Nat)
  deriving DecidableEq, Repr

/-- The operation of R519 and its inputs: scalar or private key, point, digest, signature, further data. -/
inductive PkKind where
  | scalarmult | keygen | ecdh | sign | verify | validate | hkdf
  deriving DecidableEq, Repr

structure PkOp where
  kind : PkKind
  scalar : Bytes
  point : Bytes
  digest : Bytes
  sig : Bytes
  use : PkUse
  deriving DecidableEq, Repr

/-- The security engines, beside their registers. -/
structure SecUnit where
  keys : SMap (Option KeySlot)
  /-- Queues 0 INBOUND, 1 OUTBOUND, 2 CONTROL (R513). -/
  queues : SMap (List CReq)
  /-- Pipeline pairs: the request each runs; pairs whose result an upset has spoilt (R517), a physical
  event that no command brings. -/
  pairs : SMap (Option CReq)
  upset : List Nat
  pairRot : Nat
  pkQueue : List PkOp
  pkCores : SMap (Option PkOp)
  /-- The own endorsement (R522). -/
  endorsement : Option Bytes
  /-- Blocks sealed and opened beyond what the registers count. -/
  sealRem : Nat
  openRem : Nat
  /-- Debug access was unlocked since the last cold reset (R536). -/
  debugged : Bool
  /-- Status and output of the last request or operation of a control core (R514, R519). -/
  coreDone : Nat × Bytes
  deriving DecidableEq, Repr

/-! ## Storage (R540 to R561) -/

/-- A RoCEv2 message of a queue pair (R423): an RDMA READ or WRITE of `len` bytes at a remote address
for the checkpoint command `owner`, of which `off` have been put into packets. -/
structure RoceMsg where
  owner : Nat
  isRead : Bool
  addr : Nat
  len : Nat
  off : Nat
  src : TxSrc
  deriving DecidableEq, Repr

/-- A packet sent and not acknowledged: PSN, the PSNs it takes, its opcode, RETH (address and length,
for the opcodes that carry one) and payload, and the checkpoint command it serves. -/
structure RocePkt where
  owner : Nat
  psn : Nat
  span : Nat
  opcode : Nat
  reth : Option (Nat × Nat)
  data : Bytes
  deriving DecidableEq, Repr

/-- A queue pair: its target plus 1 (0 free), remote QPN, next PSN, packets and messages outstanding,
the bytes of the read in progress, retries spent, when its last packet went, the end of an RNR wait, its
error state, its rate in MB/s (0: line rate), when a CNP last cut it, and the smoothed round-trip time in ns. -/
structure Qp where
  target : Nat
  remote : Nat
  psn : Nat
  unacked : List RocePkt
  backlog : List RoceMsg
  got : Bytes
  retries : Nat
  sentAt : Nat
  rnrUntil : Option Nat
  err : Bool
  rate : Nat
  rateAt : Nat
  srtt : Nat
  deriving DecidableEq, Repr

/-- A record header of a checkpoint object (R546), with its source index. -/
structure CkRec where
  src : Nat
  copy : Nat
  fmt : Nat
  tensor : Nat
  total : Nat
  first : Nat
  count : Nat
  payOff : Nat
  payBytes : Nat
  tabOff : Nat
  deriving DecidableEq, Repr

/-- A run of coordinates [lo, hi) of a copy of a table entry, taken from a record (R559). -/
structure CkTask where
  entry : Nat
  copy : Nat
  rec_ : CkRec
  lo : Nat
  hi : Nat
  deriving DecidableEq, Repr

/-- A checkpoint command in progress. Writing: stage 0 the zero header, 1 the body, 2 the header; `base`
is the object offset in the target, `len` OBJECT_BYTES, `src` where the object's bytes are once built.
Reading: stage 0 a source's header, 1 its directory, 2 a piece table, 3 a piece, 4 the piece table and 5
the payload of the job state; `sources` are targets and object offsets, `at_` the source in hand, `inb` the
bytes of the read that has come. `err`: a source address that could not be read. -/
structure CkRun where
  id : Nat
  org : Origin
  ops : Bytes
  opcode : Nat
  job : Nat
  stage : Nat
  target : Nat
  base : Nat
  len : Nat
  src : Option TxSrc
  sources : List (Nat × Nat)
  at_ : Nat
  recs : List CkRec
  step : Nat
  tasks : List CkTask
  table : Bytes
  piece : Nat
  inb : Bytes
  moved : Nat
  err : Option (Nat × Nat)
  deriving DecidableEq, Repr

/-- Queue pairs, targets and checkpoint commands, beside the registers. -/
structure StoreUnit where
  qps : SMap Qp
  /-- Server addresses of the targets. -/
  servers : SMap Nat
  runs : List CkRun
  nextRun : Nat
  /-- Bytes written and read beyond what the registers count, by target. -/
  wrRem : SMap Nat
  rdRem : SMap Nat
  deriving DecidableEq, Repr

/-! ## Time and clocks -/

/-- An armed timer (R583, R584). `fired`: an expiry is not yet delivered; `missed` expiries found one so. -/
structure Timer where
  owner : Nat
  absolute : Bool
  deadline : Nat
  period : Option Nat
  event : Bool
  tally : Option Nat
  fired : Bool
  missed : Nat
  deriving DecidableEq, Repr

/-- A capture input (R587): its edge, enable and notify level, its FIFO, oldest first, and the latched
upper half of the last stamp popped. -/
structure Capture where
  edge : Nat
  enable : Bool
  notify : Nat
  fifo : List Nat
  deriving DecidableEq, Repr

/-- A grandmaster candidate (R578): the source port and the data the best-master selection compares. -/
structure Master where
  port : Nat
  clockId : Nat
  rank : List Nat
  deriving DecidableEq, Repr

/-- The time and clock unit, beside its registers and the time base. -/
structure TmuUnit where
  sources : Nat
  domain : Nat
  syncLog : Int
  ppsOut : Bool
  always : Bool
  ppsFalling : Bool
  stepNs : Nat
  lockNs : Nat
  holdoverS : Nat
  ppsOffset : Nat
  ppsWidth : Nat
  /-- The PPS_OUT pin. -/
  ppsHigh : Bool
  timers : SMap (Option Timer)
  captures : SMap Capture
  /-- Consecutive samples within the lock threshold, and beyond 1 µs (R574). -/
  inLock : Nat
  outLock : Nat
  lastSample : Nat
  lastPps : Nat
  /-- When the selected master last announced itself (R574). -/
  announceAt : Nat
  aheadPosted : Bool
  ppsMissing : Bool
  /-- R577: the error bound when the reference was lost, and when that was. -/
  lossBound : Nat
  lossAt : Nat
  master : Option Master
  /-- The Sync awaiting its Follow_Up, the last Sync's times (origin plus correction, receipt), and the
  measured mean path delay. -/
  syncSeq : Option (Nat × Nat × Int)
  syncTimes : Option (Int × Nat)
  delay : Option Int
  /-- The Delay_Req awaiting its Delay_Resp: sequence number and egress stamp; the next sequence number. -/
  reqOut : Option (Nat × Nat)
  reqSeq : Nat
  /-- FREQ_ADJ at the samples of the last 64 s of LOCKED, newest first, with their times (R577). -/
  adjLog : List (Nat × Int)
  /-- PPS edges discarded (R580); when PPS_OUT last rose. -/
  ppsDiscards : Nat
  ppsRise : Nat
  /-- The TCLK divider in force and when it last moved, by wing (R569). -/
  divNow : SMap Nat
  divAt : SMap Nat
  deriving DecidableEq, Repr


/-- The device proper. -/
structure Dev where
  /-- The ordering code, strapped in the package (R1, R3). -/
  code : OrderingCode
  /-- The units' copy of the time base, in ns (R571). -/
  now : Nat
  /-- The BAR0 registers by primary offset; an unlisted one holds its reset value. -/
  regs : SMap Reg
  /-- Host memory as the device reaches it by PCIe (log 6). -/
  host : SMap Byte
  /-- What the device has put out, newest first. -/
  out : List Output
  /-- How many free values have been drawn (the model's own counter; log 2). -/
  draws : Nat
  cmd : CmdUnit
  hbm : HbmUnit
  hif : HifUnit
  csv : CsvUnit
  /-- Tiles by physical number (R15), and pipelines (R292). -/
  tiles : SMap Tile
  pipes : SMap Pipe
  /-- The parameter state engine, by job, and the elements updated beyond what PSE.ELEMENTS counts. -/
  pse : SMap PseUnit
  pseRem : Nat
  cfi : CfiUnit
  rnd : RoundUnit
  wxu : WxuUnit
  sec : SecUnit
  ckpt : StoreUnit
  tmu : TmuUnit
  deriving DecidableEq, Repr

/-- The time base: TAI nanoseconds and their 32-bit fraction (R570). -/
structure Clock where
  ns : Nat
  frac : Nat
  deriving DecidableEq, Repr

/-- The fuses: one-time programmable (R535, R635). -/
structure Fuses where
  /-- The fuse SVN, 0 to 64 (R535). -/
  svn : Nat
  /-- Bit k: root key k revoked (R635). -/
  revoked : Nat
  deriving DecidableEq, Repr

/-- The state of the block. -/
structure State where
  /-- The commands that are waiting, first in, first out. -/
  pending : List Instr
  clock : Clock
  fuses : Fuses
  dev : Dev
  deriving DecidableEq, Repr

/-! ## Reset -/

def CmdUnit.reset : CmdUnit :=
  { inflight := [], evHold := [], evDropped := 0, evSeq := 0, evBind := [], waits := [], mbox := none,
    jobs := [], petAt := [], image := none, staged := none, timerHold := [], holdMissed := 0,
    walkHalt := [], fullSince := [], handoff := none }

def HbmUnit.reset : HbmUnit :=
  { mem := [], cw := [], frames := [], limbo := [], leaves := [], caches := [], mapLast := 0,
    scrub := [], lately := [], notes := [], pendInv := [], traffic := [] }

/-- Flash as shipped is empty (DESIGN CHOICE, log 9): no image in either slot. -/
def HifUnit.reset : HifUnit :=
  { msixEn0 := false, msixMask0 := false, msixEn1 := false, msixMask1 := false, fn1 := [],
    memEn := false, bar2Log2 := 28, d3hot := false, perst := true, pwrgd := true, perstAt := 0,
    flash := [], boot := ⟨false, 0, 0⟩, booting := none, committed := none, powerMin := 8, powerCalm := 0,
    thermMin := [], thermCalm := [], thermtrip := false,
    i3c := ⟨none, false, 260, 260, 0⟩, jtag := ⟨0x01, 0, 0⟩ }

def CsvUnit.reset : CsvUnit :=
  { fring := [], handling := [], history := [], sums := [], recSeq := 0, dirty := false,
    dirtyPerm := false, flashAt := 0, flashSums := [], fatals := [], dumpSeq := 0, fatal := 0, fatalRec := none, loans := [],
    dueFrom := [], dueNow := [], testing := [], retiredTiles := [], acquitted := [], reviews := [], logMap := [], replay := none,
    stalled := [], replayNext := 0, replayAt := 0, spmPos := [], telem := ⟨0, false, 6, 1, false, 0, 0⟩, lastSample := [], telemBase := (0, 0, 0),
    challenge := none, haltReq := [], locks := [] }

def CfiUnit.reset : CfiUnit :=
  { groups := [], prefixes := [], tx := [], rx := [], rates := [], rateAt := [], paths := [], rot := 0, paused := [], held := [], linkTx := [],
    linkRx := [], factor := none, echoes := [] }

def RoundUnit.reset : RoundUnit :=
  { cfg := none, opening := none, sealAfter := 0, lastSealed := none, restart := false, everOpened := false,
    pendRestart := false, pendMembers := 0, members := 0, slots := [], streams := [], loansIn := [],
    loansOut := [], joined := false, hostApply := [] }

def WxuUnit.reset : WxuUnit :=
  { slots := [], drains := [], rot := 0, drained := 0, drainMs := 0, fullDrop := false, calmSince := 0,
    rotateAt := 0, turn := 0, lineAt := 0, echoes := [] }

def SecUnit.reset : SecUnit :=
  { keys := [], queues := [], pairs := [], upset := [], pairRot := 0, pkQueue := [], pkCores := [],
    endorsement := none, sealRem := 0, openRem := 0, debugged := false, coreDone := (0, []) }

def StoreUnit.reset : StoreUnit := { qps := [], servers := [], runs := [], nextRun := 0, wrRem := [], rdRem := [] }

/-- Before the first TIME_CONFIG the fields hold the defaults of R574, R575, R577, R580 and R581; no
source is set. -/
def TmuUnit.reset : TmuUnit :=
  { sources := 0, domain := 0, syncLog := 0, ppsOut := false, always := false, ppsFalling := false,
    stepNs := 1000000, lockNs := 100, holdoverS := 3600, ppsOffset := 0, ppsWidth := 100000, ppsHigh := false,
    timers := [], captures := [], inLock := 0, outLock := 0, lastSample := 0, announceAt := 0, lastPps := 0,
    aheadPosted := false, ppsMissing := false, lossBound := 0, lossAt := 0, master := none, syncSeq := none,
    syncTimes := none, delay := none, reqOut := none, reqSeq := 0, adjLog := [], ppsDiscards := 0, ppsRise := 0,
    divNow := [], divAt := [] }


def Dev.reset : Dev :=
  { code := Config.orderingCode, now := 0, regs := [], host := [], out := [], draws := 0,
    cmd := CmdUnit.reset, hbm := HbmUnit.reset
    , hif := HifUnit.reset, csv := CsvUnit.reset
    , tiles := [], pipes := []
    , pse := [], pseRem := 0, cfi := CfiUnit.reset, rnd := RoundUnit.reset, wxu := WxuUnit.reset, sec := SecUnit.reset
    , ckpt := StoreUnit.reset, tmu := TmuUnit.reset
  }

/-- The machine right after a cold reset (R630), with an empty queue: PWRGD has risen, the PLL has
not locked and the boot ROM has not started. -/
def State.reset : State :=
  { pending := [], clock := ⟨0, 0⟩, fuses := ⟨0, 0⟩, dev := Dev.reset }

end Sys2Proof.Machine
end

