-- ==== Sys2Proof/Machine/Regs.lean ====
section
/-! DEFINITION. The accessors of the device: registers and their fields, saturating counters,
outputs and free values. Every unit reads and writes its registers through these. -/

namespace Sys2Proof.Machine

/-- The stored value of the register at a primary offset. -/
def Dev.rd (d : Dev) (off : Nat) : Reg := smapGet regReset d.regs off

/-- Store a register. -/
def Dev.wr (d : Dev) (off : Nat) (v : Reg) : Dev := { d with regs := smapSet regReset d.regs off v }

/-- A register field. -/
def Dev.get (d : Dev) (f : FRef) : Nat := fieldOf (d.rd f.off) f.hi f.lo

/-- A one-bit register field. -/
def Dev.flag (d : Dev) (f : FRef) : Bool := d.get f != 0

/-- Set a register field; the other bits keep their values. -/
def Dev.set (d : Dev) (f : FRef) (v : Nat) : Dev := d.wr f.off (withField (d.rd f.off) f.hi f.lo v)

/-- Add to a counter register, which saturates at its field's largest value. -/
def Dev.bump (d : Dev) (f : FRef) (n : Nat) : Dev :=
  d.set f (min (d.get f + n) (2 ^ (f.hi + 1 - f.lo) - 1))

/-- Return a register to its reset value. -/
def Dev.clearReg (d : Dev) (off : Nat) : Dev := d.wr off (regReset off)

/-- A 64-bit value in a LO and a HI register. -/
def Dev.get2 (d : Dev) (lo hi : FRef) : Nat := d.get lo + 2 ^ (lo.hi + 1 - lo.lo) * d.get hi

/-- Set a 64-bit value held in a LO and a HI register. -/
def Dev.set2 (d : Dev) (lo hi : FRef) (v : Nat) : Dev :=
  (d.set lo v).set hi (v / 2 ^ (lo.hi + 1 - lo.lo))

/-- Put out an observable output. -/
def Dev.emit (d : Dev) (o : Output) : Dev := { d with out := o :: d.out }

/-- Draw a free value (log 2). -/
def Dev.draw (d : Dev) : Nat × Dev := (Config.free d.draws, { d with draws := d.draws + 1 })

/-- Draw n free bytes (log 2). -/
def Dev.drawBytes (d : Dev) (n : Nat) : Bytes × Dev :=
  (leBytes n (Config.free d.draws), { d with draws := d.draws + 1 })

/-- Run an effect only when a condition holds. -/
def Dev.when (d : Dev) (c : Bool) (g : Dev → Dev) : Dev := if c then g d else d

/-- Apply an effect for each element of a list, in order. -/
def Dev.each {α : Type} (d : Dev) (xs : List α) (g : Dev → α → Dev) : Dev := xs.foldl g d

/-! ## What the ordering code fixes (R1, R2, R18) -/

/-- Stacks fitted, by number (R18): M08 leaves out stacks 2, 5, 8 and 11; M10 leaves out 8 and 11. -/
def fittedStacks : OrderingCode → List Nat
  | .m08x2 | .m08x4 => [0, 1, 3, 4, 6, 7, 9, 10]
  | .m10x2 | .m10x4 => [0, 1, 2, 3, 4, 5, 6, 7, 9, 10]
  | .m12x2 | .m12x4 => [0, 1, 2, 3, 4, 5, 6, 7, 8, 9, 10, 11]

/-- I/O dies fitted. -/
def ioDies : OrderingCode → Nat
  | .m08x2 | .m10x2 | .m12x2 => 2
  | .m08x4 | .m10x4 | .m12x4 => 4

/-- Cell ports present. -/
def cellPorts (c : OrderingCode) : Nat := 4 * ioDies c

/-- Far ports present. -/
def farPorts (c : OrderingCode) : Nat := ioDies c

/-- HIF.ASSEMBLY (R3): stepping B0, I/O dies, stacks. -/
def assembly (c : OrderingCode) : Nat := 0xB000 + 16 * ioDies c + (fittedStacks c).length

/-- Thermal design power in W. -/
def tdp : OrderingCode → Nat
  | .m08x2 => 1700 | .m10x2 => 1780 | .m12x2 => 1860
  | .m08x4 => 1840 | .m10x4 => 1920 | .m12x4 => 2000

/-- The curator states of R78. -/
def curROM : Nat := 0
def curLOADING : Nat := 1
def curRUNNING : Nat := 2
def curREHANG : Nat := 3
def curFATAL : Nat := 4

/-- `CMD.CURATOR_STATE`. -/
def Dev.curator (d : Dev) : Nat := d.get CMD.CURATOR_STATE.STATE

end Sys2Proof.Machine
end

