-- ==== Sys2Proof/Machine/Memory.lean ====
section
/-! DEFINITION. Device memory below the event path: stacks and flat addresses (R317 to R321), the
catalogue walk and its checks (R322 to R329, R652), the translation caches (R331 to R333), and raw
reads and writes. Errors, events and commands stand in `Machine/Ops.lean` and
`Machine/MemoryCommands.lean`. -/

namespace Sys2Proof.Machine

/-! ## Stacks, frames and flat addresses -/

/-- Bytes per stack: 48 GiB. -/
def stackBytes : Nat := 0xC00000000

/-- Bytes per page and frame: 2 MiB. -/
def pageBytes : Nat := 0x200000

/-- The ordinal of a stack among the fitted ones (R320). -/
def stackOrd (c : OrderingCode) (k : Nat) : Option Nat := (fittedStacks c).findIdx? (· == k)

/-- The flat address of byte `o` of stack `k` (R320). -/
def flatOf (c : OrderingCode) (k o : Nat) : Nat := (stackOrd c k).getD 0 * stackBytes + o

/-- The flat address of byte p of a frame named by its PFN (R318). -/
def pfnFlat (c : OrderingCode) (pfn p : Nat) : Nat := flatOf c (pfn / 32768) (pfn % 32768 * pageBytes + p)

/-- Bytes of memory fitted. -/
def memBytes (c : OrderingCode) : Nat := (fittedStacks c).length * stackBytes

/-- The stack a flat address lies on, and the offset in it. -/
def stackAt (c : OrderingCode) (flat : Nat) : Option (Nat × Nat) :=
  ((fittedStacks c)[flat / stackBytes]?).map (fun k => (k, flat % stackBytes))

/-- The pseudo-channel, and the channel, of the 256-byte granule at a stack offset (R318). -/
def pseudoChannel (o : Nat) : Nat := bits o 13 8 ^^^ bits o 19 14
def channelOf (o : Nat) : Nat := pseudoChannel o / 2

/-- Does PFN name a frame of a fitted stack outside the reserved ones (R318, R319)? -/
def pfnUsable (c : OrderingCode) (pfn : Nat) : Bool :=
  decide (pfn < 2 ^ 19) && (fittedStacks c).contains (pfn / 32768) && decide (pfn % 32768 < 24576)
    && !(pfn / 32768 == 0 && decide (24192 ≤ pfn % 32768))

/-- Frames of a stack that mappings may use (R319). -/
def stackFrames (k : Nat) : Nat := if k = 0 then 24192 else 24576

/-- The flat addresses of the curator area and the archive region (R319): stack 0 is always the
first fitted stack. -/
def curatorArea : Nat := 24192 * pageBytes
def archiveBase : Nat := 24448 * pageBytes

/-- Is a stack failed (R346)? -/
def Dev.stackFailed (d : Dev) (k : Nat) : Bool := (d.get HMC.STACK_MAP.FAILED).testBit k

/-- Does a flat address lie on a failed stack? -/
def Dev.flatFailed (d : Dev) (flat : Nat) : Bool :=
  match stackAt d.code flat with
  | some (k, _) => d.stackFailed k
  | none => false

/-- A frame's record. -/
def frameDflt : Nat → Frame := fun _ => ⟨false, 0, false, 0, 0, false⟩
def Dev.frame (d : Dev) (pfn : Nat) : Frame := smapGet frameDflt d.hbm.frames pfn
def Dev.setFrame (d : Dev) (pfn : Nat) (f : Frame) : Dev :=
  { d with hbm.frames := smapSet frameDflt d.hbm.frames pfn f }

/-- May MAP give this frame (R319, R345, R346)? -/
def Dev.frameFree (d : Dev) (pfn : Nat) : Bool :=
  let f := d.frame pfn
  pfnUsable d.code pfn && !f.used && !f.weak && !d.stackFailed (pfn / 32768)

/-- Free frames of one stack: all that mappings may use but the used and the weak ones (R319). -/
def Dev.stackFree (d : Dev) (k : Nat) : Nat :=
  if d.stackFailed k then 0
  else stackFrames k - (d.hbm.frames.filter (fun e => e.1 / 32768 == k && decide (e.1 % 32768 < stackFrames k) && (e.2.used || e.2.weak))).length

/-- `HMC.FREE_FRAMES` (R319, R351). -/
def Dev.freeFrames (d : Dev) : Nat := (fittedStacks d.code).foldl (fun a k => a + d.stackFree k) 0

/-! ## Raw memory -/

/-- What the code says of a codeword (R341, R343). -/
inductive CwKind where
  | clean | corr | corrCheck | uncorr | poisoned
  deriving DecidableEq, Repr

/-- Of codeword `i` (R341): 1 or 2 erroneous symbols are corrected, 3 to 6 detected, more than that detected or taken
for a clean codeword. -/
def cwKind (i : Nat) : CwState → CwKind
  | .clean => .clean
  | .poisoned => .poisoned
  | .errs x c =>
    if x + c = 0 then .clean
    else if x + c ≤ 2 then (if x = 0 then .corrCheck else .corr)
    else if x + c ≤ 6 ∨ Config.rsDetects i (x + c) then .uncorr else .clean

/-- Does a codeword give no data? -/
def CwKind.lost : CwKind → Bool
  | .uncorr | .poisoned => true
  | _ => false

/-- Codeword state. -/
def cwDflt : Nat → CwState := fun _ => .clean
def Dev.cwAt (d : Dev) (i : Nat) : CwState := smapGet cwDflt d.hbm.cw i
def Dev.setCw (d : Dev) (i : Nat) (x : CwState) : Dev := { d with hbm.cw := smapSet cwDflt d.hbm.cw i x }

/-- The bytes of memory at a flat address, whatever their codewords say; beyond the memory fitted
all ones (R320). -/
def Dev.rawRead (d : Dev) (flat n : Nat) : Bytes :=
  if flat + n ≤ memBytes d.code then memRead d.hbm.mem flat n
  else (List.range n).map (fun i => if flat + i < memBytes d.code then memGet d.hbm.mem (flat + i) else 0xFF)

/-- Write bytes at a flat address, whatever their codewords say; beyond the memory fitted they are
discarded (R320). -/
def Dev.rawWrite (d : Dev) (flat : Nat) (bs : Bytes) : Dev :=
  { d with hbm.mem := memWrite d.hbm.mem flat (bs.take (memBytes d.code - flat)) }

/-- The codewords of a flat range that hold an error. -/
def Dev.badCws (d : Dev) (flat n : Nat) : List (Nat × CwState) :=
  if n = 0 then [] else smapRange d.hbm.cw (flat / 64) ((flat + n - 1) / 64 + 1 - flat / 64)

/-- A piece of a range: flat address and length. -/
abbrev Seg := Nat × Nat

/-- Cut a flat range where one stack ends and the next begins (R320); what lies beyond is one piece. -/
def flatCut : Nat → Nat → Nat → List Seg
  | 0, a, n => if n = 0 then [] else [(a, n)]
  | fuel + 1, a, n =>
    let k := stackBytes - a % stackBytes
    if n = 0 then [] else if n ≤ k then [(a, n)] else (a, k) :: flatCut fuel (a + k) (n - k)

def flatSegs (a n : Nat) : List Seg := flatCut 12 a n

/-- Is any byte of a piece of one stack in a failed stack or in an uncorrectable codeword? The first such offset. -/
def Dev.pieceBad (d : Dev) (flat n : Nat) : Option Nat :=
  if d.flatFailed flat then some 0
  else match (d.badCws flat n).find? (fun e => (cwKind e.1 e.2).lost) with
    | some (i, _) => some (i * 64 - flat)
    | none => none

/-- The same of pieces, the offset counted from the first. -/
def Dev.piecesBad (d : Dev) : Nat → List Seg → Option Nat
  | _, [] => none
  | o, (a, n) :: ss =>
    match d.pieceBad a n with
    | some k => some (o + k)
    | none => d.piecesBad (o + n) ss

/-- The same of any flat range. -/
def Dev.firstBad (d : Dev) (flat n : Nat) : Option Nat := d.piecesBad 0 (flatSegs flat n)

/-! ## Codewords met (R342, R343, R345)

What a controller does at once when a read meets a codeword; what it tells the rest of the device of it (an event
record, a fault) is noted, and follows in `Machine/Ops.lean`. -/

/-- The stack of a codeword and its stack offset. -/
def cwStack (c : OrderingCode) (i : Nat) : Nat × Nat := (stackAt c (i * 64)).getD (0, 0)

def scrubDflt : Nat → Scrub := fun _ => ⟨0, 0, false⟩

/-- The scrub period in ns. -/
def Dev.scrubNs (d : Dev) : Nat := d.get HMC.SCRUB_PERIOD.HOURS * 3600000000000

/-- Begin the scrub period that now belongs to, when an earlier one has ended: the frames' error counts start again
(R344, R345). -/
def Dev.scrubRoll (d : Dev) (k : Nat) : Dev :=
  let s := smapGet scrubDflt d.hbm.scrub k
  if d.scrubNs = 0 ∨ d.now < s.since + d.scrubNs then d
  else { d with
    hbm.scrub := smapSet scrubDflt d.hbm.scrub k ⟨s.pos, s.since + (d.now - s.since) / d.scrubNs * d.scrubNs, false⟩,
    hbm.frames := d.hbm.frames.filterMap (fun (e : Nat × Frame) =>
      let f := if e.1 / 32768 = k then { e.2 with errs := 0 } else e.2
      if f = frameDflt e.1 then none else some (e.1, f)) }

/-- A correctable error in codeword `i` is corrected, written back and counted (R342); the frame may turn weak (R345). -/
def Dev.correctCw (d : Dev) (i : Nat) (checkOnly : Bool) : Dev :=
  let (k, o) := cwStack d.code i
  let d := (d.scrubRoll k).setCw i .clean
  let d := d.bump (HMC.ECC_CORRECTED.COUNT k) 1
  let d := d.when checkOnly (·.bump (HMC.ECC_CHECK_ONLY.COUNT k) 1)
  let pfn := k * 32768 + o / pageBytes
  let f := d.frame pfn
  let f' := { f with errs := f.errs + 1 }
  let limit := d.get HMC.RETIRE_THRESHOLD.COUNT
  if limit ≠ 0 ∧ limit ≤ f'.errs ∧ !f.weak then
    let d := d.setFrame pfn { f' with weak := true, due := false }
    { d with hbm.notes := d.hbm.notes ++ [.weak pfn] }
  else d.setFrame pfn f'

/-- A read found codeword `i` uncorrectable (R343): counted, its stack offset recorded, and on the first find
poisoned. -/
def Dev.uncorrCw (d : Dev) (i : Nat) (first : Bool) : Dev :=
  let (k, o) := cwStack d.code i
  let d := d.bump (HMC.ECC_UNCORR.COUNT k) 1
  let d := d.set2 (HMC.ECC_ADDR_LO.OFFSET k) (HMC.ECC_ADDR_HI.OFFSET k) o
  let lately := (smapGet (fun _ => []) d.hbm.lately k).filter (fun e => decide (d.now < e.2 + 1000000000) && e.1 != i)
  let d := { d with hbm.lately := smapSet (fun _ => []) d.hbm.lately k (lately ++ [(i, d.now)]) }
  let d := if 1024 ≤ lately.length ∧ !d.stackFailed k then { d with hbm.notes := d.hbm.notes ++ [.lost k] } else d
  if first then
    let d := d.setCw i .poisoned
    { d with hbm.notes := d.hbm.notes ++ [.found i] }
  else d

/-- Apply R342 and R343 to one codeword that a read meets. -/
def Dev.meetCw (d : Dev) (e : Nat × CwState) : Dev :=
  match cwKind e.1 e.2 with
  | .clean => d
  | .corr => d.correctCw e.1 false
  | .corrCheck => d.correctCw e.1 true
  | .uncorr => d.uncorrCw e.1 true
  | .poisoned => d.uncorrCw e.1 false

/-- Codewords of a range. -/
def cwCount (flat n : Nat) : Nat := if n = 0 then 0 else (flat + n - 1) / 64 + 1 - flat / 64

/-- Count codewords moved by a stack's controller, in units of 1,024 (`HMC.TRAFFIC`). -/
def Dev.countTraffic (d : Dev) (flat n : Nat) : Dev :=
  match stackAt d.code flat with
  | none => d
  | some (k, _) =>
    let c := smapGet zeroDflt d.hbm.traffic k + cwCount flat n
    { d.bump (HMC.TRAFFIC.COUNT k) (c / 1024) with hbm.traffic := smapSet zeroDflt d.hbm.traffic k (c % 1024) }

/-- Read pieces up to and with the first codeword that gives no data: what the controllers do. A failed stack is not
reached (R346). -/
def Dev.meetPieces (d : Dev) : List Seg → Dev
  | [] => d
  | (a, n) :: ss =>
    if d.flatFailed a then d
    else match d.pieceBad a n with
      | some k => (d.each (d.badCws a (k + 1)) Dev.meetCw).countTraffic a (k + 1)
      | none => Dev.meetPieces ((d.each (d.badCws a n) Dev.meetCw).countTraffic a n) ss

/-- The partly covered codewords of a write of `n` bytes at `flat`. -/
def partCws (flat n : Nat) : List Nat :=
  if n = 0 then []
  else ((if flat % 64 ≠ 0 ∨ n < 64 then [flat / 64] else []) ++
    (if (flat + n) % 64 ≠ 0 then [(flat + n) / 64] else [])).eraseDups

/-- Store over a piece of one stack by `w`: nothing on a failed stack (R346); full codewords lose any error or
poison; a partial write to a poisoned codeword is discarded and counted, one to a correctable codeword corrects it
(R342, R343). -/
def Dev.storeVia (d : Dev) (flat n : Nat) (w : Dev → Dev) : Dev :=
  if d.flatFailed flat then d
  else
    let parts := partCws flat n
    let d := d.each parts (fun d i => if d.cwAt i = .poisoned then d else d.meetCw (i, d.cwAt i))
    let keep := (parts.filter (fun i => d.cwAt i == .poisoned)).map (fun i => (i, d.rawRead (i * 64) 64))
    let d := w d
    let d := d.each keep (fun d (i, old) =>
      (d.rawWrite (i * 64) old).bump (HMC.POISON_WRITES.COUNT (cwStack d.code i).1) 1)
    let lo := ceilDiv flat 64
    let hi := (flat + n) / 64
    { d with hbm.cw := smapClear d.hbm.cw lo (hi - lo) }.countTraffic flat n

/-- Store bytes over pieces, each of one stack. -/
def Dev.storePieces : Dev → List Seg → Bytes → Dev
  | d, [], _ => d
  | d, (a, n) :: ss, bs => Dev.storePieces (d.storeVia a n (·.rawWrite a (bs.take n))) ss (bs.drop n)

/-- Store bytes at a flat address. -/
def Dev.store (d : Dev) (flat : Nat) (bs : Bytes) : Dev := d.storePieces (flatSegs flat bs.length) bs

/-! ## The catalogue (R322 to R327) -/

/-- The device page of an address. -/
def pageOf (a : Nat) : Nat := a / pageBytes

/-- The directory index and leaf index of a device page (R322). -/
def dirIx (page : Nat) : Nat := page / 4096
def leafIx (page : Nat) : Nat := page % 4096

/-- The flat address of the directory (R323). -/
def Dev.catBase (d : Dev) : Nat := d.get HMC.CAT_BASE_LO.ADDR * 65536 + d.get HMC.CAT_BASE_HI.ADDR * 2 ^ 32

/-- A directory entry. -/
def Dev.dirEnt (d : Dev) (i : Nat) : Nat := leNat (d.rawRead (d.catBase + 8 * i) 8)

/-- Is a directory entry well formed (R323)? -/
def dirEntOk (e : Nat) : Bool := bits e 15 1 == 0 && bits e 63 48 == 0

/-- The leaf a directory entry names. -/
def dirLeaf (e : Nat) : Nat := bits e 47 16 * 65536

/-- Is a catalogue entry well formed: every reserved bit 0 (R324)? -/
def entOk (e : Nat) : Bool := bits e 7 5 == 0 && bits e 15 13 == 0 && bits e 31 24 == 0 && bits e 127 51 == 0

def entValid (e : Nat) : Bool := bit e 0
def entRead (e : Nat) : Bool := bit e 1
def entWrite (e : Nat) : Bool := bit e 2
def entAdd (e : Nat) : Bool := bit e 3
def entDamaged (e : Nat) : Bool := bit e 4
def entDomain (e : Nat) : Nat := bits e 23 16
def entPfn (e : Nat) : Nat := bits e 50 32

/-- Walk the directory and the leaf (R331): the directory entry, and the catalogue entry when the
directory entry is usable: what the catalogue holds. -/
def Dev.walk (d : Dev) (page : Nat) : Nat × Nat :=
  let de := d.dirEnt (dirIx page)
  if dirEntOk de && bit de 0 then (de, leNat (d.rawRead (dirLeaf de + 16 * leafIx page) 16)) else (de, 0)

/-- What a walk reads: 8 bytes of the directory, and 16 of the leaf when the directory entry is usable. -/
def Dev.walkSegs (d : Dev) (page : Nat) : List Seg :=
  let de := d.dirEnt (dirIx page)
  let dir : Seg := (d.catBase + 8 * dirIx page, 8)
  if dirEntOk de && bit de 0 then [dir, (dirLeaf de + 16 * leafIx page, 16)] else [dir]

/-- How an access is checked (R327, R652): the cache that translates it, the unit bit of cause 4 if
any, the permission bit (1 READ, 2 WRITE, 3 ADD, 4 READ and WRITE both), the domain, and the unit PROT_FAULT names. -/
structure Acc where
  cache : Nat
  ubit : Option Nat
  perm : Nat
  dom : Nat
  unitNo : Nat
  deriving DecidableEq, Repr

/-- The cause a lookup gives when the catalogue itself cannot be read (R343, R346): no refusal of R327. -/
def causeLost : Nat := 7

/-- The cause of a refusal (R327), 0 for none. -/
def checkEnt (a : Acc) (page de e : Nat) : Nat :=
  if !(dirEntOk de && entOk e) then 1
  else if !(bit de 0 && entValid e) || page == 0 then 2
  else if entDomain e != a.dom then 3
  else if (match a.ubit with | some b => !bit e b | none => false) then 4
  else if !(if a.perm = 4 then bit e 1 && bit e 2 else bit e a.perm) then 5
  else if entDamaged e then 6
  else 0

/-- The command status of a cause (R327). -/
def causeStatus : Nat → Nat
  | 1 | 2 => 0x0210
  | 6 => 0x0212
  | 7 => 0x0216
  | _ => 0x0211

/-- The memory controllers have no cache: they walk for every access (DEDUCED, log 26). -/
def mcCache : Nat := 999

/-- Entries a cache holds (R331). -/
def cacheSize (c : Nat) : Nat :=
  if c < 200 then 64 else if c = 200 then 256 else if c = 201 then 64
  else if c < 206 then 1024 else if c = 206 then 512 else if c = mcCache then 0 else 64

def cacheDflt : Nat → List CacheEnt := fun _ => []
def Dev.cache (d : Dev) (c : Nat) : List CacheEnt := smapGet cacheDflt d.hbm.caches c
def Dev.setCache (d : Dev) (c : Nat) (es : List CacheEnt) : Dev :=
  { d with hbm.caches := smapSet cacheDflt d.hbm.caches c es }

/-- May a cached entry begin an access now (R332, R333)? -/
def Dev.cacheFresh (d : Dev) (e : CacheEnt) : Bool :=
  decide (0 < e.pins) || decide (d.now ≤ e.filled + d.get HMC.CAT_STALE.MICROSECONDS * 1000)

/-- Fill a cache: the page's old entry goes, and at capacity the oldest unpinned entry goes
(DESIGN CHOICE, log 8: R331 leaves the replacement open). -/
def Dev.cacheFill (d : Dev) (c page ent : Nat) : Dev :=
  if cacheSize c = 0 then d else
  let es := (d.cache c).filter (fun e => e.page != page)
  let es := if es.length < cacheSize c then es
    else match es.findIdx? (fun e => e.pins == 0) with
      | some i => es.eraseIdx i
      | none => es
  d.setCache c (es ++ [⟨page, ent, d.now, 0⟩])

/-- Look a page up for an access: in its cache, else by a walk, which reads two codewords and fills the cache when the
entry is valid. Gives the directory entry (as valid when the cache answers) and the entry; none when the catalogue
cannot be read there. -/
def Dev.lookup (d : Dev) (c page : Nat) : Dev × Option (Nat × Nat) :=
  match (d.cache c).find? (fun e => e.page == page && d.cacheFresh e) with
  | some e => (d, some (1, e.ent))
  | none =>
    let (de, e) := d.walk page
    let segs := d.walkSegs page
    let lost := (d.piecesBad 0 segs).isSome
    let d := d.meetPieces segs
    if lost then (d, none)
    else
      let ok := dirEntOk de && bit de 0 && entOk e && entValid e
      (if ok then d.cacheFill c page e else d, some (de, e))

/-- Look a page up and check the access: the cause, 0 for none, and the entry. -/
def Dev.checkPage (d : Dev) (a : Acc) (page : Nat) : Dev × Nat × Nat :=
  match d.lookup a.cache page with
  | (d, none) => (d, causeLost, 0)
  | (d, some (de, e)) => (d, checkEnt a page de e, e)

/-- Is a page in a range of `count` pages from `page` (0: every page)? -/
def inPages (page count p : Nat) : Bool := count == 0 || decide (page ≤ p ∧ p < page + count)

/-- Drop the unpinned cached entries of pages from every cache. -/
def Dev.dropCached (d : Dev) (page count : Nat) : Dev :=
  { d with hbm.caches := (d.hbm.caches.map (fun (e : Nat × List CacheEnt) =>
      (e.1, e.2.filter (fun c => !(inPages page count c.page && c.pins == 0))))).filter (fun e => !e.2.isEmpty) }

/-- Record a refusal in PROT_FAULT and PROT_COUNT (R327, R351). -/
def Dev.protFault (d : Dev) (a : Acc) (cause addr : Nat) : Dev :=
  let d := d.bump HMC.PROT_COUNT.COUNT 1
  if d.flag HMC.PROT_FAULT.VALID then d
  else
    let d := d.set HMC.PROT_FAULT.VALID 1
    let d := d.set HMC.PROT_FAULT.DOMAIN a.dom
    let d := d.set HMC.PROT_FAULT.UNIT a.unitNo
    let d := d.set HMC.PROT_FAULT.CAUSE cause
    d.set2 HMC.PROT_ADDR_LO.ADDR HMC.PROT_ADDR_HI.ADDR addr

/-- A refused access: its cause (R327) and the lowest forbidden device address (R329). -/
structure Refused where
  cause : Nat
  addr : Nat
  deriving DecidableEq, Repr

/-- Translate the device range [addr, addr+n) page by page (`fuel` pages at most), checking every
page before anything moves (R329). -/
def Dev.xlatePages (a : Acc) : Nat → Dev → Nat → Nat → Dev × Except Refused (List Seg)
  | 0, d, _, _ => (d, .ok [])
  | fuel + 1, d, addr, n =>
    if n = 0 then (d, .ok [])
    else
      let page := pageOf addr
      let len := min n (pageBytes - addr % pageBytes)
      let (d, cause, e) := d.checkPage a page
      if cause ≠ 0 then (d, .error ⟨cause, addr⟩)
      else
        let seg : Seg := (pfnFlat d.code (entPfn e) (addr % pageBytes), len)
        match Dev.xlatePages a fuel d (addr + len) (n - len) with
        | (d, .ok segs) => (d, .ok (seg :: segs))
        | (d, .error r) => (d, .error r)

/-- Translate a range without recording a refusal; while CAT_CTL.ENABLE is 0 the address is flat (R320). -/
def Dev.tryXlate (d : Dev) (a : Acc) (addr n : Nat) : Dev × Except Refused (List Seg) :=
  if d.get HMC.CAT_CTL.ENABLE = 0 then (d, .ok (flatSegs addr n)) else Dev.xlatePages a (n / pageBytes + 2) d addr n

/-- Record a refusal (R327), unless it is the catalogue that could not be read. -/
def Dev.refused (d : Dev) (a : Acc) (r : Refused) : Dev := if r.cause = causeLost then d else d.protFault a r.cause r.addr

/-- Translate a range. A refusal is recorded. -/
def Dev.xlate (d : Dev) (a : Acc) (addr n : Nat) : Dev × Except Refused (List Seg) :=
  match d.tryXlate a addr n with
  | (d, .ok segs) => (d, .ok segs)
  | (d, .error r) => (d.refused a r, .error r)

/-- Translate ranges one after another without recording: the refusals met. -/
def Dev.tryAll : Dev → List (Acc × Nat × Nat) → Dev × List (Acc × Refused)
  | d, [] => (d, [])
  | d, (a, addr, n) :: rs =>
    match d.tryXlate a addr n with
    | (d, .ok _) => Dev.tryAll d rs
    | (d, .error r) => let (d, bad) := Dev.tryAll d rs; (d, (a, r) :: bad)

/-- Check every page of every range of a unit of work: the refusal at the lowest address is recorded and refuses it
(R329). -/
def Dev.xlateAll (d : Dev) (rs : List (Acc × Nat × Nat)) : Dev × Option Refused :=
  match d.tryAll rs with
  | (d, []) => (d, none)
  | (d, b :: bs) =>
    let low := bs.foldl (fun (m : Acc × Refused) x => if x.2.addr < m.2.addr then x else m) b
    (d.refused low.1 low.2, some low.2)

/-- The same with the command status of the refusal. -/
def Dev.checkAll (d : Dev) (rs : List (Acc × Nat × Nat)) : Dev × Option (Nat × Nat) :=
  let (d, r) := d.xlateAll rs
  (d, r.map (fun x => (causeStatus x.cause, x.addr)))

/-! ## Segments -/

/-- Read the bytes of translated pieces. -/
def Dev.segRead (d : Dev) (segs : List Seg) : Bytes := segs.flatMap (fun (a, n) => d.rawRead a n)

/-- Bytes of a piece that lie in the memory fitted. -/
def Dev.fitted (d : Dev) (a n : Nat) : Nat := min n (memBytes d.code - a)

/-- The sparse contents of translated pieces, keyed by offset from the range's start; what lies beyond the memory
fitted reads as all ones (R320). -/
def Dev.segGather (d : Dev) : Nat → List Seg → SMap Byte
  | _, [] => []
  | o, (a, n) :: ss =>
    let k := d.fitted a n
    (smapRange d.hbm.mem a k).map (fun e => (e.1 - a + o, e.2)) ++ (List.range (n - k)).map (fun i => (o + k + i, 0xFF))
      ++ d.segGather (o + n) ss

/-- Store sparse contents over translated pieces: every byte of the pieces is replaced, but what lies beyond the
memory fitted (R320). -/
def Dev.segScatter (d : Dev) (src : SMap Byte) : Nat → List Seg → Dev
  | _, [] => d
  | o, (a, n) :: ss =>
    let k := d.fitted a n
    let part := (smapRange src o k).map (fun e => (e.1 - o + a, e.2))
    Dev.segScatter { d with hbm.mem := smapSetAll memDflt (memZero d.hbm.mem a k) part } src (o + n) ss

/-- The first `k` bytes of translated pieces. -/
def segTake : List Seg → Nat → List Seg
  | [], _ => []
  | (a, n) :: ss, k => if k = 0 then [] else if k ≤ n then [(a, k)] else (a, n) :: segTake ss (k - n)

/-- The pieces after the first `k` bytes. -/
def segDrop : List Seg → Nat → List Seg
  | [], _ => []
  | (a, n) :: ss, k => if k = 0 then (a, n) :: ss else if k < n then (a + k, n - k) :: ss else segDrop ss (k - n)

/-- Pieces cut at the ends of stacks. -/
def segCut (segs : List Seg) : List Seg := segs.flatMap (fun s => flatSegs s.1 s.2)

/-- The offset of the first byte in a failed stack or an uncorrectable codeword. -/
def Dev.segBad (d : Dev) (o : Nat) (segs : List Seg) : Option Nat := d.piecesBad o (segCut segs)

end Sys2Proof.Machine
end

