-- ==== Sys2Proof/Machine/Ops.lean ====
section
/-! DEFINITION. The operations every unit shares: interrupts (R624, R629), events (R46, R76), the
records of completion and event rings (R46 to R50, R650), tallies (R62 to R66), fault records and
suspicion (R592 to R601), reads and writes of memory with their codewords (R341 to R346), and how a
command is accepted and completes (R55 to R57, R68, R71, R72). -/

namespace Sys2Proof.Machine

/-! ## Interrupts -/

/-- Raise MSI-X vector `v` of function 0: one message, or its pending bit while masked (R629). -/
def Dev.msix (d : Dev) (v : Nat) : Dev :=
  if d.hif.msixEn0 && !d.hif.msixMask0 && !d.flag (HIF.MSIX_CTRL.MASK v) then
    d.emit (.msix 0 v (d.get (HIF.MSIX_ADDR_LO.ADDR v) * 4 + d.get (HIF.MSIX_ADDR_HI.ADDR v) * 2 ^ 32)
      (d.get (HIF.MSIX_DATA.DATA v)))
  else
    let w := d.rd (HIF.MSIX_PBA.REG (v / 32)).off
    d.wr (HIF.MSIX_PBA.REG (v / 32)).off (w ||| BitVec.ofNat 32 (2 ^ (v % 32)))

/-- Function 1's own table (R624): an unlisted control word reads 1 (masked), all else 0. -/
def fn1Dflt : Nat → Reg := fun o => if o % 16 = 12 ∧ o < 0x10080 then 1 else 0
def Dev.fn1Rd (d : Dev) (o : Nat) : Reg := smapGet fn1Dflt d.hif.fn1 o
def Dev.fn1Wr (d : Dev) (o : Nat) (v : Reg) : Dev := { d with hif.fn1 := smapSet fn1Dflt d.hif.fn1 o v }

/-- Raise vector `v` of function 1 (R624), under the same mask and pending rules. -/
def Dev.msix1 (d : Dev) (v : Nat) : Dev :=
  let e := 0x10000 + 16 * v
  if d.hif.msixEn1 && !d.hif.msixMask1 && !bit (d.fn1Rd (e + 12)).toNat 0 then
    d.emit (.msix 1 v ((d.fn1Rd e).toNat / 4 * 4 + (d.fn1Rd (e + 4)).toNat * 2 ^ 32) (d.fn1Rd (e + 8)).toNat)
  else d.fn1Wr 0x18000 (d.fn1Rd 0x18000 ||| BitVec.ofNat 32 (2 ^ v))

/-- An I3C in-band interrupt of a kind (R645), while in-band interrupts are enabled. -/
def Dev.ibi (d : Dev) (b : Nat) : Dev := d.when d.hif.i3c.ibiEn (·.emit (.ibi b))

/-! ## Ring pointers (R51 to R53, R56) -/

/-- Entries of a ring. -/
def Dev.ringCount (d : Dev) (r : Nat) : Nat := 2 ^ d.get (QSU.RING_CFG.LOG2_COUNT r)

/-- A pointer as a position among two laps. -/
def ptrPos (n lap ix : Nat) : Nat := lap * n + ix

def Dev.ringHead (d : Dev) (r : Nat) : Nat :=
  ptrPos (d.ringCount r) (d.get (QSU.RING_HEAD.LAP r)) (d.get (QSU.RING_HEAD.INDEX r))
def Dev.ringTail (d : Dev) (r : Nat) : Nat :=
  ptrPos (d.ringCount r) (d.get (QSU.RING_TAIL.LAP r)) (d.get (QSU.RING_TAIL.INDEX r))

/-- How far position `b` lies ahead of `a` on two laps of `n` entries. -/
def lapDiff (n a b : Nat) : Nat := (b + 2 * n - a) % (2 * n)

/-- Entries between head and tail. -/
def Dev.ringUsed (d : Dev) (r : Nat) : Nat := lapDiff (d.ringCount r) (d.ringHead r) (d.ringTail r)

/-- Free entries of a completion or event ring (R56). -/
def Dev.ringFree (d : Dev) (r : Nat) : Nat :=
  d.ringCount r - d.ringUsed r - d.get (QSU.RING_RESV.RESERVED r)

/-- Is a ring enabled, and of this kind? -/
def Dev.ringOn (d : Dev) (r kind : Nat) : Bool :=
  decide (r < 16384) && d.flag (QSU.RING_CFG.ENABLE r) && d.get (QSU.RING_CFG.KIND r) == kind

/-- Since when a ring has held no free entry, and is the record of it posted (R61)? -/
def fullDflt : Nat → Option (Nat × Bool) := fun _ => none
def Dev.fullSince (d : Dev) (r : Nat) : Option (Nat × Bool) := smapGet fullDflt d.cmd.fullSince r

/-- Keep the time from which a completion ring holds no free entry (R61). -/
def Dev.noteFull (d : Dev) (r : Nat) : Dev :=
  let full := d.ringOn r 1 && d.ringFree r == 0
  { d with cmd.fullSince := smapSet fullDflt d.cmd.fullSince r (if full then some ((d.fullSince r).getD (d.now, false)) else none) }

/-- Store a pointer position. -/
def Dev.setHead (d : Dev) (r p : Nat) : Dev :=
  let n := d.ringCount r
  ((d.set (QSU.RING_HEAD.LAP r) (p / n % 2)).set (QSU.RING_HEAD.INDEX r) (p % n)).noteFull r
def Dev.setTail (d : Dev) (r p : Nat) : Dev :=
  let n := d.ringCount r
  ((d.set (QSU.RING_TAIL.LAP r) (p / n % 2)).set (QSU.RING_TAIL.INDEX r) (p % n)).noteFull r

/-- The address of entry `i` of a ring. -/
def Dev.ringEntry (d : Dev) (r i : Nat) : Nat :=
  d.get (QSU.RING_BASE_LO.ADDR r) * 64 + d.get (QSU.RING_BASE_HI.ADDR r) * 2 ^ 32 + 64 * i

/-- Set ERROR with a status (R53, R58, R649, R650). -/
def Dev.ringError (d : Dev) (r st : Nat) : Dev :=
  (d.set (QSU.RING_STATUS.ERROR r) 1).set (QSU.RING_STATUS.LAST_STATUS r) st

def jobDflt : Nat → Option Job := fun _ => none
/-- A job, if it exists. -/
def Dev.job (d : Dev) (j : Nat) : Option Job := smapGet jobDflt d.cmd.jobs j
def Dev.setJob (d : Dev) (j : Nat) (v : Option Job) : Dev :=
  { d with cmd.jobs := smapSet jobDflt d.cmd.jobs j v }
/-- The protection domain of a job, 0 when there is none. -/
def Dev.domOf (d : Dev) (j : Nat) : Nat := match d.job j with | some x => x.domain | none => 0

/-- The accesses of R652: the QSU's (UNIT 2), the memory controllers' for commands (UNIT 6). -/
def qsuAcc (perm dom : Nat) : Acc := ⟨201, none, perm, dom, 2⟩

/-! ## Records (R46 to R50) -/

/-- A 64-byte completion entry: the 32-byte record of R46 and its inline data. -/
def recordBytes (tag st opc res time src : Nat) (noRing : Bool) (inl : Bytes) (phase : Nat) : Bytes :=
  leBytes 4 tag ++ leBytes 2 st ++ leBytes 2 opc ++ leBytes 8 res ++ leBytes 8 time
    ++ leBytes 2 ((if noRing then 0x7FFF else src % 2 ^ 14) + (if inl.isEmpty then 0 else 0x8000))
    ++ zeros 2 ++ leBytes 4 (phase * 2 ^ 31) ++ slice inl 0 32

/-- Write bytes to host memory with a Relaxed Ordering attribute; No Snoop is never set (R626). -/
def Dev.hostPut (d : Dev) (a : Nat) (bs : Bytes) (relaxed : Bool) : Dev :=
  { d with host := memWrite d.host a bs }.emit (.hostWrite [(a, bs.length)] relaxed false)

/-- An entry of a ring in host memory: two posted writes, bytes 0–27 and 32–63, then bytes 28–31 (R48). -/
def Dev.hostEntry (d : Dev) (a : Nat) (entry : Bytes) : Dev :=
  ({ d with host := memWrite d.host a entry }.emit (.hostWrite [(a, 28), (a + 32, 32)] false false)).emit
    (.hostWrite [(a + 28, 4)] false false)

/-- Write a 64-byte entry into a ring. `some (status, address)`: the write was refused (R650). The QSU writes bytes
28–31 apart (R48), so a codeword that is poisoned, or found uncorrectable now, takes nothing (R343). -/
def Dev.putEntry (d : Dev) (r : Nat) (entry : Bytes) : Dev × Option (Nat × Nat) :=
  let a := d.ringEntry r (d.get (QSU.RING_TAIL.INDEX r))
  if d.get (QSU.RING_CFG.LOC r) = 0 then (d.hostEntry a entry, none)
  else
    match d.xlate (qsuAcc 2 (d.domOf (d.get (QSU.RING_PAIR.OWNER r)))) a 64 with
    | (d, .error e) => (d, some (causeStatus e.cause, a))
    | (d, .ok segs) =>
      let flat := (segs.headD (0, 0)).1
      if d.flatFailed flat then (d, some (0x0216, a))
      else
        let d := if d.cwAt (flat / 64) = .poisoned then d else d.meetCw (flat / 64, d.cwAt (flat / 64))
        if d.cwAt (flat / 64) = .poisoned then (d.bump (HMC.POISON_WRITES.COUNT (cwStack d.code (flat / 64)).1) 1, some (0x0216, a))
        else ((d.rawWrite flat entry).countTraffic flat 64, none)

/-- Move a ring's tail past one entry. -/
def Dev.tailOn (d : Dev) (r : Nat) : Dev := d.setTail r (d.ringTail r + 1)

/-- The producer's phase of a ring (R47): 1 on the first lap, inverted at each wrap of the tail. -/
def Dev.ringPhase (d : Dev) (r : Nat) : Nat := 1 - d.get (QSU.RING_TAIL.LAP r) % 2

def evBindDflt : Nat → Nat := fun _ => 0
/-- The event ring bound to a status class, when it is enabled (R655). -/
def Dev.evRing (d : Dev) (cls : Nat) : Option Nat :=
  match smapGet evBindDflt d.cmd.evBind cls with
  | 0 => none
  | r + 1 => if d.ringOn r 2 then some r else none

/-- A new event record with the next event sequence number (R46). -/
def Dev.newEvent (d : Dev) (st res : Nat) (inl : Bytes) : Dev × EvRec :=
  ({ d with cmd.evSeq := (d.cmd.evSeq + 1) % 2 ^ 32 }, ⟨d.cmd.evSeq, st, res, d.now, inl⟩)

/-- Drop an event record, counted (R76). -/
def Dev.evDrop (d : Dev) : Dev :=
  { d.bump CMD.EVENT_LOST.COUNT 1 with cmd.evDropped := d.cmd.evDropped + 1 }

/-- Put an event record into the holding queue, or drop it when the queue is full (R76). -/
def Dev.evHoldIt (d : Dev) (e : EvRec) : Dev :=
  if d.cmd.evHold.length < 1024 then { d with cmd.evHold := d.cmd.evHold ++ [e] } else d.evDrop

/-- Do records wait in the holding queue for this ring? -/
def Dev.evWaiting (d : Dev) (r : Nat) : Bool := d.cmd.evHold.any (fun e => d.evRing (e.status / 256) == some r)

mutual
/-- Write an event record onto event ring `r` (R51, R76), refused writes as R650 says. -/
def Dev.putEvent : Nat → Dev → Nat → EvRec → Dev
  | 0, d, _, _ => d.evDrop
  | fuel + 1, d, r, e =>
    let entry := recordBytes e.seq e.status 0 e.result e.time 0x3FFF true e.inl (d.ringPhase r)
    match d.putEntry r entry with
    | (d, none) => (d.tailOn r).when (d.flag (QSU.RING_CFG.IRQ_EN r)) (·.msix (d.get (QSU.RING_CFG.VECTOR r)))
    | (d, some (st, a)) =>
      let d := (d.tailOn r).ringError r st
      if d.evRing (st / 256) == some r then d.evDrop else Dev.postEventF fuel d st a (entry.take 32)
/-- Post an event record (R76): onto the ring bound to its class when one has space and no record
waits for it, else into the holding queue. -/
def Dev.postEventF : Nat → Dev → Nat → Nat → Bytes → Dev
  | 0, d, _, _, _ => d.evDrop
  | fuel + 1, d, st, res, inl =>
    let (d, e) := d.newEvent st res inl
    match d.evRing (st / 256) with
    | some r => if 0 < d.ringFree r ∧ !d.evWaiting r then Dev.putEvent fuel d r e else d.evHoldIt e
    | none => d.evHoldIt e
end

/-- Post an event record with a status and RESULT. -/
def Dev.event (d : Dev) (st res : Nat) : Dev := Dev.postEventF 6 d st res []

/-- Post an event record whose RESULT no rule states: it carries a free value (log 72). -/
def Dev.eventOpen (d : Dev) (st : Nat) : Dev := { d with draws := d.draws + 1 }.event st (Config.free d.draws % 2 ^ 64)

/-- Post an event record with inline data. -/
def Dev.eventInl (d : Dev) (st res : Nat) (inl : Bytes) : Dev := Dev.postEventF 6 d st res inl

/-- Deliver what the holding queue can deliver, oldest first (R76): a record whose ring has space,
preceded by one 0x010C record on the same ring when records were dropped. A record that cannot go
stays, and so does every later one of its ring. -/
def Dev.deliverHeld : Nat → Dev → List EvRec → List Nat → Dev
  | 0, d, _, _ => d
  | _ + 1, d, [], _ => d
  | fuel + 1, d, e :: es, stuck =>
    match d.evRing (e.status / 256) with
    | none => Dev.deliverHeld fuel d es stuck
    | some r =>
      let need := if d.cmd.evDropped = 0 then 1 else 2
      if stuck.contains r ∨ d.ringFree r < need then Dev.deliverHeld fuel d es (r :: stuck)
      else
        let d := { d with cmd.evHold := d.cmd.evHold.erase e }
        let d :=
          if d.cmd.evDropped = 0 then d
          else
            let n := d.cmd.evDropped
            let (d, lost) := d.newEvent 0x010C n []
            Dev.putEvent 6 { d with cmd.evDropped := 0 } r lost
        Dev.deliverHeld fuel (Dev.putEvent 6 d r e) es stuck

/-- Write a completion record into completion ring `cq` (R46, R48) and raise its vector when `irq`
asks and IRQ_EN is set (R45). -/
def Dev.putRecord (d : Dev) (cq : Nat) (tag st opc res src : Nat) (inl : Bytes) (irq : Bool) : Dev :=
  let entry := recordBytes tag st opc res d.now src false inl (d.ringPhase cq)
  match d.putEntry cq entry with
  | (d, none) =>
    (d.tailOn cq).when (irq && d.flag (QSU.RING_CFG.IRQ_EN cq)) (·.msix (d.get (QSU.RING_CFG.VECTOR cq)))
  | (d, some (st', a)) => ((d.tailOn cq).ringError cq st').eventInl st' a (entry.take 32)

/-! ## Tallies (R62 to R66) -/

def waitDflt : Nat → Option WaitSlot := fun _ => none
/-- Latch every wait on tally `t` that its value now satisfies (R63); tile wait slots as in R263. -/
def Dev.releaseWaits (d : Dev) (t : Nat) : Dev :=
  let v := d.get (QSU.TALLY_VALUE.VALUE t)
  let d := { d with cmd.waits := d.cmd.waits.map (fun (e : Nat × Option WaitSlot) => match e.2 with
      | some w => (e.1, some { w with sat := w.sat || (w.tally == t && decide (w.threshold ≤ v)) })
      | none => e) }
  { d with tiles := d.tiles.map (fun (e : Nat × Tile) => (e.1, { e.2 with waits := e.2.waits.map (fun w =>
      if w.isTally && w.key == t && decide (w.amount ≤ v) then { w with sat := true } else w) })) }

/-- The interrupt of a tally that moved from below its threshold to at or above it (R66). -/
def Dev.tallyIrq (d : Dev) (t old : Nat) : Dev :=
  let th := d.get (QSU.TALLY_IRQ.THRESHOLD t)
  d.when (d.flag (QSU.TALLY_CFG.IRQ_EN t) && decide (old < th) && decide (th ≤ d.get (QSU.TALLY_VALUE.VALUE t)))
    (·.msix (d.get (QSU.TALLY_CFG.VECTOR t)))

/-- Set a tally's value (R62). -/
def Dev.tallySet (d : Dev) (t v : Nat) : Dev :=
  let old := d.get (QSU.TALLY_VALUE.VALUE t)
  ((d.set (QSU.TALLY_VALUE.VALUE t) v).releaseWaits t).tallyIrq t old

/-- Add to a tally: it saturates with OVERFLOW and event 0x0108 (R64). -/
def Dev.tallyAdd (d : Dev) (t n : Nat) : Dev :=
  if n = 0 then d
  else
    let old := d.get (QSU.TALLY_VALUE.VALUE t)
    let past := decide (0xFFFFFFFF < old + n)
    let d := d.set (QSU.TALLY_VALUE.VALUE t) (if past then 0xFFFFFFFF else old + n)
    let d := (d.releaseWaits t).tallyIrq t old
    d.when past (fun d => (d.set (QSU.TALLY_CFG.OVERFLOW t) 1).event 0x0108 t)

/-- May job `j` use tally `t` (R68)? -/
def Dev.tallyOwned (d : Dev) (t j : Nat) : Bool :=
  decide (t < 65536) && d.flag (QSU.TALLY_CFG.ALLOCATED t) && d.get (QSU.TALLY_CFG.OWNER t) == j

/-! ## Fault units, suspicion and the fault ring (R591 to R601) -/

def uTile (i : Nat) : Nat := 0x1000 + i
def uArray (t a : Nat) : Nat := 0x2000 + 8 * t + a
def uStack (k : Nat) : Nat := 0x3000 + k
def uCell (p : Nat) : Nat := 0x4000 + p
def uFar (p : Nat) : Nat := 0x5000 + p
def uPair (p : Nat) : Nat := 0x6000 + p
def uPk (c : Nat) : Nat := 0x7000 + c
def uCore (c : Nat) : Nat := 0x8000 + c
def uCorridor (c : Nat) : Nat := 0x9000 + c
def uFlash : Nat := 0xA000
def uTime : Nat := 0xB000

/-- `CSV.SUSPICION` of a unit. -/
def suspLevel (u : Nat) : FRef := CSV.SUSPICION.LEVEL (u / 4096) (u % 4096)

def sumDflt : Nat → UnitSum := fun _ => ⟨0, [], 0, 0⟩
def Dev.unitSum (d : Dev) (u : Nat) : UnitSum := smapGet sumDflt d.csv.sums u
def Dev.setUnitSum (d : Dev) (u : Nat) (x : UnitSum) : Dev :=
  { d with csv.sums := smapSet sumDflt d.csv.sums u x }

/-- 24 h in ns. -/
def dayNs : Nat := 86400000000000

/-- Take a unit out of service (R598) as far as hardware does it at once. -/
def Dev.outOfService (d : Dev) (u : Nat) : Dev :=
  let i := u % 4096
  match u / 4096 with
  | 2 => d
  | 3 => ((d.set HMC.STACK_MAP.FAILED (d.get HMC.STACK_MAP.FAILED ||| 2 ^ i)).set (HMC.CTL_STATE.FAILED i) 1).set (HMC.CTL_STATE.READY i) 0
  | 4 => d.set (CFI.PORT_STATE.ENABLE i) 0
  | 5 => d.set (WXU.FAR_STATE.ENABLE i) 0
  | 6 => d.set SEC.PAIR_FAILED.MASK (d.get SEC.PAIR_FAILED.MASK ||| 2 ^ i)
  | 1 => { d with csv.retiredTiles := if d.csv.retiredTiles.contains i then d.csv.retiredTiles
            else d.csv.retiredTiles ++ [i] }
  | _ => d

/-- The verdict of a unit's open records, in the history log and in the fault ring, when it leaves PENDING or
WATCH (R596). -/
def Dev.closeRecords (d : Dev) (u v : Nat) : Dev :=
  let close (r : FaultRec) : FaultRec := if r.unit == u && r.verdict == 0 then { r with verdict := v } else r
  { d with
    csv.history := d.csv.history.map close,
    csv.fring := d.csv.fring.map (fun (e : Nat × Option FaultRec) => (e.1, e.2.map close)) }

/-- Types whose review test starts at once (R597): stack, ports, cipher pair, public-key core. -/
def reviewsAtOnce (u : Nat) : Bool := decide (3 ≤ u / 4096 ∧ u / 4096 ≤ 7)

/-- A port is down while its review test runs (R597), with the event and interrupt of a port that goes down
(R421, R478, R624). -/
def Dev.reviewDown (d : Dev) (u : Nat) : Dev :=
  let i := u % 4096
  match u / 4096 with
  | 4 => if d.flag (CFI.PORT_STATE.UP i) then ((d.set (CFI.PORT_STATE.UP i) 0).event 0x040C i).msix1 4 else d
  | 5 => if d.flag (WXU.FAR_STATE.UP i) then ((d.set (WXU.FAR_STATE.UP i) 0).event 0x0510 i).msix1 4 else d
  | _ => d

/-- Move a unit's suspicion (R596) with its event record. -/
def Dev.suspect (d : Dev) (u lvl : Nat) : Dev :=
  let old := d.get (suspLevel u)
  if old = lvl then d
  else
    let d := { d.set (suspLevel u) lvl with csv.dirty := true }
    match lvl with
    | 2 => { d with
        csv.reviews := if reviewsAtOnce u then d.csv.reviews ++ [u] else d.csv.reviews,
        csv.dueNow := if u / 4096 = 1 then d.csv.dueNow ++ [u % 4096]
          else if u / 4096 = 2 then d.csv.dueNow ++ [u % 4096 / 8] else d.csv.dueNow }.event 0x0703 u |>.reviewDown u
    | 3 =>
      let d := d.setUnitSum u { d.unitSum u with perms := (d.unitSum u).perms + 1 }
      let d := { d with csv.dirtyPerm := true, csv.reviews := d.csv.reviews.filter (· != u) }
      ((((d.closeRecords u 2).outOfService u).event 0x0704 u).msix1 3)
    | _ => if old = 2 ∨ old = 3 then (d.closeRecords u 1).event 0x0705 u else if lvl = 0 then d.closeRecords u 1 else d

/-- Is this fault still in handling (R593)? -/
def Dev.inHandling (d : Dev) (h : Handling) : Bool :=
  !h.retired || decide (d.now < h.entered + d.get CSV.HANDLE_MIN.MICROSECONDS * 1000)

/-- A fault enters: the fault ring (R592 to R594), the repeat rule (R593) and suspicion (R596); a unit with no
review in the field is PENDING until a further fault, which makes it PERMANENT (R597). A control
core's fault inside its fault path enters nothing and stalls the core (R595). A full ring is a fatal cause (R594): what could not
enter is the fatal record. -/
def Dev.faultRecord (d : Dev) (u st src addr whr job logical step : Nat) (detail : Bytes) : Dev :=
  if u / 4096 = 8 ∧ bit (d.get CSV.FAULT_CTL.IN_PATH) (u % 4096) then
    if d.csv.stalled.contains (u % 4096) then d else { d with csv.stalled := d.csv.stalled ++ [u % 4096] }
  else if 64 ≤ d.get CSV.STATE.FRING_LEVEL then
    if d.csv.fatal ≠ 0 then d
    else
      let lvl := d.get (suspLevel u)
      let r : FaultRec := ⟨d.csv.recSeq, u, st, src, lvl, lvl, 0, d.now, addr, whr, job, logical, step, 0, slice detail 0 64⟩
      { d with csv.fatal := 0x0702, csv.fatalRec := some r, csv.recSeq := d.csv.recSeq + 1 }
  else
    let cls := st / 256
    let reps := (d.csv.handling.filter (fun h => h.unit == u && h.cls == cls && d.inHandling h)).length
    let before := d.get (suspLevel u)
    let s := d.unitSum u
    let recent := (d.now, cls) :: s.recent.filter (fun e => decide (d.now ≤ e.1 + dayNs))
    let same := (recent.filter (fun e => e.2 == cls)).length
    let inReview := before == 2 && (d.csv.reviews.contains u || decide (8 ≤ u / 4096))
    let after :=
      if before = 3 then 3
      else if before = 2 then (if inReview then 3 else 2)
      else if reps > 0 then 2
      else if before = 1 ∧ d.get CSV.WATCH_LIMIT.COUNT ≤ same then 2
      else 1
    let ix := d.get CSV.FRING_TAIL.INDEX
    let rec_ : FaultRec := ⟨d.csv.recSeq, u, st, src, before, after, (if after = 3 then 2 else 0), d.now, addr,
      whr, job, logical, step, reps, slice detail 0 64⟩
    let d := d.setUnitSum u { s with recent := recent, lastStatus := st, total := s.total + 1 }
    let d := d.set (CSV.SUSPICION.TOTAL (u / 4096) (u % 4096)) (min 0xFFFF (s.total + 1))
    let d := d.set (CSV.SUSPICION.RECENT (u / 4096) (u % 4096)) (min 0xFF recent.length)
    let d := { d with csv.fring := smapPut d.csv.fring ix (some rec_), csv.recSeq := d.csv.recSeq + 1,
                      csv.handling := d.csv.handling ++ [(⟨u, cls, d.now, false⟩ : Handling)], csv.dirty := true }
    let d := d.set CSV.FRING_TAIL.INDEX ((ix + 1) % 64)
    let d := d.set CSV.STATE.FRING_LEVEL (d.get CSV.STATE.FRING_LEVEL + 1)
    d.suspect u after

/-- A fault with no job, logical tile, step or detail. -/
def Dev.fault (d : Dev) (u st addr : Nat) : Dev := d.faultRecord u st 0 addr 0 0 0xFFFF 0 []

/-- A register refusal (R601): straight to the history log, counted in `CSV.REFUSALS`. -/
def Dev.refuseRegister (d : Dev) (u off : Nat) : Dev :=
  let d := d.bump CSV.REFUSALS.COUNT 1
  let r : FaultRec := ⟨d.csv.recSeq, u, 0x070F, 5, d.get (suspLevel u), d.get (suspLevel u), 0, d.now, off, 0, 0,
    0xFFFF, 0, 0, zeros 64⟩
  { d with csv.recSeq := d.csv.recSeq + 1, csv.history := (d.csv.history ++ [r]).drop (d.csv.history.length + 1 - 4096) }

/-! ## Codewords (R341 to R346) -/

/-- The effects of reading translated pieces, and the offset of the first byte that could not be
read, if any (R342, R343, R346). -/
def Dev.readSegs (d : Dev) (segs : List Seg) : Dev × Option Nat := (d.meetPieces (segCut segs), d.segBad 0 segs)

/-- A stack is lost (R346): FAILED, event 0x0219, and PERMANENT. -/
def Dev.loseStack (d : Dev) (k : Nat) : Dev :=
  let d := d.set HMC.STACK_MAP.FAILED (d.get HMC.STACK_MAP.FAILED ||| 2 ^ k)
  let d := (d.set (HMC.CTL_STATE.FAILED k) 1).set (HMC.CTL_STATE.READY k) 0
  ((d.event 0x0219 k).fault (uStack k) 0x0219 0).suspect (uStack k) 3

/-- What the memory controllers report of a codeword (R343, R345, R346). -/
def Dev.tell (d : Dev) : CwNote → Dev
  | .weak pfn => (d.event 0x0218 pfn).fault (uStack (pfn / 32768)) 0x0218 (pfn % 32768 * pageBytes)
  | .found i => (d.event 0x0216 (i * 64)).fault (uStack (cwStack d.code i).1) 0x0216 (cwStack d.code i).2
  | .lost k => if d.stackFailed k then d else d.loseStack k

/-- Report what is noted, and what the reports themselves bring to light (`fuel` reports at most). -/
def Dev.settle : Nat → Dev → Dev
  | 0, d => { d with hbm.notes := [] }
  | fuel + 1, d => match d.hbm.notes with
    | [] => d
    | x :: xs => Dev.settle fuel ({ d with hbm.notes := xs }.tell x)

/-- Store bytes over translated pieces. -/
def Dev.storeSegs (d : Dev) (segs : List Seg) (bs : Bytes) : Dev := d.storePieces (segCut segs) bs

/-- Store sparse contents, keyed by offset, over pieces, each of one stack. -/
def Dev.sparsePieces (d : Dev) (src : SMap Byte) : Nat → List Seg → Dev
  | _, [] => d
  | o, (a, n) :: ss =>
    (d.storeVia a n (fun d => d.segScatter (smapRange src o n |>.map (fun e => (e.1 - o, e.2))) 0 [(a, n)])).sparsePieces
      src (o + n) ss

/-- Store sparse contents over translated pieces. -/
def Dev.storeSparse (d : Dev) (src : SMap Byte) (o : Nat) (segs : List Seg) : Dev := d.sparsePieces src o (segCut segs)

/-- Read device bytes: the bytes, or the status and the first address that failed (R327, R343). -/
def Dev.fetch (d : Dev) (a : Acc) (addr n : Nat) : Dev × Except (Nat × Nat) Bytes :=
  match d.xlate a addr n with
  | (d, .error e) => (d, .error (causeStatus e.cause, e.addr))
  | (d, .ok segs) =>
    match d.readSegs segs with
    | (d, some o) => (d, .error (0x0216, addr + o))
    | (d, none) => (d, .ok (d.segRead segs))

/-- Write device bytes, checked whole first: a status and address on refusal. A failed stack fails
the write (R346). -/
def Dev.deposit (d : Dev) (a : Acc) (addr : Nat) (bs : Bytes) : Dev × Option (Nat × Nat) :=
  match d.xlate a addr bs.length with
  | (d, .error e) => (d, some (causeStatus e.cause, e.addr))
  | (d, .ok segs) =>
    match (segCut segs).find? (fun s => d.flatFailed s.1) with
    | some _ => (d.storeSegs segs bs, some (0x0216, addr))
    | none => (d.storeSegs segs bs, none)

/-! ## Commands: acceptance and completion -/

/-- OK with the RESULT that a rule states, and with inline data; a refusal with a status, and with a stated RESULT. -/
def okR (res : Nat) : Result := ⟨0, res, [], false⟩
def okI (res : Nat) (inl : Bytes) : Result := ⟨0, res, inl, false⟩
def errR (st : Nat) : Result := ⟨st, 0, [], true⟩
def errA (st res : Nat) : Result := ⟨st, res, [], false⟩
/-- OK where no rule states a RESULT (log 72), with inline data. -/
def okU (inl : Bytes) : Result := ⟨0, 0, inl, true⟩

/-- The RESULT a record carries: the stated one, else a free value (R46, log 72). -/
def Dev.resultOf (d : Dev) (r : Result) : Nat × Dev :=
  if r.unstated then (Config.free d.draws % 2 ^ 64, { d with draws := d.draws + 1 }) else (r.result, d)

/-- Set the mailbox result (R71). -/
def Dev.mboxResult (d : Dev) (r : Result) : Dev :=
  let res := (d.resultOf r).1
  let d := (d.resultOf r).2.set CMD.MBOX_RESULT.STATUS r.status
  let d := (d.set CMD.MBOX_DATA0.VALUE (res % 2 ^ 32)).set CMD.MBOX_DATA1.VALUE (res / 2 ^ 32)
  let d := d.each (List.range 8) (fun d i => d.set (CMD.MBOX_DATA.VALUE i) (le r.inl (4 * i) 4))
  let d := { d with cmd.mbox := none }
  d.when (d.flag CMD.MBOX_FLAGS.IRQ_EN) (·.msix 0)

/-- Release one reserved entry of a completion ring (R56). -/
def Dev.unreserve (d : Dev) (cq : Nat) : Dev :=
  (d.set (QSU.RING_RESV.RESERVED cq) (d.get (QSU.RING_RESV.RESERVED cq) - 1)).noteFull cq
def Dev.reserve (d : Dev) (cq : Nat) : Dev :=
  (d.set (QSU.RING_RESV.RESERVED cq) (d.get (QSU.RING_RESV.RESERVED cq) + 1)).noteFull cq

/-- Complete a packet or mailbox command (R57, R46, R45, R71): the SIGNAL tally first, then the
record, or none under QUIET with status OK. `held`: its reservation is released with the record. -/
def Dev.complete (d : Dev) (o : Origin) (opc : Nat) (held : Bool) (r : Result) : Dev :=
  let d := d.when (bit o.flags 1 && r.status == 0 && o.chan != .mailbox) (·.tallyAdd o.signal 1)
  match o.chan with
  | .mailbox => d.mboxResult r
  | .ring q =>
    let cq := d.get (QSU.RING_PAIR.CQ q)
    if !(d.ringOn q 0 && d.ringOn cq 1) then d
    else
      let d := d.when held (·.unreserve cq)
      if bit o.flags 4 && r.status == 0 then d
      else (d.resultOf r).2.putRecord cq o.seqTag r.status opc (d.resultOf r).1 q r.inl (bit o.flags 3)

/-- The job a command runs for: the owner of its ring; none for the mailbox (R327). -/
def Dev.jobOf (d : Dev) (o : Origin) : Nat :=
  match o.chan with
  | .mailbox => 0
  | .ring q => d.get (QSU.RING_PAIR.OWNER q)

/-- Is this in-flight entry the command (o, opc, ops), not yet executed? -/
def InFlight.isFor (f : InFlight) (o : Origin) (opc : Nat) (ops : Bytes) : Bool :=
  f.org == o && f.opcode == opc && f.ops == ops && f.res.isNone && f.gate == .ready

/-- The answer of a command's effect: complete now, hold a result until COMMAND_COMPLETION, or wait
for a unit's own event. -/
inductive Answer where
  | now (r : Result)
  | later (r : Result) (gate : Gate) (ranges : List (Nat × Nat))
  | unit (ranges : List (Nat × Nat))
  deriving DecidableEq, Repr

/-- The last opcode of each class, by the opcode's high byte. -/
def classLast : Nat → Nat
  | 0x00 => 0x0B | 0x01 => 6 | 0x02 => 6 | 0x03 => 6 | 0x04 => 7 | 0x05 => 6 | 0x06 => 4 | 0x07 => 4
  | 0x08 => 4 | 0x09 => 5 | 0x0A => 4 | _ => 0

/-- Is an opcode implemented (R73)? -/
def opcodeKnown (o : Nat) : Bool := decide (1 ≤ o % 256 ∧ o % 256 ≤ classLast (o / 256))

/-- May the opcode be given on this channel in this curator state (R72, R613)? -/
def mboxAllows (cur opc : Nat) : Bool :=
  if cur = 0 then opc == 2 || opc == 7
  else if cur = 4 then opc == 2 || opc == 0x0903 || opc == 0x0905
  else if 1 ≤ opc ∧ opc ≤ 0x0B then true
  else opc == 0x0604 || opc == 0x0903 || opc == 0x0905 || decide (0x0A01 ≤ opc ∧ opc ≤ 0x0A04)

def Dev.mboxPending (d : Dev) : Bool := d.get CMD.MBOX_RESULT.STATUS == 1

/-- The mailbox as an origin. -/
def mboxOrigin : Origin := ⟨.mailbox, 0, 0, 0⟩

/-- Serve the latched command under the rules of the curator's state (R72, R87, R613): refused at
once, or in flight. -/
def Dev.mboxServe (d : Dev) (m : MboxCmd) : Dev :=
  if !mboxAllows d.curator m.opcode then
    d.mboxResult (errR (if d.curator = curRUNNING ∧ !opcodeKnown m.opcode then 0x0101 else 0x0105))
  else
    { d with cmd.mbox := some { m with held := false },
             cmd.inflight := d.cmd.inflight ++ [(⟨mboxOrigin, m.opcode, m.args, 0, [], .ready, none, d.now⟩ : InFlight)] }

/-- Post a command at the mailbox (R71): the result reads PENDING and the data registers 0; a command posted while
the state reads LOADING or REHANG is held (R72, R87). -/
def Dev.mboxPost (d : Dev) (opc : Nat) (args : Bytes) : Dev :=
  let d := ((d.set CMD.MBOX_RESULT.STATUS 1).set CMD.MBOX_DATA0.VALUE 0).set CMD.MBOX_DATA1.VALUE 0
  let d := d.each (List.range 8) (fun d i => d.set (CMD.MBOX_DATA.VALUE i) 0)
  let held := d.curator == curLOADING || d.curator == curREHANG
  let m : MboxCmd := ⟨opc, args, held⟩
  if held then { d with cmd.mbox := some m } else d.mboxServe m

/-- The catalogue commands, which the curator firmware applies one at a time, in dispatch order (R325). -/
def catalogueOp (opc : Nat) : Bool := opc == 0x0101 || opc == 0x0102 || opc == 0x0103

/-- Do the control cores, which interpret every command, serve one now: under RUNNING, and on the mailbox what the boot
ROM serves (R72, R613)? In LOADING and REHANG it waits. -/
def Dev.serves (d : Dev) (o : Origin) (opc : Nat) : Bool :=
  d.curator == curRUNNING || (o.chan == .mailbox && (d.curator == curROM || d.curator == curFATAL) && mboxAllows d.curator opc)

/-- Find a command among those in flight (log 10): its place, once it may run. One that comes without a dispatch is
posted or dispatched now, by the rules of its channel: the mailbox takes one command at a time, and a ring's
completion ring must have room, which is reserved (R55, R56, R71, R72). -/
def Dev.enter (d : Dev) (opc : Nat) (o : Origin) (ops : Bytes) : Dev × Option Nat :=
  let find (d : Dev) : Option Nat := (d.cmd.inflight.findIdx? (·.isFor o opc ops)).filter
    (fun k => d.serves o opc && !(catalogueOp opc && (d.cmd.inflight.take k).any (fun f => catalogueOp f.opcode)))
  if d.cmd.inflight.any (·.isFor o opc ops) then (d, find d)
  else match o.chan with
    | .mailbox =>
      if d.mboxPending then (d.set CMD.MBOX_FLAGS.DROPPED 1, none)
      else
        let d := d.mboxPost opc ops
        (d, find d)
    | .ring q =>
      let cq := d.get (QSU.RING_PAIR.CQ q)
      if !(d.ringOn q 0 && d.ringOn cq 1 && d.curator == curRUNNING && decide (0 < d.ringFree cq)) then (d, none)
      else
        let f : InFlight := ⟨o, opc, ops, d.jobOf o, [], .ready, none, d.now⟩
        let d := { d with cmd.inflight := d.cmd.inflight ++ [f] }.reserve cq
        (d, find d)

/-- Run a command in flight: its effect, and what becomes of it. -/
def Dev.command (d : Dev) (opc : Nat) (o : Origin) (ops : Bytes) (eff : Dev → Dev × Answer) : Dev :=
  match d.enter opc o ops with
  | (d, none) => d
  | (d, some k) => match eff d with
    | (d, .now r) => ({ d with cmd.inflight := d.cmd.inflight.eraseIdx k }).complete o opc true r
    | (d, .later r g rs) => { d with cmd.inflight := d.cmd.inflight.modify k (fun f => { f with res := some r, gate := g, ranges := rs }) }
    | (d, .unit rs) => { d with cmd.inflight := d.cmd.inflight.modify k (fun f => { f with gate := .unit, ranges := rs }) }

/-- A unit's own event brings the result of the oldest in-flight command of an opcode that waits for it and meets
`p`: a refusal or an error completes at once, and OK is held until COMMAND_COMPLETION. -/
def Dev.unitHold (d : Dev) (opc : Nat) (p : InFlight → Bool) (r : Result) : Dev :=
  match d.cmd.inflight.findIdx? (fun f => f.opcode == opc && f.gate == .unit && f.res.isNone && p f) with
  | none => d
  | some k =>
    if r.status = 0 then { d with cmd.inflight := d.cmd.inflight.modify k (fun f => { f with gate := .ready, res := some r }) }
    else match d.cmd.inflight[k]? with
      | none => d
      | some f => ({ d with cmd.inflight := d.cmd.inflight.eraseIdx k }).complete f.org opc true r

/-- A unit's own event ends the oldest in-flight command of an opcode that waits for it and meets
`p`: it completes. -/
def Dev.unitDone (d : Dev) (opc : Nat) (p : InFlight → Bool) (r : Result) : Dev :=
  match d.cmd.inflight.findIdx? (fun f => f.opcode == opc && f.gate == .unit && f.res.isNone && p f) with
  | none => d
  | some k =>
    match d.cmd.inflight[k]? with
    | none => d
    | some f => ({ d with cmd.inflight := d.cmd.inflight.eraseIdx k }).complete f.org opc true r

end Sys2Proof.Machine
end

