-- ==== Sys2Proof/Machine/Catalogue.lean ====
section
/-! DEFINITION. The catalogue's changes (R323, R325): leaves, entries, the invalidation that a change includes and what
holds it up (R334, R335), and pages set DAMAGED (R185). -/

namespace Sys2Proof.Machine

/-- The lowest start from `lo` of `n` consecutive numbers below `hi` that `used` leaves free. -/
def freeRun (used : List Nat) (lo hi n : Nat) : Option Nat :=
  ((lo :: used.map (· + 1)).filter (fun s => decide (lo ≤ s ∧ s + n ≤ hi) && used.all (fun u => decide (u < s ∨ s + n ≤ u)))).min?

/-! ## Leaves and entries (R323, R325) -/

def leafMax : Nat := 2044
def Dev.leavesFree (d : Dev) : Nat := leafMax - (d.hbm.leaves.filter (fun e => e.2 != 0)).length

/-- The flat address of leaf i: past the directory in the curator area. -/
def leafFlat (i : Nat) : Nat := curatorArea + 0x40000 + i * 65536

/-- The entry of a page as the catalogue holds it: 0 when its directory entry is not valid. -/
def Dev.entryOf (d : Dev) (page : Nat) : Nat :=
  if bit (d.walk page).1 0 then (d.walk page).2 else 0

/-- Give a directory index a leaf if it has none: the lowest free one, zeroed. -/
def Dev.leafFor (d : Dev) (ix : Nat) : Dev :=
  if bit (d.dirEnt ix) 0 then d
  else match freeRun ((d.hbm.leaves.filter (fun e => e.2 != 0)).map (·.1)) 0 leafMax 1 with
    | none => d
    | some i =>
      let d := { d with hbm.leaves := smapSet zeroDflt d.hbm.leaves i (ix + 1) }
      let d := d.storeVia (leafFlat i) 65536 (fun d => { d with hbm.mem := memZero d.hbm.mem (leafFlat i) 65536 })
      d.store (d.catBase + 8 * ix) (leBytes 8 (leafFlat i + 1))

/-- Write a page's entry: one 16-byte write. -/
def Dev.putEntryOf (d : Dev) (page e : Nat) : Dev :=
  let de := d.dirEnt (dirIx page)
  if bit de 0 then d.store (dirLeaf de + 16 * leafIx page) (leBytes 16 e) else d

/-- Does a leaf hold a valid entry? -/
def Dev.leafLive (d : Dev) (leaf : Nat) : Bool :=
  (smapRange d.hbm.mem leaf 65536).any (fun (a, b) => (a - leaf) % 16 == 0 && b.toNat.testBit 0)

/-! ## What a collective covers (R414) -/

/-- The collectives' opcodes. -/
def ocRS : Nat := 0x0303
def ocAG : Nat := 0x0304
def ocPERM : Nat := 0x0305

/-- Format codes of the collectives (R93): FP32, BF16, and EX48. -/
def fcFP32 : Nat := 0
def fcBF16 : Nat := 1
def fcEX48 : Nat := 0xA

/-- Bytes per element in memory. -/
def collWidth (f : Nat) : Nat := if f = fcFP32 then 4 else if f = fcBF16 then 2 else 6

/-- Member count. -/
def Group.size (g : Group) : Nat := g.members.length

/-- Is this one of the curator's norm collectives (R410)? -/
def Coll.isNorm (c : Coll) : Bool := match c.owner with | .normReduce _ => true | .normGather _ => true | _ => false

/-- Ranges a collective names on this member, and the permission each needs (R414). -/
def Coll.ranges (c : Coll) (g : Group) : List (Nat × Nat × Nat) :=
  if c.isNorm then []
  else if c.opcode = ocRS then [(c.src, g.size * c.count * collWidth c.sfmt, 1), (c.dst, c.count * collWidth c.dfmt, 2)]
  else if c.opcode = ocAG then
    [(c.src, (if c.mode = 1 then c.own else c.count), 1), (c.dst, g.size * c.count, 2)]
      ++ (if c.mode = 1 then [(c.lenVec, 8 * g.size, 2)] else [])
  else c.sends.map (fun e => (e.addr, e.len, 1)) ++ c.recvs.map (fun e => (e.addr, e.len, 2))

/-! ## Invalidation (R334, R335) -/

/-- The device ranges a command waiting to run covers by its operands (R334): those of `COPY`, `FILL` and `HOST_DMA`
as they stand; of another command that names device memory, whatever it turns out to reach, so every page
(DESIGN CHOICE, log 83); of the rest none. -/
def waitingRanges (opc : Nat) (ops : Bytes) : List (Nat × Nat) :=
  if opc = 0x0104 then [(opnd ops 16 8, opnd ops 32 8), (opnd ops 24 8, opnd ops 32 8)]
  else if opc = 0x0105 then [(opnd ops 16 8, opnd ops 24 8)]
  else if opc = 0x0106 then [(opnd ops 24 8, opnd ops 32 8)]
  else if [0x0007, 0x0008, 0x0201, 0x0202, 0x0301, 0x0303, 0x0304, 0x0305, 0x0501, 0x0503, 0x0506, 0x0601, 0x0602, 0x0604,
      0x0701, 0x0702, 0x0703, 0x0704, 0x0A01].contains opc || opc / 256 == 4 then [(0, 2 ^ 48)]
  else []

/-- The device ranges a command in flight covers: those its unit took it with, or those it waits to run with. -/
def InFlight.covers (f : InFlight) : List (Nat × Nat) :=
  if f.gate = .ready ∧ f.res.isNone then waitingRanges f.opcode f.ops else f.ranges

/-- Does a range touch one of the pages (count 0: every page)? -/
def rangeInPages (page count : Nat) (r : Nat × Nat) : Bool :=
  count == 0 || (decide (0 < r.2) && decide (r.1 < (page + count) * pageBytes) && decide (page * pageBytes < r.1 + r.2))

/-- The ranges of collectives that the curator firmware runs itself, which an invalidation waits for (R334). -/
def Dev.firmwareRanges (d : Dev) : List (Nat × Nat) :=
  d.cfi.groups.flatMap (fun e => match e.2 with
    | none => []
    | some g => g.queue.flatMap (fun c => match c.owner with
      | .command _ _ => []
      | _ => (c.ranges g).map (fun r => (r.1, r.2.1))))

/-- Does a pin, an earlier command, or a collective of the curator firmware hold the invalidation up (R334)? `before` are
the commands dispatched before it. -/
def Dev.invalidateHeld (d : Dev) (page count : Nat) (before : List InFlight) : Bool :=
  d.hbm.caches.any (fun e => e.2.any (fun c => inPages page count c.page && c.pins != 0))
    || (before.flatMap (·.covers) ++ d.firmwareRanges).any (rangeInPages page count)

/-- The invalidation completes: caches are clear of the pages, frames they freed return to the pool,
leaves without a valid entry are free (R323, R335), and a page set DAMAGED has its invalidation. -/
def Dev.invalidateDone (d : Dev) (page count : Nat) : Dev :=
  let d := d.dropCached page count
  let (back, stay) := d.hbm.limbo.partition (fun e => inPages page count e.1)
  let d := d.each back (fun d (_, pfn) => d.setFrame pfn { d.frame pfn with used := false, page := 0 })
  let d := { d with hbm.limbo := stay, hbm.pendInv := d.hbm.pendInv.filter (fun p => !inPages page count p) }
  let d := d.each d.hbm.leaves (fun d (i, x) =>
    if x = 0 ∨ d.leafLive (leafFlat i) ∨ stay.any (fun e => dirIx e.1 == x - 1) then d
    else { d with hbm.leaves := smapSet zeroDflt d.hbm.leaves i 0 }.store (d.catBase + 8 * (x - 1)) (leBytes 8 0))
  d.bump HMC.CAT_INVALIDATIONS.COUNT 1

/-! ## Damaged pages (R185) -/

/-- Complete the invalidations of pages set DAMAGED that nothing holds up any more (R335). -/
def Dev.pendServe (d : Dev) : Dev :=
  d.each (d.hbm.pendInv.filter (fun p => !d.invalidateHeld p 1 d.cmd.inflight)) (fun d p => d.invalidateDone p 1)

/-- Set the DAMAGED bit of a page's catalogue entry; its invalidation begins, and ends when what holds it up has ended
(R335). -/
def Dev.markDamaged (d : Dev) (page : Nat) : Dev :=
  let w := d.walk page
  if dirEntOk w.1 && bit w.1 0 && entValid w.2 then
    let d := (d.store (dirLeaf w.1 + 16 * leafIx page) (leBytes 16 (w.2 ||| 16))).dropCached page 1
    { d with hbm.pendInv := d.hbm.pendInv ++ [page] }.pendServe
  else d

/-- Weak frames in use: an UNMAP or a STEP_END has come (R345). -/
def Dev.weakDue (d : Dev) : Dev :=
  { d with hbm.frames := d.hbm.frames.map (fun (e : Nat × Frame) => (e.1, if e.2.weak && e.2.used then { e.2 with due := true } else e.2)) }

end Sys2Proof.Machine
end

