-- ==== Sys2Proof/Machine/Tessera.lean ====
section
/-! DEFINITION. The tessera format (R160 to R174, R178, R179, R188): stream headers, segments,
block modes, the encoder's choice and the decoder's checks, as pure functions. Every codec instance
applies these and no others (R159). -/

namespace Sys2Proof.Machine

/-! ## CRC-32C (R162) -/

/-- One bit of the reflected Castagnoli division. -/
def crcStep (c : Nat) : Nat := if c % 2 = 1 then (c >>> 1) ^^^ 0x82F63B78 else c >>> 1

/-- One byte. -/
def crcByte (c : Nat) (b : Byte) : Nat :=
  crcStep (crcStep (crcStep (crcStep (crcStep (crcStep (crcStep (crcStep (c ^^^ b.toNat))))))))

/-- CRC-32C: reflected, initial value and final XOR all ones. -/
def crc32c (bs : Bytes) : Nat := (bs.foldl crcByte 0xFFFFFFFF) ^^^ 0xFFFFFFFF

/-! ## Formats -/

/-- May a tessera stream hold this format (R160)? -/
def tessFmt (fmt : Nat) : Bool := decide (1 ≤ fmt ∧ fmt ≤ 8)

/-- Bits per element code. -/
def tessWidth (fmt : Nat) : Nat :=
  match groupOfCode fmt with
  | some g => gWidth g
  | none => elemBits fmt

/-- Scale bytes per block. -/
def tessScales (fmt : Nat) : Nat := if (groupOfCode fmt).isSome then 2 else 0

/-- A decoded block: 64 element codes, and the scale bytes of its two groups in the group formats. -/
structure Block where
  codes : List Nat
  scales : List Nat
  deriving DecidableEq, Repr

/-- A codec fault (R182, R191): its status, block index, LEN, size per R171 and MODE. -/
structure TFault where
  status : Nat
  block : Nat
  declared : Nat
  computed : Nat
  mode : Nat
  deriving DecidableEq, Repr

/-- The raw payload size of a format. -/
def tessRaw (fmt : Nat) : Nat := tessScales fmt + 8 * tessWidth fmt

/-- Is a mode defined and permitted for the format, with its PARAM in range (R169)? -/
def tessModeOk (fmt mode param : Nat) : Bool :=
  match mode with
  | 0 | 1 | 2 | 3 => param == 0
  | 4 => (fmt == 1 || fmt == 2) && decide (1 ≤ param ∧ param ≤ 3)
  | 5 => fmt == 8 && decide (1 ≤ param ∧ param ≤ 7)
  | _ => false

/-- The payload size a mode, PARAM and format determine (R171); m is a SPARSE mask's population. -/
def tessSize (fmt mode param m : Nat) : Nat :=
  let c := tessScales fmt
  let w := tessWidth fmt
  match mode with
  | 0 => c + 8 * w
  | 1 => c
  | 2 => c + (if w = 16 then 2 else 1)
  | 3 => c + 8 + ceilDiv (w * m) 8
  | 4 => 2 ^ param + 8 * param + 64
  | 5 => 8 * param
  | _ => 0

/-! ## Encoding a block (R170, R172) -/

/-- The distinct high bytes of 16-bit codes, ascending. -/
def highBytes (codes : List Nat) : List Nat :=
  (List.range 256).filter (fun h => codes.any (fun c => c / 256 == h))

/-- May the codes be held in a mode exactly? -/
def tessHolds (fmt mode param : Nat) (codes : List Nat) : Bool :=
  match mode with
  | 0 => true
  | 1 => codes.all (· == 0)
  | 2 => codes.all (· == codes.headD 0)
  | 3 => decide (tessSize fmt 3 0 (codes.filter (· != 0)).length ≤ tessRaw fmt)
  | 4 => decide ((highBytes codes).length ≤ 2 ^ param)
  | 5 => codes.all (fun c => wrap 8 (sext param c) == c)
  | _ => false

/-- The modes and parameters in the order ties are broken (R172). -/
def tessModes : List (Nat × Nat) :=
  [(0, 0), (1, 0), (2, 0), (3, 0), (4, 1), (4, 2), (4, 3), (5, 1), (5, 2), (5, 3), (5, 4), (5, 5), (5, 6), (5, 7)]

/-- The mode, PARAM and size an encoder chooses (R172). -/
def tessChoose (fmt : Nat) (codes : List Nat) : Nat × Nat × Nat :=
  let m := (codes.filter (· != 0)).length
  tessModes.foldl (fun best (mp : Nat × Nat) =>
    if tessModeOk fmt mp.1 mp.2 && tessHolds fmt mp.1 mp.2 codes
        && decide (tessSize fmt mp.1 mp.2 m < best.2.2)
    then (mp.1, mp.2, tessSize fmt mp.1 mp.2 m) else best) (0, 0, tessRaw fmt)

/-- The payload of a block in a mode (R170). -/
def tessPayload (fmt mode param : Nat) (b : Block) : Bytes :=
  let w := tessWidth fmt
  let sc := b.scales.map (BitVec.ofNat 8)
  sc ++ match mode with
  | 0 =>
    if (groupOfCode fmt).isSome then packCodes w (b.codes.take 32) ++ packCodes w (b.codes.drop 32)
    else packCodes w b.codes
  | 1 => []
  | 2 => leBytes (if w = 16 then 2 else 1) (b.codes.headD 0)
  | 3 => packCodes 1 (b.codes.map (fun c => if c = 0 then 0 else 1)) ++ packCodes w (b.codes.filter (· != 0))
  | 4 =>
    let hs := highBytes b.codes
    let dict := hs ++ List.replicate (2 ^ param - hs.length) (hs.getLastD 0)
    dict.map (BitVec.ofNat 8)
      ++ packCodes param (b.codes.map (fun c => (hs.findIdx? (· == c / 256)).getD 0))
      ++ b.codes.map (fun c => BitVec.ofNat 8 c)
  | 5 => packCodes param b.codes
  | _ => []

/-- The header (R168) and payload an encoder writes for a block. -/
def tessEncode (fmt : Nat) (b : Block) : Nat × Bytes :=
  let (mode, param, len) := tessChoose fmt b.codes
  (len * 256 + param * 16 + mode, tessPayload fmt mode param b)

/-! ## Decoding a block (R170, R171, R179) -/

/-- The tail lanes of a block with `live` elements are code 0, and groups of tail lanes only have
scale 0x00 (R167). -/
def tessTailOk (b : Block) (live : Nat) : Bool :=
  (b.codes.drop live).all (· == 0) && (decide (live > 32) || b.scales.getD 1 0 == 0)

/-- Decode a block of `live` elements from its header and payload. -/
def tessDecode (fmt hdr : Nat) (pay : Bytes) (ix live : Nat) : Except TFault Block :=
  let mode := bits hdr 3 0
  let param := bits hdr 7 4
  let len := bits hdr 15 8
  let c := tessScales fmt
  let w := tessWidth fmt
  let body := pay.drop c
  let mask := le body 0 8
  let m := popCount mask 64
  let size := tessSize fmt mode param m
  if !tessModeOk fmt mode param then .error ⟨0x0303, ix, len, min 255 size, mode⟩
  else
    let bad : Except TFault Block := .error ⟨0x0302, ix, len, min size 255, mode⟩
    if len ≠ size ∨ len > tessRaw fmt ∨ pay.length < len then bad
    else
      let scales := (pay.take c).map (·.toNat)
      let nz := unpackCodes w m ((body.drop 8))
      let codes : List Nat := match mode with
        | 0 => if (groupOfCode fmt).isSome then unpackCodes w 32 body ++ unpackCodes w 32 (body.drop (4 * w))
               else unpackCodes w 64 body
        | 1 => List.replicate 64 0
        | 2 => List.replicate 64 (le body 0 (if w = 16 then 2 else 1) % 2 ^ w)
        | 3 => (List.range 64).map (fun k => if mask.testBit k then nz.getD (popCount mask k) 0 else 0)
        | 4 => (List.range 64).map (fun k =>
            let ixs := le body (2 ^ param) (8 * param)
            (body.getD (bits ixs (param * k + param - 1) (param * k)) 0).toNat * 256
              + (body.getD (2 ^ param + 8 * param + k) 0).toNat)
        | _ => (unpackCodes param 64 body).map (fun x => wrap 8 (sext param x))
      let spare : Bool := match mode with
        | 2 => decide (w < 8) && decide (le body 0 1 ≥ 2 ^ w)
        | 3 => decide (le body 8 (len - c - 8) ≥ 2 ^ (w * m))
        | _ => false
      let b : Block := ⟨codes, scales⟩
      if spare || !tessTailOk b live then bad else .ok b

/-! ## Segments and streams (R161 to R167) -/

/-- The offsets of payloads of the given lengths in a segment (R165), and the cursor after them. -/
def tessPlace : Nat → List Nat → List Nat × Nat
  | cur, [] => ([], cur)
  | cur, l :: ls =>
    let c := if l > 0 ∧ cur % 128 + l > 128 then (cur / 128 + 1) * 128 else cur
    let (os, e) := tessPlace (c + l) ls
    (c :: os, e)

/-- The length of a segment whose payloads end at a cursor. -/
def segLen (cur : Nat) : Nat := (cur + 127) / 128 * 128

/-- The bytes of one segment. -/
def tessSegment (fmt : Nat) (bs : List Block) : Bytes :=
  let es := bs.map (tessEncode fmt)
  let (os, cur) := tessPlace 64 (es.map (·.2.length))
  let heads := (es.flatMap (fun e => leBytes 2 e.1)) ++ zeros (64 - 2 * es.length)
  let body := (os.zip (es.map (·.2))).foldl (fun acc (o, p) => acc ++ zeros (o - acc.length) ++ p) heads
  body ++ zeros (segLen cur - body.length)

/-- Split a list into runs of n (with `fuel` runs at most). -/
def chunksOf {α : Type} (n : Nat) : Nat → List α → List (List α)
  | 0, _ => []
  | fuel + 1, xs => if xs.isEmpty then [] else xs.take n :: chunksOf n fuel (xs.drop n)

/-- Blocks of 64 from element codes, the last padded with code 0 and whole tail groups with scale 0
(R167); `scales` gives the scale byte of each group of 32. -/
def tessBlocks (fmt : Nat) (codes scales : List Nat) : List Block :=
  let cs := chunksOf 64 (ceilDiv codes.length 64) codes
  cs.zipIdx.map (fun (c, i) =>
    ⟨c ++ List.replicate (64 - c.length) 0,
     if tessScales fmt = 0 then [] else [scales.getD (2 * i) 0, scales.getD (2 * i + 1) 0]⟩)

/-- A stream header line (R162). -/
def tessHeader (fmt elems first tensor bytes dir : Nat) (closed : Bool) : Bytes :=
  let h := leBytes 2 0x5354 ++ leBytes 1 1 ++ leBytes 1 (fmt + (if closed then 16 else 0)) ++ leBytes 6 elems
    ++ leBytes 6 first ++ leBytes 4 tensor ++ zeros 4 ++ leBytes 8 bytes ++ leBytes 8 dir ++ zeros 20
  h ++ leBytes 4 (crc32c h) ++ zeros 64

/-- Blocks of a stream of `elems` elements, and its segments. -/
def tessBlockCount (elems : Nat) : Nat := ceilDiv elems 64
def tessSegCount (elems : Nat) : Nat := ceilDiv (tessBlockCount elems) 32

/-- The worst-case size of a stream (R188). -/
def tessWorst (elems : Nat) (closed : Bool) : Nat :=
  let s := tessSegCount elems
  128 + 4224 * s + (if closed then alignUp (4 * s) 128 else 0)

/-- A whole stream from its element codes and group scales (R161 to R167). -/
def tessStream (fmt first tensor : Nat) (closed : Bool) (codes scales : List Nat) : Bytes :=
  let bs := tessBlocks fmt codes scales
  let segs := (chunksOf 32 (ceilDiv bs.length 32) bs).map (tessSegment fmt)
  let body := segs.flatten
  let starts := (segs.foldl (fun (acc : List Nat × Nat) sg => (acc.1 ++ [acc.2], acc.2 + sg.length)) ([], 128)).1
  let dirOff := 128 + body.length
  let dir := starts.flatMap (fun s => leBytes 4 (s / 128))
  let total := dirOff + alignUp (4 * segs.length) 128
  if closed then
    tessHeader fmt codes.length first tensor total dirOff true ++ body ++ dir ++ zeros (total - dirOff - dir.length)
  else tessHeader fmt codes.length first tensor 0 0 false ++ body

/-- The fields of a stream header a decoder uses. -/
structure THeader where
  elems : Nat
  first : Nat
  tensor : Nat
  closed : Bool
  bytes : Nat
  dirOff : Nat
  deriving DecidableEq, Repr

/-- Check a stream header line against the format named (R179, in its order); a format that no stream holds
is refused (R160). -/
def tessReadHeader (fmt : Nat) (h : Bytes) : Except TFault THeader :=
  let bad (st : Nat) : Except TFault THeader := .error ⟨st, 0xFFFFFFFF, 0, 0, 0⟩
  let f3 := le h 3 1
  let hd : THeader := ⟨le h 4 6, le h 10 6, le h 16 4, bit f3 4, le h 24 8, le h 32 8⟩
  if !tessFmt fmt then bad 0x0304
  else if crc32c (slice h 0 60) ≠ le h 60 4 then bad 0x0301
  else if le h 0 2 ≠ 0x5354 ∨ le h 2 1 ≠ 1 ∨ bits f3 7 5 ≠ 0 ∨ le h 20 4 ≠ 0 ∨ le h 40 20 ≠ 0
      ∨ hd.elems = 0 ∨ hd.first + hd.elems > 2 ^ 48 then bad 0x0301
  else if hd.closed ∧ hd.bytes ≠ hd.dirOff + alignUp (4 * tessSegCount hd.elems) 128 then bad 0x0301
  else if !hd.closed ∧ (hd.bytes ≠ 0 ∨ hd.dirOff ≠ 0) then bad 0x0301
  else if bits f3 3 0 ≠ fmt then bad 0x0304
  else .ok hd

/-- A read of `n` bytes at an offset of a stream's extent. -/
abbrev Rd := Nat → Nat → Bytes

/-- The size per R171 of a block whose payload falls beyond `room` bytes: of a SPARSE block whose mask is not
read, an unstated value (log 24). -/
def tessPastSize (fmt hdr room ix : Nat) (pay : Bytes) : Nat :=
  let c := tessScales fmt
  if bits hdr 3 0 = 3 ∧ room < c + 8 then Config.free ix % 256
  else min 255 (tessSize fmt (bits hdr 3 0) (bits hdr 7 4) (popCount (le pay c 8) 64))

/-- The headers of segment s, the offsets of its payloads and its end, given its start. -/
def tessHeads (rd : Rd) (hd : THeader) (s start : Nat) : List Nat × List Nat × Nat :=
  let n := min 32 (tessBlockCount hd.elems - 32 * s)
  let heads := (List.range n).map (fun i => leNat (rd (start + 2 * i) 2))
  let (os, cur) := tessPlace 64 (heads.map (fun h => bits h 15 8))
  (heads, os, start + segLen cur)

/-- Decode the blocks of segment s that lie in [lo, hi], given the segment's start and the length of the
extent; also the segment's computed end. -/
def tessReadSegment (rd : Rd) (fmt lim : Nat) (hd : THeader) (s start lo hi : Nat) :
    Except TFault (List Block × Nat) :=
  let n := min 32 (tessBlockCount hd.elems - 32 * s)
  let (heads, os, stop) := tessHeads rd hd s start
  let lim := if hd.closed then hd.bytes else lim
  let ixs := (List.range n).filter (fun i => decide (lo ≤ 32 * s + i ∧ 32 * s + i ≤ hi))
  let past := fun (i : Nat) => decide (lim < start + os.getD i 0 + bits (heads.getD i 0) 15 8)
  let blks : Except TFault (List Block) := ixs.foldl (fun acc i =>
    match acc with
    | .error e => .error e
    | .ok bs =>
      let h := heads.getD i 0
      let ix := 32 * s + i
      if lim < start + 2 * n then .error ⟨0x0302, ix, 0, 0, 0⟩
      else if past i then
        .error ⟨0x0302, ix, bits h 15 8, tessPastSize fmt h (lim - (start + os.getD i 0)) ix (rd (start + os.getD i 0) 10), bits h 3 0⟩
      else match tessDecode fmt h (rd (start + os.getD i 0) (bits h 15 8)) ix (min 64 (hd.elems - 64 * ix)) with
        | .error e => .error e
        | .ok b => .ok (bs ++ [b])) (.ok [])
  match blks with
  | .error e => .error e
  | .ok bs =>
    if hd.closed then
      let want := if s + 1 < tessSegCount hd.elems then 128 * leNat (rd (hd.dirOff + 4 * (s + 1)) 4) else hd.dirOff
      if stop ≠ want then .error ⟨0x0302, 32 * s + n - 1, 0, 0, 0⟩ else .ok (bs, stop)
    else .ok (bs, stop)

/-- Decode blocks lo to hi, walking `n` segments from segment s at `start`. -/
def tessReadSegs (rd : Rd) (fmt lim : Nat) (hd : THeader) (lo hi : Nat) :
    Nat → Nat → Nat → Except TFault (List Block)
  | 0, _, _ => .ok []
  | n + 1, s, start =>
    match tessReadSegment rd fmt lim hd s start lo hi with
    | .error e => .error e
    | .ok (bs, stop) =>
      match tessReadSegs rd fmt lim hd lo hi n (s + 1) stop with
      | .error e => .error e
      | .ok rest => .ok (bs ++ rest)

/-- The start of a closed stream's segment from the directory; an open stream is entered at segment 0. -/
def tessEntry (rd : Rd) (hd : THeader) (s : Nat) : Nat :=
  if hd.closed then 128 * leNat (rd (hd.dirOff + 4 * s) 4) else 128

/-- The start of segment k + n of a stream whose segment k starts at `start`. -/
def segStart (rd : Rd) (hd : THeader) : Nat → Nat → Nat → Nat
  | 0, _, start => start
  | n + 1, k, start => segStart rd hd n (k + 1) (tessHeads rd hd k start).2.2

/-- The offset of the segment that holds a faulting block (R185): the header line for a header fault. -/
def tessFaultSeg (rd : Rd) (fmt block : Nat) : Nat :=
  match tessReadHeader fmt (rd 0 128) with
  | .error _ => 0
  | .ok hd =>
    if tessBlockCount hd.elems ≤ block then 0
    else if hd.closed then tessEntry rd hd (block / 32)
    else segStart rd hd (block / 32) 0 128

/-- Is entry at block `lo` refused: into an open stream beyond segment 0 (R178)? -/
def noEntry (hd : THeader) (lo : Nat) : Bool := !hd.closed && lo / 32 != 0

/-- Decode blocks lo to hi of a stream of at most `lim` bytes, entering a closed stream through its directory
and an open one at segment 0 only (R178, 0x0306). -/
def tessRead (rd : Rd) (fmt lim lo hi : Nat) : Except TFault (THeader × List Block) :=
  match tessReadHeader fmt (rd 0 128) with
  | .error e => .error e
  | .ok hd =>
    let hi := min hi (tessBlockCount hd.elems - 1)
    let s0 := lo / 32
    if noEntry hd lo then .error ⟨0x0306, lo, 0, 0, 0⟩
    else
      match tessReadSegs rd fmt lim hd lo hi (hi / 32 + 1 - s0) s0 (tessEntry rd hd s0) with
      | .error e => .error e
      | .ok bs => .ok (hd, bs)

/-! ## What a decode reads (R176, R228) -/

/-- A read of a decode: the block it serves (for a segment's headers the first one wanted, for the next
directory entry the segment's last), the offset and the length. -/
abbrev TRead := Nat × Nat × Nat

/-- The reads of blocks lo to hi in `n` segments from segment s at `start`. -/
def tessSegReads (rd : Rd) (hd : THeader) (lo hi : Nat) : Nat → Nat → Nat → List TRead
  | 0, _, _ => []
  | n + 1, s, start =>
    let (heads, os, stop) := tessHeads rd hd s start
    let pays : List TRead := ((List.range heads.length).filter (fun i => decide (lo ≤ 32 * s + i ∧ 32 * s + i ≤ hi))).map
      (fun i => (32 * s + i, start + os.getD i 0, bits (heads.getD i 0) 15 8))
    (max lo (32 * s), start, 64) :: pays
      ++ (if hd.closed ∧ s + 1 < tessSegCount hd.elems then [(32 * s + heads.length - 1, hd.dirOff + 4 * (s + 1), 4)] else [])
      ++ tessSegReads rd hd lo hi n (s + 1) stop

/-- The reads of `tessRead` in order, up to the block that fails: the header, the directory entry, then the
segments. -/
def tessReads (rd : Rd) (fmt lo hi : Nat) (r : Except TFault (THeader × List Block)) : List TRead :=
  match tessReadHeader fmt (rd 0 128) with
  | .error _ => [(lo, 0, 128)]
  | .ok hd =>
    let hi := min hi (tessBlockCount hd.elems - 1)
    let stop := match r with
      | .error e => e.block
      | .ok _ => hi
    if noEntry hd lo then [(lo, 0, 128)]
    else ((lo, 0, 128) :: (if hd.closed then [(lo, hd.dirOff + 4 * (lo / 32), 4)] else [])
      ++ tessSegReads rd hd lo hi (hi / 32 + 1 - lo / 32) (lo / 32) (tessEntry rd hd (lo / 32))).filter (fun e => decide (e.1 ≤ stop))

/-- The element codes of decoded blocks, and the scale byte of each group of 32. -/
def blockCodes (bs : List Block) : List Nat := bs.flatMap (·.codes)
def blockScales (bs : List Block) : List Nat := bs.flatMap (·.scales)

/-- The exact value of element code c of a format, under its group's scale byte. -/
def tessVal (fmt scale c : Nat) : Val :=
  match groupOfCode fmt with
  | some g => gDecode g scale c
  | none => elemDecode fmt c

/-- The values of a stream's elements from codes and scales. -/
def tessVals (fmt : Nat) (codes scales : List Nat) : List Val :=
  codes.zipIdx.map (fun (c, i) => tessVal fmt (scales.getD (i / 32) 0) c)

end Sys2Proof.Machine
end

