-- ==== Sys2Proof/Machine/CfiWire.lean ====
section
/-! DEFINITION. The cell ports and the transport (R391 to R401): byte ranges received, IPv6 and UDP
frames, port rotation and PFC, transport frames out and in, delivery, acknowledgement and rates. -/

namespace Sys2Proof.Machine

/-! ## Byte ranges -/

/-- Add [a, a+n) to ascending disjoint ranges (start, end), joining what touches. -/
def ivAdd : List (Nat × Nat) → Nat → Nat → List (Nat × Nat)
  | [], a, b => if a < b then [(a, b)] else []
  | (x, y) :: rs, a, b =>
    if b < x then (if a < b then (a, b) :: (x, y) :: rs else (x, y) :: rs)
    else if y < a then (x, y) :: ivAdd rs a b
    else ivAdd rs (min a x) (max b y)

/-- Do the ranges hold all of [a, b)? -/
def ivHas (rs : List (Nat × Nat)) (a b : Nat) : Bool := decide (b ≤ a) || rs.any (fun r => decide (r.1 ≤ a ∧ b ≤ r.2))

/-- The bytes held from 0 without a gap. -/
def ivPrefix (rs : List (Nat × Nat)) : Nat := match rs with
  | (0, y) :: _ => y
  | _ => 0

/-! ## Ports -/

/-- Is a cell port able to send (R392, R421)? A port under review is down (R597). -/
def Dev.cellUp (d : Dev) (p : Nat) : Bool :=
  decide (p < cellPorts d.code) && d.flag (CFI.PORT_STATE.UP p) && d.flag (CFI.PORT_STATE.ENABLE p) && !d.csv.reviews.contains (uCell p)

/-- The cell ports that are up. -/
def Dev.cellUps (d : Dev) : List Nat := (List.range (cellPorts d.code)).filter (d.cellUp ·)

/-- Capacity of the ports that are up, in GB/s (R391: 100 GB/s a port). -/
def Dev.cellCap (d : Dev) : Nat := 100 * d.cellUps.length

/-- The MAC address of cell port p, and with p = 16 + q of far port q (R392). -/
def portMac (p : Nat) : Nat := Config.macBase.toNat / 32 * 32 + p

/-- The IPv6 address of a cell port. -/
def Dev.cellIp (d : Dev) (p : Nat) : Nat :=
  ((d.get (CFI.PORT_IP6.ADDR p 0) * 2 ^ 32 + d.get (CFI.PORT_IP6.ADDR p 1)) * 2 ^ 32
    + d.get (CFI.PORT_IP6.ADDR p 2)) * 2 ^ 32 + d.get (CFI.PORT_IP6.ADDR p 3)

/-- The gateway MAC of a cell port. -/
def Dev.cellGw (d : Dev) (p : Nat) : Nat := d.get2 (CFI.PORT_GW_LO.MAC p) (CFI.PORT_GW_HI.MAC p)

/-- The 802.1Q priority of a DSCP: its class selector (PRESUMED, log 27). -/
def dscpPrio (dscp : Nat) : Nat := dscp / 8

/-- Does a PFC pause hold a port's priority now (R394)? -/
def Dev.paused (d : Dev) (p prio : Nat) : Bool := decide (d.now < smapGet zeroDflt d.cfi.paused (8 * p + prio))

/-- The ports in rotation that are up and not paused for a priority, the next one first (R398). -/
def Dev.portRing (d : Dev) (prio : Nat) : List Nat :=
  ((List.range 16).map (fun i => (d.cfi.rot + 1 + i) % 16)).filter (fun p => d.cellUp p && !d.paused p prio)
def Dev.nextPort (d : Dev) (prio : Nat) : Option Nat := (d.portRing prio).head?

/-- The next port other than one to avoid, or that one when no other may be used (R399). -/
def Dev.nextPortBut (d : Dev) (prio : Nat) (avoid : Option Nat) : Option Nat :=
  match (d.portRing prio).find? (fun p => some p != avoid) with
  | some p => some p
  | none => d.nextPort prio

/-! ## Path entropies (R398) -/

def pathDflt : Nat → PortPaths := fun _ => ⟨0, [], []⟩
def Dev.portPaths (d : Dev) (p : Nat) : PortPaths := smapGet pathDflt d.cfi.paths p
def Dev.setPaths (d : Dev) (p : Nat) (v : PortPaths) : Dev := { d with cfi.paths := smapSet pathDflt d.cfi.paths p v }

/-- An entropy below 16,384 that the port neither uses nor has retired: free but for that. -/
def Dev.freshEntropy (d : Dev) (p : Nat) : Nat × Dev :=
  let pp := d.portPaths p
  let taken := pp.ents.map (·.value) ++ (pp.retired.filter (fun e => decide (d.now < e.2))).map (·.1)
  let (v, d) := d.draw
  ((((List.range (taken.length + 1)).map (fun i => (v + i) % 16384)).find? (fun x => !taken.contains x)).getD 0, d)

/-- The entropy of the next frame of a port: 16 in a cycle, not the one to avoid. -/
def Dev.pathNext (d : Dev) (p : Nat) (avoid : Option Nat) : Nat × Dev :=
  let pp := d.portPaths p
  let i := pp.next % 16
  let i := if ((pp.ents[i]?).map (·.value)).isSome ∧ (pp.ents[i]?).map (·.value) = avoid then (i + 1) % 16 else i
  match pp.ents[i]? with
  | some e => (e.value, d.setPaths p { pp with next := (i + 1) % 16 })
  | none =>
    let (v, d) := d.freshEntropy p
    (v, d.setPaths p { pp with next := (pp.ents.length + 1) % 16, ents := pp.ents ++ [⟨v, [], 0⟩] })

/-- The median of the round-trip times of a port's paths, of those that have one (log 88). -/
def pathMedian (es : List PathEnt) : Nat :=
  let ts := sortBy (fun (a b : Nat) => decide (a ≤ b)) ((es.map (·.rtt)).filter (· != 0))
  ts.getD ((ts.length - 1) / 2) 0

/-- Is a path to be retired: above 1 % of its last 10,000 frames lost, or a round-trip time above 4 times the port's
median? -/
def PathEnt.bad (e : PathEnt) (es : List PathEnt) : Bool :=
  decide (100 < (e.lost.filter (· == true)).length) || decide (4 * pathMedian es < e.rtt)

/-- What became of a frame on a path: lost, or acknowledged after some time. A path that is bad is replaced by a fresh
one and retired for 100 ms. -/
def Dev.pathNote (d : Dev) (p v : Nat) (lost : Bool) (rtt : Option Nat) : Dev :=
  let pp := d.portPaths p
  let note (e : PathEnt) : PathEnt := if e.value = v then { e with lost := (lost :: e.lost).take 10000, rtt := rtt.getD e.rtt } else e
  let es := pp.ents.map note
  let d := d.setPaths p { pp with ents := es }
  if !es.any (fun e => e.value == v && e.bad es) then d
  else
    let (f, d) := d.freshEntropy p
    d.setPaths p { pp with ents := es.map (fun e => if e.value = v then ⟨f, [], 0⟩ else e),
                           retired := (v, d.now + 100000000) :: pp.retired.filter (fun e => decide (d.now < e.2)) }

/-! ## IPv6 and UDP -/

/-- The ones' complement sum of 16-bit big-endian words. -/
def onesSum : Bytes → Nat → Nat
  | [], a => a
  | [b], a => let s := a + b.toNat * 256; s % 65536 + s / 65536
  | b :: c :: bs, a => let s := a + b.toNat * 256 + c.toNat; onesSum bs (s % 65536 + s / 65536)

/-- The UDP checksum over a pseudo-header and a datagram; 0 is sent as all ones. -/
def udpSum (pseudo dgram : Bytes) : Nat :=
  let s := 65535 - onesSum (pseudo ++ dgram) 0
  if s = 0 then 65535 else s

/-- The IPv6 pseudo-header of a UDP datagram. -/
def pseudo6 (src dst len : Nat) : Bytes := beBytes 16 src ++ beBytes 16 dst ++ beBytes 4 len ++ [0, 0, 0, 17]

/-- An IPv6 packet carrying UDP: traffic class with ECT(0), hop limit 64 (R394, R395, R476). -/
def ip6Udp (src dst dscp flow sport dport : Nat) (pay : Bytes) : Bytes :=
  let len := 8 + pay.length
  let h := beBytes 2 sport ++ beBytes 2 dport ++ beBytes 2 len
  let sum := udpSum (pseudo6 src dst len) (h ++ [0, 0] ++ pay)
  beBytes 4 (6 * 2 ^ 28 + (dscp * 4 + 2) * 2 ^ 20 + flow) ++ beBytes 2 len ++ [17, 64] ++ beBytes 16 src
    ++ beBytes 16 dst ++ h ++ beBytes 2 sum ++ pay

/-- An Ethernet II frame. -/
def ether (dst src type : Nat) (pay : Bytes) : Bytes := beBytes 6 dst ++ beBytes 6 src ++ beBytes 2 type ++ pay

/-- What a received IPv6 UDP frame holds: CE mark, addresses, ports, UDP length, payload. -/
structure UdpIn where
  ce : Bool
  src : Nat
  dst : Nat
  dport : Nat
  len : Nat
  pay : Bytes
  deriving DecidableEq, Repr

/-- Read an Ethernet frame carrying IPv6 and UDP whose lengths agree, and whether its checksum does. -/
def readUdp6c (f : Bytes) : Option (UdpIn × Bool) :=
  let ip := f.drop 14
  let len := be ip 4 2
  let dg := (ip.drop 40).take len
  let src := be ip 8 16
  let dst := be ip 24 16
  if be f 12 2 = 0x86DD ∧ be ip 0 1 / 16 = 6 ∧ be ip 6 1 = 17 ∧ 8 ≤ len ∧ be dg 4 2 = len ∧ dg.length = len then
    some (⟨be ip 0 2 / 16 % 4 == 3, src, dst, be dg 2 2, len, dg.drop 8⟩, onesSum (pseudo6 src dst len ++ dg) 0 == 65535)
  else none

/-- The same of a frame whose checksum agrees. -/
def readUdp6 (f : Bytes) : Option UdpIn := match readUdp6c f with | some (u, true) => some u | _ => none

/-! ## Transport frames (R395, R396) -/

/-- The transport header and payload of a frame. -/
structure TFrame where
  type : Nat
  flags : Nat
  cls : Nat
  src : Nat
  dst : Nat
  tag : Nat
  seq : Nat
  psn : Nat
  off : Nat
  len : Nat
  grant : Nat
  data : Bytes
  deriving DecidableEq, Repr

def ftDATA : Nat := 1
def ftACK : Nat := 2
def ftREADY : Nat := 3
def ftGRANT : Nat := 4
def ftCREDIT : Nat := 5

/-- The header and payload as sent, with the ICRC (R397). -/
def tframeBytes (f : TFrame) : Bytes :=
  let b := beBytes 1 (16 + f.type) ++ beBytes 1 f.flags ++ beBytes 1 f.cls ++ [0] ++ beBytes 2 f.src ++ beBytes 2 f.dst
    ++ beBytes 4 f.tag ++ beBytes 4 f.seq ++ beBytes 4 f.psn ++ beBytes 6 f.off ++ beBytes 2 f.data.length
    ++ beBytes 4 f.grant ++ f.data
  b ++ beBytes 4 (crc32c b)

/-- Is the ICRC of a transport frame right (R397)? -/
def icrcOk (b : Bytes) : Bool := decide (36 ≤ b.length) && be b (b.length - 4) 4 == crc32c (b.take (b.length - 4))

/-- Read a transport frame whose ICRC is right: version, reserved bits and length must be too. -/
def readTframe (b : Bytes) : Option TFrame :=
  let n := b.length - 4
  if icrcOk b ∧ be b 0 1 / 16 = 1 ∧ be b 1 1 < 8 ∧ be b 2 1 ≤ 1 ∧ be b 3 1 = 0 ∧ be b 26 2 + 32 = n ∧ be b 26 2 ≤ 4096 then
    some ⟨be b 0 1 % 16, be b 1 1, be b 2 1, be b 4 2, be b 6 2, be b 8 4, be b 12 4, be b 16 4, be b 20 6, be b 26 2,
      be b 28 4, (b.drop 32).take (be b 26 2)⟩
  else none

/-- The IPv6 device prefix of a cell rank (R402). -/
def Dev.prefixOf (d : Dev) (rank : Nat) : Nat := d.cfi.prefixes.getD rank 0

/-- Own cell rank (R402). -/
def Dev.rank (d : Dev) : Nat := d.get CFI.CELL.RANK

/-- Send a transport frame on the next port of the rotation and its next path, addressed to the same port of the peer
(R398, log 27), by a port or path other than one to avoid when another can be used (R399). Gives the port and the path;
none is sent while no port can. -/
def Dev.sendTframe (d : Dev) (f : TFrame) (avoid : Option (Nat × Nat)) : Dev × Option (Nat × Nat) :=
  let dscp := if f.type = ftDATA then d.get CFI.DSCP.DATA else d.get CFI.DSCP.CTRL
  match d.nextPortBut (dscpPrio dscp) (avoid.map (·.1)) with
  | none => (d, none)
  | some p =>
    let (e, d) := d.pathNext p (match avoid with | some (q, v) => if q = p then some v else none | none => none)
    let pkt := ip6Udp (d.cellIp p) (d.prefixOf f.dst + p) dscp e (0xC000 + e) (d.get CFI.CTL.UDP_PORT) (tframeBytes f)
    let d := { d with cfi.rot := p }
    ((d.emit (.cellFrame p (ether (d.cellGw p) (portMac p) 0x86DD pkt))).bump (CFI.PORT_TX.COUNT p) 1, some (p, e))

/-- Hold a frame that no port may send now (R394). -/
def Dev.holdFrame (d : Dev) (h : HeldFrame) : Dev := { d with cfi.held := d.cfi.held ++ [h] }

/-- Send a frame of the response channel (R401); it waits while no port may send it. -/
def Dev.sendCtl (d : Dev) (type flags cls rank tag seq grant : Nat) (data : Bytes) : Dev :=
  match d.sendTframe ⟨type, flags, cls, d.rank, rank, tag, seq, 0, 0, data.length, grant, data⟩ none with
  | (d, some _) => d
  | (d, none) => d.holdFrame (.ctl type flags cls rank tag seq grant data)

/-- Send a frame of a priority on a cell port; it waits while the port is paused for it. A Delay_Req is stamped as it
leaves (R579). -/
def Dev.cellOut (d : Dev) (p prio : Nat) (f : Bytes) (req : Option Nat) : Dev :=
  if d.paused p prio then d.holdFrame (.port p prio f req)
  else
    let d := (d.emit (.cellFrame p f)).bump (CFI.PORT_TX.COUNT p) 1
    match req with
    | some seq => { d with tmu.reqOut := some (seq, d.now + d.get (TMU.PORT_LATENCY.EGRESS p)) }
    | none => d

/-- Send what a pause held, in order, as far as it may go now. -/
def Dev.flushHeld (d : Dev) : Dev :=
  Dev.each { d with cfi.held := [] } d.cfi.held (fun d h => match h with
    | .ctl type flags cls rank tag seq grant data => d.sendCtl type flags cls rank tag seq grant data
    | .port p prio f req => d.cellOut p prio f req)

/-! ## Sending (R398 to R400) -/

def txDflt : Nat → TxPeer := fun _ => ⟨0, [], [], 0⟩
def rxDflt : Nat → RxPeer := fun _ => ⟨0, [], 0, 0, 0⟩

/-- The key of a peer and class. -/
def peerKey (rank cls : Nat) : Nat := 2 * rank + cls

def Dev.txPeer (d : Dev) (k : Nat) : TxPeer := smapGet txDflt d.cfi.tx k

/-- Frames unacknowledged by a receiver, of both classes (R399). -/
def Dev.unackedTo (d : Dev) (rank : Nat) : Nat := (d.txPeer (peerKey rank 0)).unacked.length + (d.txPeer (peerKey rank 1)).unacked.length
def Dev.setTx (d : Dev) (k : Nat) (v : TxPeer) : Dev := { d with cfi.tx := smapSet txDflt d.cfi.tx k v }
def Dev.rxPeer (d : Dev) (k : Nat) : RxPeer := smapGet rxDflt d.cfi.rx k
def Dev.setRx (d : Dev) (k : Nat) (v : RxPeer) : Dev := { d with cfi.rx := smapSet rxDflt d.cfi.rx k v }

/-- The CFI's access (R327): unit bit FABRIC, unit 3. Its cache is that of the I/O die which performs it (R331): a
free value (log 8). -/
def Dev.cfiAcc (d : Dev) (addr perm dom : Nat) : Acc :=
  ⟨202 + Config.instanceOf d.now d.draws addr % ioDies d.code, some 10, perm, dom, 3⟩

def linkTxDflt : Nat → LinkTx := fun _ => ⟨0, 0, 0, false⟩
def Dev.linkTx (d : Dev) (k : Nat) : LinkTx := smapGet linkTxDflt d.cfi.linkTx k
def Dev.setLinkTx (d : Dev) (k : Nat) (v : LinkTx) : Dev := { d with cfi.linkTx := smapSet linkTxDflt d.cfi.linkTx k v }

/-- Bytes of a transfer the next frame may carry: up to 4,096, and for a link up to the credited offset
(R395, R422). A link's transfer begins at the offset its base held when it was queued, kept in `grant`. -/
def Dev.txRoom (d : Dev) (cls : Nat) (it : TxItem) : Nat :=
  let n := min 4096 (it.len - it.off)
  if cls = 0 then n
  else min n (((d.linkTx it.tag).credit + 2 ^ 32 - (it.grant + it.off) % 2 ^ 32) % 2 ^ 32)

/-- Read the next `n` bytes of a transfer; a refused or uncorrectable read gives its status and
address. -/
def Dev.txRead (d : Dev) (it : TxItem) (n : Nat) : Dev × Except (Nat × Nat) Bytes :=
  match it.src with
  | .bytes bs => (d, .ok (slice bs it.off n))
  | .mem a dom => d.fetch (d.cfiAcc (a + it.off) 1 dom) (a + it.off) n

def groupDflt : Nat → Option Group := fun _ => none
def Dev.group (d : Dev) (s : Nat) : Option Group := smapGet groupDflt d.cfi.groups s
def Dev.setGroup (d : Dev) (s : Nat) (g : Option Group) : Dev := { d with cfi.groups := smapSet groupDflt d.cfi.groups s g }

/-- Change the running collective of a slot. -/
def Dev.onColl (d : Dev) (s : Nat) (f : Coll → Coll) : Dev :=
  match d.group s with
  | some g => d.setGroup s (some { g with queue := match g.queue with | c :: cs => f c :: cs | [] => [] })
  | none => d

/-- The slot whose group has a tag and whose running collective has a sequence number. -/
def Dev.slotOf (d : Dev) (tag seq : Nat) : Option Nat :=
  (d.cfi.groups.find? (fun e => match e.2 with
    | some g => d.get (CFI.GROUP_TAG.TAG e.1) == tag && (match g.queue with | c :: _ => c.started && c.seq == seq | [] => false)
    | none => false)).map (·.1)

/-- Count bytes a group has sent in units of 1 MiB. -/
def Dev.countSent (d : Dev) (tag seq n : Nat) : Dev :=
  match d.slotOf tag seq with
  | none => d
  | some s => match d.group s with
    | none => d
    | some g =>
      let t := g.sentRem + n
      (d.setGroup s (some { g with sentRem := t % 1048576 })).bump (CFI.GROUP_BYTES.COUNT s) (t / 1048576)

/-- Put frames out while fewer than 512 are unacknowledged (R399); at most `fuel`. A transfer whose
source cannot be read ends, and its collective learns the failure. -/
def Dev.txPump (cls rank : Nat) : Nat → Dev → Dev
  | 0, d => d
  | fuel + 1, d =>
    let k := peerKey rank cls
    let p := d.txPeer k
    match p.backlog with
    | [] => d
    | it :: rest =>
      let n := d.txRoom cls it
      if it.len ≤ it.off ∧ it.len ≠ 0 then Dev.txPump cls rank fuel (d.setTx k { p with backlog := rest })
      else if 512 ≤ d.unackedTo rank ∨ (n = 0 ∧ it.len ≠ 0) ∨ (d.nextPort (dscpPrio (d.get CFI.DSCP.DATA))).isNone then d
      else match d.txRead it n with
        | (d, .error e) =>
          let d := d.setTx k { p with backlog := rest }
          Dev.txPump cls rank fuel (match (if cls = 0 then d.slotOf it.tag it.seq else none) with
            | some s => d.onColl s (fun c => { c with err := some (c.err.getD e) })
            | none => d)
        | (d, .ok bs) =>
          let last := decide (it.off + n = it.len)
          let g := if cls = 1 then 0 else it.grant
          let (d, way) := d.sendTframe ⟨ftDATA, b2n last, cls, d.rank, rank, it.tag, it.seq, p.next, it.off, n, g, bs⟩ none
          let fr : TxFrame := ⟨p.next, it.tag, it.seq, g, it.off, last, bs, d.now, 0, false, (way.getD (0, 0)).1, (way.getD (0, 0)).2⟩
          let d := d.when (cls == 0) (·.countSent it.tag it.seq n)
          let left := if last then rest else { it with off := it.off + n } :: rest
          Dev.txPump cls rank fuel (d.setTx k { p with next := (p.next + 1) % 2 ^ 32, unacked := p.unacked ++ [fr], backlog := left })

/-- Fuel for a pump: frames the window takes and transfers that may end. -/
def Dev.pumpFuel (d : Dev) (k : Nat) : Nat := 513 + 2 * (d.txPeer k).backlog.length

/-- Queue a transfer to a peer and put out what the window allows. -/
def Dev.txAdd (d : Dev) (cls rank : Nat) (it : TxItem) : Dev :=
  let k := peerKey rank cls
  let d := d.setTx k { d.txPeer k with backlog := (d.txPeer k).backlog ++ [it] }
  Dev.txPump cls rank (d.pumpFuel k) d

/-- Does any frame or transfer of (tag, seq) remain towards a peer key? -/
def TxPeer.holds (p : TxPeer) (tag seq : Nat) : Bool :=
  p.backlog.any (fun i => i.tag == tag && i.seq == seq) || p.unacked.any (fun f => f.tag == tag && f.seq == seq)

/-- Is everything of a collective acknowledged (R415)? -/
def Dev.txQuiet (d : Dev) (tag seq : Nat) : Bool := d.cfi.tx.all (fun e => e.1 % 2 != 0 || !e.2.holds tag seq)

/-- Drop what is left of a collective that has ended (R420). -/
def Dev.txDrop (d : Dev) (tag seq : Nat) : Dev :=
  d.each (d.cfi.tx.filter (fun e => e.1 % 2 == 0)) (fun d e => d.setTx e.1 { e.2 with
    backlog := e.2.backlog.filter (fun i => !(i.tag == tag && i.seq == seq)),
    unacked := e.2.unacked.filter (fun f => !(f.tag == tag && f.seq == seq)) })

/-- Send a frame again (R399), with RETX, by another port or path: it was lost on the one before. -/
def Dev.resend (d : Dev) (cls rank : Nat) (f : TxFrame) : Dev :=
  let d := d.pathNote f.port f.ent true none
  match d.sendTframe ⟨ftDATA, b2n f.last + 4, cls, d.rank, rank, f.tag, f.seq, f.psn, f.off, f.data.length, f.grant, f.data⟩
      (some (f.port, f.ent)) with
  | (d, none) => d
  | (d, some (p, e)) =>
    let k := peerKey rank cls
    let x := d.txPeer k
    (d.setTx k { x with unacked := x.unacked.map (fun u => if u.psn = f.psn then { u with port := p, ent := e } else u) }).bump
      (CFI.PORT_RETX.COUNT p) 1

/-- How far PSN b lies above a, modulo 2^32. -/
def psnDiff (a b : Nat) : Nat := (b + 2 ^ 32 - a) % 2 ^ 32

/-- Line rate in MB/s, and the sending rate towards a rank (R400). -/
def Dev.lineRate (d : Dev) : Nat := 1000 * d.cellCap
def rateDflt : Nat → Nat := fun _ => 0
/-- The rate towards a rank; unlisted: line rate. -/
def Dev.rateTo (d : Dev) (rank : Nat) : Nat :=
  match smapGet rateDflt d.cfi.rates rank with
  | 0 => d.lineRate
  | r => min r (max 1000 d.lineRate)
def Dev.setRate (d : Dev) (rank r : Nat) : Dev :=
  { d with cfi.rates := smapSet rateDflt d.cfi.rates rank r, cfi.rateAt := smapSet zeroDflt d.cfi.rateAt rank d.now }

/-- The rate after an ACK that reports CE marks: × (1 − marks ÷ 64), marks at most 32, at least 1 GB/s. -/
def rateCut (r marks : Nat) : Nat := max 1000 (r * (64 - min marks 32) / 64)

/-- CFI_ACK's effect (R399, R400): frames acknowledged leave the window; a frame with 3 later ones
arrived is sent again at once; the window moves on. -/
def Dev.ackIn (d : Dev) (f : TFrame) : Dev :=
  let k := peerKey f.src f.cls
  let cum := be f.data 0 4
  let sack := be f.data 4 8
  let marks := be f.data 12 2
  let d := d.when (bit f.flags 1) (fun d => d.setRate f.src (rateCut (d.rateTo f.src) marks))
  let has (n : Nat) : Bool :=
    let below := psnDiff n cum
    let above := psnDiff cum n
    decide (below < 2 ^ 31) || (decide (1 ≤ above ∧ above ≤ 64) && sack.testBit (above - 1))
  let later (n : Nat) : Nat := ((List.range 64).filter (fun i => sack.testBit i && decide (psnDiff n ((cum + 1 + i) % 2 ^ 32) - 1 < 2 ^ 31 - 1
      ∧ psnDiff n ((cum + 1 + i) % 2 ^ 32) ≠ 0))).length
  let p := d.txPeer k
  let d := d.each (p.unacked.filter (fun u => has u.psn)) (fun d u =>
    let rtt := if u.tries = 0 ∧ !u.fast then some (d.now - u.sentAt) else none
    let d := d.pathNote u.port u.ent false rtt
    match rtt with
    | some t => d.setTx k { d.txPeer k with srtt := Config.smoothRtt (d.txPeer k).srtt t }
    | none => d)
  let p := d.txPeer k
  let left := p.unacked.filter (fun u => !has u.psn)
  let lost := left.filter (fun u => !u.fast && decide (3 ≤ later u.psn))
  let d := d.setTx k { p with unacked := left.map (fun u => if lost.contains u then { u with fast := true, sentAt := d.now } else u) }
  let d := d.each lost (fun d u => d.resend f.cls f.src u)
  Dev.txPump f.cls f.src (d.pumpFuel k) d

/-- The retransmission timer in ns after some expiries in a row (R399). -/
def Dev.rto (d : Dev) (srtt tries : Nat) : Nat :=
  min (d.get CFI.RTO_MAX.MICROSECONDS * 1000) (max (4 * srtt) (d.get CFI.RTO_MIN.MICROSECONDS * 1000) * 2 ^ tries)

/-- When a frame's timer expires. -/
def Dev.rtoAt (d : Dev) (srtt : Nat) (f : TxFrame) : Nat := f.sentAt + d.rto srtt f.tries

/-- A frame's timer expires: it is sent again. -/
def Dev.retxTimer (d : Dev) (cls rank psn : Nat) : Dev :=
  let k := peerKey rank cls
  match (d.txPeer k).unacked.find? (fun f => f.psn == psn) with
  | none => d
  | some f =>
    let p := d.txPeer k
    let d := d.setTx k { p with unacked := p.unacked.map (fun u => if u.psn = psn then
      { u with tries := u.tries + 1, sentAt := d.now, fast := false } else u) }
    d.resend cls rank f

/-! ## Receiving (R398 to R400) -/

/-- Send the acknowledgement due to a sender (R396, R399, R400). -/
def Dev.sendAck (d : Dev) (cls rank : Nat) : Dev :=
  let k := peerKey rank cls
  let p := d.rxPeer k
  let cum := (p.next + 2 ^ 32 - 1) % 2 ^ 32
  let sack := (List.range 64).foldl (fun a i => if p.above.contains ((p.next + i) % 2 ^ 32) then a + 2 ^ i else a) 0
  let d := d.setRx k { p with count := 0, marks := 0 }
  d.sendCtl ftACK (if p.marks = 0 then 0 else 2) cls rank 0 0 0
    (beBytes 4 cum ++ beBytes 8 sack ++ beBytes 2 (min p.marks 65535) ++ [0, 0])

/-- Advance the lowest PSN not received over those received. -/
def rxSlide : Nat → RxPeer → RxPeer
  | 0, p => p
  | n + 1, p => if p.above.contains p.next then
      rxSlide n { p with next := (p.next + 1) % 2 ^ 32, above := p.above.filter (· != p.next) } else p

/-- Has a PSN been received before? -/
def RxPeer.seen (p : RxPeer) (psn : Nat) : Bool := decide (2 ^ 31 ≤ psnDiff p.next psn) || p.above.contains psn

/-- Take a DATA frame's PSN into account: a duplicate is acknowledged at once; else the 16th since the
last ACK sends one. -/
def Dev.takePsn (d : Dev) (f : TFrame) (ce : Bool) : Dev :=
  let k := peerKey f.src f.cls
  let p := d.rxPeer k
  let p := { p with marks := p.marks + b2n ce }
  if p.seen f.psn then (d.setRx k p).sendAck f.cls f.src
  else
    let p := { p with above := f.psn :: p.above, since := if p.count = 0 then d.now else p.since, count := p.count + 1 }
    let d := d.setRx k (rxSlide (p.above.length + 1) p)
    if 16 ≤ p.count then d.sendAck f.cls f.src else d

/-- The 2 µs acknowledgement timer (R399). -/
def Dev.ackTimer (d : Dev) (cls rank : Nat) : Dev := if (d.rxPeer (peerKey rank cls)).count = 0 then d else d.sendAck cls rank

/-- Receive a frame of a transport type on a cell port (R393, R396, R397): addressed to this device, on
the transport's UDP port, well formed. Any other is discarded and counted. -/
def Dev.cfiFrame (d : Dev) (port type : Nat) (bs : Bytes) (act : Dev → TFrame → Bool → Dev) : Dev :=
  if !d.cellUp port then d
  else
    let d := d.bump (CFI.PORT_RX.COUNT port) 1
    match readUdp6c bs with
    | none => d.bump (CFI.PORT_DISCARDS.COUNT port) 1
    | some (u, sum) =>
      let d := d.when u.ce (·.bump (CFI.PORT_ECN.COUNT port) 1)
      if u.dport ≠ d.get CFI.CTL.UDP_PORT ∨ u.dst ≠ d.cellIp port then d.bump (CFI.PORT_DISCARDS.COUNT port) 1
      else if !sum ∨ !icrcOk u.pay then d.bump (CFI.PORT_ICRC_ERR.COUNT port) 1
      else match readTframe u.pay with
        | none => d.bump (CFI.PORT_DISCARDS.COUNT port) 1
        | some f =>
          if f.type ≠ type ∨ f.dst ≠ d.rank then d.bump (CFI.PORT_DISCARDS.COUNT port) 1
          else act d f u.ce

end Sys2Proof.Machine
end

