-- ==== Sys2Proof/Machine/Tile.lean ====
section
/-! DEFINITION. The tile's state and shared operations: register files (R264, R265), the scratchpad
and its check bits (R224 to R228), circular regions (R230 to R235), halts (R283, R284), and the
places of logical tiles and arrays (R15, R154). -/

namespace Sys2Proof.Machine

/-! ## Tiles and arrays by number -/

def tileDflt : Nat → Tile := fun _ =>
  { prog := [], dstart := 0, entry := 0, dmask := 0, rmask := 0, chains := [], g := [], a := [], p := 0,
    nextSeq := 0, mq := [], aq := [], vq := [], dq := [], sq := [], waits := [], deferQ := [],
    mbHold := false, deferHold := false, live := [], done := [], mbends := [], spm := [],
    spmErr := [], arrays := [], fpq := [], marks := [], cb := [], cbDone := [], enc := [], encRem := 0, vrun := none,
    ered := [], chans := [], starved := [], heldRegion := [], heldMap := none, retried := [], fills := [],
    creditHeld := none, latches := [], wasReady := false, resumeHeld := false, img := (0, 0, 0) }

def Dev.tile (d : Dev) (t : Nat) : Tile := smapGet tileDflt d.tiles t
def Dev.setTile (d : Dev) (t : Nat) (x : Tile) : Dev := { d with tiles := smapSet tileDflt d.tiles t x }
def Dev.onTile (d : Dev) (t : Nat) (f : Tile → Tile) : Dev := d.setTile t (f (d.tile t))

/-- Physical tiles that are reserves by the factory default. -/
def isReserve (t : Nat) : Bool := t % 50 == 20 || t % 50 == 29

/-- The default assignment of logical tiles (DESIGN CHOICE, log 7): in order, skipping the
factory-default reserves. -/
def logMapDflt : Nat → Nat := fun l =>
  let w := l / 48
  let k := l % 48
  w * 50 + (if k < 20 then k else if k < 28 then k + 1 else k + 2)

/-- The physical tile of a logical tile (R15, R602). -/
def Dev.phys (d : Dev) (l : Nat) : Nat := smapGet logMapDflt d.csv.logMap l

/-- The logical tile a physical tile holds, 0xFFFF when none. -/
def Dev.logical (d : Dev) (t : Nat) : Nat := ((List.range 192).find? (fun l => d.phys l == t)).getD 0xFFFF

/-- Is logical array `a` mapped, and to which physical array (R154, R157)? -/
def Dev.arrValid (d : Dev) (t a : Nat) : Bool := bit (d.rd (MXA.MAP.REG t).off).toNat (4 * a + 3)
def Dev.arrPhys (d : Dev) (t a : Nat) : Nat := bits (d.rd (MXA.MAP.REG t).off).toNat (4 * a + 2) (4 * a)

def arrDflt : Nat → Arr := fun _ => ⟨none, none, none, [], [], none, none, [], []⟩
def Tile.arr (x : Tile) (p : Nat) : Arr := smapGet arrDflt x.arrays p
def Tile.setArr (x : Tile) (p : Nat) (v : Arr) : Tile := { x with arrays := smapSet arrDflt x.arrays p v }
def slotDflt : Nat → Option Slot := fun _ => none

def aqDflt : Nat → List TIns := fun _ => []
def Tile.aqOf (x : Tile) (a : Nat) : List TIns := smapGet aqDflt x.aq a
def Tile.setAq (x : Tile) (a : Nat) (q : List TIns) : Tile := { x with aq := smapSet aqDflt x.aq a q }

/-- The pipeline of a logical tile, and the stage number. -/
def pipeDflt : Nat → Pipe := fun _ => ⟨none, [], [], [], []⟩
def Dev.pipe (d : Dev) (p : Nat) : Pipe := smapGet pipeDflt d.pipes p
def Dev.setPipe (d : Dev) (p : Nat) (v : Pipe) : Dev := { d with pipes := smapSet pipeDflt d.pipes p v }

/-- The (pipeline, stage) a logical tile of this device is mapped in, with the map. -/
def Dev.stageOf (d : Dev) (l : Nat) : Option (Nat × Nat × PipeMap) :=
  d.pipes.findSome? (fun (n, p) => match p.map with
    | none => none
    | some m => (m.stages.findIdx? (· == (d.rank, l))).map (fun s => (n, s, m)))

/-- The job of the stage on a physical tile; 0 when none. -/
def Dev.tileJob (d : Dev) (t : Nat) : Nat :=
  match d.stageOf (d.logical t) with
  | some (_, _, m) => m.job
  | none => 0

/-! ## Register files (R264, R265) -/

/-- The place of g register i of a context. -/
def gIx (ctx : Bool) (i : Nat) : Nat := if ctx && decide (48 ≤ i) then i + 16 else i
def aIx (ctx : Bool) (i : Nat) : Nat := if ctx && decide (12 ≤ i) then i + 4 else i
def pIx (ctx : Bool) (i : Nat) : Nat := if ctx && decide (4 ≤ i) then i + 8 else i

/-- g0 reads 0. -/
def Tile.rg (x : Tile) (ctx : Bool) (i : Nat) : Nat := if i = 0 then 0 else smapGet zeroDflt x.g (gIx ctx i)
/-- Writes to g0 are ignored. -/
def Tile.wg (x : Tile) (ctx : Bool) (i v : Nat) : Tile :=
  if i = 0 then x else { x with g := smapSet zeroDflt x.g (gIx ctx i) (v % 2 ^ 64) }
def Tile.ra (x : Tile) (ctx : Bool) (i : Nat) : Nat := smapGet zeroDflt x.a (aIx ctx i)
def Tile.wa (x : Tile) (ctx : Bool) (i v : Nat) : Tile :=
  { x with a := smapSet zeroDflt x.a (aIx ctx i) (v % 2 ^ 48) }
/-- p0 reads 1. -/
def Tile.rp (x : Tile) (ctx : Bool) (i : Nat) : Bool := i == 0 || x.p.testBit (pIx ctx i)
/-- Writes to p0 are ignored. -/
def Tile.wp (x : Tile) (ctx : Bool) (i : Nat) (v : Bool) : Tile :=
  if i = 0 then x else { x with p := putBits x.p (pIx ctx i) (pIx ctx i) (b2n v) }

/-! ## Scratchpad (R224 to R228) -/

/-- Bytes of a scratchpad: 8 MiB. -/
def spmBytes : Nat := 0x800000

def wordDflt : Nat → WordState := fun _ => .clean

def Tile.rdSpm (x : Tile) (a n : Nat) : Bytes := memRead x.spm a n

/-- Do two ranges of addresses meet? -/
def meet (a n b m : Nat) : Bool := decide (a < b + m ∧ b < a + n)

/-- Write bytes: the words written lose any error of theirs when covered whole, and an extent written
anew is no longer the copy of a transfer from HBM (R184). -/
def Tile.wrSpm (x : Tile) (a : Nat) (bs : Bytes) : Tile :=
  { x with spm := memWrite x.spm a bs,
           fills := x.fills.filter (fun f => !f.segs.any (fun s => meet s.1 s.2 a bs.length)),
           spmErr := smapClear x.spmErr (ceilDiv a 8) ((a + bs.length) / 8 - ceilDiv a 8) }

/-- The 8-byte words of a range that hold errors. -/
def Tile.badWords (x : Tile) (a n : Nat) : List (Nat × WordState) :=
  if n = 0 then [] else smapRange x.spmErr (a / 8) ((a + n - 1) / 8 + 1 - a / 8)

/-- The first uncorrectable word of a range. -/
def Tile.spmBad (x : Tile) (a n : Nat) : Option Nat :=
  ((x.badWords a n).find? (·.2 == .uncorr)).map (·.1)

/-- The effects of reading a range of the scratchpad: correctable words are corrected and counted,
an uncorrectable one is counted and its line recorded (R228). -/
def Dev.spmTouch (d : Dev) (t a n : Nat) : Dev :=
  d.each ((d.tile t).badWords a n) (fun d (w, s) =>
    match s with
    | .clean => d
    | .corr =>
      (d.onTile t (fun x => { x with spmErr := smapSet wordDflt x.spmErr w .clean })).bump (SPM.ECC_CORRECTED.COUNT t) 1
    | .uncorr => (d.bump (SPM.ECC_UNCORR.COUNT t) 1).set (SPM.ECC_ADDR.LINE t) (w / 16))

/-! ## Circular regions (R230 to R235) -/

def m32 : Nat := 2 ^ 32

def Dev.regOk (d : Dev) (t r : Nat) : Bool := decide (r < 64) && d.flag (SPM.REGION_BASE.VALID t r)
def Dev.regBase (d : Dev) (t r : Nat) : Nat := d.get (SPM.REGION_BASE.BASE t r) * 128
def Dev.regSize (d : Dev) (t r : Nat) : Nat := d.get (SPM.REGION_SIZE.SIZE t r) * 128
def Dev.regHead (d : Dev) (t r : Nat) : Nat := d.get (SPM.REGION_HEAD.HEAD t r)
def Dev.regTail (d : Dev) (t r : Nat) : Nat := d.get (SPM.REGION_TAIL.TAIL t r)
def Dev.regW (d : Dev) (t r : Nat) : Nat := d.get (SPM.REGION_WORIGIN.ORIGIN t r)
def Dev.regR (d : Dev) (t r : Nat) : Nat := d.get (SPM.REGION_RORIGIN.ORIGIN t r)

/-- Occupancy of a region (R231). -/
def Dev.regLevel (d : Dev) (t r : Nat) : Nat := (d.regTail t r + m32 - d.regHead t r) % m32

/-- Bytes available from logical offset `o` (R234): how far TAIL lies beyond it; 0 when `o` lies
outside [HEAD, TAIL]. -/
def Dev.regAvail (d : Dev) (t r o : Nat) : Nat :=
  let k := (o + m32 - d.regHead t r) % m32
  if k ≤ d.regLevel t r then d.regLevel t r - k else 0

/-- May a producer write n bytes at logical offset `o` (R233): o + n ≤ HEAD + SIZE? -/
def Dev.regRoom (d : Dev) (t r o n : Nat) : Bool :=
  decide ((o + n + m32 - d.regHead t r) % m32 ≤ d.regSize t r)

/-- The head that a remote producer's credit counts from: while the stage moves, as it stood when credit
return was held (R235, R314). -/
def Dev.creditHead (d : Dev) (t r : Nat) : Nat :=
  match (d.tile t).creditHeld with
  | some hs => hs.getD r 0
  | none => d.regHead t r

/-- Does a remote producer hold credit for n bytes at logical offset `o` (R235)? -/
def Dev.creditRoom (d : Dev) (t r o n : Nat) : Bool :=
  decide ((o + n + m32 - d.creditHead t r) % m32 ≤ d.regSize t r)

/-- The scratchpad pieces of n bytes at logical offset `o` of a region (R231). -/
def Dev.regSpan (d : Dev) (t r o n : Nat) : List Seg :=
  let z := max 1 (d.regSize t r)
  let k := o % z
  let first := min n (z - k)
  if n ≤ first then [(d.regBase t r + k, n)] else [(d.regBase t r + k, first), (d.regBase t r, n - first)]

/-- Read n bytes of a region from a logical offset. -/
def Dev.regRead (d : Dev) (t r o n : Nat) : Bytes :=
  (d.regSpan t r o n).flatMap (fun (a, k) => (d.tile t).rdSpm a k)

/-- Write bytes into a region at a logical offset; TAIL does not move. -/
def Dev.regWrite (d : Dev) (t r o : Nat) (bs : Bytes) : Dev :=
  match d.regSpan t r o bs.length with
  | [(a, _)] => d.onTile t (·.wrSpm a bs)
  | (a, k) :: (b, _) :: _ => d.onTile t (fun x => (x.wrSpm a (bs.take k)).wrSpm b (bs.drop k))
  | [] => d

/-- A wait on a region, as it stands (R273). -/
def Dev.regWaitMet (d : Dev) (t : Nat) (w : TWait) : Bool :=
  if w.space then
    decide (w.amount ≤ (d.regHead t w.key + d.regSize t w.key + m32 - d.regTail t w.key) % m32)
  else decide (w.amount ≤ (d.regTail t w.key + m32 - d.regR t w.key) % m32)

/-- Latch the waits a change of a region satisfies (R263). -/
def Dev.regLatch (d : Dev) (t : Nat) : Dev :=
  d.onTile t (fun x => { x with waits := x.waits.map (fun w =>
    if !w.isTally && d.regWaitMet t w then { w with sat := true } else w) })

/-- Return space credit to the remote device that feeds a region (R235, R422): one CREDIT frame with
the highest logical offset the region accepts; none while the stage moves (R314). -/
def Dev.creditBack (d : Dev) (t r : Nat) : Dev :=
  if d.get (SPM.REGION_BIND.PRODUCER_TILE t r) ≠ 0xFE ∨ !d.flag (SPM.REGION_BIND.REMOTE_EN t r) ∨ (d.tile t).creditHeld.isSome then d
  else d.each d.pipes (fun d (e : Nat × Pipe) => match e.2.map with
    | none => d
    | some m => d.each m.links.zipIdx (fun d (lk : LinkEnt × Nat) =>
        match m.stages[lk.1.src]?, m.stages[lk.1.dst]? with
        | some (sd, _), some (dd, tile) =>
          if dd = d.rank ∧ sd ≠ d.rank ∧ d.phys tile = t ∧ lk.1.region = r then
            d.sendCtl ftCREDIT 0 1 sd (e.1 * 65536 + lk.2) 0 0 (beBytes 8 ((d.regHead t r + d.regSize t r) % m32))
          else d
        | _, _ => d))

/-- Move TAIL or HEAD; a HEAD that moves returns credit. -/
def Dev.setTailR (d : Dev) (t r v : Nat) : Dev := (d.set (SPM.REGION_TAIL.TAIL t r) v).regLatch t
def Dev.setHeadR (d : Dev) (t r v : Nat) : Dev := ((d.set (SPM.REGION_HEAD.HEAD t r) v).regLatch t).creditBack t r

/-- Move TAIL forward to `v`; never back. -/
def Dev.tailTo (d : Dev) (t r v : Nat) : Dev :=
  if (v + m32 - d.regTail t r) % m32 < m32 / 2 then d.setTailR t r v else d

/-- May HEAD move to `h` (R234): not below HEAD, not beyond TAIL? -/
def Dev.releaseOk (d : Dev) (t r h : Nat) : Bool :=
  decide ((h + m32 - d.regHead t r) % m32 ≤ d.regLevel t r)

/-- R232 on the producing side and on the consuming side. -/
def up128 (n : Nat) : Nat := alignUp n 128 % m32
def Dev.admitProducer (d : Dev) (t r : Nat) : Dev :=
  let v := up128 (d.regTail t r)
  (d.set (SPM.REGION_WORIGIN.ORIGIN t r) v).setTailR t r v
def Dev.admitConsumer (d : Dev) (t r : Nat) : Dev :=
  let v := up128 (d.regHead t r)
  (d.set (SPM.REGION_RORIGIN.ORIGIN t r) v).setHeadR t r v

/-! ## Sequencer state and halts (R283 to R289) -/

def tsEMPTY : Nat := 0
def tsREADY : Nat := 1
def tsRUNNING : Nat := 2
def tsBOUNDARY : Nat := 3
def tsHALTED : Nat := 4

/-- The conditions of a micro-batch boundary (R282): MBBEGIN holds issue, everything issued before it
has completed, and no routine is in progress. -/
def Dev.boundaryHolds (d : Dev) (t : Nat) : Bool :=
  let x := d.tile t
  x.mbHold && x.live.isEmpty && x.mbends.isEmpty && x.waits.isEmpty && !d.flag (CMD.SEQ_STATE.ROUTINE t)

/-- Is a running tile at a micro-batch boundary? -/
def Dev.atBoundary (d : Dev) (t : Nat) : Bool := d.get (CMD.SEQ_STATE.STATE t) == tsRUNNING && d.boundaryHolds t

/-- `CMD.SEQ_STATE.STATE` as it reads. -/
def Dev.seqState (d : Dev) (t : Nat) : Nat :=
  if d.atBoundary t then tsBOUNDARY else d.get (CMD.SEQ_STATE.STATE t)

def Dev.halted (d : Dev) (t : Nat) : Bool := d.get (CMD.SEQ_STATE.STATE t) == tsHALTED

/-- The context that holds issue. -/
def Dev.ctx (d : Dev) (t : Nat) : Bool := d.flag (CMD.SEQ_STATE.CONTEXT t)

/-- A context's program counter. -/
def Dev.pc (d : Dev) (t : Nat) (c : Bool) : Nat :=
  if c then d.get (CMD.SEQ_PC.DEFERRED t) else d.get (CMD.SEQ_PC.MAIN t)
def Dev.setPc (d : Dev) (t : Nat) (c : Bool) (v : Nat) : Dev :=
  if c then d.set (CMD.SEQ_PC.DEFERRED t) v else d.set (CMD.SEQ_PC.MAIN t) v

/-- Statuses that abort nothing (R284). -/
def haltKeeps (st : Nat) : Bool := st == 0x0253 || st == 0x0273 || st == 0x0276

/-- Where the halted instruction stood. -/
structure HaltAt where
  pc : Nat
  ctx : Bool
  queue : Nat
  array : Nat
  deriving DecidableEq, Repr

/-- A fault that halts a tile, or that a halted one meets, in the tile's history (R185, R592): a program's own
halt and a requested one are no faults. -/
def Dev.haltFault (d : Dev) (t st info pc : Nat) (detail : Bytes) : Dev :=
  if st = 0x0273 ∨ st = 0x0276 then d
  else
    let l := d.logical t
    let (job, step) := match d.stageOf l with
      | some (p, _, m) => (m.job, d.get2 (CMD.PIPE_STEP_LO.STEP p) (CMD.PIPE_STEP_HI.STEP p))
      | none => (0, 0)
    d.faultRecord (uTile t) st 0 info pc job l step detail

/-- Halt a tile (R283): record the status and the instruction. A tile already halted keeps its record;
its fault still goes to the conservator. -/
def Dev.haltTile (d : Dev) (t st info : Nat) (h : HaltAt) (detail : Bytes) : Dev :=
  if d.get (CMD.SEQ_STATE.STATE t) = tsEMPTY then d
  else if d.halted t then d.haltFault t st info h.pc detail
  else
    let d := d.onTile t (fun x => { x with wasReady := d.get (CMD.SEQ_STATE.STATE t) == tsREADY })
    let d := d.set (CMD.SEQ_STATE.STATE t) tsHALTED
    let d := (d.set (CMD.SEQ_HALT.STATUS t) st).set (CMD.SEQ_HALT.VALID t) 1
    let d := d.set (CMD.SEQ_HALT.RESTART t) (b2n (!haltKeeps st))
    let d := (d.set (CMD.SEQ_HALT.CONTEXT t) (b2n h.ctx)).set (CMD.SEQ_HALT.QUEUE t) h.queue
    let d := (d.set (CMD.SEQ_HALT.ARRAY t) h.array).set (CMD.SEQ_HALT_PC.PC t) h.pc
    let d := d.set (CMD.SEQ_HALT_INFO.INFO t) info
    d.haltFault t st info h.pc detail

/-- Halt at an instruction in a queue. -/
def Dev.haltIns (d : Dev) (t st info : Nat) (i : TIns) (queue array : Nat) (detail : Bytes) : Dev :=
  d.haltTile t st info ⟨i.pc, i.deferred, queue, array⟩ detail

/-- Halt on request: the next instruction due to issue is recorded. -/
def Dev.hostHalt (d : Dev) (t : Nat) : Dev :=
  if d.get (CMD.SEQ_STATE.STATE t) = tsRUNNING ∨ d.get (CMD.SEQ_STATE.STATE t) = tsREADY then d.haltTile t 0x0276 0 ⟨d.pc t (d.ctx t), d.ctx t, 0, 0⟩ [] else d

/-- The tile's codec fault registers, for a provenance record (R600). -/
def Dev.tcxDetail (d : Dev) (t : Nat) : Bytes :=
  ((List.range 4).map (fun i => leBytes 4 (d.rd ((TCX.FAULT_STATUS.REG t).off + 4 * i)).toNat)).flatten

/-! ## Fields of an instruction word (R266 to R274) -/

def iOp (w : Nat) : Nat := bits w 7 0
def iPred (w : Nat) : Nat := bits w 10 8
def iPneg (w : Nat) : Bool := bit w 11
def iSig (w : Nat) : Bool := bit w 12
def iTreg (w : Nat) : Nat := bits w 18 13
def iToff (w : Nat) : Nat := bits w 30 19
def iImm (w : Nat) : Nat := bits w 127 64
/-- The first array-fed or run chain of an instruction. -/
def iChainM (w : Nat) : Nat := bits w 54 50
def iChainV (w : Nat) : Nat := bits w 36 32
def iArray (w : Nat) : Nat := bits w 34 32

/-! ## Chain descriptors (R198, R199) -/

def Tile.chain (x : Tile) (c off n : Nat) : Nat := leNat (memRead x.chains (256 * c + off) n)
def Tile.chIn (x : Tile) (c : Nat) : Nat := bits (x.chain c 0 1) 3 0
def Tile.chOut (x : Tile) (c : Nat) : Nat := bits (x.chain c 0 1) 7 4
def Tile.chTess (x : Tile) (c : Nat) : Bool := bit (x.chain c 1 1) 0
def Tile.chRegion (x : Tile) (c : Nat) : Bool := bit (x.chain c 1 1) 1
def Tile.chSr (x : Tile) (c : Nat) : Bool := bit (x.chain c 1 1) 2
def Tile.chSat (x : Tile) (c : Nat) : Bool := bit (x.chain c 1 1) 3
def Tile.chMask (x : Tile) (c : Nat) : Nat := bits (x.chain c 2 1) 1 0
def Tile.chDiagEn (x : Tile) (c : Nat) : Bool := bit (x.chain c 2 1) 2
def Tile.chBitsEn (x : Tile) (c : Nat) : Bool := bit (x.chain c 2 1) 3
def Tile.chCmpEn (x : Tile) (c : Nat) : Bool := bit (x.chain c 2 1) 4
def Tile.chTrap (x : Tile) (c : Nat) : Nat := x.chain c 3 1
def Tile.chDest (x : Tile) (c : Nat) : Nat := bits (x.chain c 4 4) 22 0
def Tile.chRedDest (x : Tile) (c : Nat) : Nat := bits (x.chain c 8 4) 22 0
def Tile.chCols (x : Tile) (c : Nat) : Nat := x.chain c 12 4
def Tile.chCoord (x : Tile) (c : Nat) : Nat := x.chain c 16 6
def Tile.chColStride (x : Tile) (c : Nat) : Nat := x.chain c 22 2
def Tile.chRowStride (x : Tile) (c : Nat) : Nat := x.chain c 24 4
def Tile.chTensor (x : Tile) (c : Nat) : Nat := x.chain c 28 4
def Tile.chElems (x : Tile) (c : Nat) : Nat := x.chain c 32 6
def Tile.chDiag (x : Tile) (c : Nat) : Int := sext 32 (x.chain c 40 4)
def Tile.chMaskBase (x : Tile) (c : Nat) : Nat := bits (x.chain c 44 4) 22 0
def Tile.chFill (x : Tile) (c : Nat) : Nat := x.chain c 48 4
/-- Stage k's 128-bit word. -/
def Tile.chStage (x : Tile) (c k : Nat) : Nat := x.chain c (64 + 16 * k) 16
def stOp (w : Nat) : Nat := bits w 5 0
def stBsrc (w : Nat) : Nat := bits w 10 8
def stTap (w : Nat) : Nat := bits w 15 12
def stFmt (w : Nat) : Nat := bits w 19 16
def stRnd (w : Nat) : Bool := bit w 20
def stSat (w : Nat) : Bool := bit w 21
def stImm (w : Nat) : Nat := bits w 63 32
def stBase (w : Nat) : Nat := bits w 86 64

/-- Has the chain a lane reduction, a column reduction (R205)? -/
def Tile.chLane (x : Tile) (c : Nat) : Bool := (List.range 8).any (fun k => decide (0x20 ≤ stOp (x.chStage c k) ∧ stOp (x.chStage c k) ≤ 0x23))
def Tile.chCol (x : Tile) (c : Nat) : Bool := (List.range 8).any (fun k => decide (0x28 ≤ stOp (x.chStage c k) ∧ stOp (x.chStage c k) ≤ 0x2A))

/-- The bits per element of an output format, groups included. -/
def outBits (fmt : Nat) : Nat :=
  match groupOfCode fmt with
  | some g => gWidth g
  | none => elemBits fmt

/-! ## Cursors (R201) -/

def Dev.curE (d : Dev) (t c : Nat) : Nat := d.get2 (VEC.CURSOR_E_LO.E t c) (VEC.CURSOR_E_HI.E t c)
def Dev.curRow (d : Dev) (t c : Nat) : Nat := d.get (VEC.CURSOR_ROW.ROW_BASE t c)
def Dev.curCol (d : Dev) (t c : Nat) : Nat := d.get (VEC.CURSOR_COL.COL_BASE t c)
def Tile.eRed (x : Tile) (c : Nat) : Nat := smapGet zeroDflt x.ered c
def Dev.setCursors (d : Dev) (t c e row col red : Nat) : Dev :=
  let d := d.set2 (VEC.CURSOR_E_LO.E t c) (VEC.CURSOR_E_HI.E t c) e
  let d := (d.set (VEC.CURSOR_ROW.ROW_BASE t c) row).set (VEC.CURSOR_COL.COL_BASE t c) col
  d.onTile t (fun x => { x with ered := smapSet zeroDflt x.ered c (red % m32) })

def encDflt : Nat → Enc := fun _ => ⟨[], [], 0, 0, [], [], false⟩
def Tile.encOf (x : Tile) (c : Nat) : Enc := smapGet encDflt x.enc c
def Tile.setEnc (x : Tile) (c : Nat) (v : Enc) : Tile := { x with enc := smapSet encDflt x.enc c v }

/-- Commit-buffer lines a stream occupies: its buffered rows, its reduction words in lines of 32, and its column
partials (R214). -/
def CbStream.lines (b : CbStream) : Nat :=
  b.rows.length + ceilDiv (b.rows.filter (·.red.isSome)).length 32 + ceilDiv b.words.length 32 + b.cols.length / 32

/-- Commit-buffer lines in use (R222). -/
def Tile.cbLines (x : Tile) : Nat := (x.cb ++ x.cbDone).foldl (fun a b => a + b.lines) 0

/-- The cursors of a chain set to 0, and its encoder closed (R271, R276, R278). -/
def Dev.resetChain (d : Dev) (t c : Nat) : Dev :=
  (d.setCursors t c 0 0 0 0).onTile t (·.setEnc c (encDflt c))

/-! ## Program order -/

/-- Panel rows per stream row (R201): p in full mode on the W axis, 2p in quadrant mode; a T-axis
stream gives one (DEDUCED, log 23: R138). -/
def packing (wfmt : Nat) : Nat := if wfmt = 1 ∨ wfmt = 2 then 1 else if wfmt = 6 then 4 else 2
def streamQ (w : Nat) : Nat :=
  if bit w 35 then 1 else if bit w 38 then 2 * packing (bits w 45 42) else packing (bits w 45 42)

/-- The instruction an entry of the finished-panel queue names. -/
def Panel.ins : Panel → TIns
  | .row i _ _ _ _ _ _ => i
  | .commit i _ _ => i
  | .abort i _ => i

/-- Is an issued instruction a FINISH stream? -/
def isFinish (i : TIns) : Bool := i.op == 0x21 && bit i.word 41

/-- Does a stream of chain c still await its commit (R204)? -/
def Dev.uncommitted (d : Dev) (t c : Nat) : Bool :=
  let x := d.tile t
  let on (i : TIns) : Bool := isFinish i && iChainM i.word == c
  x.mq.any (fun e => match e with | .ins i => on i | .barrier _ => false)
    || x.aq.any (fun e => e.2.any on)
    || x.arrays.any (fun e => e.2.cur.any (fun s => on s.ins) || e.2.owed.any (fun m => on m.ins))
    || (x.fpq ++ x.marks).any (fun e => on e.ins)
    || x.cb.any (fun b => on b.ins)

/-- An instruction is complete (R259): its tally add, if any, becomes due. -/
def Dev.insDone (d : Dev) (t : Nat) (i : TIns) : Dev :=
  d.onTile t (fun x => { x with live := x.live.filter (fun e => e.1 != i.seq), done := x.done ++ [i] })

end Sys2Proof.Machine
end

