-- ==== Sys2Proof/Machine/View.lean ====
section
/-! DEFINITION. What BAR0 reads as (R10 to R15): the stored register, with the fields that follow from
other state computed at the read (levels, states, clocks, what the ordering code or flash fixes), the
tile windows onto the register files and the chain table (R290), and debug copies (R13). Beside it, the
small readings of power, time and reserves that these fields and their owners share. -/

namespace Sys2Proof.Machine

/-! ## Power (R638 to R640) -/

/-- A power limit as it counts: 0 or above TDP is TDP, below half of TDP is half (R638). -/
def limitOf (c : OrderingCode) (w : Nat) : Nat :=
  if w = 0 ∨ tdp c < w then tdp c else max w (tdp c / 2)

/-- The module power limit in force, in W (R638). -/
def Dev.powerLimit (d : Dev) : Nat :=
  min (limitOf d.code (d.get HIF.PWR_LIMIT.WATTS)) (limitOf d.code (d.get HIF.PWR_LIMIT_MGMT.WATTS))

/-- A divider field of `TMU.TCLK_DIV` or `TMU.TCLK_CLAMP` holds 8 to 16, 16 as 0 (R569). -/
def divOf (c : Nat) : Nat := if c = 0 then 16 else c
def divCode (n : Nat) : Nat := n % 16
def divField (w : Nat) : FRef := ⟨TMU.TCLK_DIV.REG.off, 4 * w + 3, 4 * w⟩
def clampField (w : Nat) : FRef := ⟨TMU.TCLK_CLAMP.REG.off, 4 * w + 3, 4 * w⟩

/-- The divider in force (R569, R572). -/
def divDflt : Nat → Nat := fun _ => 8
def Dev.divNow (d : Dev) (w : Nat) : Nat := smapGet divDflt d.tmu.divNow w

/-- The number of the TCLK cycle of wing w at a time: 14 GHz divided by the divider in force. -/
def Dev.tclkAt (d : Dev) (w ns : Nat) : Nat := ns * 14 / d.divNow w

/-- The minimum divider the thermal clamp requires of a wing (R640); unlisted wings require 8. -/
def minDflt : Nat → Nat := fun _ => 8
def Dev.thermMinOf (d : Dev) (w : Nat) : Nat := smapGet minDflt d.hif.thermMin w

/-- The divider written for a wing. -/
def Dev.divWritten (d : Dev) (w : Nat) : Nat := divOf (d.get (divField w))

/-- Does the power clamp, or the thermal clamp, hold wing w above the divider written (R640)? -/
def Dev.powerHolds (d : Dev) (w : Nat) : Bool := decide (d.divWritten w < d.hif.powerMin)
def Dev.thermHolds (d : Dev) (w : Nat) : Bool := decide (d.divWritten w < d.thermMinOf w)
def wings : List Nat := [0, 1, 2, 3]

/-! ## Time (R577) -/

def tmHOLDOVER : Nat := 3
def Dev.tmState (d : Dev) : Nat := d.get TMU.STATE.STATE

/-- `TMU.ERROR_BOUND` now: in HOLDOVER it grows by 50 ns a second. -/
def Dev.errorBound (d : Dev) : Nat :=
  if d.tmState = tmHOLDOVER then min 0xFFFFFFFF (d.tmu.lossBound + 50 * (d.now - d.tmu.lossAt) / 1000000000) else d.get TMU.ERROR_BOUND.NS

/-- `TMU.HOLDOVER` now. -/
def Dev.holdoverSeconds (d : Dev) : Nat := if d.tmState = tmHOLDOVER then min 0xFFFFFFFF ((d.now - d.tmu.lossAt) / 1000000000) else 0

/-! ## Reserve tiles (R602, R605) -/

def loanDflt : Nat → Option Loan := fun _ => none
/-- The loan or remap of a tile in wing w, and the wing of a tile. -/
def Dev.loan (d : Dev) (w : Nat) : Option Loan := smapGet loanDflt d.csv.loans w
def wingOf (t : Nat) : Nat := t / 50

/-- Physical tiles of wing w that no logical tile names. -/
def Dev.unnamed (d : Dev) (w : Nat) : List Nat :=
  let used := (List.range 192).map d.phys
  ((List.range 50).map (50 * w + ·)).filter (fun t => !used.contains t)

/-- The reserve tiles of wing w: unnamed, not retired, not freed by a loan whose test still runs. -/
def Dev.reserves (d : Dev) (w : Nat) : List Nat :=
  (d.unnamed w).filter (fun t => !d.csv.retiredTiles.contains t && !d.csv.loans.any (fun e => match e.2 with
    | some l => l.tile == t | none => false))

def testDflt : Nat → Option Nat := fun _ => none
/-- When the test running on a physical tile began. -/
def Dev.testing (d : Dev) (t : Nat) : Option Nat := smapGet testDflt d.csv.testing t

/-- Is a reserve promised to a loan? -/
def Dev.promised (d : Dev) (t : Nat) : Bool :=
  d.csv.loans.any (fun e => match e.2 with | some l => l.reserve == t && l.phase != 3 | none => false)

/-- Does a replay run on a physical tile (R608)? -/
def Dev.replaying (d : Dev) (t : Nat) : Bool := match d.csv.replay with
  | some r => (r.stage == 2 && r.first == t) || (r.stage == 4 && r.second == t)
  | none => false

/-- Does a margin sweep run on a physical tile (R609)? -/
def Dev.sweeping (d : Dev) (t : Nat) : Bool :=
  d.cmd.inflight.any (fun f => f.opcode == 0x0902 && f.res.isSome && le f.ops 0 2 == t)

/-- Is a reserve running replay, test or sweep? -/
def Dev.reserveBusy (d : Dev) (t : Nat) : Bool := (d.testing t).isSome || d.replaying t || d.sweeping t

/-- May a reserve receive a stage: no test or sweep runs on it and no loan holds it? -/
def Dev.canTake (d : Dev) (t : Nat) : Bool := (d.testing t).isNone && !d.sweeping t && !d.promised t

/-- Is a reserve free: it may take a stage, and no replay runs on it? -/
def Dev.isFree (d : Dev) (t : Nat) : Bool := d.canTake t && !d.replaying t

/-- The free reserve for a stage of wing w (R602): in the wing when one is free, else the lowest-numbered;
with none free, one whose replay is preempted (R605). -/
def Dev.reserveFor (d : Dev) (w : Nat) : Option Nat :=
  let all := wings.flatMap d.reserves
  (((d.reserves w).find? d.isFree).or (all.find? d.isFree)).or (((d.reserves w).find? d.canTake).or (all.find? d.canTake))

/-- A captured sample, or a mismatch, goes to a free reserve's scratchpad when there is one (R20, R608). -/
def Dev.replayGo (d : Dev) : Dev :=
  match d.csv.replay with
  | some r =>
    let free (but : List Nat) : Option Nat := (wings.flatMap d.reserves).find? (fun t => d.isFree t && !but.contains t)
    if r.stage = 5 then
      match free [] with
      | some t => { d with csv.replay := some { r with stage := 2, first := t, since := d.now } }.onTile t (·.wrSpm 0 r.sample)
      | none => d
    else if r.stage = 3 then
      match free [r.first] with
      | some t => { d with csv.replay := some { r with stage := 4, second := t, since := d.now } }.onTile t (·.wrSpm 0 r.sample)
      | none => d
    else d
  | none => d

/-- A sample is discarded (R605, R607). -/
def Dev.replayDrop (d : Dev) : Dev := { d.bump CSV.REPLAY_ABORTED.COUNT 1 with csv.replay := none }

/-- `CSV.RESERVE` of wing w. -/
def Dev.reserveReg (d : Dev) (w : Nat) : Nat :=
  let rs := (d.reserves w).take 2
  (rs.zipIdx).foldl (fun a (t, i) => a + t * 2 ^ (8 * i) + 2 ^ (16 + i) + b2n (d.reserveBusy t) * 2 ^ (18 + i)) 0

/-- `CSV.LOAN_STATE`: the loan of the lowest wing that has one (R602: one a wing; the register shows one). -/
def Dev.loanReg (d : Dev) : Nat :=
  match wings.findSome? d.loan with
  | some l => l.phase + l.tile * 2 ^ 8 + l.reserve * 2 ^ 16
  | none => 0

/-! ## Fields computed at the read -/

/-- Replace fields of a register word. -/
def regPuts (w : Reg) (fs : List (FRef × Nat)) : Reg :=
  fs.foldl (fun w (f, v) => withField w f.hi f.lo (v % 2 ^ (f.hi + 1 - f.lo))) w

/-- `CMD.SEQ_STATE` of tile t as it reads. -/
def Dev.seqReg (d : Dev) (t : Nat) (w : Reg) : Reg :=
  let x := d.tile t
  regPuts w [(CMD.SEQ_STATE.STATE t, d.seqState t), (CMD.SEQ_STATE.WAIT_SLOTS t, x.waits.length),
    (CMD.SEQ_STATE.DEFER_LEVEL t, x.deferQ.length)]

/-- `MXA.STATE` of physical array p of tile t: which logical array maps there, and whether it is failed
(R156, R157). -/
def Dev.arrReg (d : Dev) (t p : Nat) (w : Reg) : Reg :=
  let m := (List.range 8).find? (fun a => d.arrValid t a && d.arrPhys t a == p)
  regPuts w [(MXA.STATE.FAILED t p, b2n (bit (d.rd (MXA.FAILED.REG t).off).toNat p)), (MXA.STATE.MAPPED t p, b2n m.isSome),
    (MXA.STATE.LOGICAL t p, m.getD (bits w.toNat 18 16))]

/-- `VEC.STATE` of tile t: the commit buffer's lines, the finished-panel queue, a vector-only run, a marker or a run
in the pipeline. -/
def Dev.vecReg (d : Dev) (t : Nat) : Reg :=
  let x := d.tile t
  regPuts 0 [(VEC.STATE.CB_LINES t, min 4096 x.cbLines), (VEC.STATE.QUEUE_LEVEL t, min 256 x.fpq.length),
    (VEC.STATE.VRUN t, b2n x.vrun.isSome), (VEC.STATE.BUSY t, b2n (x.vrun.isSome || !x.marks.isEmpty))]

/-- Milliseconds from a time to now, saturating at 32 bits. -/
def Dev.msSince (d : Dev) (t : Nat) : Nat := min 0xFFFFFFFF ((d.now - t) / 1000000)

/-- `CFI.GROUP_WAIT` of a slot: how long the running collective has waited since dispatch. -/
def Dev.groupWait (d : Dev) (s : Nat) : Nat :=
  match d.group s with
  | some g => match g.queue with
    | c :: _ => if c.started then d.msSince c.since else 0
    | [] => 0
  | none => 0

/-- `WXU.DRAIN_RATE`: megabytes drained in the last completed millisecond (R503). -/
def Dev.drainRate (d : Dev) : Nat :=
  let ms := d.now / 1000000
  if ms = d.wxu.drainMs then d.get WXU.DRAIN_RATE.MB_PER_MS
  else if ms = d.wxu.drainMs + 1 then d.wxu.drained / 1000000 else 0

/-- `WXU.SLOT_LAST_USE` of a partner slot in use. -/
def Dev.slotLastUse (d : Dev) (s : Nat) : Nat :=
  match smapGet (fun _ => (none : Option PSlot)) d.wxu.slots s with | some p => d.msSince p.lastUse | none => 0

/-- FREE key slots from 16 to 1,023. -/
def Dev.keysFree (d : Dev) : Nat := 1008 - (d.sec.keys.filter (fun e => decide (16 ≤ e.1) && e.2.isSome)).length

/-- Entries of a cipher queue. -/
def Dev.queueLevel (d : Dev) (q : Nat) : Nat := min 256 (smapGet (fun _ => ([] : List CReq)) d.sec.queues q).length

/-- `CSV.SUSPICION.RECENT`: faults in the last 24 h, saturating. -/
def Dev.recentFaults (d : Dev) (u : Nat) : Nat :=
  min 0xFF ((d.unitSum u).recent.filter (fun e => decide (d.now ≤ e.1 + dayNs))).length

/-- The oldest stamp of capture input `i`, 0 when it holds none (R587). -/
def Dev.capHead (d : Dev) (i : Nat) : Nat := (smapGet (fun _ => (⟨0, false, 1, []⟩ : Capture)) d.tmu.captures i).fifo.headD 0

/-- Is a PSE command of a job done and its completion still to come? The job's next command waits for it (R386). -/
def Dev.pseBusy (d : Dev) (j : Nat) : Bool :=
  d.cmd.inflight.any (fun f => f.job == j && f.opcode / 256 == 4 && f.gate == .ready && f.res.isSome)

/-- `PSE.STATE`: of a command in progress, what it does (R389). -/
def Dev.pseState (d : Dev) (w : Reg) : Reg :=
  let j := d.get PSE.JOB.JOB
  if d.pseBusy j then regPuts w [(PSE.STATE.STATE, ((d.pse.find? (fun e => e.1 == j)).map (·.2.phase)).getD 1)] else w

/-- The register a copy of `r` at `off` reads as, its stored word being `w`. -/
def Dev.computed (d : Dev) (r : RegDef) (off : Nat) (w : Reg) : Reg :=
  let n (v : Nat) : Reg := BitVec.ofNat 32 v
  let tile := (off - 0x01000000) / 0x10000
  let port := (off - r.base) / 0x100
  let slot := (off - r.base) / 0x20
  let base := r.base
  if base = HIF.ASSEMBLY.REG.off then n (assembly d.code)
  else if base = HIF.PWR_STATE.REG.off then
    n (d.powerLimit * 2 ^ 16 + 2 * b2n (wings.any d.thermHolds) + b2n (wings.any d.powerHolds))
  else if base = (QSU.RING_STATUS.REG 0).off then
    regPuts w [(QSU.RING_STATUS.FULL slot, b2n (d.flag (QSU.RING_CFG.ENABLE slot) && d.ringUsed slot == d.ringCount slot))]
  else if base = TMU.TIME_LO.REG.off then n d.now
  else if base = (TMU.CAP_POP_LO.REG 0).off then n (d.capHead ((off - base) / 8))
  else if base = TMU.ERROR_BOUND.REG.off then n d.errorBound
  else if base = TMU.HOLDOVER.REG.off then n d.holdoverSeconds
  else if base = (HMC.CTL_STATE.REG 0).off then
    regPuts w [(HMC.CTL_STATE.FITTED 0, b2n ((fittedStacks d.code).contains ((off - base) / 0x800)))]
  else if base = HMC.STACK_MAP.REG.off then regPuts w [(HMC.STACK_MAP.FITTED, (fittedStacks d.code).foldl (fun a k => a + 2 ^ k) 0)]
  else if base = HMC.FREE_FRAMES.REG.off then n d.freeFrames
  else if base = HMC.LEAVES_FREE.REG.off then n d.leavesFree
  else if base = (CFI.PORT_STATE.REG 0).off then regPuts w [(CFI.PORT_STATE.PRESENT 0, 1)]
  else if base = (CFI.PORT_MAC_LO.REG 0).off then n (portMac port)
  else if base = (CFI.PORT_MAC_HI.REG 0).off then n (portMac port / 2 ^ 32)
  else if base = (CFI.GROUP_WAIT.REG 0).off then n (d.groupWait slot)
  else if base = (WXU.FAR_STATE.REG 0).off then regPuts w [(WXU.FAR_STATE.PRESENT 0, 1)]
  else if base = (WXU.FAR_MAC_LO.REG 0).off then n (portMac (16 + port))
  else if base = (WXU.FAR_MAC_HI.REG 0).off then n (portMac (16 + port) / 2 ^ 32)
  else if base = WXU.DRAIN_RATE.REG.off then n d.drainRate
  else if base = (WXU.SLOT_LAST_USE.REG 0).off then n (d.slotLastUse slot)
  else if base = SEC.STATE.REG.off then regPuts w [(SEC.STATE.PAIRS, 32 - popCount (d.get SEC.PAIR_FAILED.MASK) 32)]
  else if base = SEC.KEYS_FREE.REG.off then n d.keysFree
  else if base = SEC.QUEUE_LEVEL.REG.off then n (d.queueLevel 0 + d.queueLevel 1 * 2 ^ 16)
  else if base = SEC.QUEUE_LEVEL2.REG.off then n (d.queueLevel 2)
  else if base = CSV.STATE.REG.off then
    regPuts w [(CSV.STATE.REPLAY_ACTIVE, b2n (match d.csv.replay with | some x => x.stage == 2 || x.stage == 4 | none => false))]
  else if base = CSV.LOAN_STATE.REG.off then n d.loanReg
  else if base = (CSV.RESERVE.REG 0).off then n (d.reserveReg ((off - base) / 4))
  else if base = (CSV.SUSPICION.REG 0 0).off then
    regPuts w [(CSV.SUSPICION.RECENT 0 0, d.recentFaults ((off - base) / 4))]
  else if base = (CMD.SEQ_STATE.REG 0).off then d.seqReg tile w
  else if base = (MXA.STATE.REG 0 0).off then d.arrReg tile (((off - base) % 0x10000) / 0x100) w
  else if base = (VEC.STATE.REG 0).off then d.vecReg tile
  else if base = PSE.STATE.REG.off then d.pseState w
  else w

/-! ## Windows onto a tile's register files and chain table (R290) -/

/-- What a window names: half `hi` of g register `i` or a register `i` (by their index in the tile), the
predicates, or four bytes of the chain table. -/
inductive TileWin where
  | g (i : Nat) (hi : Bool)
  | a (i : Nat) (hi : Bool)
  | p
  | chains (o : Nat)
  deriving DecidableEq, Repr

/-- The window at an offset of the tile's block. -/
def tileWin (o : Nat) : Option TileWin :=
  let hi := decide (o % 8 = 4)
  if o % 4 ≠ 0 then none
  else if 0x1000 ≤ o ∧ o < 0x1200 then some (.g ((o - 0x1000) / 8) hi)
  else if 0x1200 ≤ o ∧ o < 0x1280 then some (.g (64 + (o - 0x1200) / 8) hi)
  else if 0x1280 ≤ o ∧ o < 0x1300 then some (.a ((o - 0x1280) / 8) hi)
  else if 0x1300 ≤ o ∧ o < 0x1320 then some (.a (16 + (o - 0x1300) / 8) hi)
  else if o = 0x1320 then some .p
  else if 0x5000 ≤ o ∧ o < 0x7000 then some (.chains (o - 0x5000))
  else none

/-- The tile and window of a BAR0 offset. -/
def winOf (off : Nat) : Option (Nat × TileWin) :=
  if 0x01000000 ≤ off ∧ off < 0x01C80000 then (tileWin (off % 0x10000)).map (fun w => ((off - 0x01000000) / 0x10000, w)) else none

/-- What a window reads as. g0 reads 0 and p0 reads 1 (R265, R266). -/
def Dev.winRead (d : Dev) (t : Nat) (w : TileWin) : Nat :=
  let x := d.tile t
  match w with
  | .g i hi => let v := if i = 0 then 0 else smapGet zeroDflt x.g i
               if hi then v / 2 ^ 32 else v % 2 ^ 32
  | .a i hi => let v := smapGet zeroDflt x.a i
               if hi then v / 2 ^ 32 else v % 2 ^ 32
  | .p => putBits x.p 0 0 1
  | .chains o => leNat (memRead x.chains o 4)

/-! ## A read -/

/-- Is an offset in the block of a port that the package leaves out (R2)? The port's TMU.PORT_LATENCY register, which
is not in its block, stays an ordinary one (DEDUCED, log 12). -/
def portAbsent (c : OrderingCode) (off : Nat) : Bool :=
  decide (0x00900000 + 0x100 * cellPorts c ≤ off ∧ off < 0x00901000) ||
  decide (0x00A00800 + 0x100 * farPorts c ≤ off ∧ off < 0x00A00C00)

/-- Is an offset in the block of a stack that is not fitted (R350)? -/
def stackAbsent (c : OrderingCode) (off : Nat) : Bool :=
  decide (0x00700000 ≤ off ∧ off < 0x00706000) && !(fittedStacks c).contains ((off - 0x00700000) / 0x800)

/-- Is an offset in the block of a port or stack that the device does not have? Its registers read 0, reserved bits
and all. -/
def partAbsent (c : OrderingCode) (off : Nat) : Bool := portAbsent c off || stackAbsent c off

/-- What a primary offset reads as, reserved fields 0. -/
def Dev.regView (d : Dev) (off : Nat) : Reg :=
  if partAbsent d.code off then 0
  else match findReg off with
    | some (r, _) => d.computed r off (d.rd off)
    | none => match winOf off with
      | some (t, w) => BitVec.ofNat 32 (d.winRead t w)
      | none => 0

/-- The primary offset a read of `off` is served from when it has no side effect: a debug copy stands for
its primary (R13). -/
def primaryOf (off : Nat) : Nat := (debugCopyOf off).getD off

/-- The bits of a register that no field covers: they read as an undefined value (R12). -/
def rsvBits (off : Nat) : Nat :=
  match findReg off with
  | some (r, _) => r.flds.foldl (fun a f => putBits a f.hi f.lo 0) 0xFFFFFFFF
  | none => if off % 0x10000 = 0x1320 ∧ (winOf off).isSome then 0xFFFF0F00 else 0

/-- `MXA.STATE.DRAINING` of an array with a stream in progress: whether the port has come to the drain rests on its
cycles alone, so it reads as a free value (log 47). -/
def Dev.drainBit (d : Dev) (off : Nat) : Nat :=
  match findReg off with
  | some (r, _) =>
    if r.base = (MXA.STATE.REG 0 0).off ∧
        !((d.tile ((off - 0x01000000) / 0x10000)).arr (((off - r.base) % 0x10000) / 0x100)).cur.isEmpty then 16 else 0
  | none => 0

/-- Give reserved bits of a read a free value (R12; log 2). -/
def Dev.withRsv (d : Dev) (off : Nat) (v : Reg) : Dev × Reg :=
  let m := rsvBits off ||| d.drainBit off
  if m = 0 ∨ partAbsent d.code off then (d, v)
  else
    let (x, d) := d.draw
    (d, BitVec.ofNat 32 ((v.toNat &&& (0xFFFFFFFF - m)) ||| (x &&& m)))

/-- A read without side effect: of a debug copy, or through the debug access paths (R13, R619). -/
def Dev.regPeek (d : Dev) (off : Nat) : Dev × Reg := d.withRsv (primaryOf off) (d.regView (primaryOf off))

/-- Clear the RC fields of a register to their reset values (R12). -/
def Dev.clearRc (d : Dev) (off : Nat) : Dev :=
  match findReg off with
  | some (r, _) => d.wr off (r.flds.foldl (fun (w : Reg) f => if f.ty == .rc then withField w f.hi f.lo f.rst else w) (d.rd off))
  | none => d

end Sys2Proof.Machine
end

