-- ==== Sys2Proof/Machine/Fatal.lean ====
section
/-! DEFINITION. The ROM fatal routine (R613), the dump and the flash summary it writes (R614), provenance
records as bytes (R599, R600), key slots as far as the routine zeroises them (R509), and how a command's
effect on the device becomes a state change: every effect ends with the fatal routine when it raised a
fatal cause. -/

namespace Sys2Proof.Machine

/-! ## Key slots (R507 to R509) -/

def ktFREE : Nat := 0
def ktAES : Nat := 1
def ktPRIV : Nat := 2
def ktPUB : Nat := 3
def ktSESSION : Nat := 4
def ktIDENTITY : Nat := 5

/-- The type SEC.KEY_TYPE reports. -/
def KeyVal.type : KeyVal → Nat
  | .aes _ => ktAES
  | .priv _ _ => ktPRIV
  | .pub _ => ktPUB
  | .session _ => ktSESSION
  | .identity => ktIDENTITY

def keyDflt : Nat → Option KeySlot := fun _ => none

/-- The contents of a key slot; none when FREE. -/
def Dev.key (d : Dev) (k : Nat) : Option KeySlot := smapGet keyDflt d.sec.keys k

/-- Fill or free a key slot; its type and owner are reported. -/
def Dev.setKey (d : Dev) (k owner : Nat) (v : Option KeySlot) : Dev :=
  let d := { d with sec.keys := smapSet keyDflt d.sec.keys k v }
  let ty := match v with | some x => x.val.type | none => ktFREE
  (d.set (SEC.KEY_TYPE.TYPE k) ty).set (SEC.KEY_TYPE.OWNER k) (if v.isSome then owner else 0)

/-- Zeroise slots 1 to 1,023 (R509, R537). -/
def Dev.zeroiseAll (d : Dev) : Dev :=
  d.each (d.sec.keys.filter (fun e => e.1 != 0)) (fun d e => d.setKey e.1 0 none)

/-! ## Provenance records as bytes (R599, R600) -/

/-- A GUID as UEFI lays it out: its first three fields little-endian, the rest in order. -/
def guid (a b c : Nat) (rest : Nat) : Bytes := leBytes 4 a ++ leBytes 2 b ++ leBytes 2 c ++ beBytes 8 rest

/-- The Saistey creator, the provenance section, and UEFI's CMC, MCE and CPE notification types (the last
three PRESUMED from the UEFI specification). -/
def guidCreator : Bytes := guid 0x6D3A1C52 0x8F4E 0x4B07 0xA2C95E1B7D20F8A4
def guidSection : Bytes := guid 0x5A1F7208 0xC5E0 0x4D2B 0x9A3B1B7E0C4F6D21
def guidCmc : Bytes := guid 0x2DCE8BB1 0xBDD7 0x450E 0xB9AD9CF4EBD4F890
def guidMce : Bytes := guid 0xE8F56FFE 0x919C 0x4CC5 0xBA8865ABE14913BB
def guidCpe : Bytes := guid 0x4E292F96 0xD843 0x4A55 0xA8C2D481F27EBEEE

/-- A number below 100 in binary-coded decimal. -/
def bcd (n : Nat) : Nat := n / 10 % 10 * 16 + n % 10

/-- The civil date of a day counted from 1970-01-01: year, month, day. -/
def civil (days : Nat) : Nat × Nat × Nat :=
  let z := days + 719468
  let era := z / 146097
  let doe := z % 146097
  let yoe := (doe - doe / 1460 + doe / 36524 - doe / 146096) / 365
  let doy := doe - (365 * yoe + yoe / 4 - yoe / 100)
  let mp := (5 * doy + 2) / 153
  let m := if mp < 10 then mp + 3 else mp - 9
  ((yoe + era * 400) + (if m ≤ 2 then 1 else 0), m, doy - (153 * mp + 2) / 5 + 1)

/-- The CPER time stamp of a TAI time in ns (R599): BCD second, minute, hour, flags, day, month, year and
century. -/
def cperTime (ns : Nat) (precise : Bool) : Bytes :=
  let s := ns / 1000000000
  let (y, m, dd) := civil (s / 86400)
  [bcd (s % 60), bcd (s / 60 % 60), bcd (s / 3600 % 24), b2n precise, bcd dd, bcd m, bcd (y % 100), bcd (y / 100)].map
    (fun (x : Nat) => BitVec.ofNat 8 x)

/-- The characters of an ASCII string as bytes. -/
def asciiBytes (s : String) : Bytes := s.toList.map (fun c => BitVec.ofNat 8 c.toNat)

/-- The name of a fault unit's type (R591). -/
def unitName : Nat → String
  | 1 => "Tile" | 2 => "Matrix array" | 3 => "Memory controller" | 4 => "Cell port" | 5 => "Far port"
  | 6 => "Cipher pair" | 7 => "Public-key core" | 8 => "Control core" | 9 => "Corridor" | 10 => "On-package flash"
  | _ => "Time and clock unit"

/-- Error severity of a record (R599). -/
def FaultRec.severity (r : FaultRec) : Nat :=
  if r.source = 5 ∨ r.status = 0x0701 ∨ r.status = 0x0707 ∨ r.status = 0x0708 ∨ r.status = 0x0709 then 3
  else if r.status = 0x0218 ∨ r.status = 0x070B then 2 else 0

/-- The provenance section (R600). -/
def FaultRec.section_ (r : FaultRec) : Bytes :=
  leBytes 2 r.unit ++ leBytes 2 r.status ++ leBytes 1 r.source ++ leBytes 1 r.before ++ leBytes 1 r.after
    ++ leBytes 1 r.verdict ++ leBytes 8 r.time ++ leBytes 8 r.address ++ leBytes 4 r.whr ++ leBytes 2 r.job
    ++ leBytes 2 r.logical ++ leBytes 8 r.step ++ leBytes 4 r.reps ++ zeros 4 ++ slice r.detail 0 64 ++ zeros 16

/-- The CPER header of a provenance record, 128 bytes (R599). -/
def FaultRec.header (r : FaultRec) (sev : Nat) (precise : Bool) : Bytes :=
  asciiBytes "CPER" ++ leBytes 2 0x0101 ++ leBytes 4 0xFFFFFFFF ++ leBytes 2 1 ++ leBytes 4 sev ++ leBytes 4 3
    ++ leBytes 4 328 ++ cperTime r.time precise ++ leBytes 8 Config.serial.toNat ++ zeros 8 ++ zeros 16 ++ guidCreator
    ++ (if sev = 2 then guidCmc else if sev = 1 then guidMce else guidCpe) ++ leBytes 8 r.id ++ zeros 4 ++ zeros 8 ++ zeros 12

/-- Its section descriptor, 72 bytes (R599). -/
def FaultRec.descriptor (r : FaultRec) (sev : Nat) : Bytes :=
  leBytes 4 200 ++ leBytes 4 128 ++ leBytes 2 0x0100 ++ zeros 2 ++ zeros 4 ++ guidSection ++ leBytes 2 r.unit ++ zeros 14
    ++ leBytes 4 sev ++ slice (asciiBytes ("ZFI-7208 " ++ unitName (r.unit / 4096))) 0 20

/-- A provenance record: CPER header, section descriptor and section, 328 bytes (R599). -/
def FaultRec.bytes (r : FaultRec) (sev : Nat) (precise : Bool) : Bytes := r.header sev precise ++ r.descriptor sev ++ r.section_

/-- A record of the device as bytes: the precise flag is set only in LOCKED. -/
def Dev.recordOf (d : Dev) (r : FaultRec) : Bytes := r.bytes r.severity (d.tmState == 2)

/-- The fault units, by identifier (R591). -/
def allUnits : List Nat :=
  (List.range 200).map uTile ++ (List.range 1600).map (0x2000 + ·) ++ (List.range 12).map uStack ++ (List.range 16).map uCell
    ++ (List.range 4).map uFar ++ (List.range 32).map uPair ++ (List.range 4).map uPk ++ (List.range 4).map uCore
    ++ (List.range 16).map uCorridor ++ [uFlash, uTime]

/-- A unit's summary entry (R601). -/
def Dev.summaryEntry (d : Dev) (u : Nat) : Bytes :=
  let x := d.unitSum u
  leBytes 2 u ++ leBytes 1 (d.get (suspLevel u)) ++ leBytes 1 (min 255 x.perms) ++ leBytes 4 (min 0xFFFFFFFF x.total)
    ++ leBytes 4 (x.recent.filter (fun e => decide (d.now ≤ e.1 + dayNs))).length
    ++ leBytes 8 (match x.recent with | e :: _ => e.1 | [] => 0) ++ leBytes 2 x.lastStatus ++ zeros 10

/-! ## The dump (R614) -/

/-- The nonzero bytes of a string laid at an offset. -/
def bytesAt (off : Nat) (bs : Bytes) : SMap Byte :=
  (bs.zipIdx off).filterMap (fun (b, a) => if b = 0 then none else some (a, b))

/-- Lay sparse contents over [base, base + n): as if each byte were set in turn; a canonical `src` is put
in whole. -/
def memLay (m : SMap Byte) (base n : Nat) (src : SMap Byte) : SMap Byte :=
  if memWf src && src.all (fun e => decide (e.1 < n)) then
    m.filter (fun e => decide (e.1 < base)) ++ src.map (fun e => (e.1 + base, e.2)) ++ m.filter (fun e => decide (base + n ≤ e.1))
  else smapSetAll memDflt (memZero m base n) (src.map (fun e => (e.1 + base, e.2)))

/-- The CRC-32C (R162) of bytes [pos, pos + k) of sparse contents listed in rising order. -/
def crcWalk : Nat → Nat → SMap Byte → Nat → Nat
  | 0, _, _, c => c ^^^ 0xFFFFFFFF
  | k + 1, pos, [], c => crcWalk k (pos + 1) [] (crcByte c 0)
  | k + 1, pos, (a, b) :: es, c =>
    if a = pos then crcWalk k (pos + 1) es (crcByte c b) else crcWalk k (pos + 1) ((a, b) :: es) (crcByte c 0)

/-- The sections of the dump after its header: offset and size. -/
def dumpSections : List (Nat × Nat) :=
  [(0x1000, 0x1000), (0x2000, 0x8000), (0xA000, 0x10000), (0x20000, 0x100000), (0x120000, 0x4000000),
   (0x4120000, 0x3200000), (0x7400000, 0x200000)]

/-- Bytes of the whole dump, header to history log. -/
def dumpBytes : Nat := 0x7600000

/-- A word of the BAR0 image: reserved fields read as bits of one free value `x`. -/
def Dev.dumpWord (d : Dev) (x off : Nat) : Nat := (d.regView off).toNat ||| (x / 2 ^ (8 * off) % 2 ^ 32 &&& rsvBits off)

/-- The sections' contents at their offsets: the fatal record, the fault ring, the summaries, the control
cores' state (free: no rule lays it out), BAR0, the program stores, the history log. -/
def Dev.dumpBody (d : Dev) (fatal : Bytes) (cores bar : Nat) : SMap Byte :=
  bytesAt 0x1000 fatal
    ++ (List.range 64).flatMap (fun i => match smapGet (fun _ => none) d.csv.fring i with
      | some r => bytesAt (0x2000 + 512 * i) (d.recordOf r)
      | none => [])
    ++ (allUnits.zipIdx).flatMap (fun (u, i) => bytesAt (0xA000 + 32 * i) (d.summaryEntry u))
    ++ bytesAt 0x20000 (leBytes 0x100000 cores)
    ++ regBlocks.flatMap (fun b => (List.range ((b.2.1 + 1 - b.1) / 4)).flatMap (fun i =>
        bytesAt (0x120000 + b.1 + 4 * i) (leBytes 4 (d.dumpWord bar (b.1 + 4 * i)))))
    ++ d.tiles.flatMap (fun e => e.2.prog.flatMap (fun w => bytesAt (0x4120000 + 0x40000 * e.1 + 16 * w.1) (leBytes 16 w.2)))
    ++ (d.csv.history.zipIdx).flatMap (fun (r, i) => bytesAt (0x7400000 + 512 * i) (d.recordOf r))

/-- The fields of the dump header in their order, from byte 0 (DESIGN CHOICE: R614 gives the order only):
MAGIC, FORMAT, sequence, cause, flags (bit 0 ARCHIVE_ABSENT), time, serial, `HIF.ASSEMBLY`, IMAGE_VERSION,
prior state, the sections' CRCs. -/
def Dev.dumpHeader (d : Dev) (seq cause : Nat) (absent : Bool) (prior : Nat) (crcs : List Nat) : Bytes :=
  leBytes 4 0x504D5544 ++ leBytes 2 1 ++ leBytes 2 seq ++ leBytes 2 cause ++ leBytes 6 (b2n absent) ++ leBytes 8 d.now
    ++ leBytes 8 Config.serial.toNat ++ leBytes 4 (assembly d.code) ++ leBytes 4 (d.get CMD.CURATOR_VERSION.VERSION)
    ++ leBytes 4 prior ++ crcs.flatMap (leBytes 4)

/-- Write the dump to the archive region; its header. -/
def Dev.writeDump (d : Dev) (seq cause prior : Nat) (fatal : Bytes) : Dev × Bytes :=
  let (cores, d) := d.draw
  let (bar, d) := d.draw
  let body := d.dumpBody fatal cores bar
  let crcs := dumpSections.map (fun (o, n) => crcWalk n o (smapRange body o n) 0xFFFFFFFF)
  let h := d.dumpHeader seq cause false prior crcs
  let d := d.storeVia archiveBase dumpBytes (fun d => { d with hbm.mem := memLay d.hbm.mem archiveBase dumpBytes (bytesAt 0 h ++ body) })
  (((d.set CSV.DUMP_STATE.VALID 1).set CSV.DUMP_STATE.SEQ seq).set CSV.DUMP_STATE.CAUSE cause, h)

/-- The 4 KiB flash summary (R613): header, fatal record, then the entries of units not CLEAR, as many as fit
(DESIGN CHOICE: at bytes 0, 128 and 512). -/
def Dev.flashSummary (d : Dev) (h fatal : Bytes) : Bytes :=
  let es := ((allUnits.filter (fun u => d.get (suspLevel u) != 0)).take 112).flatMap d.summaryEntry
  slice (slice h 0 128 ++ slice fatal 0 384 ++ es) 0 4096

/-! ## The fatal routine (R613) -/

/-- Step 1: every tile halted, dispatch, the PSE and the WXU stopped, transmission disabled on every port. -/
def Dev.stopAll (d : Dev) : Dev :=
  let d := d.each (List.range 200) (fun d t => d.hostHalt t)
  let d := d.each (List.range 16) (fun d p => d.set (CFI.PORT_STATE.ENABLE p) 0)
  let d := d.each (List.range 4) (fun d p => d.set (WXU.FAR_STATE.ENABLE p) 0)
  { d with
    pse := d.pse.map (fun (e : Nat × PseUnit) => (e.1, { e.2 with run := none, queue := [] })),
    wxu.drains := [],
    wxu.slots := d.wxu.slots.map (fun (e : Nat × Option PSlot) => (e.1, e.2.map (fun p => { p with streams := [], kept := [] }))) }

/-- A fatal cause releases every debug halt (R613). -/
def Dev.releaseHalts (d : Dev) : Dev :=
  let d := ((d.set CSV.DBG_STATE.HALTED 0).set CSV.DBG_STATE.PENDING 0).set CSV.DBG_STATE.FORCED 0
  { d.set CSV.DBG_LOCKS.MASK 0 with csv.haltReq := [], csv.locks := [] }

/-- The fault unit of a fatal cause without a fault of its own: an expired watchdog's core stands in the
record already; the root PLL is the time unit's; a thermal trip's is not stated and is free. -/
def Dev.fatalUnit (d : Dev) (cause : Nat) : Nat × Dev :=
  if cause = 0x0810 then (uTime, d) else let (x, d) := d.draw
  (x % 2 ^ 16, d)

/-- The fatal record: the fault that could not be entered, or a record of the cause. -/
def Dev.fatalRecord (d : Dev) (cause : Nat) : Dev × FaultRec :=
  match d.csv.fatalRec with
  | some r => (d, r)
  | none =>
    let (u, d) := d.fatalUnit cause
    let r : FaultRec := ⟨d.csv.recSeq, u, cause, 0, d.get (suspLevel u), d.get (suspLevel u), 0, d.now, 0, 0, 0, 0xFFFF, 0, 0, zeros 64⟩
    ({ d with csv.recSeq := d.csv.recSeq + 1 }, r)

/-- A mailbox command the FATAL state does not serve completes with 0x0105 (R613). -/
def Dev.fatalMailbox (d : Dev) : Dev :=
  let out (f : InFlight) : Bool := f.org.chan == .mailbox && !mboxAllows curFATAL f.opcode
  if d.cmd.inflight.any out then
    { d with cmd.inflight := d.cmd.inflight.filter (fun f => !out f) }.mboxResult (errR 0x0105)
  else d

/-- The routine for a cause, its steps in order. Under 0x0810 no dump is written; nor when an unread dump is
held or stack 0 has failed (R614). -/
def Dev.fatalRoutine (d : Dev) (cause : Nat) : Dev :=
  let prior := d.curator
  let d := d.releaseHalts
  let d := d.stopAll.zeroiseAll
  let (d, r) := d.fatalRecord cause
  let fatal := r.bytes 1 (d.tmState == 2)
  let withheld := cause == 0x0810 || d.flag CSV.DUMP_STATE.VALID || d.stackFailed 0
  let seq := d.csv.dumpSeq % 2 ^ 15
  let (d, h) : Dev × Bytes :=
    if withheld then (d, d.dumpHeader seq cause (d.stackFailed 0) prior (dumpSections.map (fun _ => 0)))
    else d.writeDump seq cause prior fatal
  let sum := d.flashSummary h fatal
  let d := { d with csv.dumpSeq := d.csv.dumpSeq + 1, csv.fatals := (sum :: d.csv.fatals).take 8,
                    csv.fatal := 0, csv.fatalRec := none }
  let d := (d.set CMD.FATAL_CAUSE.STATUS cause).set CMD.CURATOR_STATE.STATE curFATAL
  let d := d.fatalMailbox.msix 0
  d.when (prior != curFATAL) (fun d => (d.msix1 0).ibi 0x01)

/-- Raise a fatal cause (R613); one already raised in this command stands. -/
def Dev.raiseFatal (d : Dev) (cause : Nat) : Dev := if d.csv.fatal = 0 then { d with csv.fatal := cause } else d

/-- What an effect leaves to be served: the reports of the memory controllers, each of which stands for a codeword with
an error, and the fatal routine when a cause is raised. The routine covers whole codewords, so it leaves no report. -/
def Dev.serveFatal (d : Dev) : Dev :=
  let d := if d.hbm.notes = [] then d else d.settle (d.hbm.notes.length + 3 * d.hbm.cw.length + 64)
  if d.csv.fatal = 0 then d else { d.fatalRoutine d.csv.fatal with hbm.notes := [] }

/-! ## How a command becomes a state change -/

/-- Apply an effect to the device: the queue, the time base and the fuses stay, the fatal routine runs if it
raised a cause, and the units see the time base as it stands. -/
def State.onDev (s : State) (f : Dev → Dev) : State :=
  { s with dev := (f { s.dev with now := s.clock.ns }).serveFatal }

/-- The same for a command that names a physical tile (R15) or a ring (R52): one the device does not have
changes nothing. -/
def State.atTile (s : State) (t : Nat) (f : Dev → Dev) : State := if t < 200 then s.onDev f else s
def State.atRing (s : State) (r : Nat) (f : Dev → Dev) : State := if r < 16384 then s.onDev f else s

/-- Move the time base on to `t`; it never goes back (R570). -/
def State.until (s : State) (t : Nat) : State :=
  if s.clock.ns < t then { s with clock := ⟨t, 0⟩ } else s

/-- Apply an effect that may also move the time base forward (R572, R575): to the units' copy as the effect
leaves it. -/
def State.onTime (s : State) (f : Dev → Dev) : State :=
  let s := s.onDev f
  s.until s.dev.now

/-- An event that time brings at `t`: the time base has reached `t` and the effect happens; nothing when
the state holds no such time. -/
def State.atTime (s : State) (t : Option Nat) (f : Dev → Dev) : State :=
  match t with
  | none => s
  | some t => (s.until t).onDev f

/-- One TSCLK cycle (R570): the time base adds 1 ns and the servo's FREQ_ADJ, clamped, in units of
2^−32 ns. -/
def State.tick (s : State) : State :=
  let adj := max (-2147484) (min 2147484 (sext 32 (s.dev.get TMU.FREQ_ADJ.ADJ)))
  let t := (((s.clock.frac + 2 ^ 32 : Nat) : Int) + adj).toNat
  { s with clock := ⟨s.clock.ns + t / 2 ^ 32, t % 2 ^ 32⟩ }

end Sys2Proof.Machine
end

