-- ==== Sys2Proof/Machine/CommandPlane.lean ====
section
/-! DEFINITION. The command plane: rings and their dispatch (R51 to R61, R649, R653), tallies (R62 to
R69, R654), the mailbox (R70 to R73, R87), jobs (R74), event rings (R76, R655) and the watchdog's
restart (R79). The commands that end jobs and load firmware stand in Machine/Lifecycle.lean. -/

namespace Sys2Proof.Machine

/-! ## Opcodes (R59, R73) -/

/-- Does an opcode take this LENGTH (R59)? `MICROBATCH_ADMIT` checks its own (R300). -/
def lengthOk (o n : Nat) : Bool :=
  if o = 0x0204 then true
  else if o = 0x0401 ∨ o = 0x0501 ∨ o = 0x0703 then n == 2
  else n == 1

/-! ## Pointer writes (R53) -/

/-- A pointer a write gives: its position, unless an INDEX bit at n or above is set. -/
def Dev.pointerOf (d : Dev) (r : Nat) (v : Reg) : Option Nat :=
  let n := d.ringCount r
  let ix := bits v.toNat 19 0
  if n ≤ ix then none else some (ptrPos n (bits v.toNat 20 20) ix)

/-- RING_TAIL_DOORBELL's effect: the host's tail of a submission ring. -/
def Dev.tailDoorbell (d : Dev) (r : Nat) (v : Reg) : Dev :=
  if !d.ringOn r 0 then d
  else match d.pointerOf r v with
    | none => d.ringError r 0x0107
    | some p =>
      if lapDiff (d.ringCount r) (d.ringTail r) p ≤ d.ringCount r - d.ringUsed r then d.setTail r p
      else d.ringError r 0x0107

/-- RING_TAIL_DOORBELL (R54). -/
def execRingTailDoorbell (r : Nat) (v : Reg) (s : State) : Host.Outcome State Fault Refusal :=
  .next (s.atRing r (·.tailDoorbell r v))

/-- RING_HEAD_WRITE's effect: the host's head of a completion or event ring. -/
def Dev.headWrite (d : Dev) (r : Nat) (v : Reg) : Dev :=
  if !(d.ringOn r 1 || d.ringOn r 2) then d
  else match d.pointerOf r v with
    | none => d.ringError r 0x0107
    | some p =>
      if lapDiff (d.ringCount r) (d.ringHead r) p ≤ d.ringUsed r then d.setHead r p
      else d.ringError r 0x0107

/-- RING_HEAD_WRITE (R53). -/
def execRingHeadWrite (r : Nat) (v : Reg) (s : State) : Host.Outcome State Fault Refusal :=
  .next (s.atRing r (·.headWrite r v))

/-- RING_ERROR_CLEAR (R52): writing 1 to ERROR clears it; a submission ring then dispatches again. -/
def execRingErrorClear (r : Nat) (s : State) : Host.Outcome State Fault Refusal :=
  .next (s.atRing r (·.set (QSU.RING_STATUS.ERROR r) 0))

/-! ## Reading packets (R54, R649) -/

/-- Entry `i` of a ring: its bytes, or the status that stops the ring. -/
def Dev.readEntry (d : Dev) (r i : Nat) : Dev × Except (Nat × Nat) Bytes :=
  let a := d.ringEntry r (i % d.ringCount r)
  if d.get (QSU.RING_CFG.LOC r) = 0 then (d, .ok (memRead d.host a 64))
  else match d.fetch (qsuAcc 1 (d.domOf (d.get (QSU.RING_PAIR.OWNER r)))) a 64 with
    | (d, .ok bs) => (d, .ok bs)
    | (d, .error (st, _)) => (d, .error (st, a))

/-- `n` entries of a ring from index `i`. -/
def Dev.readEntries : Nat → Dev → Nat → Nat → Dev × Except (Nat × Nat) Bytes
  | 0, d, _, _ => (d, .ok [])
  | n + 1, d, r, i =>
    match d.readEntry r i with
    | (d, .error e) => (d, .error e)
    | (d, .ok bs) => match Dev.readEntries n d r (i + 1) with
      | (d, .ok rest) => (d, .ok (bs ++ rest))
      | (d, .error e) => (d, .error e)

/-- The packet header (R44). -/
def pkOpcode (e : Bytes) : Nat := le e 0 2
def pkFlags (e : Bytes) : Nat := le e 2 1
def pkLength (e : Bytes) : Nat := le e 3 1
def pkTag (e : Bytes) : Nat := le e 4 4
def pkWait (e : Bytes) : Nat := le e 8 2
def pkSignal (e : Bytes) : Nat := le e 10 2
def pkThreshold (e : Bytes) : Nat := le e 12 4

/-- The status of a bad header (R58): 0 when it is good. LENGTH comes before FLAGS (DESIGN CHOICE, log 79). -/
def headerBad (e : Bytes) : Nat :=
  if pkLength e = 0 ∨ 16 < pkLength e then 0x0102 else if bits (pkFlags e) 7 5 ≠ 0 then 0x0103 else 0

/-- Move a submission ring's head past `n` entries, its wait slot free. -/
def Dev.headOn (d : Dev) (r n : Nat) : Dev :=
  let d := (d.setHead r (d.ringHead r + n)).set (QSU.RING_STATUS.WAITING r) 0
  { d with cmd.waits := smapSet waitDflt d.cmd.waits r none }

/-- Complete a packet of ring `r` that was not dispatched, with a status. -/
def Dev.refusePacket (d : Dev) (r : Nat) (e : Bytes) (st : Nat) : Dev :=
  d.complete ⟨.ring r, pkTag e, pkFlags e, pkSignal e⟩ (pkOpcode e) false (errR st)

/-! ## Dispatch (R55) -/

/-- Is dispatch from a ring stopped: is it being walked by RING_DESTROY or JOB_DESTROY (R60, R651), or has a rehang
begun (R82)? -/
def Dev.ringStopped (d : Dev) (r : Nat) : Bool :=
  d.cmd.inflight.any (fun f => match f.gate with
    | .ringDestroy q => q == r
    | .jobDestroy j => d.get (QSU.RING_PAIR.OWNER r) == j
    | .rehang => true
    | _ => false)

/-- Register or look at the head packet's wait: the device with its wait slot, and whether the wait is
satisfied (R63, R67). -/
def Dev.waitSlot (d : Dev) (r : Nat) (e : Bytes) : Dev × Bool :=
  if !bit (pkFlags e) 0 then (d, true)
  else match smapGet waitDflt d.cmd.waits r with
    | some w => (d, w.sat)
    | none =>
      let ok := decide (pkThreshold e ≤ d.get (QSU.TALLY_VALUE.VALUE (pkWait e)))
      ({ d with cmd.waits := smapSet waitDflt d.cmd.waits r (some ⟨pkWait e, pkThreshold e, ok⟩) }, ok)

/-- Do a packet's tallies belong to its ring's job (R68)? -/
def Dev.packetTallies (d : Dev) (r : Nat) (e : Bytes) : Bool :=
  let j := d.get (QSU.RING_PAIR.OWNER r)
  (!bit (pkFlags e) 0 || d.tallyOwned (pkWait e) j) && (!bit (pkFlags e) 1 || d.tallyOwned (pkSignal e) j)

/-- R405: is the packet a collective whose group runs one and has 64 waiting, those dispatched and not
posted yet among them? -/
def Dev.groupFull (d : Dev) (opc slot : Nat) : Bool :=
  let coll (o : Nat) : Bool := o == 0x0303 || o == 0x0304 || o == 0x0305
  let posted := match smapGet (fun _ => none) d.cfi.groups slot with | some g => g.queue.length | none => 0
  coll opc && decide (65 ≤ posted + (d.cmd.inflight.filter (fun f => coll f.opcode && f.gate == .ready && f.res.isNone && le f.ops 0 1 == slot)).length)

/-- Dispatch a whole packet whose header is good and whose conditions hold: an unknown opcode or a
wrong LENGTH completes at once, a command enters the commands in flight with its reservation. -/
def Dev.dispatch (d : Dev) (r cq : Nat) (e : Bytes) : Dev :=
  let d := d.headOn r (pkLength e)
  if !opcodeKnown (pkOpcode e) then d.refusePacket r e 0x0101
  else if !lengthOk (pkOpcode e) (pkLength e) then d.refusePacket r e 0x0107
  else
    let o : Origin := ⟨.ring r, pkTag e, pkFlags e, pkSignal e⟩
    { d with cmd.inflight := d.cmd.inflight ++ [(⟨o, pkOpcode e, e.drop 16, d.get (QSU.RING_PAIR.OWNER r), [], .ready, none, d.now⟩ : InFlight)] }.reserve cq

/-- PACKET_DISPATCH's effect (R58, R64, R68). A packet's tallies are checked before its opcode and its exact LENGTH,
and one that fails these has still waited (DESIGN CHOICE, log 79). -/
def Dev.packetDispatch (d : Dev) (r : Nat) : Dev :=
  let cq := d.get (QSU.RING_PAIR.CQ r)
  if !d.ringOn r 0 || !d.ringOn cq 1 || d.curator != curRUNNING || d.flag (QSU.RING_STATUS.ERROR r)
      || d.ringStopped r || d.ringUsed r == 0 then d
  else
    let ix := d.get (QSU.RING_HEAD.INDEX r)
    let wait (d : Dev) : Dev := d.set (QSU.RING_STATUS.WAITING r) 1
    match d.readEntry r ix with
    | (d, .error (st, a)) => (d.ringError r st).event st a
    | (d, .ok h) =>
      let bad := headerBad h
      if bad ≠ 0 then
        if d.ringFree cq = 0 then wait d
        else ((d.headOn r 1).refusePacket r h bad).ringError r bad
      else if d.ringUsed r < pkLength h then d
      else match Dev.readEntries (pkLength h - 1) d r (ix + 1) with
        | (d, .error (st, a)) => (d.ringError r st).event st a
        | (d, .ok rest) =>
          if !d.packetTallies r h then
            if d.ringFree cq = 0 then wait d else (d.headOn r (pkLength h)).refusePacket r h 0x0106
          else
            let (d, sat) := d.waitSlot r h
            let fenced := bit (pkFlags h) 2 && d.cmd.inflight.any (fun f => f.org.chan == .ring r)
            let full := lengthOk (pkOpcode h) (pkLength h) && d.groupFull (pkOpcode h) (le h 16 1)
            if !sat || fenced || full || d.ringFree cq == 0 then wait d
            else d.dispatch r cq (h ++ rest)

/-- PACKET_DISPATCH (R55). -/
def execPacketDispatch (r : Nat) (s : State) : Host.Outcome State Fault Refusal :=
  .next (s.atRing r (·.packetDispatch r))

/-- When a completion ring has been full for longer than the drain bound, once for each time it is full (R61). -/
def Dev.overdueAt (d : Dev) (r : Nat) : Option Nat :=
  if d.ringOn r 1 ∧ d.ringFree r = 0 then match d.fullSince r with
    | some (t, false) => some (t + d.get CMD.DRAIN_BOUND.MILLISECONDS * 1000000 + 1)
    | _ => none
  else none

/-- COMPLETION_OVERDUE's effect: OVERDUE and one event record. -/
def Dev.completionOverdue (d : Dev) (r : Nat) : Dev :=
  let d := { d with cmd.fullSince := smapSet fullDflt d.cmd.fullSince r ((d.fullSince r).map (fun (e : Nat × Bool) => (e.1, true))) }
  (d.set (QSU.RING_STATUS.OVERDUE r) 1).event 0x0109 r

/-- COMPLETION_OVERDUE (R61). -/
def execCompletionOverdue (r : Nat) (s : State) : Host.Outcome State Fault Refusal :=
  .next (s.atTime (s.dev.overdueAt r) (·.completionOverdue r))

/-- EVENT_HOLD_DELIVERY (R76). -/
def execEventHoldDelivery (s : State) : Host.Outcome State Fault Refusal :=
  .next (s.onDev (fun d => Dev.deliverHeld (d.cmd.evHold.length + 1) d d.cmd.evHold []))

/-! ## Tallies (R62 to R66) -/

/-- TALLY_ADD_WRITE (R62). -/
def execTallyAddWrite (t : Nat) (v : Reg) (s : State) : Host.Outcome State Fault Refusal :=
  .next (s.onDev (fun d => if t < 65536 then d.tallyAdd t (bits v.toNat 15 0) else d))

/-- TALLY_VALUE_WRITE (R62). -/
def execTallyValueWrite (t : Nat) (v : Reg) (s : State) : Host.Outcome State Fault Refusal :=
  .next (s.onDev (fun d => if t < 65536 then d.tallySet t v.toNat else d))

/-- Is a tally allocated? -/
def Dev.tallyUsed (d : Dev) (t : Nat) : Bool := d.flag (QSU.TALLY_CFG.ALLOCATED t)

/-- The tallies whose CFG register differs from its reset value, which hold every allocated one. -/
def Dev.usedTallies (d : Dev) : List Nat :=
  let base := (QSU.TALLY_CFG.REG 0).off
  (d.regs.filterMap (fun (o, _) => if base ≤ o ∧ o < base + 0x100000 ∧ (o - base) % 16 = 0 then some ((o - base) / 16)
    else none)).filter (d.tallyUsed ·)

/-- Reset a tally's registers and give it an owner (R654); owner none frees it. -/
def Dev.tallyGive (d : Dev) (t : Nat) (owner : Option Nat) : Dev :=
  match owner with
  | none => (d.set (QSU.TALLY_CFG.ALLOCATED t) 0).set (QSU.TALLY_CFG.OWNER t) 0
  | some j =>
    let d := (d.clearReg (QSU.TALLY_VALUE.REG t).off).clearReg (QSU.TALLY_IRQ.REG t).off
    ((d.clearReg (QSU.TALLY_CFG.REG t).off).set (QSU.TALLY_CFG.ALLOCATED t) 1).set (QSU.TALLY_CFG.OWNER t) j

/-- TALLY_ALLOC's effect: the lowest free range. -/
def Dev.tallyAlloc (d : Dev) (ops : Bytes) : Dev × Answer :=
  let n := opnd ops 16 4
  let j := opnd ops 20 2
  if n = 0 ∨ 4096 < n ∨ (d.job j).isNone then (d, .now (errR 0x0107))
  else match freeRun d.usedTallies 0 65536 n with
    | none => (d, .now (errR 0x0107))
    | some t => (d.each (List.range n) (fun d i => d.tallyGive (t + i) (some j)), .now (okR t))

/-- TALLY_ALLOC (R654). -/
def execTallyAlloc (o : Origin) (ops : Bytes) (s : State) : Host.Outcome State Fault Refusal :=
  .next (s.onDev (·.command 0x0005 o ops (·.tallyAlloc ops)))

/-- TALLY_FREE's effect: every tally of the range must be allocated; the count has no bound of its own (DESIGN
CHOICE, log 79). -/
def Dev.tallyFree (d : Dev) (ops : Bytes) : Dev × Answer :=
  let t := opnd ops 16 2
  let n := opnd ops 18 2
  let ts := (List.range n).map (t + ·)
  if n = 0 ∨ 65536 < t + n ∨ !ts.all (d.tallyUsed ·) then (d, .now (errR 0x0107))
  else (d.each ts (fun d t => d.tallyGive t none), .now (okR 0))

/-- TALLY_FREE (R74). -/
def execTallyFree (o : Origin) (ops : Bytes) (s : State) : Host.Outcome State Fault Refusal :=
  .next (s.onDev (·.command 0x0006 o ops (·.tallyFree ops)))

/-! ## The mailbox (R70 to R73, R87) -/

/-- Is a mailbox register one of opcode or arguments (R70)? -/
def mboxLatched (off : Nat) : Bool :=
  off == CMD.MBOX_OPCODE.REG.off || (decide ((CMD.MBOX_ARG.REG 0).off ≤ off ∧ off ≤ (CMD.MBOX_ARG.REG 11).off) && off % 4 == 0)

/-- MBOX_REGISTER_WRITE's effect. -/
def Dev.mboxWrite (d : Dev) (off : Nat) (v : Reg) : Dev :=
  if off = CMD.MBOX_FLAGS.REG.off then
    let d := d.set CMD.MBOX_FLAGS.IRQ_EN (bits v.toNat 1 1)
    if bit v.toNat 0 then d.set CMD.MBOX_FLAGS.DROPPED 0 else d
  else if !mboxLatched off then d
  else if d.mboxPending then d.set CMD.MBOX_FLAGS.DROPPED 1
  else d.wr off (if off = CMD.MBOX_OPCODE.REG.off then BitVec.ofNat 32 (bits v.toNat 15 0) else v)

/-- MBOX_REGISTER_WRITE (R71). -/
def execMboxRegisterWrite (off : Nat) (v : Reg) (s : State) : Host.Outcome State Fault Refusal :=
  .next (s.onDev (·.mboxWrite off v))

/-- MBOX_DOORBELL's effect (R71, R72): any write while the result is PENDING is ignored and sets DROPPED. -/
def Dev.mboxDoorbell (d : Dev) (v : Reg) : Dev :=
  if d.mboxPending then d.set CMD.MBOX_FLAGS.DROPPED 1
  else if !bit v.toNat 0 then d
  else d.mboxPost (d.get CMD.MBOX_OPCODE.OPCODE) ((List.range 12).flatMap (fun i => leBytes 4 (d.get (CMD.MBOX_ARG.VALUE i))))

/-- MBOX_DOORBELL (R71). -/
def execMboxDoorbell (v : Reg) (s : State) : Host.Outcome State Fault Refusal :=
  .next (s.onDev (·.mboxDoorbell v))

/-- MBOX_HELD_SERVE's effect: a held command once the state has left LOADING or REHANG. -/
def Dev.mboxHeldServe (d : Dev) : Dev :=
  match d.cmd.mbox with
  | some m => if m.held && d.curator != curLOADING && d.curator != curREHANG then d.mboxServe m else d
  | none => d

/-- MBOX_HELD_SERVE (R72). -/
def execMboxHeldServe (s : State) : Host.Outcome State Fault Refusal :=
  .next (s.onDev (·.mboxHeldServe))

/-! ## Management commands (R74) -/

/-- NOP (R73): RESULT 0. -/
def execNop (o : Origin) (ops : Bytes) (s : State) : Host.Outcome State Fault Refusal :=
  .next (s.onDev (·.command 0x0001 o ops (fun d => (d, .now (okR 0)))))

/-- The enabled rings. -/
def Dev.usedRings (d : Dev) : List Nat :=
  let base := (QSU.RING_CFG.REG 0).off
  (d.regs.filterMap (fun (o, _) => if base ≤ o ∧ o < base + 0x80000 ∧ (o - base) % 32 = 0 then some ((o - base) / 32)
    else none)).filter (fun r => d.flag (QSU.RING_CFG.ENABLE r))

/-- The operand checks of RING_CREATE (R653) that give 0x0107. -/
def Dev.ringOperandsOk (d : Dev) (ops : Bytes) : Bool :=
  let base := opnd ops 16 8
  let n := opnd ops 24 1
  let kind := opnd ops 25 1
  let loc := opnd ops 26 1
  let cq := opnd ops 28 2
  let vec := opnd ops 32 2
  let irq := opnd ops 34 1
  decide (6 ≤ n ∧ n ≤ 20 ∧ kind ≤ 2 ∧ loc ≤ 1) && base % 64 == 0 && (loc == 0 || decide (base < 2 ^ 48))
    && (d.job (opnd ops 30 2)).isSome && opnd ops 30 2 != 0
    && (if kind = 0 then d.ringOn cq 1 && vec == 0 && irq == 0 else cq == 0)
    && decide (vec ≤ 2047) && opndZero ops 27 1 && bits irq 7 1 == 0 && opndZero ops 35 29

/-- Write a new ring's descriptor and enable it. -/
def Dev.ringMake (d : Dev) (r : Nat) (ops : Bytes) : Dev :=
  let base := opnd ops 16 8
  let cfg := 1 ||| (opnd ops 26 1 <<< 1) ||| (opnd ops 25 1 <<< 2) ||| (opnd ops 24 1 <<< 4)
    ||| (bits (opnd ops 34 1) 0 0 <<< 10) ||| (opnd ops 32 2 <<< 11)
  let d := (d.wr (QSU.RING_BASE_LO.REG r).off (BitVec.ofNat 32 base)).wr (QSU.RING_BASE_HI.REG r).off (BitVec.ofNat 32 (base / 2 ^ 32))
  let d := d.wr (QSU.RING_PAIR.REG r).off (BitVec.ofNat 32 (opnd ops 30 2 * 65536 + opnd ops 28 2))
  let d := d.each [QSU.RING_HEAD.REG r, QSU.RING_TAIL.REG r, QSU.RING_STATUS.REG r, QSU.RING_RESV.REG r] (fun d f => d.clearReg f.off)
  let d := d.wr (QSU.RING_CFG.REG r).off (BitVec.ofNat 32 cfg)
  { d with cmd.fullSince := smapSet fullDflt d.cmd.fullSince r none, cmd.walkHalt := d.cmd.walkHalt.filter (· != r) }

/-- RING_CREATE's effect (R653). -/
def Dev.ringCreate (d : Dev) (ops : Bytes) : Dev × Answer :=
  if !d.ringOperandsOk ops then (d, .now (errR 0x0107))
  else match freeRun d.usedRings 16 16384 1 with
    | none => (d, .now (errR 0x0107))
    | some r =>
      let kind := opnd ops 25 1
      let dom := d.domOf (opnd ops 30 2)
      let (d, ok) : Dev × Except Refused (List Seg) :=
        if opnd ops 26 1 = 0 then (d, .ok [])
        else d.xlate (qsuAcc (if kind = 0 then 1 else 2) dom) (opnd ops 16 8) (64 * 2 ^ opnd ops 24 1)
      match ok with
      | .error e => (d, .now (errA (causeStatus e.cause) e.addr))
      | .ok _ => (d.ringMake r ops, .now (okR r))

/-- RING_CREATE (R653). -/
def execRingCreate (o : Origin) (ops : Bytes) (s : State) : Host.Outcome State Fault Refusal :=
  .next (s.onDev (·.command 0x0003 o ops (·.ringCreate ops)))

/-- Disable a ring: its wait goes, and classes bound to it become unbound (R655). -/
def Dev.ringDisable (d : Dev) (r : Nat) : Dev :=
  let d := d.set (QSU.RING_CFG.ENABLE r) 0
  { d with cmd.waits := smapSet waitDflt d.cmd.waits r none,
           cmd.evBind := d.cmd.evBind.filter (fun e => e.2 != r + 1) }

/-- Walk a submission ring from head to tail (R60), completing what was never dispatched. It stops at
the tail, while the bound completion ring has no free entry, or at an entry that cannot be read, which stays
at the head (R649). -/
def Dev.ringWalk : Nat → Dev → Nat → Dev
  | 0, d, _ => d
  | n + 1, d, r =>
    let cq := d.get (QSU.RING_PAIR.CQ r)
    if d.ringUsed r = 0 ∨ (d.ringOn cq 1 ∧ d.ringFree cq = 0) then d
    else match d.readEntry r (d.get (QSU.RING_HEAD.INDEX r)) with
      | (d, .error (st, a)) => { (d.ringError r st).event st a with cmd.walkHalt := d.cmd.walkHalt ++ [r] }
      | (d, .ok e) =>
        let bad := headerBad e
        let len := if bad ≠ 0 then 1 else min (pkLength e) (d.ringUsed r)
        Dev.ringWalk n ((d.headOn r len).refusePacket r e (if bad ≠ 0 then bad else 0x010A)) r

/-- Has the walk of ring `r` ended, with every dispatched packet of it complete but those in `but`? -/
def Dev.ringWalked (d : Dev) (r : Nat) (but : InFlight → Bool) : Bool :=
  d.ringUsed r == 0 && d.cmd.inflight.all (fun f => f.org.chan != .ring r || but f)

/-- RING_DESTROY's effect (R60): the walk begins; the ring is disabled when the command completes. -/
def Dev.ringDestroy (d : Dev) (ops : Bytes) : Dev × Answer :=
  let r := opnd ops 16 2
  if r < 16 ∨ 16384 ≤ r ∨ !d.flag (QSU.RING_CFG.ENABLE r) then (d, .now (errR 0x0107))
  else if d.ringOn r 1 && d.usedRings.any (fun q => d.ringOn q 0 && d.get (QSU.RING_PAIR.CQ q) == r) then
    (d, .now (errR 0x0107))
  else if d.ringOn r 0 then
    -- the walk is bounded by the entries between head and tail
    (Dev.ringWalk (d.ringUsed r) d r, .later (okR 0) (.ringDestroy r) [])
  else (d.ringDisable r, .now (okR 0))

/-- RING_DESTROY (R60). -/
def execRingDestroy (o : Origin) (ops : Bytes) (s : State) : Host.Outcome State Fault Refusal :=
  .next (s.onDev (·.command 0x0004 o ops (·.ringDestroy ops)))

/-- The jobs that exist. -/
def Dev.jobNumbers (d : Dev) : List Nat := (d.cmd.jobs.filter (fun e => e.2.isSome)).map (·.1)

/-- JOB_CREATE's effect (R74): the lowest free job number. -/
def Dev.jobCreate (d : Dev) (ops : Bytes) : Dev × Answer :=
  let dom := opnd ops 16 1
  if dom = 0 ∨ !opndZero ops 17 7 then (d, .now (errR 0x0107))
  else match freeRun d.jobNumbers 1 65536 1 with
    | none => (d, .now (errR 0x0107))
    | some j => (d.setJob j (some ⟨dom, opnd ops 24 8, none⟩), .now (okR j))

/-- JOB_CREATE (R74). -/
def execJobCreate (o : Origin) (ops : Bytes) (s : State) : Host.Outcome State Fault Refusal :=
  .next (s.onDev (·.command 0x0009 o ops (·.jobCreate ops)))

/-- Bind exactly the classes of `mask` to event ring `r` (R655). -/
def Dev.bindClasses (d : Dev) (r mask : Nat) : Dev :=
  d.each (List.range 16) (fun d k =>
    if bit mask k then { d with cmd.evBind := smapSet evBindDflt d.cmd.evBind k (r + 1) }
    else if smapGet evBindDflt d.cmd.evBind k = r + 1 then { d with cmd.evBind := smapSet evBindDflt d.cmd.evBind k 0 }
    else d)

/-- EVENT_RING_BIND's effect (R655). -/
def Dev.eventRingBind (d : Dev) (ops : Bytes) : Dev × Answer :=
  let r := opnd ops 16 2
  let mask := opnd ops 18 2
  if !d.ringOn r 2 || bit mask 0 || bits mask 15 10 != 0 then (d, .now (errR 0x0107))
  else (d.bindClasses r mask, .now (okR 0))

/-- EVENT_RING_BIND (R655). -/
def execEventRingBind (o : Origin) (ops : Bytes) (s : State) : Host.Outcome State Fault Refusal :=
  .next (s.onDev (·.command 0x000B o ops (·.eventRingBind ops)))

/-- WDOG_PET's effect (R79): core c's watchdog starts again, in REHANG too, whose window it so extends (DESIGN CHOICE,
log 79), unless the core is stalled (R595, log 81). -/
def Dev.wdogPet (d : Dev) (c : Nat) : Dev :=
  if c < 4 ∧ d.csv.stalled.contains c = false then { d with cmd.petAt := smapSet zeroDflt d.cmd.petAt c d.now } else d

/-- WDOG_PET (R79). -/
def execWdogPet (c : Nat) (s : State) : Host.Outcome State Fault Refusal :=
  .next (s.onDev (·.wdogPet c))

end Sys2Proof.Machine
end

