-- ==== Sys2Proof/Machine/MemoryCommands.lean ====
section
/-! DEFINITION. The memory commands (R337 to R340), the catalogue's changes with their invalidation
(R323, R334 to R336), and the controllers' own work: patrol scrub (R344), weak frames (R345) and lost
stacks (R346). -/

namespace Sys2Proof.Machine

/-! ## Ranges (R340) -/

/-- Is [a, a+n) outside page 0 and below 2^48, with a length in range? -/
def rangeOk (a n : Nat) : Bool := decide (pageBytes ≤ a ∧ 0 < n ∧ a + n ≤ 2 ^ 48)

/-- Is a page range well formed (R337)? -/
def pagesOk (a count : Nat) : Bool := decide (1 ≤ count ∧ count ≤ 65536) && a % pageBytes == 0 && rangeOk a (count * pageBytes)

/-! ## MAP (R338) -/

/-- The lowest free frame of a stack. -/
def Dev.nextFrame (d : Dev) (k : Nat) : Option Nat :=
  if d.stackFailed k then none
  else
    let held := (d.hbm.frames.filter (fun e => e.1 / 32768 == k && (e.2.used || e.2.weak))).map (fun e => e.1 % 32768)
    (freeRun held 0 (stackFrames k) 1).map (fun f => k * 32768 + f)

/-- The stacks in the order the rotation of 0xFF tries them (R338). -/
def Dev.rotation (d : Dev) : List Nat :=
  let ks := fittedStacks d.code
  ks.filter (fun k => decide (d.hbm.mapLast ≤ k)) ++ ks.filter (fun k => decide (k < d.hbm.mapLast))

/-- The next frame for a page: of the named stack, or of the rotation for 0xFF. -/
def Dev.takeFrame (d : Dev) (stack : Nat) : Option (Dev × Nat) :=
  if stack ≠ 0xFF then (d.nextFrame stack).map (fun f => (d, f))
  else match d.rotation.find? (fun k => (d.nextFrame k).isSome) with
    | none => none
    | some k => (d.nextFrame k).map (fun f => ({ d with hbm.mapLast := k + 1 }, f))

/-- Fill a frame with zero. -/
def Dev.zeroFrame (d : Dev) (pfn : Nat) : Dev :=
  let a := pfnFlat d.code pfn 0
  d.storeVia a pageBytes (fun d => { d with hbm.mem := memZero d.hbm.mem a pageBytes })

/-- The operands of MAP. -/
structure MapOps where
  page : Nat
  count : Nat
  bits_ : Nat
  dom : Nat
  replace : Bool
  sync : Bool
  zero : Bool
  explicit : Bool
  pfn : Nat
  stack : Nat
  deriving DecidableEq, Repr

def mapOps (ops : Bytes) : MapOps :=
  let o := opnd ops 31 1
  ⟨opnd ops 16 8 / pageBytes, opnd ops 24 4, opnd ops 28 2, opnd ops 30 1, bit o 0, bit o 1, bit o 2, bit o 3,
   opnd ops 32 4, opnd ops 36 1⟩

/-- The pages and explicit frames of a MAP. -/
def MapOps.pages (m : MapOps) : List Nat := (List.range m.count).map (m.page + ·)
def MapOps.pfns (m : MapOps) : List Nat := (List.range m.count).map (m.pfn + ·)

/-- Are the entry bits and options well formed? -/
def mapBitsOk (ops : Bytes) : Bool :=
  let b := opnd ops 28 2
  bit b 0 && !bit b 4 && bits b 7 5 == 0 && bits b 15 13 == 0 && bits (opnd ops 31 1) 7 4 == 0 && opndZero ops 37 27

/-- The checks of R338 in order: none when all pass, else the status and RESULT. -/
def Dev.mapCheck (d : Dev) (job : Nat) (ops : Bytes) : Option (Nat × Nat) :=
  let m := mapOps ops
  let badFrame (f : Nat) : Bool := !pfnUsable d.code f || f / 32768 != m.pfn / 32768
  if !mapBitsOk ops then some (0x0107, 0)
  else if !pagesOk (opnd ops 16 8) m.count then some (0x0215, 0)
  else if m.explicit && m.pfns.any badFrame then some (0x0215, (m.pfns.find? badFrame).getD 0)
  else if !m.explicit && m.stack != 0xFF && !(fittedStacks d.code).contains m.stack then some (0x0215, 0)
  else if m.dom ≠ d.domOf job ∨ m.dom = 0 then some (0x0211, 0)
  else if m.replace && m.pages.any (fun p => entValid (d.entryOf p) && entDomain (d.entryOf p) != m.dom) then some (0x0211, 0)
  else if !m.replace && m.pages.any (fun p => entValid (d.entryOf p)) then some (0x0213, 0)
  else if m.explicit && m.pfns.any (fun f => (d.frame f).used) then some (0x0213, (m.pfns.find? (fun f => (d.frame f).used)).getD 0)
  else if m.explicit && m.pfns.any (fun f => !d.frameFree f) then some (0x0214, (m.pfns.find? (fun f => !d.frameFree f)).getD 0)
  else if !m.explicit && decide ((if m.stack = 0xFF then d.freeFrames else d.stackFree m.stack) < m.count) then some (0x0214, 0)
  else
    let need := ((m.pages.map dirIx).eraseDups.filter (fun i => !bit (d.dirEnt i) 0)).length
    if d.leavesFree < need then some (0x0214, 0) else none

/-- Map one page to a frame: the frame zeroed when it must be (R336), the old frame in limbo (R335),
the entry written. -/
def Dev.mapPage (d : Dev) (m : MapOps) (page pfn : Nat) : Dev :=
  let f := d.frame pfn
  let d := d.when (m.zero || f.lastDom != m.dom) (·.zeroFrame pfn)
  let d := d.setFrame pfn { f with used := true, lastDom := m.dom, page := page }
  let old := d.entryOf page
  let d := if entValid old then { d with hbm.limbo := d.hbm.limbo ++ [(page, entPfn old)] } else d
  (d.leafFor (dirIx page)).putEntryOf page (m.bits_ + m.dom * 2 ^ 16 + pfn * 2 ^ 32)

/-- Map the pages in ascending order; gives the PFN of the first. -/
def Dev.mapPages (d : Dev) (m : MapOps) : Dev × Nat :=
  (List.range m.count).foldl (fun (d, first) i =>
    let got : Option (Dev × Nat) := if m.explicit then some (d, m.pfn + i) else d.takeFrame m.stack
    match got with
    | none => (d, first)
    | some (d, f) => (d.mapPage m (m.page + i) f, if i = 0 then f else first)) (d, 0)

/-- MAP's effect. -/
def Dev.mapEff (d : Dev) (job : Nat) (ops : Bytes) : Dev × Answer :=
  match d.mapCheck job ops with
  | some (st, r) => (d, .now (errA st r))
  | none =>
    let m := mapOps ops
    let (d, f) := d.mapPages m
    if m.replace && m.sync then (d.dropCached m.page m.count, .later (okR f) (.invalidate m.page m.count) [])
    else (d, .now (okR f))

/-- MAP (R338). -/
def execMap (o : Origin) (ops : Bytes) (s : State) : Host.Outcome State Fault Refusal :=
  .next (s.onDev (fun d => d.command 0x0101 o ops (fun d' => d'.mapEff (d.jobOf o) ops)))

/-- UNMAP's effect (R338): the entries of the range become invalid; then the invalidation. -/
def Dev.unmapEff (d : Dev) (job : Nat) (ops : Bytes) : Dev × Answer :=
  let a := opnd ops 16 8
  let n := opnd ops 24 4
  let p := a / pageBytes
  if !pagesOk a n then (d, .now (errR 0x0215))
  else
    let pages := ((List.range n).map (p + ·)).filter (fun q => entValid (d.entryOf q))
    if pages.any (fun q => entDomain (d.entryOf q) != d.domOf job) then (d, .now (errR 0x0211))
    else
      let d := d.each pages (fun d q => { d with hbm.limbo := d.hbm.limbo ++ [(q, entPfn (d.entryOf q))] }.putEntryOf q 0)
      let d := d.weakDue
      (d.dropCached p n, .later (okR pages.length) (.invalidate p n) [])

/-- UNMAP (R338). -/
def execUnmap (o : Origin) (ops : Bytes) (s : State) : Host.Outcome State Fault Refusal :=
  .next (s.onDev (fun d => d.command 0x0102 o ops (fun d' => d'.unmapEff (d.jobOf o) ops)))

/-- INVALIDATE's effect (R334). -/
def Dev.invalidateEff (d : Dev) (ops : Bytes) : Dev × Answer :=
  let a := opnd ops 16 8
  let n := opnd ops 24 4
  if n = 0 then (d.dropCached 0 0, .later (okR 0) (.invalidate 0 0) [])
  else if !pagesOk a n then (d, .now (errR 0x0215))
  else (d.dropCached (a / pageBytes) n, .later (okR 0) (.invalidate (a / pageBytes) n) [])

/-- INVALIDATE (R334). -/
def execInvalidate (o : Origin) (ops : Bytes) (s : State) : Host.Outcome State Fault Refusal :=
  .next (s.onDev (·.command 0x0103 o ops (·.invalidateEff ops)))

/-! ## COPY, FILL and HOST_DMA (R339) -/

/-- The memory controllers' accesses for a command (R652). -/
def cmdAcc (perm dom : Nat) : Acc := ⟨mcCache, none, perm, dom, 6⟩

/-- The host interface's accesses (R327): the HOST bit. -/
def hifAcc (perm dom : Nat) : Acc := ⟨200, some 9, perm, dom, 1⟩

/-- Record and give the refusal with the lowest address of two checks (R329). -/
def Dev.refuseLow (d : Dev) (x y : Option (Acc × Refused)) : Dev × Option (Nat × Nat) :=
  match (match x, y with
    | some (a, e), some (b, f) => if e.addr ≤ f.addr then some (a, e) else some (b, f)
    | some p, none => some p
    | none, q => q) with
  | none => (d, none)
  | some (a, e) => (d.refused a e, some (causeStatus e.cause, e.addr))

def errOf {α : Type} (a : Acc) : Except Refused α → Option (Acc × Refused)
  | .error e => some (a, e)
  | .ok _ => none

/-- The pieces of a translation, none when it was refused. -/
def segsOf : Except Refused (List Seg) → List Seg
  | .ok s => s
  | .error _ => []

/-- The first byte of a destination on a failed stack (R346). -/
def Dev.segFailed (d : Dev) : Nat → List Seg → Option Nat
  | _, [] => none
  | o, (a, n) :: ss => match (flatSegs a n).find? (fun s => d.flatFailed s.1) with
    | some s => some (o + (s.1 - a))
    | none => d.segFailed (o + n) ss

/-- Move `n` bytes between translated ranges as if the source were read first. A source codeword that
cannot be read, or a destination on a failed stack, stops the command with 0x0216; how much of the
destination before it has been written is a free value (R340, log 2). -/
def Dev.moveSegs (d : Dev) (src dst : List Seg) (srcA dstA : Nat) : Dev × Result :=
  let data := d.segGather 0 src
  let (d, bad) := d.readSegs src
  match bad, d.segFailed 0 dst with
  | none, none => (d.storeSparse data 0 dst, okR 0)
  | some o, _ =>
    let (k, d) := d.draw
    (d.storeSparse data 0 (segTake dst (k % (o + 1))), errA 0x0216 ((srcA + o) / 64 * 64))
  | none, some o =>
    let (k, d) := d.draw
    (d.storeSparse data 0 (segTake dst (k % (o + 1))), errA 0x0216 ((dstA + o) / 64 * 64))

/-- COPY's effect. -/
def Dev.copyEff (d : Dev) (job : Nat) (ops : Bytes) : Dev × Answer :=
  let src := opnd ops 16 8
  let dst := opnd ops 24 8
  let n := opnd ops 32 8
  let dom := d.domOf job
  if !rangeOk src n || !rangeOk dst n || decide (2 ^ 40 < n) then (d, .now (errR 0x0215))
  else
    let (d, s) := d.tryXlate (cmdAcc 1 dom) src n
    let (d, t) := d.tryXlate (cmdAcc 2 dom) dst n
    match d.refuseLow (errOf (cmdAcc 1 dom) s) (errOf (cmdAcc 2 dom) t) with
    | (d, some (st, a)) => (d, .now (errA st a))
    | (d, none) =>
      let (d, r) := d.moveSegs (segsOf s) (segsOf t) src dst
      (d, .later r .ready [(src, n), (dst, n)])

/-- COPY (R339). -/
def execCopy (o : Origin) (ops : Bytes) (s : State) : Host.Outcome State Fault Refusal :=
  .next (s.onDev (fun d => d.command 0x0104 o ops (fun d' => d'.copyEff (d.jobOf o) ops)))

/-- `n` bytes of a pattern repeated. -/
def repeatBytes (pat : Bytes) (n : Nat) : Bytes := (List.range n).map (fun i => pat.getD (i % pat.length) 0)

/-- FILL's effect. -/
def Dev.fillEff (d : Dev) (job : Nat) (ops : Bytes) : Dev × Answer :=
  let dst := opnd ops 16 8
  let n := opnd ops 24 8
  let w := opnd ops 36 1
  let acc := cmdAcc 2 (d.domOf job)
  if !rangeOk dst n || decide (2 ^ 40 < n) then (d, .now (errR 0x0215))
  else if w ≠ 1 ∧ w ≠ 2 ∧ w ≠ 4 then (d, .now (errR 0x0107))
  else match d.xlate acc dst n with
    | (d, .error e) => (d, .now (errA (causeStatus e.cause) e.addr))
    | (d, .ok segs) =>
      let pat := (leBytes 4 (opnd ops 32 4)).take w
      match d.segFailed 0 segs with
      | none => (d.storeSegs segs (repeatBytes pat n), .later (okR 0) .ready [(dst, n)])
      | some o =>
        let (k, d) := d.draw
        (d.storeSegs segs (repeatBytes pat (k % (o + 1))), .later (errA 0x0216 ((dst + o) / 64 * 64)) .ready [(dst, n)])

/-- FILL (R339). -/
def execFill (o : Origin) (ops : Bytes) (s : State) : Host.Outcome State Fault Refusal :=
  .next (s.onDev (fun d => d.command 0x0105 o ops (fun d' => d'.fillEff (d.jobOf o) ops)))

/-- HOST_DMA's effect. -/
def Dev.hostDmaEff (d : Dev) (job : Nat) (ops : Bytes) : Dev × Answer :=
  let h := opnd ops 16 8
  let a := opnd ops 24 8
  let n := opnd ops 32 8
  let out := opnd ops 40 1
  let acc := hifAcc (if out = 0 then 2 else 1) (d.domOf job)
  if !rangeOk a n || decide (2 ^ 40 < n) then (d, .now (errR 0x0215))
  else if 1 < out then (d, .now (errR 0x0107))
  else match d.xlate acc a n with
    | (d, .error e) => (d, .now (errA (causeStatus e.cause) e.addr))
    | (d, .ok segs) =>
      let stop (d : Dev) (o : Nat) : Answer :=
        let _ := d
        .later (errA 0x0216 ((a + o) / 64 * 64)) .ready [(a, n)]
      if out = 0 then
        let data := (smapRange d.host h n).map (fun e => (e.1 - h, e.2))
        match d.segFailed 0 segs with
        | none => (d.storeSparse data 0 segs, .later (okR 0) .ready [(a, n)])
        | some o =>
          let (k, d) := d.draw
          (d.storeSparse data 0 (segTake segs (k % (o + 1))), stop d o)
      else
        let (d, bad) := d.readSegs segs
        -- the one kind of write with Relaxed Ordering (R626)
        let put (d : Dev) (k : Nat) : Dev :=
          let es := (smapRange (d.segGather 0 segs) 0 k).map (fun (e : Nat × Byte) => (e.1 + h, e.2))
          { d with host := smapSetAll memDflt (memZero d.host h k) es }.emit (.hostWrite [(h, k)] true false)
        match bad with
        | none => (put d n, .later (okR 0) .ready [(a, n)])
        | some o =>
          let (k, d) := d.draw
          (put d (k % (o + 1)), stop d o)

/-- HOST_DMA (R339). -/
def execHostDma (o : Origin) (ops : Bytes) (s : State) : Host.Outcome State Fault Refusal :=
  .next (s.onDev (fun d => d.command 0x0106 o ops (fun d' => d'.hostDmaEff (d.jobOf o) ops)))

/-! ## The controllers' own work -/

/-- Codewords per stack. -/
def stackCws : Nat := stackBytes / 64

/-- One codeword of a stack's patrol scrub (R344): the sweep of a period reads each once, and the next sweep waits for
the next period. -/
def Dev.patrolScrub (d : Dev) (k : Nat) : Dev :=
  if !(fittedStacks d.code).contains k || d.stackFailed k then d
  else
    let d := d.scrubRoll k
    let s := smapGet scrubDflt d.hbm.scrub k
    if s.fin then d
    else
      let d := d.meetPieces [(flatOf d.code k (s.pos * 64), 64)]
      let next := (s.pos + 1) % stackCws
      let d := { d with hbm.scrub := smapSet scrubDflt d.hbm.scrub k ⟨next, s.since, next == 0⟩ }
      (d.set (HMC.CTL_STATE.SCRUBBING k) (b2n (next != 0))).set (HMC.SCRUB_PROGRESS.FRAME k) (next * 64 / pageBytes)

/-- HBM_PATROL_SCRUB (R344). -/
def execHbmPatrolScrub (stack : Nat) (s : State) : Host.Outcome State Fault Refusal :=
  .next (s.onDev (·.patrolScrub stack))

/-- A controller loses its stack (R346). -/
def Dev.stackLost (d : Dev) (k : Nat) : Dev :=
  if !(fittedStacks d.code).contains k || d.stackFailed k then d else d.loseStack k

/-- HBM_STACK_FAILED (R346). -/
def execHbmStackFailed (stack : Nat) (s : State) : Host.Outcome State Fault Refusal :=
  .next (s.onDev (·.stackLost stack))

end Sys2Proof.Machine
end

