-- ==== Sys2Proof/Machine/TileArray.lean ====
section
/-! DEFINITION. The matrix arrays: load layouts and skew images (R126, R133, R140), the row sums
(R137 to R139, R144 to R147), the accumulator stage (R141, R142), and the start, commit and abort of
a stream (R131, R132, R143). -/

namespace Sys2Proof.Machine

/-! ## Reading a stream from scratchpad -/

/-- The bytes of a stream at a scratchpad address, or at a region's logical offset (`reg` is the
region number plus 1, 0 for none). -/
def Dev.tileRd (d : Dev) (t base reg : Nat) : Rd := fun off n =>
  if reg = 0 then (d.tile t).rdSpm ((base + off) % spmBytes) n else d.regRead t (reg - 1) ((base + off) % m32) n

/-- The whole lines that hold a piece of scratchpad: a slot reads a line (R176, R225). -/
def lineSpan (s : Seg) : Seg := (s.1 / 128 * 128, alignUp (s.1 + s.2) 128 - s.1 / 128 * 128)

/-- The lines that a read of a stream takes. -/
def Dev.tileLines (d : Dev) (t base reg off n : Nat) : List Seg :=
  if n = 0 then []
  else if reg = 0 then [lineSpan ((base + off) % spmBytes, n)]
  else (d.regSpan t (reg - 1) ((base + off) % m32) n).map lineSpan

/-- What a decode gives once its reads have met the check bits (R228): correctable words are corrected and
counted; a read of an uncorrectable word delivers nothing and fails with 0x0265. -/
def Dev.tileCheck {α : Type} (d : Dev) (t base reg : Nat) (reads : List TRead) (r : Except TFault α) : Dev × Except TFault α :=
  let segs (e : TRead) : List Seg := d.tileLines t base reg e.2.1 e.2.2
  let good := reads.takeWhile (fun e => !(segs e).any (fun s => ((d.tile t).spmBad s.1 s.2).isSome))
  let d' := d.each (reads.take (good.length + 1)) (fun d e => d.each (segs e) (fun d s => d.spmTouch t s.1 s.2))
  match reads[good.length]? with
  | some e => (d', .error ⟨0x0265, e.1, 0, 0, 0⟩)
  | none => (d', r)

/-- A stream whose extent no descriptor bounds. -/
def noLim : Nat := 2 ^ 64

/-- Decode blocks lo to hi of a stream in the tile. -/
def Dev.tileDecode (d : Dev) (t base reg fmt lo hi : Nat) : Dev × Except TFault (THeader × List Block) :=
  let rd := d.tileRd t base reg
  let r := tessRead rd fmt noLim lo hi
  d.tileCheck t base reg (tessReads rd fmt lo hi r) r

/-- Whether what a port reads in a region is there (R234), or can never be within the region's SIZE (R237). -/
inductive Supply where
  | ready
  | wait
  | tooBig
  deriving DecidableEq, Repr

/-- Is an open stream supplied through segment `last`, with `avail` bytes supplied in a region of `size`? -/
def tessSupply (rd : Rd) (hd : THeader) (avail size last : Nat) : Nat → Nat → Nat → Supply
  | 0, _, _ => .ready
  | n + 1, s, start =>
    if last < s then .ready
    else if size < start + 128 then .tooBig
    else if avail < start + 128 then .wait
    else
      let stop := (tessHeads rd hd s start).2.2
      if size < stop then .tooBig else if avail < stop then .wait else tessSupply rd hd avail size last n (s + 1) stop

/-- Is a stream supplied up to block `hi`, from segment s at `start` on? A closed stream is read through its
directory, so all of it. -/
def streamSupply (rd : Rd) (hd : THeader) (avail size hi s start : Nat) : Supply :=
  if hd.closed then (if size < hd.bytes then .tooBig else if avail < hd.bytes then .wait else .ready)
  else
    let last := (min hi (tessBlockCount hd.elems - 1)) / 32
    tessSupply rd hd avail size last (last + 1 - s) s start

/-- May the port read blocks up to `hi` of a stream now? A scratchpad extent always; a region once
its producer has supplied the bytes. A header that fails its checks is read and fails. -/
def Dev.supply (d : Dev) (t base reg fmt hi : Nat) : Supply :=
  if reg = 0 then .ready
  else
    let avail := d.regAvail t (reg - 1) base
    if avail < 128 then .wait
    else match tessReadHeader fmt (d.tileRd t base reg 0 128) with
      | .error _ => .ready
      | .ok h => streamSupply (d.tileRd t base reg) h avail (d.regSize t (reg - 1)) hi 0 128

/-! ## Weight blocks (R123, R126, R140) -/

/-- The blocks of a load-layout stream: 1,024 × p elements. -/
def loadBlocks (fmt : Nat) : Nat := 16 * packing fmt

/-- Decode an MLOAD's source. -/
def Dev.readWeights (d : Dev) (t base reg fmt : Nat) (quad : Bool) : Dev × Except TFault WBlock :=
  match d.tileDecode t base reg fmt 0 (loadBlocks fmt - 1) with
  | (d, .error e) => (d, .error e)
  | (d, .ok (_, bs)) =>
    if bs.length < loadBlocks fmt then (d, .error ⟨0x0302, bs.length, 0, 0, 0⟩)
    else (d, .ok ⟨fmt, quad, blockCodes bs, blockScales bs⟩)

/-- Element W[k][c] of a full-mode block, and of quadrant q's plane j, column n. -/
def WBlock.codeAt (w : WBlock) (k c : Nat) : Nat := w.codes.getD (32 * c + k) 0
def WBlock.quadAt (w : WBlock) (q j n k : Nat) : Nat := w.codes.getD ((16 * j + n) * 64 + 16 * q + k) 0

/-! ## Row sums -/

/-- Flags of a panel row (R147), in the places of `MXA.FLAGS`. -/
def mfNAN : Nat := 1
def mfNV : Nat := 2
def mfOF : Nat := 4
def mfSAT : Nat := 8

/-- One cell (R144): sum := RNE(sum + a × w). -/
def cellFma (acc : Nat × Nat) (aw : Val × Val) : Nat × Nat :=
  let p := valMul aw.1 aw.2
  let s := valAdd (f32 acc.1) p
  let nanIn := aw.1.isNan || aw.2.isNan
  let nv := (p.isNan && !nanIn) || (s.isNan && !p.isNan && !(f32 acc.1).isNan)
  let c := toF32c s
  (c, acc.2 ||| (if nanIn then mfNAN else 0) ||| (if nv then mfNV else 0)
    ||| (if s.isFin && !(f32 c).isFin then mfOF else 0))

/-- A partial sum down the cells, from +0. -/
def cellSum (xs : List (Val × Val)) : Nat × Nat := xs.foldl cellFma (0, 0)

/-- The accumulator stage in FP32 (R144, R145): RNE(slot + f × sum), or RNE(f × sum) for START. -/
def accFp (old : Option Nat) (f : Val) (sum : Nat × Nat) : Nat × Nat :=
  let s := f32 sum.1
  let p := valMul f s
  let r := match old with
    | some o => valAdd (f32 o) p
    | none => p
  let oldNan := match old with | some o => (f32 o).isNan | none => false
  let nanIn := f.isNan
  let nv := (r.isNan && !oldNan && !s.isNan && !nanIn)
  let c := toF32c r
  (c, sum.2 ||| (if nanIn then mfNAN else 0) ||| (if nv then mfNV else 0)
    ||| (if r.isFin && !(f32 c).isFin then mfOF else 0))

/-- The accumulator stage in INT32 (R146): saturating. -/
def accInt (old : Option Nat) (sum : Int) : Nat × Nat :=
  let r := (match old with | some o => sext 32 o | none => 0) + sum
  let c := clampSigned 32 r
  (wrap 32 c, if c = r then 0 else mfSAT)

/-- A scale byte's factor: 2^(s − 127), NaN for 0xFF (R98). -/
def scaleVal (s : Nat) : Val := if s = 255 then .nan else .fin false 1 ((s : Int) - 127)

/-- A format's element value with its group's scale, or raw (scale 0x7F). -/
def elVal (fmt scale c : Nat) : Val := tessVal fmt scale c

/-- The operands of one sum: (code, scale) pairs for the streamed elements and for the weights. -/
def dotPairs (sf wf : Nat) (xs : List (Nat × (Nat × Nat))) : List (Val × Val) :=
  xs.map (fun (a, w, sw) => (elVal sf 127 a, elVal wf sw w))

def dotInt (xs : List (Nat × (Nat × Nat))) : Int :=
  xs.foldl (fun acc (a, w, _) => acc + sext 8 a * sext 8 w) 0

/-- One output lane: the accumulated value, as FP32 or INT32. -/
def laneOut (sf wf : Nat) (f : Val) (old : Option Nat) (xs : List (Nat × (Nat × Nat))) : Nat × Nat :=
  if wf = 8 then accInt old (dotInt xs) else accFp old f (cellSum (dotPairs sf wf xs))

/-- The lanes of panel row `ix` of a stream row (R137, R138, R139): for each, its pairs and the MB
factor. `el lane slotOffset` reads the image: element k of the row. -/
def panelLanes (w : WBlock) (axisT : Bool) (plane ix : Nat) (sa : Nat) (el : Nat → Nat) :
    List (List (Nat × (Nat × Nat)) × Val) :=
  let mb := (groupOfCode w.fmt).isSome
  let p := packing w.fmt
  if axisT then
    (List.range 32).map (fun k =>
      ((List.range 32).map (fun n => (el n, w.codeAt k (32 * plane + n), if mb then w.scales.getD (32 * plane + n) 0 else 0)),
       if mb then scaleVal sa else .fin false 1 0))
  else if w.quad then
    let h := ix / p
    let j := ix % p
    (List.range 32).map (fun l =>
      let q := 2 * h + l / 16
      ((List.range 16).map (fun k => (el (16 * q + k), w.quadAt q j (l % 16) k, 0)), Val.fin false 1 0))
  else
    (List.range 32).map (fun n =>
      let c := 32 * ix + n
      ((List.range 32).map (fun k => (el k, w.codeAt k c, 127)),
       if mb then valMul (scaleVal sa) (scaleVal (w.scales.getD c 0)) else .fin false 1 0))

/-! ## Streams -/

/-- The fields of an MSTREAM (R270) with its captured values. -/
def sQuad (i : TIns) : Bool := bit i.word 38
def sSwap (i : TIns) : Bool := bit i.word 39
def sAdd (i : TIns) : Bool := bit i.word 40
def sWfmt (i : TIns) : Nat := bits i.word 45 42
def sSfmt (i : TIns) : Nat := bits i.word 49 46
def sAcc (i : TIns) : Nat := bits i.word 63 55
def sReg (i : TIns) : Nat := if bit i.word 68 then bits i.word 74 69 + 1 else 0
def sM (i : TIns) : Nat := i.y
def sRow0 (i : TIns) : Nat := i.z

/-- Does a stream continue the previous one on its array (R136)? -/
def continues (a : Arr) (i : TIns) : Bool :=
  match a.last with
  | some l => l.base == i.x && l.region == sReg i && l.quad == sQuad i && l.next == sRow0 i
  | none => false

/-- The last block of a stream's image it reads, drain slots included (R133, R136). -/
def imageHi (i : TIns) : Nat :=
  if sQuad i then sRow0 i + sM i - 1 + 15 else (sRow0 i + sM i - 1 + 31) / 2
def imageLo (i : TIns) : Nat := if sQuad i then sRow0 i else sRow0 i / 2

/-- The header of the image a port is in, as its blocks need it. -/
def ImagePos.header (p : ImagePos) : THeader := ⟨p.elems, 0, 0, p.closed, p.bytes, p.dirOff⟩

/-- The first block beyond those the port holds. -/
def ImagePos.top (p : ImagePos) : Nat := p.lo + p.codes.length / 64

/-- Where a stream's image lies in its array: what a continuing stream reads on from (R136). -/
def Arr.pos (a : Arr) (i : TIns) : Option ImagePos := if continues a i then a.last else none

/-- Is a stream's image supplied (R234)? A continuing stream needs what its predecessor has not read. -/
def Dev.imageSupply (d : Dev) (t : Nat) (a : Arr) (i : TIns) : Supply :=
  match a.pos i with
  | none => d.supply t i.x (sReg i) (sSfmt i) (imageHi i)
  | some p =>
    if p.region = 0 ∨ imageHi i < p.top then .ready
    else streamSupply (d.tileRd t p.base p.region) p.header
      (p.start + d.regAvail t (p.region - 1) ((p.base + p.start) % m32)) (p.start + d.regSize t (p.region - 1))
      (imageHi i) p.seg p.start

/-- Would a stream enter an open image beyond segment 0 (R178)? Known once the header is there. -/
def Dev.entersLate (d : Dev) (t : Nat) (a : Arr) (i : TIns) : Bool :=
  (a.pos i).isNone && (sReg i == 0 || decide (128 ≤ d.regAvail t (sReg i - 1) i.x)) &&
    match tessReadHeader (sSfmt i) (d.tileRd t i.x (sReg i) 0 128) with
    | .ok h => noEntry h (imageLo i)
    | .error _ => false

/-- What a stream reads of its image: the port's place after it, and how many blocks it decoded. -/
structure ImageRead where
  pos : ImagePos
  fresh : Nat
  deriving DecidableEq, Repr

/-- The image blocks of a stream. A continuing stream shares the blocks its predecessor read, and each is read
once (R136); another enters its image at the block of slot ROW0 (R178). -/
def Dev.readImage (d : Dev) (t : Nat) (a : Arr) (i : TIns) : Dev × Except TFault ImageRead :=
  let rd := d.tileRd t i.x (sReg i)
  let hi := imageHi i
  let next := sRow0 i + sM i
  let fmt := sSfmt i
  match a.pos i with
  | some p =>
    if hi < p.top then (d, .ok ⟨{ p with next := next }, 0⟩)
    else
      let stop := min hi (tessBlockCount p.elems - 1)
      let n := stop / 32 + 1 - p.seg
      let r := tessReadSegs rd fmt noLim p.header p.top stop n p.seg p.start
      let cut := match r with | .error e => e.block | .ok _ => stop
      match d.tileCheck t i.x (sReg i) ((tessSegReads rd p.header p.top stop n p.seg p.start).filter (fun e => decide (e.1 ≤ cut))) r with
      | (d, .error e) => (d, .error e)
      | (d, .ok bs) =>
        if p.top + bs.length ≤ hi then (d, .error ⟨0x0302, p.top + bs.length, 0, 0, 0⟩)
        else (d, .ok ⟨{ p with next := next, seg := stop / 32, start := segStart rd p.header (stop / 32 - p.seg) p.seg p.start,
                                codes := p.codes ++ blockCodes bs, scales := p.scales ++ blockScales bs }, bs.length⟩)
  | none =>
    let lo := imageLo i
    match d.tileDecode t i.x (sReg i) fmt lo hi with
    | (d, .error e) => (d, .error e)
    | (d, .ok (h, bs)) =>
      if lo + bs.length ≤ hi then (d, .error ⟨0x0302, lo + bs.length, 0, 0, 0⟩)
      else (d, .ok ⟨⟨i.x, sReg i, sQuad i, next, h.elems, h.closed, h.bytes, h.dirOff, hi / 32,
                     segStart rd h (hi / 32 - lo / 32) (lo / 32) (tessEntry rd h (lo / 32)), lo, blockCodes bs, blockScales bs⟩, bs.length⟩)

/-- Keep the blocks that the next stream may share. -/
def ImagePos.keep (p : ImagePos) : ImagePos :=
  let lo := if p.quad then p.next else p.next / 2
  let k := lo - p.lo
  { p with lo := p.lo + k, codes := p.codes.drop (64 * k), scales := p.scales.drop ((p.scales.length / (p.codes.length / 64)) * k) }

/-- Element `lane` of image row r: slot r + (lane's row of cells). -/
def imageEl (quad : Bool) (lo : Nat) (codes : List Nat) (r lane : Nat) : Nat :=
  if quad then codes.getD ((r + lane % 16 - lo) * 64 + lane) 0
  else codes.getD ((r + lane - 2 * lo) * 32 + lane) 0

/-- What the rows of a stream give: panel rows for the queue, working-copy writes, drained slots and
the flags raised; or a halting status. -/
structure StreamOut where
  rows : List Panel
  writes : List (Nat × Slot)
  drains : List Nat
  flags : Nat
  deriving DecidableEq, Repr

/-- One panel row of a stream (R142). -/
def streamPanel (arr : Arr) (w : WBlock) (i : TIns) (sa : Nat) (el : Nat → Nat) (m ix : Nat)
    (out : StreamOut) : Except Nat StreamOut :=
  let isInt := w.fmt == 8
  let slot := sAcc i + m * streamQ i.word + ix
  let old := smapGet slotDflt arr.slots slot
  let need := sAdd i
  match (if need then old else some ⟨isInt, []⟩) with
  | none => .error 0x0244
  | some o =>
    if need && o.isInt != isInt then .error 0x0244
    else
      let lanes := panelLanes w (bit i.word 35) (bits i.word 37 36) ix sa el
      let res := lanes.zipIdx.map (fun ((xs, f), l) =>
        laneOut (sSfmt i) w.fmt f (if need then some (o.vals.getD l 0) else none) xs)
      let vals := res.map (·.1)
      let fl := res.foldl (fun a r => a ||| r.2) 0
      .ok { rows := if isFinish i then out.rows ++ [.row i (iArray i.word) m ix isInt vals fl] else out.rows,
            writes := if isFinish i then out.writes else out.writes ++ [(slot, ⟨isInt, vals⟩)],
            drains := if isFinish i && need then out.drains ++ [slot] else out.drains,
            flags := out.flags ||| fl }

/-- The rows of a stream in order, with the slot scales of MB images checked (R135). -/
def streamRows (arr : Arr) (w : WBlock) (i : TIns) (lo : Nat) (codes scales sas : List Nat) :
    Except Nat StreamOut :=
  let mb := (groupOfCode (sSfmt i)).isSome
  let slots := (List.range (sM i + 31)).map (fun s => sRow0 i + s - 2 * lo)
  if mb && slots.any (fun s => scales.getD s 127 != 0x7F) then .error 0x0245
  else
    (List.range (sM i)).foldl (fun acc m =>
      (List.range (streamQ i.word)).foldl (fun acc ix =>
        match acc with
        | .error e => .error e
        | .ok out =>
          streamPanel arr w i (sas.getD m 127) (imageEl (sQuad i) lo codes (sRow0 i + m)) m ix out) acc)
      (.ok ⟨[], [], [], 0⟩)

/-- The row scales of a stream (R135): a byte array in scratchpad by image row. -/
def Dev.rowScales (d : Dev) (t : Nat) (i : TIns) : List Nat :=
  if (groupOfCode (sSfmt i)).isSome then
    ((d.tile t).rdSpm (i.w % spmBytes + sRow0 i) (sM i)).map (·.toNat)
  else []

/-- The accumulator slots after a commit (R143). -/
def commitSlots (slots : SMap (Option Slot)) (s : ArrStream) : SMap (Option Slot) :=
  let slots := s.writes.foldl (fun m e => smapPut m e.1 (some e.2)) slots
  s.drains.foldl smapDrop slots

/-- The accumulator slots as a stream that starts now finds them: every earlier stream's rows are written
before its own (R142). -/
def Arr.slotsAhead (a : Arr) : SMap (Option Slot) := a.cur.foldl commitSlots a.slots

/-! ## Register views kept in step -/

/-- Set the fields of `MXA.STATE` that follow from the array (R156); without an active block WFMT and QUAD keep the
last one's (DESIGN CHOICE, log 80). -/
def Dev.showArr (d : Dev) (t p : Nat) : Dev :=
  let a := (d.tile t).arr p
  let d := d.set (MXA.STATE.ACTIVE_VALID t p) (b2n a.active.isSome)
  let d := d.set (MXA.STATE.SHADOW_VALID t p) (b2n a.shadow.isSome)
  let d := d.set (MXA.STATE.LOADING t p) (b2n a.incoming.isSome)
  let d := d.set (MXA.STATE.BUSY t p) (b2n !a.cur.isEmpty)
  match a.active with
  | some w => (d.set (MXA.STATE.WFMT t p) w.fmt).set (MXA.STATE.QUAD t p) (b2n w.quad)
  | none => d

/-- Every array idle, and every accumulator slot EMPTY (R155, R279)? -/
def Tile.arraysIdle (x : Tile) : Bool :=
  x.arrays.all (fun e => e.2.cur.isEmpty && e.2.incoming.isNone && e.2.owed.isEmpty) && x.aq.all (fun e => e.2.isEmpty)
def Tile.slotsEmpty (x : Tile) : Bool := x.arrays.all (fun e => e.2.slots.isEmpty)

/-- Invalidate the weight registers of every array (R280), and for a change of the map or a move of
the stage also empty the accumulator slots (R155). -/
def Dev.dropWeights (d : Dev) (t : Nat) (slots : Bool) : Dev :=
  let d := d.onTile t (fun x => { x with arrays := x.arrays.filterMap (fun e =>
    let a := { e.2 with active := none, shadow := none, incoming := none, last := none,
                        slots := if slots then [] else e.2.slots }
    if a = arrDflt 0 then none else some (e.1, a)) })
  d.each (List.range 8) (fun d p => d.showArr t p)

/-! ## Aborting the instruction at the head of an array (R128, R143, R182) -/

/-- The scratchpad address of a stream's base (R191). -/
def Dev.streamBase (d : Dev) (t base reg : Nat) : Nat :=
  if reg = 0 then base % spmBytes else ((d.regSpan t (reg - 1) base 1).headD (0, 0)).1

/-- The operand source of an MLOAD or MSTREAM: base and region number plus 1. -/
def loadSrc (i : TIns) : Nat × Nat := (i.x, if bit i.word 44 then bits i.word 50 45 + 1 else 0)
def operandSrc (i : TIns) : Nat × Nat := if i.op = 0x20 then loadSrc i else (i.x, sReg i)

/-- The base of an instruction's operand stream in scratchpad. -/
def Dev.operandBase (d : Dev) (t : Nat) (i : TIns) : Nat := d.streamBase t (operandSrc i).1 (operandSrc i).2

/-- The fault an expander holds for the halt. -/
def Dev.codecFault (d : Dev) (t : Nat) (i : TIns) (f : TFault) : CodecFault :=
  ⟨i, f.status, d.operandBase t i, f.block, f.declared, f.computed, f.mode⟩

/-- Blocks released before block `f` of a decode that began at block `lo` (R182, R191). -/
def releasedBefore (f : TFault) (lo : Nat) : Nat := if f.block = 0xFFFFFFFF then 0 else f.block - lo

/-- Put a marker into the finished-panel queue, or owe it while the queue is full (R149). -/
def Dev.putMarker (d : Dev) (t p : Nat) (m : Panel) : Dev :=
  let x := d.tile t
  if x.fpq.length < 256 then d.setTile t { x with fpq := x.fpq ++ [m] }
  else d.onTile t (fun x => x.setArr p { x.arr p with owed := (x.arr p).owed ++ [m] })

/-- Abort the stream or load of logical array `a` that has not started: nothing is committed, and the
instruction keeps its place at the head of its queue. -/
def Dev.abortHead (d : Dev) (t a : Nat) (i : TIns) : Dev :=
  let p := d.arrPhys t a
  let d := (d.onTile t (fun x => x.setArr p { x.arr p with fault := none })).showArr t p
  if isFinish i then d.putMarker t p (.abort i a) else d

/-- Halt at the instruction at the head of array `a`, aborted (R143, R158). -/
def Dev.haltArray (d : Dev) (t a st info : Nat) (i : TIns) : Dev :=
  (d.abortHead t a i).haltIns t st info i 1 a []

end Sys2Proof.Machine
end

