-- ==== Sys2Proof/Machine/VecOps.lean ====
section
/-! DEFINITION. The stage operations of the vector engine (R205, R206) on FP32 codes: each gives a
code and the flags NV, DZ and OF in the places of R219. -/

namespace Sys2Proof.Machine

def flNV : Nat := 64
def flDZ : Nat := 32
def flOF : Nat := 16

/-- One or two flag sets together. -/
def flOr (a b : Nat) : Nat := a ||| b

/-- Round a result to FP32: OF when a finite result rounds beyond the range. -/
def vecRound (v : Val) : Nat × Nat :=
  let (c, _) := toF32 v
  (c, if v.isFin && !(f32 c).isFin then flOF else 0)

/-- A result that is invalid for operands that are not NaN. -/
def vecInvalid (operandNan : Bool) : Nat × Nat := (f32NaN, if operandNan then 0 else flNV)

def vecBin (f : Val → Val → Val) (a b : Nat) : Nat × Nat :=
  let r := f (f32 a) (f32 b)
  if r.isNan then vecInvalid ((f32 a).isNan || (f32 b).isNan) else vecRound r

def vecAdd := vecBin valAdd
def vecSub := vecBin (fun a b => valAdd a (valNeg b))
def vecMul := vecBin valMul

/-- The larger, NaN if either is; +0 above −0. -/
def vecMax (a b : Nat) : Nat :=
  let x := f32 a
  let y := f32 b
  if x.isNan || y.isNan then f32NaN
  else match valCmp x y with
    | .lt => b
    | .gt => a
    | .eq => if x.isNeg then b else a

/-- The smaller, NaN if either is; −0 below +0. -/
def vecMin (a b : Nat) : Nat :=
  let x := f32 a
  let y := f32 b
  if x.isNan || y.isNan then f32NaN
  else match valCmp x y with
    | .lt => a
    | .gt => b
    | .eq => if x.isNeg then a else b

def vecAbs (a : Nat) : Nat := if (f32 a).isNan then f32NaN else a % 2 ^ 31
def vecNeg (a : Nat) : Nat := if (f32 a).isNan then f32NaN else a ^^^ 2 ^ 31

def f32One : Nat := 0x3F800000
def f32Two : Nat := 0x40000000
def f32Inf : Nat := 0x7F800000
def f32NegInf : Nat := 0xFF800000

def vecRecip (a : Nat) : Nat × Nat :=
  let x := f32 a
  if x.isNan then (f32NaN, 0)
  else if x.isZero then (if x.isNeg then f32NegInf else f32Inf, flDZ)
  else vecRound (valDiv (f32 f32One) x)

def vecSqrt (a : Nat) : Nat × Nat :=
  let x := f32 a
  if x.isNan then (f32NaN, 0)
  else if x.isNeg && !x.isZero then (f32NaN, flNV)
  else vecRound (valSqrt x)

/-- 1 ÷ √v of a positive finite value, to over 64 bits with a sticky lowest bit. -/
def valRsqrt (m : Nat) (e : Int) : Val :=
  let k : Nat := (if e % 2 = 0 then 200 else 201) + 2 * Nat.log2 m
  let r := isqrt (2 ^ k / m)
  .fin false (2 * r + (if r * r * m = 2 ^ k then 0 else 1)) (-((e + k) / 2) - 1)

def vecRsqrt (a : Nat) : Nat × Nat :=
  match f32 a with
  | .nan => (f32NaN, 0)
  | .inf true => (f32NaN, flNV)
  | .inf false => (0, 0)
  | .fin neg m e =>
    if m = 0 then (if neg then f32NegInf else f32Inf, flDZ)
    else if neg then (f32NaN, flNV)
    else vecRound (valRsqrt m e)

/-- 2^f for f = n ÷ 2^k < 1, times 2^128: the product of the roots 2^(2^−i) of the bits set, from the
highest bit. -/
def exp2Frac (n : Nat) : Nat → Nat → Nat → Nat
  | 0, _, acc => acc
  | k + 1, root, acc =>
    let root := isqrt (root * 2 ^ 128)
    exp2Frac n k root (if n.testBit k then acc * root / 2 ^ 128 else acc)

/-- 2^v of a finite value, exact when v is an integer, else with a sticky lowest bit and an error far
below what any FP32 rounding can see. -/
def valExp2 (neg : Bool) (m : Nat) (e : Int) : Val :=
  if m = 0 then .fin false 1 0
  else if (Nat.log2 m : Int) + e ≥ 10 then .fin false 1 (if neg then -2000 else 2000)
  else if (Nat.log2 m : Int) + e < -26 then
    (if neg then .fin false (2 ^ 80 - 1) (-80) else .fin false (2 ^ 80 + 1) (-80))
  else
    let k : Nat := (-e).toNat
    let x : Int := sgn neg (if 0 ≤ e then m * 2 ^ e.toNat else m)
    let ip := x / ((2 ^ k : Nat) : Int)
    let fp := (x % ((2 ^ k : Nat) : Int)).toNat
    if fp = 0 then .fin false 1 ip
    else .fin false (2 * exp2Frac fp k (2 * 2 ^ 128) (2 ^ 128) + 1) (ip - 129)

def vecExp2 (a : Nat) : Nat × Nat :=
  match f32 a with
  | .nan => (f32NaN, 0)
  | .inf true => (0, 0)
  | .inf false => (f32Inf, 0)
  | .fin neg m e => vecRound (valExp2 neg m e)

/-- The first `k` fraction bits of log2 y, for y in [1, 2) times 2^260, by squaring. -/
def log2Frac : Nat → Nat → Nat → Nat
  | 0, _, acc => acc
  | k + 1, y, acc =>
    let y := y * y / 2 ^ 260
    if 2 ^ 261 ≤ y then log2Frac k (y / 2) (2 * acc + 1) else log2Frac k y (2 * acc)

/-- log2 of a positive finite value: exact at powers of two, else with a sticky lowest bit. -/
def valLog2 (m : Nat) (e : Int) : Val :=
  let l := Nat.log2 m
  let ip : Int := l + e
  if m = 2 ^ l then valOfInt ip
  else
    let fr := log2Frac 120 (m * 2 ^ (260 - l)) 0
    let x : Int := (ip * ((2 ^ 120 : Nat) : Int) + fr) * 2 + 1
    .fin (decide (x < 0)) x.natAbs (-121)

def vecLog2 (a : Nat) : Nat × Nat :=
  match f32 a with
  | .nan => (f32NaN, 0)
  | .inf true => (f32NaN, flNV)
  | .inf false => (f32Inf, 0)
  | .fin neg m e =>
    if m = 0 then (f32NegInf, flDZ)
    else if neg then (f32NaN, flNV)
    else vecRound (valLog2 m e)

/-! The composites of R206: fixed sequences of RNE steps that raise no flag. -/

def vecExp (a : Nat) : Nat := (vecExp2 (f32Mul a 0x3FB8AA3B)).1
def vecSigmoid (a : Nat) : Nat := (vecRecip (f32Add f32One (vecExp (vecNeg a)))).1
def vecTanh (a : Nat) : Nat := f32Sub (f32Mul f32Two (vecSigmoid (f32Mul f32Two a))) f32One
def vecGelu (a : Nat) : Nat := f32Mul a (vecSigmoid (f32Mul a 0x3FD9DB23))
def vecSilu (a : Nat) : Nat := f32Mul a (vecSigmoid a)

/-- A comparison (R205): false with a NaN operand, but CMPNE true. -/
def vecCmp (op a b : Nat) : Bool :=
  let x := f32 a
  let y := f32 b
  if x.isNan || y.isNan then op == 0x18
  else
    let o := valCmp x y
    match op with
    | 0x15 => o == .lt
    | 0x16 => o != .gt
    | 0x17 => o == .eq
    | _ => o != .eq

/-- Is a stage OP defined (R205)? -/
def vecOpOk (op : Nat) : Bool :=
  decide (op ≤ 0x18) || decide (0x20 ≤ op ∧ op ≤ 0x23) || decide (0x28 ≤ op ∧ op ≤ 0x2A)

def vecIsLaneRed (op : Nat) : Bool := decide (0x20 ≤ op ∧ op ≤ 0x23)
def vecIsColRed (op : Nat) : Bool := decide (0x28 ≤ op ∧ op ≤ 0x2A)

/-- A stage operation other than CVT, the comparisons and the reductions (which give a). -/
def vecOp (op a b : Nat) : Nat × Nat :=
  match op with
  | 0x01 => vecAdd a b
  | 0x02 => vecSub a b
  | 0x03 => vecMul a b
  | 0x04 => (vecMax a b, 0)
  | 0x05 => (vecMin a b, 0)
  | 0x06 => (vecAbs a, 0)
  | 0x07 => (vecNeg a, 0)
  | 0x08 => (vecMax a 0, 0)
  | 0x09 => (vecMin (vecMax a (vecNeg (vecAbs b))) (vecAbs b), 0)
  | 0x0A => vecRecip a
  | 0x0B => vecSqrt a
  | 0x0C => vecRsqrt a
  | 0x0D => vecExp2 a
  | 0x0E => vecLog2 a
  | 0x0F => (vecExp a, 0)
  | 0x10 => (vecSigmoid a, 0)
  | 0x11 => (vecTanh a, 0)
  | 0x12 => (vecGelu a, 0)
  | 0x13 => (vecSilu a, 0)
  | _ => (a, 0)

/-- What a reduction folds for a value (R205): a, a × a or |a|. -/
def redTerm (op a : Nat) : Nat :=
  match op with
  | 0x21 | 0x29 => f32Mul a a
  | 0x23 => vecAbs a
  | _ => a

/-- Does a reduction combine by MAX? -/
def redIsMax (op : Nat) : Bool := op == 0x22 || op == 0x23 || op == 0x2A

/-- The contribution of a masked lane and the start of a partial (R210, R211). -/
def redZero (op : Nat) : Nat := if redIsMax op then f32NegInf else 0

def redCombine (op a b : Nat) : Nat := if redIsMax op then vecMax a b else f32Add a b

/-- The lane tree of R210: adjacent pairs, level by level. -/
def redTree (op : Nat) : Nat → List Nat → Nat
  | 0, xs => xs.headD (redZero op)
  | fuel + 1, xs =>
    match xs with
    | [] => redZero op
    | [x] => x
    | _ => redTree op fuel ((chunks2 xs).map (fun (a, b) => redCombine op a b))
where
  /-- Adjacent pairs. -/
  chunks2 : List Nat → List (Nat × Nat)
    | a :: b :: xs => (a, b) :: chunks2 xs
    | _ => []

end Sys2Proof.Machine
end

