-- ==== Sys2Proof/Machine/TileChain.lean ====
section
/-! DEFINITION. The vector engine's chains: a panel row through its eight stages (R195, R205 to
R209), reductions and masks (R210 to R213), the commit buffer (R214, R215), the chain's tessera
encoder (R203), and flags and traps (R219, R220). -/

namespace Sys2Proof.Machine

/-- Conversion flags in the places of R219. -/
def convFlags (f : FFlags) : Nat :=
  (if f.inv then 8 else 0) ||| (if f.ovf then 4 else 0) ||| (if f.unf then 2 else 0) ||| (if f.inx then 1 else 0)

/-- Where a group of 32 lanes lies (R201, R202): the first lane's row, column and output index, and
the place of its lane-reduction word. -/
structure Place where
  row : Nat
  col : Nat
  e : Nat
  red : Nat
  deriving DecidableEq, Repr

/-! ## Chain reads -/

/-- The raw bytes a committed, unreleased row holds, as (address, bytes) for the lanes it writes. -/
def Tile.rowBytes (x : Tile) (c : Nat) (r : CbRow) : List (Nat × Bytes) :=
  let w := outBits (x.chOut c)
  (r.codes.zip r.keep).zipIdx.filterMap (fun ((v, k), l) =>
    if k then some ((r.e + l) * w / 8, leBytes (w / 8) v) else none)

/-- A scratchpad element as FP32 with its flags (R207): exact, but INT32 rounds by RNE. -/
def elemF32 (fmt code : Nat) : Nat × Nat :=
  let (v, f) := toF32 (elemDecode fmt code)
  (v, if fmt = 9 then convFlags { f with inv := false, ovf := false, unf := false } else 0)

/-- The address of a b operand's element for a lane, if it comes from scratchpad (R207). -/
def bAddr (st : Nat) (p : Place) (l : Nat) : Option Nat :=
  let w := elemBits (stFmt st) / 8
  match stBsrc st with
  | 4 => some (stBase st + (p.col + l) * w)
  | 5 => some (stBase st + p.row * w)
  | 6 => some (stBase st + (p.e + l) * w)
  | _ => none

/-! ## A row through the stages -/

/-- The state of 32 lanes between stages. -/
structure Lanes where
  a : List Nat
  input : List Nat
  taps : List (List Nat)
  flags : List Nat
  cmp : List Bool
  /-- The value each lane gives the chain's reduction, and the reduction's OP. -/
  red : Option (Nat × List Nat)
  deriving DecidableEq, Repr

/-- Operand b of a lane at a stage, with its flags. -/
def Tile.bValue (x : Tile) (view : SMap Byte) (i : TIns) (k st : Nat) (p : Place) (s : Lanes) (l : Nat) : Nat × Nat :=
  let _ := x
  match stBsrc st with
  | 1 => (stImm st, 0)
  | 2 => (i.gregs.getD k 0, 0)
  | 3 => if stTap st = 8 then (s.input.getD l 0, 0) else ((s.taps.getD (stTap st) []).getD l 0, 0)
  | 0 => (0, 0)
  | _ =>
    match bAddr st p l with
    | some a => elemF32 (stFmt st) (leNat (memRead view a (elemBits (stFmt st) / 8)))
    | none => (0, 0)

/-- The hash bits of a lane (R209). -/
def Dev.laneSr (d : Dev) (t c : Nat) (p : Place) (l : Nat) : Nat :=
  let x := d.tile t
  srBits (d.get2 (VEC.SEED_LO.SEED t) (VEC.SEED_HI.SEED t)) (d.get2 (VEC.STEP_LO.STEP t) (VEC.STEP_HI.STEP t))
    (x.chTensor c) 0x06 ((x.chCoord c + p.row * x.chRowStride c + (p.col + l) * x.chColStride c) % 2 ^ 48)

def laneRnd (sr : Bool) (r : Nat) : Rnd := if sr then .sr r else .rne

/-- Round a row to a format and back to FP32 (CVT, R205): codes and flags. -/
def cvtRow (fmt : Nat) (sr sat : Bool) (rs : List Nat) (xs : List Nat) : List (Nat × Nat) :=
  match groupOfCode fmt with
  | some g =>
    let (s, cs, fs) := gEncode g (fun l => laneRnd sr (rs.getD l 0)) (xs.map f32)
    cs.zipIdx.map (fun (c, l) => (toF32c (gDecode g s c), convFlags (fs.getD l {})))
  | none => xs.zipIdx.map (fun (v, l) =>
      let (c, f) := elemConvert fmt (laneRnd sr (rs.getD l 0)) sat (f32 v)
      (toF32c (elemDecode fmt c), convFlags f))

/-- One stage (R205). -/
def Dev.chainStage (d : Dev) (t c : Nat) (i : TIns) (view : SMap Byte) (p : Place) (s : Lanes) (k : Nat) : Lanes :=
  let x := d.tile t
  let st := x.chStage c k
  let op := stOp st
  let bs := (List.range 32).map (fun l => x.bValue view i k st p s l)
  let res : List (Nat × Nat) :=
    if op = 0x14 then cvtRow (stFmt st) (stRnd st) (stSat st) ((List.range 32).map (d.laneSr t c p)) s.a
    else (s.a.zip bs).map (fun (a, b) => vecOp op a b.1)
  { a := res.map (·.1), input := s.input, taps := s.taps ++ [res.map (·.1)],
    flags := (s.flags.zip (res.zip bs)).map (fun (f, r, b) => f ||| r.2 ||| b.2),
    cmp := if 0x15 ≤ op ∧ op ≤ 0x18 then (s.cmp.zip (s.a.zip bs)).map (fun (m, a, b) => m && vecCmp op a b.1) else s.cmp,
    red := if vecIsLaneRed op || vecIsColRed op then some (op, s.a.map (redTerm op)) else s.red }

/-- Is lane l kept (R212)? -/
def Tile.laneKept (x : Tile) (view : SMap Byte) (c : Nat) (p : Place) (s : Lanes) (l : Nat) : Bool :=
  x.chMask c == 0 ||
    ((!x.chDiagEn c || decide (((p.col + l : Nat) : Int) ≤ (p.row : Int) + x.chDiag c))
      && (!x.chBitsEn c || (memGet view (x.chMaskBase c + (p.e + l) / 8)).toNat.testBit ((p.e + l) % 8))
      && (!x.chCmpEn c || s.cmp.getD l true))

/-- What a group of lanes gives: its buffered write, the reduction's terms for kept lanes, and the
flags of each lane. -/
structure RowOut where
  row : CbRow
  terms : List (Option Nat)
  redOp : Nat
  flags : List Nat
  deriving DecidableEq, Repr

/-- The output conversion (R209, R213): codes, group scale and flags. -/
def Dev.outRow (d : Dev) (t c : Nat) (p : Place) (keep : List Bool) (asInt : Bool) (xs : List Nat) :
    List Nat × Nat × List Nat :=
  let x := d.tile t
  let fmt := x.chOut c
  let fill := if x.chMask c = 3 then x.chFill c else 0
  let vals := (xs.zip keep).map (fun (v, k) => if k then v else fill)
  let rs := (List.range 32).map (d.laneSr t c p)
  match groupOfCode fmt with
  | some g =>
    let (s, cs, fs) := gEncode g (fun l => laneRnd (x.chSr c && keep.getD l true) (rs.getD l 0)) (vals.map f32)
    (cs, s, fs.map convFlags)
  | none =>
    let r := (vals.zip keep).zipIdx.map (fun ((v, k), l) =>
      if !k then ((elemConvert fmt .rne true (f32 v)).1, 0)
      else if asInt then (v, 0)
      else
        let (cd, f) := elemConvert fmt (laneRnd (x.chSr c) (rs.getD l 0)) (x.chSat c) (f32 v)
        (cd, convFlags f))
    (r.map (·.1), 0, r.map (·.2))

/-- Are all stages PASS and the output INT32 (R208)? -/
def Tile.passInt (x : Tile) (c : Nat) : Bool :=
  x.chOut c == 9 && (List.range 8).all (fun k => stOp (x.chStage c k) == 0)

/-- Run 32 lanes through chain c, whose reads find `view`. `vals` are FP32 codes, or INT32 when `isInt`. -/
def Dev.runChain (d : Dev) (t c : Nat) (i : TIns) (p : Place) (view : SMap Byte) (vals : List Nat) (isInt : Bool)
    (inFlags : Nat) : RowOut :=
  let x := d.tile t
  let entry : List (Nat × Nat) := vals.map (fun v => if isInt then elemF32 9 v else (v, 0))
  let asInt := isInt && x.passInt c
  let s0 : Lanes := { a := entry.map (·.1), input := entry.map (·.1), taps := [],
                      flags := entry.map (fun e => if asInt then 0 else e.2), cmp := List.replicate 32 true, red := none }
  let s := (List.range 8).foldl (d.chainStage t c i view p) s0
  let keep := (List.range 32).map (x.laneKept view c p s)
  let (codes, scale, ofl) := d.outRow t c p keep asInt (if asInt then vals else s.a)
  let fl := (s.flags.zip (ofl.zip keep)).map (fun (f, o, k) =>
    if k then f ||| o ||| (if inFlags ≠ 0 then 128 else 0) else 0)
  let (op, terms) : Nat × List (Option Nat) := match s.red with
    | some (op, ts) => (op, (ts.zip keep).map (fun (v, k) => if k then some v else none))
    | none => (0, [])
  let red := if vecIsLaneRed op then
      some (x.chRedDest c + 4 * p.red, redTree op 6 (terms.map (fun v => v.getD (redZero op))))
    else none
  { row := { e := p.e, codes := codes, scale := scale,
             keep := if x.chMask c = 1 then keep else List.replicate 32 true, red := red },
    terms := terms, redOp := op, flags := fl }

/-- Fold a row's terms into column partials (R211) from column offset `o`. -/
def foldCols (op o : Nat) (terms : List (Option Nat)) (cols : List (Option Nat)) : List (Option Nat) :=
  if !vecIsColRed op then cols
  else cols.zipIdx.map (fun (v, k) =>
    if o ≤ k ∧ k < o + 32 then
      match terms.getD (k - o) none with
      | some w => some (redCombine op (v.getD (redZero op)) w)
      | none => v
    else v)

/-- The words a column reduction writes at its end. -/
def Tile.colWords (x : Tile) (c d0 : Nat) (cols : List (Option Nat)) : List (Nat × Nat) :=
  let op := ((List.range 8).map (fun k => stOp (x.chStage c k))).find? vecIsColRed
  match op with
  | none => []
  | some op => cols.zipIdx.map (fun (v, k) => (x.chRedDest c + 4 * (d0 + k), v.getD (redZero op)))

/-- Set the chain's sticky flags and trap (R219, R220): the first trapping lane is recorded. -/
def Dev.raiseVec (d : Dev) (t c : Nat) (i : TIns) (p : Place) (flags : List Nat) : Dev :=
  let all := flags.foldl (· ||| ·) 0
  if all = 0 then d
  else
    let x := d.tile t
    let d := d.set (VEC.FLAGS.FLAGS t c) (d.get (VEC.FLAGS.FLAGS t c) ||| all)
    let trap := x.chTrap c
    match flags.findIdx? (fun f => f &&& trap != 0) with
    | none => d
    | some l =>
      let d := if d.flag (VEC.TRAP_INFO.VALID t) then d
        else
          let d := (d.set (VEC.TRAP_INFO.VALID t) 1).set (VEC.TRAP_INFO.CHAIN t) c
          let d := d.set (VEC.TRAP_INFO.FLAGS t) (flags.getD l 0 &&& trap)
          (d.set (VEC.TRAP_ROW.ROW t) p.row).set (VEC.TRAP_COL.COL t) (p.col + l)
      d.haltIns t 0x0253 c i (if i.op = 0x21 then 1 else 2) (iArray i.word) []

/-- The scratchpad bytes the b operands and mask of a group of lanes read. -/
def Tile.bRanges (x : Tile) (c : Nat) (p : Place) : List Seg :=
  ((List.range 8).filterMap (fun k =>
    let st := x.chStage c k
    let w := elemBits (stFmt st) / 8
    (bAddr st p 0).map (fun a => (a, if stBsrc st = 5 then w else 32 * w)))) ++
  (if x.chMask c ≠ 0 ∧ x.chBitsEn c then [(x.chMaskBase c + p.e / 8, 4)] else [])

/-! ## The tessera encoder of a chain (R203, R172) -/

/-- Count what the encoder wrote: blocks, RAW blocks, and header and payload bytes in units of 64, of which the
rest is kept for the next count. -/
def Dev.countEncoded (d : Dev) (t fmt : Nat) (bs : List Block) : Dev :=
  let hs := bs.map (tessEncode fmt)
  let n := hs.foldl (fun a h => a + 2 + h.2.length) (d.tile t).encRem
  let d := d.bump (TCX.BLOCKS_ENCODED.COUNT t) bs.length
  let d := d.bump (TCX.RAW_ENCODED.COUNT t) (hs.filter (fun h => bits h.1 3 0 == 0)).length
  (d.bump (TCX.BYTES_ENCODED.COUNT t) (n / 64)).onTile t (fun x => { x with encRem := n % 64 })

/-- Write bytes of a chain's output at an offset from DEST or from the region's write origin. -/
def Dev.chainWrite (d : Dev) (t c o : Nat) (bs : Bytes) : Dev :=
  let x := d.tile t
  if x.chRegion c then d.regWrite t (x.chDest c % 64) ((d.regW t (x.chDest c % 64) + o) % m32) bs
  else d.onTile t (·.wrSpm (x.chDest c + o) bs)

/-- May the chain's destination take n bytes at offset `o` now (R233)? -/
def Dev.chainRoom (d : Dev) (t c o n : Nat) : Bool :=
  let x := d.tile t
  !x.chRegion c || d.regRoom t (x.chDest c % 64) (d.regW t (x.chDest c % 64) + o) n

/-- Advance a region destination's TAIL to an offset (R233). -/
def Dev.chainTail (d : Dev) (t c o : Nat) : Dev :=
  let x := d.tile t
  if x.chRegion c then d.tailTo t (x.chDest c % 64) ((d.regW t (x.chDest c % 64) + o) % m32) else d

/-- Does a row at offset `o` follow on what a region destination holds? TAIL passes over bytes in offset order
(R231), so the rows of a later run wait for those of earlier streams. -/
def Dev.chainNext (d : Dev) (t c o : Nat) : Bool :=
  let x := d.tile t
  let r := x.chDest c % 64
  !x.chRegion c || decide ((d.regTail t r + m32 - (d.regW t r + o) % m32) % m32 < m32 / 2)

/-- Publish the encoder's next `n` elements as a segment; the first brings the header line. -/
def Dev.encPublish (d : Dev) (t c n : Nat) : Dev :=
  let x := d.tile t
  let en := x.encOf c
  let fmt := x.chOut c
  let bs := tessBlocks fmt (en.codes.take n) (en.scales.take (ceilDiv n 32))
  let seg := tessSegment fmt bs
  let closed := !x.chRegion c
  let d := if en.pos = 0 then
      d.chainWrite t c 0 (tessHeader fmt (x.chElems c) (x.chCoord c) (x.chTensor c) 0 0 closed) else d
  let start := if en.pos = 0 then 128 else en.pos
  let d := (d.chainWrite t c start seg).chainTail t c (start + seg.length)
  let d := d.countEncoded t fmt bs
  d.onTile t (·.setEnc c { en with codes := en.codes.drop n, scales := en.scales.drop (n / 32),
                                   pos := start + seg.length, segs := en.segs ++ [start] })

/-- Bytes the next segment of `n` elements would take, header line included. -/
def Tile.encNeed (x : Tile) (c n : Nat) : Nat :=
  let en := x.encOf c
  (if en.pos = 0 then 128 else 0)
    + (tessSegment (x.chOut c) (tessBlocks (x.chOut c) (en.codes.take n) (en.scales.take (ceilDiv n 32)))).length

/-- Give the encoder the group of 32 elements that comes next: none while the segment it fills finds no room in
its region. An encoder given more than OUT_ELEMENTS stops there (R188). -/
def Dev.encTake (d : Dev) (t c : Nat) (codes : List Nat) (scale : Nat) : Option Dev :=
  let x := d.tile t
  let en := x.encOf c
  let take := min 32 (x.chElems c - en.count)
  let en' := { en with codes := en.codes ++ codes.take take, scales := en.scales ++ [scale], count := en.count + take }
  let d' := d.onTile t (·.setEnc c en')
  if en'.codes.length < 2048 then some d'
  else if d'.chainRoom t c en'.pos ((d'.tile t).encNeed c 2048) then some (d'.encPublish t c 2048)
  else none

/-- Take the groups that waited for those before them. -/
def Dev.encDrain : Nat → Dev → Nat → Nat → Dev
  | 0, d, _, _ => d
  | n + 1, d, t, c =>
    let en := (d.tile t).encOf c
    match en.ahead.find? (fun g => g.1 == en.count) with
    | none => d
    | some g =>
      match d.encTake t c g.2.1 g.2.2 with
      | none => d
      | some d =>
        let en := (d.tile t).encOf c
        Dev.encDrain n (d.onTile t (·.setEnc c { en with ahead := en.ahead.filter (fun h => h.1 != g.1) })) t c

/-- Give a row to the encoder, whose blocks are formed in order of e (R203). What a run that starts again brings
once more, the encoder has already. -/
def Dev.encRow (d : Dev) (t c : Nat) (r : CbRow) : Option Dev :=
  let d := d.onTile t (fun x => x.setEnc c { x.encOf c with isOpen := true })
  let en := (d.tile t).encOf c
  if r.e < en.count then some d
  else if r.e = en.count then (d.encTake t c r.codes r.scale).map (fun d => Dev.encDrain en.ahead.length d t c)
  else some (d.onTile t (·.setEnc c { en with ahead := en.ahead.filter (fun g => g.1 != r.e) ++ [(r.e, r.codes, r.scale)] }))

/-- CFLUSH (R203): the final segment, and for a closed stream the directory and the header. -/
def Dev.encFlush (d : Dev) (t c : Nat) : Dev :=
  let x := d.tile t
  let en := x.encOf c
  let d := if en.codes.isEmpty then d else d.encPublish t c en.codes.length
  let en := (d.tile t).encOf c
  let d :=
    if x.chRegion c then d
    else
      let dir := en.segs.flatMap (fun s => leBytes 4 (s / 128))
      let len := alignUp dir.length 128
      let d := d.chainWrite t c en.pos (dir ++ zeros (len - dir.length))
      d.chainWrite t c 0 (tessHeader (x.chOut c) (x.chElems c) (x.chCoord c) (x.chTensor c) (en.pos + len) en.pos true)
  d.onTile t (·.setEnc c (encDflt c))

/-! ## Releasing rows -/

/-- Write one row to its destination: none while a region has no room (R215, R233). -/
def Dev.releaseRow (d : Dev) (t c : Nat) (r : CbRow) : Option Dev :=
  let x := d.tile t
  if x.chTess c then d.encRow t c r
  else
    let w := outBits (x.chOut c)
    let o := r.e * w / 8
    let n := 32 * w / 8
    if d.chainNext t c o && d.chainRoom t c o n then
      some (((x.rowBytes c r).foldl (fun d (o, bs) => d.chainWrite t c o bs) d).chainTail t c (o + n))
    else none

/-- Write words of a reduction (R210, R211). -/
def Tile.wrWords (x : Tile) (ws : List (Nat × Nat)) : Tile := ws.foldl (fun x (a, v) => x.wrSpm a (leBytes 4 v)) x

/-- The scratchpad as chain reads see it: every committed line stands in it, released or not (R215). -/
def Dev.chainView (d : Dev) (t : Nat) : SMap Byte :=
  ((d.each (d.tile t).cbDone (fun d b =>
    (d.each b.rows (fun d r => (d.releaseRow t (iChainM b.ins.word) r).getD d)).onTile t (·.wrWords b.words))).tile t).spm

/-- The charge of a stream (R214). -/
def Tile.charge (x : Tile) (c m q : Nat) : Nat :=
  m * q + (if x.chLane c then ceilDiv (m * q) 32 else 0) + (if x.chCol c then q else 0)

/-- Free lines of the commit buffer (R214): a stream that still takes rows keeps its whole charge, a committed one
the lines it has not released. -/
def Tile.cbFree (x : Tile) : Nat :=
  4096 - x.cb.foldl (fun a b => a + b.charge) 0 - x.cbDone.foldl (fun a b => a + b.lines) 0

/-- The oldest committed stream, once its last line has gone, is complete (R215, R259). -/
def Dev.cbRetire (d : Dev) (t : Nat) : Dev :=
  match (d.tile t).cbDone with
  | b :: bs => if b.rows.isEmpty && b.words.isEmpty then (d.onTile t (fun x => { x with cbDone := bs })).insDone t b.ins else d
  | [] => d

/-- Release up to `n` committed lines in commit order (R215): rows, then lines of 32 reduction words. -/
def Dev.releaseRows : Nat → Dev → Nat → Dev
  | 0, d, _ => d
  | n + 1, d, t =>
    match (d.tile t).cbDone with
    | [] => d
    | b :: bs =>
      match b.rows with
      | [] =>
        let d := d.onTile t (fun x => { x.wrWords (b.words.take 32) with cbDone := { b with words := b.words.drop 32 } :: bs })
        Dev.releaseRows n (d.cbRetire t) t
      | r :: rs =>
        match d.releaseRow t (iChainM b.ins.word) r with
        | none => d.bump (SPM.REGION_WAITS.COUNT t) 1
        | some d => Dev.releaseRows n ((d.onTile t (fun x => { x with cbDone := { b with rows := rs } :: bs })).cbRetire t) t

end Sys2Proof.Machine
end

