-- ==== Sys2Proof/Machine/TileDma.lean ====
section
/-! DEFINITION. The tile DMA engine: descriptors (R240 to R242), their checks (R247), the layouts
(R243 to R246), what a descriptor moves, its faults (R249, R250), write-adds (R347 to R349), and the
response to damaged data (R184, R185). -/

namespace Sys2Proof.Machine

/-- A TDMA descriptor (R240). -/
structure Desc where
  kind : Nat
  layout : Nat
  fmt : Nat
  srcTess : Bool
  dstTess : Bool
  srcReg : Bool
  dstReg : Bool
  signal : Bool
  release : Bool
  dstTile : Nat
  tally : Nat
  src : Nat
  srcR : Nat
  dst : Nat
  dstR : Nat
  rows : Nat
  cols : Nat
  srcPitch : Nat
  dstPitch : Nat
  srcBytes : Nat
  aux : Nat
  tensor : Nat
  first : Nat
  deriving DecidableEq, Repr

def readDesc (b : Bytes) : Desc :=
  { kind := bits (le b 0 1) 3 0, layout := bits (le b 0 1) 7 4, fmt := bits (le b 1 1) 3 0,
    srcTess := bit (le b 1 1) 4, dstTess := bit (le b 1 1) 5, srcReg := bit (le b 1 1) 6, dstReg := bit (le b 1 1) 7,
    signal := bit (le b 2 1) 0, release := bit (le b 2 1) 1, dstTile := le b 3 1, tally := le b 4 2,
    src := le b 8 6, srcR := bits (le b 8 8) 61 56, dst := le b 16 6, dstR := bits (le b 16 8) 61 56,
    rows := le b 24 4, cols := le b 28 4, srcPitch := le b 32 4, dstPitch := le b 36 4,
    srcBytes := le b 40 6, aux := le b 48 4, tensor := le b 52 4, first := le b 56 6 }

def kLOAD : Nat := 1
def kSTORE : Nat := 2
def kADD : Nat := 3
def kMOVE : Nat := 4
def kFILL : Nat := 5
def kCOPY : Nat := 6

def isGroup (fmt : Nat) : Bool := (groupOfCode fmt).isSome

/-- Is the source in HBM, the destination in HBM? -/
def Desc.srcHbm (x : Desc) : Bool := x.kind == kLOAD
def Desc.dstHbm (x : Desc) : Bool := x.kind == kSTORE || x.kind == kADD

/-- A field of SRC or DST has only its used bits set (R240). -/
def addrFieldOk (raw : Nat) (hbm region : Bool) : Bool :=
  bits raw 55 48 == 0 && bits raw 63 62 == 0 && (region || bits raw 61 56 == 0) && (hbm || bits raw 47 23 == 0)

/-- The source's rows and columns by layout (R242). -/
def Desc.shape (x : Desc) : Nat × Nat :=
  if x.layout = 3 then (if isGroup x.fmt then (x.cols, 32) else (32, x.cols))
  else if x.layout = 4 then (32, x.cols) else (x.rows, x.cols)

/-- Do both sides carry the same stream verbatim (R246)? -/
def Desc.verbatim (x : Desc) : Bool := x.srcTess && x.dstTess && x.layout == 0

/-- Elements of the destination stream or array (R243 to R245). -/
def Desc.dstElems (x : Desc) : Nat :=
  match x.layout with
  | 1 => (x.rows + 31) * 32
  | 2 => (x.rows + 15) * 64
  | 3 | 4 => 32 * x.cols
  | _ => x.rows * x.cols

/-- Is the descriptor valid per R241 to R246, reserved fields 0, ROWS and COLS nonzero? MB6 and MB4 move LINEAR with
both sides raw (DEDUCED, log 89). -/
def descOk (b : Bytes) : Bool :=
  let x := readDesc b
  let w := elemBits x.fmt
  decide (1 ≤ x.kind ∧ x.kind ≤ 6) && decide (x.layout ≤ 5) && decide (x.fmt ≤ 10)
    && bits (le b 2 1) 7 2 == 0 && zeroBytes b 6 2 && zeroBytes b 62 2 && zeroBytes b 46 2
    && addrFieldOk (le b 8 8) x.srcHbm x.srcReg && addrFieldOk (le b 16 8) x.dstHbm x.dstReg
    && (x.verbatim || (decide (0 < x.rows) && decide (0 < x.cols)))
    && !(x.srcHbm && x.srcReg) && !(x.dstHbm && x.dstReg)
    && (x.kind != kMOVE || decide (x.dstTile ≤ 191) || x.dstTile == 0xFF)
    && (x.layout == 0 || decide (x.kind ≠ kADD ∧ x.kind ≠ kFILL ∧ x.kind ≠ kCOPY))
    && (match x.layout with
        | 1 => x.cols == 32 && x.dstTess
        | 2 => x.cols == 64 && x.dstTess && !isGroup x.fmt
        | 3 => x.dstTess && x.cols == 32 * packing x.fmt
        | 4 => x.dstTess && x.cols == 32 * packing x.fmt && !isGroup x.fmt
        | 5 => !isGroup x.fmt
        | _ => true)
    && (x.fmt != 7 || (x.layout == 0 && x.srcTess && x.dstTess))
    && ((x.fmt != 0 && x.fmt != 9 && x.fmt != 10) || (!x.srcTess && !x.dstTess))
    && (!isGroup x.fmt || (x.srcTess && x.dstTess) || (x.layout == 0 && !x.srcTess && !x.dstTess))
    && (x.kind != kADD || ((x.fmt == 0 || x.fmt == 1) && !x.srcTess && !x.dstTess && !x.srcReg))
    && (decide (x.kind ≠ kFILL ∧ x.kind ≠ kCOPY) || (!x.srcTess && !x.dstTess && !x.srcReg && !x.dstReg && decide (8 ≤ w)))

/-- Bytes of a raw row of n elements. -/
def rowBytes (fmt n : Nat) : Nat := ceilDiv (n * elemBits fmt) 8

/-- Bytes a raw side spans. -/
def rawSpan (fmt rows cols pitch : Nat) : Nat := (rows - 1) * pitch + rowBytes fmt cols

/-- The destination's rows and columns when raw. -/
def Desc.dstShape (x : Desc) : Nat × Nat := if x.layout = 5 then (x.cols, x.rows) else (x.rows, x.cols)

/-- Bytes the source side covers. -/
def Desc.srcSpan (x : Desc) : Nat :=
  if x.kind = kFILL then 0
  else if x.srcTess then x.srcBytes
  else rawSpan x.fmt x.shape.1 x.shape.2 x.srcPitch

/-- The pieces of the source side that are read: a stream's extent, or the rows without the gaps of the pitch
(R247, R249). -/
def Desc.srcPieces (x : Desc) : List Seg :=
  let n := rowBytes x.fmt x.shape.2
  if x.kind = kFILL then []
  else if x.srcTess then [(0, x.srcBytes)]
  else if x.srcPitch = n then [(0, x.shape.1 * n)]
  else (List.range x.shape.1).map (fun r => (r * x.srcPitch, n))

/-- Bytes the destination side covers: for a tessera destination its worst case (R188). -/
def Desc.dstSpan (x : Desc) : Nat :=
  if x.verbatim then x.srcBytes
  else if x.dstTess then tessWorst x.dstElems (!x.dstReg)
  else rawSpan x.fmt x.dstShape.1 x.dstShape.2 x.dstPitch

/-- The physical tile a descriptor writes to. -/
def Dev.dstPhys (d : Dev) (t : Nat) (x : Desc) : Nat :=
  if x.kind = kMOVE ∧ x.dstTile ≠ 0xFF then d.phys x.dstTile else t

/-- Is MOVE to a logical tile permitted (`TDMA.MOVE_ALLOW`)? -/
def Dev.moveAllowed (d : Dev) (t l : Nat) : Bool := (d.get (TDMA.MOVE_ALLOW.MASK t (l / 32))).testBit (l % 32)

/-- The tile's accesses to HBM (R327): the TILE bit, the job of the stage map. -/
def Dev.tileAcc (d : Dev) (t perm : Nat) : Acc := ⟨t, some 8, perm, d.domOf (d.tileJob t), 0⟩

/-- The pages of a descriptor's HBM range. -/
def Desc.pages (x : Desc) : List Nat :=
  let (a, n) := if x.srcHbm then (x.src, x.srcSpan) else if x.dstHbm then (x.dst, x.dstSpan) else (0, 0)
  if n = 0 then [] else (List.range (pageOf (a + n - 1) + 1 - pageOf a)).map (pageOf a + ·)

/-- Pages an HBM range may touch (R330). -/
def Desc.pagesOk (x : Desc) : Bool :=
  let (a, n) := if x.srcHbm then (x.src, x.srcSpan) else if x.dstHbm then (x.dst, x.dstSpan) else (0, 0)
  n == 0 || decide (pageOf (a + n - 1) - pageOf a < 16)

/-- Pin or unpin the cached entries of pages (R248, R333). -/
def Dev.pin (d : Dev) (t : Nat) (pages : List Nat) (on : Bool) : Dev :=
  d.setCache t ((d.cache t).map (fun e =>
    if pages.contains e.page then { e with pins := if on then e.pins + 1 else e.pins - 1 } else e))

/-- Translate a descriptor's HBM range page by page, each page's entry pinned as it is found, so that the next
does not evict it (R332); a refusal unpins what was pinned. -/
def Dev.pinPages (t : Nat) (a : Acc) (base n : Nat) : List Nat → Dev → List Nat → List Seg → Dev × Except Refused (List Seg)
  | [], d, _, segs => (d, .ok segs)
  | p :: ps, d, held, segs =>
    let lo := max base (p * pageBytes)
    match d.xlate a lo (min (base + n) ((p + 1) * pageBytes) - lo) with
    | (d, .error r) => (d.pin t held false, .error r)
    | (d, .ok ss) => Dev.pinPages t a base n ps (d.pin t [p] true) (p :: held) (segs ++ ss)

/-- The checks of R247 in order: the status and first forbidden address, or the translated pieces of
the HBM range, its pages pinned. -/
def Dev.descCheck (d : Dev) (t : Nat) (b : Bytes) : Dev × Except (Nat × Nat) (List Seg) :=
  let x := readDesc b
  let u := d.dstPhys t x
  if !descOk b || !x.pagesOk then (d, .error (0x0260, 0))
  else if (!x.srcHbm && x.kind != kFILL && !x.srcReg && decide (spmBytes < x.src + x.srcSpan))
      || (!x.dstHbm && !x.dstReg && !(x.dstTess && !x.verbatim) && decide (spmBytes < x.dst + x.dstSpan))
      || (x.layout == 1 && isGroup x.fmt && decide (spmBytes < x.aux + x.rows))
      || (x.srcReg && !d.regOk t x.srcR) || (x.dstReg && !d.regOk u x.dstR) then (d, .error (0x0261, 0))
  else if (x.srcReg && (decide (d.regSize t x.srcR < x.srcSpan) || (x.srcTess && decide (d.regSize t x.srcR < 4352))))
      || (x.dstReg && (((!x.dstTess || x.verbatim) && decide (d.regSize u x.dstR < x.dstSpan)) || (x.dstTess && decide (d.regSize u x.dstR < 4352)))) then
    (d, .error (0x0262, 0))
  else if x.kind == kMOVE && x.dstTile != 0xFF && !d.moveAllowed t x.dstTile then (d, .error (0x0264, 0))
  else
    let (d, r) : Dev × Except Refused (List Seg) :=
      if x.srcHbm then Dev.pinPages t (d.tileAcc t 1) x.src x.srcSpan x.pages d [] []
      else if x.dstHbm then Dev.pinPages t (d.tileAcc t (if x.kind = kADD then 3 else 2)) x.dst x.dstSpan x.pages d [] []
      else (d, .ok [])
    match r with
    | .error e => (d, .error (0x0263, e.addr))
    | .ok segs =>
      if x.dstTess && !x.verbatim && !x.dstReg
          && (decide (2 ^ 39 < x.dstSpan) || (!x.dstHbm && decide (spmBytes < x.dst + x.dstSpan))) then
        (d.pin t x.pages false, .error (0x0307, 0))
      else (d, .ok segs)

/-! ## What a descriptor moves -/

/-- The pieces of n bytes at an offset of a scratchpad or region source; a region offset counts from the read
origin the channel found. -/
def Dev.srcSpm (d : Dev) (t : Nat) (e : ChanEnt) (o n : Nat) : List Seg :=
  let x := readDesc e.bytes
  if x.srcReg then d.regSpan t x.srcR ((e.origin + x.src + o) % m32) n else [(x.src + o, n)]

/-- A read of n bytes at an offset of the source side. -/
def Dev.srcRd (d : Dev) (t : Nat) (e : ChanEnt) : Rd := fun o n =>
  if (readDesc e.bytes).srcHbm then d.segRead (segTake (segDrop e.segs o) n)
  else (d.srcSpm t e o n).flatMap (fun s => (d.tile t).rdSpm s.1 s.2)

/-- The check pass over a tessera source (R186, R246): its header and every block of the extent. -/
def Dev.srcCheck (d : Dev) (t : Nat) (e : ChanEnt) : Except TFault (THeader × List Block) :=
  let x := readDesc e.bytes
  let rd := d.srcRd t e
  match tessReadHeader x.fmt (rd 0 128) with
  | .error f => .error f
  | .ok h =>
    if h.closed ∧ x.srcBytes < h.bytes then .error ⟨0x0302, 0xFFFFFFFF, 0, 0, 0⟩
    else tessRead rd x.fmt x.srcBytes 0 (tessBlockCount h.elems)

/-- The source elements in row-major order, with the scale of each row group: the decoder's fault
when a tessera source has one (R186, R246). -/
def Dev.srcElems (d : Dev) (t : Nat) (e : ChanEnt) : Except TFault (List Nat × List Nat) :=
  let x := readDesc e.bytes
  let (rows, cols) := x.shape
  let rd := d.srcRd t e
  if x.srcTess then
    let n := rows * cols
    match d.srcCheck t e with
    | .error f => .error f
    | .ok (h, bs) =>
      if h.elems < n then .error ⟨0x0302, bs.length, 0, 0, 0⟩
      else .ok ((blockCodes bs).take n, blockScales bs)
  else
    .ok ((List.range rows).flatMap (fun r =>
      unpackCodes (elemBits x.fmt) cols (rd (r * x.srcPitch) (rowBytes x.fmt cols))), [])

/-- The pieces of the source side that a descriptor reads, as (block, offset, length): of a stream that it
decodes, what the decoder reads up to a fault. -/
def Dev.srcReads (d : Dev) (t : Nat) (e : ChanEnt) : List TRead :=
  let x := readDesc e.bytes
  if x.srcTess && !x.verbatim then tessReads (d.srcRd t e) x.fmt 0 (2 ^ 48) (d.srcCheck t e)
  else x.srcPieces.map (fun s => (0, s.1, s.2))

/-- The destination's elements in order, with group scales (R243 to R245). -/
def Desc.place (x : Desc) (codes scales : List Nat) : List Nat × List Nat :=
  let c := codes.toArray
  let p := packing x.fmt
  match x.layout with
  | 1 =>
    ((List.range (x.rows + 31)).flatMap (fun t => (List.range 32).map (fun k =>
      if k ≤ t ∧ t - k < x.rows then c.getD ((t - k) * 32 + k) 0 else 0)),
     if isGroup x.fmt then List.replicate (x.rows + 31) 0x7F else [])
  | 2 =>
    ((List.range (x.rows + 15)).flatMap (fun t => (List.range 64).map (fun l =>
      let k := l % 16
      if k ≤ t ∧ t - k < x.rows then c.getD ((t - k) * 64 + l) 0 else 0)), [])
  | 3 =>
    if isGroup x.fmt then (codes, scales)
    else ((List.range x.cols).flatMap (fun j => (List.range 32).map (fun k => c.getD (k * x.cols + j) 0)), [])
  | 4 =>
    ((List.range p).flatMap (fun j => (List.range 16).flatMap (fun n => (List.range 4).flatMap (fun q =>
      (List.range 16).map (fun k => c.getD ((16 * (q / 2) + k) * x.cols + 32 * j + 16 * (q % 2) + n) 0)))), [])
  | 5 => ((List.range x.cols).flatMap (fun j => (List.range x.rows).map (fun r => c.getD (r * x.cols + j) 0)), [])
  | _ => (codes, scales)

/-- The destination's bytes, as (offset, bytes) pieces in offset order. -/
def Desc.pieces (x : Desc) (codes scales : List Nat) : List (Nat × Bytes) :=
  let (cs, ss) := x.place codes scales
  if x.dstTess then [(0, tessStream x.fmt x.first x.tensor (!x.dstReg) cs ss)]
  else
    let (_, n) := x.dstShape
    (chunksOf n cs.length cs).zipIdx.map (fun (row, r) => (r * x.dstPitch, packCodes (elemBits x.fmt) row))

/-- What a started descriptor writes: pieces by offset from its destination, the offsets at which the segments
of an encoded stream end (R163), and the row scales an MB skew write stores at AUX (R243). -/
structure Moved where
  out : List (Nat × Bytes)
  ends : List Nat
  rowScales : Bytes
  deriving DecidableEq, Repr

/-- The ends of the segments of an open stream's bytes. -/
def openEnds (bs : Bytes) (elems : Nat) : List Nat :=
  (List.range (tessSegCount elems)).map (fun s =>
    segStart (fun o n => slice bs o n) ⟨elems, 0, 0, false, 0, 0⟩ (s + 1) 0 128)

/-- Compute what a descriptor moves, or the codec fault of its check pass. -/
def Dev.descMove (d : Dev) (t : Nat) (e : ChanEnt) : Except TFault Moved :=
  let x := readDesc e.bytes
  if x.kind = kFILL then
    let w := elemBits x.fmt
    let row := packCodes w (List.replicate x.cols (x.aux % 2 ^ w))
    .ok ⟨(List.range x.rows).map (fun r => (r * x.dstPitch, row)), [], []⟩
  else if x.kind = kCOPY then
    let n := rowBytes x.fmt x.cols
    .ok ⟨(List.range x.rows).map (fun r => (r * x.dstPitch, (d.tile t).rdSpm (x.src + r * x.srcPitch) n)), [], []⟩
  else if x.verbatim then .ok ⟨[(0, d.srcRd t e 0 x.srcBytes)], [], []⟩
  else match d.srcElems t e with
    | .error f => .error f
    | .ok (cs, ss) =>
      let out := x.pieces cs ss
      .ok ⟨out, if x.dstTess && x.dstReg then openEnds (out.flatMap (·.2)) x.dstElems else [],
           if x.layout = 1 ∧ isGroup x.fmt then (ss.take x.rows).map (BitVec.ofNat 8) else []⟩

/-- Bytes from the destination's start to the end of what was moved. -/
def Moved.stop (m : Moved) : Nat := m.out.foldl (fun a (o, bs) => max a (o + bs.length)) 0

/-- How far TAIL may go when a region takes bytes below `lim` only (R233): to the last whole line of logical
offset `o` on, or past complete segments only (R163). -/
def Moved.cut (m : Moved) (o lim : Nat) : Nat :=
  if m.stop ≤ lim then m.stop
  else if m.ends.isEmpty then lim - (o + lim) % 128
  else (m.ends.filter (fun c => decide (c ≤ lim))).getLastD 0

/-- The bytes of what was moved that lie in [lo, hi). -/
def Moved.clip (m : Moved) (lo hi : Nat) : List (Nat × Bytes) :=
  m.out.filterMap (fun (o, bs) =>
    let bs' := (bs.take (hi - o)).drop (lo - o)
    if bs'.isEmpty then none else some (max o lo, bs'))

/-! ## Write-adds (R347 to R349) -/

/-- Add the elements of `v` to memory at a flat address; flags NAN 1, NV 2, OF 4. -/
def waddElem (fmt m v : Nat) : Nat × Nat :=
  let a := elemDecode fmt m
  let b := elemDecode fmt v
  let s := valAdd a b
  let c := (elemConvert fmt .rne false s).1
  (c, (if a.isNan || b.isNan then 1 else 0) ||| (if s.isNan && !a.isNan && !b.isNan then 2 else 0)
    ||| (if s.isFin && !(elemDecode fmt c).isFin then 4 else 0))

/-- The codewords of a piece, each with the bytes of the piece that lie in it. -/
def cwPieces (s : Seg) : List Seg :=
  (List.range (cwCount s.1 s.2)).map (fun k =>
    let lo := max s.1 ((s.1 / 64 + k) * 64)
    (lo, min (s.1 + s.2) ((s.1 / 64 + k + 1) * 64) - lo))

/-- Store the results of write-adds codeword by codeword, each by its own controller: none on a failed stack; to a
poisoned codeword the operation is discarded and counted (R343, R346). -/
def Dev.waddStore : Dev → List Seg → Bytes → Dev
  | d, [], _ => d
  | d, (a, n) :: ss, bs =>
    let k := (cwStack d.code (a / 64)).1
    let d := if d.flatFailed a then d
      else if d.cwAt (a / 64) = .poisoned then d.bump (HMC.POISON_WRITES.COUNT k) 1
      else (d.bump (HMC.WADD_COUNT.COUNT k) 1).storeVia a n (·.rawWrite a (bs.take n))
    Dev.waddStore d ss (bs.drop n)

/-- Add elements into translated pieces: each codeword is read, added to and written (R347). An element in a
poisoned codeword gives nothing and raises no flag; the flags of the others go to the stack they lie on (R349). -/
def Dev.waddBytes (d : Dev) (fmt : Nat) (segs : List Seg) (bs : Bytes) : Dev :=
  let w := elemBits fmt / 8
  let cws := (segCut (segTake segs bs.length)).flatMap cwPieces
  let d := d.each cws (fun d s =>
    if d.flatFailed s.1 then d else (d.meetCw (s.1 / 64, d.cwAt (s.1 / 64))).countTraffic s.1 s.2)
  let old := d.segRead cws
  let addrs := cws.flatMap (fun s => (List.range s.2).map (s.1 + ·))
  let es : List (Nat × Bytes × Nat) := (List.range (bs.length / w)).map (fun k =>
    let here := (addrs.drop (k * w)).take w
    if here.any (fun a => d.flatFailed a || d.cwAt (a / 64) == .poisoned) then (here.headD 0, slice old (k * w) w, 0)
    else
      let r := waddElem fmt (le old (k * w) w) (le bs (k * w) w)
      (here.headD 0, leBytes w r.1, r.2))
  let d := d.each es (fun d e =>
    let f := HMC.WADD_FLAGS.REG (cwStack d.code (e.1 / 64)).1
    d.when (e.2.2 != 0) (fun d => d.set f ((d.rd f.off).toNat ||| e.2.2)))
  d.waddStore cws (es.flatMap (·.2.1))

/-! ## Starting, completing and failing a descriptor -/

def chanDflt : Nat → Chan := fun _ => ⟨[], none, none⟩
def Tile.chan (x : Tile) (ch : Nat) : Chan := smapGet chanDflt x.chans ch
def Tile.setChan (x : Tile) (ch : Nat) (v : Chan) : Tile := { x with chans := smapSet chanDflt x.chans ch v }

/-- Show LEVEL and BUSY of a channel. -/
def Dev.showChan (d : Dev) (t ch : Nat) : Dev :=
  let c := (d.tile t).chan ch
  (d.set (TDMA.CH_STATE.LEVEL t ch) c.queue.length).set (TDMA.CH_STATE.BUSY t ch) (b2n c.cur.isSome)

/-- The bytes of an instruction's descriptor with its overrides (R272). -/
def descBytes (x : Tile) (i : TIns) : Bytes :=
  let b := x.rdSpm i.x 64
  let w := i.word
  let b := if bit w 38 then patch b 8 (leBytes 6 i.y) else b
  let b := if bit w 43 then patch b 16 (leBytes 6 i.z) else b
  let b := if bit w 48 then patch b 24 (leBytes 4 i.w) else b
  if i.sig then patch (patch b 2 (leBytes 1 (le b 2 1 ||| 1))) 4 (leBytes 2 i.tally) else b

/-- Does a started descriptor meet a data fault (R249, R346)? 0x0265, 0x0266 or a codec status, and the block. -/
def Dev.descFault (d : Dev) (t : Nat) (e : ChanEnt) : Option (Nat × Nat) :=
  let x := readDesc e.bytes
  let bad (r : TRead) : Bool :=
    if x.srcHbm then (d.segBad 0 (segTake (segDrop e.segs r.2.1) r.2.2)).isSome
    else (d.srcSpm t e r.2.1 r.2.2).any (fun s => ((d.tile t).spmBad s.1 s.2).isSome)
  match (d.srcReads t e).find? bad with
  | some r => some (if x.srcHbm then 0x0266 else 0x0265, r.1)
  | none =>
    if x.dstHbm && e.segs.any (fun s => d.flatFailed s.1) then some (0x0266, 0)
    else match d.descMove t e with
      | .error f => some (f.status, f.block)
      | .ok _ => none

/-- Is the region data a descriptor reads supplied (R234)? -/
def Dev.srcReady (d : Dev) (t : Nat) (e : ChanEnt) : Bool :=
  let x := readDesc e.bytes
  let o := (e.origin + x.src) % m32
  !x.srcReg ||
    (if x.srcTess && !x.verbatim then
      decide (d.supply t o (x.srcR + 1) x.fmt (2 ^ 48) ≠ .wait)
     else decide (x.srcSpan ≤ d.regAvail t x.srcR o))

/-- May a descriptor write its destination region at all? Another tile's takes lines from the tile it is bound to
only (R235), and one whose micro-batch has not begun in the region waits (R297). -/
def Dev.dstOpen (d : Dev) (t : Nat) (e : ChanEnt) : Bool :=
  let x := readDesc e.bytes
  let u := d.dstPhys t x
  !x.dstReg ||
    ((u == t || (d.flag (SPM.REGION_BIND.REMOTE_EN u x.dstR) && d.get (SPM.REGION_BIND.PRODUCER_TILE u x.dstR) == d.logical t))
      && (match e.ins with
          | some i => !(d.tile t).latches.any (fun l => d.phys l.1 == u && l.2.1 == x.dstR && decide (l.2.2 ≤ i.seq))
          | none => true))

/-- The logical offset of a descriptor's destination in its region. -/
def Dev.dstOff (d : Dev) (u : Nat) (x : Desc) : Nat := (d.regW u x.dstR + x.dst) % m32

/-- The bytes of its destination that a region lets a descriptor have written (R233): up to HEAD + SIZE; of another
tile's region, as far as its credit goes (R235). -/
def Dev.dstRoom (d : Dev) (t : Nat) (e : ChanEnt) : Nat :=
  let x := readDesc e.bytes
  let u := d.dstPhys t x
  let head := if u = t then d.regHead u x.dstR else d.creditHead u x.dstR
  let used := (d.dstOff u x + e.done + m32 - head) % m32
  e.done + (d.regSize u x.dstR - used)

/-- Take an aborted descriptor off its channel: a program's runs again, from its first byte, before the queue when
the tile resumes (R285); the curator's is dropped. -/
def Dev.abortDesc (d : Dev) (t ch : Nat) (e : ChanEnt) : Dev :=
  (d.pin t e.pages false).onTile t (fun x => x.setChan ch { x.chan ch with
    cur := none, redo := e.ins.map (fun _ => { e with pages := [], segs := [], done := 0, again := true }) })

/-- Stop a channel with ERROR (R250): the status, the first forbidden address and the descriptor's address are
recorded. A program's descriptor halts the tile at the instruction that issued it. -/
def Dev.chanStop (d : Dev) (t ch : Nat) (e : ChanEnt) (st addr : Nat) : Dev :=
  let d := (d.set (TDMA.CH_STATE.ERROR t ch) 1).set (TDMA.CH_STATE.LAST_STATUS t ch) st
  let d := d.set2 (TDMA.CH_FAULT_LO.ADDR t ch) (TDMA.CH_FAULT_HI.ADDR t ch) addr
  let d := (d.set (TDMA.CH_DESC.ADDR t ch) (e.addr % spmBytes)).showChan t ch
  let detail := ((List.range 4).map (fun i => leBytes 4 (d.rd ((TDMA.CH_STATE.REG t ch).off + 4 * i)).toNat)).flatten
  match e.ins with
  | some i => d.haltIns t st addr i 3 0 detail
  | none => d.faultRecord (uTile t) st 0 addr 0 0 (d.logical t) 0 detail

/-- Stop a channel at the descriptor in progress, which is aborted. -/
def Dev.chanError (d : Dev) (t ch : Nat) (e : ChanEnt) (st addr : Nat) : Dev := (d.abortDesc t ch e).chanStop t ch e st addr

/-- Write the bytes [lo, hi) of what a descriptor moved, at logical offset `o` of a region destination. -/
def Dev.descWrite (d : Dev) (t : Nat) (e : ChanEnt) (m : Moved) (o lo hi : Nat) : Dev :=
  let x := readDesc e.bytes
  let u := d.dstPhys t x
  let d := (m.clip lo hi).foldl (fun d (k, bs) =>
    if x.dstHbm then
      let segs := segDrop e.segs k
      if x.kind = kADD then d.waddBytes x.fmt segs bs else d.storeSegs (segTake segs bs.length) bs
    else if x.dstReg then d.regWrite u x.dstR ((o + k) % m32) bs
    else d.onTile u (·.wrSpm (x.dst + k) bs)) d
  if m.rowScales.isEmpty then d else d.onTile u (·.wrSpm x.aux m.rowScales)

/-- The read side's effects on check bits and traffic. -/
def Dev.descTouch (d : Dev) (t : Nat) (e : ChanEnt) : Dev :=
  let x := readDesc e.bytes
  d.each (d.srcReads t e) (fun d r =>
    if x.srcHbm then (d.readSegs (segTake (segDrop e.segs r.2.1) r.2.2)).1
    else d.each (d.srcSpm t e r.2.1 r.2.2) (fun d s => d.spmTouch t s.1 s.2))

/-- Lines of 128 bytes that a descriptor moved (R253). -/
def Moved.lines (m : Moved) : Nat := ceilDiv (m.out.foldl (fun a p => a + p.2.length) 0) 128

/-- The extent that a LOAD fills with a stream (R184). -/
def Dev.fillOf (d : Dev) (t ch : Nat) (e : ChanEnt) (m : Moved) (o : Nat) : List Fill :=
  let x := readDesc e.bytes
  if x.srcHbm && x.dstTess then
    [⟨ch, e.addr, e.bytes, if x.dstReg then d.regSpan t x.dstR o m.stop else [(x.dst, m.stop)], o⟩]
  else []

/-- A descriptor's last bytes are written (R239): the release of its source region, its counts, then its tally. -/
def Dev.descComplete (d : Dev) (t ch : Nat) (e : ChanEnt) (m : Moved) : Dev :=
  let x := readDesc e.bytes
  let u := d.dstPhys t x
  let o := d.dstOff u x
  let d := (d.descTouch t e).descWrite t e m o e.done m.stop
  let d := d.when x.dstReg (·.tailTo u x.dstR ((o + m.stop) % m32))
  let d := d.when (x.release && x.srcReg) (·.setHeadR t x.srcR ((e.origin + x.src + x.srcSpan) % m32))
  let d := (d.pin t e.pages false).onTile t (fun y =>
    { y.setChan ch { y.chan ch with cur := none } with fills := d.fillOf t ch e m o ++ y.fills })
  let d := (d.bump (TDMA.CH_DONE.COUNT t ch) 1).bump (TDMA.CH_LINES.COUNT t ch) m.lines
  let d := (d.showChan t ch).pendServe
  let d := d.when x.signal (·.tallyAdd x.tally 1)
  match e.ins with
  | some i => d.onTile t (fun y => { y with live := y.live.filter (fun l => l.1 != i.seq) })
  | none => d

/-- May a descriptor's RELEASE move HEAD (R234)? -/
def Dev.descReleases (d : Dev) (t : Nat) (e : ChanEnt) : Bool :=
  let x := readDesc e.bytes
  !(x.release && x.srcReg) || d.releaseOk t x.srcR ((e.origin + x.src + x.srcSpan) % m32)

/-- A descriptor whose RELEASE may not be: what it wrote stays written, and it is aborted with 0x0267 (R234, R284). -/
def Dev.descUnreleased (d : Dev) (t ch : Nat) (e : ChanEnt) (m : Moved) : Dev :=
  let x := readDesc e.bytes
  let d := ((d.descTouch t e).descWrite t e m (d.dstOff (d.dstPhys t x) x) e.done m.stop).abortDesc t ch e
  let d := (d.showChan t ch).pendServe
  match e.ins with
  | some i => d.haltIns t 0x0267 x.srcR i 3 0 []
  | none => d

/-- A region takes what it has room for (R233): whole lines or segments, TAIL over each, and the descriptor waits
for the rest. -/
def Dev.descPart (d : Dev) (t ch : Nat) (e : ChanEnt) (m : Moved) : Dev :=
  let x := readDesc e.bytes
  let u := d.dstPhys t x
  let o := d.dstOff u x
  let c := m.cut o (d.dstRoom t e)
  let d := d.bump (SPM.REGION_WAITS.COUNT t) 1
  if c ≤ e.done then d
  else
    let d := (d.descWrite t e { m with rowScales := [] } o e.done c).tailTo u x.dstR ((o + c) % m32)
    d.onTile t (fun y => y.setChan ch { y.chan ch with cur := some { e with done := c } })

/-! ## Damaged data (R185) -/

/-- Put a pipeline into FAULTED and halt its other local stage tiles (R313). -/
def Dev.pipeFault (d : Dev) (p : Nat) (m : PipeMap) (st logical : Nat) : Dev :=
  if d.get (CMD.PIPE_STATE.STATE p) = 5 then d else
  let locals := (m.stages.filter (fun s => s.1 == d.rank)).map (·.2)
  let d := d.each (locals.filter (· != logical)) (fun d l =>
    let t := d.phys l
    d.haltTile t 0x0276 0 ⟨d.pc t (d.ctx t), d.ctx t, 0, 0⟩ [])
  let d := (d.set (CMD.PIPE_STATE.STATE p) 5).set (CMD.PIPE_FAULT.STATUS p) st
  let d := (d.set (CMD.PIPE_FAULT.TILE p) logical).eventOpen 0x020D
  d.unitDone 0x0205 (fun f => le f.ops 0 2 == p) (errR 0x020D)

/-- Declare the data of a tile's stream damaged: mark its HBM extent, post 0x0305 with the device address of the
faulting block's segment, stop the pipeline. The catalogue has no entry for data that stands in scratchpad only, and
such data has no device address: nothing is marked and the address is a free value (log 2). -/
def Dev.dataDamaged (d : Dev) (t : Nat) (hbm : Option (Nat × Nat)) (seg : Option Nat) (st : Nat) : Dev :=
  let d := match hbm with
    | some (a, n) => d.each (List.range (if n = 0 then 0 else pageOf (a + n - 1) + 1 - pageOf a)) (fun d i => d.markDamaged (pageOf a + i))
    | none => d
  let d := match seg with
    | some a => d.event 0x0305 a
    | none => d.eventOpen 0x0305
  let l := d.logical t
  match d.stageOf l with
  | some (p, _, m) => d.pipeFault p m st l
  | none => d

end Sys2Proof.Machine
end

