-- ==== Sys2Proof/Machine/TileIssue.lean ====
section
/-! DEFINITION. How a tile issues: the queues and their heads (R257 to R261), waits and barriers
(R262, R263), the pass a stage takes next (R302 to R304), contexts (R278 to R280), and the issue of
one instruction (R256, R266, R275). -/

namespace Sys2Proof.Machine

/-! ## Passes of a stage (R302) -/

/-- The passes of stage s in order: (index, backward). -/
def passOrder (schedule n stages window s : Nat) : List (Nat × Bool) :=
  match schedule with
  | 0 => (List.range n).map (·, false)
  | 1 => (List.range n).map (·, false) ++ (List.range n).map (·, true)
  | _ =>
    let w := min n (min (stages - s) window)
    (List.range w).map (·, false) ++
      (List.range n).flatMap (fun j => (j, true) :: (if w + j < n then [(w + j, false)] else []))

/-- The passes of a stage in the pipeline's current step. -/
def Dev.passes (d : Dev) (p s : Nat) (m : PipeMap) : List (Nat × Bool) :=
  passOrder m.schedule (d.get (CMD.PIPE_NEXT.N p)) m.stages.length m.window s

/-- The next pass of a stage, once its descriptor has been admitted (R303): the words for g8 to g15. -/
def Dev.nextPass (d : Dev) (p s : Nat) (m : PipeMap) : Option (List Nat) :=
  let st := d.get (CMD.PIPE_STATE.STATE p)
  if st ≠ 2 ∧ st ≠ 3 then none
  else
    let pp := d.pipe p
    match (d.passes p s m)[smapGet zeroDflt pp.delivered s]? with
    | none => none
    | some (ix, back) =>
      (pp.queue.find? (fun ws => ws.getD 0 0 % 65536 == ix)).map (fun ws =>
        let n := ws.getD 7 0 % 65536
        ws.take 7 ++ [n + (if back then 65536 else 0) + (if ix + 1 = n then 131072 else 0)])

/-- Is micro-batch `ix` done at every local stage (R304)? -/
def Dev.mbEnded (d : Dev) (p : Nat) (m : PipeMap) (ix : Nat) : Bool :=
  let pp := d.pipe p
  m.stages.zipIdx.all (fun (sd, s) => sd.1 != d.rank ||
    ((d.passes p s m).drop (smapGet zeroDflt pp.ended s)).all (fun e => e.1 != ix))

/-- Retire what has ended on this device (R304). -/
def Dev.retire (d : Dev) (p : Nat) (m : PipeMap) : Dev :=
  let pp := d.pipe p
  let gone := pp.queue.filter (fun ws => d.mbEnded p m (ws.getD 0 0 % 65536))
  let keep := pp.queue.filter (fun ws => !d.mbEnded p m (ws.getD 0 0 % 65536))
  let d := (d.setPipe p { pp with queue := keep }).bump (CMD.PIPE_RETIRED.COUNT p) gone.length
  d.set (CMD.PIPE_RETIRED.QUEUED p) keep.length

/-- Complete a PIPELINE_DRAIN in progress (R312): every local stage tile at a boundary, its deferral
queue empty and no tally add due (R301), every micro-batch retired. -/
def Dev.tryDrain (d : Dev) (p : Nat) (m : PipeMap) : Dev :=
  let locals := (m.stages.filter (fun s => s.1 == d.rank)).map (fun s => d.phys s.2)
  if d.get (CMD.PIPE_STATE.STATE p) = 3 ∧ (d.pipe p).queue.isEmpty
      ∧ d.get (CMD.PIPE_RETIRED.COUNT p) = d.get (CMD.PIPE_NEXT.N p)
      ∧ locals.all (fun t => d.atBoundary t && (d.tile t).deferQ.isEmpty && !(d.tile t).done.any (·.sig)) then
    (d.weakDue.set (CMD.PIPE_STATE.STATE p) 4).unitDone 0x0205 (fun f => le f.ops 0 2 == p)
      (okR (d.get2 (CMD.PIPE_STEP_LO.STEP p) (CMD.PIPE_STEP_HI.STEP p)))
  else d

/-! ## Waits and barriers -/

/-- Free the slots of satisfied waits and drop their barriers (R262, R263). -/
def Dev.freeWaits (d : Dev) (t : Nat) : Dev :=
  (d.regLatch t).onTile t (fun x =>
    let gone := (x.waits.filter (·.sat)).map (·.seq)
    let keep (q : List QEnt) : List QEnt := q.filter (fun e => match e with | .barrier w => !gone.contains w | .ins _ => true)
    { x with waits := x.waits.filter (fun w => !w.sat), mq := keep x.mq, vq := keep x.vq, dq := keep x.dq, sq := keep x.sq })

/-- Does an unsatisfied wait hold a context's issue? -/
def Tile.issueHeld (x : Tile) (c : Bool) : Bool := x.waits.any (fun w => !w.sat && w.deferred == c && bit w.gates 0)

/-! ## Queue heads -/

/-- The S queue: TADD and REL (R274). -/
def Dev.pumpS : Nat → Dev → Nat → Dev
  | 0, d, _ => d
  | n + 1, d, t =>
    if d.halted t then d
    else match (d.tile t).sq with
      | .ins i :: rest =>
        let pop (d : Dev) : Dev := d.onTile t (fun x => { x with sq := rest })
        if i.op = 0x82 then
          Dev.pumpS n ((pop (d.tallyAdd i.tally i.x)).insDone t { i with sig := false }) t
        else
          let r := bits i.word 37 32
          if d.releaseOk t r i.x then Dev.pumpS n (((pop d).setHeadR t r i.x).insDone t i) t
          else d.haltIns t 0x0267 r i 4 0 []
      | _ => d

/-- The D queue: hand descriptors to channels with room (R239, R257, R272). The offsets of a region source count from
the read origin that stands then. -/
def Dev.pumpD : Nat → Dev → Nat → Dev
  | 0, d, _ => d
  | n + 1, d, t =>
    if d.halted t then d
    else match (d.tile t).dq with
      | .ins i :: rest =>
        let ch := bits i.word 33 32
        let x := d.tile t
        let c := x.chan ch
        if 16 ≤ c.queue.length then d
        else if (x.spmBad i.x 64).isSome then (d.spmTouch t i.x 64).haltIns t 0x0265 i.x i 3 0 []
        else
          let b := descBytes x i
          let k := readDesc b
          let e : ChanEnt := ⟨some i, i.x, b, if k.srcReg then d.regR t k.srcR else 0, [], [], 0, false⟩
          let d := (d.spmTouch t i.x 64).setTile t ({ x with dq := rest }.setChan ch { c with queue := c.queue ++ [e] })
          Dev.pumpD n (d.showChan t ch) t
      | _ => d

/-- The M queue: into the per-array queues, 4 entries each (R257). A stream of 0 rows needs no array (R130). -/
def Dev.pumpM : Nat → Dev → Nat → Dev
  | 0, d, _ => d
  | n + 1, d, t =>
    if d.halted t then d
    else match (d.tile t).mq with
      | .ins i :: rest =>
        let x := d.tile t
        let a := iArray i.word
        if 4 ≤ (x.aqOf a).length then d
        else if i.op = 0x21 ∧ i.y = 0 ∧ !d.arrValid t a then Dev.pumpM n ((d.setTile t { x with mq := rest }).insDone t i) t
        else Dev.pumpM n (d.setTile t ({ x with mq := rest }.setAq a (x.aqOf a ++ [i]))) t
      | _ => d

/-- An MLOAD at the head of an array's queue starts: it writes the incoming registers (R127), or finds a codec
fault, which the expander holds for the halt (R182). -/
def Dev.pumpLoad (d : Dev) (t a : Nat) : Dev :=
  let x := d.tile t
  match x.aqOf a with
  | i :: q =>
    let p := d.arrPhys t a
    let ar := x.arr p
    let (base, reg) := loadSrc i
    let fmt := bits i.word 39 36
    if i.op ≠ 0x20 ∨ ar.incoming.isSome ∨ ar.fault.isSome ∨ d.halted t then d
    else match d.supply t base reg fmt (loadBlocks fmt - 1) with
      | .wait => d
      | .tooBig => d.haltArray t a 0x0262 (reg - 1) i
      | .ready => match d.readWeights t base reg fmt (bit i.word 35) with
        | (d, .ok w) => ((d.onTile t (fun x => (x.setArr p { x.arr p with incoming := some (i, w) }).setAq a q)).showArr t p).bump
            (TCX.BLOCKS_DECODED.COUNT t) (loadBlocks fmt)
        | (d, .error f) => (d.onTile t (fun x => x.setArr p { x.arr p with fault := some (d.codecFault t i f) })).bump
            (TCX.BLOCKS_DECODED.COUNT t) (releasedBefore f 0)
  | [] => d

/-- Are all streams and runs of chain c issued before `seq` released? -/
def Tile.chainClear (x : Tile) (c seq : Nat) : Bool := x.live.all (fun e => e.2.2 != c + 1 || decide (seq ≤ e.1))

/-- Does a flush of chain c wait in the V queue? -/
def Tile.flushQueued (x : Tile) (c : Nat) : Bool :=
  x.vq.any (fun e => match e with | .ins i => i.op == 0x42 && iChainV i.word == c | .barrier _ => false)

/-- May the encoder of chain c be flushed: every group taken, and room for the last segment? -/
def Dev.flushReady (d : Dev) (t c : Nat) : Bool :=
  let en := (d.tile t).encOf c
  en.ahead.isEmpty && (en.codes.isEmpty || d.chainRoom t c en.pos ((d.tile t).encNeed c en.codes.length))

/-- The V queue: a run starts when none is in progress, a flush when its chain is clear and its last
segment has room (R203, R257). -/
def Dev.pumpV : Nat → Dev → Nat → Dev
  | 0, d, _ => d
  | n + 1, d, t =>
    if d.halted t then d
    else match (d.tile t).vq with
      | .ins i :: rest =>
        let x := d.tile t
        let c := iChainV i.word
        if i.op = 0x40 then
          if x.vrun.isSome then d
          else
            let cols := if x.chCol c then List.replicate (x.chCols c) none else []
            d.setTile t { x with vq := rest, vrun := some ⟨i, 0, cols, 0⟩ }
        else if !x.chainClear c i.seq then d
        else if !x.chTess c then Dev.pumpV n ((d.setTile t { x with vq := rest }).insDone t i) t
        else
          let d := Dev.encDrain (x.encOf c).ahead.length d t c
          if d.flushReady t c then
            Dev.pumpV n (((d.onTile t (fun x => { x with vq := rest })).encFlush t c).insDone t i) t
          else d.bump (SPM.REGION_WAITS.COUNT t) 1
      | _ => d

/-- MBENDs whose earlier main-context instructions have all completed: the micro-batch has ended on
this tile (R277, R304). -/
def Dev.pumpMb (d : Dev) (t : Nat) : Dev :=
  let x := d.tile t
  let ready := x.mbends.filter (fun s => x.live.all (fun e => e.2.1 || decide (s ≤ e.1)))
  if ready.isEmpty then d
  else
    let d := d.onTile t (fun x => { x with mbends := x.mbends.filter (fun s => !ready.contains s) })
    match d.stageOf (d.logical t) with
    | none => d
    | some (p, s, m) =>
      let pp := d.pipe p
      (d.setPipe p { pp with ended := smapSet zeroDflt pp.ended s (smapGet zeroDflt pp.ended s + ready.length) }).retire p m

/-- Does an instruction that an array holds read region r, or the chain of a live stream or run write it? -/
def Tile.usesRegion (x : Tile) (r : Nat) : Bool :=
  let reads (i : TIns) : Bool := (i.op == 0x20 || i.op == 0x21) && (operandSrc i).2 == r + 1
  x.aq.any (fun e => e.2.any reads) || x.arrays.any (fun e => e.2.cur.any (fun s => reads s.ins))
    || x.live.any (fun e => e.2.2 != 0 && x.chRegion (e.2.2 - 1) && x.chDest (e.2.2 - 1) % 64 == r)

/-- Does a descriptor in progress on a tile's channels use region r of tile `t` (R230)? -/
def Dev.chanUses (d : Dev) (u t r : Nat) (c : Chan) : Bool :=
  match c.cur with
  | some e =>
    let k := readDesc e.bytes
    (u == t && k.srcReg && k.srcR == r) || (k.dstReg && k.dstR == r && d.dstPhys u k == t)
  | none => false

/-- Is an operation on region r of a tile in flight (R230, R231)? -/
def Dev.regionBusy (d : Dev) (t r : Nat) : Bool :=
  (d.tile t).usesRegion r || d.tiles.any (fun e => e.2.chans.any (fun c => d.chanUses e.1 t r c.2))

/-- A map that names a failed array, or one array twice, is refused (R157). -/
def mapOk (failed v : Nat) : Bool :=
  let live := (List.range 8).filter (fun a => bit v (4 * a + 3))
  let ps := live.map (fun a => bits v (4 * a + 2) (4 * a))
  ps.all (fun p => !failed.testBit p) && decide (ps.eraseDups.length = ps.length)

/-- Take a map into force: LOGICAL and MAPPED follow, and every array of the tile starts empty
(R155). -/
def Dev.applyMap (d : Dev) (t : Nat) (v : Reg) : Dev :=
  let d := (d.wr (MXA.MAP.REG t).off v).dropWeights t true
  d.each (List.range 8) (fun d p =>
    match (List.range 8).find? (fun a => bit v.toNat (4 * a + 3) && bits v.toNat (4 * a + 2) (4 * a) == p) with
    | some a => (d.set (MXA.STATE.MAPPED t p) 1).set (MXA.STATE.LOGICAL t p) a
    | none => d.set (MXA.STATE.MAPPED t p) 0)

/-- The region a region register belongs to (R252): descriptor and counters, origins, binding. -/
def regionOf (t off : Nat) : Option Nat :=
  let o := off - (SPM.REGION_BASE.REG t 0).off
  if off < (SPM.REGION_BASE.REG t 0).off then none
  else if o < 0x400 then some (o / 16)
  else if o < 0x600 then some ((o - 0x400) / 8)
  else if o < 0x700 then some ((o - 0x600) / 4)
  else none

/-- Apply a write of a region register, and release what it satisfies. -/
def Dev.regionStore (d : Dev) (t off : Nat) (v : Reg) : Dev := (d.wr off v).regLatch t

/-- A region reset (R231): TAIL, HEAD and both origins become 0 together, once no operation on the region is in
flight. -/
def Dev.regionReset (d : Dev) (t r : Nat) : Dev :=
  let ws : List (Nat × Reg) := [((SPM.REGION_TAIL.REG t r).off, 0), ((SPM.REGION_HEAD.REG t r).off, 0),
    ((SPM.REGION_WORIGIN.REG t r).off, 0), ((SPM.REGION_RORIGIN.REG t r).off, 0)]
  if d.regionBusy t r then d.onTile t (fun x => { x with heldRegion := x.heldRegion ++ ws })
  else d.each ws (fun d w => d.regionStore t w.1 w.2)

/-- May the map change now: at a boundary, or with no program started (R155, R282)? -/
def Dev.mapFree (d : Dev) (t : Nat) : Bool :=
  let st := d.get (CMD.SEQ_STATE.STATE t)
  st == tsEMPTY || st == tsREADY || d.boundaryHolds t || (d.halted t && (d.tile t).wasReady)

/-- Apply the held writes of region descriptors and of the map, once nothing is in flight (R155, R230). -/
def Dev.pumpHeld (d : Dev) (t : Nat) : Dev :=
  let x := d.tile t
  let ready := x.heldRegion.filter (fun (off, _) => match regionOf t off with
    | some r => !d.regionBusy t r
    | none => true)
  let d := d.each ready (fun d (off, v) => d.regionStore t off v)
  let d := d.onTile t (fun x => { x with heldRegion := x.heldRegion.filter (fun h => !ready.contains h) })
  match x.heldMap with
  | some v => if x.arraysIdle && d.mapFree t then (d.applyMap t v).onTile t (fun x => { x with heldMap := none }) else d
  | none => d

/-- Does the tile's DMA issued before place `seq` still write region r of tile u? -/
def Dev.dmaInto (d : Dev) (t u r seq : Nat) : Bool :=
  let x := d.tile t
  let hits (i : TIns) (b : Bytes) : Bool :=
    let k := readDesc b
    decide (i.seq < seq) && k.dstReg && k.dstR == r && d.dstPhys t k == u
  x.dq.any (fun e => match e with | .ins i => hits i (descBytes x i) | .barrier _ => false)
    || x.chans.any (fun c => (c.2.queue ++ c.2.cur.toList ++ c.2.redo.toList).any (fun e => e.ins.any (fun i => hits i e.bytes)))

/-- R232 on the producing side of region r of logical tile l, which this tile feeds: at once, or when its DMA of the
micro-batch before has written its last byte there (R297). -/
def Dev.admitOrLatch (d : Dev) (t l r : Nat) : Dev :=
  let u := d.phys l
  let next := (d.tile t).nextSeq
  if d.dmaInto t u r next then d.onTile t (fun x => { x with latches := x.latches ++ [(l, r, next)] })
  else d.admitProducer u r

/-- Admissions of regions whose DMA of the micro-batch before has been written (R297). -/
def Dev.pumpLatch (d : Dev) (t : Nat) : Dev :=
  d.each (d.tile t).latches (fun d l =>
    let u := d.phys l.1
    if d.dmaInto t u l.2.1 l.2.2 then d
    else (d.onTile t (fun x => { x with latches := x.latches.erase l })).admitProducer u l.2.1)

/-- A pipeline that waits for its drain looks at it again when a tile of it has gone on (R301). -/
def Dev.pumpDrain (d : Dev) (t : Nat) : Dev :=
  match d.stageOf (d.logical t) with
  | some (p, _, m) => d.tryDrain p m
  | none => d

/-- Start whatever the queue heads allow. -/
def Dev.pump (d : Dev) (t : Nat) : Dev :=
  let d := d.freeWaits t
  let d := (d.pumpS 8 t).freeWaits t
  let d := (((d.pumpD 16 t).pumpLatch t).pumpM 16 t)
  let d := (d.each (List.range 8) (fun d a => d.pumpLoad t a)).pumpM 16 t
  ((d.pumpV 8 t).pumpMb t).pumpHeld t |>.pumpDrain t

/-! ## Issue -/

/-- What an attempt to issue gives: the tile after issue, a stall, or a halt with a status and
information. -/
inductive Issued where
  | ok (d : Dev)
  | stall (d : Dev)
  | halt (st info : Nat)

/-- The tally an instruction names (R266). -/
def insTally (x : Tile) (c : Bool) (w : Nat) : Nat := (x.rg c (iTreg w) % 65536 + iToff w) % 65536

/-- The captured instruction at a context's PC, with no operand values. -/
def Dev.mkIns (d : Dev) (t : Nat) (c : Bool) (w : Nat) : TIns :=
  let x := d.tile t
  ⟨x.nextSeq, d.pc t c, c, iOp w, w, insTally x c w, iSig w, 0, 0, 0, 0, 0, 0, 0, 0, []⟩

/-- Step a context's PC. -/
def Dev.advance (d : Dev) (t : Nat) (c : Bool) : Dev := d.setPc t c ((d.pc t c + 1) % 16384)

/-- Record an issued instruction that completes later: program order, and its chain if it is a
stream or run. -/
def Dev.track (d : Dev) (t : Nat) (i : TIns) (chain : Nat) : Dev :=
  d.onTile t (fun x => { x with nextSeq := x.nextSeq + 1, live := x.live ++ [(i.seq, i.deferred, chain)] })

/-- Issue the instruction at the PC of the context that holds issue, if it is an `op` (R256): a
failed predicate makes it a no-op (R266); `f` gives its issue. -/
def Dev.issue (d : Dev) (t op : Nat) (f : Dev → Bool → Nat → Issued) : Dev :=
  let d := d.pump t
  let c := d.ctx t
  let x := d.tile t
  let pc := d.pc t c
  let w := smapGet zeroDflt x.prog pc
  if d.get (CMD.SEQ_STATE.STATE t) ≠ tsRUNNING ∨ iOp w ≠ op ∨ d.get (CMD.SEQ_PROG.COUNT t) ≤ pc then d
  else if x.issueHeld c ∨ (!c && x.mbHold) ∨ (c && !d.flag (CMD.SEQ_STATE.ROUTINE t)) then d.bump (CMD.SEQ_STALL.COUNT t) 1
  else
    let count (d : Dev) : Dev :=
      (d.bump (CMD.SEQ_ISSUED.COUNT t) 1).when c (·.bump (CMD.SEQ_DEFER_ISSUED.COUNT t) 1)
    if x.rp c (iPred w) == iPneg w then (count (d.advance t c)).pump t
    else
      let needsTally := iSig w || op == 0x80 || op == 0x82
      if needsTally && !d.tallyOwned (insTally x c w) (d.tileJob t) then
        d.haltTile t 0x0106 (insTally x c w) ⟨pc, c, 0, 0⟩ []
      else match f d c w with
        | .ok d => (count d).pump t
        | .stall d => d.bump (CMD.SEQ_STALL.COUNT t) 1
        | .halt st info => d.haltTile t st info ⟨pc, c, 0, if op / 32 = 1 then iArray w else 0⟩ []

/-! ## Contexts (R278 to R280) -/

/-- Is the main context at a yield point? -/
def Dev.mainYields (d : Dev) (t : Nat) : Bool :=
  let x := d.tile t
  x.waits.any (fun w => !w.sat && !w.deferred && bit w.gates 0 && w.yields)
    || (x.mbHold && (match d.stageOf (d.logical t) with
        | some (p, s, m) => (d.nextPass p s m).isNone
        | none => true))
    || (x.deferHold && decide (8 ≤ x.deferQ.length))

/-- Start the routine at the head of the deferral queue (R278): it waits for a flush of its chains already issued
(log 90), and halts with 0x0274 when a chain of DCHAIN_MASK has an unflushed tessera stream. -/
def Dev.startRoutine (d : Dev) (t : Nat) : Dev :=
  let x := d.tile t
  match x.deferQ with
  | [] => d
  | e :: _ =>
    let ds := maskBits x.dmask 32
    if ds.any x.flushQueued then d
    else match ds.find? (fun c => (x.encOf c).isOpen) with
    | some c => d.haltTile t 0x0274 c ⟨e.pc, true, 0, 0⟩ []
    | none =>
      let d := d.onTile t (fun x => e.gs.zipIdx.foldl (fun x (v, k) => x.wg true (48 + k) v) x)
      let d := (d.setPc t true e.pc).set (CMD.SEQ_STATE.ROUTINE t) 1
      let d := d.set (CMD.SEQ_MB.DEFERRED t) e.mb
      d.each ds (fun d c => d.resetChain t c)

/-- Pass issue to a context (R280). -/
def Dev.switchTo (d : Dev) (t : Nat) (c : Bool) : Dev :=
  ((d.set (CMD.SEQ_STATE.CONTEXT t) (b2n c)).bump (CMD.SEQ_SWITCHES.COUNT t) 1).dropWeights t false

/-- Physical arrays of a tile judged PERMANENT and not yet marked in `MXA.FAILED` (R154). -/
def Dev.unmarked (d : Dev) (t : Nat) : List Nat :=
  (List.range 8).filter (fun a => d.get (suspLevel (uArray t a)) == 3 && !(d.get (MXA.FAILED.MASK t)).testBit a)

/-- Is a PERMANENT tile's stage to be moved to a reserve that can take it (R598)? -/
def Dev.remapDue (d : Dev) (t : Nat) : Bool :=
  d.get (suspLevel (uTile t)) == 3 && d.logical t != 0xFFFF && (d.reserveFor (wingOf t)).isSome

/-- Is a loan, a remap or a change of the map of this tile pending (R282)? -/
def Dev.movePending (d : Dev) (t : Nat) : Bool :=
  d.csv.loans.any (fun e => match e.2 with | some l => l.tile == t && (l.phase == 1 || l.phase == 2) | none => false)
    || (d.tile t).heldMap.isSome || !(d.unmarked t).isEmpty || d.remapDue t

/-! ## Resuming (R285) -/

/-- May a halted tile resume now? -/
def Dev.resumeFree (d : Dev) (t : Nat) : Bool :=
  !d.flag (TCX.FAULT_STATUS.VALID t) && (List.range 4).all (fun ch => !d.flag (TDMA.CH_STATE.ERROR t ch))

/-- Resume, or hold the resume. A DMA that was aborted reads its descriptor again; a tile halted before its program
started is READY again. -/
def Dev.resumeTile (d : Dev) (t : Nat) : Dev :=
  if !d.halted t then d
  else if d.resumeFree t then
    let st := if (d.tile t).wasReady then tsREADY else tsRUNNING
    let d := (d.set (CMD.SEQ_STATE.STATE t) st).set (CMD.SEQ_HALT.VALID t) 0
    let d := d.onTile t (fun x => { x with resumeHeld := false, wasReady := false, chans := x.chans.map (fun e =>
      (e.1, { e.2 with redo := e.2.redo.map (fun q => match q.ins with
        | some i => if q.again then { q with bytes := descBytes x i, again := false } else q
        | none => q) })) })
    d.pump t
  else d.onTile t (fun x => { x with resumeHeld := true })

end Sys2Proof.Machine
end

