-- ==== Sys2Proof/Machine/TileMatrix.lean ====
section
/-! DEFINITION. The matrix instructions of a tile (R269, R270), the transfer of a load (R127), the
start and commit of a stream (R131, R143), the map (R154, R155, R157), and a codec fault at an
expander with the response to it (R182 to R185). -/

namespace Sys2Proof.Machine

/-! ## MLOAD -/

/-- The source of an MLOAD: address, or offset counted from the region's read origin. -/
def Dev.loadFrom (d : Dev) (t : Nat) (c : Bool) (w : Nat) : Nat :=
  let o := (d.tile t).ra c (bits w 43 40) + bits w 95 64
  if bit w 44 then (d.regR t (bits w 50 45) + o) % m32 else o % spmBytes

/-- MLOAD at issue (R269): refused on an unmapped array or an invalid region, held by a full queue. -/
def Dev.mloadIssue (d : Dev) (t : Nat) (c : Bool) (w : Nat) : Issued :=
  let a := iArray w
  if !d.arrValid t a then .halt 0x0243 a
  else if bit w 44 && !d.regOk t (bits w 50 45) then .halt 0x0261 (bits w 50 45)
  else if 16 ≤ (d.tile t).mq.length then .stall d
  else
    let i := { d.mkIns t c w with x := d.loadFrom t c w }
    .ok (((d.track t i 0).onTile t (fun x => { x with mq := x.mq ++ [.ins i] })).advance t c)

/-- MLOAD (R269). -/
def execMload (tile : Nat) (s : State) : Host.Outcome State Fault Refusal :=
  .next (s.atTile tile (·.issue tile 0x20 (fun d c w => d.mloadIssue tile c w)))

/-- Do the arrays of a tile run: not halted, or by a status that lets streams finish (R284)? -/
def Dev.arraysRun (d : Dev) (t : Nat) : Bool := !d.halted t || haltKeeps (d.get (CMD.SEQ_HALT.STATUS t))

/-- A stream that faulted once and has now completed may fault once more (R184). -/
def Tile.forgetRetry (x : Tile) (base : Nat) : Tile := { x with retried := x.retried.filter (· != base) }

/-- A freeze of a physical array with cause EMPTY: what it reads in a region is not there (R151, R152, R234). -/
def Dev.freezeEmpty (d : Dev) (t p : Nat) : Dev := (d.bump (MXA.FREEZE_TOTAL.COUNT t p) 1).bump (MXA.FREEZE_EMPTY.COUNT t p) 1

/-- The transfer cycle of the load of array `a` (R127): incoming becomes shadow. A load that still waits for its region
counts as a waiting consumer, and freezes the array that runs a stream beside it. -/
def Dev.loadTransfer (d : Dev) (t a : Nat) : Dev :=
  let p := d.arrPhys t a
  let x := d.tile t
  let ar := x.arr p
  match ar.incoming, x.aqOf a with
  | some (i, w), _ =>
    if d.arraysRun t then
      let x := x.setArr p { ar with shadow := some w, incoming := none }
      (((d.setTile t (x.forgetRetry (d.operandBase t i))).showArr t p).insDone t i).pump t
    else d
  | none, i :: _ =>
    if i.op = 0x20 ∧ ar.fault.isNone ∧ !d.halted t ∧
        d.supply t (loadSrc i).1 (loadSrc i).2 (bits i.word 39 36) (loadBlocks (bits i.word 39 36) - 1) = .wait then
      (d.when (!ar.cur.isEmpty) (·.freezeEmpty t p)).bump (SPM.REGION_WAITS.COUNT t) 1
    else d
  | none, [] => d

/-- MLOAD_TRANSFER's effect: whatever the queue heads allow starts, then the transfer. -/
def Dev.mloadTransfer (d : Dev) (t a : Nat) : Dev := (d.pump t).loadTransfer t a

/-- MLOAD_TRANSFER (R127). -/
def execMloadTransfer (tile a : Nat) (s : State) : Host.Outcome State Fault Refusal :=
  .next (s.atTile tile (·.mloadTransfer tile a))

/-! ## MSTREAM -/

/-- The row count and first row (R270). -/
def Tile.streamM (x : Tile) (c : Bool) (w : Nat) : Nat :=
  if bit w 79 then x.rg c (bits w 85 80) % 2 ^ 24 else bits w 103 80
def Tile.streamRow0 (x : Tile) (c : Bool) (w : Nat) : Nat :=
  if bit w 127 then x.rg c (bits w 109 104) % 2 ^ 23 else bits w 126 104

/-- The g registers that the stages of a chain capture (R207). -/
def Tile.captured (x : Tile) (ctx : Bool) (c : Nat) : List Nat :=
  (List.range 8).map (fun k =>
    let st := x.chStage c k
    if stBsrc st = 2 then x.rg ctx (stImm st % 64) % 2 ^ 32 else 0)

/-- Is every scratchpad range of a chain's operands, masks and reductions inside (R221)? `n` elements
from e0, rows from r0, columns from c0, `words` reduction words from d0. -/
def Tile.operandsOk (x : Tile) (c e0 n r0 rows c0 cols d0 words : Nat) : Bool :=
  ((List.range 8).all (fun k =>
    let st := x.chStage c k
    let w := elemBits (stFmt st) / 8
    match stBsrc st with
    | 4 => decide (stBase st + (c0 + cols) * w ≤ spmBytes)
    | 5 => decide (stBase st + (r0 + rows) * w ≤ spmBytes)
    | 6 => decide (stBase st + (e0 + n) * w ≤ spmBytes)
    | _ => true))
  && (x.chMask c == 0 || !x.chBitsEn c || decide (x.chMaskBase c + ceilDiv (e0 + n) 8 ≤ spmBytes))
  && (words == 0 || decide (x.chRedDest c + 4 * (d0 + words) ≤ spmBytes))

/-- The check of a chain's destination and ranges at issue (R221, R237): 0 when they pass. -/
def Dev.chainRanges (d : Dev) (t c e0 n r0 rows c0 cols d0 words : Nat) : Nat :=
  let x := d.tile t
  let r := x.chDest c % 64
  if !x.operandsOk c e0 n r0 rows c0 cols d0 words then 0x0252
  else if x.chRegion c then
    if !d.regOk t r then 0x0252
    else if x.chTess c then (if d.regSize t r < 4352 then 0x0262 else 0)
    else if d.regSize t r < n * outBits (x.chOut c) / 8 then 0x0262
    else 0
  else if x.chTess c then (if spmBytes < x.chDest c + tessWorst (x.chElems c) true then 0x0307 else 0)
  else if spmBytes < x.chDest c + (e0 + n) * outBits (x.chOut c) / 8 then 0x0252
  else 0

/-- The issue-time checks of a FINISH stream of m rows (R201, R214, R221): 0 when they pass. -/
def Dev.finishCheck (d : Dev) (t c m q : Nat) : Nat :=
  let x := d.tile t
  let n := 32 * q * m
  let words := (if x.chLane c then m * q else 0) + (if x.chCol c then 32 * q else 0)
  if x.chCols c % (32 * q) ≠ 0 then 0x0254
  else if 2048 < x.charge c m q then 0x0251
  else if x.chTess c && decide (x.chElems c < d.curE t c + n) then 0x0307
  else d.chainRanges t c (d.curE t c) n (d.curRow t c) m (d.curCol t c) (32 * q) (x.eRed c) words

/-- Reserve a stream's ranges (R201). -/
def Dev.reserveStream (d : Dev) (t c m q : Nat) : Dev :=
  let x := d.tile t
  let col := d.curCol t c + 32 * q
  let red := x.eRed c + (if x.chLane c then m * q else 0) + (if x.chCol c then 32 * q else 0)
  d.setCursors t c ((d.curE t c + 32 * q * m) % 2 ^ 48)
    (if x.chCols c ≤ col then (d.curRow t c + m) % m32 else d.curRow t c) (if x.chCols c ≤ col then 0 else col) red

/-- MSTREAM at issue (R270): a stream of 0 rows is checked against nothing (R130, R201; DEDUCED, log 80); else its
checks in order, then its reservation and its place in the M queue. -/
def Dev.mstreamIssue (d : Dev) (t : Nat) (c : Bool) (w : Nat) : Issued :=
  let x := d.tile t
  let a := iArray w
  let ch := iChainM w
  let m := x.streamM c w
  let q := streamQ w
  let fin := bit w 41
  let active := fin && decide (0 < m)
  let base := x.ra c (bits w 67 64)
  if decide (0 < m) && !d.arrValid t a then .halt 0x0243 a
  else if decide (0 < m) && bit w 68 && !d.regOk t (bits w 74 69) then .halt 0x0261 (bits w 74 69)
  else if 16 ≤ x.mq.length then .stall d
  else if active && (x.chTess ch || x.chRegion ch) && d.uncommitted t ch then .stall d
  else if decide (0 < m) && !(fin && !bit w 40) && decide (512 < bits w 63 55 + m * q) then .halt 0x0241 a
  else
    let st := if active then d.finishCheck t ch m q else 0
    if st ≠ 0 then .halt st ch
    else
      let i := { d.mkIns t c w with
        x := if bit w 68 then (d.regR t (bits w 74 69) + base) % m32 else base % spmBytes,
        y := m, z := x.streamRow0 c w, w := x.ra c (bits w 78 75) % spmBytes,
        e0 := d.curE t ch, r0 := d.curRow t ch, c0 := d.curCol t ch, d0 := x.eRed ch,
        gregs := if active then x.captured c ch else [] }
      let d := if active then d.reserveStream t ch m q else d
      .ok (((d.track t i (if active then ch + 1 else 0)).onTile t (fun x => { x with mq := x.mq ++ [.ins i] })).advance t c)

/-- MSTREAM (R270). -/
def execMstream (tile : Nat) (s : State) : Host.Outcome State Fault Refusal :=
  .next (s.atTile tile (·.issue tile 0x21 (fun d c w => d.mstreamIssue tile c w)))

/-- Slots the port drains after a stream that another does not continue (R136). -/
def drainSlots (i : TIns) : Nat := if sQuad i then 15 else 31

/-- What an aborted stream that starts again ran with, and whether it had committed. -/
def Arr.redoOf (a : Arr) (i : TIns) : Option (Undo × Bool) := (a.redo.find? (fun r => r.1 == i.seq)).map (·.2)

/-- The weights a stream runs with: those it ran with before, or after its swap the active ones (R131). -/
def Arr.weightsFor (a : Arr) (i : TIns) : Option WBlock :=
  match a.redoOf i with
  | some r => some r.1.weights
  | none => if sSwap i then a.shadow else a.active

/-- The array as a stream that starts now finds it: one that had committed runs again from what it found. -/
def Arr.foundBy (a : Arr) (i : TIns) : Arr :=
  match a.redoOf i with
  | some (u, true) => { a with last := u.before, slots := u.drained.foldl (fun m e => smapPut m e.1 (some e.2)) [] }
  | _ => { a with slots := a.slotsAhead }

/-- Take a started stream into the array (R131, R142, R152). -/
def Dev.takeStream (d : Dev) (t a p : Nat) (i : TIns) (w : WBlock) (im : ImageRead) (out : StreamOut) : Dev :=
  let x := d.tile t
  let ar := x.arr p
  let again := ar.redoOf i
  let ran := match again with | some (_, b) => b | none => false
  let alone := ((ar.foundBy i).pos i).isNone
  let st : ArrStream := ⟨i, out.rows, out.writes, if ran then [] else out.drains, isFinish i, sM i, ar.last, w⟩
  let ar' := { ar with
    active := if again.isSome then ar.active else some w
    shadow := if again.isSome || !sSwap i then ar.shadow else none
    cur := ar.cur ++ [st]
    last := if ran then ar.last else some im.pos.keep }
  let d := (d.setTile t ((x.setArr p ar').setAq a ((x.aqOf a).drop 1))).showArr t p
  let d := (d.set (MXA.STATE.SFMT t p) (sSfmt i)).set (MXA.STATE.AXIS_T t p) (b2n (bit i.word 35))
  let d := d.wr (MXA.FLAGS.REG t p).off (d.rd (MXA.FLAGS.REG t p).off ||| BitVec.ofNat 32 (out.flags % 16))
  d.bump (MXA.ACTIVE.COUNT t p) (sM i + if alone then drainSlots i else 0)

/-- Hold a codec fault, or an operand that could not be read, for the halt (R182, R228). -/
def Dev.holdFault (d : Dev) (t p : Nat) (i : TIns) (f : TFault) : Dev :=
  d.onTile t (fun x => x.setArr p { x.arr p with fault := some (d.codecFault t i f) })

/-- Run a stream at the head of its array: the swap, its checks, its image and its rows (R131, R132, R135 to R147). A
stream that halts leaves the swap undone and sets no flag (log 92). -/
def Dev.runStream (d : Dev) (t a p : Nat) (i : TIns) : Dev :=
  let ar := ((d.tile t).arr p).foundBy i
  match ar.weightsFor i with
  | none => d.haltArray t a 0x0242 a i
  | some w =>
    if w.fmt ≠ sWfmt i ∨ w.quad ≠ sQuad i then d.haltArray t a 0x0246 a i
    else
      let lo := match ar.pos i with | some q => q.top | none => imageLo i
      match d.readImage t ar i with
      | (d, .error f) => (d.holdFault t p i f).bump (TCX.BLOCKS_DECODED.COUNT t) (releasedBefore f lo)
      | (d, .ok im) =>
        let d := d.bump (TCX.BLOCKS_DECODED.COUNT t) im.fresh
        let scaled := (groupOfCode (sSfmt i)).isSome
        let d := d.when scaled (·.spmTouch t (i.w + sRow0 i) (sM i))
        if scaled && ((d.tile t).spmBad (i.w + sRow0 i) (sM i)).isSome then d.holdFault t p i ⟨0x0265, 0xFFFFFFFF, 0, 0, 0⟩
        else match streamRows ar w i im.pos.lo im.pos.codes im.pos.scales (d.rowScales t i) with
          | .error st => d.haltArray t a st a i
          | .ok out => d.takeStream t a p i w im out

/-- The bytes of element codes, two each. -/
def codeBytes (cs : List Nat) : Bytes := cs.flatMap (leBytes 2)

/-- What the tile's agent mirrors of a stream (R607): the expander's output for its weights and its image, the row
scales, and the values of its first 256 rows; 192 KiB at most (log 84). -/
def Dev.replaySample (d : Dev) (t p : Nat) (s : ArrStream) : Bytes :=
  let im : List Nat := match ((d.tile t).arr p).last with | some q => q.codes | none => []
  let vals : List Nat := (s.rows.flatMap (fun e => match e with
      | .row _ _ m _ _ vs _ => if m < 256 then vs else []
      | _ => [])) ++ (s.writes.take (256 * streamQ s.ins.word)).flatMap (·.2.vals)
  (codeBytes s.weights.codes ++ s.weights.scales.map (BitVec.ofNat 8) ++ codeBytes im
    ++ (d.rowScales t s.ins).map (BitVec.ofNat 8) ++ vals.flatMap (leBytes 4)).take 0x30000

/-- A START stream that begins on the selected array is sampled (R607). -/
def Dev.replayCapture (d : Dev) (t p : Nat) (i : TIns) : Dev :=
  match d.csv.replay, ((d.tile t).arr p).cur.find? (fun s => s.ins.seq == i.seq) with
  | some r, some s =>
    if r.tile = t ∧ r.array = p ∧ r.stage = 0 ∧ sAdd i = false then
      { d with csv.replay := some { r with stage := 1, since := d.now, seq := i.seq, sample := d.replaySample t p s } }
    else d
  | _, _ => d

/-- The sampled stream has committed: its sample goes to a reserve (R608). -/
def Dev.replayCaptured (d : Dev) (t p seq : Nat) : Dev :=
  match d.csv.replay with
  | some r =>
    if r.tile = t ∧ r.array = p ∧ r.stage = 1 ∧ r.seq = seq then { d with csv.replay := some { r with stage := 5, since := d.now } }.replayGo
    else d
  | none => d

/-- The stream at the head of array `a` starts beside those in progress (R153), waits for its
transfer (R131) or for its region's data (a freeze with cause EMPTY), or stops the tile. A stream of 0 rows has no
effect (R130). -/
def Dev.startStream (d : Dev) (t a : Nat) : Dev :=
  let p := d.arrPhys t a
  let x := d.tile t
  let ar := x.arr p
  match x.aqOf a with
  | i :: q =>
    if i.op ≠ 0x21 ∨ !ar.owed.isEmpty ∨ ar.fault.isSome ∨ d.halted t then d
    else if sM i = 0 then ((d.setTile t (x.setAq a q)).insDone t i).pump t
    else if sSwap i && (ar.redoOf i).isNone && ar.incoming.isSome then d.bump (MXA.LOAD_WAIT.COUNT t p) 1
    else if d.entersLate t (ar.foundBy i) i then d.haltArray t a 0x0306 a i
    else match d.imageSupply t (ar.foundBy i) i with
      | .wait => (d.freezeEmpty t p).bump (SPM.REGION_WAITS.COUNT t) 1
      | .tooBig => d.haltArray t a 0x0262 (sReg i - 1) i
      | .ready => ((d.runStream t a p i).replayCapture t p i).pump t
  | [] => d

/-- MSTREAM_START's effect: whatever the queue heads allow starts, then the stream. -/
def Dev.mstreamStart (d : Dev) (t a : Nat) : Dev := (d.pump t).startStream t a

/-- MSTREAM_START (R131). -/
def execMstreamStart (tile a : Nat) (s : State) : Host.Outcome State Fault Refusal :=
  .next (s.atTile tile (·.mstreamStart tile a))

/-! ## The finished-panel queue and the commit -/

/-- Move the markers that one array owes the finished-panel queue into it, as far as it has room. -/
def Dev.fillOwed (d : Dev) (t p : Nat) : Dev :=
  let x := d.tile t
  let ar := x.arr p
  let now := ar.owed.take (256 - x.fpq.length)
  if now.isEmpty then d else d.setTile t ({ x with fpq := x.fpq ++ now }.setArr p { ar with owed := ar.owed.drop now.length })

/-- Move the panel rows of the next stream row of one array into the queue, all together or none (R149). A stream's
rows follow the marker of the one before. -/
def Dev.fillRow (d : Dev) (t p : Nat) : Dev :=
  let x := d.tile t
  let ar := x.arr p
  match ar.cur with
  | [] => d
  | s :: rest =>
    let q := streamQ s.ins.word
    if s.rows.isEmpty ∨ !ar.owed.isEmpty ∨ 256 < x.fpq.length + q then d
    else d.setTile t ({ x with fpq := x.fpq ++ s.rows.take q }.setArr p { ar with cur := { s with rows := s.rows.drop q } :: rest })

/-- Rows of several arrays enter by turns, logical arrays ascending in each (R193). -/
def Dev.fillRounds : Nat → Dev → Nat → List Nat → Dev
  | 0, d, _, _ => d
  | n + 1, d, t, ps =>
    let d' := d.each ps (fun d p => d.fillRow t p)
    if (d'.tile t).fpq.length = (d.tile t).fpq.length then d else Dev.fillRounds n d' t ps

/-- Every array writes the markers it owes, and every running one its finished rows. -/
def Dev.fillQueue (d : Dev) (t : Nat) : Dev :=
  let ps := ((List.range 8).filter (d.arrValid t)).map (d.arrPhys t)
  let d := d.each ps (fun d p => d.fillOwed t p)
  if d.arraysRun t then Dev.fillRounds 256 d t ps else d

/-- What a stream's abort would put back: the values of the slots it drains, the port's place before it and its
weights. -/
def Arr.undoOf (a : Arr) (s : ArrStream) : Undo :=
  match a.redoOf s.ins with
  | some (u, true) => u
  | _ => ⟨s.drains.filterMap (fun k => (smapGet slotDflt a.slots k).map (k, ·)), s.before, s.weights⟩

/-- The commit of the oldest stream on array `a` (R143): once its last row has entered the queue. A row that finds the
queue full freezes the array (R151). -/
def Dev.streamCommit (d : Dev) (t a : Nat) : Dev :=
  let d := d.fillQueue t
  let p := d.arrPhys t a
  let ar := (d.tile t).arr p
  match ar.cur with
  | [] => d
  | s :: rest =>
    if !d.arraysRun t then d
    else if !s.rows.isEmpty then (d.bump (MXA.FREEZE_TOTAL.COUNT t p) 1).bump (MXA.FREEZE_FULL.COUNT t p) 1
    else
      let base := d.operandBase t s.ins
      let ar' := { ar with cur := rest, slots := commitSlots ar.slots s, redo := ar.redo.filter (fun r => r.1 != s.ins.seq) }
      let d := d.onTile t (fun x => (x.setArr p ar').forgetRetry base)
      let d := ((d.showArr t p).bump (MXA.ROWS.COUNT t p) s.count).replayCaptured t p s.ins.seq
      let d := if s.finish then d.putMarker t p (.commit s.ins a (ar.undoOf s)) else d.insDone t s.ins
      d.pump t

/-- STREAM_COMMIT (R143). -/
def execStreamCommit (tile a : Nat) (s : State) : Host.Outcome State Fault Refusal :=
  .next (s.atTile tile (·.streamCommit tile a))

/-! ## The map (R154, R155, R157) -/

/-- A write of `MXA.MAP`: refused when it names a failed array or one array twice, held while an
array is busy. -/
def Dev.mapWrite (d : Dev) (t : Nat) (v : Reg) : Dev :=
  if !mapOk (d.get (MXA.FAILED.MASK t)) v.toNat then d.refuseRegister (uTile t) (MXA.MAP.REG t).off
  else if (d.tile t).arraysIdle && d.mapFree t then d.applyMap t v
  else d.onTile t (fun x => { x with heldMap := some v })

/-- MXA_MAP_WRITE (R155). -/
def execMxaMapWrite (tile : Nat) (v : Reg) (s : State) : Host.Outcome State Fault Refusal :=
  .next (s.atTile tile (·.mapWrite tile v))

/-! ## Codec faults (R182 to R185) -/

/-- The HBM copy of data that stands at a scratchpad address: the transfer that filled its extent (R184). -/
def Tile.hbmCopy (x : Tile) (base : Nat) : Option Fill :=
  x.fills.find? (fun f => f.segs.any (fun s => decide (s.1 ≤ base ∧ base < s.1 + s.2)))

/-- The offset of a scratchpad address among the pieces of an extent. -/
def fillOffset : List Seg → Nat → Nat
  | [], _ => 0
  | (a, n) :: ss, base => if a ≤ base ∧ base < a + n then base - a else n + fillOffset ss base

/-- The device extent of a transfer's source. -/
def Fill.source (f : Fill) : Nat × Nat := ((readDesc f.bytes).src, (readDesc f.bytes).srcSpan)

/-- The device address of the segment that holds a faulting block of a stream at `base`: none where the transfer
encoded the stream anew, so that it has no segment in HBM (log 2). -/
def Dev.copySegment (d : Dev) (t : Nat) (f : Fill) (i : TIns) (base block : Nat) : Option Nat :=
  let k := readDesc f.bytes
  let rd := d.tileRd t (operandSrc i).1 (operandSrc i).2
  if k.verbatim then some (k.src + fillOffset f.segs base + tessFaultSeg rd k.fmt block) else none

/-- Record codec faults found together in the TCX registers (R183, R191): every expander, and the earliest
instruction. While a fault is recorded, later ones add their expander. -/
def Dev.recordCodec (d : Dev) (t : Nat) (ps : List Nat) (f : CodecFault) : Dev :=
  let mask := ps.foldl (fun m p => m ||| 2 ^ p) 0
  if d.flag (TCX.FAULT_STATUS.VALID t) then
    d.set (TCX.FAULT_STATUS.SOURCE_MASK t) (d.get (TCX.FAULT_STATUS.SOURCE_MASK t) ||| mask)
  else
    let d := (d.set (TCX.FAULT_STATUS.STATUS t) f.status).set (TCX.FAULT_STATUS.MODE t) f.mode
    let d := (d.set (TCX.FAULT_STATUS.VALID t) 1).set (TCX.FAULT_STATUS.SOURCE_MASK t) mask
    let d := (d.set (TCX.FAULT_ADDR.STREAM_BASE t) f.base).set (TCX.FAULT_BLOCK.INDEX t) f.block
    (d.set (TCX.FAULT_LEN.DECLARED t) f.declared).set (TCX.FAULT_LEN.COMPUTED t) (min 255 f.computed)

/-- The logical arrays of a tile whose expanders hold a fault, with it, the earliest instruction first. -/
def Dev.faults (d : Dev) (t : Nat) : List (Nat × CodecFault) :=
  let fs := (List.range 8).filterMap (fun a =>
    if d.arrValid t a then ((d.tile t).arr (d.arrPhys t a)).fault.map (a, ·) else none)
  fs.mergeSort (fun x y => decide (x.2.ins.seq ≤ y.2.ins.seq))

/-- Declare the data of a codec fault damaged at the first fault when it has no HBM copy, and else at the second
(R184). -/
def Dev.faultDamage (d : Dev) (t : Nat) (f : CodecFault) : Dev :=
  match (d.tile t).hbmCopy f.base with
  | none => d.dataDamaged t none none f.status
  | some c =>
    if (d.tile t).retried.contains f.base then d.dataDamaged t (some c.source) (d.copySegment t c f.ins f.base f.block) f.status
    else d

/-- EXPANDER_BLOCK_FAULT's effect (R182, R183): every instruction whose expander holds a fault is aborted, the tile
halts at the earliest, and data without an HBM copy, or that faulted before, is declared damaged. -/
def Dev.expanderFault (d : Dev) (t a : Nat) : Dev :=
  let d := d.pump t
  let fs := d.faults t
  match fs with
  | [] => d
  | (a0, f0) :: rest =>
    if ((d.tile t).arr (d.arrPhys t a)).fault.isNone then d
    else
      let codec := fs.filter (fun e => e.2.status != 0x0265)
      let d := d.bump (TCX.FAULT_COUNT.COUNT t) codec.length
      let d := match codec with
        | e :: _ => d.recordCodec t (codec.map (fun (e : Nat × CodecFault) => d.arrPhys t e.1)) e.2
        | [] => d
      let d := d.each fs (fun d e => d.abortHead t e.1 e.2.ins)
      let d := d.haltIns t f0.status a0 f0.ins 1 a0 (d.tcxDetail t)
      let d := d.each rest (fun d e => d.haltFault t e.2.status e.1 e.2.ins.pc (d.tcxDetail t))
      d.each codec (fun d e => d.faultDamage t e.2)

/-- EXPANDER_BLOCK_FAULT (R182). -/
def execExpanderBlockFault (tile a : Nat) (s : State) : Host.Outcome State Fault Refusal :=
  .next (s.atTile tile (·.expanderFault tile a))

/-- What re-running a transfer does once its checks have passed, given what reading it meets (R184, R250). -/
def Dev.refillEnd (d : Dev) (t : Nat) (f : Fill) (e : ChanEnt) (bad : Option Nat) (m : Except TFault Moved) : Dev × Option Nat :=
  let k := readDesc f.bytes
  let d' := (d.descTouch t e).pin t k.pages false
  match bad, m with
  | none, .ok m =>
    let d := (d'.descWrite t e m f.offset 0 m.stop).onTile t (fun x => { x with fills := f :: x.fills })
    let d := (d.bump (TDMA.CH_DONE.COUNT t f.chan) 1).bump (TDMA.CH_LINES.COUNT t f.chan) m.lines
    (d.when k.signal (·.tallyAdd k.tally 1), none)
  | st, _ => (d'.chanStop t f.chan e (st.getD 0) (d.get2 (TDMA.CH_FAULT_LO.ADDR t f.chan) (TDMA.CH_FAULT_HI.ADDR t f.chan)), some (st.getD 0))

/-- A transfer whose checks have answered: a failure stops its channel (R250). -/
def Dev.refillFrom (t : Nat) (f : Fill) : Dev × Except (Nat × Nat) (List Seg) → Dev × Option Nat
  | (d, .error (st, addr)) => (d.chanStop t f.chan ⟨none, f.addr, f.bytes, 0, [], [], 0, false⟩ st addr, some st)
  | (d, .ok segs) =>
    let e : ChanEnt := ⟨none, f.addr, f.bytes, 0, (readDesc f.bytes).pages, segs, 0, false⟩
    let bad := match d.descMove t e with | .error r => some r.status | .ok _ => none
    d.refillEnd t f e (((d.descFault t e).map (·.1)).or bad) (d.descMove t e)

/-- Run the transfer of an extent from HBM again, as the curator firmware does on the transfer's channel (R184): its
checks, then its data, where it wrote them before; the status of a failure. -/
def Dev.refill (d : Dev) (t : Nat) (f : Fill) : Dev × Option Nat := Dev.refillFrom t f (d.descCheck t f.bytes)

/-- Run transfers again in turn, stopping at a failure, whose data is declared damaged. -/
def Dev.refillAll (t : Nat) : List Fill → Dev → Dev × Bool
  | [], d => (d, true)
  | f :: fs, d =>
    let r := d.refill t f
    if r.2.isNone then Dev.refillAll t fs r.1 else (r.1.dataDamaged t (some f.source) none (r.2.getD 0), false)

/-- The bases of the streams whose expanders the recorded fault names: those of the instructions at the heads of their
arrays. -/
def Dev.faultBases (d : Dev) (t : Nat) : List Nat :=
  let mask := d.get (TCX.FAULT_STATUS.SOURCE_MASK t)
  (List.range 8).filterMap (fun a =>
    if d.arrValid t a && mask.testBit (d.arrPhys t a) then ((d.tile t).aqOf a).head?.map (d.operandBase t) else none)

/-- CODEC_FAULT_RETRY's effect (R184): the transfers from HBM of the faulted streams are re-run once, the fault
cleared and the tile resumed. -/
def Dev.codecRetry (d : Dev) (t : Nat) : Dev :=
  let x := d.tile t
  let bases := d.faultBases t
  let copies := bases.filterMap x.hbmCopy
  if !d.flag (TCX.FAULT_STATUS.VALID t) || !d.halted t || bases.isEmpty || decide (copies.length < bases.length)
      || bases.any x.retried.contains then d
  else match Dev.refillAll t copies.eraseDups d with
    | (d, false) => d
    | (d, true) =>
      ((d.onTile t (fun x => { x with retried := bases ++ x.retried })).set (TCX.FAULT_STATUS.VALID t) 0).resumeTile t

/-- CODEC_FAULT_RETRY (R184). -/
def execCodecFaultRetry (tile : Nat) (s : State) : Host.Outcome State Fault Refusal :=
  .next (s.atTile tile (·.codecRetry tile))

end Sys2Proof.Machine
end

