-- ==== Sys2Proof/Machine/TileDmaCmds.lean ====
section
/-! DEFINITION. The DMA instruction (R272), the start, completion and data fault of a descriptor
(R239, R247 to R250), and the scratchpad's own rows: region descriptors (R230), remote writes into a
region (R235) and bank starvation (R226). -/

namespace Sys2Proof.Machine

/-- DMA at issue: its descriptor's address must be 64-byte aligned; its overrides are captured. -/
def Dev.dmaIssue (d : Dev) (t : Nat) (c : Bool) (w : Nat) : Issued :=
  let x := d.tile t
  let a := (x.ra c (bits w 37 34) + bits w 86 64) % spmBytes
  if a % 64 ≠ 0 then .halt 0x0260 (bits w 33 32)
  else if 16 ≤ x.dq.length then .stall d
  else
    let i := { d.mkIns t c w with x := a, y := x.ra c (bits w 42 39), z := x.ra c (bits w 47 44),
                                  w := x.rg c (bits w 54 49) % m32 }
    .ok (((d.track t i 0).onTile t (fun x => { x with dq := x.dq ++ [.ins i] })).advance t c)

/-- DMA (R272). -/
def execDma (tile : Nat) (s : State) : Host.Outcome State Fault Refusal :=
  .next (s.atTile tile (·.issue tile 0x60 (fun d c w => d.dmaIssue tile c w)))

/-- The descriptor a channel starts next: an aborted one again (R285), else the oldest; on a halted tile the oldest
that the curator firmware issued (R284). -/
def Dev.nextDesc (d : Dev) (t ch : Nat) : Option ChanEnt :=
  let c := (d.tile t).chan ch
  if d.halted t then c.queue.find? (fun e => e.ins.isNone) else c.redo.or c.queue.head?

/-- A channel without the descriptor that it starts. -/
def Chan.without (c : Chan) (e : ChanEnt) : Chan :=
  if c.redo = some e then { c with redo := none } else { c with queue := c.queue.erase e }

/-- DESCRIPTOR_START's effect (R247, R248): the whole check, which pins the translations. -/
def Dev.descriptorStart (d : Dev) (t ch : Nat) : Dev :=
  let d := d.pump t
  if d.flag (TDMA.CH_STATE.ERROR t ch) || ((d.tile t).chan ch).cur.isSome then d
  else match d.nextDesc t ch with
    | none => d
    | some e =>
      let d := d.onTile t (fun x => x.setChan ch ((x.chan ch).without e))
      match d.descCheck t e.bytes with
      | (d, .error (st, addr)) => d.chanError t ch e st addr
      | (d, .ok segs) =>
        let e' := { e with pages := (readDesc e.bytes).pages, segs := segs }
        ((d.onTile t (fun x => x.setChan ch { x.chan ch with cur := some e' })).showChan t ch).pump t

/-- DESCRIPTOR_START (R247). -/
def execDescriptorStart (tile ch : Nat) (s : State) : Host.Outcome State Fault Refusal :=
  .next (s.atTile tile (·.descriptorStart tile ch))

/-- The key under which a descriptor's first data fault is remembered (R184, R186). -/
def ChanEnt.retryKey (e : ChanEnt) : Nat := spmBytes + e.addr

/-- DESCRIPTOR_COMPLETE's effect: nothing while a region holds the descriptor back or a data fault stops it; as much as
its destination region takes; or all of it. -/
def Dev.descriptorComplete (d : Dev) (t ch : Nat) : Dev :=
  match ((d.tile t).chan ch).cur with
  | none => d
  | some e =>
    let x := readDesc e.bytes
    if !d.srcReady t e || !d.dstOpen t e then d.bump (SPM.REGION_WAITS.COUNT t) 1
    else if (d.descFault t e).isSome then d
    else match d.descMove t e with
      | .error _ => d
      | .ok m =>
        let d :=
          if x.dstReg && decide (d.dstRoom t e < m.stop) then d.descPart t ch e m
          else if d.descReleases t e then (d.onTile t (·.forgetRetry e.retryKey)).descComplete t ch e m
          else d.descUnreleased t ch e m
        (d.pump (d.dstPhys t x)).pump t

/-- DESCRIPTOR_COMPLETE (R239). -/
def execDescriptorComplete (tile ch : Nat) (s : State) : Host.Outcome State Fault Refusal :=
  .next (s.atTile tile (·.descriptorComplete tile ch))

/-- The device address of the segment of a faulting block in a stream that a descriptor decodes from HBM. -/
def Dev.descSegment (d : Dev) (t : Nat) (e : ChanEnt) (block : Nat) : Option Nat :=
  let x := readDesc e.bytes
  if x.srcTess && !x.verbatim then some (x.src + tessFaultSeg (d.srcRd t e) x.fmt block) else none

/-- The response to a descriptor's data fault (R184, R186): its source in HBM is read again when it starts again; a
source that a transfer from HBM filled is filled again; the data is declared damaged when neither can be, or at a
second fault. -/
def Dev.descResponse (d : Dev) (t : Nat) (e : ChanEnt) (st : Nat) (seg : Option Nat) (again : Bool) : Dev :=
  let x := readDesc e.bytes
  if x.srcHbm then d.when again (·.dataDamaged t (some (x.src, x.srcSpan)) seg st)
  else match (d.tile t).hbmCopy ((d.srcSpm t e 0 1).headD (0, 0)).1 with
    | none => d.dataDamaged t none none st
    | some f =>
      if again then d.dataDamaged t (some f.source) none st
      else (Dev.refillAll t [f] d).1

/-- DESCRIPTOR_DATA_FAULT's effect (R249, R250): the channel stops and its issuer halts; the response of R184
follows. -/
def Dev.descriptorFault (d : Dev) (t ch : Nat) : Dev :=
  match ((d.tile t).chan ch).cur with
  | none => d
  | some e =>
    match (if d.srcReady t e && d.dstOpen t e then d.descFault t e else none) with
    | none => d
    | some (st, block) =>
      let again := (d.tile t).retried.contains e.retryKey
      let seg := d.descSegment t e block
      let d := (d.descTouch t e).chanError t ch e st (d.get2 (TDMA.CH_FAULT_LO.ADDR t ch) (TDMA.CH_FAULT_HI.ADDR t ch))
      let d := d.onTile t (fun x => { x with retried := e.retryKey :: x.retried.filter (· != e.retryKey) })
      d.descResponse t e st seg again

/-- DESCRIPTOR_DATA_FAULT (R249). -/
def execDescriptorDataFault (tile ch : Nat) (s : State) : Host.Outcome State Fault Refusal :=
  .next (s.atTile tile (·.descriptorFault tile ch))

/-- TDMA_ERROR_CLEAR's effect (R253, R285): a held resume follows when nothing else holds it. -/
def Dev.errorClear (d : Dev) (t ch : Nat) : Dev :=
  let d := d.set (TDMA.CH_STATE.ERROR t ch) 0
  if (d.tile t).resumeHeld && d.resumeFree t then d.resumeTile t else d

/-- TDMA_ERROR_CLEAR (R253). -/
def execTdmaErrorClear (tile ch : Nat) (s : State) : Host.Outcome State Fault Refusal :=
  .next (if ch < 4 then s.atTile tile (·.errorClear tile ch) else s)

/-! ## Regions and banks -/

/-- The bits of a region register that a write sets (R252). -/
def regionMask (t off : Nat) : Nat :=
  let o := off - (SPM.REGION_BASE.REG t 0).off
  if o < 0x400 then (match o % 16 with | 0 => 0x807FFF80 | 4 => 0x00FFFF80 | _ => 0xFFFFFFFF)
  else if o < 0x600 then 0xFFFFFFFF else 0x0000FF01

/-- Is a BASE or SIZE valid beside the other (R230)? -/
def Dev.regionValid (d : Dev) (t r off v : Nat) : Bool :=
  let o := off - (SPM.REGION_BASE.REG t 0).off
  if 0x400 ≤ o then true
  else match o % 16 with
    | 0 => decide (bits v 22 7 * 128 + d.regSize t r ≤ spmBytes) && (!bit v 31 || decide (0 < d.regSize t r))
    | 4 =>
      let z := bits v 23 7 * 128
      decide (128 ≤ z) && decide (z ≤ spmBytes) && decide (d.regBase t r + z ≤ spmBytes)
    | _ => true

/-- REGION_DESCRIPTOR_WRITE's effect (R230): refused when invalid, held while the region is busy. -/
def Dev.regionWrite (d : Dev) (t off : Nat) (v : Reg) : Dev :=
  match regionOf t off with
  | none => d
  | some r =>
    let v' := BitVec.ofNat 32 (v.toNat &&& regionMask t off)
    if off % 4 ≠ 0 then d
    else if !d.regionValid t r off v.toNat then d.refuseRegister (uTile t) off
    else if d.regionBusy t r then d.onTile t (fun x => { x with heldRegion := x.heldRegion ++ [(off, v')] })
    else (d.regionStore t off v').pump t

/-- REGION_DESCRIPTOR_WRITE (R230). -/
def execRegionDescriptorWrite (tile off : Nat) (v : Reg) (s : State) : Host.Outcome State Fault Refusal :=
  .next (s.atTile tile (·.regionWrite tile off v))

/-- A line from a remote producer (R233, R235), written at TAIL under the credit the producer holds. A line that had
its credit before the stage's move began still arrives (R314). -/
def Dev.remoteWrite (d : Dev) (t r : Nat) (line : Bytes) : Dev :=
  if !d.regOk t r || !d.flag (SPM.REGION_BIND.REMOTE_EN t r) || !d.creditRoom t r (d.regTail t r) line.length then d
  else
    let o := d.regTail t r
    ((d.regWrite t r o line).setTailR t r ((o + line.length) % m32)).pump t

/-- REMOTE_REGION_WRITE (R235). -/
def execRemoteRegionWrite (tile region : Nat) (line : Bytes) (s : State) : Host.Outcome State Fault Refusal :=
  .next (s.atTile tile (·.remoteWrite tile region line))

/-- Grants of a bank's starved requesters from cycle n on, one a cycle, the one starved earliest first. -/
def grantFrom (n : Nat) (es : List StarveEnt) : List StarveEnt := es.zipIdx.map (fun (e, k) => { e with grant := n + k })

/-- Does a starved requester come before another (R226): starved earlier, or in the same cycle of a lower class? The
requesters are numbered in class order: 8 operand ports, the vector engine, the commit buffer, 4 channels, inbound
writes, class 5. Within a class the lower number comes first (log 93). -/
def StarveEnt.before (a b : StarveEnt) : Bool := decide (a.since < b.since) || (a.since == b.since && decide (a.requester < b.requester))

/-- What the 32 cycles that a requester lost at a bank count as (R151, R152, R222, R252). -/
def Dev.countLosses (d : Dev) (t requester : Nat) : Dev :=
  let d := d.bump (SPM.BANK_LOSSES.COUNT t) 32
  if requester < 8 then
    if ((d.tile t).arr requester).cur.isEmpty then d
    else (d.bump (MXA.FREEZE_TOTAL.COUNT t requester) 32).bump (MXA.FREEZE_BANK.COUNT t requester) 32
  else if requester = 8 then d.bump (VEC.STALL_BANK.COUNT t) 32
  else d

/-- A requester becomes starved at a bank after 32 lost cycles (R226): its losses count, and it takes its place among
the bank's grants. One that waits for its grant, or had it less than 16 cycles ago, cannot be. -/
def Dev.bankStarved (d : Dev) (t bank requester : Nat) : Dev :=
  let now := d.tclkAt (wingOf t) d.now
  let x := d.tile t
  let live := x.starved.filter (fun e => decide (now ≤ e.grant + 15))
  if 32 ≤ bank ∨ 16 ≤ requester ∨ live.any (fun e => e.bank == bank && e.requester == requester) then d
  else
    let e : StarveEnt := ⟨bank, requester, now, now⟩
    let waiting := live.filter (fun f => f.bank == bank && decide (now ≤ f.grant))
    let next := grantFrom now ((e :: waiting).mergeSort StarveEnt.before)
    (d.countLosses t requester).onTile t (fun x => { x with
      starved := live.filter (fun f => f.bank != bank || decide (f.grant < now)) ++ next })

/-- BANK_STARVED (R226). -/
def execBankStarved (tile bank requester : Nat) (s : State) : Host.Outcome State Fault Refusal :=
  .next (s.atTile tile (·.bankStarved tile bank requester))

end Sys2Proof.Machine
end

