-- ==== Sys2Proof/Machine/Flags.lean ====
section
/-! DEFINITION. The one-bit results of tile instructions: `CMP` and `PLOG` write predicate
registers (R268). The sticky arithmetic flags stand with the units that raise them: conversions in
Machine/Float.lean (R110), arrays in Machine/TileArray.lean (R147), the vector engine in
Machine/TileChain.lean (R219), write-adds in Machine/TileDma.lean (R349). -/

namespace Sys2Proof.Machine

/-- `CMP` FUNC: EQ, NE, LTU, GEU, LTS, GES. -/
def cmpFn (f a b : Nat) : Bool :=
  match f with
  | 0 => a == b
  | 1 => a != b
  | 2 => decide (a < b)
  | 3 => decide (b ≤ a)
  | 4 => decide (s64 a < s64 b)
  | _ => decide (s64 b ≤ s64 a)

/-- `PLOG` FUNC: AND, OR, XOR, ANDNOT, NOT. -/
def plogFn (f : Nat) (a b : Bool) : Bool :=
  match f with
  | 0 => a && b
  | 1 => a || b
  | 2 => a != b
  | 3 => a && !b
  | _ => !a

end Sys2Proof.Machine
end

