-- ==== Sys2Proof/Machine/TileScalar.lean ====
section
/-! DEFINITION. The scalar, control and synchronisation instructions of tile programs (R268, R273 to
R282), the sequencer's halt, resume and unload (R283 to R285, R289), and completion (R259). Each row
names the tile by its physical number; it issues the instruction at the PC of the context that holds
issue when that is the row's. -/

namespace Sys2Proof.Machine

/-! ## Scalar instructions (R268) -/

/-- Operand b: IMM, or g[SRCB]. -/
def Tile.opB (x : Tile) (c : Bool) (w : Nat) : Nat := if opBimm w then opImm w else x.rg c (opSrcB w)

/-- What each scalar instruction does to the register files. -/
def Tile.aluEff (x : Tile) (c : Bool) (w : Nat) : Tile :=
  x.wg c (opDst w) (aluFn (opFunc w) (x.rg c (opSrcA w)) (x.opB c w))
def Tile.cmpEff (x : Tile) (c : Bool) (w : Nat) : Tile :=
  x.wp c (opDst w % 8) (cmpFn (opFunc w) (x.rg c (opSrcA w)) (x.opB c w))
def Tile.plogEff (x : Tile) (c : Bool) (w : Nat) : Tile :=
  x.wp c (opDst w % 8) (plogFn (opFunc w) (x.rp c (opSrcA w % 8)) (x.rp c (opSrcB w % 8)))
def Tile.aopEff (x : Tile) (c : Bool) (w : Nat) : Tile :=
  match opFunc w with
  | 0 => x.wa c (opDst w % 16) (x.ra c (opSrcA w % 16) + x.opB c w % 2 ^ 48)
  | 1 => x.wa c (opDst w % 16) (x.rg c (opSrcA w) % 2 ^ 48 + x.opB c w % 2 ^ 48)
  | _ => x.wg c (opDst w) (x.ra c (opSrcA w % 16))

/-- Issue a scalar instruction: its effect at issue, and the next PC. -/
def Dev.scalar (d : Dev) (t op : Nat) (f : Tile → Bool → Nat → Tile) : Dev :=
  d.issue t op (fun d c w => .ok ((d.onTile t (fun x => f x c w)).advance t c))

/-- NOP_INSTRUCTION (R268). -/
def execNopInstruction (tile : Nat) (s : State) : Host.Outcome State Fault Refusal :=
  .next (s.atTile tile (·.issue tile 0x00 (fun d c _ => .ok (d.advance tile c))))

/-- ALU (R268). -/
def execAlu (tile : Nat) (s : State) : Host.Outcome State Fault Refusal :=
  .next (s.atTile tile (·.scalar tile 0x01 Tile.aluEff))

/-- CMP (R268). -/
def execCmp (tile : Nat) (s : State) : Host.Outcome State Fault Refusal :=
  .next (s.atTile tile (·.scalar tile 0x02 Tile.cmpEff))

/-- PLOG (R268). -/
def execPlog (tile : Nat) (s : State) : Host.Outcome State Fault Refusal :=
  .next (s.atTile tile (·.scalar tile 0x03 Tile.plogEff))

/-- AOP (R268). -/
def execAop (tile : Nat) (s : State) : Host.Outcome State Fault Refusal :=
  .next (s.atTile tile (·.scalar tile 0x04 Tile.aopEff))

/-- JMP (R268). -/
def execJmp (tile : Nat) (s : State) : Host.Outcome State Fault Refusal :=
  .next (s.atTile tile (·.issue tile 0x08 (fun d c w => .ok (d.setPc tile c (opTarget w)))))

/-- LOOP's effect: decrement, and branch unless the result is 0. -/
def Dev.loopEff (d : Dev) (t : Nat) (c : Bool) (w : Nat) : Dev :=
  let v := aluFn 1 ((d.tile t).rg c (opDst w)) 1
  let d := d.onTile t (·.wg c (opDst w) v)
  if v = 0 then d.advance t c else d.setPc t c (opTarget w)

/-- LOOP (R268). -/
def execLoop (tile : Nat) (s : State) : Host.Outcome State Fault Refusal :=
  .next (s.atTile tile (·.issue tile 0x09 (fun d c w => .ok (d.loopEff tile c w))))

/-- HALTP's effect: PC past it, then the halt with its code (R268, R283). -/
def Dev.haltpEff (d : Dev) (t : Nat) (c : Bool) (w : Nat) : Dev :=
  let d := d.advance t c
  d.haltTile t 0x0273 (opCode w) ⟨d.pc t c, c, 0, 0⟩ []

/-- HALTP (R268). -/
def execHaltp (tile : Nat) (s : State) : Host.Outcome State Fault Refusal :=
  .next (s.atTile tile (·.issue tile 0x15 (fun d c w => .ok (d.haltpEff tile c w))))

/-! ## Micro-batches (R276, R277) -/

/-- The chains of the main context. -/
def Tile.mainChains (x : Tile) : List Nat := (List.range 32).filter (fun c => !x.dmask.testBit c)

/-- MBBEGIN at issue: it waits for the streams of its chains and for a flush of one already issued (log 90), halts on
an unflushed one, and then holds issue until a pass is delivered. -/
def Dev.mbbeginIssue (d : Dev) (t : Nat) : Issued :=
  let x := d.tile t
  if x.live.any (fun e => e.2.2 != 0 && x.mainChains.contains (e.2.2 - 1)) || x.mainChains.any x.flushQueued then .stall d
  else match x.mainChains.find? (fun c => (x.encOf c).isOpen) with
    | some c => .halt 0x0274 c
    | none => .stall (d.onTile t (fun x => { x with mbHold := true }))

/-- MBBEGIN (R276). -/
def execMbbegin (tile : Nat) (s : State) : Host.Outcome State Fault Refusal :=
  .next (s.atTile tile (·.issue tile 0x10 (fun d _ _ => d.mbbeginIssue tile)))

/-- R232 on the regions that a stage's same-device outbound links end in: their producing side. -/
def Dev.admitLinks (d : Dev) (t s : Nat) (m : PipeMap) : Dev :=
  d.each (m.links.filter (fun l => l.src == s)) (fun d l =>
    match m.stages[l.dst]? with
    | some (dev, tile) => if dev = d.rank then d.admitOrLatch t tile l.region else d
    | none => d)

/-- R232 on the regions of this tile that the image names: the consuming side always, and the
producing side unless another tile feeds the region. -/
def Dev.admitRegions (d : Dev) (t : Nat) : Dev :=
  d.each (maskBits (d.tile t).rmask 64) (fun d r =>
    let d := d.admitConsumer t r
    if d.flag (SPM.REGION_BIND.REMOTE_EN t r) then d else d.admitOrLatch t (d.logical t) r)

/-- The seed and step the vector engine's hash takes, written before each micro-batch (R209). -/
def Dev.hashInputs (d : Dev) (t job step : Nat) : Dev :=
  let seed := match d.job job with | some j => j.seed.getD 0 | none => 0
  (d.set2 (VEC.SEED_LO.SEED t) (VEC.SEED_HI.SEED t) seed).set2 (VEC.STEP_LO.STEP t) (VEC.STEP_HI.STEP t) step

/-- Deliver a pass to a stage whose MBBEGIN holds issue (R276, R303). -/
def Dev.deliver (d : Dev) (t p s : Nat) (m : PipeMap) (ws : List Nat) : Dev :=
  let d := d.onTile t (fun x => { ws.zipIdx.foldl (fun (x : Tile) (v, k) => x.wg false (8 + k) v) x with mbHold := false })
  let d := d.set (CMD.SEQ_MB.MAIN t) (ws.getD 0 0 % 65536)
  let d := d.each (d.tile t).mainChains (fun d c => d.resetChain t c)
  let d := ((d.admitRegions t).admitLinks t s m).hashInputs t m.job (ws.getD 2 0)
  let pp := d.pipe p
  let d := d.setPipe p { pp with delivered := smapSet zeroDflt pp.delivered s (smapGet zeroDflt pp.delivered s + 1) }
  ((d.advance t false).bump (CMD.SEQ_ISSUED.COUNT t) 1).pump t

/-- The pass a tile may take now, with its pipeline, stage and map (R303). -/
def Dev.passDue (d : Dev) (t : Nat) : Option (Nat × Nat × PipeMap × List Nat) :=
  let x := d.tile t
  if d.get (CMD.SEQ_STATE.STATE t) ≠ tsRUNNING ∨ d.ctx t ∨ !x.mbHold ∨ x.issueHeld false then none
  else match d.stageOf (d.logical t) with
    | none => none
    | some (p, s, m) => (d.nextPass p s m).map (fun ws => (p, s, m, ws))

/-- The effect of PASS_DELIVERY. A move of the stage that waits for the boundary comes first (R282, R602). -/
def Dev.passDelivery (d : Dev) (t : Nat) : Dev :=
  let d := d.pump t
  if d.atBoundary t && d.movePending t then d
  else match d.passDue t with
    | some (p, s, m, ws) => d.deliver t p s m ws
    | none => d

/-- PASS_DELIVERY (R303). -/
def execPassDelivery (tile : Nat) (s : State) : Host.Outcome State Fault Refusal :=
  .next (s.atTile tile (·.passDelivery tile))

/-- MBEND at issue: the micro-batch ends once everything the main context issued before is complete
(R277). -/
def Dev.mbendEff (d : Dev) (t : Nat) (c : Bool) : Dev :=
  (d.onTile t (fun x => { x with mbends := x.mbends ++ [x.nextSeq], nextSeq := x.nextSeq + 1 })).advance t c

/-- MBEND (R277). -/
def execMbend (tile : Nat) (s : State) : Host.Outcome State Fault Refusal :=
  .next (s.atTile tile (·.issue tile 0x11 (fun d c _ => .ok (d.mbendEff tile c))))

/-! ## Deferred work (R278 to R282) -/

/-- DEFER at issue: an entry, or with the queue full a yield point or the halt of R281. -/
def Dev.deferIssue (d : Dev) (t : Nat) (c : Bool) (w : Nat) : Issued :=
  let x := d.tile t
  if x.deferQ.length < 8 then
    let e : DeferEnt := ⟨opTarget w, (List.range 8).map (fun k => x.rg false (48 + k)), d.get (CMD.SEQ_MB.MAIN t)⟩
    .ok ((d.setTile t { x with deferQ := x.deferQ ++ [e], deferHold := false }).advance t c)
  else if x.arraysIdle && x.slotsEmpty then .stall (d.setTile t { x with deferHold := true })
  else .halt 0x0275 0

/-- DEFER (R278). -/
def execDefer (tile : Nat) (s : State) : Host.Outcome State Fault Refusal :=
  .next (s.atTile tile (·.issue tile 0x12 (fun d c w => d.deferIssue tile c w)))

/-- May issue return to the main context (R279)? -/
def Dev.mayReturn (d : Dev) (t : Nat) : Bool :=
  !d.mainYields t && (d.tile t).arraysIdle && (d.tile t).slotsEmpty

/-- With no routine in progress in the deferred context: the next one starts, unless a move is
pending (R282); with none left, issue returns to the main context as soon as the arrays are idle and
empty (DESIGN CHOICE, log 25). -/
def Dev.nextRoutine (d : Dev) (t : Nat) : Dev :=
  let x := d.tile t
  if !x.deferQ.isEmpty && !d.movePending t then d.startRoutine t
  else if x.arraysIdle && x.slotsEmpty then d.switchTo t false
  else d

/-- DRET: the routine ends and its entry is freed; then issue returns, or the next routine starts. -/
def Dev.dretEff (d : Dev) (t : Nat) (c : Bool) : Dev :=
  let d := (d.onTile t (fun x => { x with deferQ := x.deferQ.drop 1 })).advance t c
  let d := d.set (CMD.SEQ_STATE.ROUTINE t) 0
  if d.mayReturn t then d.switchTo t false else d.nextRoutine t

/-- DRET (R278). -/
def execDret (tile : Nat) (s : State) : Host.Outcome State Fault Refusal :=
  .next (s.atTile tile (·.issue tile 0x13 (fun d c _ => .ok (d.dretEff tile c))))

/-- DYIELD: issue returns to the main context when R279 lets it. -/
def Dev.dyieldEff (d : Dev) (t : Nat) (c : Bool) : Dev :=
  let d := d.advance t c
  if d.mayReturn t then d.switchTo t false else d

/-- DYIELD (R279). -/
def execDyield (tile : Nat) (s : State) : Host.Outcome State Fault Refusal :=
  .next (s.atTile tile (·.issue tile 0x14 (fun d c _ => .ok (d.dyieldEff tile c))))

/-- CONTEXT_SWITCH's effect (R279, R280). -/
def Dev.contextSwitch (d : Dev) (t : Nat) : Dev :=
  let d := d.pump t
  let x := d.tile t
  if d.get (CMD.SEQ_STATE.STATE t) ≠ tsRUNNING then d
  else if d.ctx t then (if d.flag (CMD.SEQ_STATE.ROUTINE t) then d else d.nextRoutine t)
  else if !d.mainYields t then d
  else
    let going := d.flag (CMD.SEQ_STATE.ROUTINE t)
    if !going && (x.deferQ.isEmpty || d.movePending t) then d.bump (CMD.SEQ_YIELD_IDLE.COUNT t) 1
    else if !(x.arraysIdle && x.slotsEmpty) then d
    else
      let d := d.switchTo t true
      if going then d else d.startRoutine t

/-- CONTEXT_SWITCH (R279). -/
def execContextSwitch (tile : Nat) (s : State) : Host.Outcome State Fault Refusal :=
  .next (s.atTile tile (·.contextSwitch tile))

/-! ## Waits, tally adds and releases (R262, R263, R273, R274) -/

/-- The value of a wait or release: an immediate, or a g register's low 32 bits. -/
def Tile.opVal (x : Tile) (c : Bool) (w : Nat) : Nat :=
  if opVreg w then x.rg c (opValueReg w) % m32 else opValue w

/-- Is there room in each queue a gate mask names? -/
def Tile.gateRoom (x : Tile) (g : Nat) : Bool :=
  (!bit g 1 || decide (x.mq.length < 16)) && (!bit g 2 || decide (x.vq.length < 8))
    && (!bit g 3 || decide (x.dq.length < 16)) && (!bit g 4 || decide (x.sq.length < 8))

/-- Take a slot and a barrier in each gated queue for a wait not yet satisfied. -/
def Tile.takeWait (x : Tile) (w : TWait) : Tile :=
  let put (b : Bool) (q : List QEnt) : List QEnt := if b then q ++ [QEnt.barrier w.seq] else q
  { x with waits := x.waits ++ [w], nextSeq := x.nextSeq + 1,
           mq := put (bit w.gates 1) x.mq, vq := put (bit w.gates 2) x.vq,
           dq := put (bit w.gates 3) x.dq, sq := put (bit w.gates 4) x.sq }

/-- Issue a wait: held for a slot or queue room (R258), satisfied at once, or taken. -/
def Dev.waitIssue (d : Dev) (t : Nat) (c : Bool) (wt : TWait) : Issued :=
  let x := d.tile t
  let now := if wt.isTally then decide (wt.amount ≤ d.get (QSU.TALLY_VALUE.VALUE wt.key)) else d.regWaitMet t wt
  if 8 ≤ x.waits.length ∨ !x.gateRoom wt.gates then .stall d
  else if now then .ok (d.advance t c)
  else .ok ((d.setTile t (x.takeWait wt)).advance t c)

/-- WAITT (R273). -/
def execWaitt (tile : Nat) (s : State) : Host.Outcome State Fault Refusal :=
  .next (s.atTile tile (·.issue tile 0x80 (fun d c w =>
    let x := d.tile tile
    d.waitIssue tile c ⟨x.nextSeq, c, true, insTally x c w, x.opVal c w, false, bits w 36 32, bit w 37, false⟩)))

/-- WAITR (R273); a region without a valid descriptor halts (R254). -/
def execWaitr (tile : Nat) (s : State) : Host.Outcome State Fault Refusal :=
  .next (s.atTile tile (·.issue tile 0x81 (fun d c w =>
    let x := d.tile tile
    let r := bits w 45 40
    if !d.regOk tile r then .halt 0x0261 r
    else d.waitIssue tile c ⟨x.nextSeq, c, false, r, x.opVal c w, bit w 39, bits w 36 32, bit w 37, false⟩)))

/-- Put an instruction into the S queue, or stall while it is full. -/
def Dev.toS (d : Dev) (t : Nat) (c : Bool) (i : TIns) : Issued :=
  if 8 ≤ (d.tile t).sq.length then .stall d
  else .ok (((d.track t i 0).onTile t (fun x => { x with sq := x.sq ++ [.ins i] })).advance t c)

/-- TADD (R274). -/
def execTadd (tile : Nat) (s : State) : Host.Outcome State Fault Refusal :=
  .next (s.atTile tile (·.issue tile 0x82 (fun d c w =>
    d.toS tile c { d.mkIns tile c w with x := bits w 47 32 })))

/-- REL (R274); a region without a valid descriptor halts (R254). -/
def execRel (tile : Nat) (s : State) : Host.Outcome State Fault Refusal :=
  .next (s.atTile tile (·.issue tile 0x83 (fun d c w =>
    let r := bits w 37 32
    if !d.regOk tile r then .halt 0x0261 r
    else d.toS tile c { d.mkIns tile c w with x := (d.regR tile r + (d.tile tile).opVal c w) % m32 })))

/-! ## Completion (R259, R260) -/

/-- Instruction k of those complete adds to its tally, if it has SIG. -/
def Dev.instructionComplete (d : Dev) (t k : Nat) : Dev :=
  match (d.tile t).done[k]? with
  | none => d.pump t
  | some i =>
    let d := d.onTile t (fun x => { x with done := x.done.eraseIdx k })
    (d.when i.sig (·.tallyAdd i.tally 1)).pump t

/-- INSTRUCTION_COMPLETE (R259). -/
def execInstructionComplete (tile k : Nat) (s : State) : Host.Outcome State Fault Refusal :=
  .next (s.atTile tile (·.instructionComplete tile k))

/-! ## `CMD.SEQ_CTRL` (R283, R285, R289) -/

/-- SEQ_CTRL_HALT (R283). -/
def execSeqCtrlHalt (tile : Nat) (s : State) : Host.Outcome State Fault Refusal :=
  .next (s.atTile tile (·.hostHalt tile))

/-- SEQ_CTRL_RESUME (R285). -/
def execSeqCtrlResume (tile : Nat) (s : State) : Host.Outcome State Fault Refusal :=
  .next (s.atTile tile (·.resumeTile tile))

/-- UNLOAD: from READY or HALTED the program is cleared and the tile is EMPTY. -/
def Dev.seqUnload (d : Dev) (t : Nat) : Dev :=
  let st := d.get (CMD.SEQ_STATE.STATE t)
  if st ≠ tsREADY ∧ st ≠ tsHALTED then d
  else
    let d := d.onTile t (fun x => { x with prog := [], resumeHeld := false })
    let d := (d.set (CMD.SEQ_STATE.STATE t) tsEMPTY).set (CMD.SEQ_HALT.VALID t) 0
    (d.set (CMD.SEQ_PROG.COUNT t) 0).set (CMD.SEQ_PROG.VARIANT7 t) 0

/-- SEQ_CTRL_UNLOAD (R289). -/
def execSeqCtrlUnload (tile : Nat) (s : State) : Host.Outcome State Fault Refusal :=
  .next (s.atTile tile (·.seqUnload tile))

end Sys2Proof.Machine
end

