-- ==== Sys2Proof/Machine/TileVector.lean ====
section
/-! DEFINITION. The vector engine of a tile (R193 to R221): the vector instructions (R271), the take
of panel rows (R194, R197), the commit and abort markers (R215, R216), the release of committed lines
(R215), and vector-only runs (R196, R202). -/

namespace Sys2Proof.Machine

/-! ## Vector instructions (R271) -/

/-- Elements of a run: an immediate, or a g register's low 32 bits. -/
def Tile.runN (x : Tile) (c : Bool) (w : Nat) : Nat :=
  if bit w 41 then x.rg c (bits w 69 64) % m32 else bits w 95 64

/-- VRUN at issue: the checks of R202, R203 and R221, the advance of the cursors (R202), and the V
queue. -/
def Dev.vrunIssue (d : Dev) (t : Nat) (c : Bool) (w : Nat) : Issued :=
  let x := d.tile t
  let ch := iChainV w
  let n := x.runN c w
  let cols := x.chCols ch
  let src := x.ra c (bits w 40 37) % spmBytes
  let words := (if x.chLane ch then n / 32 else 0) + (if x.chCol ch then cols else 0)
  if 8 ≤ x.vq.length then .stall d
  else if n = 0 ∨ n % cols ≠ 0 then .halt 0x0254 ch
  else if x.chTess ch && decide (x.chElems ch < d.curE t ch + n) then .halt 0x0307 ch
  else
    let st := if spmBytes < src + n * elemBits (x.chIn ch) / 8 then 0x0252
      else d.chainRanges t ch (d.curE t ch) n (d.curRow t ch) (n / cols) 0 cols (x.eRed ch) words
    if st ≠ 0 then .halt st ch
    else
      let i := { d.mkIns t c w with x := src, y := n, e0 := d.curE t ch, r0 := d.curRow t ch, c0 := 0,
                                    d0 := x.eRed ch, gregs := x.captured c ch }
      let d := d.setCursors t ch ((d.curE t ch + n) % 2 ^ 48) ((d.curRow t ch + n / cols) % m32) (d.curCol t ch) (x.eRed ch)
      .ok (((d.track t i (ch + 1)).onTile t (fun x => { x with vq := x.vq ++ [.ins i] })).advance t c)

/-- VRUN (R271). -/
def execVrun (tile : Nat) (s : State) : Host.Outcome State Fault Refusal :=
  .next (s.atTile tile (·.issue tile 0x40 (fun d c w => d.vrunIssue tile c w)))

/-- CRESET at issue: it waits for the chain's streams and runs and for a flush of it already issued (log 90), halts
on an unflushed stream, else sets the cursors to 0. -/
def Dev.cresetIssue (d : Dev) (t : Nat) (c : Bool) (w : Nat) : Issued :=
  let x := d.tile t
  let ch := iChainV w
  if 8 ≤ x.vq.length ∨ !x.chainClear ch x.nextSeq ∨ x.flushQueued ch then .stall d
  else if (x.encOf ch).isOpen then .halt 0x0274 ch
  else .ok ((d.resetChain t ch).advance t c)

/-- CRESET (R271). -/
def execCreset (tile : Nat) (s : State) : Host.Outcome State Fault Refusal :=
  .next (s.atTile tile (·.issue tile 0x41 (fun d c w => d.cresetIssue tile c w)))

/-- CFLUSH at issue: a tessera chain whose E is below OUT_ELEMENTS halts with 0x0307 (R203). -/
def Dev.cflushIssue (d : Dev) (t : Nat) (c : Bool) (w : Nat) : Issued :=
  let x := d.tile t
  let ch := iChainV w
  if 8 ≤ x.vq.length then .stall d
  else if x.chTess ch && decide (d.curE t ch < x.chElems ch) then .halt 0x0307 ch
  else
    let i := d.mkIns t c w
    .ok (((d.track t i 0).onTile t (fun x => { x with vq := x.vq ++ [.ins i] })).advance t c)

/-- CFLUSH (R271). -/
def execCflush (tile : Nat) (s : State) : Host.Outcome State Fault Refusal :=
  .next (s.atTile tile (·.issue tile 0x42 (fun d c w => d.cflushIssue tile c w)))

/-! ## Taking panel rows (R194, R197) -/

/-- A stream's lines in the commit buffer, if any of its rows has been taken. -/
def Tile.cbOf (x : Tile) (i : TIns) : Option CbStream := x.cb.find? (fun b => b.ins.seq == i.seq)

/-- May an entry of a stream be taken: does its charge fit the free lines (R214)? -/
def Tile.cbAdmits (x : Tile) (i : TIns) : Bool :=
  match x.cbOf i with
  | some _ => true
  | none => decide (x.charge (iChainM i.word) (sM i) (streamQ i.word) ≤ x.cbFree)

/-- The commit-buffer entry of a stream, made at its first row. -/
def Tile.cbOpen (x : Tile) (i : TIns) : Tile :=
  match x.cbOf i with
  | some _ => x
  | none =>
    let c := iChainM i.word
    let q := streamQ i.word
    { x with cb := x.cb ++ [⟨i, x.charge c (sM i) q, [], 0,
        if x.chCol c then List.replicate (32 * q) none else [], []⟩] }

/-- An uncorrectable word among a group's operands aborts its stream (R228): the tile halts with
0x0265. -/
def Dev.rowUnread (d : Dev) (t c : Nat) (p : Place) : Bool :=
  ((d.tile t).bRanges c p).any (fun s => ((d.tile t).spmBad s.1 s.2).isSome)

/-- Take streams of logical array `a` out of what the queue holds: their rows and commit markers go, and an abort
marker comes for each that feeds a chain. -/
def Dev.unqueue (d : Dev) (t a : Nat) (gone : List TIns) : Dev :=
  let p := d.arrPhys t a
  let mine (e : Panel) : Bool := gone.any (fun i => i.seq == e.ins.seq)
  let d := d.onTile t (fun x =>
    let ar := x.arr p
    { x.setArr p { ar with owed := ar.owed.filter (fun e => !mine e) } with fpq := x.fpq.filter (fun e => !mine e) })
  d.each (gone.filter isFinish) (fun d i => d.putMarker t p (.abort i a))

/-- Abort a stream whose chain could not read its operands (R228): it starts again when the tile resumes, and the
tile halts with 0x0265. One still in its array takes the later ones there with it, which started from what it left
(log 91); one that has committed in its array runs again beside it, from what it found. -/
def Dev.abortTaken (d : Dev) (t a : Nat) (i : TIns) : Dev :=
  let p := d.arrPhys t a
  let x := d.tile t
  let ar := x.arr p
  let here := ar.cur.dropWhile (fun s => s.ins.seq != i.seq)
  let undo : Option Undo := (x.fpq ++ ar.owed).findSome? (fun e => match e with
    | .commit j _ u => if j.seq = i.seq then some u else none
    | _ => none)
  let gone := if here.isEmpty then [i] else here.map (·.ins)
  let ar' : Arr := match here.head?, undo with
    | some s, _ => { ar with
        cur := ar.cur.take (ar.cur.length - here.length)
        last := s.before
        redo := ar.redo ++ here.map (fun s => (s.ins.seq, ⟨[], s.before, s.weights⟩, false)) }
    | none, some u => { ar with redo := ar.redo ++ [(i.seq, u, true)] }
    | none, none => ar
  let d := (d.setTile t ((x.setArr p ar').setAq a (gone ++ x.aqOf a))).unqueue t a gone
  let sampled := match d.csv.replay with
    | some r => r.tile == t && r.array == p && r.stage == 1 && gone.any (fun j => j.seq == r.seq)
    | none => false
  ((d.when sampled (·.replayDrop)).showArr t p).haltIns t 0x0265 a i 1 a []

/-- The effect of the oldest marker in the pipeline: a commit marker makes its stream's lines committed, with the
words its reduction writes (R215); an abort marker discards them (R216). -/
def Dev.settleMark (d : Dev) (t : Nat) : Dev :=
  let x := d.tile t
  match x.marks with
  | .commit i _ _ :: rest =>
    let x := { x.cbOpen i with marks := rest }
    let done := (x.cb.filter (fun b => b.ins.seq == i.seq)).map (fun b =>
      { b with rows := b.rows.map (fun r => { r with red := none }), cols := [],
               words := b.rows.filterMap (·.red) ++ x.colWords (iChainM i.word) i.d0 b.cols })
    d.setTile t { x with cb := x.cb.filter (fun b => b.ins.seq != i.seq), cbDone := x.cbDone ++ done }
  | .abort i _ :: rest =>
    (d.setTile t { x with marks := rest, cb := x.cb.filter (fun b => b.ins.seq != i.seq) }).bump (VEC.ABORTS.COUNT t) 1
  | _ => d

/-- Take one panel row: through its chain into the commit buffer. A marker of its stream that entered the pipeline
before it takes effect before it (R197). -/
def Dev.takeRow (d : Dev) (t : Nat) (view : SMap Byte) (i : TIns) (a m ix : Nat) (isInt : Bool) (vals : List Nat) (fl : Nat) : Dev :=
  let c := iChainM i.word
  let q := streamQ i.word
  let pl : Place := ⟨i.r0 + m, i.c0 + 32 * ix, i.e0 + m * 32 * q + 32 * ix, i.d0 + m * q + ix⟩
  let d := if (d.tile t).marks.any (fun e => e.ins.seq == i.seq) then d.each (d.tile t).marks (fun d _ => d.settleMark t) else d
  let d := d.bump (VEC.PANEL_ROWS.COUNT t) 1
  let d := d.each ((d.tile t).bRanges c pl) (fun d s => d.spmTouch t s.1 s.2)
  if d.rowUnread t c pl then d.abortTaken t a i
  else
    let out := d.runChain t c i pl view vals isInt fl
    let d := d.onTile t (fun x => { (x.cbOpen i) with cb := (x.cbOpen i).cb.map (fun b =>
      if b.ins.seq == i.seq then
        { b with rows := b.rows ++ [out.row], taken := b.taken + 1, cols := foldCols out.redOp (32 * ix) out.terms b.cols }
      else b) })
    d.raiseVec t c i pl out.flags

/-- Take up to `n` entries from the head of the queue, a lane group each, stopping for lack of room; chain reads find
`view`. What is left of the lane groups. -/
def Dev.takeRows : Nat → Dev → Nat → SMap Byte → Dev × Nat
  | 0, d, _, _ => (d, 0)
  | n + 1, d, t, view =>
    let x := d.tile t
    match x.fpq with
    | .row i a m ix isInt vals fl :: rest =>
      if !x.cbAdmits i then (d.bump (VEC.STALL_CB.COUNT t) 1, n + 1)
      else Dev.takeRows n ((d.setTile t { x with fpq := rest }).takeRow t view i a m ix isInt vals fl) t view
    | e :: rest => Dev.takeRows n (d.setTile t { x with fpq := rest, marks := x.marks ++ [e] }) t view
    | [] => (d, n + 1)

/-! ## Vector-only runs (R196, R202) -/

/-- A group of a run, whose reads find `view`: its output written to the scratchpad directly, or through the encoder.
None while a region has no room. -/
def Dev.runGroup (d : Dev) (t : Nat) (view : SMap Byte) (r : VRunSt) : Option Dev :=
  let x := d.tile t
  let i := r.ins
  let c := iChainV i.word
  let cols := x.chCols c
  let w := elemBits (x.chIn c) / 8
  let k := r.next
  let pl : Place := ⟨i.r0 + k / cols, k % cols, i.e0 + k, i.d0 + k / 32⟩
  let src := memRead view (i.x + k * w) (32 * w)
  let vals := (List.range 32).map (fun l => if x.chIn c = 9 then le src (l * w) w else (elemF32 (x.chIn c) (le src (l * w) w)).1)
  let touched := d.each ((i.x + k * w, 32 * w) :: x.bRanges c pl) (fun d s => d.spmTouch t s.1 s.2)
  if (x.spmBad (i.x + k * w) (32 * w)).isSome || d.rowUnread t c pl then
    some ((touched.onTile t (fun x => { x with vrun := none, vq := .ins i :: x.vq })).haltIns t 0x0265 c i 2 0 [])
  else
    let out := touched.runChain t c i pl view vals (x.chIn c == 9) 0
    (touched.releaseRow t c out.row).map (fun d =>
      let d := d.onTile t (·.wrWords out.row.red.toList)
      let cs := foldCols out.redOp (k % cols) out.terms r.cols
      let d := (d.bump (VEC.VRUN_GROUPS.COUNT t) 1).raiseVec t c i pl out.flags
      if i.y ≤ k + 32 then
        (d.onTile t (fun x => { x with vrun := none }.wrWords (x.colWords c i.d0 cs))).insDone t i
      else d.onTile t (fun x => { x with vrun := some { r with next := k + 32, cols := cs, starve := 0 } }))

/-- Give a run up to `n` lane groups, whose reads find `view`. -/
def Dev.runGroups : Nat → Dev → Nat → SMap Byte → Dev
  | 0, d, _, _ => d
  | n + 1, d, t, view =>
    match (d.tile t).vrun with
    | none => d
    | some r =>
      match d.runGroup t view r with
      | none => (d.bump (VEC.STALL_CB.COUNT t) 1).bump (SPM.REGION_WAITS.COUNT t) 1
      | some d => Dev.runGroups n d t view

/-- Count a cycle in which a run got no lane group. -/
def Dev.starveRun (d : Dev) (t : Nat) : Dev :=
  d.onTile t (fun x => { x with vrun := x.vrun.map (fun r => { r with starve := r.starve + 1 }) })

/-- One take of the engine (R194, R196): up to 8 entries in queue order, the run on the groups left. All read what
stood before the take, whose results come later (R197). A
run that has waited 64 cycles is not taken past (R196). -/
def Dev.panelTake (d : Dev) (t : Nat) : Dev :=
  let d := (d.pump t).fillQueue t
  let starved := match (d.tile t).vrun with | some r => decide (64 ≤ r.starve) | none => false
  if starved then d
  else
    let view := d.chainView t
    let (d, free) := Dev.takeRows 8 d t view
    let had := (d.tile t).vrun.isSome
    let d := if free = 0 then (if had then d.starveRun t else d) else Dev.runGroups free d t view
    d.pump t

/-- PANEL_ROW_TAKE (R194). -/
def execPanelRowTake (tile : Nat) (s : State) : Host.Outcome State Fault Refusal :=
  .next (s.atTile tile (·.panelTake tile))

/-- A run that has waited 64 cycles takes all 8 lane groups (R196). -/
def Dev.starvedTake (d : Dev) (t : Nat) : Dev :=
  match (d.tile t).vrun with
  | some r => if 64 ≤ r.starve then (Dev.runGroups 8 d t (d.chainView t)).pump t else d
  | none => d

/-- VRUN_STARVED_TAKE (R196). -/
def execVrunStarvedTake (tile : Nat) (s : State) : Host.Outcome State Fault Refusal :=
  .next (s.atTile tile (·.starvedTake tile))

/-! ## Markers and release (R215, R216) -/

/-- A marker's row: the marker in the pipeline, or else at the head of the queue, takes effect when it is of the
row's kind. -/
def Dev.marker (d : Dev) (t : Nat) (kind : Panel → Bool) : Dev :=
  let d := d.fillQueue t
  let x := d.tile t
  match x.marks, x.fpq with
  | e :: _, _ => if kind e then (d.settleMark t).pump t else d
  | [], e :: rest => if kind e then ((d.setTile t { x with fpq := rest, marks := [e] }).settleMark t).pump t else d
  | [], [] => d

/-- The commit marker: its stream's lines become committed. -/
def Dev.commitMarker (d : Dev) (t : Nat) : Dev :=
  d.marker t (fun e => match e with | .commit _ _ _ => true | _ => false)

/-- COMMIT_MARKER (R215). -/
def execCommitMarker (tile : Nat) (s : State) : Host.Outcome State Fault Refusal :=
  .next (s.atTile tile (·.commitMarker tile))

/-- The abort marker: its stream's lines are discarded (R216). -/
def Dev.abortMarker (d : Dev) (t : Nat) : Dev :=
  d.marker t (fun e => match e with | .abort _ _ => true | _ => false)

/-- ABORT_MARKER (R216). -/
def execAbortMarker (tile : Nat) (s : State) : Host.Outcome State Fault Refusal :=
  .next (s.atTile tile (·.abortMarker tile))

/-- COMMIT_BUFFER_RELEASE (R215): up to 8 lines in commit order. -/
def execCommitBufferRelease (tile : Nat) (s : State) : Host.Outcome State Fault Refusal :=
  .next (s.atTile tile (fun d => (Dev.releaseRows 8 d tile).pump tile))

end Sys2Proof.Machine
end

