-- ==== Sys2Proof/Machine/ProgLoad.lean ====
section
/-! DEFINITION. Program images (R286), the checks of PROG_LOAD (R200, R287) and TILE_HALT (R288). -/

namespace Sys2Proof.Machine

/-! ## The image header (R286) -/

/-- One code variant of an image: offset, count, first deferred instruction. -/
structure CodeVar where
  off : Nat
  count : Nat
  dstart : Nat
  deriving DecidableEq, Repr

def code8 (b : Bytes) : CodeVar := ⟨le b 8 4, le b 12 4, le b 16 4⟩
def code7 (b : Bytes) : CodeVar := ⟨le b 20 4, le b 24 4, le b 28 4⟩
def has7 (b : Bytes) : Bool := bit (le b 6 2) 0
def imgChainOff (b : Bytes) : Nat := le b 32 4
def imgChainCount (b : Bytes) : Nat := le b 36 1
def imgDmask (b : Bytes) : Nat := le b 40 4
def imgRmask (b : Bytes) : Nat := le b 44 8
def imgEntry (b : Bytes) : Nat := le b 52 4

/-- Is a code variant well formed within an image of `len` bytes? -/
def CodeVar.ok (v : CodeVar) (len entry : Nat) : Bool :=
  v.off % 16 == 0 && decide (1 ≤ v.count ∧ v.count ≤ 16384) && decide (v.dstart ≤ v.count)
    && decide (256 ≤ v.off ∧ v.off + 16 * v.count ≤ len) && decide (entry < v.dstart)

/-- The header check of R287. -/
def imageOk (b : Bytes) (len : Nat) : Bool :=
  decide (256 ≤ len) && le b 0 4 == 0x54524750 && le b 4 2 == 1 && decide (le b 6 2 ≤ 1) && le b 56 4 == len
    && (code8 b).ok len (imgEntry b)
    && (if has7 b then (code7 b).ok len (imgEntry b) else zeroBytes b 20 12)
    && decide (imgChainCount b ≤ 32) && imgChainOff b % 256 == 0
    && (imgChainCount b == 0 || decide (256 ≤ imgChainOff b ∧ imgChainOff b + 256 * imgChainCount b ≤ len))
    && zeroBytes b 37 3 && zeroBytes b 64 192
    && crc32c (patch b 60 (zeros 4)) == le b 60 4

/-- Instruction words of a variant. -/
def codeWords (b : Bytes) (v : CodeVar) : List Nat := (List.range v.count).map (fun i => le b (v.off + 16 * i) 16)

/-! ## Chain descriptors (R200) -/

/-- Formats of a scratchpad operand. -/
def spmFmt (f : Nat) : Bool := decide (f ≤ 4) || f == 8 || f == 9

/-- Is a stage word well formed? `k` is its number. -/
def stageOk (k w : Nat) : Bool :=
  let op := stOp w
  (decide (op ≤ 0x18) || decide (0x20 ≤ op ∧ op ≤ 0x23) || decide (0x28 ≤ op ∧ op ≤ 0x2A))
    && bits w 7 6 == 0 && decide (stBsrc w ≤ 6) && !bit w 11 && bits w 31 22 == 0 && bits w 127 87 == 0
    && (stBsrc w != 3 || decide (stTap w < k) || stTap w == 8)
    && (!decide (4 ≤ stBsrc w) || spmFmt (stFmt w))
    && (op != 0x14 || spmFmt (stFmt w) || stFmt w == 5 || stFmt w == 6)

/-- Is a chain descriptor well formed (R200), without a reserved format code (R93)? -/
def chainOk (b : Bytes) : Bool :=
  let b0 := le b 0 1
  let b1 := le b 1 1
  let b2 := le b 2 1
  let out := bits b0 7 4
  let tess := bit b1 0
  let st (k : Nat) : Nat := le b (64 + 16 * k) 16
  let reds := ((List.range 8).filter (fun k => decide (0x20 ≤ stOp (st k)))).length
  decide (bits b0 3 0 ≤ 10) && bits b1 7 4 == 0 && bits b2 7 5 == 0 && zeroBytes b 38 2 && zeroBytes b 52 12 && zeroBytes b 192 64
    && bits (le b 4 4) 31 23 == 0 && bits (le b 8 4) 31 23 == 0 && bits (le b 44 4) 31 23 == 0
    && decide (out ≤ 9) && out != 7
    && ((out != 5 && out != 6) || tess)
    && ((out != 0 && out != 9) || !tess)
    && (bits b2 1 0 != 1 || !tess)
    && decide (0 < le b 12 4) && le b 12 4 % 32 == 0
    && (List.range 8).all (fun k => stageOk k (st k)) && decide (reds ≤ 1)

/-! ## Instructions (R287) -/

/-- Where an instruction stands: its PC, the variant's deferred start and count, the deferred chain
mask, and whether it is seven-array code. -/
structure CodeAt where
  pc : Nat
  dstart : Nat
  count : Nat
  dmask : Nat
  seven : Bool
  deriving DecidableEq, Repr

def CodeAt.deferred (c : CodeAt) : Bool := decide (c.dstart ≤ c.pc)

/-- Does a target lie in the part of the code the instruction stands in? -/
def CodeAt.own (c : CodeAt) (t : Nat) : Bool :=
  if c.deferred then decide (c.dstart ≤ t ∧ t < c.count) else decide (t < c.dstart)

/-- Does a chain belong to the context of the part (DCHAIN_MASK)? -/
def CodeAt.chainOk (c : CodeAt) (ch : Nat) : Bool := c.dmask.testBit ch == c.deferred

/-- The scalar operand layout's reserved bits, and no operands at all. -/
def scalarRsv (w : Nat) : Bool := bits w 63 56 == 0
def noOperands (w : Nat) : Bool := bits w 127 32 == 0

/-- Operand b as `ALU`, `CMP` and `AOP` name it: a register or an immediate. -/
def opBOk (w : Nat) : Bool := if opBimm w then opSrcB w == 0 else opImm w == 0

/-- Only a code target, and registers 0 but DST when `dst`. -/
def targetOnly (w : Nat) (dst : Bool) : Bool :=
  bits w 127 78 == 0 && bits w 63 38 == 0 && (dst || opDst w == 0)

/-- A value or a register number (VREG). -/
def valueOk (w : Nat) : Bool := bits w 127 96 == 0 && (!opVreg w || bits w 95 70 == 0)

/-- The operand fields of an instruction, by opcode: defined, in range, in its part, unused ones 0. -/
def operandOk (c : CodeAt) (w : Nat) : Bool :=
  let d := c.deferred
  let f := opFunc w
  match iOp w with
  | 0x00 => noOperands w
  | 0x01 => scalarRsv w && decide (f < 13) && opBOk w && (!d || decide (48 ≤ opDst w))
  | 0x02 => scalarRsv w && decide (f < 6) && opBOk w && decide (opDst w < 8) && (!d || decide (4 ≤ opDst w))
  | 0x03 => scalarRsv w && decide (f < 5) && !opBimm w && opImm w == 0 && decide (opDst w < 8 ∧ opSrcA w < 8 ∧ opSrcB w < 8)
      && (f != 4 || opSrcB w == 0) && (!d || decide (4 ≤ opDst w))
  | 0x04 => scalarRsv w && decide (f < 3) && opBOk w
      && (f == 2 || decide (opDst w < 16)) && (f == 1 || decide (opSrcA w < 16))
      && (f != 2 || (!opBimm w && opSrcB w == 0)) && (!d || (if f = 2 then decide (48 ≤ opDst w) else decide (12 ≤ opDst w)))
  | 0x08 => targetOnly w false && c.own (opTarget w)
  | 0x09 => targetOnly w true && c.own (opTarget w) && (!d || decide (48 ≤ opDst w))
  | 0x10 | 0x11 => noOperands w && !d
  | 0x12 => targetOnly w false && !d && decide (c.dstart ≤ opTarget w ∧ opTarget w < c.count)
  | 0x13 | 0x14 => noOperands w && d
  | 0x15 => bits w 63 32 == 0 && bits w 127 80 == 0
  | 0x20 => bits w 63 51 == 0 && bits w 127 96 == 0 && (bit w 44 || bits w 50 45 == 0)
      && (!c.seven || decide (iArray w ≤ 6))
  | 0x21 =>
    let mb := bits w 49 46 == 5 || bits w 49 46 == 6
    (bit w 41 || iChainM w == 0) && (!bit w 41 || c.chainOk (iChainM w)) && (bit w 35 || bits w 37 36 == 0)
      && (bit w 68 || bits w 74 69 == 0) && (mb || bits w 78 75 == 0)
      && (!bit w 79 || bits w 103 86 == 0) && (!bit w 127 || bits w 126 110 == 0)
      && (!c.seven || decide (iArray w ≤ 6))
  | 0x40 => bits w 63 42 == 0 && bits w 127 96 == 0 && (!bit w 41 || bits w 95 70 == 0) && c.chainOk (iChainV w)
  | 0x41 | 0x42 => bits w 127 37 == 0 && c.chainOk (iChainV w)
  | 0x60 => bits w 63 55 == 0 && bits w 127 87 == 0 && (bit w 38 || bits w 42 39 == 0) && (bit w 43 || bits w 47 44 == 0)
      && (bit w 48 || bits w 54 49 == 0)
  | 0x80 => bits w 63 39 == 0 && valueOk w && bits w 36 32 != 0 && (!bit w 37 || (bit w 32 && !d))
  | 0x81 => bits w 63 46 == 0 && valueOk w && bits w 36 32 != 0 && (!bit w 37 || (bit w 32 && !d))
  | 0x82 => bits w 127 48 == 0
  | 0x83 => bits w 63 39 == 0 && valueOk w
  | _ => false

/-- May an opcode set SIG (R267)? -/
def sigOk (op : Nat) : Bool := op == 0x20 || op == 0x21 || op == 0x40 || op == 0x42 || op == 0x60 || op == 0x83

/-- Is an instruction well formed where it stands (R287)? -/
def insOk (c : CodeAt) (w : Nat) : Bool :=
  let op := iOp w
  !bit w 31 && (!iSig w || sigOk op) && (iSig w || op == 0x80 || op == 0x82 || (iTreg w == 0 && iToff w == 0))
    && operandOk c w

/-- Weight formats, and the pairs of R124. -/
def weightFmt (f : Nat) : Bool := decide (1 ≤ f ∧ f ≤ 6) || f == 8
def fmtPair (w s : Nat) : Bool :=
  if w = 3 ∨ w = 4 then s == 3 || s == 4 else weightFmt w && w == s

/-- The format, mode and axis check of an instruction (R124, R138, R139). -/
def formOk (w : Nat) : Bool :=
  match iOp w with
  | 0x20 =>
    let f := bits w 39 36
    weightFmt f && !(bit w 35 && (f == 5 || f == 6))
  | 0x21 =>
    let f := bits w 45 42
    fmtPair f (bits w 49 46) && !(bit w 38 && (bit w 35 || f == 5 || f == 6)) && decide (bits w 37 36 < packing f)
  | _ => true

/-- Can a chain run as the code uses it: a run's elements are of a format that R198 lists? For array input IN_FMT is
ignored (DEDUCED, log 89). -/
def runsOk (ws : List Nat) (c : Nat) (b : Bytes) : Bool :=
  spmFmt (bits (le b 0 1) 3 0) || !ws.any (fun w => iOp w == 0x40 && iChainV w == c)

/-- The first PC at which a check fails. -/
def firstPc (ok : Nat → Nat → Bool) (ws : List Nat) : Option Nat := (ws.zipIdx.find? (fun (w, k) => !ok k w)).map (·.2)

/-- The checks of R287 after the image is read: the status and RESULT of the first failure. -/
def progCheck (b : Bytes) (len : Nat) (no7 : Bool) : Option (Nat × Nat) :=
  if !imageOk b len then some (0x0271, 0)
  else if no7 && !has7 b then some (0x0243, 0)
  else
    let v := if no7 then code7 b else code8 b
    let ws := codeWords b v
    match (List.range (imgChainCount b)).find? (fun c =>
        let k := slice b (imgChainOff b + 256 * c) 256
        !chainOk k || !runsOk ws c k) with
    | some c => some (0x0250, c)
    | none =>
      match firstPc (fun k w => insOk ⟨k, v.dstart, v.count, imgDmask b, no7⟩ w) ws with
      | some k => some (0x0272, k)
      | none => (firstPc (fun _ w => formOk w) ws).map (fun k => (0x0240, k))

/-! ## PROG_LOAD -/

/-- Everything a program's execution holds in a tile, as it is at a load. -/
def Tile.freshProgram (x : Tile) : Tile :=
  { x with chains := [], g := [], a := [], p := 0, nextSeq := 0, mq := [], aq := [], vq := [], dq := [], sq := [],
           waits := [], deferQ := [], mbHold := false, deferHold := false, live := [], done := [], mbends := [],
           fpq := [], marks := [], cb := [], enc := [], vrun := none, ered := [], retried := [], latches := [],
           wasReady := false, resumeHeld := false,
           arrays := x.arrays.map (fun (e : Nat × Arr) =>
             (e.1, { e.2 with cur := [], incoming := none, fault := none, owed := [], redo := [] })),
           chans := x.chans.map (fun (e : Nat × Chan) =>
             (e.1, { e.2 with queue := e.2.queue.filter (fun q => q.ins.isNone), redo := none })) }

/-- Load a checked image. -/
def Dev.loadProgram (d : Dev) (t : Nat) (b : Bytes) (no7 : Bool) : Dev :=
  let v := if no7 then code7 b else code8 b
  let prog := (codeWords b v).zipIdx.filterMap (fun (w, k) => if w = 0 then none else some (k, w))
  let d := d.onTile t (fun x => { x.freshProgram with
    prog := prog, dstart := v.dstart, entry := imgEntry b, dmask := imgDmask b, rmask := imgRmask b,
    chains := memWrite [] 0 (slice b (imgChainOff b) (256 * imgChainCount b)) })
  let d := d.each (List.range 32) (fun d c => d.resetChain t c)
  let d := d.each (List.range 8) (fun d p => d.showArr t p)
  let d := (d.setPc t false (imgEntry b)).setPc t true 0
  let d := (d.set (CMD.SEQ_STATE.CONTEXT t) 0).set (CMD.SEQ_STATE.ROUTINE t) 0
  let d := (d.set (CMD.SEQ_STATE.STATE t) tsREADY).set (CMD.SEQ_HALT.VALID t) 0
  (d.set (CMD.SEQ_PROG.COUNT t) v.count).set (CMD.SEQ_PROG.VARIANT7 t) (b2n no7)

/-- Is a logical tile assigned to a job by a stage map (R288)? -/
def Dev.tileOwned (d : Dev) (l job : Nat) : Bool :=
  decide (l < 192) && (match d.stageOf l with | some (_, _, m) => m.job == job | none => false)

/-- A refused image's status; the RESULT that R287 states goes with 0x0250, 0x0272 and 0x0240. -/
def progErr (s r : Nat) : Result := if s = 0x0271 ∨ s = 0x0243 then errR s else errA s r

/-- PROG_LOAD's effect (R287, R288). -/
def Dev.progLoad (d : Dev) (job : Nat) (ops : Bytes) : Dev × Answer :=
  let l := opnd ops 16 2
  let t := d.phys l
  let len := opnd ops 28 4
  let st := d.seqState t
  if !d.tileOwned l job then (d, .now (errR 0x0105))
  else if st ≠ tsEMPTY ∧ st ≠ tsREADY ∧ st ≠ tsHALTED then (d, .now (errR 0x0270))
  else match d.fetch (cmdAcc 1 (d.domOf job)) (opnd ops 20 8) len with
    | (d, .error (s, a)) => (d, .now (errA s a))
    | (d, .ok b) =>
      let no7 := !d.arrValid t 7
      -- with array 7 mapped, or without a seven-array variant, the eight-array code is selected
      match progCheck b len no7 with
      | some (s, r) => (d, .now (progErr s r))
      | none =>
        let n := (if no7 then code7 b else code8 b).count
        ((d.loadProgram t b no7).onTile t (fun x => { x with img := (opnd ops 20 8, len, d.domOf job) }), .now (okR (n + if no7 then 0x8000 else 0)))

/-- PROG_LOAD (R287). -/
def execProgLoad (o : Origin) (ops : Bytes) (s : State) : Host.Outcome State Fault Refusal :=
  .next (s.onDev (fun d => d.command 0x0201 o ops (fun d' => d'.progLoad (d.jobOf o) ops)))

/-- TILE_HALT's effect (R288): the host resumes only its own halts and a program's (R285). -/
def Dev.tileHalt (d : Dev) (job : Nat) (ops : Bytes) : Dev × Answer :=
  let l := opnd ops 16 2
  let t := d.phys l
  let act := opnd ops 18 1
  let ok (d : Dev) : Dev × Answer := (d, .now (okR (d.get (CMD.SEQ_HALT_PC.PC t))))
  if !d.tileOwned l job then (d, .now (errR 0x0105))
  else if 1 < act then (d, .now (errR 0x0107))
  else if act = 0 then ok (d.hostHalt t)
  else if d.halted t && d.get (CMD.SEQ_HALT.STATUS t) != 0x0273 && d.get (CMD.SEQ_HALT.STATUS t) != 0x0276 then
    (d, .now (errR 0x0105))
  else ok (d.resumeTile t)

/-- TILE_HALT (R288). -/
def execTileHalt (o : Origin) (ops : Bytes) (s : State) : Host.Outcome State Fault Refusal :=
  .next (s.onDev (fun d => d.command 0x0206 o ops (fun d' => d'.tileHalt (d.jobOf o) ops)))

end Sys2Proof.Machine
end

