-- ==== Sys2Proof/Machine/Pipelines.lean ====
section
/-! DEFINITION. Spatial pipelines: stage maps (R294, R295), admission (R299 to R301), start and drain
(R312), and a stage's fault (R313). Passes and retirement stand in Machine/TileIssue.lean. -/

namespace Sys2Proof.Machine

/-- Pipeline states (R315). -/
def psMAPPED : Nat := 1
def psRUNNING : Nat := 2
def psDRAINING : Nat := 3
def psSTEPEND : Nat := 4
def psFAULTED : Nat := 5

def Dev.pipeState (d : Dev) (p : Nat) : Nat := d.get (CMD.PIPE_STATE.STATE p)

/-! ## The stage map (R294, R295) -/

def readLink (b : Bytes) (o : Nat) : LinkEnt :=
  { src := le b o 2, dst := le b (o + 2) 2, back := le b (o + 4) 1 == 1, region := le b (o + 5) 1,
    rowBytes := le b (o + 8) 4, fixedBytes := le b (o + 12) 4, stageAddr := le b (o + 16) 4, slots := le b (o + 20) 1,
    readyOff := le b (o + 22) 2, sentOff := le b (o + 24) 2, slotBytes := le b (o + 28) 4, regionSize := le b (o + 32) 4 }

def mapStages (b : Bytes) : Nat := le b 2 2
def mapLinks (b : Bytes) : Nat := le b 4 2
def stageOff (k : Nat) : Nat := 64 + 8 * k
def linkOff (b : Bytes) (k : Nat) : Nat := 64 + 8 * mapStages b + 48 * k

def readMap (b : Bytes) : PipeMap :=
  { schedule := le b 6 1, window := le b 7 1, maxRows := le b 8 4, tallyBase := le b 12 2, tallyCount := le b 14 2,
    job := le b 16 2, step := le b 24 8,
    stages := (List.range (mapStages b)).map (fun k => (le b (stageOff k) 2, le b (stageOff k + 2) 1)),
    links := (List.range (mapLinks b)).map (fun k => readLink b (linkOff b k)) }

/-- The header check. -/
def Dev.mapHeaderOk (d : Dev) (b : Bytes) (len : Nat) : Bool :=
  let m := readMap b
  decide (le b 0 2 ≤ 63) && decide (1 ≤ mapStages b ∧ mapStages b ≤ 1024) && decide (mapLinks b ≤ 4096)
    && decide (m.schedule ≤ 2) && decide (1 ≤ m.window ∧ m.window ≤ 8) && decide (1 ≤ m.maxRows ∧ m.maxRows ≤ 16777215)
    && decide (1 ≤ m.tallyCount ∧ m.tallyCount ≤ 4096) && decide (m.tallyBase + m.tallyCount ≤ 65536)
    && (List.range m.tallyCount).all (fun i => d.tallyOwned (m.tallyBase + i) m.job)
    && zeroBytes b 18 6 && zeroBytes b 32 32 && decide (linkOff b (mapLinks b) ≤ len)

/-- The check of stage entry k. -/
def Dev.mapStageOk (d : Dev) (b : Bytes) (m : PipeMap) (k : Nat) : Bool :=
  match m.stages[k]? with
  | none => false
  | some (dev, tile) =>
    decide (dev ≤ 12287 ∧ tile ≤ 191) && zeroBytes b (stageOff k + 3) 5 && !(m.stages.take k).contains (dev, tile)
      && (dev != d.rank || (d.stageOf tile).isNone)

/-- The check of link entry k. -/
def Dev.mapLinkOk (d : Dev) (b : Bytes) (m : PipeMap) (k : Nat) : Bool :=
  match m.links[k]? with
  | none => false
  | some l =>
    let o := linkOff b k
    match m.stages[l.src]?, m.stages[l.dst]? with
    | some (da, _), some (db, tb) =>
      let t := d.phys tb
      decide (le b (o + 4) 1 ≤ 1) && (if l.back then decide (l.dst < l.src) else decide (l.src < l.dst))
        && decide (l.region ≤ 63) && zeroBytes b (o + 6) 2 && zeroBytes b (o + 21) 1 && zeroBytes b (o + 26) 2 && zeroBytes b (o + 36) 12
        && decide (l.rowBytes ≤ 8388608) && decide (128 ≤ l.regionSize ∧ l.regionSize ≤ 8388608)
        && !(m.links.take k).any (fun e => e.dst == l.dst && e.region == l.region)
        && decide (l.rowBytes + l.fixedBytes ≤ l.regionSize)
        && (db != d.rank || (d.regOk t l.region && d.regSize t l.region == l.regionSize))
        && (if da = db then l.stageAddr == 0 && l.slots == 0 && l.slotBytes == 0
            else decide (1 ≤ l.slots ∧ l.slots ≤ 8) && l.slotBytes % 128 == 0 && l.stageAddr % 128 == 0
              && decide (l.rowBytes * m.maxRows + l.fixedBytes ≤ l.slotBytes)
              && decide (l.stageAddr + l.slots * l.slotBytes ≤ spmBytes)
              && decide (l.readyOff < m.tallyCount ∧ l.sentOff < m.tallyCount))
    | _, _ => false

/-- The first failing entry of a map (R295). -/
def Dev.mapCheckStage (d : Dev) (b : Bytes) (len : Nat) : Option Nat :=
  if !d.mapHeaderOk b len then some 0xFFFFFFFF
  else
    let m := readMap b
    match (List.range (mapStages b)).find? (fun k => !d.mapStageOk b m k) with
    | some k => some k
    | none => ((List.range (mapLinks b)).find? (fun k => !d.mapLinkOk b m k)).map (mapStages b + ·)

/-- Local stages' logical tiles. -/
def Dev.localTiles (d : Dev) (m : PipeMap) : List Nat := (m.stages.filter (fun s => s.1 == d.rank)).map (·.2)

/-- Allow or withdraw MOVE from one logical tile to another. -/
def Dev.moveAllow (d : Dev) (src dst : Nat) (on : Bool) : Dev :=
  let f := TDMA.MOVE_ALLOW.MASK (d.phys src) (dst / 32)
  d.set f (putBits (d.get f) (dst % 32) (dst % 32) (b2n on))

/-- Set or clear the bindings of a map's links on this device (R295). -/
def Dev.bindLinks (d : Dev) (m : PipeMap) (on : Bool) : Dev :=
  d.each m.links (fun d l =>
    match m.stages[l.src]?, m.stages[l.dst]? with
    | some (da, ta), some (db, tb) =>
      let bind (d : Dev) : Dev :=
        if db = d.rank then
          let t := d.phys tb
          (d.set (SPM.REGION_BIND.PRODUCER_TILE t l.region) (if !on then 0xFF else if da = db then ta else 0xFE)).set
            (SPM.REGION_BIND.REMOTE_EN t l.region) (b2n on)
        else d
      let d := bind d
      if da = d.rank ∧ db = d.rank then d.moveAllow ta tb on else d
    | _, _ => d)

/-- Start a pipeline's cross-device links afresh: micro-batch 0, and with `fresh` an empty region whose
whole size is credited (R422). -/
def Dev.resetLinks (d : Dev) (p : Nat) (m : PipeMap) (fresh : Bool) : Dev :=
  d.each m.links.zipIdx (fun d (e : LinkEnt × Nat) =>
    let k := p * 65536 + e.2
    let t := if fresh then ⟨0, 0, e.1.regionSize, false⟩ else { d.linkTx k with k := 0 }
    { d.setLinkTx k t with cfi.linkRx := smapDrop d.cfi.linkRx k })

/-- Reset the local regions that a map's links feed (R231; log 94). -/
def Dev.resetRegions (d : Dev) (m : PipeMap) : Dev :=
  d.each m.links (fun d l => match m.stages[l.dst]? with
    | some (dev, tile) => if dev = d.rank then d.regionReset (d.phys tile) l.region else d
    | none => d)

/-- Enter MAPPED. -/
def Dev.mapPipe (d : Dev) (p : Nat) (m : PipeMap) : Dev :=
  let d := (((d.setPipe p ⟨some m, [], [], [], []⟩).bindLinks m true).resetRegions m).resetLinks p m true
  let d := (d.set (CMD.PIPE_STATE.STATE p) psMAPPED).set (CMD.PIPE_STATE.LOCAL_STAGES p) (d.localTiles m).length
  let d := d.set2 (CMD.PIPE_STEP_LO.STEP p) (CMD.PIPE_STEP_HI.STEP p) m.step
  let d := (d.clearReg (CMD.PIPE_NEXT.REG p).off).clearReg (CMD.PIPE_RETIRED.REG p).off
  d.clearReg (CMD.PIPE_FAULT.REG p).off

/-- Return to UNMAPPED: bindings cleared, tiles back to the job. -/
def Dev.unmapPipe (d : Dev) (p : Nat) (m : PipeMap) : Dev :=
  let d := (d.bindLinks m false).setPipe p (pipeDflt p)
  d.each [CMD.PIPE_STATE.REG p, CMD.PIPE_NEXT.REG p, CMD.PIPE_RETIRED.REG p, CMD.PIPE_STEP_LO.REG p, CMD.PIPE_STEP_HI.REG p]
    (fun d f => d.clearReg f.off)

/-- STAGE_MAP's effect (R295, R312). -/
def Dev.stageMap (d : Dev) (job : Nat) (ops : Bytes) : Dev × Answer :=
  let op := opnd ops 28 1
  if 1 < op then (d, .now (errR 0x0107))
  else if op = 1 then
    let p := opnd ops 29 2
    match (d.pipe p).map with
    | some m =>
      let st := d.pipeState p
      if m.job = job ∧ (st = psMAPPED ∨ st = psSTEPEND ∨ st = psFAULTED) then (d.unmapPipe p m, .now (okR 0))
      else (d, .now (errR 0x020B))
    | none => (d, .now (errR 0x020B))
  else match d.fetch (cmdAcc 1 (d.domOf job)) (opnd ops 16 8) (opnd ops 24 4) with
    | (d, .error (s, a)) => (d, .now (errA s a))
    | (d, .ok b) =>
      let p := le b 0 2
      if p ≤ 63 ∧ (d.pipeState p ≠ 0 ∨ (readMap b).job ≠ job) then (d, .now (errR 0x020B))
      else match d.mapCheckStage b (opnd ops 24 4) with
        | some k => (d, .now (errA 0x020C k))
        | none => (d.mapPipe p (readMap b), .now (okR 0))

/-- STAGE_MAP (R312). -/
def execStageMap (o : Origin) (ops : Bytes) (s : State) : Host.Outcome State Fault Refusal :=
  .next (s.onDev (fun d => d.command 0x0202 o ops (fun d' => d'.stageMap (d.jobOf o) ops)))

/-! ## Start, drain and faults (R312, R313) -/

/-- The map of a job's pipeline. -/
def Dev.jobPipe (d : Dev) (p job : Nat) : Option PipeMap :=
  match (d.pipe p).map with
  | some m => if m.job = job then some m else none
  | none => none

/-- Return one acquitted unit to service, undoing R598. -/
def Dev.unitToService (d : Dev) (u : Nat) : Dev :=
  let i := u % 4096
  match u / 4096 with
  | 1 => { d with csv.retiredTiles := d.csv.retiredTiles.filter (· != i) }
  | 2 => d.set (MXA.FAILED.MASK (i / 8)) (putBits (d.get (MXA.FAILED.MASK (i / 8))) (i % 8) (i % 8) 0)
  | 3 => ((d.set HMC.STACK_MAP.FAILED (putBits (d.get HMC.STACK_MAP.FAILED) i i 0)).set (HMC.CTL_STATE.FAILED i) 0).set (HMC.CTL_STATE.READY i) 1
  | 4 => d.set (CFI.PORT_STATE.ENABLE i) 1
  | 5 => d.set (WXU.FAR_STATE.ENABLE i) 1
  | 6 => d.set SEC.PAIR_FAILED.MASK (putBits (d.get SEC.PAIR_FAILED.MASK) i i 0)
  | _ => d

/-- PIPELINE_START returns the acquitted units to service (R615; DESIGN CHOICE: every one of them). -/
def Dev.toService (d : Dev) : Dev := { d.each d.csv.acquitted Dev.unitToService with csv.acquitted := [] }

/-- Start every local stage tile at ENTRY. -/
def Dev.startTiles (d : Dev) (m : PipeMap) : Dev :=
  d.each (d.localTiles m) (fun d l =>
    let t := d.phys l
    (d.setPc t false (d.tile t).entry).set (CMD.SEQ_STATE.STATE t) tsRUNNING)

/-- PIPELINE_START's effect. -/
def Dev.pipelineStart (d : Dev) (job : Nat) (ops : Bytes) : Dev × Answer :=
  let p := opnd ops 16 2
  match d.jobPipe p job with
  | none => (d, .now (errR 0x020B))
  | some m =>
    if d.pipeState p ≠ psMAPPED ∨ !(d.localTiles m).all (fun l => d.seqState (d.phys l) == tsREADY) then (d, .now (errR 0x020B))
    else
      let d := (d.startTiles m).toService.set (CMD.PIPE_STATE.STATE p) psRUNNING
      let d := (d.clearReg (CMD.PIPE_NEXT.REG p).off).clearReg (CMD.PIPE_RETIRED.REG p).off
      (d.set2 (CMD.PIPE_STEP_LO.STEP p) (CMD.PIPE_STEP_HI.STEP p) m.step, .now (okR 0))

/-- PIPELINE_START (R312). -/
def execPipelineStart (o : Origin) (ops : Bytes) (s : State) : Host.Outcome State Fault Refusal :=
  .next (s.onDev (fun d => d.command 0x0203 o ops (fun d' => d'.pipelineStart (d.jobOf o) ops)))

/-- PIPELINE_DRAIN's effect: DRAINING once all N descriptors are admitted. -/
def Dev.pipelineDrain (d : Dev) (job : Nat) (ops : Bytes) : Dev × Answer :=
  let p := opnd ops 16 2
  match d.jobPipe p job with
  | none => (d, .now (errR 0x020B))
  | some _ =>
    if d.pipeState p = psFAULTED then (d, .now (errR 0x020D))
    else if d.pipeState p ≠ psRUNNING ∨ d.get (CMD.PIPE_NEXT.N p) = 0 ∨ d.get (CMD.PIPE_NEXT.INDEX p) ≠ d.get (CMD.PIPE_NEXT.N p) then
      (d, .now (errR 0x020B))
    else (d.set (CMD.PIPE_STATE.STATE p) psDRAINING, .unit [])

/-- End the drain at once when nothing remains. -/
def Dev.drainNow (d : Dev) (ops : Bytes) : Dev :=
  match (d.pipe (opnd ops 16 2)).map with
  | some m => d.tryDrain (opnd ops 16 2) m
  | none => d

/-- PIPELINE_DRAIN (R312). -/
def execPipelineDrain (o : Origin) (ops : Bytes) (s : State) : Host.Outcome State Fault Refusal :=
  .next (s.onDev (fun d => (d.command 0x0205 o ops (fun d' => d'.pipelineDrain (d.jobOf o) ops)).drainNow ops))

/-- PIPELINE_STAGE_FAULT's effect (R313): the pipeline of a tile halted by another status than 0x0253,
0x0273 and 0x0276 stops. -/
def Dev.stageFault (d : Dev) (t : Nat) : Dev :=
  let st := d.get (CMD.SEQ_HALT.STATUS t)
  if !d.halted t || haltKeeps st then d
  else match d.stageOf (d.logical t) with
    | none => d
    | some (p, _, m) => d.pipeFault p m st (d.logical t)

/-- PIPELINE_STAGE_FAULT (R313). -/
def execPipelineStageFault (tile : Nat) (s : State) : Host.Outcome State Fault Refusal :=
  .next (s.atTile tile (·.stageFault tile))

/-! ## Admission (R299 to R301) -/

/-- Word n of descriptor j: packet bytes 64 + 64j on. -/
def mbWord (ops : Bytes) (j n : Nat) : Nat := opnd ops (64 + 64 * j + 8 * n) 8
def mbWords (ops : Bytes) (j : Nat) : List Nat := (List.range 8).map (mbWord ops j)
def mbIndex (ws : List Nat) : Nat := ws.getD 0 0 % 65536
def mbM (ws : List Nat) : Nat := ws.getD 1 0 % 2 ^ 24
def mbStep (ws : List Nat) : Nat := ws.getD 2 0
def mbN (ws : List Nat) : Nat := ws.getD 7 0 % 65536

/-- The descriptor check of R300, with the step's N. -/
def mbDescOk (m : PipeMap) (n : Nat) (ws : List Nat) : Bool :=
  decide (ws.getD 0 0 < 65536) && decide (ws.getD 1 0 < 2 ^ 24) && decide (1 ≤ mbM ws ∧ mbM ws ≤ m.maxRows)
    && decide (ws.getD 3 0 < 2 ^ 48 ∧ ws.getD 4 0 < 2 ^ 48) && decide (ws.getD 7 0 < 65536) && mbN ws != 0 && mbN ws == n
    && (m.schedule != 1 || decide (mbN ws ≤ m.window))

/-- Is a link's byte count for a micro-batch within its region? -/
def linkFits (m : PipeMap) (ws : List Nat) : Bool :=
  m.links.all (fun l => decide (l.rowBytes * mbM ws + l.fixedBytes ≤ l.regionSize))

/-- The first descriptor that fails a check. -/
def firstDesc (ds : List (List Nat)) (ok : Nat → List Nat → Bool) : Option Nat :=
  (ds.zipIdx.find? (fun (ws, j) => !ok j ws)).map (·.2)

/-- The checks of R300 in order: status and RESULT. -/
def Dev.admitCheck (d : Dev) (p : Nat) (m : PipeMap) (ops : Bytes) : Option (Nat × Nat) :=
  let c := opnd ops 18 1
  let ds := (List.range c).map (mbWords ops)
  let fresh := d.pipeState p == psSTEPEND
  let ix0 := if fresh then 0 else d.get (CMD.PIPE_NEXT.INDEX p)
  let step := d.get2 (CMD.PIPE_STEP_LO.STEP p) (CMD.PIPE_STEP_HI.STEP p) + (if fresh then 1 else 0)
  let n := if fresh || ix0 == 0 then mbN (ds.headD []) else d.get (CMD.PIPE_NEXT.N p)
  let room := 64 - (d.pipe p).queue.length
  if d.pipeState p ≠ psRUNNING ∧ !fresh then some (0x020B, 0)
  else if c = 0 ∨ 15 < c ∨ ops.length + 16 ≠ 64 * (c + 1) ∨ !opndZero ops 19 45 then some (0x0208, 0)
  else match firstDesc ds (fun _ ws => mbDescOk m n ws) with
    | some j => some (0x0208, j)
    | none => match firstDesc ds (fun j ws => mbIndex ws == ix0 + j && decide (mbIndex ws < n) && mbStep ws == step % 2 ^ 64) with
      | some j => some (0x0209, j)
      | none => match firstDesc ds (fun _ ws => linkFits m ws) with
        | some j => some (0x0207, j)
        | none => if room < c then some (0x020A, room) else none

/-- The start of a step at STEP_END (R301): the tallies of the range to 0, the step, and RUNNING. -/
def Dev.pipeStepStart (d : Dev) (p : Nat) (m : PipeMap) (step : Nat) : Dev :=
  let d := d.each (List.range m.tallyCount) (fun d i => d.tallySet (m.tallyBase + i) 0)
  let d := (d.setPipe p { d.pipe p with delivered := [], ended := [], rows := [] }).resetLinks p m false
  let d := (d.set2 (CMD.PIPE_STEP_LO.STEP p) (CMD.PIPE_STEP_HI.STEP p) step).clearReg (CMD.PIPE_RETIRED.REG p).off
  d.set (CMD.PIPE_STATE.STATE p) psRUNNING

/-- Queue the descriptors of an accepted packet. -/
def Dev.admitAll (d : Dev) (p : Nat) (m : PipeMap) (ops : Bytes) : Dev :=
  let c := opnd ops 18 1
  let ds := (List.range c).map (mbWords ops)
  let w := ds.headD []
  let d := if d.pipeState p = psSTEPEND then d.pipeStepStart p m (mbStep w) else d
  let d := d.setPipe p { d.pipe p with queue := (d.pipe p).queue ++ ds,
                                         rows := smapSetAll zeroDflt (d.pipe p).rows (ds.map (fun ws => (mbIndex ws, mbM ws))) }
  let d := (d.set (CMD.PIPE_NEXT.N p) (mbN w)).set (CMD.PIPE_NEXT.INDEX p) (mbIndex w + c)
  d.set (CMD.PIPE_RETIRED.QUEUED p) (d.pipe p).queue.length

/-- MICROBATCH_ADMIT's effect. -/
def Dev.microbatchAdmit (d : Dev) (job : Nat) (ops : Bytes) : Dev × Answer :=
  let p := opnd ops 16 2
  let reject (st r : Nat) : Dev × Answer :=
    (if p < 64 then d.bump (CMD.PIPE_REJECTS.COUNT p) 1 else d, .now (errA st r))
  match d.jobPipe p job with
  | none => reject 0x020B 0
  | some m => match d.admitCheck p m ops with
    | some (st, r) => reject st r
    | none => (d.admitAll p m ops, .now (okU []))

/-- MICROBATCH_ADMIT (R300). -/
def execMicrobatchAdmit (o : Origin) (ops : Bytes) (s : State) : Host.Outcome State Fault Refusal :=
  .next (s.onDev (fun d => d.command 0x0204 o ops (fun d' => d'.microbatchAdmit (d.jobOf o) ops)))

end Sys2Proof.Machine
end

