-- ==== Sys2Proof/Machine/Roce.lean ====
section
/-! DEFINITION. The RoCEv2 requester (R423, R424): packets and their ICRC (the layouts are those of the
RoCEv2 specification: PRESUMED, log 32), a queue pair's window, acknowledgements, go-back-N, RNR waits and
rate, and the counters of a target (R566). -/

namespace Sys2Proof.Machine

/-! ## Packets -/

/-- One bit and one byte of the CRC-32 of IEEE 802.3, which the ICRC uses. -/
def icrcStep (c : Nat) : Nat := if c % 2 = 1 then (c >>> 1) ^^^ 0xEDB88320 else c >>> 1
def icrcByte (c : Nat) (b : Byte) : Nat :=
  icrcStep (icrcStep (icrcStep (icrcStep (icrcStep (icrcStep (icrcStep (icrcStep (c ^^^ b.toNat))))))))
def crc32 (bs : Bytes) : Nat := (bs.foldl icrcByte 0xFFFFFFFF) ^^^ 0xFFFFFFFF

/-- RoCEv2 opcodes of the Reliable Connection transport (R423). -/
def roFIRST : Nat := 0x06
def roMIDDLE : Nat := 0x07
def roLAST : Nat := 0x08
def roONLY : Nat := 0x0A
def roREAD : Nat := 0x0C

def qpDflt : Nat → Qp := fun _ => ⟨0, 0, 0, [], [], [], 0, 0, none, false, 0, 0, 0⟩
def Dev.qp (d : Dev) (q : Nat) : Qp := smapGet qpDflt d.ckpt.qps q
def Dev.setQp (d : Dev) (q : Nat) (v : Qp) : Dev := { d with ckpt.qps := smapSet qpDflt d.ckpt.qps q v }
def Dev.onQp (d : Dev) (q : Nat) (f : Qp → Qp) : Dev := d.setQp q (f (d.qp q))

/-- BTH, RETH and payload of a packet to a remote QPN with an rkey; the last packet of a message asks for
an acknowledgement. -/
def roceBytes (remote rkey : Nat) (p : RocePkt) : Bytes :=
  let pad := (4 - p.data.length % 4) % 4
  let ask := if p.opcode = roLAST ∨ p.opcode = roONLY then 0x80 else 0
  beBytes 1 p.opcode ++ beBytes 1 (pad * 16) ++ [0xFF, 0xFF, 0] ++ beBytes 3 remote ++ beBytes 1 ask ++ beBytes 3 p.psn
    ++ (match p.reth with | some (a, n) => beBytes 8 a ++ beBytes 4 rkey ++ beBytes 4 n | none => []) ++ p.data ++ zeros pad

/-- The ICRC: over eight bytes of ones and the packet with the fields that change on the way as ones. -/
def icrc (ip udp ib : Bytes) : Nat :=
  let ff (n : Nat) : Bytes := List.replicate n 0xFF
  let ipm := beBytes 1 (be ip 0 1 / 16 * 16 + 15) ++ ff 3 ++ slice ip 4 3 ++ ff 1 ++ ip.drop 8
  crc32 (ff 8 ++ ipm ++ udp.take 6 ++ ff 2 ++ patch ib 4 (ff 1))

/-- Send a packet of queue pair q, on the next port of the rotation. -/
def Dev.sendRoce (d : Dev) (q : Nat) (p : RocePkt) : Dev :=
  let x := d.qp q
  let t := x.target - 1
  let dscp := d.get CFI.DSCP.DATA
  match d.nextPort (dscpPrio dscp) with
  | none => d
  | some pt =>
    let (v, d) := d.draw
    let e := v % 16384
    let ib := roceBytes x.remote (d.get (CFI.STORE_RKEY.RKEY t)) p
    let len := 12 + ib.length
    let ip := beBytes 4 (6 * 2 ^ 28 + (dscp * 4 + 2) * 2 ^ 20 + e) ++ beBytes 2 len ++ [17, 64] ++ beBytes 16 (d.cellIp pt)
      ++ beBytes 16 (smapGet zeroDflt d.ckpt.servers t)
    let udp := beBytes 2 (0xC000 + e) ++ beBytes 2 4791 ++ beBytes 2 len ++ [0, 0]
    let d := { d with cfi.rot := pt }
    ((d.emit (.cellFrame pt (ether (d.cellGw pt) (portMac pt) 0x86DD (ip ++ udp ++ ib ++ leBytes 4 (icrc ip udp ib))))).bump
      (CFI.PORT_TX.COUNT pt) 1).onQp q (fun x => { x with sentAt := d.now })

/-! ## The window (R423) -/

/-- How far PSN b lies above a, modulo 2^24. -/
def qpsnDiff (a b : Nat) : Nat := (b + 2 ^ 24 - a % 2 ^ 24) % 2 ^ 24

/-- Change the checkpoint command `id`. -/
def Dev.onRun (d : Dev) (id : Nat) (f : CkRun → CkRun) : Dev :=
  { d with ckpt.runs := d.ckpt.runs.map (fun r => if r.id = id then f r else r) }

/-- Read the next `n` bytes of a write. -/
def Dev.roceRead (d : Dev) (m : RoceMsg) (n : Nat) : Dev × Except (Nat × Nat) Bytes :=
  match m.src with
  | .bytes bs => (d, .ok (slice bs m.off n))
  | .mem a dom => d.fetch (d.cfiAcc (a + m.off) 1 dom) (a + m.off) n

/-- The next packet of a message: its opcode, RETH and payload length. -/
def RoceMsg.next (m : RoceMsg) : Nat × Option (Nat × Nat) × Nat :=
  if m.isRead then (roREAD, some (m.addr, m.len), 0)
  else
    let n := min 4096 (m.len - m.off)
    let last := decide (m.len ≤ m.off + n)
    let first := m.off == 0
    (if first then (if last then roONLY else roFIRST) else if last then roLAST else roMIDDLE, if first then some (m.addr, m.len) else none, n)

/-- Put packets out while fewer than 1,024 are unacknowledged and no RNR wait holds; one read is
outstanding at a time; at most `fuel`. -/
def Dev.rocePump (q : Nat) : Nat → Dev → Dev
  | 0, d => d
  | fuel + 1, d =>
    let x := d.qp q
    match x.backlog with
    | [] => d
    | m :: rest =>
      if x.err ∨ x.rnrUntil.isSome ∨ 1024 ≤ x.unacked.length ∨ (m.isRead ∧ x.unacked.any (fun p => p.opcode == roREAD))
          ∨ (d.nextPort (dscpPrio (d.get CFI.DSCP.DATA))).isNone then d
      else
        let (opc, reth, n) := m.next
        match (if m.isRead then (d, .ok []) else d.roceRead m n : Dev × Except (Nat × Nat) Bytes) with
        | (d, .error e) =>
          let d := d.onQp q (fun x => { x with backlog := rest })
          Dev.rocePump q fuel (d.onRun m.owner (fun r => { r with err := some (r.err.getD e) }))
        | (d, .ok bs) =>
          let span := if m.isRead then max 1 (ceilDiv m.len 4096) else 1
          let p : RocePkt := ⟨m.owner, x.psn, span, opc, reth, bs⟩
          let left := if m.isRead ∨ m.len ≤ m.off + n then rest else { m with off := m.off + n } :: rest
          let d := d.setQp q { x with psn := (x.psn + span) % 2 ^ 24, unacked := x.unacked ++ [p], backlog := left,
                                      got := if m.isRead then [] else x.got }
          Dev.rocePump q fuel (d.sendRoce q p)

/-- Fuel for a pump. -/
def Dev.roceFuel (d : Dev) (q : Nat) : Nat := 1025 + (d.qp q).backlog.length

/-- Put out what a queue pair's window allows. -/
def Dev.roceGo (d : Dev) (q : Nat) : Dev := Dev.rocePump q (d.roceFuel q) d

/-- Hand a message to a queue pair. -/
def Dev.roceAdd (d : Dev) (q : Nat) (m : RoceMsg) : Dev :=
  (d.onQp q (fun x => { x with backlog := x.backlog ++ [m] })).roceGo q

/-- Does anything of a checkpoint command remain on a queue pair? -/
def Dev.roceBusy (d : Dev) (id : Nat) : Bool :=
  d.ckpt.qps.any (fun e => e.2.unacked.any (fun p => p.owner == id) || e.2.backlog.any (fun m => m.owner == id))

/-! ## Counters (R566) -/

/-- Bytes moved by a command, in its target's progress register. -/
def Dev.roceMoved (d : Dev) (id t n : Nat) : Dev :=
  let d := d.onRun id (fun r => { r with moved := r.moved + n })
  match d.ckpt.runs.find? (fun r => r.id == id) with
  | some r => d.set (CFI.STORE_PROGRESS.MIB t) (r.moved / 1048576)
  | none => d

/-- Count bytes written and acknowledged. -/
def Dev.roceWrote (d : Dev) (id t n : Nat) : Dev :=
  let c := smapGet zeroDflt d.ckpt.wrRem t + n
  ({ d with ckpt.wrRem := smapSet zeroDflt d.ckpt.wrRem t (c % 1048576) }.bump (CFI.STORE_WRITTEN.COUNT t) (c / 1048576)).roceMoved id t n

/-- Count bytes read. -/
def Dev.roceHave (d : Dev) (id t n : Nat) : Dev :=
  let c := smapGet zeroDflt d.ckpt.rdRem t + n
  ({ d with ckpt.rdRem := smapSet zeroDflt d.ckpt.rdRem t (c % 1048576) }.bump (CFI.STORE_READ.COUNT t) (c / 1048576)).roceMoved id t n

/-! ## Acknowledgements, retries, waits (R424) -/

/-- The write packets at the front of the window that lie at or below PSN `psn`, and the rest: a read is
released by its responses alone. -/
def ackedPkts (psn : Nat) : List RocePkt → List RocePkt × List RocePkt
  | [] => ([], [])
  | p :: ps => if p.opcode ≠ roREAD ∧ qpsnDiff p.psn psn < 2 ^ 23 then let (a, b) := ackedPkts psn ps; (p :: a, b) else ([], p :: ps)

/-- Release what PSN `psn` acknowledges. Progress clears the retry count and restarts the timer. -/
def Dev.roceRelease (d : Dev) (q psn : Nat) : Dev :=
  let x := d.qp q
  let (a, b) := ackedPkts psn x.unacked
  if a.isEmpty then d
  else
    let srtt := if x.retries = 0 then Config.smoothRtt x.srtt (d.now - x.sentAt) else x.srtt
    let d := d.setQp q { x with unacked := b, retries := 0, sentAt := d.now, srtt := srtt }
    d.each a (fun d p => d.roceWrote p.owner (x.target - 1) p.data.length)

/-- A packet as it is sent again: a read asks for what its responses have not brought. -/
def Qp.again (x : Qp) (p : RocePkt) : RocePkt :=
  if p.opcode = roREAD then
    match p.reth with
    | some (a, n) => { p with psn := (p.psn + x.got.length / 4096) % 2 ^ 24, reth := some ((a + x.got.length) % 2 ^ 64, n - x.got.length) }
    | none => p
  else p

/-- Send every unacknowledged packet again, in order. -/
def Dev.roceResend (d : Dev) (q : Nat) : Dev :=
  let x := d.qp q
  d.each (x.unacked.map x.again) (fun d p => d.sendRoce q p)

/-- A queue pair and its target enter the error state (R424, R542). -/
def Dev.roceError (d : Dev) (q : Nat) : Dev :=
  let t := (d.qp q).target - 1
  (d.onQp q (fun x => { x with err := true, unacked := [], backlog := [], rnrUntil := none })).set (CFI.STORE_STATE.STATE t) 3

/-- Go back N (R424): a retry, or the error state after 7. -/
def Dev.roceRetry (d : Dev) (q : Nat) : Dev :=
  let x := d.qp q
  if x.err ∨ x.unacked.isEmpty then d
  else if 7 ≤ x.retries then d.roceError q
  else ((d.setQp q { x with retries := x.retries + 1, sentAt := d.now }).bump (CFI.STORE_RETRIES.COUNT (x.target - 1)) 1).roceResend q

/-- When the retry timer of a queue pair expires (R399, R424). -/
def Dev.roceDue (d : Dev) (q : Nat) : Option Nat :=
  let x := d.qp q
  if x.target = 0 ∨ x.err ∨ x.rnrUntil.isSome ∨ x.unacked.isEmpty then none
  else some (x.sentAt + d.rto x.srtt x.retries)

/-- A read response (R423): the next in order of the read in progress; another is ignored. The whole read
goes to its command, and what was sent before it is acknowledged by it. -/
def Dev.roceResponse (d : Dev) (q psn : Nat) (bs : Bytes) : Dev :=
  let x := d.qp q
  if x.target = 0 ∨ x.err then d
  else match x.unacked.find? (fun p => p.opcode == roREAD) with
    | none => d
    | some p => match p.reth with
      | none => d
      | some (_, n) =>
        let o := x.got.length
        if psn % 2 ^ 24 ≠ (p.psn + o / 4096) % 2 ^ 24 ∨ bs.length ≠ min 4096 (n - o) then d
        else
          let d := d.roceRelease q ((p.psn + 2 ^ 24 - 1) % 2 ^ 24)
          let d := d.roceHave p.owner (x.target - 1) bs.length
          let got := x.got ++ bs
          if got.length < n then d.onQp q (fun x => { x with got := got, retries := 0, sentAt := d.now })
          else
            let d := d.onQp q (fun x => { x with got := [], retries := 0, sentAt := d.now, unacked := x.unacked.filter (· != p) })
            (d.onRun p.owner (fun r => { r with inb := got })).roceGo q

/-- The rate of a queue pair now (R400): it rises by 2 GB/s every 50 µs up to line rate. -/
def Dev.qpRate (d : Dev) (x : Qp) : Nat :=
  if x.rate = 0 then d.lineRate else min (x.rate + 2000 * ((d.now - x.rateAt) / 50000)) (max 1000 d.lineRate)

/-- A CNP cuts the rate as an ACK with 8 marks would (R423). -/
def Dev.roceCut (d : Dev) (q : Nat) : Dev :=
  let x := d.qp q
  if x.target = 0 then d else d.setQp q { x with rate := rateCut (d.qpRate x) 8, rateAt := d.now }

end Sys2Proof.Machine
end

