-- ==== Sys2Proof/Machine/Crypto.lean ====
section
/-! DEFINITION. The cryptographic algorithms the spec names by their standards (PRESUMED, log 30: their
constants stand in FIPS 180-4, FIPS 197, SP 800-38D, RFC 5869, RFC 2104 and SEC 1, not in the spec):
SHA-384 (R519), HMAC and HKDF (R525, R526), AES-256-GCM (R513 to R515), curve P-384 and ECDSA (R519,
R520). -/

namespace Sys2Proof.Machine

/-! ## SHA-384 -/

def w64 : Nat := 2 ^ 64

/-- The first primes in order: those among `fuel` numbers from `n` on. -/
def primesFrom (n : Nat) : Nat → List Nat
  | 0 => []
  | fuel + 1 =>
    let r := primesFrom (n + 1) fuel
    if (List.range n).all (fun k => decide (k < 2) || n % k != 0) then n :: r else r

/-- The largest x with x ^ k ≤ n, by bits from bit i down. -/
def rootFrom (k n : Nat) : Nat → Nat → Nat
  | 0, r => if (r + 1) ^ k ≤ n then r + 1 else r
  | i + 1, r => rootFrom k n i (if (r + 2 ^ (i + 1)) ^ k ≤ n then r + 2 ^ (i + 1) else r)

/-- Round constants: fractions of the cube roots of the first 80 primes. -/
def shaK : List Nat := (primesFrom 2 408).map (fun p => rootFrom 3 (p * 2 ^ 192) 67 0 % w64)

/-- Initial hash of SHA-384: fractions of the square roots of the 9th to 16th primes. -/
def shaH0 : List Nat := ((primesFrom 2 52).drop 8).map (fun p => rootFrom 2 (p * 2 ^ 128) 67 0 % w64)

def ror64 (n x : Nat) : Nat := (x >>> n) ||| ((x <<< (64 - n)) % w64)

/-- Extend a message schedule, held newest first, by n words. -/
def shaSchedule : Nat → List Nat → List Nat
  | 0, ws => ws
  | n + 1, ws =>
    let a := ws.getD 14 0
    let b := ws.getD 1 0
    let s0 := ror64 1 a ^^^ ror64 8 a ^^^ (a >>> 7)
    let s1 := ror64 19 b ^^^ ror64 61 b ^^^ (b >>> 6)
    shaSchedule n ((ws.getD 15 0 + s0 + ws.getD 6 0 + s1) % w64 :: ws)

/-- One round. -/
def shaRound (v : List Nat) (kw : Nat × Nat) : List Nat :=
  let g (i : Nat) : Nat := v.getD i 0
  let s1 := ror64 14 (g 4) ^^^ ror64 18 (g 4) ^^^ ror64 41 (g 4)
  let ch := (g 4 &&& g 5) ^^^ ((w64 - 1 - g 4) &&& g 6)
  let t1 := g 7 + s1 + ch + kw.1 + kw.2
  let s0 := ror64 28 (g 0) ^^^ ror64 34 (g 0) ^^^ ror64 39 (g 0)
  let maj := (g 0 &&& g 1) ^^^ (g 0 &&& g 2) ^^^ (g 1 &&& g 2)
  [(t1 + s0 + maj) % w64, g 0, g 1, g 2, (g 3 + t1) % w64, g 4, g 5, g 6]

/-- One 128-byte block. -/
def shaBlock (h : List Nat) (b : Bytes) : List Nat :=
  let ws := (shaSchedule 64 (((List.range 16).map (fun i => be b (8 * i) 8)).reverse)).reverse
  ((shaK.zip ws).foldl shaRound h).zip h |>.map (fun (x, y) => (x + y) % w64)

/-- SHA-384. -/
def sha384 (m : Bytes) : Bytes :=
  let z := (128 - (m.length + 17) % 128) % 128
  let p := m ++ [0x80] ++ zeros z ++ beBytes 16 (8 * m.length)
  (((chunksOf 128 (p.length / 128 + 1) p).foldl shaBlock shaH0).take 6).flatMap (beBytes 8 ·)

/-- HMAC-SHA-384. -/
def hmac384 (key m : Bytes) : Bytes :=
  let k := slice (if 128 < key.length then sha384 key else key) 0 128
  sha384 (k.map (· ^^^ 0x5C) ++ sha384 (k.map (· ^^^ 0x36) ++ m))

/-- HKDF-Extract and HKDF-Expand for one output of up to 48 bytes. -/
def hkdfExtract (salt ikm : Bytes) : Bytes := hmac384 salt ikm
def hkdfExpand (prk info : Bytes) (n : Nat) : Bytes := (hmac384 prk (info ++ [1])).take n

/-- An ASCII label. -/
def ascii (s : String) : Bytes := s.toList.map (fun c => BitVec.ofNat 8 c.toNat)

/-! ## AES-256 -/

/-- Multiply by x in the AES field. -/
def xtime (a : Nat) : Nat := if 128 ≤ a then ((a * 2) ^^^ 0x11B) % 256 else a * 2

/-- Multiply in the AES field, over the 8 bits of b. -/
def gmul (a b : Nat) : Nat :=
  ((List.range 8).foldl (fun (s : Nat × Nat) i => (if b.testBit i then s.1 ^^^ s.2 else s.1, xtime s.2)) (0, a)).1

/-- The inverse a^254 (0 for 0). -/
def ginv (a : Nat) : Nat :=
  let a2 := gmul a a
  let a4 := gmul a2 a2
  let a8 := gmul a4 a4
  let a16 := gmul a8 a8
  let a32 := gmul a16 a16
  let a64 := gmul a32 a32
  let a128 := gmul a64 a64
  gmul (gmul (gmul a128 a64) (gmul a32 a16)) (gmul (gmul a8 a4) a2)

def rol8 (n x : Nat) : Nat := (x * 2 ^ n) % 256 + x / 2 ^ (8 - n)

/-- The S-box. -/
def sbox (a : Nat) : Nat :=
  let b := ginv a
  b ^^^ rol8 1 b ^^^ rol8 2 b ^^^ rol8 3 b ^^^ rol8 4 b ^^^ 0x63

def subWord (w : Nat) : Nat := beNat ((beBytes 4 w).map (fun b => BitVec.ofNat 8 (sbox b.toNat)))

/-- Extend the key schedule, held newest first, by n words; the next has index i. -/
def aesExpand : Nat → Nat → List Nat → List Nat
  | 0, _, ws => ws
  | n + 1, i, ws =>
    let t := ws.headD 0
    let t := if i % 8 = 0 then subWord ((t * 256) % 2 ^ 32 + t / 2 ^ 24) ^^^ (((List.range (i / 8 - 1)).foldl (fun a _ => xtime a) 1) * 2 ^ 24)
      else if i % 8 = 4 then subWord t else t
    aesExpand n (i + 1) ((ws.getD 7 0 ^^^ t) :: ws)

/-- The 15 round keys of a 32-byte key, 16 bytes each. -/
def aesKeys (key : Bytes) : List (List Nat) :=
  let ws := (aesExpand 52 8 (((List.range 8).map (fun i => be key (4 * i) 4)).reverse)).reverse
  (chunksOf 4 16 ws).map (fun r => (r.flatMap (beBytes 4 ·)).map (·.toNat))

def xorList (a b : List Nat) : List Nat := (a.zip b).map (fun (x, y) => x ^^^ y)

/-- SubBytes and ShiftRows. -/
def aesSubShift (s : List Nat) : List Nat :=
  (List.range 16).map (fun i => sbox (s.getD ((i + 4 * (i % 4)) % 16) 0))

/-- MixColumns. -/
def aesMix (s : List Nat) : List Nat :=
  (List.range 16).map (fun i =>
    let c := i / 4 * 4
    let g (k : Nat) : Nat := s.getD (c + (i + k) % 4) 0
    xtime (g 0) ^^^ (xtime (g 1) ^^^ g 1) ^^^ g 2 ^^^ g 3)

/-- Encrypt one 16-byte block under expanded keys. -/
def aesBlock (ks : List (List Nat)) (b : Bytes) : Bytes :=
  let s := xorList (b.map (·.toNat)) (ks.headD [])
  let s := ((ks.drop 1).take 13).foldl (fun s k => xorList (aesMix (aesSubShift s)) k) s
  (xorList (aesSubShift s) (ks.getD 14 [])).map (BitVec.ofNat 8 ·)

/-! ## GCM -/

/-- Multiply in the GCM field; bit 127 of a block is its first bit. -/
def gcmMul (x y : Nat) : Nat :=
  ((List.range 128).foldl (fun (s : Nat × Nat) i =>
    (if x.testBit (127 - i) then s.1 ^^^ s.2 else s.1, if s.2 % 2 = 1 then (s.2 / 2) ^^^ (0xE1 * 2 ^ 120) else s.2 / 2)) (0, y)).1

/-- GHASH over padded blocks. -/
def ghash (h : Nat) (bs : Bytes) : Nat :=
  (chunksOf 16 (bs.length / 16 + 1) bs).foldl (fun a b => gcmMul (a ^^^ beNat (slice b 0 16)) h) 0

def pad16 (b : Bytes) : Bytes := b ++ zeros ((16 - b.length % 16) % 16)

/-- The key stream of a text, counter 2 on, XORed into it. -/
def gcmCrypt (key iv text : Bytes) : Bytes :=
  let ks := aesKeys key
  ((chunksOf 16 (text.length / 16 + 1) text).zipIdx.flatMap (fun (b, i) =>
    (b.zip (aesBlock ks (slice iv 0 12 ++ beBytes 4 (i + 2)))).map (fun (x, y) => x ^^^ y)))

/-- The 16-byte tag over additional data and ciphertext. -/
def gcmTag (key iv aad cipher : Bytes) : Bytes :=
  let ks := aesKeys key
  let h := beNat (aesBlock ks (zeros 16))
  let s := ghash h (pad16 aad ++ pad16 cipher ++ beBytes 8 (8 * aad.length) ++ beBytes 8 (8 * cipher.length))
  beBytes 16 (s ^^^ beNat (aesBlock ks (slice iv 0 12 ++ beBytes 4 1)))

/-! ## P-384 -/

def pP : Nat := 0xfffffffffffffffffffffffffffffffffffffffffffffffffffffffffffffffeffffffff0000000000000000ffffffff
def pN : Nat := 0xffffffffffffffffffffffffffffffffffffffffffffffffc7634d81f4372ddf581a0db248b0a77aecec196accc52973
def pB : Nat := 0xb3312fa7e23ee7e4988e056be3f82d19181d9c6efe8141120314088f5013875ac656398d8a2ed19d2a85c8edd3ec2aef
def pG : Nat × Nat :=
  (0xaa87ca22be8b05378eb1c71ef320ad746e1d3b628ba79b9859f741e082542a385502f25dbf55296c3a545e3872760ab7,
   0x3617de4a96262c6f5d9e98bf9292dc29f8f41dbd289a147ce9da3113b5f0b8c00a60b1ce1d7e819d7a431d7c90ea0e5f)

/-- x^e mod m over the low n bits of e, from the top. -/
def powMod (m x e : Nat) : Nat → Nat
  | 0 => 1 % m
  | n + 1 =>
    -- the bits of e above bit n first
    let r := powMod m x (e / 2) n
    let r2 := r * r % m
    if e % 2 = 1 then r2 * x % m else r2

/-- The inverse modulo a prime. -/
def invMod (m x : Nat) : Nat := powMod m (x % m) (m - 2) 385

def subMod (m a b : Nat) : Nat := (a + (m - b % m)) % m

/-- A point; none is the point at infinity. -/
abbrev EPt := Option (Nat × Nat)

/-- The sum of two points. -/
def ptAdd : EPt → EPt → EPt
  | none, q => q
  | p, none => p
  | some (x1, y1), some (x2, y2) =>
    if x1 = x2 ∧ (y1 + y2) % pP = 0 then none
    else
      let l := if x1 = x2 then (3 * x1 * x1 + (pP - 3)) % pP * invMod pP (2 * y1) % pP
        else subMod pP y2 y1 * invMod pP (subMod pP x2 x1) % pP
      let x3 := subMod pP (subMod pP (l * l) x1) x2
      some (x3, subMod pP (l * subMod pP x1 x3) y1)

/-- k × P by doubling, over n bits of k. -/
def ptMul (k : Nat) (p : EPt) : Nat → EPt
  | 0 => none
  | n + 1 =>
    let q := ptMul (k / 2) p n
    let q2 := ptAdd q q
    if k % 2 = 1 then ptAdd q2 p else q2

def p384 (k : Nat) (p : Nat × Nat) : EPt := ptMul k (some p) 384

/-- A point uncompressed (R519), and back. -/
def ptBytes : EPt → Bytes
  | some (x, y) => [4] ++ beBytes 48 x ++ beBytes 48 y
  | none => zeros 97
def ptX (b : Bytes) : Nat := be b 1 48
def ptY (b : Bytes) : Nat := be b 49 48

/-- R520 checks 1 and 2: the status, 0 when the point is good. -/
def pointStatus (b : Bytes) : Nat :=
  if b.length ≠ 97 ∨ be b 0 1 ≠ 4 ∨ pP ≤ ptX b ∨ pP ≤ ptY b then 0x0602
  else if (ptY b * ptY b) % pP ≠ (ptX b * ptX b % pP * ptX b + (pP - 3) * ptX b + pB) % pP then 0x0603
  else 0

/-- R520 check 3. -/
def scalarOk (k : Nat) : Bool := decide (1 ≤ k ∧ k < pN)

/-- The public point of a scalar. -/
def pubOf (k : Nat) : Bytes := ptBytes (p384 k pG)

/-- ECDSA: the signature r ∥ s of a 48-byte digest with a nonce. -/
def ecdsaSign (dk nonce : Nat) (digest : Bytes) : Bytes :=
  let r := match p384 nonce pG with | some (x, _) => x % pN | none => 0
  let s := invMod pN nonce * (beNat digest + r * dk) % pN
  beBytes 48 r ++ beBytes 48 s

/-- ECDSA verification under a point (R520 check 4). -/
def ecdsaVerify (pt digest sig : Bytes) : Bool :=
  let r := be sig 0 48
  let s := be sig 48 48
  if !scalarOk r || !scalarOk s then false
  else
    let w := invMod pN s
    match ptAdd (p384 (beNat digest * w % pN) pG) (p384 (r * w % pN) (ptX pt, ptY pt)) with
    | some (x, _) => x % pN == r
    | none => false

/-- Verify a signature, all checks of R520 in order: the status, 0 for PASS. -/
def verifyStatus (pt digest sig : Bytes) : Nat :=
  let st := pointStatus pt
  if st ≠ 0 then st else if ecdsaVerify pt digest sig then 0 else 0x0604

end Sys2Proof.Machine
end

