-- ==== Sys2Proof/Machine/Keys.lean ====
section
/-! DEFINITION. Key slots (R507 to R511), the queue and the cores of the public-key engine (R519), and the
commands that use them: `KEY_GENERATE`, `KEY_DESTROY`, `ATTEST`; the entropy source (R516). -/

namespace Sys2Proof.Machine

/-! ## Key slots (R507 to R509) -/

/-- Use a key slot: its CRC is checked (R509). -/
def Dev.useKey (d : Dev) (k : Nat) : Dev × Except Nat KeyVal :=
  match d.key k with
  | none => (d, .error 0x0605)
  | some x => if x.bad then (d.setKey k 0 none, .error 0x060F) else (d, .ok x.val)

/-- The key slot a cipher request names. -/
def CReq.key : CReq → Nat
  | .sealFrame _ k _ _ _ _ => k
  | .openFrame _ k _ => k
  | .core r _ => le r 2 2

/-- The slots a public-key operation will fill. -/
def PkUse.fills : PkUse → Option Nat
  | .generate _ _ k => some k
  | .import_ _ _ k => some k
  | _ => none

/-- Every public-key operation waiting or running. -/
def Dev.pkOps (d : Dev) : List PkOp := d.sec.pkQueue ++ d.sec.pkCores.filterMap (·.2)

/-- Does any cipher request, or an operation that fills it, name key slot k? -/
def Dev.keyNamed (d : Dev) (k : Nat) : Bool :=
  d.sec.queues.any (fun q => q.2.any (fun r => r.key == k))
    || d.sec.pairs.any (fun p => match p.2 with | some r => r.key == k | none => false)
    || d.pkOps.any (fun o => o.use.fills == some k)

/-- Is a key slot FREE, with no operation that will fill it? -/
def Dev.keyFree (d : Dev) (k : Nat) : Bool := (d.key k).isNone && !d.pkOps.any (fun o => o.use.fills == some k)

/-- The lowest FREE slot from 16 upward. -/
def Dev.lowestKey (d : Dev) : Option Nat := ((List.range 1008).map (· + 16)).find? (d.keyFree ·)

/-- Does a partner slot in HANDSHAKE or OPEN use a SESSION slot? -/
def Dev.sessionUsed (d : Dev) (k : Nat) : Bool :=
  d.wxu.slots.any (fun e => (d.get (WXU.SLOT_STATE.STATE e.1) == 1 || d.get (WXU.SLOT_STATE.STATE e.1) == 2)
    && d.get (WXU.SLOT_KEY.KEY_SLOT e.1) == k)

/-- SESSION slots whose partner slot is gone and whose requests have completed are zeroised (R511). -/
def Dev.freeSessions (d : Dev) : Dev :=
  d.each d.sec.keys (fun d e => match e.2 with
    | some ⟨.session _, _⟩ => if d.sessionUsed e.1 || d.keyNamed e.1 then d else d.setKey e.1 0 none
    | _ => d)

/-- KEY_DESTROY commands that wait for the requests naming their slot (R511). -/
def Dev.keyWaiters (d : Dev) : List Nat :=
  (d.cmd.inflight.filter (fun f => f.opcode == 0x0603 && f.gate == .unit && f.res.isNone)).map (fun f => opnd f.ops 16 2)

/-- After requests have completed: free what waited for them. -/
def Dev.keyRelease (d : Dev) : Dev :=
  (d.each d.keyWaiters (fun d k =>
    if d.keyNamed k then d
    else (d.setKey k 0 none).unitDone 0x0603 (fun f => opnd f.ops 16 2 == k) (okU []))).freeSessions

/-! ## The device identity (R508, R634) -/

/-- The private scalar of the device identity key. -/
def dikScalar : Nat := 1 + Config.dik % (pN - 1)

/-- Is slot 0 usable? -/
def Dev.dikReady (d : Dev) : Bool := d.flag SEC.STATE.DIK_LOADED && !d.flag SEC.STATE.IDENTITY_LOCKED

/-- Entropy health tests passing (R516). -/
def Dev.entropyOk (d : Dev) : Bool := d.flag SEC.STATE.ENTROPY_OK

/-- A fresh scalar from 1 to n − 1. -/
def Dev.drawScalar (d : Dev) : Nat × Dev :=
  let (v, d) := d.draw
  (1 + v % (pN - 1), d)

/-! ## The public-key engine (R519) -/

/-- Put an operation into the queue. -/
def Dev.pkAdd (d : Dev) (o : PkOp) : Dev := { d with sec.pkQueue := d.sec.pkQueue ++ [o] }

def pkDflt : Nat → Option PkOp := fun _ => none
def Dev.pkCore (d : Dev) (c : Nat) : Option PkOp := smapGet pkDflt d.sec.pkCores c

/-- Give a core an operation, or free it. -/
def Dev.setPkCore (d : Dev) (c : Nat) (o : Option PkOp) : Dev :=
  let d := { d with sec.pkCores := smapSet pkDflt d.sec.pkCores c o }
  d.set SEC.STATE.PK_BUSY d.sec.pkCores.length

/-- The private scalar of a key slot (R507), or the status of a use of it (R509, R537). -/
def Dev.privateKey (d : Dev) (k : Nat) : Dev × Except Nat Bytes :=
  match d.useKey k with
  | (d, .ok (.priv x _)) => (d, .ok x)
  | (d, .ok .identity) => (d, if d.flag SEC.STATE.IDENTITY_LOCKED then .error 0x0614 else .ok (beBytes 48 dikScalar))
  | (d, .ok _) => (d, .error 0x0605)
  | (d, .error st) => (d, .error st)

/-- Is a core in service: not under review, nor out for a PERMANENT verdict (R597, R598)? -/
def Dev.pkInService (d : Dev) (c : Nat) : Bool :=
  !d.csv.reviews.contains (uPk c) && d.get (suspLevel (uPk c)) != 3 && !d.csv.acquitted.contains (uPk c)

/-- An operation of a kind starts on a free core: the one at the front of the queue when it is of that
kind, or, with nothing queued, a control core's own (R519). -/
def Dev.pkStart (d : Dev) (k : PkKind) (c : Nat) (own : Dev → Dev × PkOp) : Dev :=
  if 4 ≤ c ∨ (d.pkCore c).isSome ∨ !d.pkInService c then d
  else match d.sec.pkQueue with
    | [] =>
      let (d, o) := own d
      d.setPkCore c (some o)
    | o :: os => if o.kind = k then { d with sec.pkQueue := os }.setPkCore c (some o) else d

/-- A control core's operation on the inputs given. -/
def ownOp (k : PkKind) (x pt dg sg : Bytes) (d : Dev) : Dev × PkOp := (d, ⟨k, x, pt, dg, sg, .core 0⟩)
/-- A control core's operation under a private key slot. -/
def slotOp (k : PkKind) (slot : Nat) (pt dg : Bytes) (d : Dev) : Dev × PkOp :=
  match d.privateKey slot with
  | (d, .ok x) => (d, ⟨k, x, pt, dg, [], .core 0⟩)
  | (d, .error st) => (d, ⟨k, [], pt, dg, [], .core st⟩)

/-- PK_SCALARMULT (R519). -/
def execPkScalarmult (a : PkScalarArgs) (s : State) : Host.Outcome State Fault Refusal :=
  .next (s.onDev (·.pkStart .scalarmult a.core (ownOp .scalarmult a.scalar a.point [] [])))
/-- PK_KEYGEN (R519). -/
def execPkKeygen (c : Nat) (s : State) : Host.Outcome State Fault Refusal :=
  .next (s.onDev (·.pkStart .keygen c (ownOp .keygen [] [] [] [])))
/-- PK_ECDH (R519). -/
def execPkEcdh (a : PkSlotArgs) (s : State) : Host.Outcome State Fault Refusal :=
  .next (s.onDev (·.pkStart .ecdh a.core (slotOp .ecdh a.slot a.input [])))
/-- PK_SIGN (R519). -/
def execPkSign (a : PkSlotArgs) (s : State) : Host.Outcome State Fault Refusal :=
  .next (s.onDev (·.pkStart .sign a.core (slotOp .sign a.slot [] a.input)))
/-- PK_VERIFY (R519). -/
def execPkVerify (a : PkVerifyArgs) (s : State) : Host.Outcome State Fault Refusal :=
  .next (s.onDev (·.pkStart .verify a.core (ownOp .verify [] a.point a.digest a.sig)))
/-- PK_VALIDATE (R519). -/
def execPkValidate (a : PkPointArgs) (s : State) : Host.Outcome State Fault Refusal :=
  .next (s.onDev (·.pkStart .validate a.core (ownOp .validate [] a.point [] [])))
/-- PK_HKDF (R526). -/
def execPkHkdf (c : Nat) (s : State) : Host.Outcome State Fault Refusal :=
  .next (s.onDev (·.pkStart .hkdf c (ownOp .hkdf [] [] [] [])))

/-- The status of an operation's checks (R520): 0 when all pass. Randomness that cannot be drawn gives
0x0613 (R516). -/
def Dev.pkStatus (d : Dev) (o : PkOp) : Nat :=
  match o.kind with
  | .keygen => if d.entropyOk then 0 else 0x0613
  | .sign => if !scalarOk (beNat o.scalar) then 0x0601 else if d.entropyOk then 0 else 0x0613
  | .scalarmult | .ecdh =>
    let st := pointStatus o.point
    if st ≠ 0 then st else if scalarOk (beNat o.scalar) then 0 else 0x0601
  | .verify => verifyStatus o.point o.digest o.sig
  | .validate => pointStatus o.point
  | .hkdf => 0

/-- A control core's operation ends: its status and output (R519). The inputs and outputs of an HKDF of its own no
rule lists (log 96). -/
def Dev.coreResult (d : Dev) (o : PkOp) (st : Nat) : Dev :=
  let q : EPt := p384 (beNat o.scalar) (ptX o.point, ptY o.point)
  let (out, d) : Bytes × Dev :=
    if st ≠ 0 then ([], d)
    else match o.kind with
      | .scalarmult => (ptBytes q, d)
      | .ecdh => (slice (ptBytes q) 1 48, d)
      | .keygen =>
        let (x, d) := d.drawScalar
        (beBytes 48 x ++ pubOf x, d)
      | .sign =>
        let (k, d) := d.drawScalar
        (ecdsaSign (beNat o.scalar) k o.digest, d)
      | .verify | .validate | .hkdf => ([], d)
  { d with sec.coreDone := (st, out) }

/-- Count an operation that has completed. -/
def Dev.pkCount (d : Dev) (st : Nat) : Dev :=
  (d.bump SEC.PK_OPS.COUNT 1).when (decide (0x0601 ≤ st ∧ st ≤ 0x0603)) (·.bump SEC.PK_INVALID.COUNT 1)

/-! ## KEY_GENERATE (R510) -/

/-- Operand checks of KEY_GENERATE that give 0x0107. -/
def Dev.keyOperandsOk (d : Dev) (ops : Bytes) : Bool :=
  let k := opnd ops 16 2
  let ty := opnd ops 18 1
  (k == 0xFFFF || decide (k ≤ 1023)) && decide (1 ≤ ty ∧ ty ≤ 3) && opndZero ops 19 1 && (d.job (opnd ops 20 2)).isSome
    && opndZero ops 22 2 && opndZero ops 32 32 && (ty != 1 || opndZero ops 24 8)

/-- The slot KEY_GENERATE fills, or a status. -/
def Dev.keyTarget (d : Dev) (k : Nat) : Except Nat Nat :=
  if k = 0xFFFF then match d.lowestKey with
    | some k => .ok k
    | none => .error 0x0606
  else if d.keyFree k then .ok k else .error 0x060E

/-- KEY_GENERATE's effect. -/
def Dev.keyGenerate (d : Dev) (dom : Nat) (o : Origin) (ops : Bytes) : Dev × Answer :=
  let ty := opnd ops 18 1
  let owner := opnd ops 20 2
  let a := opnd ops 24 8
  if opnd ops 16 2 < 16 then (d, .now (errR 0x0105))
  else if !d.keyOperandsOk ops then (d, .now (errR 0x0107))
  else match d.keyTarget (opnd ops 16 2) with
    | .error st => (d, .now (errR st))
    | .ok k =>
      if ty = ktAES then
        if !d.entropyOk then (d, .now (errR 0x0613))
        else
          let (key, d) := d.drawBytes 32
          (d.setKey k owner (some ⟨.aes key, false⟩), .now (okR k))
      else if ty = ktPRIV then
        match d.xlate (hifAcc 2 dom) a 97 with
        | (d, .error e) => (d, .now (errA (causeStatus e.cause) e.addr))
        | (d, .ok _) => (d.pkAdd ⟨.keygen, [], [], [], [], .generate o ops k⟩, .unit [(a, 97)])
      else match d.fetch (hifAcc 1 dom) a 97 with
        | (d, .error (st, x)) => (d, .now (errA st x))
        | (d, .ok pt) => (d.pkAdd ⟨.validate, [], pt, [], [], .import_ o ops k⟩, .unit [(a, 97)])

/-- KEY_GENERATE (R510). -/
def execKeyGenerate (o : Origin) (ops : Bytes) (s : State) : Host.Outcome State Fault Refusal :=
  .next (s.onDev (fun d => d.command 0x0601 o ops (fun d' => d'.keyGenerate (d.domOf (d.jobOf o)) o ops)))

/-- End a command that the public-key engine has served. -/
def Dev.pkCommand (d : Dev) (opc : Nat) (o : Origin) (ops : Bytes) (r : Result) : Dev :=
  d.unitDone opc (fun f => f.org == o && f.ops == ops) r

/-- The generated pair is stored and its point written. -/
def Dev.keyGenerated (d : Dev) (o : Origin) (ops : Bytes) (k st : Nat) : Dev :=
  if st ≠ 0 then d.pkCommand 0x0601 o ops (errR st)
  else
    let (x, d) := d.drawScalar
    let pt := pubOf x
    match d.deposit (hifAcc 2 (d.domOf (d.jobOf o))) (opnd ops 24 8) pt with
    | (d, some (st, a)) => d.pkCommand 0x0601 o ops (errA st a)
    | (d, none) => (d.setKey k (opnd ops 20 2) (some ⟨.priv (beBytes 48 x) pt, false⟩)).pkCommand 0x0601 o ops (okR k)

/-- The imported point is stored when it is valid. -/
def Dev.keyImported (d : Dev) (o : Origin) (ops : Bytes) (k st : Nat) (pt : Bytes) : Dev :=
  if st ≠ 0 then d.pkCommand 0x0601 o ops (errR st)
  else (d.setKey k (opnd ops 20 2) (some ⟨.pub pt, false⟩)).pkCommand 0x0601 o ops (okR k)

/-! ## KEY_DESTROY (R511) -/

/-- KEY_DESTROY's effect: at once, or when the requests that name the slot have completed. -/
def Dev.keyDestroy (d : Dev) (job : Nat) (ops : Bytes) : Dev × Answer :=
  let k := opnd ops 16 2
  if k < 16 then (d, .now (errR 0x0105))
  else if 1023 < k then (d, .now (errR 0x0107))
  else match d.key k with
    | none => (d, .now (errR 0x0605))
    | some x =>
      if x.val.type = ktSESSION ∧ d.sessionUsed k then (d, .now (errR 0x060E))
      else if d.get (SEC.KEY_TYPE.OWNER k) ≠ job then (d, .now (errR 0x0211))
      else if d.keyNamed k then (d, .unit [])
      else (d.setKey k 0 none, .now (okU []))

/-- KEY_DESTROY (R511). -/
def execKeyDestroy (o : Origin) (ops : Bytes) (s : State) : Host.Outcome State Fault Refusal :=
  .next (s.onDev (fun d => d.command 0x0603 o ops (fun d' => d'.keyDestroy (d.jobOf o) ops)))

/-! ## ATTEST (R536) -/

/-- The domain of ATTEST: the ring owner's job's, or on the mailbox BAR2_CTL.DOMAIN. -/
def Dev.attestDom (d : Dev) (o : Origin) : Nat :=
  match o.chan with
  | .mailbox => d.get HIF.BAR2_CTL.DOMAIN
  | .ring _ => d.domOf (d.jobOf o)

/-- Bytes 0 to 319 of the record. -/
def Dev.attestBody (d : Dev) (nonce : Bytes) : Bytes :=
  let im := d.cmd.image.getD ⟨0, 0, 0, 0, 0, 0, []⟩
  leBytes 4 0x54535441 ++ leBytes 2 1 ++ leBytes 1 (b2n d.sec.debugged) ++ leBytes 1 (d.get SEC.FW_SVN.COUNT)
    ++ leBytes 8 Config.serial.toNat ++ leBytes 8 d.now ++ leBytes 4 (assembly d.code)
    ++ leBytes 4 im.version ++ leBytes 4 im.svn ++ leBytes 1 im.keyIndex ++ zeros 27 ++ slice im.digest 0 48
    ++ slice nonce 0 48 ++ pubOf dikScalar ++ zeros 63

/-- ATTEST's effect: the ranges are checked, the nonce read, and the signature begun. -/
def Dev.attest (d : Dev) (o : Origin) (ops : Bytes) : Dev × Answer :=
  let out := opnd ops 16 8
  let non := opnd ops 24 8
  let dom := d.attestDom o
  if d.flag SEC.STATE.IDENTITY_LOCKED then (d, .now (errR 0x0614))
  else if !d.flag SEC.STATE.DIK_LOADED then (d, .now (errR 0x0605))
  else if !opndZero ops 32 32 then (d, .now (errR 0x0107))
  else match d.xlate (hifAcc 2 dom) out 512 with
    | (d, .error e) => (d, .now (errA (causeStatus e.cause) e.addr))
    | (d, .ok _) => match d.fetch (hifAcc 1 dom) non 48 with
      | (d, .error (st, a)) => (d, .now (errA st a))
      | (d, .ok nonce) => (d.pkAdd ⟨.sign, beBytes 48 dikScalar, [], nonce, [], .attest o ops⟩, .unit [(out, 512), (non, 48)])

/-- ATTEST (R536). -/
def execAttest (o : Origin) (ops : Bytes) (s : State) : Host.Outcome State Fault Refusal :=
  .next (s.onDev (·.command 0x0604 o ops (·.attest o ops)))

/-- The record is signed and written. -/
def Dev.attested (d : Dev) (o : Origin) (ops nonce : Bytes) (st : Nat) : Dev :=
  if d.flag SEC.STATE.IDENTITY_LOCKED then d.pkCommand 0x0604 o ops (errR 0x0614)
  else if st ≠ 0 then d.pkCommand 0x0604 o ops (errR st)
  else
    let body := d.attestBody nonce
    let (k, d) := d.drawScalar
    let r := body ++ ecdsaSign dikScalar k (sha384 body) ++ zeros 96
    match d.deposit (hifAcc 2 (d.attestDom o)) (opnd ops 16 8) r with
    | (d, some (st, a)) => d.pkCommand 0x0604 o ops (errA st a)
    | (d, none) => d.pkCommand 0x0604 o ops (okU [])

/-! ## Entropy (R516) -/

/-- ENTROPY_FAIL (R516): the health tests fail. -/
def execEntropyFail (s : State) : Host.Outcome State Fault Refusal :=
  .next (s.onDev (fun d => (d.set SEC.STATE.ENTROPY_OK 0).eventOpen 0x0613))

/-- ENTROPY_TESTS_PASSING (R516): the health tests pass. -/
def execEntropyTestsPassing (s : State) : Host.Outcome State Fault Refusal :=
  .next (s.onDev (·.set SEC.STATE.ENTROPY_OK 1))

end Sys2Proof.Machine
end

