-- ==== Sys2Proof/Machine/Exchange.lean ====
section
/-! DEFINITION. Partner stream slots (R483, R505) and the sending side of TXP: frames (R479 to R482), the
seal queue and the rekeys (R512 to R518, R529, R530), acknowledgements and NACKs sent (R490, R491), credit
and the active set (R494 to R499), fragments sent and their timers (R492, R493, R500, R501). -/

namespace Sys2Proof.Machine

/-! ## Slots (R483) -/

def wsFREE : Nat := 0
def wsHANDSHAKE : Nat := 1
def wsOPEN : Nat := 2
def wsQUARANTINE : Nat := 3

def pslotDflt : Nat → Option PSlot := fun _ => none
def Dev.pslot (d : Dev) (s : Nat) : Option PSlot := smapGet pslotDflt d.wxu.slots s
def Dev.setPslot (d : Dev) (s : Nat) (p : Option PSlot) : Dev := { d with wxu.slots := smapSet pslotDflt d.wxu.slots s p }
/-- Change a slot's record. -/
def Dev.onPslot (d : Dev) (s : Nat) (f : PSlot → PSlot) : Dev :=
  match d.pslot s with
  | some p => d.setPslot s (some (f p))
  | none => d

def Dev.slotState (d : Dev) (s : Nat) : Nat := d.get (WXU.SLOT_STATE.STATE s)
def Dev.slotGen (d : Dev) (s : Nat) : Nat := d.get (WXU.SLOT_STATE.GEN s)
def Dev.slotOpen (d : Dev) (s : Nat) : Bool := d.slotState s == wsOPEN
/-- The slots that have been issued. -/
def Dev.slotNumbers (d : Dev) : List Nat := (d.wxu.slots.filter (fun e => e.2.isSome)).map (·.1)
def Dev.openSlots (d : Dev) : List Nat := d.slotNumbers.filter (d.slotOpen ·)

/-- A slot just issued. -/
def PSlot.fresh (addr port anchor job now : Nat) : PSlot :=
  { addr := addr, port := port, anchor := anchor, job := job, addedAt := now, lastUse := now, eph := [], hello := [],
    helloSends := 0, helloAt := 0, peerHello := [], peerAt := 0, peerOk := false, shared := [], mkOwn := [], mkPeer := [],
    chain0 := [], confirmed := false, confirmIn := [], confirmAt := 0, causes := [], hsAccepted := none, retryAt := none,
    rekeyDue := false, rekeyTo := 0, txSeq := 0, dseq := 0, kept := [], streams := [], peerCreditSeq := 0, accLimit := 0,
    wantAt := none, rate := 0, sentAt := now, gapAt := 0, rateAt := now, goneSent := [], deficit := 0, paceAt := 0, seenHi := 0, seen := [], prevHi := 0,
    prevSeen := [], relCum := 0, relAbove := [], arrived := [], gapNacks := [], ackCount := 0, ackSince := 0, marks := 0,
    creditSeq := 0, limitSent := 0, creditAt := now, heardAt := now, silent := false, authed := false, limitHit := false,
    srtt := 0, rttvar := 0, srttAt := 0, shortPosted := false, backlog := 0, wantedAt := none, activeAt := 0,
    leavingAt := none, rekeyCmd := none }

/-- The own cell number: that of ROUND_CONFIG; 0xFF while it is pending (R522). -/
def Dev.cfgCell (d : Dev) : Nat := match d.rnd.cfg with | some c => c.cell | none => 0xFF

/-- The cell number frames carry: the own one, or while no round is configured that of the endorsement. -/
def Dev.ownCell (d : Dev) : Nat :=
  match d.rnd.cfg, d.sec.endorsement with
  | some c, _ => c.cell
  | none, some e => le e 6 1
  | none, none => 0xFF

/-- FRAG_LOG2 and the fragment size of the round's configuration. -/
def Dev.fragLog (d : Dev) : Nat := match d.rnd.cfg with | some c => c.fragLog2 | none => 13
def Dev.fragSize (d : Dev) : Nat := 2 ^ d.fragLog

/-! ## Far ports (R475 to R478) -/

def Dev.farUp (d : Dev) (p : Nat) : Bool :=
  decide (p < farPorts d.code) && d.flag (WXU.FAR_STATE.UP p) && d.flag (WXU.FAR_STATE.ENABLE p) && !d.csv.reviews.contains (uFar p)
def Dev.farUps (d : Dev) : List Nat := (List.range (farPorts d.code)).filter (d.farUp ·)

/-- Line rate C of the far ports that are up, in MB/s. -/
def Dev.farRate (d : Dev) : Nat := 50000 * d.farUps.length

/-- The next far port in rotation, another than `but` when one is up (R478, R492). -/
def Dev.farNext (d : Dev) (but : Option Nat) : Option Nat :=
  let order := ((List.range 4).map (fun i => (d.wxu.rot + 1 + i) % 4)).filter (d.farUp ·)
  match order.find? (fun p => some p != but) with
  | some p => some p
  | none => order.head?

def Dev.farIp6 (d : Dev) (p : Nat) : Nat :=
  ((d.get (WXU.FAR_IP6.ADDR p 0) * 2 ^ 32 + d.get (WXU.FAR_IP6.ADDR p 1)) * 2 ^ 32
    + d.get (WXU.FAR_IP6.ADDR p 2)) * 2 ^ 32 + d.get (WXU.FAR_IP6.ADDR p 3)
def Dev.farGw (d : Dev) (p : Nat) : Nat := d.get2 (WXU.FAR_GW_LO.MAC p) (WXU.FAR_GW_HI.MAC p)

/-- An IPv4 packet carrying UDP: DF, TTL 64, ECT(0) (R476, R479); its identification is 0, as for any packet
that is never fragmented. -/
def ip4Udp (src dst dscp sport dport : Nat) (pay : Bytes) : Bytes :=
  let len := 8 + pay.length
  let u := beBytes 2 sport ++ beBytes 2 dport ++ beBytes 2 len
  let sum := udpSum (beBytes 4 src ++ beBytes 4 dst ++ [0, 17] ++ beBytes 2 len) (u ++ [0, 0] ++ pay)
  let h (c : Nat) : Bytes := [0x45, BitVec.ofNat 8 (dscp * 4 + 2)] ++ beBytes 2 (20 + len) ++ [0, 0, 0x40, 0, 64, 17] ++ beBytes 2 c
    ++ beBytes 4 src ++ beBytes 4 dst
  h (65535 - onesSum (h 0) 0) ++ u ++ beBytes 2 sum ++ pay

/-- Send a TXP packet of a slot on a far port (R476, R479). -/
def Dev.farSend (d : Dev) (slot port dscp : Nat) (pay : Bytes) : Dev :=
  match d.pslot slot with
  | none => d
  | some p =>
    let f := if d.flag (WXU.SLOT_STATE.IPV4 slot) then
        ether (d.farGw port) (portMac (16 + port)) 0x0800 (ip4Udp (d.get (WXU.FAR_IP4.ADDR port)) p.addr dscp (0xC000 + slot) p.port pay)
      else ether (d.farGw port) (portMac (16 + port)) 0x86DD
        (ip6Udp (d.farIp6 port) p.addr dscp (Config.flowLabel slot port).toNat (0xC000 + slot) p.port pay)
    ((d.emit (.farFrame port f)).bump (WXU.FAR_TX.COUNT port) 1).onPslot slot (fun p => { p with sentAt := d.now })

/-! ## TXP frames (R479 to R482) -/

def tkDELTA : Nat := 1
def tkLOAN : Nat := 2
def tkACK : Nat := 3
def tkNACK : Nat := 4
def tkCREDIT : Nat := 5
def tkWANT : Nat := 6
def tkGONE : Nat := 7
def tkPROBE : Nat := 8
def tkREPLY : Nat := 9
def tkHANDSHAKE : Nat := 10

/-- The 48-byte header. KEY_PHASE and TX_SEQ are filled in as the frame is sealed. -/
def txpHeader (kind flags recv rgen sgen send epoch frag cell dseq acc shard ix len stream : Nat) : Bytes :=
  beBytes 1 (16 + kind) ++ beBytes 1 flags ++ beBytes 2 recv ++ beBytes 1 rgen ++ beBytes 1 sgen ++ beBytes 2 send
    ++ beBytes 2 epoch ++ beBytes 1 frag ++ beBytes 1 cell ++ zeros 4 ++ beBytes 4 dseq ++ beBytes 4 acc ++ beBytes 4 shard
    ++ beBytes 4 ix ++ beBytes 2 len ++ zeros 6 ++ beBytes 8 stream

def hKind (h : Bytes) : Nat := be h 0 1 % 16
def hFlags (h : Bytes) : Nat := be h 1 1
def hRecv (h : Bytes) : Nat := be h 2 2
def hRecvGen (h : Bytes) : Nat := be h 4 1
def hSendGen (h : Bytes) : Nat := be h 5 1
def hSend (h : Bytes) : Nat := be h 6 2
def hEpoch (h : Bytes) : Nat := be h 8 2
def hFrag (h : Bytes) : Nat := be h 10 1
def hCell (h : Bytes) : Nat := be h 11 1
def hSeq (h : Bytes) : Nat := be h 12 4
def hDseq (h : Bytes) : Nat := be h 16 4
def hAcc (h : Bytes) : Nat := be h 20 4
def hShard (h : Bytes) : Nat := be h 24 4
def hFragIx (h : Bytes) : Nat := be h 28 4
def hLen (h : Bytes) : Nat := be h 32 2
def hStream (h : Bytes) : Nat := be h 40 8
def hPhase (h : Bytes) : Nat := b2n (bit (hFlags h) 2)
/-- Is a header one of DELTA or LOAN? -/
def hIsData (h : Bytes) : Bool := hKind h == tkDELTA || hKind h == tkLOAN

/-- A request's header. -/
def CReq.hdr : CReq → Bytes
  | .sealFrame _ _ _ h _ _ => h
  | .openFrame f _ _ => f.hdr
  | .core _ _ => []

def queueDflt : Nat → List CReq := fun _ => []
def pairDflt : Nat → Option CReq := fun _ => none
def Dev.cqueue (d : Dev) (q : Nat) : List CReq := smapGet queueDflt d.sec.queues q
def Dev.setCqueue (d : Dev) (q : Nat) (rs : List CReq) : Dev := { d with sec.queues := smapSet queueDflt d.sec.queues q rs }
def Dev.cpair (d : Dev) (p : Nat) : Option CReq := smapGet pairDflt d.sec.pairs p
def Dev.setCpair (d : Dev) (p : Nat) (r : Option CReq) : Dev := { d with sec.pairs := smapSet pairDflt d.sec.pairs p r }

/-- Queue a frame for sealing; control frames go ahead of DELTA and LOAN frames (R500). -/
def Dev.sealAdd (d : Dev) (slot port : Nat) (hdr text : Bytes) : Dev :=
  let r : CReq := .sealFrame slot (d.get (WXU.SLOT_KEY.KEY_SLOT slot)) port hdr text false
  let q := d.cqueue 1
  if hIsData hdr then d.setCqueue 1 (q ++ [r])
  else
    let n := (q.takeWhile (fun x => !hIsData x.hdr)).length
    d.setCqueue 1 (q.take n ++ [r] ++ q.drop n)

/-- The header of a slot's frame. -/
def Dev.slotHeader (d : Dev) (slot kind flags frag dseq acc shard ix len stream : Nat) : Bytes :=
  txpHeader kind flags (d.get (WXU.SLOT_PEER.PEER_SLOT slot)) (d.get (WXU.SLOT_PEER.PEER_GEN slot)) (d.slotGen slot) slot
    (d.get WXU.EPOCH.CURRENT) frag d.ownCell dseq acc shard ix len stream

/-- Send a control frame on an OPEN slot; nothing leaves while no far port is up. -/
def Dev.txpCtl (d : Dev) (slot kind : Nat) (pay : Bytes) : Dev :=
  if !d.slotOpen slot then d
  else match d.farNext none with
    | none => d
    | some p => { d with wxu.rot := p }.sealAdd slot p (d.slotHeader slot kind 0 0 0 0 0 0 pay.length 0) pay

/-- Send an unsealed HANDSHAKE frame. -/
def Dev.sendHandshake (d : Dev) (slot recv rgen : Nat) (pay : Bytes) : Dev :=
  match d.farNext none with
  | none => d
  | some p => { d with wxu.rot := p }.farSend slot p (d.get WXU.DSCP.CTRL)
      (txpHeader tkHANDSHAKE 0 recv rgen (d.slotGen slot) slot (d.get WXU.EPOCH.CURRENT) 0 d.ownCell 0 0 0 0 pay.length 0 ++ pay)

/-! ## Keys of a session (R526, R529) -/

/-- Keys and salts of phase j from CS_j: (A>B key, A>B salt, B>A key, B>A salt), and CS_(j+1). -/
def phaseKeys (cs : Bytes) : Bytes × Bytes × Bytes × Bytes × Bytes :=
  (hkdfExpand cs (ascii "txp key A>B") 32, hkdfExpand cs (ascii "txp salt A>B") 4, hkdfExpand cs (ascii "txp key B>A") 32,
    hkdfExpand cs (ascii "txp salt B>A") 4, hkdfExpand cs (ascii "txp next") 48)

/-- A session that enters phase j under CS_j. -/
def Session.enter (s : Session) (j now : Nat) (prev : Option (Bytes × Bytes)) : Session :=
  let (kab, sab, kba, sba, next) := phaseKeys s.chain
  if s.roleA then { s with phase := j, txKey := kab, txSalt := sab, rxKey := kba, rxSalt := sba, prev := prev, movedAt := now, chain := next, authed := false }
  else { s with phase := j, txKey := kba, txSalt := sba, rxKey := kab, rxSalt := sab, prev := prev, movedAt := now, chain := next, authed := false }

/-- The inbound key and salt of phase j + 1. -/
def Session.nextRx (s : Session) : Bytes × Bytes :=
  let (kab, sab, kba, sba, _) := phaseKeys s.chain
  if s.roleA then (kba, sba) else (kab, sab)

/-- The session of a slot, with its key slot. -/
def Dev.session (d : Dev) (slot : Nat) : Option (Nat × Session) :=
  let k := d.get (WXU.SLOT_KEY.KEY_SLOT slot)
  match d.key k with
  | some ⟨.session s, false⟩ => some (k, s)
  | _ => none

def Dev.setSession (d : Dev) (k : Nat) (s : Session) : Dev := d.setKey k (d.get (SEC.KEY_TYPE.OWNER k)) (some ⟨.session s, false⟩)

/-- Move a slot to its next phase (R529): TX_SEQ starts again, the tag-failure count returns to 0. -/
def Dev.movePhase (d : Dev) (slot k : Nat) (s : Session) : Dev :=
  let s' := s.enter (s.phase + 1) d.now (some (s.rxKey, s.rxSalt))
  let d := (d.setSession k s').onPslot slot (fun p => { p with rekeyDue := false, txSeq := 0, prevHi := p.seenHi, prevSeen := p.seen, seenHi := 0, seen := [] })
  (d.set (WXU.SLOT_STATE.KEY_PHASE slot) (s'.phase % 2)).set (WXU.SLOT_KEY.AUTH_FAILS slot) 0

/-- Begin a rekey that is due when R529 allows it; none past phase 0xFFFF_FFFF (R530). -/
def Dev.tryRekey (d : Dev) (slot : Nat) : Dev :=
  match d.pslot slot, d.session slot with
  | some p, some (k, s) =>
    if !p.rekeyDue || !d.slotOpen slot then d
    else if 0xFFFFFFFF ≤ s.phase then (d.onPslot slot (fun p => { p with rekeyDue := false })).eventOpen 0x060D
    else if s.authed && s.prev.isNone then d.movePhase slot k s
    else d
  | _, _ => d

/-- A rekey becomes due. -/
def Dev.rekey (d : Dev) (slot : Nat) : Dev := (d.onPslot slot (fun p => { p with rekeyDue := true })).tryRekey slot

/-- End a REKEY command whose phase both directions use (R522). -/
def Dev.rekeyDone (d : Dev) (slot : Nat) : Dev :=
  match d.pslot slot, d.session slot with
  | some p, some (_, s) => match p.rekeyCmd with
    | some (o, ops) => if p.rekeyTo ≤ s.phase && s.authed then
        (d.onPslot slot (fun p => { p with rekeyCmd := none })).pkCommand 0x0602 o ops (okU []) else d
    | none => d
  | _, _ => d

/-! ## Sealing (R512 to R518) -/

/-- A free pair in rotation. -/
def Dev.freePair (d : Dev) (but : Option Nat) : Option Nat :=
  ((List.range 32).map (fun i => (d.sec.pairRot + 1 + i) % 32)).find? (fun p =>
    (d.cpair p).isNone && !(d.get SEC.PAIR_FAILED.MASK).testBit p && !d.csv.reviews.contains (uPair p) && some p != but)

/-- Put a request on a pair. -/
def Dev.pairTake (d : Dev) (p : Nat) (r : CReq) : Dev := { d with sec.pairRot := p }.setCpair p (some r)

/-- May a slot seal now (R530)? -/
def Dev.canSeal (d : Dev) (slot : Nat) : Bool := match d.pslot slot with | some p => decide (p.txSeq < 0xFFFFFFFF) | none => true

/-- Seal a frame under a session: the header as sent, and ciphertext with tag (R482). -/
def sealFrame (s : Session) (seq : Nat) (hdr text : Bytes) : Bytes × Bytes :=
  let h := patch (patch hdr 1 (beBytes 1 (putBits (hFlags hdr) 2 2 (s.phase % 2)))) 12 (beBytes 4 seq)
  let iv := s.txSalt ++ zeros 4 ++ beBytes 4 seq
  let c := gcmCrypt s.txKey iv text
  (h, c ++ gcmTag s.txKey iv h c)

/-- CIPHER_SEAL_REQUEST's effect: the oldest request of the queue whose slot may seal goes onto a pair.
A key slot that is empty or fails its CRC ends the request (R509, R514). -/
def Dev.sealRequest (d : Dev) (q : Nat) : Dev :=
  match (d.cqueue q).find? (fun r => match r with | .sealFrame s _ _ _ _ _ => d.canSeal s | .openFrame .. | .core .. => false), d.freePair none with
  | some (.sealFrame slot _ port hdr text _), some pr =>
    let r : CReq := .sealFrame slot (d.get (WXU.SLOT_KEY.KEY_SLOT slot)) port hdr text false
    let d := d.setCqueue q ((d.cqueue q).eraseP (fun x => match x with | .sealFrame a _ b h t _ => a == slot && b == port && h == hdr && t == text | _ => false))
    let d := match d.pslot slot with | some p => if 0xF0000000 ≤ p.txSeq + 1 then d.rekey slot else d | none => d
    match d.useKey r.key with
    | (d, .ok (.session s)) =>
      let seq := (match d.pslot slot with | some p => p.txSeq | none => 0) + 1
      let (h, c) := sealFrame s seq hdr text
      (d.onPslot slot (fun p => { p with txSeq := seq })).pairTake pr (.sealFrame slot r.key port h c false)
    | (d, _) => d
  | _, _ => d

/-- Count blocks in units of 2^20. -/
def Dev.countBlocks (d : Dev) (seal_ : Bool) (n : Nat) : Dev :=
  if seal_ then
    let t := d.sec.sealRem + n
    { d.bump SEC.SEAL_BLOCKS.COUNT (t / 1048576) with sec.sealRem := t % 1048576 }
  else
    let t := d.sec.openRem + n
    { d.bump SEC.OPEN_BLOCKS.COUNT (t / 1048576) with sec.openRem := t % 1048576 }

/-- A cipher fault on a pair (R517, R518): counted and recorded; a first one runs again on another pair.
`true`: the request ends with 0x0608. -/
def Dev.cipherFault (d : Dev) (pr : Nat) (r : CReq) : Dev × Bool :=
  let d := (d.setCpair pr none).bump SEC.CIPHER_FAULTS.COUNT 1
  let d := { d with sec.upset := d.sec.upset.filter (· != pr) }.fault (uPair pr) 0x0608 0
  let (rerun, r') : Bool × CReq := match r with
    | .sealFrame s k p h t x => (x, .sealFrame s k p h t true)
    | .openFrame f k x => (x, .openFrame f k true)
    | .core r x => (x, .core r true)
  if rerun then (d, true)
  else match d.freePair (some pr) with
    | some p2 => (d.pairTake p2 r', false)
    | none => match r' with
      | .sealFrame .. => (d.setCqueue 1 (r' :: d.cqueue 1), false)
      | .openFrame .. => (d.setCqueue 0 (r' :: d.cqueue 0), false)
      | .core .. => (d.setCqueue 2 (r' :: d.cqueue 2), false)

/-! ### Requests of the control cores (R513 to R515) -/

/-- Is a request of a control core good (R514, R515)? One acts on HBM alone: no read path leads from the vestibule to
a core (R486); the text of an OPEN goes through the 64 KiB hold buffer. -/
def coreReqOk (r : Bytes) : Bool :=
  let opn : Bool := le r 0 1 == 2
  decide (r.length = 64 ∧ (le r 0 1 = 1 ∨ le r 0 1 = 2) ∧ le r 1 1 < 4 ∧ le r 2 2 < 1024 ∧ le r 24 4 ≤ 4096 ∧ le r 58 1 = 0)
    && (opn || !bit (le r 1 1) 1) && decide (le r 28 4 ≤ if opn then 65536 else 16777216) && zeroBytes r 59 5

/-- A request ends: its status, and its tally with SIGNAL. -/
def Dev.coreEnd (d : Dev) (r : Bytes) (st : Nat) : Dev :=
  ({ d with sec.coreDone := (st, []) } : Dev).when (bit (le r 1 1) 0) (·.tallyAdd (le r 56 2) 1)

/-- A control core puts a request into queue 2, 256 entries; then the oldest goes onto a free pair when it is of the
kind asked for. -/
def Dev.coreRequest (d : Dev) (op : Nat) (r : Bytes) : Dev :=
  let d := if r.isEmpty then d
    else if !coreReqOk r || le r 0 1 != op then d.coreEnd r 0x0612
    else if 256 ≤ (d.cqueue 2).length then d
    else d.setCqueue 2 (d.cqueue 2 ++ [.core r false])
  match d.cqueue 2, d.freePair none with
  | .core r x :: rest, some pr => if le r 0 1 = op then (d.setCqueue 2 rest).pairTake pr (.core r x) else d
  | _, _ => d

/-- The key a request runs under. -/
def Dev.coreKey (d : Dev) (r : Bytes) : Dev × Except Nat Bytes :=
  match d.useKey (le r 2 2) with
  | (d, .ok (.aes k)) => (d, .ok k)
  | (d, .ok (.session s)) =>
    (d, if le r 0 1 = 1 then .ok s.txKey
      else if bit (le r 1 1) 1 then (match s.prev with | some (k, _) => .ok k | none => .error 0x0605)
      else .ok s.rxKey)
  | (d, .ok _) => (d, .error 0x0605)
  | (d, .error st) => (d, .error st)

/-- Read a flat range for a control core (R320); a codeword that gives no data ends the request (R343). -/
def Dev.coreRead (d : Dev) (flat n : Nat) : Dev × Except Nat Bytes :=
  match d.readSegs [(flat, n)] with
  | (d, some _) => (d, .error 0x0216)
  | (d, none) => (d, .ok (d.rawRead flat n))

/-- Run a request (R514, R515): the key, the additional data, the text and for OPEN the tag are read; the outputs are
written only when nothing failed. -/
def Dev.coreRun (d : Dev) (r : Bytes) : Dev × Nat :=
  let iv := slice r 4 12
  match d.coreKey r with
  | (d, .error st) => (d, st)
  | (d, .ok key) => match d.coreRead (le r 16 8) (le r 24 4) with
    | (d, .error st) => (d, st)
    | (d, .ok aad) => match d.coreRead (le r 32 8) (le r 28 4) with
      | (d, .error st) => (d, st)
      | (d, .ok text) =>
        let d := d.countBlocks (le r 0 1 == 1) (ceilDiv text.length 16)
        if le r 0 1 = 1 then
          let c := gcmCrypt key iv text
          ((d.store (le r 40 8) c).store (le r 48 8) (gcmTag key iv aad c), 0)
        else match d.coreRead (le r 48 8) 16 with
          | (d, .error st) => (d, st)
          | (d, .ok tag) =>
            if gcmTag key iv aad text = tag then (d.store (le r 40 8) (gcmCrypt key iv text), 0)
            else (d.bump SEC.TAG_FAILS.COUNT 1, 0x0607)

/-- A request of a control core completes on a pair. -/
def Dev.coreComplete (d : Dev) (pr : Nat) (r : Bytes) (x : Bool) : Dev :=
  if d.sec.upset.contains pr then
    match d.cipherFault pr (.core r x) with
    | (d, true) => (d.coreEnd r 0x0608).keyRelease
    | (d, false) => d
  else
    let (d, st) := (d.setCpair pr none).coreRun r
    (d.coreEnd r st).keyRelease

/-- CIPHER_SEAL_REQUEST (R514). -/
def execCipherSealRequest (r : CipherArgs) (s : State) : Host.Outcome State Fault Refusal :=
  .next (s.onDev (fun d => if r.queue = 2 then d.coreRequest 1 r.req else d.sealRequest r.queue))

/-- CIPHER_SEAL_COMPLETE's effect: the sealed frame leaves by its port, or another that is up. -/
def Dev.sealComplete (d : Dev) (pr : Nat) : Dev :=
  match d.cpair pr with
  | some (.sealFrame slot k port hdr text x) =>
    if d.sec.upset.contains pr then (d.cipherFault pr (.sealFrame slot k port hdr text x)).1.keyRelease
    else
      let d := (d.setCpair pr none).countBlocks true (ceilDiv (text.length - 16) 16)
      let d := if !d.slotOpen slot then d
        else match (if d.farUp port then some port else d.farNext none) with
          | none => d
          | some p =>
            let data := hIsData hdr
            (d.farSend slot p (if data then d.get WXU.DSCP.DATA else d.get WXU.DSCP.CTRL) (hdr ++ text)).when data
              (fun d => d.onPslot slot (fun q => { q with lastUse := d.now }))
      d.keyRelease
  | some (.core r x) => if le r 0 1 = 1 then d.coreComplete pr r x else d
  | _ => d

/-- CIPHER_SEAL_COMPLETE (R514). -/
def execCipherSealComplete (pair : Nat) (s : State) : Host.Outcome State Fault Refusal := .next (s.onDev (·.sealComplete pair))

/-! ## Round-trip time (R484, R466) -/

/-- Take a sample S, in ns. -/
def Dev.rttSample (d : Dev) (slot : Nat) (smp : Int) : Dev :=
  let d := d.onPslot slot (fun p =>
    let var := (p.rttvar : Int) + (((p.srtt : Int) - smp).natAbs - (p.rttvar : Int)) / 4
    let rtt := (p.srtt : Int) + (smp - p.srtt) / 8
    { p with rttvar := var.toNat, srtt := rtt.toNat })
  match d.pslot slot with
  | none => d
  | some p =>
    let d := d.set (WXU.SLOT_RTT.MICROSECONDS slot) (p.srtt / 1000)
    if d.get WXU.QUARANTINE.MILLISECONDS * 1000000 < p.srtt ∧ !p.shortPosted then
      (d.onPslot slot (fun p => { p with shortPosted := true })).event 0x050F slot
    else d

/-- The retransmission timer's start (R492), in ns. -/
def Dev.txpRto (d : Dev) (p : PSlot) : Nat := max (p.srtt + 4 * p.rttvar) (d.get WXU.RTO_MIN.MICROSECONDS * 1000)

/-! ## ACK, NACK, CREDIT, WANT, GONE, PROBE -/

/-- Is no far port up? Slots then keep their state, and what is due stays due (R478). -/
def Dev.farDown (d : Dev) : Bool := d.farUps.isEmpty

/-- Send the acknowledgement due on a slot (R480, R490). -/
def Dev.txpAck (d : Dev) (slot : Nat) : Dev :=
  match d.pslot slot with
  | none => d
  | some p =>
    if d.farDown then d else
    let sack := (List.range 64).foldl (fun a k => if p.relAbove.contains ((p.relCum + 1 + k) % 2 ^ 32) then a + 2 ^ k else a) 0
    let pay := beBytes 4 p.relCum ++ beBytes 8 sack ++ beBytes 2 (min p.marks 65535) ++ [0, 0]
    (d.onPslot slot (fun p => { p with ackCount := 0, marks := 0 })).txpCtl slot tkACK pay

/-- Advance CUM_DSEQ over the DSEQs released. -/
def relSlide : Nat → PSlot → PSlot
  | 0, p => p
  | n + 1, p =>
    let x := (p.relCum + 1) % 2 ^ 32
    if p.relAbove.contains x then
      relSlide n { p with relCum := x, relAbove := p.relAbove.filter (· != x), arrived := p.arrived.filter (·.1 != x) }
    else p

/-- Release a DSEQ (R490): the 16th since the last ACK sends one. -/
def Dev.release (d : Dev) (slot dseq : Nat) : Dev :=
  match d.pslot slot with
  | none => d
  | some p =>
    if p.relAbove.contains dseq ∨ psnDiff p.relCum dseq = 0 ∨ 2 ^ 31 ≤ psnDiff p.relCum dseq then d
    else
      let d := d.onPslot slot (fun p => relSlide (p.relAbove.length + 1)
        { p with relAbove := dseq :: p.relAbove, ackSince := if p.ackCount = 0 then d.now else p.ackSince, ackCount := p.ackCount + 1 })
      if 16 ≤ p.ackCount + 1 then d.txpAck slot else d

/-- TXP_ACK_TIMER (R490): 100 µs after the first release not acknowledged. -/
def Dev.ackDue (d : Dev) (slot : Nat) : Option Nat :=
  match d.pslot slot with
  | some p => if d.slotOpen slot && p.ackCount != 0 then some (p.ackSince + 100000) else none
  | none => none
def execTxpAckTimer (slot : Nat) (s : State) : Host.Outcome State Fault Refusal :=
  .next (s.atTime (s.dev.ackDue slot) (·.txpAck slot))

/-- Send NACK runs (first DSEQ, length) for a reason, 32 to a frame (R480, R491). -/
def Dev.txpNack (d : Dev) (slot reason : Nat) (runs : List (Nat × Nat)) : Dev :=
  d.each (chunksOf 32 runs.length runs) (fun d rs =>
    (d.bump WXU.NACKS_SENT.COUNT rs.length).txpCtl slot tkNACK
      (beBytes 1 rs.length ++ zeros 3 ++ rs.flatMap (fun r => beBytes 4 r.1 ++ beBytes 2 r.2 ++ beBytes 1 reason ++ [0])))

/-- Join ascending numbers into runs of at most 65,535. -/
def runsOf : List Nat → List (Nat × Nat)
  | [] => []
  | x :: xs => match runsOf xs with
    | (y, n) :: rs => if y = x + 1 ∧ n < 65535 then (x, n + 1) :: rs else (x, 1) :: (y, n) :: rs
    | [] => [(x, 1)]

/-- When each missing DSEQ of a slot falls due for a GAP NACK (R491): at once when 64 higher ones have
arrived, else 4 ms after the first higher one; never twice within sRTT. -/
def PSlot.gaps (p : PSlot) (now : Nat) : List (Nat × Nat) :=
  let offs := p.arrived.map (fun a => (psnDiff p.relCum a.1, a.2))
  let top := offs.foldl (fun m a => max m a.1) 0
  ((List.range top).filter (fun i => i != 0 && !offs.any (fun a => a.1 == i))).map (fun i =>
    let hi := offs.filter (fun a => decide (i < a.1))
    let t := if 64 ≤ hi.length then now else (hi.foldl (fun m a => min m a.2) (hi.headD (0, now)).2) + 4000000
    let x := (p.relCum + i) % 2 ^ 32
    (x, match p.gapNacks.find? (fun g => g.1 == x) with | some g => max t (g.2 + p.srtt) | none => t))

/-- Send the GAP NACKs that are due. -/
def Dev.gapNack (d : Dev) (slot : Nat) : Dev :=
  match d.pslot slot with
  | none => d
  | some p =>
    if d.farDown then d else
    let due := ((p.gaps d.now).filter (fun g => decide (g.2 ≤ d.now))).map (·.1)
    (d.onPslot slot (fun p => { p with gapNacks := p.gapNacks.filter (fun g => !due.contains g.1) ++ due.map (fun x => (x, d.now)) })).txpNack
      slot 1 (runsOf due)

/-- GAP_NACK_TIMER (R491). -/
def Dev.gapDue (d : Dev) (slot : Nat) : Option Nat :=
  match d.pslot slot with
  | some p => if d.slotOpen slot then ((p.gaps d.now).map (·.2)).min? else none
  | none => none
def execGapNackTimer (slot : Nat) (s : State) : Host.Outcome State Fault Refusal :=
  .next (s.atTime (s.dev.gapDue slot) (·.gapNack slot))

/-- The lowest accession not yet retired, of those held and the open one (R447, log 31). -/
def Dev.lowestAcc (d : Dev) : Nat :=
  let held := d.rnd.slots.filterMap (fun e => e.2.map (·.acc))
  let opn := if d.flag WXU.ROUND_STATE.OPEN then [d.get WXU.ROUND_OPEN_ACC.ACCESSION]
    else match d.rnd.opening with | some (a, _) => [a] | none => []
  match (held ++ opn).min? with
  | some a => a
  | none => match d.rnd.lastSealed with | some a => a + 1 | none => 0

/-- ACC_LIMIT (R447, R495): three accessions beyond it share no buffer with it. -/
def Dev.accLimit (d : Dev) : Nat := min 0xFFFFFFFF (d.lowestAcc + 3)

/-- Send a CREDIT (R495). -/
def Dev.sendCredit (d : Dev) (slot : Nat) : Dev :=
  match d.pslot slot with
  | none => d
  | some p =>
    if !d.slotOpen slot || d.farDown then d
    else
      let d := d.onPslot slot (fun p => { p with creditSeq := p.creditSeq + 1, creditAt := d.now, limitSent := d.accLimit })
      d.txpCtl slot tkCREDIT (beBytes 4 (p.creditSeq + 1) ++ beBytes 4 (d.get (WXU.SLOT_WINDOW.BYTES slot)) ++ beBytes 4 d.accLimit ++ zeros 4)

/-- A change of ACC_LIMIT goes to every OPEN slot. -/
def Dev.creditAll (d : Dev) : Dev :=
  d.each d.openSlots (fun d s => match d.pslot s with
    | some p => if p.limitSent = d.accLimit ∧ p.creditSeq ≠ 0 then d else d.sendCredit s
    | none => d)

/-- CREDIT_TIMER (R495): every 10 × sRTT, bounded to 1 ms to 100 ms. -/
def Dev.creditDue (d : Dev) (slot : Nat) : Option Nat :=
  match d.pslot slot with
  | some p => if d.slotOpen slot then some (p.creditAt + min 100000000 (max 1000000 (10 * p.srtt))) else none
  | none => none
def execCreditTimer (slot : Nat) (s : State) : Host.Outcome State Fault Refusal :=
  .next (s.atTime (s.dev.creditDue slot) (·.sendCredit slot))

/-- The stream of a shard and accession, if the slot still holds it. -/
def PSlot.stream (p : PSlot) (loan : Bool) (acc shard : Nat) : Option OutStream :=
  p.streams.find? (fun s => s.loan == loan && s.shard == shard && (loan || s.acc == acc))

/-- The length of fragment f of a stream. -/
def fragLen (q bytes f : Nat) : Nat := min q (bytes - f * q)

/-- Bytes unsent and bytes awaiting retransmission (R494), and the oldest accession with bytes unsent. -/
def Dev.backlogOf (d : Dev) (p : PSlot) : Nat :=
  p.streams.foldl (fun a s => a + s.todo.foldl (fun b f => b + fragLen d.fragSize s.bytes f) 0) 0
    + (p.kept.filter (fun k => k.again || k.due.isSome)).foldl (fun a k => a + k.len) 0
def PSlot.oldest (p : PSlot) : Nat := ((p.streams.filter (fun s => !s.todo.isEmpty)).map (·.acc)).min?.getD 0

/-- Send a WANT when the backlog first becomes nonzero (R494), and one that reports 0 when it has gone, as the slots of
R502's table do (log 95). -/
def Dev.wantCheck (d : Dev) (slot : Nat) (timer : Bool) : Dev :=
  match d.pslot slot with
  | none => d
  | some p =>
    if !d.slotOpen slot then d
    else
      let b := d.backlogOf p
      let pay := beBytes 8 b ++ beBytes 4 p.oldest ++ zeros 4
      if b = 0 then if p.wantAt.isSome then (d.onPslot slot (fun p => { p with wantAt := none })).txpCtl slot tkWANT pay else d
      else if p.wantAt.isSome && !timer then d
      else (d.onPslot slot (fun p => { p with wantAt := some d.now })).txpCtl slot tkWANT pay

/-- WANT_TIMER (R494): every 100 ms while the backlog stays nonzero. -/
def Dev.wantDue (d : Dev) (slot : Nat) : Option Nat :=
  match d.pslot slot with
  | some p => p.wantAt.map (· + 100000000)
  | none => none
def execWantTimer (slot : Nat) (s : State) : Host.Outcome State Fault Refusal :=
  .next (s.atTime (s.dev.wantDue slot) (·.wantCheck slot true))

/-- PROBE_IDLE (R484): an OPEN slot that has sent nothing for 100 ms. -/
def Dev.probeDue (d : Dev) (slot : Nat) : Option Nat :=
  match d.pslot slot with
  | some p => if d.slotOpen slot then some (p.sentAt + 100000000) else none
  | none => none
def execProbeIdle (slot : Nat) (s : State) : Host.Outcome State Fault Refusal :=
  .next (s.atTime (s.dev.probeDue slot) (fun d => d.txpCtl slot tkPROBE (beBytes 8 d.now)))

/-- PARTNER_SILENT (R484): no authenticated frame for 8 × RTO_MAX. -/
def Dev.silentDue (d : Dev) (slot : Nat) : Option Nat :=
  match d.pslot slot with
  | some p => if d.slotOpen slot && !p.silent then some (p.heardAt + 8 * d.get WXU.RTO_MAX.MILLISECONDS * 1000000) else none
  | none => none
def execPartnerSilent (slot : Nat) (s : State) : Host.Outcome State Fault Refusal :=
  .next (s.atTime (s.dev.silentDue slot) (fun d => (d.onPslot slot (fun p => { p with silent := true })).event 0x0517 slot))

/-! ## Windows and the active set (R496 to R499) -/

/-- Outstanding bytes of a slot (R494), as reported. -/
def Dev.syncOut (d : Dev) (slot : Nat) : Dev :=
  match d.pslot slot with
  | some p => d.set (WXU.SLOT_OUTSTANDING.BYTES slot) ((p.kept.filter (·.out)).foldl (fun a k => a + k.len) 0)
  | none => d
def Dev.slotOut (d : Dev) (slot : Nat) : Nat := d.get (WXU.SLOT_OUTSTANDING.BYTES slot)

/-- The sum of all windows in KiB. -/
def Dev.windowSum (d : Dev) : Nat := d.slotNumbers.foldl (fun a s => a + d.get (WXU.SLOT_WINDOW.BYTES s) / 1024) 0

/-- Grant a window; a change is credited at once (R495). The ceiling of R496 holds whoever grants. -/
def Dev.grantWindow (d : Dev) (slot w : Nat) : Dev :=
  let old := d.get (WXU.SLOT_WINDOW.BYTES slot)
  if w = old then d
  else if 131072 < d.windowSum - old / 1024 + w / 1024 then
    ((d.refuseRegister (uCore 0) (WXU.SLOT_WINDOW.REG slot).off).eventOpen 0x0516)
  else
    let d := d.set (WXU.SLOT_WINDOW.BYTES slot) w
    (d.set WXU.GRANT_SUM.KIB d.windowSum).sendCredit slot

/-- SLOT_WINDOW_WRITE (R496): a multiple of 1,024 bytes; another value is ignored. -/
def Dev.windowWrite (d : Dev) (slot : Nat) (v : Reg) : Dev :=
  let w := bits v.toNat 27 0
  if 4096 ≤ slot ∨ w % 1024 ≠ 0 then d else d.grantWindow slot w

/-- SLOT_WINDOW_WRITE (R496). -/
def execSlotWindowWrite (slot : Nat) (v : Reg) (s : State) : Host.Outcome State Fault Refusal :=
  .next (s.onDev (·.windowWrite slot v))

/-- Is a slot wanting (R497)? -/
def Dev.slotWants (d : Dev) (s : Nat) : Bool :=
  d.slotOpen s && (match d.pslot s with | some p => p.backlog != 0 || d.slotOut s != 0 | none => false)
def Dev.slotActive (d : Dev) (s : Nat) : Bool := d.flag (WXU.SLOT_STATE.ACTIVE s)
def Dev.slotFast (d : Dev) (s : Nat) : Bool := !d.flag (WXU.SLOT_STATE.TIER s)
def Dev.leaving (d : Dev) (s : Nat) : Bool := match d.pslot s with | some p => p.leavingAt.isSome | none => false
def Dev.activeSlots (d : Dev) : List Nat := d.slotNumbers.filter (d.slotActive ·)

/-- Compute and grant the windows of the active slots (R497 steps 1, 4 to 6). -/
def Dev.regrant (d : Dev) : Dev :=
  let q := d.fragSize
  let b := d.get WXU.VEST_CTL.EFFECTIVE * 16777216
  let act := d.activeSlots.filter (fun s => !d.leaving s)
  let fast := act.filter (d.slotFast ·)
  let slow := act.filter (fun s => !d.slotFast s)
  let srtt (s : Nat) : Nat := match d.pslot s with | some p => p.srtt | none => 0
  -- C in bytes per ns is farRate / 1000
  let cap (s : Nat) : Nat := ceilDiv (d.farRate * srtt s * 5) (4000 * q) * q
  let wf (s : Nat) : Nat := min (cap s) ((b - 4 * q * slow.length) / fast.length / q * q)
  let r := b - fast.foldl (fun a s => a + wf s) 0
  let ws (s : Nat) : Nat := min (cap s) (max (4 * q) (r / slow.length / q * q))
  let d := d.each act (fun d s => d.onPslot s (fun p => { p with srttAt := p.srtt }))
  -- windows that shrink go first, so that the ceiling never refuses the rest
  let plan := fast.map (fun s => (s, wf s)) ++ slow.map (fun s => (s, ws s))
  let shrink := plan.filter (fun e => decide (e.2 ≤ d.get (WXU.SLOT_WINDOW.BYTES e.1)))
  let grow := plan.filter (fun e => decide (d.get (WXU.SLOT_WINDOW.BYTES e.1) < e.2))
  d.each (shrink ++ grow) (fun d e => d.grantWindow e.1 e.2)

/-- A slot leaves the active set. -/
def Dev.leaveActive (d : Dev) (s : Nat) : Dev :=
  ((d.set (WXU.SLOT_STATE.ACTIVE s) 0).onPslot s (fun p => { p with leavingAt := none })).grantWindow s 0

/-- Waiting slots in the order of R497 step 3: FAST before SLOW, then by first WANT, then by number. -/
def Dev.waiters (d : Dev) : List Nat :=
  let ws := d.slotNumbers.filter (fun s => d.slotWants s && !d.slotActive s)
  let since (s : Nat) : Nat := match d.pslot s with | some p => p.wantedAt.getD d.now | none => 0
  let before (a b : Nat) : Bool := if d.slotFast a != d.slotFast b then d.slotFast a else decide (since a ≤ since b)
  sortBy before ws

/-- Bring the active set up to date (R497 step 3, R498 step 3): who no longer wants, and a leaver with nothing
outstanding, leaves; waiters enter while there is room; windows follow when the set changed. -/
def Dev.updateActive (d : Dev) (again : Bool) : Dev :=
  let d := d.each d.slotNumbers (fun d s => d.set (WXU.SLOT_STATE.WANTING s) (b2n (d.slotWants s)))
  let before := d.activeSlots
  let d := d.each before (fun d s => if !d.slotWants s || (d.leaving s && d.slotOut s == 0) then d.leaveActive s else d)
  let room := d.get WXU.VEST_CTL.ACTIVE_MAX - d.activeSlots.length
  let d := d.each ((d.waiters.filter (fun s => !before.contains s)).take room) (fun d s =>
    (d.set (WXU.SLOT_STATE.ACTIVE s) 1).onPslot s (fun p => { p with activeAt := d.now, leavingAt := none }))
  let changed := again || d.activeSlots != before
  let d := d.when changed (·.regrant)
  (d.set WXU.ACTIVE.COUNT d.activeSlots.length).set WXU.ACTIVE.WANTING d.waiters.length

/-- The leaver of R498 step 1. -/
def Dev.leaver (d : Dev) : Option Nat :=
  let act := d.activeSlots.filter (fun s => !d.leaving s)
  let since (s : Nat) : Nat := match d.pslot s with | some p => p.activeAt | none => 0
  let longest (xs : List Nat) : Option Nat := xs.foldl (fun (b : Option Nat) s => match b with
    | some x => if since s < since x then some s else some x
    | none => some s) none
  if d.waiters.any (d.slotFast ·) then match longest (act.filter (fun s => !d.slotFast s)) with
    | some s => some s
    | none => longest (act.filter (d.slotFast ·))
  else longest act

/-- ROTATE_QUANTUM's effect (R498). -/
def Dev.rotate (d : Dev) : Dev :=
  let d := { d with wxu.rotateAt := d.now }
  if d.waiters.isEmpty || decide (d.activeSlots.length < d.get WXU.VEST_CTL.ACTIVE_MAX) then d
  else match d.leaver with
    | none => d
    | some s => ((d.onPslot s (fun p => { p with leavingAt := some d.now })).grantWindow s 0).updateActive true

/-- ROTATE_QUANTUM (R498). -/
def execRotateQuantum (s : State) : Host.Outcome State Fault Refusal :=
  .next (s.atTime (some (s.dev.wxu.rotateAt + s.dev.get WXU.ROTATE.QUANTUM_MS * 1000000)) (·.rotate))

/-- LEAVER_TIMEOUT (R498 step 3): 2 × its retransmission timer after it began to leave. -/
def Dev.leaverDue (d : Dev) (slot : Nat) : Option Nat :=
  match d.pslot slot with
  | some p => p.leavingAt.map (· + 2 * d.txpRto p)
  | none => none
/-- The leaver leaves though bytes are outstanding; the waiters enter before it can wait again. -/
def Dev.leaverOut (d : Dev) (slot : Nat) : Dev :=
  let w := d.waiters.head?
  let d := d.leaveActive slot
  let d := match w with
    | some x => (d.set (WXU.SLOT_STATE.ACTIVE x) 1).onPslot x (fun p => { p with activeAt := d.now, leavingAt := none })
    | none => d
  d.updateActive true
def execLeaverTimeout (slot : Nat) (s : State) : Host.Outcome State Fault Refusal :=
  .next (s.atTime (s.dev.leaverDue slot) (·.leaverOut slot))

/-- OVERCOMMIT_DECREASE (R499): the end of a 10 ms interval with a FULL drop. -/
def Dev.overDown (d : Dev) : Dev :=
  if !d.wxu.fullDrop then d
  else
    let d := { d with wxu.fullDrop := false, wxu.calmSince := d.now }
    (d.set WXU.VEST_CTL.EFFECTIVE (max 1 (d.get WXU.VEST_CTL.EFFECTIVE - 1))).updateActive true
def execOvercommitDecrease (s : State) : Host.Outcome State Fault Refusal :=
  .next (s.atTime (some ((s.clock.ns / 10000000 + 1) * 10000000)) (·.overDown))

/-- OVERCOMMIT_INCREASE (R499): 1,000 ms without a FULL drop. -/
def Dev.overUp (d : Dev) : Dev :=
  let d := { d with wxu.calmSince := d.now }
  let k := d.get WXU.VEST_CTL.EFFECTIVE
  if k < d.get WXU.VEST_CTL.OVERCOMMIT then (d.set WXU.VEST_CTL.EFFECTIVE (k + 1)).updateActive true else d
def execOvercommitIncrease (s : State) : Host.Outcome State Fault Refusal :=
  .next (s.atTime (some (s.dev.wxu.calmSince + 1000000000)) (·.overUp))

/-! ## Pacing (R501) -/

/-- The ceiling of a slot's rate in MB/s. -/
def Dev.rateMax (d : Dev) (slot : Nat) (p : PSlot) : Nat :=
  let w := d.get (WXU.SLOT_PEER_WINDOW.BYTES slot)
  if p.srtt = 0 then d.farRate else min d.farRate (w * 1250 / p.srtt)

/-- The rate in force; 0 in the record: not yet started. -/
def Dev.rateNow (d : Dev) (slot : Nat) (p : PSlot) : Nat :=
  max 10 (if p.rate = 0 then d.rateMax slot p else min p.rate (d.rateMax slot p))

def Dev.setPace (d : Dev) (slot r : Nat) : Dev := d.onPslot slot (fun p => { p with rate := max 10 (min r (d.rateMax slot p)), rateAt := d.now })

/-- PACING_INCREASE (R501). -/
def Dev.paceDue (d : Dev) (slot : Nat) : Option Nat :=
  match d.pslot slot with
  | some p => if d.slotOpen slot then some (p.rateAt + p.srtt) else none
  | none => none
def execPacingIncrease (slot : Nat) (s : State) : Host.Outcome State Fault Refusal :=
  .next (s.atTime (s.dev.paceDue slot) (fun d => match d.pslot slot with
    | some p => d.setPace slot (d.rateNow slot p * 105 / 100)
    | none => d))

/-! ## Fragments (R445, R446, R492, R500) -/

/-- The directory offset of a stream of `bytes` bytes over `count` elements. -/
def streamDir (bytes count : Nat) : Nat := bytes - alignUp (4 * tessSegCount count) 128

/-- Is chunk c an index chunk (R446)? -/
def indexChunk (bytes count c : Nat) : Bool := c == 0 || decide (streamDir bytes count / 1048576 ≤ c)

/-- Fragments of a stream in the order of R446: index chunks, then the other chunks ascending. -/
def fragOrder (q bytes count : Nat) : List Nat :=
  let fs := List.range (ceilDiv bytes q)
  let ix (f : Nat) : Bool := indexChunk bytes count (f * q / 1048576)
  fs.filter ix ++ fs.filter (fun f => !ix f)

/-- A shard of the round's list. -/
def Dev.shard (d : Dev) (i : Nat) : Option Shard := match d.rnd.cfg with | some c => c.shards[i]? | none => none

/-- The WXU's access (R327): unit bit WIDE, unit 4, in the round job's domain. -/
def wxuAcc (perm dom : Nat) : Acc := ⟨206, some 11, perm, dom, 4⟩
def Dev.roundDom (d : Dev) : Nat := match d.rnd.cfg with | some c => d.domOf c.job | none => 0

/-- Send one fragment of a stream: the payload is read as it is formed. -/
def Dev.sendFrag (d : Dev) (slot : Nat) (st : OutStream) (f : Nat) (old : Option SentFrag) : Dev :=
  let q := d.fragSize
  let len := fragLen q st.bytes f
  match d.pslot slot, d.shard st.shard, d.farNext (old.map (·.port)) with
  | some p, some sh, some port =>
    match d.fetch (wxuAcc 1 d.roundDom) (st.addr + f * q) len with
    | (d, .error _) => d
    | (d, .ok bs) =>
      let dseq := (p.dseq + 1) % 2 ^ 32
      let last := decide (f + 1 = ceilDiv st.bytes q)
      let index := indexChunk st.bytes sh.count (f * q / 1048576)
      let flags := b2n old.isSome + 2 * b2n last + 8 * b2n index
      let kind := if st.loan then tkLOAN else tkDELTA
      let hdr := d.slotHeader slot kind flags d.fragLog dseq st.acc sh.id f len st.bytes
      let tries := match old with | some o => o.tries | none => 0
      let fr : SentFrag := ⟨dseq, st.loan, st.acc, st.shard, f, len, st.bytes, last, index, d.now, tries, old.isNone, true, none, false, port⟩
      let d := d.onPslot slot (fun p => { p with dseq := dseq, kept := (match old with | some o => p.kept.filter (fun k => k.dseq != o.dseq) | none => p.kept) ++ [fr] })
      (({ d with wxu.rot := port }.sealAdd slot port hdr bs).when old.isSome (·.bump WXU.RETX_SENT.COUNT 1)).syncOut slot
  | _, _, _ => d

/-- Answer a request for a stream no longer held with one GONE (R493). -/
def Dev.sendGone (d : Dev) (slot : Nat) (k : SentFrag) : Dev :=
  match d.pslot slot, d.shard k.shard with
  | some p, some sh =>
    if d.farDown then d else
    let d := d.onPslot slot (fun p => { p with kept := p.kept.filter (fun x => !(!x.loan && x.acc == k.acc && x.shard == k.shard)) })
    if p.goneSent.contains (k.acc, k.shard) then d
    else ((d.onPslot slot (fun p => { p with goneSent := (k.acc, k.shard) :: p.goneSent })).bump WXU.GONE_SENT.COUNT 1).txpCtl slot tkGONE
      (beBytes 4 k.acc ++ beBytes 4 sh.id ++ zeros 8)
  | _, _ => d

/-- Is a fragment's stream still held (R446, R492)? -/
def PSlot.holds (p : PSlot) (k : SentFrag) : Bool := (p.stream k.loan k.acc k.shard).isSome

/-- A kept fragment falls to be sent again, or its stream is gone. -/
def Dev.againFrag (d : Dev) (slot : Nat) (k : SentFrag) (f : SentFrag → SentFrag) : Dev :=
  match d.pslot slot with
  | none => d
  | some p =>
    if !k.loan && !p.holds k then (d.sendGone slot k).syncOut slot
    else (((d.onPslot slot (fun p => { p with kept := p.kept.map (fun x => if x.dseq = k.dseq then f x else x) })).syncOut slot).wantCheck slot false)

/-- The fragment a slot sends next (R500): a retransmission; the oldest accession's next DELTA fragment within
ACC_LIMIT; a LOAN fragment. -/
def Dev.nextFrag (p : PSlot) : Option (OutStream × Nat × Option SentFrag) :=
  match p.kept.find? (fun k => k.again && p.holds k) with
  | some k => (p.stream k.loan k.acc k.shard).map (fun s => (s, k.frag, some k))
  | none =>
    let ds := p.streams.filter (fun s => !s.loan && !s.todo.isEmpty && decide (s.acc ≤ p.accLimit))
    let best := (ds.map (·.acc)).min?
    match ds.find? (fun s => some s.acc == best) with
    | some s => some (s, s.todo.headD 0, none)
    | none => (p.streams.find? (fun s => s.loan && !s.todo.isEmpty)).map (fun s => (s, s.todo.headD 0, none))

/-- The length of the fragment a slot would send next, when it is OPEN and has room for it in its window (R494). -/
def Dev.sendLen (d : Dev) (slot : Nat) : Option Nat :=
  match d.pslot slot with
  | none => none
  | some p => match Dev.nextFrag p with
    | none => none
    | some (st, f, _) =>
      let n := fragLen d.fragSize st.bytes f
      if d.slotOpen slot && decide (d.slotOut slot + n ≤ d.get (WXU.SLOT_PEER_WINDOW.BYTES slot)) then some n else none

/-- When a slot that has something to send may send it: its pace and the far ports' line rate allow it (R501). -/
def Dev.sendAt (d : Dev) (slot : Nat) : Option Nat :=
  match d.pslot slot, d.sendLen slot with
  | some p, some _ => some (max d.now (max p.paceAt d.wxu.lineAt))
  | _, _ => none

/-- May a slot take part now (R500): window room and pacing room? -/
def Dev.sendReady (d : Dev) (slot : Nat) : Bool := d.sendAt slot == some d.now

/-- A slot's quantum: 4 fragments FAST, 1 SLOW (R500). The weights are the rule's; a fragment as their unit is log 95's. -/
def Dev.quantum (d : Dev) (slot : Nat) : Nat := (if d.slotFast slot then 4 else 1) * d.fragSize

/-- Deficit round robin (R500): the slot whose turn it is goes on while its deficit covers its next fragment; then the
turn passes to the next slot that takes part, which gains its quantum; a slot that takes no part keeps no deficit. -/
def Dev.drr (d : Dev) : Dev :=
  let ready := d.openSlots.filter (d.sendReady ·)
  let d := d.each (d.openSlots.filter (fun s => (d.sendLen s).isNone)) (fun d s => d.onPslot s (fun p => { p with deficit := 0 }))
  let stays : Bool := ready.contains d.wxu.turn && (match d.pslot d.wxu.turn, d.sendLen d.wxu.turn with
    | some p, some n => decide (n ≤ p.deficit)
    | _, _ => false)
  if stays then d
  else match ready.filter (fun s => decide (d.wxu.turn < s)) ++ ready with
    | s :: _ => { d with wxu.turn := s }.onPslot s (fun p => { p with deficit := p.deficit + d.quantum s })
    | [] => d

/-- A fragment of `n` bytes goes: the deficit, the slot's pace and the line (R500, R501). -/
def Dev.paced (d : Dev) (slot n : Nat) : Dev :=
  match d.pslot slot with
  | none => d
  | some p =>
    let gap := n * 1000 / max 1 (d.rateNow slot p)
    { d.onPslot slot (fun p => { p with deficit := p.deficit - n, paceAt := max d.now p.paceAt + gap }) with
      wxu.lineAt := max d.now d.wxu.lineAt + n * 1000 / max 1 d.farRate }

/-- FRAGMENT_SEND's effect: within WINDOW (R494), in the slot's turn, with room in the OUTBOUND queue. -/
def Dev.fragmentSend (d : Dev) (slot : Nat) : Dev :=
  let d := d.drr
  match d.pslot slot with
  | none => d
  | some p =>
    if !d.sendReady slot || d.wxu.turn != slot || decide (256 ≤ (d.cqueue 1).length) then d
    else match Dev.nextFrag p with
      | none => d
      | some (st, f, old) =>
        let d := d.sendFrag slot st f old
        let sent := match d.pslot slot with | some x => x.dseq != p.dseq | none => false
        let d := d.when sent (·.paced slot (fragLen d.fragSize st.bytes f))
        if sent && old.isNone then
          (d.onPslot slot (fun p => { p with streams := p.streams.map (fun s =>
            if s.loan == st.loan && s.acc == st.acc && s.shard == st.shard then { s with todo := s.todo.drop 1 } else s) })).wantCheck slot false
        else d

/-- FRAGMENT_SEND (R500): it waits for pacing room. -/
def execFragmentSend (slot : Nat) (s : State) : Host.Outcome State Fault Refusal :=
  .next (match s.dev.sendAt slot with
    | some t => (s.until t).onDev (·.fragmentSend slot)
    | none => s.onDev (·.fragmentSend slot))

/-- A fragment kept, by DSEQ. -/
def Dev.keptFrag (d : Dev) (slot dseq : Nat) : Option SentFrag :=
  match d.pslot slot with
  | some p => p.kept.find? (fun k => k.dseq == dseq)
  | none => none

/-- TXP_RETX_TIMER (R492): the timer doubles at each expiry up to RTO_MAX. -/
def Dev.retxDue (d : Dev) (slot dseq : Nat) : Option Nat :=
  match d.pslot slot, d.keptFrag slot dseq with
  | some p, some k => if k.again || k.due.isSome then none
    else some (k.sentAt + min (d.get WXU.RTO_MAX.MILLISECONDS * 1000000) (d.txpRto p * 2 ^ k.tries))
  | _, _ => none
def Dev.retxExpire (d : Dev) (slot dseq : Nat) : Dev :=
  match d.keptFrag slot dseq with
  | some k => d.againFrag slot k (fun x => { x with again := true, tries := x.tries + 1 })
  | none => d
def execTxpRetxTimer (slot dseq : Nat) (s : State) : Host.Outcome State Fault Refusal :=
  .next (s.atTime (s.dev.retxDue slot dseq) (·.retxExpire slot dseq))

/-- FULL_NACK_DELAY (R492): RTO_MIN after a NACK for FULL. -/
def Dev.fullDue (d : Dev) (slot dseq : Nat) : Option Nat := (d.keptFrag slot dseq).bind (·.due)
def Dev.fullExpire (d : Dev) (slot dseq : Nat) : Dev :=
  match d.keptFrag slot dseq with
  | some k => d.againFrag slot k (fun x => { x with again := true, due := none })
  | none => d
def execFullNackDelay (slot dseq : Nat) (s : State) : Host.Outcome State Fault Refusal :=
  .next (s.atTime (s.dev.fullDue slot dseq) (·.fullExpire slot dseq))

/-! ## Quarantine (R464, R483) and the previous key (R531) -/

/-- QUARANTINE_EXPIRY (R483): the slot becomes FREE; its generation stays. -/
def Dev.quarDue (d : Dev) (slot : Nat) : Option Nat :=
  match d.pslot slot with
  | some p => if d.slotState slot = wsQUARANTINE then some (p.lastUse + d.get WXU.QUARANTINE.MILLISECONDS * 1000000) else none
  | none => none
def Dev.slotFree (d : Dev) (slot : Nat) : Dev :=
  let g := d.slotGen slot
  let d := d.each [WXU.SLOT_STATE.REG slot, WXU.SLOT_PEER.REG slot, WXU.SLOT_PEER_WINDOW.REG slot, WXU.SLOT_RTT.REG slot,
    WXU.SLOT_OUTSTANDING.REG slot, WXU.SLOT_KEY.REG slot] (fun d f => d.clearReg f.off)
  d.set (WXU.SLOT_STATE.GEN slot) g
def execQuarantineExpiry (slot : Nat) (s : State) : Host.Outcome State Fault Refusal :=
  .next (s.atTime (s.dev.quarDue slot) (·.slotFree slot))

/-- PREVIOUS_KEY_ERASE (R531): WXU.QUARANTINE after the move to the new phase; a rekey that is due may begin. -/
def Dev.prevDue (d : Dev) (slot : Nat) : Option Nat :=
  match d.session slot with
  | some (_, s) => if s.prev.isSome then some (s.movedAt + d.get WXU.QUARANTINE.MILLISECONDS * 1000000) else none
  | none => none
def Dev.prevErase (d : Dev) (slot : Nat) : Dev :=
  match d.session slot with
  | some (k, s) => (d.setSession k { s with prev := none }).tryRekey slot
  | none => d
def execPreviousKeyErase (slot : Nat) (s : State) : Host.Outcome State Fault Refusal :=
  .next (s.atTime (s.dev.prevDue slot) (·.prevErase slot))

end Sys2Proof.Machine
end

