-- ==== Sys2Proof/Machine/Fabric.lean ====
section
/-! DEFINITION. Groups and collectives (R402 to R420): the running collective of a group, READY and
GRANT, reduce-scatter in its three modes, all-gather, permute, completion and failure. The commands and
frames that drive them stand in Machine/FabricCommands.lean. -/

namespace Sys2Proof.Machine

/-- Group states (R427). -/
def gsACTIVE : Nat := 1
def gsFAILED : Nat := 2

/-- Own index and rank of a member. -/
def Dev.ownIx (d : Dev) (s : Nat) : Nat := d.get (CFI.GROUP_INDEX.INDEX s)
def Group.rankOf (g : Group) (i : Nat) : Nat := g.members.getD i 0

/-- Bytes of an element on the wire (R409, R410): as in memory for ORDERED, 5 for EXACT, 6 for INTEGER. -/
def Coll.wire (c : Coll) : Nat := if c.mode = 1 then 5 else if c.mode = 2 then 6 else collWidth c.sfmt

/-- Whole elements of a segment of 65,536 source bytes (R411). -/
def Coll.segElems (c : Coll) : Nat := 65536 / collWidth c.sfmt

/-- Segments of a shard. -/
def Coll.segs (c : Coll) : Nat := ceilDiv c.count c.segElems

/-- Elements of segment s. -/
def Coll.segLen (c : Coll) (s : Nat) : Nat := min c.segElems (c.count - s * c.segElems)

/-- Segment numbers that stand for the exponent pass and the agreed codes of EXACT (log 28). -/
def segEXP : Nat := 0xFFFFFFFF
def segCODES : Nat := 0xFFFFFFFE

/-- Scale groups of a shard. -/
def Coll.groups (c : Coll) : Nat := ceilDiv c.count 32

/-- Exponent codes (R409): e + 149, all zero, NaN or infinity. -/
def codeZERO : Nat := 0xFFFF
def codeBAD : Nat := 0xFFFE

/-- The exponent code of a group of values. -/
def expCode (vs : List Val) : Nat :=
  if vs.any (fun v => !v.isFin) then codeBAD
  else match groupExp vs with
    | none => codeZERO
    | some e => (e + 149).toNat

/-- Combine exponent codes of contributors (R409, R118, R122). -/
def codeJoin (a b : Nat) : Nat :=
  if a = codeBAD ∨ b = codeBAD then codeBAD
  else if a = codeZERO then b else if b = codeZERO then a else max a b

/-- Is an agreed code a group exponent, so that its group's q values travel? -/
def codeLive (c : Nat) : Bool := decide (c < codeBAD)

/-- Elements of `n` bytes-wide little-endian codes. -/
def codesOf (w : Nat) (bs : Bytes) : List Nat := (chunksOf w (bs.length / w + 1) bs).map leNat

/-- The source elements of shard `own`, segment s, of this member: their codes. -/
def Dev.collSrc (d : Dev) (c : Coll) (shard lo n : Nat) : Dev × Except (Nat × Nat) (List Nat) :=
  let w := collWidth c.sfmt
  match d.fetch (d.cfiAcc (c.src + (shard * c.count + lo) * w) 1 c.dom) (c.src + (shard * c.count + lo) * w) (n * w) with
  | (d, .error e) => (d, .error e)
  | (d, .ok bs) => (d, .ok (codesOf w bs))

/-- The value of a source element. -/
def Coll.val (c : Coll) (code : Nat) : Val := elemDecode c.sfmt code

/-- The codes agreed for an owner's shard. -/
def Coll.codesFor (c : Coll) (o : Nat) : Option (List Nat) := (c.codes.find? (fun e => e.1 == o)).map (·.2)

/-- The live groups of segment s under agreed codes: index within the segment, and code. -/
def Coll.liveGroups (c : Coll) (codes : List Nat) (s : Nat) : List (Nat × Nat) :=
  ((codes.drop (s * c.segElems / 32)).take (ceilDiv (c.segLen s) 32)).zipIdx.filterMap (fun (x, i) => if codeLive x then some (i, x) else none)

/-- Bytes that a contribution to segment s of an owner's shard takes (R409 to R411). -/
def Coll.segBytes (c : Coll) (o s : Nat) : Nat :=
  if s = segEXP ∨ s = segCODES then 2 * c.groups
  else if c.mode = 1 then match c.codesFor o with
    | some cs => 5 * 32 * (c.liveGroups cs s).length
    | none => 0
  else c.wire * c.segLen s

/-! ## Starting (R406, R413, R414) -/

/-- Check ranges before anything of them moves: status and lowest forbidden address (R329). -/
def Dev.checkRanges (d : Dev) (dom : Nat) (rs : List (Nat × Nat × Nat)) : Dev × Option (Nat × Nat) :=
  d.checkAll (rs.map (fun (a, n, perm) => (d.cfiAcc a perm dom, a, n)))

/-- A PERMUTE list as read. -/
def readPerm (b : Bytes) (n : Nat) : List PermEnt :=
  (List.range n).map (fun i => ⟨le b (32 * i) 2, le b (32 * i + 8) 8, le b (32 * i + 16) 8⟩)

/-- Is every entry's peer a member and its reserved part 0? -/
def permOk (b : Bytes) (n size : Nat) : Bool :=
  (List.range n).all (fun i => decide (le b (32 * i) 2 < size) && zeroBytes b (32 * i + 2) 6 && zeroBytes b (32 * i + 24) 8)

/-- Do two ranges overlap? -/
def overlaps (a n b m : Nat) : Bool := decide (a < b + m ∧ b < a + n)

/-- Is a receive staged: does its range overlap the source of any send (R413)? -/
def Coll.isStaged (c : Coll) (e : PermEnt) : Bool := c.sends.any (fun s => overlaps e.addr e.len s.addr s.len)

/-- The members whose data this member will receive, in rotation from its own index. -/
def Coll.senders (c : Coll) (g : Group) (own : Nat) : List Nat :=
  let others := (List.range (g.size - 1)).map (fun i => (own + 1 + i) % g.size)
  match c.owner with
  | .normReduce _ => if own = 0 then others else []
  | .normGather _ => if own = 0 then [] else [0]
  | _ => if c.opcode = ocPERM then others.filter (fun i => c.recvs.any (fun e => e.peer == i)) else others

/-- The members this member sends data to. -/
def Coll.receivers (c : Coll) (g : Group) (own : Nat) : List Nat :=
  let others := (List.range (g.size - 1)).map (fun i => (own + 1 + i) % g.size)
  match c.owner with
  | .normReduce _ => if own = 0 then [] else [0]
  | .normGather _ => if own = 0 then others else []
  | _ => if c.opcode = ocPERM then others.filter (fun i => c.sends.any (fun e => e.peer == i)) else others

/-- The count a READY carries (R406): E, SLOT_BYTES, or the bytes a pair of permute members exchanges, both
ways, so that both members of a pair see a length that differs (R413). -/
def Coll.summaryCount (c : Coll) (peer : Nat) : Nat :=
  if c.opcode = ocPERM then ((c.recvs ++ c.sends).filter (fun e => e.peer == peer)).foldl (fun a e => a + e.len) 0
  else c.count

/-- The descriptor summary of a READY frame (R406; its layout is log 28): hash, SEQ, opcode, mode,
formats, member index, count. -/
def Coll.summary (c : Coll) (g : Group) (ix count : Nat) : Bytes :=
  beBytes 4 g.hash ++ beBytes 4 c.seq ++ beBytes 2 c.opcode ++ beBytes 1 c.mode ++ beBytes 1 c.sfmt ++ beBytes 1 c.dfmt ++ [0]
    ++ beBytes 2 ix ++ beBytes 8 count

/-- The receive transfers of a permute: grant k + 1 for entry k of the own list. -/
def Coll.permGrants (c : Coll) (own : Nat) : List (Nat × Nat × Nat) :=
  (c.recvs.zipIdx.filter (fun e => e.1.peer != own)).map (fun (e, k) => (e.peer, k, e.len))

/-- The grants an owner will issue at first: exponent codes under EXACT (and for the codes this member
receives), else contributions in ascending segment order, within a segment in fold order (R411). -/
def Coll.firstGrants (c : Coll) (g : Group) (own : Nat) : List (Nat × Nat × Nat) :=
  let from_ := c.senders g own
  if c.opcode = ocPERM then c.permGrants own
  else if c.opcode ≠ ocRS then []
  else if c.mode = 1 then from_.flatMap (fun m => [(m, segEXP, 2 * c.groups), (m, segCODES, 2 * c.groups)])
  else (List.range c.segs).flatMap (fun s => from_.map (fun m => (m, s, c.segBytes own s)))

/-- The receive records of an all-gather: slot i of the destination (R412). -/
def Coll.gatherRx (c : Coll) (g : Group) (own : Nat) : List CollRx :=
  if c.opcode ≠ ocAG then []
  else (c.senders g own).map (fun m => ⟨m, 0, 0, if c.mode = 1 then none else some (if c.isNorm then 72 else c.count), [],
    if c.isNorm then none else some (c.dst + m * c.count), []⟩)

/-- Own bytes of an all-gather. -/
def Coll.ownBytes (c : Coll) : Nat := if c.isNorm then 72 else if c.mode = 1 then c.own else c.count

/-- Queue the bytes of an all-gather to a member. -/
def Dev.gatherSend (d : Dev) (s : Nat) (g : Group) (c : Coll) (m : Nat) : Dev :=
  let src := if c.isNorm then TxSrc.bytes (c.limbs.flatMap (fun v => beBytes 6 (wrap 48 v))) else .mem c.src c.dom
  let d := d.txAdd 0 (g.rankOf m) ⟨d.get (CFI.GROUP_TAG.TAG s), c.seq, 0, c.ownBytes, 0, src⟩
  d.onColl s (fun c => { c with served := (m, 0) :: c.served })

/-- Send an all-gather's bytes to the members of the rotation, each once it is ready and those before it have theirs
(R406, R412). -/
def Dev.gatherPump (s : Nat) : Nat → Dev → Dev
  | 0, d => d
  | fuel + 1, d => match d.group s with
    | none => d
    | some g => match g.queue with
      | [] => d
      | c :: _ => match (c.receivers g (d.ownIx s)).find? (fun m => !c.served.contains (m, 0)) with
        | some m => if c.opcode = ocAG ∧ c.ready.contains m then Dev.gatherPump s fuel (d.gatherSend s g c m) else d
        | none => d

/-- Take a READY of member m (R406): the summary must equal the own one. -/
def Dev.readyIn (d : Dev) (s m : Nat) (pay : Bytes) : Dev :=
  match d.group s with
  | none => d
  | some g => match g.queue with
    | [] => d
    | c :: _ =>
      if c.ready.contains m then d
      else if pay.take 24 = c.summary g m (c.summaryCount m) then
        let d := d.onColl s (fun c => { c with ready := m :: c.ready })
        Dev.gatherPump s g.size d
      else (d.bump CFI.GROUP_MISMATCH.COUNT 1).set (CFI.GROUP_STATE.MISMATCH s) 1

/-- Take a GRANT of member m (R411). A grant of a permute whose length differs from the paired send is a
mismatch (R413). -/
def Dev.grantIn (d : Dev) (s m num : Nat) (pay : Bytes) : Dev :=
  d.onColl s (fun c => if c.grants.any (fun x => x.peer == m && x.num == num) then c
    else { c with grants := c.grants ++ [⟨m, num, be pay 4 4, be pay 8 8⟩] })

/-! ## Issuing and serving grants -/

/-- May this member issue the grant now: the peer's part of EXACT's codes, and 16 outstanding at most? -/
def Coll.outstanding (c : Coll) : Nat := (c.rx.filter (fun r => match r.len with | some n => r.grant != 0 && !ivHas r.got 0 n | none => false)).length

/-- Where a granted transfer lands: a permute entry in place unless staged, all else held. -/
def Coll.rxPlace (c : Coll) (k : Nat) : Option Nat :=
  if c.opcode ≠ ocPERM then none
  else match c.recvs[k]? with
    | some e => if c.isStaged e then none else some e.addr
    | none => none

/-- Issue grants while fewer than 16 are outstanding (R411). -/
def Dev.issueGrants (s : Nat) : Nat → Dev → Dev
  | 0, d => d
  | fuel + 1, d =>
    match d.group s with
    | none => d
    | some g => match g.queue with
      | [] => d
      | c :: _ => match c.toGrant with
        | [] => d
        | (m, sg, n) :: rest =>
          if 16 ≤ c.outstanding then d
          else
            let num := c.nextGrant
            let r : CollRx := ⟨m, num, sg, some n, [], c.rxPlace sg, []⟩
            let d := d.onColl s (fun c => { c with toGrant := rest, nextGrant := num + 1, rx := c.rx ++ [r] })
            Dev.issueGrants s fuel (d.sendCtl ftGRANT 0 0 (g.rankOf m) (d.get (CFI.GROUP_TAG.TAG s)) c.seq num
              (beBytes 4 num ++ beBytes 4 sg ++ beBytes 8 n))

/-- The q values of a contribution: 5 bytes each for every element of a live group (R409). -/
def Coll.qBytes (c : Coll) (codes cs : List Nat) (seg : Nat) : Bytes :=
  (c.liveGroups codes seg).flatMap (fun (i, e) =>
    (List.range 32).flatMap (fun k => beBytes 5 (wrap 40 (ex48Of ((e : Int) - 149) (c.val (cs.getD (32 * i + k) 0))))))

/-- Exponent codes of a shard's elements. -/
def Coll.expBytes (c : Coll) (cs : List Nat) : Bytes :=
  (chunksOf 32 (c.groups + 1) (cs.map c.val)).flatMap (fun vs => beBytes 2 (expCode vs))

/-- What a grant asks for: not to be given yet, a failed read (status and address), or the source. -/
inductive Given where
  | wait
  | fail (st addr : Nat)
  | src (x : TxSrc)
  deriving DecidableEq, Repr

/-- The bytes a grant asks for (R409 to R413); none while EXACT's codes are not known. -/
def Dev.grantBytes (d : Dev) (own : Nat) (c : Coll) (x : GrantIn) : Dev × Given :=
  let w := collWidth c.sfmt
  if c.opcode = ocPERM then
    match (c.sends.filter (fun e => e.peer == x.peer))[(c.served.filter (fun e => e.1 == x.peer)).length]? with
    | some e => (d, .src (.mem e.addr c.dom))
    | none => (d, .wait)
  else if x.seg = segEXP then
    match d.collSrc c x.peer 0 c.count with
    | (d, .error (st, a)) => (d, .fail st a)
    | (d, .ok cs) => (d, .src (.bytes (c.expBytes cs)))
  else if x.seg = segCODES then
    match c.codesFor own with
    | none => (d, .wait)
    | some cs => (d, .src (.bytes (cs.flatMap (beBytes 2 ·))))
  else if c.isNorm then (d, .src (.bytes (c.limbs.flatMap (fun v => beBytes 6 (wrap 48 v)))))
  else if c.mode = 0 then (d, .src (.mem (c.src + (x.peer * c.count + x.seg * c.segElems) * w) c.dom))
  else match d.collSrc c x.peer (x.seg * c.segElems) (c.segLen x.seg) with
    | (d, .error (st, a)) => (d, .fail st a)
    | (d, .ok cs) =>
      if c.mode = 2 then (d, .src (.bytes (cs.flatMap (beBytes 6 ·))))
      else match c.codesFor x.peer with
        | none => (d, .wait)
        | some codes => (d, .src (.bytes (c.qBytes codes cs x.seg)))

/-- Does a permute grant's length differ from the paired send's (R413)? -/
def Coll.permClash (c : Coll) (x : GrantIn) : Bool :=
  c.opcode == ocPERM && (match (c.sends.filter (fun e => e.peer == x.peer))[(c.served.filter (fun e => e.1 == x.peer)).length]? with
    | some e => e.len != x.len
    | none => true)

/-- Drop a grant from those held. -/
def Coll.dropGrant (c : Coll) (x : GrantIn) : Coll := { c with grants := c.grants.erase x }

/-- Serve the grants held, oldest first, from members that are ready (R406, R411). -/
def Dev.serveGrants (s : Nat) : Dev → List GrantIn → Dev
  | d, [] => d
  | d, x :: xs =>
    match d.group s with
    | none => d
    | some g => match g.queue with
      | [] => d
      | c :: _ =>
        if !c.ready.contains x.peer then Dev.serveGrants s d xs
        else if c.permClash x then
          Dev.serveGrants s (((d.onColl s (·.dropGrant x)).bump CFI.GROUP_MISMATCH.COUNT 1).set (CFI.GROUP_STATE.MISMATCH s) 1) xs
        else match d.grantBytes (d.ownIx s) c x with
          | (d, .wait) => Dev.serveGrants s d xs
          | (d, .fail st a) =>
            Dev.serveGrants s (d.onColl s (fun c => { c.dropGrant x with err := some (c.err.getD (st, a)) })) xs
          | (d, .src b) =>
            let d := d.onColl s (fun c => { c.dropGrant x with served := c.served ++ [(x.peer, x.seg)] })
            Dev.serveGrants s (d.txAdd 0 (g.rankOf x.peer) ⟨d.get (CFI.GROUP_TAG.TAG s), c.seq, x.num, x.len, 0, b⟩) xs

/-! ## Receiving and folding -/

def CollRx.whole (r : CollRx) : Bool := match r.len with | some n => ivHas r.got 0 n | none => false

/-- The bytes a transfer holds. -/
def CollRx.bytes (r : CollRx) : Bytes := memRead r.data 0 (r.len.getD 0)

/-- Take the payload of a DATA frame for the running collective of slot s (R398): into place, or held. -/
def Dev.collData (d : Dev) (s m : Nat) (f : TFrame) : Dev :=
  match d.group s with
  | none => d
  | some g => match g.queue with
    | [] => d
    | c :: _ => match c.rx.find? (fun r => r.peer == m && r.grant == f.grant) with
      | none => d
      | some r =>
        let len := if bit f.flags 0 then some (r.len.getD (f.off + f.data.length)) else r.len
        -- a loan copy comes from one member only and fills the loan region (R470)
        let room := match r.len, c.owner with | some n, _ => n | none, .loan _ _ => 2 ^ 40 | none, _ => c.count
        if room < f.off + f.data.length then d
        else
          let r' := { r with got := ivAdd r.got f.off (f.off + f.data.length), len := len,
                             data := if r.place.isSome then r.data else memWrite r.data f.off f.data }
          let d := d.onColl s (fun c => { c with rx := c.rx.map (fun x => if x.peer == m && x.grant == f.grant then r' else x) })
          match r.place with
          | none => d
          | some a => match d.deposit (d.cfiAcc (a + f.off) 2 c.dom) (a + f.off) f.data with
            | (d, some e) => d.onColl s (fun c => { c with err := some (c.err.getD e) })
            | (d, none) => d

/-- Agree on the exponent codes of the own shard once every contributor's have come (R409). -/
def Dev.agree (d : Dev) (s own : Nat) (g : Group) (c : Coll) : Dev :=
  if c.opcode ≠ ocRS ∨ c.mode ≠ 1 ∨ (c.codesFor own).isSome then d
  else
    let exps := c.rx.filter (fun r => r.seg == segEXP)
    if exps.length ≠ (c.senders g own).length ∨ !exps.all (·.whole) then d
    else match d.collSrc c own 0 c.count with
      | (d, .error e) => d.onColl s (fun c => { c with err := some (c.err.getD e) })
      | (d, .ok cs) =>
        let lists := c.expBytes cs :: exps.map (·.bytes)
        let codes := (List.range c.groups).map (fun i => lists.foldl (fun a b => codeJoin a (be b (2 * i) 2)) codeZERO)
        d.onColl s (fun c =>
          let c := { c with codes := (own, codes) :: c.codes }
          let all := (List.range c.segs).flatMap (fun k => (c.senders g own).map (fun m => (m, k, c.segBytes own k)))
          { c with toGrant := c.toGrant ++ all.filter (fun e => e.2.2 != 0) })

/-- Take the codes other owners have agreed. -/
def Dev.learnCodes (d : Dev) (s : Nat) : Dev :=
  d.onColl s (fun c => (c.rx.filter (fun r => r.seg == segCODES && r.whole && (c.codesFor r.peer).isNone)).foldl
    (fun c r => { c with codes := (r.peer, (List.range c.groups).map (fun i => be r.bytes (2 * i) 2)) :: c.codes }) c)

/-- The pairwise tree of R210 in FP32: adjacent pairs, an unpaired last value passing up. -/
def pairLevel : List Nat → List Nat
  | a :: b :: r => f32Add a b :: pairLevel r
  | r => r
def pairTree : Nat → List Nat → Nat
  | 0, vs => vs.headD 0
  | n + 1, vs => match vs with | [v] => v | vs => pairTree n (pairLevel vs)

/-- The FP32 bits of an element (R105). -/
def Coll.f32Of (c : Coll) (code : Nat) : Nat := toF32c (c.val code)

/-- An element of an ORDERED shard over its fold sequence (R408). -/
def Coll.orderedElem (c : Coll) (codes : List Nat) : Nat :=
  let v := f32 (pairTree codes.length (codes.map c.f32Of))
  (elemConvert c.dfmt .rne false v).1

/-- An element of an EXACT shard under its group's code (R121, R122): one rounding (R104). -/
def Coll.exactElem (c : Coll) (code : Nat) (qs : List Int) : Nat :=
  if code = codeBAD then (elemConvert c.dfmt .rne false .nan).1
  else if code = codeZERO then 0
  else (elemConvert c.dfmt .rne false (valScale ((code : Int) - 149 - 31) (valOfInt (qs.foldl (· + ·) 0)))).1

/-- A sum of EX48 elements held within its range (R410), and whether it saturated. -/
def satSum (vs : List Int) : Int × Nat :=
  let t := vs.foldl (· + ·) 0
  let u := clampSigned 48 t
  (u, if u = t then 0 else 1)

/-- Fold segment k of the own shard from the own elements and the contributions in fold order: the bytes
of the destination, and the elements that saturated. -/
def Coll.foldSeg (c : Coll) (g : Group) (own k : Nat) (mine : List Nat) : Bytes × Nat :=
  let n := c.segLen k
  let rxs := (c.senders g own).map (fun m => ((c.rx.find? (fun r => r.peer == m && r.seg == k)).map (·.bytes)).getD [])
  let wd := collWidth c.dfmt
  match c.mode with
  | 0 =>
    let w := collWidth c.sfmt
    ((List.range n).flatMap (fun i => leBytes wd (c.orderedElem (mine.getD i 0 :: rxs.map (fun b => le b (w * i) w)))), 0)
  | 1 =>
    let codes := (c.codesFor own).getD []
    let live := c.liveGroups codes k
    ((List.range n).flatMap (fun i =>
      let code := codes.getD (k * c.segElems / 32 + i / 32) codeZERO
      match live.findIdx? (fun e => e.1 == i / 32) with
      | none => leBytes wd (c.exactElem code [])
      | some j =>
        let q := ex48Of ((code : Int) - 149) (c.val (mine.getD i 0))
        leBytes wd (c.exactElem code (q :: rxs.map (fun b => sext 40 (be b (5 * (32 * j + i % 32)) 5))))), 0)
  | _ =>
    let sums := (List.range n).map (fun i => satSum (sext 48 (mine.getD i 0) :: rxs.map (fun b => sext 48 (be b (6 * i) 6))))
    (sums.flatMap (fun v => leBytes wd (wrap 48 v.1)), sums.foldl (fun a v => a + v.2) 0)

/-- Have all contributions to segment k come? -/
def Coll.segReady (c : Coll) (g : Group) (own k : Nat) : Bool :=
  (c.mode != 1 || (c.codesFor own).isSome) && (c.senders g own).all (fun m => (c.mode == 1 && c.segBytes own k == 0)
    || c.rx.any (fun r => r.peer == m && r.seg == k && r.whole))

/-- Fold the segments that are ready, in ascending order (R411). -/
def Dev.foldReady (s own : Nat) : Nat → Dev → Dev
  | 0, d => d
  | fuel + 1, d =>
    match d.group s with
    | none => d
    | some g => match g.queue with
      | [] => d
      | c :: _ =>
        if c.isNorm ∨ c.opcode ≠ ocRS ∨ c.segs ≤ c.segDone ∨ c.err.isSome ∨ !c.segReady g own c.segDone then d
        else
          let k := c.segDone
          let fail (d : Dev) (e : Nat × Nat) : Dev := d.onColl s (fun c => { c with err := some e })
          match d.collSrc c own (k * c.segElems) (c.segLen k) with
          | (d, .error e) => fail d e
          | (d, .ok mine) =>
            let (bs, sat) := c.foldSeg g own k mine
            match d.deposit (d.cfiAcc (c.dst + k * c.segElems * collWidth c.dfmt) 2 c.dom) (c.dst + k * c.segElems * collWidth c.dfmt) bs with
            | (d, some e) => fail d e
            | (d, none) =>
              let clear (r : CollRx) : CollRx := if r.seg = k then { r with data := [] } else r
              Dev.foldReady s own fuel (d.onColl s (fun c => { c with segDone := k + 1, sat := c.sat + sat, rx := c.rx.map clear }))

/-- The norm sums at member 0 (R365, R410). -/
def Dev.foldNorm (d : Dev) (s own : Nat) : Dev :=
  match d.group s with
  | none => d
  | some g => match g.queue with
    | [] => d
    | c :: _ => match c.owner with
      | .normReduce _ =>
        if own ≠ 0 ∨ c.segDone ≠ 0 ∨ !((c.senders g own).all (fun m => c.rx.any (fun r => r.peer == m && r.whole))) then d
        else
          let sums := (List.range 12).map (fun i => (satSum (c.limbs.getD i 0 :: c.rx.map (fun r => sext 48 (be r.bytes (6 * i) 6)))).1)
          d.setGroup s (some { g with queue := match g.queue with
            | a :: b :: r => { a with segDone := 1, limbs := sums } :: { b with limbs := sums } :: r
            | q => q })
      | _ => d

/-- Everything the running collective of a slot can do by itself: agree, learn, grant, serve, fold. -/
def Dev.collAdvance (d : Dev) (s : Nat) : Dev :=
  match d.group s with
  | none => d
  | some g => match g.queue with
    | [] => d
    | c :: _ =>
      if !c.started then d
      else
        let own := d.ownIx s
        let d := (d.learnCodes s).agree s own g c
        let d := Dev.issueGrants s 16 d
        let d := match d.group s with
          | some g => Dev.serveGrants s d (match g.queue with | c :: _ => c.grants | [] => [])
          | none => d
        (Dev.foldReady s own c.segs d).foldNorm s own

/-! ## Starting, completing, failing -/

/-- The copies of a permute within this member, read whole before anything is written (R413). -/
def Dev.permLocal (d : Dev) (s own : Nat) (c : Coll) : Dev :=
  let snd := c.sends.filter (fun e => e.peer == own)
  let rcv := c.recvs.filter (fun e => e.peer == own)
  d.each (snd.zip rcv) (fun d (a, b) =>
    if a.len ≠ b.len then (d.bump CFI.GROUP_MISMATCH.COUNT 1).set (CFI.GROUP_STATE.MISMATCH s) 1
    else match d.fetch (d.cfiAcc a.addr 1 c.dom) a.addr a.len with
      | (d, .error e) => d.onColl s (fun c => { c with err := some (c.err.getD e) })
      | (d, .ok bs) => d.onColl s (fun c => { c with rx := c.rx ++ [(⟨own, 0, 0, some a.len, [(0, a.len)], none, memWrite [] 0 bs⟩ : CollRx)] }))

/-- The extents a reduce-scatter or permute may use for staging hold undefined bytes from now on (R411,
R413). -/
def Dev.scrambleStaging (d : Dev) (g : Group) (c : Coll) : Dev :=
  if g.stagingLen = 0 ∨ c.isNorm ∨ c.opcode = ocAG ∨ (c.opcode = ocRS ∧ c.mode = 2) ∨ g.size = 1
      ∨ (c.opcode = ocPERM ∧ !c.recvs.any c.isStaged) then d
  else
    let (bs, d) := d.drawBytes g.stagingLen
    (d.deposit (d.cfiAcc g.staging 2 c.dom) g.staging bs).1

/-- Remove the running collective and put its own unsent frames out of use. -/
def Dev.popColl (d : Dev) (s : Nat) : Dev :=
  match d.group s with
  | none => d
  | some g => match g.queue with
    | [] => d
    | c :: cs =>
      let d := if c.started then d.txDrop (d.get (CFI.GROUP_TAG.TAG s)) c.seq else d
      d.setGroup s (some { g with queue := cs })

/-- Take early READY and GRANT frames of the collective that starts. -/
def Dev.takeEarly (d : Dev) (s : Nat) (g : Group) (seq : Nat) : Dev :=
  let now := g.early.filter (fun e => e.seq == seq)
  let d := match d.group s with
    | some g => d.setGroup s (some { g with early := g.early.filter (fun e => e.seq != seq) })
    | none => d
  d.each now (fun d e => match g.members.findIdx? (· == e.rank) with
    | none => d
    | some m => if e.type = ftREADY then d.readyIn s m e.data else d.grantIn s m e.grant e.data)

/-- A group's staging extent, checked with every collective that may use it (R411, R413). -/
def Group.stagingRange (g : Group) : List (Nat × Nat × Nat) := if g.stagingLen = 0 then [] else [(g.staging, g.stagingLen, 2)]

/-- Read the lists of a permute: the collective with them, or why not. Every range the command names is checked
before the lists are read (R329). -/
def Dev.permRead (d : Dev) (g : Group) (c : Coll) : Dev × Except (Nat × Nat) Coll :=
  if c.opcode ≠ ocPERM then (d, .ok c)
  else match d.checkRanges c.dom ([(c.sendList, 32 * c.sendCount, 1), (c.recvList, 32 * c.recvCount, 1)] ++ g.stagingRange) with
    | (d, some e) => (d, .error e)
    | (d, none) => match d.fetch (d.cfiAcc c.sendList 1 c.dom) c.sendList (32 * c.sendCount) with
    | (d, .error e) => (d, .error e)
    | (d, .ok sb) => match d.fetch (d.cfiAcc c.recvList 1 c.dom) c.recvList (32 * c.recvCount) with
      | (d, .error e) => (d, .error e)
      | (d, .ok rb) =>
        let c := { c with sends := readPerm sb c.sendCount, recvs := readPerm rb c.recvCount }
        let staged := (c.recvs.filter c.isStaged).foldl (fun a e => a + e.len) 0
        if !permOk sb c.sendCount g.size ∨ !permOk rb c.recvCount g.size then (d, .error (0x040E, 0))
        else if g.stagingLen < staged then (d, .error (0x0408, 0))
        else (d, .ok c)

/-- What starting the first collective of a queue leads to. -/
inductive Started where
  | idle
  | running
  | refused (c : Coll) (st addr : Nat)
  deriving DecidableEq, Repr

/-- Start the collective at the head of a slot's queue (R405, R406, R414): it takes the group's next
sequence number, checks its ranges, and sends READY. -/
def Dev.collStart (d : Dev) (s : Nat) : Dev × Started :=
  match d.group s with
  | none => (d, .idle)
  | some g => match g.queue with
    | [] => (d, .idle)
    | c :: cs =>
      if c.started ∨ d.get (CFI.GROUP_STATE.STATE s) ≠ gsACTIVE then (d, .idle)
      else match d.permRead g c with
        | (d, .error (st, a)) => (d, .refused c st a)
        | (d, .ok c) =>
          let own := d.ownIx s
          let seq := (d.get (CFI.GROUP_SEQ.SEQ s) + 1) % 2 ^ 32
          let d := d.set (CFI.GROUP_SEQ.SEQ s) seq
          let stg := if c.opcode = ocAG then [] else g.stagingRange
          match d.checkRanges c.dom (c.ranges g ++ (if c.isNorm then [] else stg)) with
          | (d, some (st, a)) => (d, .refused c st a)
          | (d, none) =>
            let c := { c with started := true, seq := seq, nextGrant := 1, toGrant := c.firstGrants g own, rx := c.gatherRx g own }
            let d := ((d.setGroup s (some { g with queue := c :: cs })).set (CFI.GROUP_STATE.MISMATCH s) 0).scrambleStaging g c
            let d := if c.opcode = ocPERM then d.permLocal s own c else d
            let d := d.each (c.senders g own) (fun d m => d.sendCtl ftREADY 0 0 (g.rankOf m) (d.get (CFI.GROUP_TAG.TAG s)) seq 0
              (c.summary g own (c.summaryCount m)))
            ((d.takeEarly s g seq).collAdvance s, .running)

/-- Has the running collective done all that R415 asks? -/
def Dev.collDone (d : Dev) (s : Nat) : Bool :=
  match d.group s with
  | none => false
  | some g => match g.queue with
    | [] => false
    | c :: _ =>
      let own := d.ownIx s
      let others := c.receivers g own
      let sent : Bool := match c.opcode with
        | 0x0303 => others.all (fun m =>
            (if c.mode = 1 then c.served.contains (m, segEXP) && c.served.contains (m, segCODES) && (c.codesFor m).isSome else true)
            && (List.range c.segs).all (fun k => c.segBytes m k == 0 || c.served.contains (m, k)))
        | 0x0304 => others.all (fun m => c.served.contains (m, 0))
        | _ => others.all (fun m => (c.served.filter (fun e => e.1 == m)).length == (c.sends.filter (fun e => e.peer == m)).length)
      let folded : Bool := match c.owner with
        | .normReduce _ => own != 0 || c.segDone == 1
        | .normGather _ => true
        | _ => c.opcode != ocRS || c.segDone == c.segs
      c.started && c.err.isNone && !d.flag (CFI.GROUP_STATE.MISMATCH s) && sent && folded && c.toGrant.isEmpty
        && c.rx.all (·.whole) && d.txQuiet (d.get (CFI.GROUP_TAG.TAG s)) c.seq

/-- The writes that end a collective: the own slot and the length vector of an all-gather (R412), the
staged receives of a permute (R413). -/
def Dev.collSettle (d : Dev) (s : Nat) (g : Group) (c : Coll) : Dev × Option (Nat × Nat) :=
  let own := d.ownIx s
  if c.isNorm ∨ c.opcode = ocRS then (d, none)
  else if c.opcode = ocAG then
    match d.fetch (d.cfiAcc c.src 1 c.dom) c.src c.ownBytes with
    | (d, .error e) => (d, some e)
    | (d, .ok bs) => match d.deposit (d.cfiAcc (c.dst + own * c.count) 2 c.dom) (c.dst + own * c.count) bs with
      | (d, some e) => (d, some e)
      | (d, none) =>
        if c.mode ≠ 1 then (d, none)
        else
          let len (i : Nat) : Nat := if i = own then c.own else ((c.rx.find? (fun r => r.peer == i)).bind (·.len)).getD 0
          d.deposit (d.cfiAcc c.lenVec 2 c.dom) c.lenVec ((List.range g.size).flatMap (fun i => leBytes 8 (len i)))
  else
    let local_ := (c.recvs.filter (fun e => e.peer == own)).zip (c.rx.filter (fun r => r.peer == own && r.grant == 0))
    let staged := c.rx.filterMap (fun r => if r.grant ≠ 0 ∧ r.place.isNone then (c.recvs[r.seg]?).map (fun e => (e, r)) else none)
    (local_ ++ staged).foldl (fun (acc : Dev × Option (Nat × Nat)) (e : PermEnt × CollRx) =>
      match acc with
      | (d, some x) => (d, some x)
      | (d, none) => d.deposit (d.cfiAcc e.1.addr 2 c.dom) e.1.addr e.2.bytes) (d, none)

/-- Put a collective at the end of a slot's queue. -/
def Dev.collAdd (d : Dev) (s : Nat) (c : Coll) : Dev :=
  match d.group s with
  | some g => d.setGroup s (some { g with queue := g.queue ++ [c] })
  | none => d

/-- A collective not yet started. -/
def Coll.fresh (owner : CollOwner) (opcode mode sfmt dfmt src dst count : Nat) (dom since : Nat) : Coll :=
  { owner := owner, opcode := opcode, mode := mode, sfmt := sfmt, dfmt := dfmt, src := src, dst := dst, count := count,
    own := 0, lenVec := 0, sendList := 0, sendCount := 0, recvList := 0, recvCount := 0, sends := [], recvs := [],
    limbs := [], dom := dom, since := since, started := false, seq := 0, ready := [], rx := [], toGrant := [],
    nextGrant := 1, grants := [], served := [], segDone := 0, sat := 0, codes := [], staged := false, err := none }

/-- Enter FAILED (R414, R420): every collective of the group, in order; the queue empties. -/
def Dev.failGroup (d : Dev) (s : Nat) : Dev × List Coll :=
  match d.group s with
  | none => (d, [])
  | some g =>
    let d := d.popColl s
    (({ d with cfi.groups := smapSet groupDflt d.cfi.groups s (some { g with queue := [], early := [] }) }).set (CFI.GROUP_STATE.STATE s) gsFAILED,
      g.queue)

/-! ## Shares and reservations (R417, R418) -/

/-- All classes: 256 slots, pipelines, storage. -/
def allClasses : List Nat := List.range 258

/-- Grant the reservations in full or by the factor, and post each change of it (R418). -/
def Dev.rescale (d : Dev) : Dev :=
  let cap := d.cellCap
  let sum := allClasses.foldl (fun a k => a + d.get (CFI.GROUP_RESERVE.RESERVED k)) 0
  let able := cap * 9 / 10
  let d := (d.set CFI.CAPACITY.GBPS cap).set CFI.RESERVED.GBPS sum
  let short := decide (able < sum)
  let d := d.each allClasses (fun d k =>
    let r := d.get (CFI.GROUP_RESERVE.RESERVED k)
    let d := d.set (CFI.GROUP_RESERVE.GRANTED k) (if short then r * able / sum else r)
    d.set (CFI.GROUP_STATE.SCALED k) (b2n (short && r != 0)))
  let old := d.cfi.factor
  if short then
    let changed := match old with | some (a, b) => a * sum != able * b | none => true
    let d := { d with cfi.factor := some (able, sum) }
    d.when changed (·.event 0x040B (able + sum * 65536))
  else { d with cfi.factor := none }.when old.isSome (·.event 0x040B 0)

end Sys2Proof.Machine
end

