-- ==== Sys2Proof/Machine/ParamState.lean ====
section
/-! DEFINITION. The parameter table and the arithmetic of the parameter state engine: entries and their
checks (R353 to R356), copies as lists of values, the norm record (R364), the inner optimiser (R369 to
R371), the running average (R372), the seal (R375), the outer step (R378), the rollout copy (R383) and
digests (R384). -/

namespace Sys2Proof.Machine

/-- A parameter table entry (R353): copy addresses in the order WEIGHT, GRAD, M1, M2, ANCHOR, SEAL,
RESIDUAL, DELTA, AVERAGE, OMOM, ROLLOUT. -/
structure PEnt where
  ix : Nat
  id : Nat
  flags : Nat
  m1f : Nat
  m2f : Nat
  gf : Nat
  shift : Int
  total : Nat
  first : Nat
  count : Nat
  addrs : List Nat
  deriving DecidableEq, Repr

def cWEIGHT : Nat := 0
def cGRAD : Nat := 1
def cM1 : Nat := 2
def cM2 : Nat := 3
def cANCHOR : Nat := 4
def cSEAL : Nat := 5
def cRESID : Nat := 6
def cDELTA : Nat := 7
def cAVG : Nat := 8
def cOMOM : Nat := 9
def cROLL : Nat := 10

def PEnt.addr (e : PEnt) (c : Nat) : Nat := e.addrs.getD c 0
def PEnt.decay (e : PEnt) : Bool := bit e.flags 0
def PEnt.norm (e : PEnt) : Bool := bit e.flags 1
def PEnt.round (e : PEnt) : Bool := bit e.flags 2
def PEnt.record (e : PEnt) : Bool := bit e.flags 3
def PEnt.average (e : PEnt) : Bool := bit e.flags 4
def PEnt.rollout (e : PEnt) : Bool := bit e.flags 5

/-- Read entry ix from its 128 bytes. -/
def readPEnt (ix : Nat) (b : Bytes) : PEnt :=
  { ix := ix, id := le b 0 4, flags := le b 4 1, m1f := le b 5 1 % 16, m2f := le b 5 1 / 16, gf := le b 6 1 % 16,
    shift := sext 8 (le b 7 1), total := le b 8 6, first := le b 14 6, count := le b 20 6,
    addrs := (List.range 11).map (fun i => le b (32 + 8 * i) 6) }

/-- Is an FP32 code +0 or −0? -/
def f32Zero (x : Nat) : Bool := x % 2 ^ 31 == 0

/-- Does an entry keep a copy (R354)? -/
def PEnt.keeps (e : PEnt) (j : PseJob) (c : Nat) : Bool :=
  match c with
  | 0 | 1 | 2 => true
  | 3 => j.adamw
  | 4 | 5 | 6 => e.round
  | 7 => e.round && (e.record || j.hostOuter)
  | 8 => e.average
  | 9 => e.round && !f32Zero j.betaO
  | _ => e.rollout

/-- The format code of a copy (R354). -/
def PEnt.fmtOf (e : PEnt) (c : Nat) : Nat :=
  match c with
  | 1 => e.gf
  | 2 => e.m1f
  | 3 => e.m2f
  | 6 | 7 | 9 => 0
  | 10 => 3
  | _ => 1

/-- Bytes of n elements in a format: MB6 takes a 32-byte record per scale group (R354). -/
def fmtBytes (f n : Nat) : Nat := if f = 5 then 32 * ceilDiv n 32 else n * elemBits f / 8

/-- The checks of an entry from its bytes (R353 to R355). -/
def pentOk (j : PseJob) (e : PEnt) (b : Bytes) : Bool :=
  decide (e.flags < 64) && decide (le b 6 1 < 2) && decide (-64 ≤ e.shift ∧ e.shift ≤ 63) && decide (1 ≤ e.total ∧ 1 ≤ e.count)
    && zeroBytes b 26 6 && zeroBytes b 120 8
    && (e.m1f == 1 || e.m1f == 5) && (if j.adamw then e.m2f == 1 || e.m2f == 5 else e.m2f == 0)
    && (List.range 11).all (fun c => zeroBytes b (38 + 8 * c) 2 && e.addr c % 128 == 0 && (if e.keeps j c then e.addr c != 0 else e.addr c == 0))
    && e.first % 64 == 0 && (e.count % 64 == 0 || e.first + e.count == e.total) && decide (e.first + e.count ≤ e.total)
    && (j.sharded || (e.first == 0 && e.count == e.total))

/-- The PSE's access (R327): unit bit PSE, unit 5, in the cache of the slice that performs it (R331). -/
def pseAcc (slice perm dom : Nat) : Acc := ⟨207 + slice, some 12, perm, dom, 5⟩

/-- The PSE's access to a table or a list, by a slice that no rule names: a free value (log 8). -/
def Dev.pseAny (d : Dev) (addr perm dom : Nat) : Acc :=
  let ks := fittedStacks d.code
  pseAcc (ks.getD (Config.instanceOf d.now d.draws addr % ks.length) 0) perm dom

/-- The slice of a page of a WEIGHT copy: that of the stack the page lies in (R388). -/
def Dev.pseSlice (d : Dev) (addr : Nat) : Nat :=
  if d.get HMC.CAT_CTL.ENABLE = 0 then match stackAt d.code addr with | some (k, _) => k | none => 0
  else entPfn (d.walk (pageOf addr)).2 / 32768

/-- Elements [lo, lo+n) of an entry, cut at the pages of its WEIGHT copy: first element and count of each. -/
def PEnt.pieces (e : PEnt) (lo n : Nat) : List (Nat × Nat) :=
  let w := e.addr cWEIGHT
  let a := w + 2 * lo
  let z := a + 2 * n
  if n = 0 then [] else (List.range (pageOf (z - 1) + 1 - pageOf a)).map (fun i =>
    let p := max a ((pageOf a + i) * pageBytes)
    ((p - w) / 2, (min z ((pageOf a + i + 1) * pageBytes) - p) / 2))

/-- What lies at `base`, `w k` bytes for k elements, of elements [lo, lo+n) of an entry: the accesses of the slices. -/
def Dev.sliceRanges (d : Dev) (perm dom : Nat) (e : PEnt) (base : Nat) (w : Nat → Nat) (lo n : Nat) : List (Acc × Nat × Nat) :=
  (e.pieces lo n).map (fun (p, k) => (pseAcc (d.pseSlice (e.addr cWEIGHT + 2 * p)) perm dom, base + w p, w k))

/-- Read through accesses one after another. -/
def Dev.fetchAll : Dev → List (Acc × Nat × Nat) → Dev × Except (Nat × Nat) Bytes
  | d, [] => (d, .ok [])
  | d, (a, addr, n) :: rs => match d.fetch a addr n with
    | (d, .error x) => (d, .error x)
    | (d, .ok b) => match Dev.fetchAll d rs with
      | (d, .error x) => (d, .error x)
      | (d, .ok bs) => (d, .ok (b ++ bs))

/-- Write through accesses one after another. -/
def Dev.depositAll : Dev → List (Acc × Nat × Nat) → Bytes → Dev × Option (Nat × Nat)
  | d, [], _ => (d, none)
  | d, (a, addr, n) :: rs, b => match d.deposit a addr (b.take n) with
    | (d, some x) => (d, some x)
    | (d, none) => Dev.depositAll d rs (b.drop n)

/-- Entries from the table's bytes. -/
def readTable (b : Bytes) : List PEnt := ((chunksOf 128 (b.length / 128 + 1) b).zipIdx).map (fun (x, i) => readPEnt i x)

/-- The first bad entry of those used: a check fails, or its TENSOR_ID is taken by an earlier one. -/
def badEntry (j : PseJob) (used : PEnt → Bool) (b : Bytes) : Option Nat :=
  let es := readTable b
  ((chunksOf 128 (b.length / 128 + 1) b).zip es).findIdx? (fun (x, e) => used e && (!pentOk j e x || (es.take e.ix).any (fun y => y.id == e.id)))

/-- Read the table and check the entries the command uses (R356): all entries, or status and RESULT. -/
def Dev.pseTable (d : Dev) (j : PseJob) (dom : Nat) (used : PEnt → Bool) : Dev × Except (Nat × Nat) (List PEnt) :=
  match d.fetch (d.pseAny j.table 1 dom) j.table (128 * j.entries) with
  | (d, .error e) => (d, .error e)
  | (d, .ok b) => match badEntry j used b with
    | some i => (d, .error (0x0282, i))
    | none => (d, .ok (readTable b))

/-- The accesses to elements of an entry's copy. -/
def Dev.copyRanges (d : Dev) (perm dom : Nat) (e : PEnt) (c lo n : Nat) : List (Acc × Nat × Nat) :=
  d.sliceRanges perm dom e (e.addr c) (fmtBytes (e.fmtOf c)) lo n

/-- Check whole copies of entries under the PSE's unit bit, each with the permission it needs, and other accesses
(R356). -/
def Dev.pseRanges (d : Dev) (dom : Nat) (cs : List (PEnt × Nat × Nat)) (more : List (Acc × Nat × Nat)) : Dev × Option (Nat × Nat) :=
  d.checkAll (cs.flatMap (fun (e, c, perm) => d.copyRanges perm dom e c 0 e.count) ++ more)

/-! ## Copies as values -/

/-- The FP32 values of n elements of a format: an MB6 group decodes under its scale. -/
def fmtValues (f n : Nat) (b : Bytes) : List Nat :=
  if f = 5 then
    ((chunksOf 32 (b.length / 32 + 1) b).flatMap (fun r => (unpackCodes 6 32 (slice r 1 24)).map (fun c => toF32c (gDecode .mb6 (le r 0 1) c)))).take n
  else ((chunksOf (elemBits f / 8) (n + 1) b).take n).map (fun x => toF32c (elemDecode f (leNat x)))

/-- Read n elements of a copy, from element `lo` on (a multiple of 32), as FP32. -/
def Dev.copyRead (d : Dev) (dom : Nat) (e : PEnt) (c lo n : Nat) : Dev × Except (Nat × Nat) (List Nat) :=
  let f := e.fmtOf c
  match d.fetchAll (d.copyRanges 1 dom e c lo n) with
  | (d, .error x) => (d, .error x)
  | (d, .ok b) => (d, .ok (fmtValues f n b))

/-- Stored codes of values with SR of a tag and SAT (R370): plain formats, or MB6 records whose scale comes
from the 32 unrounded values. Gives the bytes and whether a conversion overflowed. -/
def srBytes (f tag seed step tensor first lo : Nat) (sat : Bool) (vs : List Nat) : Bytes × Bool :=
  if f = 5 then
    let recs := (chunksOf 32 (vs.length / 32 + 1) vs).zipIdx.map (fun (g, j) =>
      let (s, cs, fl) := gEncode .mb6 (fun k => .sr (srBits seed step tensor tag (first + lo + 32 * j + k))) (g.map f32)
      (beBytes 1 s ++ slice (packCodes 6 cs) 0 24 ++ zeros 7, fl.any (·.ovf)))
    (recs.flatMap (·.1), recs.any (·.2))
  else
    let es := vs.zipIdx.map (fun (v, k) => elemConvert f (.sr (srBits seed step tensor tag (first + lo + k))) sat (f32 v))
    (es.flatMap (fun x => leBytes (elemBits f / 8) x.1), es.any (·.2.ovf))

/-- Write bytes of a copy from element `lo` on. -/
def Dev.copyWrite (d : Dev) (dom : Nat) (e : PEnt) (c lo : Nat) (b : Bytes) : Dev × Option (Nat × Nat) :=
  let f := e.fmtOf c
  let n := if f = 5 then min b.length (e.count - lo) else b.length * 8 / elemBits f
  d.depositAll (d.copyRanges 2 dom e c lo n) b

/-- Read several copies of the same elements. -/
def Dev.copiesRead (d : Dev) (dom : Nat) (e : PEnt) (lo n : Nat) : List Nat → Dev × Except (Nat × Nat) (List (List Nat))
  | [] => (d, .ok [])
  | c :: cs =>
    match d.copyRead dom e c lo n with
    | (d, .error x) => (d, .error x)
    | (d, .ok v) => match d.copiesRead dom e lo n cs with
      | (d, .error x) => (d, .error x)
      | (d, .ok vs) => (d, .ok (v :: vs))

/-- Write several copies. -/
def Dev.copiesWrite (d : Dev) (dom : Nat) (e : PEnt) (lo : Nat) : List (Nat × Bytes) → Dev × Option (Nat × Nat)
  | [] => (d, none)
  | (c, b) :: cs =>
    match d.copyWrite dom e c lo b with
    | (d, some x) => (d, some x)
    | (d, none) => d.copiesWrite dom e lo cs

/-! ## Flagged FP32 arithmetic (R369, R371) -/

/-- A value and the flags gathered so far: bit 0 NAN, 1 NV, 2 OF as in PSE.UPDATE_FLAGS. -/
abbrev FlV := Nat × Nat

/-- One RNE step: NAN is set for a NaN operand, and for a NaN result. -/
def fstep (r : Nat × Nat) (nanIn : Bool) (fl : Nat) : FlV :=
  (r.1, fl ||| (if nanIn || (f32 r.1).isNan then 1 else 0) ||| (if r.2 &&& flNV ≠ 0 then 2 else 0) ||| (if r.2 &&& flOF ≠ 0 then 4 else 0))
def fbin (op : Nat → Nat → Nat × Nat) (a b : FlV) : FlV :=
  fstep (op a.1 b.1) ((f32 a.1).isNan || (f32 b.1).isNan) (a.2 ||| b.2)
def fun1 (op : Nat → Nat × Nat) (a : FlV) : FlV := fstep (op a.1) (f32 a.1).isNan a.2
def fAdd := fbin vecAdd
def fSub := fbin vecSub
def fMul := fbin vecMul
def fk (x : Nat) : FlV := (x, 0)

/-! ## The norm record (R364) -/

/-- The squares of a block of up to 64 gradient elements, summed by the tree of R210. -/
def blockSum (gs : List Nat) : Nat :=
  let sq := gs.map (fun g => f32Mul g g)
  pairTree 64 (sq ++ List.replicate (64 - sq.length) 0)

/-- The accumulator integer of a finite partial: s × 2^149. -/
def accOf (s : Nat) : Nat := match f32 s with
  | .fin _ m e => m * 2 ^ (e + 149).toNat
  | _ => 0

/-- Accumulator and non-finite count of block partials. -/
def normAcc (ss : List Nat) : Nat × Nat :=
  ((ss.foldl (fun a s => a + accOf s) 0) % 2 ^ 352, min 0xFFFFFFFF (ss.filter (fun s => !(f32 s).isFin)).length)

/-- The 12 limbs. -/
def limbsOf (acc bad : Nat) : List Int := (List.range 11).map (fun j => ((acc / 2 ^ (32 * j) % 2 ^ 32 : Nat) : Int)) ++ [(bad : Int)]

/-- N2 and the norm of the sums (R365). -/
def normOf (sums : List Int) (s : Nat) : Nat × Nat :=
  let t : Int := (sums.take 11).zipIdx.foldl (fun a (v, j) => a + v * (2 ^ (32 * j) : Nat)) 0
  let n2 := toF32c (valScale (-149) (valOfInt t))
  (n2, f32Mul (f32Sqrt n2) s)

/-! ## The inner optimiser (R369, R370) -/

/-- The updated values of one element from w, g, m, r: weight, first moment, second-moment root. -/
def innerElem (j : PseJob) (decay : Bool) (lr c1 c2 gs w g m r : Nat) : FlV × FlV × FlV :=
  let g := fMul (fk g) (fk gs)
  if j.adamw then
    let m := fAdd (fMul (fk j.beta1) (fk m)) (fMul (fk j.one1) g)
    let v := fAdd (fMul (fk j.beta2) (fMul (fk r) (fk r))) (fMul (fk j.one2) (fMul g g))
    let u := fMul (fMul m (fk c1)) (fun1 vecRsqrt (fAdd (fMul v (fk c2)) (fk j.eps)))
    let u := if decay then fAdd u (fMul (fk j.lambda) (fk w)) else u
    (fSub (fk w) (fMul (fk lr) u), m, fun1 vecSqrt v)
  else
    let g := if decay then fAdd g (fMul (fk j.lambda) (fk w)) else g
    let m := fAdd (fMul (fk j.beta1) (fk m)) g
    (fSub (fk w) (fMul (fk lr) m), m, (0, 0))

/-- Apply the inner optimiser to elements [lo, lo+n) of an entry for step `step` (R369 to R371): the
failure, if any. -/
def Dev.innerRun (d : Dev) (j : PseJob) (dom step lr c1 c2 gs : Nat) (e : PEnt) (lo n : Nat) : Dev × Option (Nat × Nat) :=
  match d.copiesRead dom e lo n ([cWEIGHT, cGRAD, cM1] ++ (if j.adamw then [cM2] else [])) with
  | (d, .error x) => (d, some x)
  | (d, .ok vs) =>
    let col (i : Nat) : List Nat := vs.getD i []
    let out := (List.range n).map (fun i => innerElem j e.decay lr c1 c2 gs ((col 0).getD i 0) ((col 1).getD i 0) ((col 2).getD i 0) ((col 3).getD i 0))
    let (wb, wo) := srBytes 1 1 j.seed step e.id e.first lo false (out.map (·.1.1))
    let (mb, mo) := srBytes e.m1f 2 j.seed step e.id e.first lo true (out.map (·.2.1.1))
    let (rb, ro) := srBytes e.m2f 3 j.seed step e.id e.first lo true (out.map (·.2.2.1))
    let fl := out.foldl (fun a o => a ||| o.1.2 ||| o.2.1.2 ||| o.2.2.2) 0
    let fl := fl ||| (if wo || mo || (j.adamw && ro) then 4 else 0)
    let d := d.wr PSE.UPDATE_FLAGS.REG.off (d.rd PSE.UPDATE_FLAGS.REG.off ||| BitVec.ofNat 32 fl)
    d.copiesWrite dom e lo ([(cWEIGHT, wb), (cM1, mb)] ++ (if j.adamw then [(cM2, rb)] else []))

/-- Run an effect over the elements of an entry; when it stops at an error, a free number of whole blocks
has been done (R387, log 29). -/
def Dev.entryRun (d : Dev) (e : PEnt) (f : Dev → Nat → Nat → Dev × Option (Nat × Nat)) : Dev × Option (Nat × Nat) :=
  match f d 0 e.count with
  | (d, none) => (d, none)
  | (d, some x) =>
    let (v, d) := d.draw
    let n := 64 * (v % (e.count / 64 + 1))
    if n = 0 then (d, some x) else ((f d 0 n).1, some x)

/-- Run over entries in table order until one fails. -/
def Dev.entriesRun (f : Dev → PEnt → Dev × Option (Nat × Nat)) : Dev → List PEnt → Dev × Option (Nat × Nat)
  | d, [] => (d, none)
  | d, e :: es => match f d e with
    | (d, some x) => (d, some x)
    | (d, none) => Dev.entriesRun f d es

/-- The running average (R372). -/
def Dev.averageRun (d : Dev) (j : PseJob) (dom step : Nat) (e : PEnt) (lo n : Nat) : Dev × Option (Nat × Nat) :=
  match d.copiesRead dom e lo n [cWEIGHT, cAVG] with
  | (d, .error x) => (d, some x)
  | (d, .ok vs) =>
    let out := (List.range n).map (fun i =>
      let a := (vs.getD 1 []).getD i 0
      f32Add a (f32Mul j.alpha (f32Sub ((vs.getD 0 []).getD i 0) a)))
    d.copyWrite dom e cAVG lo (srBytes 1 7 j.seed step e.id e.first lo false out).1

/-! ## Seal (R375) and the outer step (R378, R379) -/

/-- SEAL := WEIGHT, and with `delta` DELTA := RNE(RNE(w − anchor) + residual). -/
def Dev.sealRun (d : Dev) (dom : Nat) (delta : Bool) (e : PEnt) (lo n : Nat) : Dev × Option (Nat × Nat) :=
  match d.copiesRead dom e lo n ([cWEIGHT] ++ (if delta then [cANCHOR, cRESID] else [])) with
  | (d, .error x) => (d, some x)
  | (d, .ok vs) =>
    match d.fetchAll (d.copyRanges 1 dom e cWEIGHT lo n) with
    | (d, .error x) => (d, some x)
    | (d, .ok wb) =>
      let out := (List.range n).map (fun i =>
        f32Add (f32Sub ((vs.getD 0 []).getD i 0) ((vs.getD 1 []).getD i 0)) ((vs.getD 2 []).getD i 0))
      d.copiesWrite dom e lo ([(cSEAL, wb)] ++ (if delta then [(cDELTA, out.flatMap (leBytes 4 ·))] else []))

/-- What an element of the outer step takes d from: contributions (weight, values, presence by block), the
combined delta, or the new anchor (R378, R382). -/
inductive OuterIn where
  | contribs (cs : List (Nat × List Nat × List Bool))
  | delta (vs : List Nat)
  | anchor (vs : List Nat)
  deriving DecidableEq, Repr

/-- The sum of weighted contributions of one element in list order (R378), with EXACT_OUTER by R374. -/
def f32Sum (xs : List Nat) : Nat := match xs with
  | [] => 0
  | x :: xs => xs.foldl f32Add x

/-- The combined delta of element i (R378): list order. -/
def combined (cs : List (Nat × List Nat × List Bool)) (i : Nat) : Nat :=
  let live := cs.filter (fun c => c.2.2.getD (i / 64) false)
  f32Div (f32Sum (live.map (fun c => f32Mul c.1 (c.2.1.getD i 0)))) (f32Sum (live.map (·.1)))

/-- Numerators of a scale group under EXACT_OUTER (R374): each product one contributor, 32 elements a
group. -/
def exactNums (cs : List (Nat × List Nat × List Bool)) (g n : Nat) : List Nat :=
  let live := cs.filter (fun c => c.2.2.getD (32 * g / 64) false)
  let ix := (List.range 32).filter (fun k => decide (32 * g + k < n))
  let prods := live.map (fun c => ix.map (fun k => f32 (f32Mul c.1 (c.2.1.getD (32 * g + k) 0))))
  let all := prods.flatten
  let ge := groupExp all
  let bad := all.any (fun v => !v.isFin)
  ix.map (fun k => exactSum ge bad (prods.map (fun p => p.getD k (.fin false 0 0))))

/-- The combined deltas of n elements under EXACT_OUTER; the weights' sum is exact in the same way. -/
def combinedExact (cs : List (Nat × List Nat × List Bool)) (n : Nat) : List Nat :=
  (List.range (ceilDiv n 32)).flatMap (fun g =>
    let live := cs.filter (fun c => c.2.2.getD (32 * g / 64) false)
    let ws := live.map (fun c => f32 c.1)
    let den := exactSum (groupExp ws) false ws
    (exactNums cs g n).map (fun x => f32Div x den))

/-- a_new and μ of one element (R378). -/
def outerElem (j : PseJob) (d mu anchor : Nat) : Nat × Nat :=
  let mom := !f32Zero j.betaO
  let mu' := if mom then f32Add (f32Mul j.betaO mu) d else 0
  let step := if mom then (if j.nesterov then f32Add d (f32Mul j.betaO mu') else mu') else d
  (f32Add anchor (f32Mul j.eta step), mu')

/-- Is the new anchor itself given (R382, FORM 1)? -/
def OuterIn.isAnchor : OuterIn → Bool
  | .anchor _ => true
  | _ => false

/-- Apply the outer step to elements [lo, lo+n) of an entry (R378, R379); `input` covers them. A given anchor needs
neither the old one nor OMOM. -/
def Dev.outerRun (d : Dev) (j : PseJob) (dom step : Nat) (input : Nat → Nat → OuterIn) (e : PEnt) (lo n : Nat) : Dev × Option (Nat × Nat) :=
  let given := (input lo n).isAnchor
  let mom := !f32Zero j.betaO && !given
  match d.copiesRead dom e lo n ([cWEIGHT, cSEAL] ++ (if given then [] else [cANCHOR]) ++ (if mom then [cOMOM] else [])) with
  | (d, .error x) => (d, some x)
  | (d, .ok vs) =>
    let at_ (c i : Nat) : Nat := (vs.getD c []).getD i 0
    let ds := match input lo n with
      | .contribs cs => if j.exact then combinedExact cs n else (List.range n).map (combined cs)
      | .delta xs => xs
      | .anchor xs => xs
    let pairs := (List.range n).map (fun i => match input lo n with
      | .anchor _ => (ds.getD i 0, 0)
      | _ => outerElem j (ds.getD i 0) (at_ 3 i) (at_ 2 i))
    let ws := (List.range n).map (fun i => f32Add (pairs.getD i (0, 0)).1 (f32Sub (at_ 0 i) (at_ 1 i)))
    d.copiesWrite dom e lo ([(cANCHOR, (srBytes 1 4 j.seed step e.id e.first lo false (pairs.map (·.1))).1),
      (cWEIGHT, (srBytes 1 4 j.seed step e.id e.first lo false ws).1)]
      ++ (if mom then [(cOMOM, pairs.flatMap (fun p => leBytes 4 p.2))] else []))

/-! ## Rollout copy and digests (R383, R384) -/

/-- ROLLOUT := RNE_E4M3(w × 2^ROLL_SHIFT) with SAT 1: one rounding of the exact product, which saturates (R104,
R109). -/
def Dev.rolloutRun (d : Dev) (dom : Nat) (e : PEnt) (lo n : Nat) : Dev × Option (Nat × Nat) :=
  match d.copyRead dom e cWEIGHT lo n with
  | (d, .error x) => (d, some x)
  | (d, .ok ws) => d.copyWrite dom e cROLL lo (ws.map (fun w =>
      BitVec.ofNat 8 (elemConvert 3 .rne true (valScale e.shift (f32 w))).1))

/-- The copies DIGEST and checkpoints number (R384, R545). -/
def ckptCopy : Nat → Nat
  | 0 => cWEIGHT | 1 => cM1 | 2 => cM2 | 3 => cANCHOR | 4 => cRESID | 5 => cAVG | 6 => cROLL | 7 => cSEAL | _ => cOMOM

/-- The two lanes over elements with coordinates from `first` (R384). -/
def digestLanes (compat : Bool) (tensor first : Nat) (vs : List Nat) : Nat × Nat :=
  let c0 := if compat then 0x3C6EF372FE94F82B else 0x6A09E667F3BCC908
  let c1 := if compat then 0xA54FF53A5F1D36F1 else 0xBB67AE8584CAA73B
  let t0 := srMix (tensor ^^^ c0)
  let t1 := srMix (tensor ^^^ c1)
  vs.zipIdx.foldl (fun (a : Nat × Nat) (v, i) =>
    let x := if compat then (elemConvert 1 .rne false (f32 v)).1 else v
    ((a.1 + srMix (srMix (t0 ^^^ (first + i)) ^^^ x)) % 2 ^ 64, (a.2 + srMix (srMix (t1 ^^^ (first + i)) ^^^ x)) % 2 ^ 64)) (0, 0)

/-! ## Contributions (R377) -/

/-- The 32-byte record of a contribution with the weight it takes, for a tensor; its presence bitmap stands at `at_`
(log 87). -/
def Contrib.record (x : Contrib) (own w tensor at_ : Nat) : Bytes :=
  leBytes 8 x.addr ++ leBytes 8 at_ ++ leBytes 4 w ++ leBytes 1 x.k ++ zeros 1 ++ leBytes 2 (x.cell.getD own) ++ leBytes 4 tensor ++ zeros 4

/-! ## A job's engine -/

def pseDflt : Nat → PseUnit := fun _ =>
  { cfg := none, guard := ⟨0, 128, 16, 0, []⟩, pending := none, last := none, lastNorm := 0, sealedAcc := none, hostSeal := none,
    appliedAccs := [], applied := 0, held := false, run := none, phase := 1, queue := [] }
def Dev.pseUnit (d : Dev) (j : Nat) : PseUnit := smapGet pseDflt d.pse j
def Dev.setPse (d : Dev) (j : Nat) (u : PseUnit) : Dev := { d with pse := smapSet pseDflt d.pse j u }
def Dev.onPse (d : Dev) (j : Nat) (f : PseUnit → PseUnit) : Dev := d.setPse j (f (d.pseUnit j))

end Sys2Proof.Machine
end

