-- ==== Sys2Proof/Machine/Rounds.lean ====
section
/-! DEFINITION. What accession rounds do (R429 to R470): the layout of the round area, the seal boundary,
coverage of partner streams, the decision and its package, the installation of a decision, the change of
epoch, and how accessions are abandoned. The commands and events that bring these about stand in
`RoundCommands`, `PseCommands` and `FarPath`. -/

namespace Sys2Proof.Machine

/-! ## Layout of the round area (R432, R435) -/

/-- U of R432. -/
def roundUnit (d2 : Bool) : Nat := if d2 then 768 else 1536

/-- The delta stream bound B_s. -/
def RoundCfg.bound (c : RoundCfg) (sh : Shard) : Nat :=
  let s := tessSegCount sh.count
  128 + s * roundUnit c.d2 + alignUp (4 * s) 128

/-- BM_s: bytes of a chunk bitmap. -/
def RoundCfg.bitmap (c : RoundCfg) (sh : Shard) : Nat := 8 * ceilDiv (ceilDiv (c.bound sh) 1048576) 64

/-- The largest, over the members that record shards, of a sum over their shards. -/
def RoundCfg.widest (c : RoundCfg) (f : Shard → Nat) : Nat :=
  (c.shards.map (fun s => (c.shards.filter (fun t => t.record == s.record)).foldl (fun a t => a + f t) 0)).foldl max 0

def RoundCfg.ownSlot (c : RoundCfg) : Nat := c.widest (fun s => 128 + c.bound s)
def RoundCfg.decSlot (c : RoundCfg) : Nat :=
  128 + c.widest (fun s => s.partners.length * 4 * (128 + 2 * c.bitmap s + c.bound s))

/-- V: bytes of a length vector. -/
def roundVec (g : Nat) : Nat := alignUp (8 * g) 128

/-- Outbound block k, its slot i and its length vector. -/
def RoundCfg.outBlock (c : RoundCfg) (g k : Nat) : Nat := c.area + k * (g * c.ownSlot + roundVec g)
def RoundCfg.outAddr (c : RoundCfg) (g k i : Nat) : Nat := c.outBlock g k + i * c.ownSlot
def RoundCfg.outVec (c : RoundCfg) (g k : Nat) : Nat := c.outBlock g k + g * c.ownSlot

/-- Distribution block k, its slot i and its length vector. -/
def RoundCfg.decBlock (c : RoundCfg) (g k : Nat) : Nat := alignUp (c.outBlock g 4) 128 + k * (g * c.decSlot + roundVec g)
def RoundCfg.decAddr (c : RoundCfg) (g k i : Nat) : Nat := c.decBlock g k + i * c.decSlot
def RoundCfg.decVec (c : RoundCfg) (g k : Nat) : Nat := c.decBlock g k + g * c.decSlot

/-- The inbound buffer of shard i, partner p and accessions of residue k. -/
def RoundCfg.inBase (c : RoundCfg) (g : Nat) : Nat := alignUp (c.decBlock g 2) 128
def RoundCfg.inAddr (c : RoundCfg) (g i p k : Nat) : Nat :=
  c.inBase g + (c.shards.take i).foldl (fun a s => a + 4 * s.partners.length * c.bound s) 0
    + (match c.shards[i]? with | some s => (4 * p + k) * c.bound s | none => 0)

/-- The decode buffer of shard i: the own delta's (0), or that of partner p and residue k (1 + 4p + k). -/
def RoundCfg.bufBytes (s : Shard) : Nat := alignUp (2 * s.count) 128
def RoundCfg.bufBase (c : RoundCfg) (g : Nat) : Nat := alignUp (c.inAddr g c.shards.length 0 0) 128
def RoundCfg.bufAddr (c : RoundCfg) (g i n : Nat) : Nat :=
  c.bufBase g + (c.shards.take i).foldl (fun a s => a + (1 + 4 * s.partners.length) * RoundCfg.bufBytes s) 0
    + (match c.shards[i]? with | some s => n * RoundCfg.bufBytes s | none => 0)

/-- The loan region of shard i. -/
def RoundCfg.loanAddr (c : RoundCfg) (g i : Nat) : Nat :=
  alignUp (c.bufAddr g c.shards.length 0) 128 + (c.shards.take i).foldl (fun a s => a + alignUp (tessWorst s.count true) 128) 0

/-- The bytes the round area must hold. -/
def RoundCfg.areaBytes (c : RoundCfg) (g : Nat) : Nat := c.loanAddr g c.shards.length - c.area

/-! ## Accession slots -/

def accDflt : Nat → Option AccSlot := fun _ => none
def Dev.accSlot (d : Dev) (k : Nat) : Option AccSlot := smapGet accDflt d.rnd.slots k
def Dev.setAcc (d : Dev) (k : Nat) (x : Option AccSlot) : Dev := { d with rnd.slots := smapSet accDflt d.rnd.slots k x }
def Dev.onAcc (d : Dev) (k : Nat) (f : AccSlot → AccSlot) : Dev :=
  match d.accSlot k with
  | some x => d.setAcc k (some (f x))
  | none => d

/-- The slot states of R439. -/
def acFREE : Nat := 0
def acSEALING : Nat := 1
def acEXCHANGE : Nat := 2
def acDECIDED : Nat := 3
def acDISTRIBUTED : Nat := 4
def acLATE : Nat := 5
def acABANDONED : Nat := 6

def Dev.accState (d : Dev) (k : Nat) : Nat := d.get (WXU.ACC_STATE.STATE k)
def Dev.setAccState (d : Dev) (k st : Nat) : Dev := d.set (WXU.ACC_STATE.STATE k) st

/-- The distribution group: its size and this device's member index. -/
def Dev.roundSize (d : Dev) (c : RoundCfg) : Nat := match d.group c.group with | some g => g.size | none => 0
def Dev.roundIx (d : Dev) (c : RoundCfg) : Nat := d.ownIx c.group

/-- Is a partner slot in use? -/
def Dev.slotUsed (d : Dev) (s : Nat) : Bool := d.slotState s == wsHANDSHAKE || d.slotState s == wsOPEN

/-- The shards this device records, with their list indexes. -/
def Dev.recorded (d : Dev) (c : RoundCfg) : List (Nat × Shard) :=
  (c.shards.zipIdx.filter (fun e => e.1.record == d.roundIx c)).map (fun e => (e.2, e.1))

/-- Change the partner streams that a test names. -/
def Dev.onStreams (d : Dev) (p : PStream → Bool) (f : PStream → PStream) : Dev :=
  { d with rnd.streams := d.rnd.streams.map (fun s => if p s then f s else s) }

/-- Partner cell and slot of a partner stream. -/
def RoundCfg.partner (c : RoundCfg) (s : PStream) : Nat × Nat :=
  match c.shards[s.shard]? with
  | some sh => sh.partners.getD s.partner (0, 0)
  | none => (0, 0)

/-- Is a stream named by (shard, partner, accession)? -/
def PStream.named (s : PStream) (i p a : Nat) : Bool := s.shard == i && s.partner == p && s.acc == a

/-- A stream nothing of which has come. -/
def PStream.fresh (i p a : Nat) : PStream := ⟨i, p, a, [], none, false, false, false, [], [], [], [], true⟩

/-- Chunks of a stream of n bytes, and the length of chunk c. -/
def chunkCount (n : Nat) : Nat := ceilDiv n 1048576
def chunkLen (n c : Nat) : Nat := min 1048576 (n - c * 1048576)

/-! ## Windows (R455) -/

/-- Close the windows of the streams that a test names: chunks of a known stream that are not covered are
counted as discarded; a retired accession's slot becomes FREE. -/
def Dev.closeWindows (d : Dev) (p : PStream → Bool) : Dev :=
  let lost := (d.rnd.streams.filter (fun s => s.isOpen && p s)).foldl (fun a s => match s.bytes with
    | some n => a + (chunkCount n - s.covered.length)
    | none => a) 0
  (d.bump WXU.LATE_DISCARDED.COUNT lost).onStreams p (fun s => { s with isOpen := false })

/-- How many accessions after its own a partner stream's blocks may still be applied at (R454). -/
def Dev.lateReach (d : Dev) (s : PStream) : Nat :=
  match d.rnd.cfg with
  | some c => if d.slotFast (c.partner s).2 then 1 else 3
  | none => 0

/-- Has a partner stream chunks that were covered and that no decision has considered yet? -/
def PStream.unseen (s : PStream) : Bool := s.covered.any (fun x => !s.seen.contains x)

/-- Will a decision still consider covered chunks of a partner stream whose window has closed (R465, R468): one of
an accession sealed and not decided, or of the open one (log 85)? -/
def Dev.awaitsDecision (d : Dev) (s : PStream) : Bool :=
  let ahead := (List.range 4).filterMap (fun k => match d.accSlot k with
    | some x => if d.accState k = acSEALING ∨ d.accState k = acEXCHANGE then some x.acc else none
    | none => none)
  let ahead := if d.flag WXU.ROUND_STATE.OPEN then ahead ++ [d.get WXU.ROUND_OPEN_ACC.ACCESSION] else ahead
  s.unseen && ahead.any (fun a => decide (s.acc ≤ a ∧ a ≤ s.acc + d.lateReach s))

/-- Free the LATE slots whose windows have all closed (R440), with their partner streams; credit follows. A slot
stays as long as a decision to come takes chunks of its partner streams. -/
def Dev.retireAccs (d : Dev) : Dev :=
  let d := d.each (List.range 4) (fun d k => match d.accSlot k with
    | some x =>
      if d.accState k = acLATE ∧ !d.rnd.streams.any (fun s => s.acc == x.acc && (s.isOpen || d.awaitsDecision s)) then
        { (d.setAcc k none).setAccState k acFREE with rnd.streams := d.rnd.streams.filter (fun s => s.acc != x.acc) }
      else d
    | none => d)
  d.creditAll

/-- The outbound streams of an accession are dropped once the windows of all partners for it have closed
(R446). -/
def Dev.dropOut (d : Dev) (p : OutStream → Bool) : Dev :=
  d.each d.slotNumbers (fun d s => d.onPslot s (fun x => { x with streams := x.streams.filter (fun o => o.loan || !p o) }))

/-! ## The change of epoch (R467, R468) -/

/-- The committed epoch takes effect: windows of sealed accessions close, what was held under the old epoch
for later accessions is discarded, every OPEN slot rekeys (R529). -/
def Dev.takeEpoch (d : Dev) : Dev :=
  if !d.flag WXU.EPOCH_CTL.PENDING_VALID then d
  else
    let d := (d.set WXU.EPOCH.CURRENT (d.get WXU.EPOCH.PENDING)).set WXU.EPOCH_CTL.PENDING_VALID 0
    let held (a : Nat) : Bool := (List.range 4).any (fun k => match d.accSlot k with | some x => x.acc == a | none => false)
    let d := d.closeWindows (fun s => held s.acc)
    let d := { d with rnd.streams := d.rnd.streams.filter (fun s => held s.acc), rnd.members := d.rnd.pendMembers,
                      rnd.restart := d.rnd.pendRestart }
    let d := if d.rnd.pendRestart then { d with rnd.lastSealed := none }.set WXU.ROUND_STATE.EXHAUSTED 0 else d
    let d := d.each d.openSlots (·.rekey)
    d.retireAccs

/-! ## Sealing (R441 to R443) -/

/-- Quantise the DELTA copy of an entry and write its RESIDUAL: the stream, and how many elements were
sanitised. -/
def Dev.quantShard (d : Dev) (c : RoundCfg) (dom seed n : Nat) (e : PEnt) : Dev × Except (Nat × Nat) (Bytes × Nat) :=
  match d.fetch (wxuAcc 1 dom) (e.addr cDELTA) (4 * e.count) with
  | (d, .error x) => (d, .error x)
  | (d, .ok b) =>
    let raw := (chunksOf 4 (e.count + 1) b).map leNat
    let bad (v : Nat) : Bool := !(f32 v).isFin
    let vs := raw.map (fun v => if bad v then 0 else v)
    let g : GFmt := if c.d2 then .d2 else .mb4
    let rnd (j k : Nat) : Rnd := if c.stoch then .sr (srBits seed n e.id 5 (e.first + 32 * j + k)) else .rne
    let gs := (chunksOf 32 (e.count / 32 + 1) vs).zipIdx.map (fun (xs, j) => gEncode g (rnd j) (xs.map f32))
    let codes := gs.flatMap (·.2.1)
    let scales := gs.map (·.1)
    let resid := (vs.zip raw).zipIdx.map (fun ((v, r), i) =>
      if bad r then 0 else f32Sub v (toF32c (gDecode g (scales.getD (i / 32) 0) (codes.getD i 0))))
    match d.deposit (wxuAcc 2 dom) (e.addr cRESID) (resid.flatMap (leBytes 4 ·)) with
    | (d, some x) => (d, .error x)
    | (d, none) =>
      (d, .ok (tessStream (if c.d2 then 7 else 6) e.first e.id true codes scales, (raw.filter bad).length))

/-- Quantise and encode the recorded shards in list order: (list index, stream) pairs and the sanitised
count. -/
def Dev.quantAll (c : RoundCfg) (dom seed n : Nat) (es : List PEnt) : Dev → List (Nat × Shard) → Dev × Except (Nat × Nat) (List (Nat × Bytes) × Nat)
  | d, [] => (d, .ok ([], 0))
  | d, (i, sh) :: rest =>
    match es[sh.entry]? with
    | none => Dev.quantAll c dom seed n es d rest
    | some e => match d.quantShard c dom seed n e with
      | (d, .error x) => (d, .error x)
      | (d, .ok (st, k)) => match Dev.quantAll c dom seed n es d rest with
        | (d, .error x) => (d, .error x)
        | (d, .ok (ss, m)) => (d, .ok ((i, st) :: ss, k + m))

/-- The own package of accession a: each stream after its 128-byte header (R443). -/
def ownPackage (c : RoundCfg) (a : Nat) (ss : List (Nat × Bytes)) : Bytes :=
  ss.flatMap (fun (i, st) => leBytes 4 (match c.shards[i]? with | some s => s.id | none => 0) ++ leBytes 4 a ++ leBytes 8 st.length
    ++ zeros 112 ++ st)

/-- Give the recorded streams of accession a to the partners' slots; those of the accession whose block it
reuses are dropped (R446). -/
def Dev.offerStreams (d : Dev) (c : RoundCfg) (a base : Nat) (ss : List (Nat × Bytes)) : Dev :=
  let d := d.dropOut (fun o => o.acc % 4 == a % 4)
  let offs := (ss.foldl (fun (acc : List Nat × Nat) e => (acc.1 ++ [acc.2 + 128], acc.2 + 128 + e.2.length)) ([], 0)).1
  let d := d.each (ss.zip offs) (fun d ((i, st), o) => match c.shards[i]? with
    | none => d
    | some sh => d.each sh.partners (fun d (_, slot) => if !d.slotUsed slot then d
        else d.onPslot slot (fun p => { p with streams := p.streams ++
          [(⟨false, a, i, st.length, base + o, fragOrder d.fragSize st.length sh.count⟩ : OutStream)] })))
  d.each d.slotNumbers (fun d s => d.wantCheck s false)

/-- The accession that follows a sealed one (R436, R437). -/
def Dev.nextRound (d : Dev) (c : RoundCfg) (a n : Nat) : Dev :=
  if a = 0xFFFFFFFF then
    (((d.set WXU.ROUND_STATE.STOPPING 0).set WXU.ROUND_STATE.OPEN 0).set WXU.ROUND_STATE.EXHAUSTED 1).eventOpen 0x0501
  else if d.flag WXU.ROUND_STATE.STOPPING then (d.set WXU.ROUND_STATE.STOPPING 0).set WXU.ROUND_STATE.OPEN 0
  else { d.set WXU.ROUND_OPEN_ACC.ACCESSION (a + 1) with rnd.sealAfter := n + c.h }

/-- An accession takes its slot (R438, R440). -/
def Dev.takeSlot (d : Dev) (c : RoundCfg) (a n ownLen : Nat) : Dev :=
  let k := a % 4
  let d := d.setAcc k (some ⟨a, d.get WXU.EPOCH.CURRENT, d.now, n, true, ownLen, false, false, false, []⟩)
  let d := (((d.clearReg (WXU.ACC_STATE.REG k).off).setAccState k acSEALING).set (WXU.ACC_ID.ACCESSION k) a).set2
    (WXU.ACC_SEAL_STEP_LO.STEP k) (WXU.ACC_SEAL_STEP_HI.STEP k) n
  let d := (((d.set (WXU.ACC_DECIDE_MS.MILLISECONDS k) 0).set (WXU.ACC_COVERED.COUNT k) 0).set (WXU.ACC_EXPECTED.COUNT k) 0).set
    (WXU.ACC_LATE.COUNT k) 0
  let keep := d.rnd.streams.filter (fun s => s.acc % 4 != k || s.acc == a)
  let want := (d.recorded c).flatMap (fun (i, sh) => (List.range sh.partners.length).map (fun p => PStream.fresh i p a))
  { d with rnd.streams := keep ++ want.filter (fun s => !keep.any (fun t => t.named s.shard s.partner a)) }

/-- The copies a seal reads and writes, with the permission each needs (R375). -/
def sealCopies (delta : Bool) (e : PEnt) : List (PEnt × Nat × Nat) :=
  [(e, cWEIGHT, 1), (e, cSEAL, 2)] ++ (if delta then [(e, cANCHOR, 1), (e, cRESID, 1), (e, cDELTA, 2)] else [])

/-- The copies an outer step reads and writes (R378, R382). -/
def outerCopies (given mom : Bool) (e : PEnt) : List (PEnt × Nat × Nat) :=
  [(e, cWEIGHT, 1), (e, cWEIGHT, 2), (e, cSEAL, 1), (e, cANCHOR, 2)] ++ (if given then [] else [(e, cANCHOR, 1)])
    ++ (if mom && !given then [(e, cOMOM, 1), (e, cOMOM, 2)] else [])

/-- The slot whose accession applies at the boundary after step n (R34). -/
def Dev.applySlot (d : Dev) (rc : RoundCfg) (n : Nat) : Option Nat :=
  (List.range 4).find? (fun k => match d.accSlot k with
    | some x => x.sealStep + rc.lag == n && d.accState k != acLATE
    | none => false)

/-- The copies that the boundary after step n reads and writes when an accession is applied or sealed there (R35, R36). -/
def Dev.boundaryCopies (d : Dev) (j : Nat) (c : PseJob) (n : Nat) (es : List PEnt) : List (PEnt × Nat × Nat) :=
  match d.rnd.cfg with
  | none => []
  | some rc =>
    if rc.job ≠ j ∨ c.hostOuter then []
    else
      let rs := es.filter (·.round)
      (if (d.applySlot rc n).isSome then (rs.filter (fun e => rc.shards.any (fun s => s.entry == e.ix))).flatMap (outerCopies false (!f32Zero c.betaO))
        else [])
        ++ (if d.flag WXU.ROUND_STATE.OPEN ∧ d.rnd.sealAfter = n then rs.flatMap (fun e => sealCopies e.record e) else [])

/-- The seal boundary after step n (R375, R436 to R443): a pending epoch takes effect, then the open
accession is sealed, quantised, encoded and offered to the partners. Every copy is checked before a byte of it moves
(R356). -/
def Dev.sealBoundary (d : Dev) (c : RoundCfg) (j : PseJob) (dom n : Nat) (es : List PEnt) : Dev × Option (Nat × Nat) :=
  let a := d.get WXU.ROUND_OPEN_ACC.ACCESSION
  let d := d.takeEpoch
  let sealed (d : Dev) : Dev := { d with rnd.lastSealed := some a }
  if j.hostOuter then
    ({ (sealed d).nextRound c a n with rnd.hostApply := d.rnd.hostApply ++ [n + c.lag] }, none)
  else
    let quants := (d.recorded c).flatMap (fun (_, sh) => match es[sh.entry]? with
      | some e => [(wxuAcc 1 dom, e.addr cDELTA, 4 * e.count), (wxuAcc 2 dom, e.addr cRESID, 4 * e.count)]
      | none => [])
    match d.pseRanges dom ((es.filter (·.round)).flatMap (fun e => sealCopies e.record e)) quants with
    | (d, some x) => (d, some x)
    | (d, none) => match Dev.entriesRun (fun d e => d.entryRun e (fun d lo m => d.sealRun dom e.record e lo m)) d (es.filter (·.round)) with
    | (d, some x) => (d, some x)
    | (d, none) => match Dev.quantAll c dom j.seed n es d (d.recorded c) with
      | (d, .error x) => (d, some x)
      | (d, .ok (ss, bad)) =>
        let d := (d.bump WXU.SANITISED.COUNT bad).when (bad != 0) (·.eventOpen 0x0509)
        let g := d.roundSize c
        let base := c.outAddr g (a % 4) (d.roundIx c)
        let pkg := ownPackage c a ss
        match d.deposit (wxuAcc 2 dom) base pkg with
        | (d, some x) => (d, some x)
        | (d, none) =>
          let d := (d.takeSlot c a n pkg.length).offerStreams c a base ss
          (((sealed d).nextRound c a n).creditAll, none)

/-- Accession a opens for the round that begins with step n0 (R436). -/
def Dev.openRound (d : Dev) (c : RoundCfg) (a n0 : Nat) : Dev :=
  { (d.set WXU.ROUND_STATE.OPEN 1).set WXU.ROUND_OPEN_ACC.ACCESSION a with
    rnd.opening := none, rnd.sealAfter := n0 + c.h - 1, rnd.everOpened := true }

/-- An accession that a ROUND_OPEN named opens at the boundary after step n (R436). -/
def Dev.openBoundary (d : Dev) (c : RoundCfg) (n : Nat) : Dev :=
  match d.rnd.opening with
  | some (a, n0) => if n0 = n + 1 then d.openRound c a n0 else d
  | none => d

/-! ## Blocks of a stream by chunks (R448 to R451) -/

/-- The block headers of segment s at `start`: (block, header, payload offset, payload bytes), and the
segment's computed end. -/
def segScan (rd : Rd) (elems s start : Nat) : List (Nat × Nat × Nat × Nat) × Nat :=
  let n := min 32 (tessBlockCount elems - 32 * s)
  let heads := (List.range n).map (fun i => leNat (rd (start + 2 * i) 2))
  let (os, cur) := tessPlace 64 (heads.map (fun h => bits h 15 8))
  ((heads.zip os).zipIdx.map (fun ((h, o), i) => (32 * s + i, h, start + o, bits h 15 8)), start + segLen cur)

/-- The chunks that hold [off, off+n). -/
def chunksAt (off n : Nat) : List Nat := if n = 0 then [] else (List.range ((off + n - 1) / 1048576 + 1 - off / 1048576)).map (· + off / 1048576)

/-- The starts of a closed stream's segments, from its directory. -/
def segStarts (rd : Rd) (bytes count : Nat) : List Nat :=
  (List.range (tessSegCount count)).map (fun s => 128 * leNat (rd (streamDir bytes count + 4 * s) 4))

/-- The blocks present under a set of covered chunks (R451), in order: header and payload lie in them. -/
def presentBlocks (rd : Rd) (bytes count : Nat) (cov : List Nat) : List Nat :=
  (segStarts rd bytes count).zipIdx.flatMap (fun (start, s) =>
    if !cov.contains (start / 1048576) then []
    else ((segScan rd count s start).1.filter (fun (_, _, o, n) => (chunksAt o n).all (cov.contains ·))).map (·.1))

/-- The index checks of R448 on a stream whose index chunks have come. -/
def indexOk (fmt bound : Nat) (sh : Shard) (bytes : Nat) (rd : Rd) : Bool :=
  match tessReadHeader fmt (rd 0 128) with
  | .error _ => false
  | .ok h =>
    let ds := segStarts rd bytes sh.count
    h.closed && h.bytes == bytes && decide (bytes ≤ bound) && h.tensor == sh.tensor && h.first == sh.first && h.elems == sh.count
      && ds.all (fun x => decide (x < h.dirOff)) && (ds.zip (ds.drop 1)).all (fun e => decide (e.1 < e.2))

/-- What a received chunk of an accepted stream is (R449, R450): covered, faulted, or waiting for chunks its
segments span. -/
inductive ChunkIs where
  | waits
  | covered
  | faulted
  deriving DecidableEq, Repr

def chunkIs (fmt bytes : Nat) (sh : Shard) (rd : Rd) (have_ : Nat → Bool) (c : Nat) : ChunkIs :=
  if !have_ c then .waits
  else
    let starts := segStarts rd bytes sh.count
    let hd : THeader := ⟨sh.count, sh.first, sh.tensor, true, bytes, streamDir bytes sh.count⟩
    let mine := starts.zipIdx.filter (fun e => e.1 / 1048576 == c)
    let stops := mine.map (fun (start, s) => max (segScan rd sh.count s start).2 (starts.getD (s + 1) hd.dirOff))
    if !(mine.zip stops).all (fun (e, stop) => (chunksAt e.1 (min bytes stop - e.1)).all have_) then .waits
    else if mine.all (fun (start, s) => match tessReadSegment rd fmt bytes hd s start 0 (tessBlockCount sh.count) with
      | .ok (bs, _) => !(blockScales bs).contains 255
      | .error _ => false) then .covered
    else .faulted

/-- The format code of the round's encoding. -/
def RoundCfg.fmt (c : RoundCfg) : Nat := if c.d2 then 7 else 6

/-- Post 0x050A once for a partner cell and accession (R448, R450). -/
def Dev.postReject (d : Dev) (c : RoundCfg) (s : PStream) : Dev :=
  let cell := (c.partner s).1
  let same (t : PStream) : Bool := (c.partner t).1 == cell && t.acc == s.acc
  if d.rnd.streams.any (fun t => same t && t.posted) then d
  else (d.onStreams (fun t => t.named s.shard s.partner s.acc) (fun t => { t with posted := true })).eventOpen 0x050A

/-- Examine a partner stream after bytes of it have come (R448 to R450). -/
def Dev.examine (d : Dev) (c : RoundCfg) (s : PStream) : Dev :=
  match c.shards[s.shard]?, s.bytes with
  | some sh, some n =>
    if s.rejected then d
    else
      let have_ (k : Nat) : Bool := ivHas s.got (k * 1048576) (k * 1048576 + chunkLen n k)
      let me (t : PStream) : Bool := t.named s.shard s.partner s.acc
      let index := (List.range (chunkCount n)).filter (indexChunk n sh.count ·)
      if !index.all have_ then d
      else match d.fetch (wxuAcc 1 d.roundDom) (c.inAddr (d.roundSize c) s.shard s.partner (s.acc % 4)) n with
        | (d, .error _) => d
        | (d, .ok b) =>
          let rd : Rd := fun o k => slice b o k
          if !(s.accepted || indexOk c.fmt (c.bound sh) sh n rd) then
            ((d.onStreams me (fun t => { t with rejected := true })).bump WXU.CONTRIB_REJECTS.COUNT 1).postReject c s
          else
            let todo := (List.range (chunkCount n)).filter (fun k => !s.covered.contains k && !s.faulted.contains k)
            let cov := todo.filter (fun k => chunkIs c.fmt n sh rd have_ k == .covered)
            let bad := todo.filter (fun k => chunkIs c.fmt n sh rd have_ k == .faulted)
            let d := d.onStreams me (fun t => { t with accepted := true, covered := t.covered ++ cov, faulted := t.faulted ++ bad })
            (d.bump WXU.CONTRIB_REJECTS.COUNT bad.length).when (!bad.isEmpty) (·.postReject c s)
  | _, _ => d

/-! ## The decision (R452 to R458) -/

/-- The weight of a contribution of staleness k from a tier (R38). -/
def PseJob.weight (j : PseJob) (fast : Bool) (k : Nat) : Nat :=
  if k = 0 then 0x3F800000 else if fast then (if k = 1 then j.fastW else 0) else j.slowW.getD (k - 1) 0

/-- A bitmap of chunks. -/
def chunkMap (bytes : Nat) (cs : List Nat) : Bytes := leBytes bytes (cs.foldl (fun a c => if a.testBit c then a else a + 2 ^ c) 0)
def mapChunks (b : Bytes) : List Nat := (List.range (8 * b.length)).filter (fun c => (leNat b).testBit c)

/-- The bytes of chunks of an inbound stream. -/
def Dev.readChunks (dom addr n : Nat) : Dev → List Nat → Dev × Option Bytes
  | d, [] => (d, some [])
  | d, c :: cs => match d.fetch (wxuAcc 1 dom) (addr + c * 1048576) (chunkLen n c) with
    | (d, .error _) => (d, none)
    | (d, .ok b) => match Dev.readChunks dom addr n d cs with
      | (d, some bs) => (d, some (b ++ bs))
      | (d, none) => (d, none)

/-- What a stream gives to the decision of a: the record if one is written (R457), and the chunks it counts as
late or discarded. -/
structure StreamDecision where
  rec_ : Option Bytes
  late : Nat
  discarded : Nat
  deriving DecidableEq, Repr

/-- Fix a stream's part in the decision of a; `none`: its chunks could not be read. -/
def Dev.decideStream (d : Dev) (c : RoundCfg) (j : PseJob) (a : Nat) (s : PStream) : Dev × Option StreamDecision :=
  let idle : StreamDecision := ⟨none, 0, 0⟩
  match c.shards[s.shard]?, s.bytes with
  | some sh, some n =>
    if !s.accepted then (d, some idle)
    else
      let k := a - s.acc
      let dom := d.roundDom
      let addr := c.inAddr (d.roundSize c) s.shard s.partner (s.acc % 4)
      let (cell, slot) := c.partner s
      match d.fetch (wxuAcc 1 dom) addr n with
      | (d, .error _) => (d, none)
      | (d, .ok b) =>
        let rd : Rd := fun o m => slice b o m
        let before := presentBlocks rd n sh.count s.seen
        let fresh := (presentBlocks rd n sh.count s.covered).filter (fun x => !before.contains x)
        let me (t : PStream) : Bool := t.named s.shard s.partner s.acc
        if fresh.isEmpty then (d.onStreams me (fun t => { t with seen := s.covered }), some idle)
        else if f32Zero (j.weight (d.slotFast slot) k) then
          let lost := (s.covered.filter (fun x => !s.seen.contains x)).length
          (d.onStreams me (fun t => { t with seen := s.covered }), some ⟨none, 0, lost⟩)
        else
          let new := (List.range (chunkCount n)).filter (fun x => s.covered.contains x && !s.prior.contains x)
          match Dev.readChunks dom addr n d new with
          | (d, none) => (d, none)
          | (d, some bytes) =>
            let bm := c.bitmap sh
            let r := leBytes 4 sh.id ++ leBytes 4 s.acc ++ leBytes 2 cell ++ leBytes 1 k ++ [0] ++ leBytes 4 (chunkCount n)
              ++ leBytes 8 n ++ leBytes 4 bm ++ leBytes 4 new.length ++ zeros 96 ++ chunkMap bm s.covered ++ chunkMap bm s.prior ++ bytes
            let r := r ++ zeros (alignUp r.length 128 - r.length)
            (d.onStreams me (fun t => { t with seen := s.covered, prior := s.covered }), some ⟨some r, (if k = 0 then 0 else new.length), 0⟩)
  | _, _ => (d, some idle)

/-- Fix the streams in turn: records, late chunks per source accession, discarded; `none`: unreadable. -/
def Dev.decideStreams (c : RoundCfg) (j : PseJob) (a : Nat) : Dev → List PStream → Dev × Option (List Bytes × List (Nat × Nat) × Nat)
  | d, [] => (d, some ([], [], 0))
  | d, s :: ss => match d.decideStream c j a s with
    | (d, none) => (d, none)
    | (d, some r) => match Dev.decideStreams c j a d ss with
      | (d, none) => (d, none)
      | (d, some (rs, ls, x)) => (d, some (r.rec_.toList ++ rs, (s.acc, r.late) :: ls, r.discarded + x))

/-- The decision of accession a with a cause (R452 to R458). -/
def Dev.fixDecision (d : Dev) (c : RoundCfg) (j : PseJob) (a cause : Nat) : Dev :=
  let k := a % 4
  match d.accSlot k with
  | none => d
  | some x =>
    let order (s t : PStream) : Bool := decide (s.shard < t.shard ∨ s.shard = t.shard ∧ (s.partner < t.partner ∨ s.partner = t.partner ∧ t.acc ≤ s.acc))
    -- a stream whose window closed before this decision takes part with the chunks it had covered (R465, R468)
    let live := sortBy order (d.rnd.streams.filter (fun s => decide (s.acc ≤ a) && (if s.isOpen then decide (a < s.acc + 4)
      else s.unseen && decide (a ≤ s.acc + d.lateReach s))))
    let own := d.rnd.streams.filter (fun s => s.acc == a && s.accepted)
    let covered := own.foldl (fun n s => n + s.covered.length) 0
    let expected := own.foldl (fun n s => n + chunkCount (s.bytes.getD 0)) 0
    let d := ((d.setAccState k acDECIDED).set (WXU.ACC_STATE.CAUSE k) cause).set (WXU.ACC_DECIDE_MS.MILLISECONDS k)
      (min 0xFFFFFFFF ((d.now - x.sealedAt) / 1000000))
    let d := (d.set (WXU.ACC_COVERED.COUNT k) covered).set (WXU.ACC_EXPECTED.COUNT k) expected
    let (d, out) := Dev.decideStreams c j a d live
    let (recs, lates, lost) := out.getD ([], [], 0)
    let late := lates.foldl (fun n e => n + e.2) 0
    let d := (d.bump WXU.LATE_APPLIED.COUNT late).bump WXU.LATE_DISCARDED.COUNT lost
    let d := d.each lates (fun d (b, n) => match d.accSlot (b % 4) with
      | some y => if y.acc = b then d.bump (WXU.ACC_LATE.COUNT (b % 4)) n else d
      | none => d)
    let d := d.eventInl 0x050B a (leBytes 4 covered ++ leBytes 4 expected ++ leBytes 4 late ++ leBytes 1 cause)
    let fast (s : PStream) : Bool := d.slotFast (c.partner s).2
    let d := d.closeWindows (fun s => decide (s.acc + (if fast s then 1 else 3) ≤ a))
    let d := d.retireAccs
    if out.isNone then d
    else
      let body := recs.flatten
      let own := d.roundIx c
      let g := d.roundSize c
      let pkg := leBytes 2 x.epoch ++ leBytes 2 own ++ leBytes 4 a ++ leBytes 4 recs.length ++ zeros 4 ++ leBytes 8 (128 + body.length)
        ++ zeros 104 ++ body
      let dom := d.roundDom
      match d.deposit (wxuAcc 2 dom) (c.decAddr g (a % 2) own) pkg with
      | (d, some _) => d
      | (d, none) =>
        let coll := Coll.fresh (.decision c.job a) ocAG 1 0 0 (c.decAddr g (a % 2) own) (c.decBlock g (a % 2)) c.decSlot dom d.now
        (d.onAcc k (fun y => { y with decSent := true })).collAdd c.group { coll with own := pkg.length, lenVec := c.decVec g (a % 2) }

/-- Has every partner of every recorded shard sent all of accession a (R452 condition 1)? Slots that are no
longer in use are not waited for (R465). -/
def Dev.allCovered (d : Dev) (c : RoundCfg) (a : Nat) : Bool :=
  (d.rnd.streams.filter (fun s => s.acc == a && d.slotUsed (c.partner s).2)).all (fun s => match s.bytes with
    | some n => s.accepted && s.covered.length == chunkCount n
    | none => false)

/-- Is the job's STEP_UPDATE held at the apply boundary of the accession in slot k (R35)? -/
def Dev.atApply (d : Dev) (job : Nat) (c : RoundCfg) (x : AccSlot) : Bool :=
  match (smapGet (fun _ => none) (d.pse.map (fun e => (e.1, some e.2))) job).bind (·.run) with
  | some r => r.waiting && x.sealStep + c.lag == le r.ops 0 8
  | none => false

/-- Fix the decisions that are due: an accession in EXCHANGE that is complete, past its deadline, or at its
apply boundary (R452), the oldest first. -/
def Dev.decideDue (d : Dev) : Dev :=
  match d.rnd.cfg with
  | none => d
  | some c => match (d.pse.find? (fun e => e.1 == c.job)).bind (·.2.cfg) with
    | none => d
    | some j =>
      let due := (List.range 4).filterMap (fun k => match d.accSlot k with
        | some x => if d.accState k = acEXCHANGE then some (x.acc, x) else none
        | none => none)
      d.each (sortBy (fun (p q : Nat × AccSlot) => decide (p.2.sealStep ≤ q.2.sealStep)) due) (fun d (a, x) =>
        if d.allCovered c a then d.fixDecision c j a 1
        else if x.sealedAt + c.deadlineMs * 1000000 ≤ d.now then d.fixDecision c j a 2
        else if d.atApply c.job c x then d.fixDecision c j a 3
        else d)

/-! ## Installation (R459, R460) -/

/-- Stop every pipeline of a job (R185, R387). -/
def Dev.stopJob (d : Dev) (job st : Nat) : Dev :=
  d.each d.pipes (fun d (p, x) => match x.map with
    | some m => if m.job = job then d.pipeFault p m st 0xFF else d
    | none => d)

/-- Distributed data is damaged (R460, R185): its extent is marked, 0x0305 gives the segment's address, the
job's pipelines stop. -/
def Dev.roundDamage (d : Dev) (c : RoundCfg) (addr n seg st : Nat) : Dev :=
  let d := d.each (List.range (if n = 0 then 0 else pageOf (addr + n - 1) + 1 - pageOf addr)) (fun d i => d.markDamaged (pageOf addr + i))
  (d.event 0x0305 (addr + seg)).stopJob c.job st

/-- BF16 codes of decoded blocks (R105, R109 with SAT 0). -/
def blockBf16 (fmt : Nat) (b : Block) : Bytes :=
  (tessVals fmt b.codes b.scales).flatMap (fun v => leBytes 2 (elemConvert 1 .rne false v).1)

/-- Decode one block of a closed stream, of which the index and the block's segment are there: the checks of every
decoder (R179) on the header, the block and its segment's end. -/
def blockAt (rd : Rd) (fmt bytes b : Nat) : Except TFault Block :=
  match tessReadHeader fmt (rd 0 128) with
  | .error f => .error f
  | .ok hd => match tessReadSegment rd fmt bytes hd (b / 32) (tessEntry rd hd (b / 32)) b b with
    | .ok (x :: _, _) => .ok x
    | .ok ([], _) => .error ⟨0x0302, b, 0, 0, 0⟩
    | .error f => .error f

/-- Write decoded blocks into a decode buffer. -/
def Dev.putBlocks (d : Dev) (dom fmt buf : Nat) (sh : Shard) (bs : List (Nat × Block)) : Dev × Option (Nat × Nat) :=
  bs.foldl (fun (acc : Dev × Option (Nat × Nat)) e => match acc with
    | (d, some x) => (d, some x)
    | (d, none) => d.deposit (wxuAcc 2 dom) (buf + 128 * e.1) ((blockBf16 fmt e.2).take (2 * min 64 (sh.count - 64 * e.1)))) (d, none)

/-- The own streams of the members, decoded (R459 step 3): parsed by the list, one member after another. -/
def Dev.installOwn (d : Dev) (c : RoundCfg) (dom g a : Nat) : Dev × Bool :=
  let place (i : Nat) : Nat :=
    -- shards of the same member before shard i
    ((c.shards.take i).filter (fun s => match c.shards[i]? with | some t => s.record == t.record | none => false)).length
  c.shards.zipIdx.foldl (fun (acc : Dev × Bool) (sh, i) => match acc with
    | (d, false) => (d, false)
    | (d, true) =>
      let slot := c.outAddr g (a % 4) sh.record
      -- skip the streams before it by their headers
      let (d, off) := (List.range (place i)).foldl (fun (acc : Dev × Nat) _ =>
        match acc.1.fetch (wxuAcc 1 dom) (slot + acc.2) 128 with
        | (d, .ok h) => (d, acc.2 + 128 + min (le h 8 8) c.ownSlot)
        | (d, .error _) => (d, acc.2)) (d, 0)
      match d.fetch (wxuAcc 1 dom) (slot + off) 128 with
      | (d, .error _) => (d.roundDamage c (slot + off) 128 0 0x0216, false)
      | (d, .ok h) =>
        let n := min (le h 8 8) (c.bound sh)
        let base := slot + off + 128
        match d.fetch (wxuAcc 1 dom) base n with
        | (d, .error _) => (d.roundDamage c base n 0 0x0216, false)
        | (d, .ok b) =>
          match tessRead (fun o k => slice b o k) c.fmt n 0 (tessBlockCount sh.count) with
          | .error f => (d.roundDamage c base n (tessFaultSeg (fun o k => slice b o k) c.fmt f.block) f.status, false)
          | .ok (_, bs) => match d.putBlocks dom c.fmt (c.bufAddr g i 0) sh (bs.zipIdx.map (fun e => (e.2, e.1))) with
            | (d, some _) => (d.roundDamage c base n 0 0x0216, false)
            | (d, none) => (d, true)) (d, true)

/-- The presence bitmap of a contribution: bit b for block b of the shard (R377). -/
def presenceMap (count : Nat) (bs : List Nat) : Bytes := chunkMap (ceilDiv (tessBlockCount count) 8) bs

/-- Install one record of a package: the contribution, or damage. -/
def Dev.installRec (d : Dev) (c : RoundCfg) (dom g : Nat) (r : Bytes) (at_ : Nat) : Dev × Option Contrib :=
  let n := le r 16 8
  let acc := le r 4 4
  let bm := le r 24 4
  match c.shards.findIdx? (fun s => s.id == le r 0 4) with
  | none => (d.roundDamage c at_ 128 0 0x0302, none)
  | some i => match c.shards[i]? with
    | none => (d, none)
    | some sh => match sh.partners.findIdx? (fun p => p.1 == le r 8 2) with
      | none => (d.roundDamage c at_ 128 0 0x0302, none)
      | some p =>
        let cov := mapChunks (slice r 128 bm)
        let prior := mapChunks (slice r (128 + bm) bm)
        let new := cov.filter (fun x => !prior.contains x)
        let buf := c.inAddr g i p (acc % 4)
        let d := (new.foldl (fun (s : Dev × Nat) x =>
          ((s.1.deposit (wxuAcc 2 dom) (buf + x * 1048576) (slice r s.2 (chunkLen n x))).1, s.2 + chunkLen n x)) (d, 128 + 2 * bm)).1
        match d.fetch (wxuAcc 1 dom) buf n with
        | (d, .error _) => (d.roundDamage c buf n 0 0x0216, none)
        | (d, .ok b) =>
          let rd : Rd := fun o k => slice b o k
          let old := presentBlocks rd n sh.count prior
          let fresh := (presentBlocks rd n sh.count cov).filter (fun x => !old.contains x)
          let fault (x : Nat) : Option TFault := match blockAt rd c.fmt n x with | .error f => some f | .ok _ => none
          match fresh.findSome? fault with
          | some f => (d.roundDamage c buf n (tessFaultSeg rd c.fmt f.block) f.status, none)
          | none =>
            let dst := c.bufAddr g i (1 + 4 * p + acc % 4)
            let bs := fresh.filterMap (fun x => match blockAt rd c.fmt n x with | .ok y => some (x, y) | .error _ => none)
            match d.putBlocks dom c.fmt dst sh bs with
            | (d, some _) => (d.roundDamage c dst (2 * sh.count) 0 0x0216, none)
            | (d, none) => (d, some ⟨i, some (le r 8 2), le r 10 1, dst, presenceMap sh.count fresh⟩)

/-- Install the records of a member's package, one after another. -/
def Dev.installRecs (c : RoundCfg) (dom g : Nat) : Nat → Dev → Nat → Dev × Option (List Contrib)
  | 0, d, _ => (d, some [])
  | k + 1, d, at_ =>
    match d.fetch (wxuAcc 1 dom) at_ 128 with
    | (d, .error _) => (d.roundDamage c at_ 128 0 0x0216, none)
    | (d, .ok h) =>
      let bm := le h 24 4
      let n := le h 16 8
      match d.fetch (wxuAcc 1 dom) (at_ + 128) (2 * bm) with
      | (d, .error _) => (d.roundDamage c at_ 128 0 0x0216, none)
      | (d, .ok m) =>
        let prior := mapChunks (slice m bm bm)
        let new := (mapChunks (slice m 0 bm)).filter (fun x => !prior.contains x)
        let body := new.foldl (fun a x => a + chunkLen n x) 0
        match d.fetch (wxuAcc 1 dom) (at_ + 128 + 2 * bm) body with
        | (d, .error _) => (d.roundDamage c at_ 128 0 0x0216, none)
        | (d, .ok b) => match d.installRec c dom g (h ++ m ++ b) at_ with
          | (d, none) => (d, none)
          | (d, some x) => match Dev.installRecs c dom g k d (at_ + alignUp (128 + 2 * bm + body) 128) with
            | (d, none) => (d, none)
            | (d, some xs) => (d, some (x :: xs))

/-- The decision all-gather of a is complete: install it (R459). -/
def Dev.installDecision (d : Dev) (c : RoundCfg) (a : Nat) : Dev :=
  let g := d.roundSize c
  let dom := d.roundDom
  match d.installOwn c dom g a with
  | (d, false) => d
  | (d, true) =>
    let (d, got) := (List.range g).foldl (fun (acc : Dev × Option (List Contrib)) i => match acc with
      | (d, none) => (d, none)
      | (d, some xs) =>
        let base := c.decAddr g (a % 2) i
        match d.fetch (wxuAcc 1 dom) base 128 with
        | (d, .error _) => (d.roundDamage c base 128 0 0x0216, none)
        | (d, .ok h) => match Dev.installRecs c dom g (min (le h 8 4) 0x1000000) d (base + 128) with
          | (d, none) => (d, none)
          | (d, some ys) => (d, some (xs ++ ys))) (d, some [])
    match got with
    | none => d
    | some xs =>
      let own := c.shards.zipIdx.map (fun (s, i) => (⟨i, none, 0, c.bufAddr g i 0, presenceMap s.count (List.range (tessBlockCount s.count))⟩ : Contrib))
      let order (x y : Contrib) : Bool := decide (x.k < y.k ∨ x.k = y.k ∧ x.cell.getD 0 ≤ y.cell.getD 0)
      (d.onAcc (a % 4) (fun y => { y with contribs := own ++ sortBy order xs })).setAccState (a % 4) acDISTRIBUTED

/-! ## Abandoning (R440) -/

/-- Abandon every accession held: without apply, each posts 0x050C; their slots become FREE. The open one is
abandoned too (R42): no accession is open and none is to open. -/
def Dev.abandonAccs (d : Dev) : Dev :=
  let d := d.each (List.range 4) (fun d k => match d.accSlot k with
    | some _ =>
      let late := decide (d.accState k = acLATE)
      ((d.setAcc k none).setAccState k acFREE).when (!late) (·.eventOpen 0x050C)
    | none => d)
  let d := (d.set WXU.ROUND_STATE.OPEN 0).set WXU.ROUND_STATE.STOPPING 0
  { d with rnd.streams := [], rnd.opening := none,
           wxu.slots := d.wxu.slots.map (fun e => (e.1, e.2.map (fun p => { p with streams := p.streams.filter (·.loan) }))) }

end Sys2Proof.Machine
end

