-- ==== Sys2Proof/Machine/Storage.lean ====
section
/-! DEFINITION. Storage targets and checkpoints (R540 to R561): adding and removing targets, the object and
its records, and the commands that write and read objects as their messages complete. What a job's engine
reports (R389) stands here too, since a restore changes it. -/

namespace Sys2Proof.Machine

/-! ## What a job's engine reports -/

/-- Order of FP32 codes that are not NaN. -/
def f32Le (a b : Nat) : Bool := valCmp (f32 a) (f32 b) != .gt

/-- The median of the accepted norms (R366). -/
def medianOf (xs : List Nat) : Nat := (sortBy f32Le xs).getD ((xs.length - 1) / 2) 0

/-- `PSE.STATE` of a job that has no command done and still to complete. -/
def PseUnit.state (u : PseUnit) : Nat :=
  match u.cfg, u.run with
  | none, _ => 0
  | some _, some r => if r.waiting then 6 else 2
  | some _, none => if u.held then 7 else 1

/-- The registers report a job (R389). -/
def Dev.pseReport (d : Dev) (j : Nat) : Dev :=
  let u := d.pseUnit j
  let b (f : PseJob → Bool) : Nat := match u.cfg with | some c => b2n (f c) | none => 0
  let d := (((d.set PSE.STATE.STATE u.state).set PSE.STATE.EXACT_OUTER (b (·.exact))).set PSE.STATE.HOST_OUTER (b (·.hostOuter))).set
    PSE.STATE.SHARDED (b (·.sharded))
  let d := ((d.set PSE.JOB.JOB j).set2 PSE.STEP_LO.STEP PSE.STEP_HI.STEP (u.last.getD 0)).set PSE.LAST_NORM.NORM u.lastNorm
  let d := (d.set PSE.MEDIAN.MEDIAN (if u.guard.norms.isEmpty then 0 else medianOf u.guard.norms)).set PSE.HISTORY.COUNT u.guard.norms.length
  (d.set PSE.SEALED.ACCESSION (u.sealedAcc.getD 0)).set PSE.APPLIED.ACCESSION u.applied

/-- A command stopped by an uncorrectable codeword: the job's pipelines stop (R387). -/
def Dev.pseFault (d : Dev) (j st : Nat) : Dev := d.when (st == 0x0216) (·.stopJob j st)

/-! ## Targets (R540 to R542) -/

/-- Is a target in use; may a checkpoint command name it (R553)? -/
def Dev.targetUsed (d : Dev) (t : Nat) : Bool := decide (t < 16) && d.get (CFI.STORE_STATE.STATE t) != 0
def Dev.targetReady (d : Dev) (t : Nat) : Bool := d.targetUsed t && d.get (CFI.STORE_STATE.STATE t) != 3

/-- First queue pair, how many, remote base and length of a target. -/
def Dev.targetQp (d : Dev) (t : Nat) : Nat := d.get (CFI.STORE_STATE.FIRST_QP t)
def Dev.targetQps (d : Dev) (t : Nat) : Nat := d.get (CFI.STORE_STATE.QP_COUNT t)
def Dev.targetBase (d : Dev) (t : Nat) : Nat := d.get2 (CFI.STORE_BASE_LO.ADDR t) (CFI.STORE_BASE_HI.ADDR t)
def Dev.targetLen (d : Dev) (t : Nat) : Nat := d.get2 (CFI.STORE_LEN_LO.BYTES t) (CFI.STORE_LEN_HI.BYTES t)

/-- Does a checkpoint command use a target? -/
def CkRun.uses (r : CkRun) (t : Nat) : Bool := if r.opcode = 0x0702 then r.sources.any (fun s => s.1 == t) else r.target == t
def Dev.targetBusy (d : Dev) (t : Nat) : Bool := d.ckpt.runs.any (·.uses t)

/-- `CFI.STORE_STATE` follows the commands (R566). -/
def Dev.targetReport (d : Dev) (t : Nat) : Dev :=
  if d.targetReady t then d.set (CFI.STORE_STATE.STATE t) (if d.targetBusy t then 2 else 1) else d

/-- The lowest run of n free queue pairs (R541). -/
def Dev.freeQps (d : Dev) (n : Nat) : Option Nat :=
  (List.range (65 - n)).find? (fun q => (List.range n).all (fun i => (d.qp (q + i)).target == 0))

/-- The operands of ADD in range (R541). -/
def targetOk (ops : Bytes) : Bool :=
  let n := le ops 2 1
  decide (1 ≤ n ∧ n ≤ 8) && zeroBytes ops 3 1 && decide (0 < le ops 16 8) && le ops 16 8 % 4096 == 0 && zeroBytes ops 40 8
    && (List.range 8).all (fun i => if i < n then le ops (48 + 4 * i) 4 < 2 ^ 24 else le ops (48 + 4 * i) 4 == 0) && zeroBytes ops 80 32

/-- Remove a target: its queue pairs are free. -/
def Dev.targetRemove (d : Dev) (t : Nat) : Dev :=
  let d := d.each (List.range (d.targetQps t)) (fun d i => d.setQp (d.targetQp t + i) (qpDflt 0))
  let d := { d with ckpt.servers := smapSet zeroDflt d.ckpt.servers t 0 }
  d.each ([CFI.STORE_STATE.REG t, CFI.STORE_RKEY.REG t, CFI.STORE_BASE_LO.REG t, CFI.STORE_BASE_HI.REG t, CFI.STORE_LEN_LO.REG t,
    CFI.STORE_LEN_HI.REG t]) (fun d f => d.clearReg f.off)

/-- STORAGE_TARGET_ADD's effect (R541). -/
def Dev.targetAdd (d : Dev) (ops : Bytes) : Dev × Result :=
  let t := le ops 0 1
  let act := le ops 1 1
  if 16 ≤ t ∨ 1 < act then (d, errR 0x0291)
  else if act = 1 then
    if !d.targetUsed t ∨ d.targetBusy t then (d, errR 0x0291)
    else (d.targetRemove t, okU [])
  else if d.targetUsed t ∨ !targetOk ops then (d, errR 0x0291)
  else
    let n := le ops 2 1
    match d.freeQps n with
    | none => (d, errR 0x0291)
    | some q =>
      let (v, d) := d.draw
      let psn := v % 2 ^ 24
      let d := d.each (List.range n) (fun d i => d.setQp (q + i) { qpDflt 0 with target := t + 1, remote := le ops (48 + 4 * i) 4, psn := psn })
      let d := { d with ckpt.servers := smapSet zeroDflt d.ckpt.servers t (le ops 24 16) }
      let d := ((d.set (CFI.STORE_STATE.FIRST_QP t) q).set (CFI.STORE_STATE.QP_COUNT t) n).set (CFI.STORE_STATE.STATE t) 1
      let d := d.set (CFI.STORE_RKEY.RKEY t) (le ops 4 4)
      let d := d.set2 (CFI.STORE_BASE_LO.ADDR t) (CFI.STORE_BASE_HI.ADDR t) (le ops 8 8)
      (d.set2 (CFI.STORE_LEN_LO.BYTES t) (CFI.STORE_LEN_HI.BYTES t) (le ops 16 8), okR (0x100 + q + psn * 2 ^ 24))

/-! ## The object (R543 to R548, R550) -/

/-- A piece of a payload: 1 MiB (R547). -/
def mib : Nat := 1048576

/-- Where payloads of the given sizes and their piece tables lie from `off` on, and OBJECT_BYTES (R543). -/
def ckLayout : Nat → List Nat → List (Nat × Nat) × Nat
  | off, [] => ([], alignUp off 4096)
  | off, n :: ns =>
    let p := alignUp off 4096
    let t := alignUp (p + n) 128
    let (r, e) := ckLayout (t + 4 * ceilDiv n mib) ns
    ((p, t) :: r, e)

/-- The boundary b(i) of an entry's slices (R550). -/
def sliceAt (e : PEnt) (i k : Nat) : Nat := if i < k then e.first + 64 * (ceilDiv e.count 64 * i / k) else e.first + e.count

/-- The copies a mask selects (R549, R555). -/
def maskCopies (mask : Nat) : List Nat := maskBits mask 9

/-- The records after JOBSTATE: copy code, entry, first coordinate, end (R550). -/
def ckRecords (c : PseJob) (mask i k : Nat) (es : List PEnt) : List (Nat × PEnt × Nat × Nat) :=
  es.flatMap (fun e =>
    let lo := sliceAt e i k
    let hi := sliceAt e (i + 1) k
    if hi ≤ lo then [] else ((maskCopies mask).filter (fun x => e.keeps c (ckptCopy x))).map (fun x => (x, e, lo, hi)))

/-- The copies an entry of the new table takes under a mask. -/
def ckWanted (c : PseJob) (mask : Nat) (es : List PEnt) : List (PEnt × Nat) :=
  es.flatMap (fun e => ((maskCopies mask).filter (fun x => e.keeps c (ckptCopy x))).map (fun x => (e, x)))

/-- Address and bytes of a record's payload. -/
def ckRange (e : PEnt) (copy lo hi : Nat) : Nat × Nat :=
  let f := e.fmtOf (ckptCopy copy)
  (e.addr (ckptCopy copy) + fmtBytes f (lo - e.first), fmtBytes f (hi - lo))

/-- Bytes of the JOBSTATE payload (R548). -/
def jobStateBytes : Nat := 4352

/-- A record header with its CRC (R546). -/
def recHeader (copy fmt shift id total first count pay bytes tab l0 l1 : Nat) : Bytes :=
  let h := leBytes 4 0x44524853 ++ leBytes 1 copy ++ leBytes 1 fmt ++ leBytes 1 shift ++ zeros 1 ++ leBytes 4 id ++ leBytes 6 total
    ++ leBytes 6 first ++ leBytes 6 count ++ zeros 2 ++ leBytes 8 pay ++ leBytes 8 bytes ++ leBytes 8 tab ++ leBytes 8 l0 ++ leBytes 8 l1 ++ zeros 52
  h ++ leBytes 4 (crc32c h)

/-- The piece table of a payload (R547). -/
def pieceTable (b : Bytes) : Bytes := (chunksOf mib (b.length / mib + 1) b).flatMap (fun p => leBytes 4 (crc32c p))

/-- Bytes 36 to 127 of a job's PSE_CONFIG (R360). -/
def PseJob.cfgBytes (c : PseJob) : Bytes :=
  let m := b2n c.sharded + 4 * b2n c.adamw + 16 * b2n c.exact + 32 * b2n c.hostOuter + 64 * b2n c.nesterov
  leBytes 4 m ++ leBytes 4 c.beta1 ++ leBytes 4 c.beta2 ++ leBytes 4 c.eps ++ leBytes 4 c.lambda ++ leBytes 4 c.alpha ++ leBytes 2 c.avgEvery ++ zeros 2
    ++ leBytes 4 c.eta ++ leBytes 4 c.betaO ++ leBytes 4 c.fastW ++ c.slowW.flatMap (leBytes 4) ++ zeros 40

/-- The step after step n: step numbers are 64 bits wide, and the one before step 0 is 2^64 − 1 (log 86). -/
def stepAfter (n : Nat) : Nat := (n + 1) % 2 ^ 64

/-- The last step completed; before the first one, the one before the job's first step (R361). -/
def Dev.lastStep (d : Dev) (j : Nat) : Nat :=
  match (d.pseUnit j).last, d.job j with
  | some n, _ => n
  | none, some x => (x.firstStep + 2 ^ 64 - 1) % 2 ^ 64
  | none, none => 0

/-- The JOBSTATE payload of a job (R548). -/
def Dev.jobState (d : Dev) (j : Nat) (c : PseJob) : Bytes :=
  let u := d.pseUnit j
  let mine := match d.rnd.cfg with | some r => r.job == j | none => false
  let isOpen := mine && d.flag WXU.ROUND_STATE.OPEN
  let ns := u.guard.norms
  leBytes 8 c.seed ++ leBytes 8 (d.lastStep j) ++ slice c.cfgBytes 0 92 ++ zeros 20
    ++ leBytes 4 u.guard.ratio ++ leBytes 2 u.guard.window ++ leBytes 2 u.guard.minHist ++ leBytes 4 u.guard.clip ++ zeros 4
    ++ leBytes 2 ns.length ++ zeros 6 ++ leBytes 2 (d.get WXU.EPOCH.CURRENT) ++ leBytes 1 (b2n mine + 2 * b2n isOpen) ++ zeros 1
    ++ leBytes 4 (u.sealedAcc.getD 0) ++ leBytes 4 u.applied ++ leBytes 4 (if isOpen then d.get WXU.ROUND_OPEN_ACC.ACCESSION else 0) ++ zeros 88
    ++ slice (ns.flatMap (leBytes 4)) 0 4096

/-- Read the records' payloads with their digest lanes (R546). -/
def Dev.ckPayloads (dom : Nat) : Dev → List (Nat × PEnt × Nat × Nat) → Dev × Except (Nat × Nat) (List (Bytes × Nat × Nat))
  | d, [] => (d, .ok [])
  | d, (x, e, lo, hi) :: rs =>
    match d.fetchAll (d.copyRanges 1 dom e (ckptCopy x) (lo - e.first) (hi - lo)) with
    | (d, .error y) => (d, .error y)
    | (d, .ok b) => match Dev.ckPayloads dom d rs with
      | (d, .error y) => (d, .error y)
      | (d, .ok bs) => (d, .ok ((b, digestLanes false e.id lo (fmtValues (e.fmtOf (ckptCopy x)) (hi - lo) b)) :: bs))

/-- Append at an offset: zeros up to it. -/
def padTo (b : Bytes) (off : Nat) : Bytes := b ++ zeros (off - b.length)

/-- The object header (R544). -/
def Dev.ckHeader (d : Dev) (j : Nat) (c : PseJob) (snap : Bool) (ops : Bytes) (records len : Nat) : Bytes :=
  let h := leBytes 4 0x4A424F5A ++ leBytes 2 1 ++ leBytes 1 (b2n c.sharded + 2 * b2n snap) ++ zeros 1 ++ slice ops 8 8 ++ leBytes 8 (d.lastStep j)
    ++ leBytes 2 (d.get CFI.CELL.RANK) ++ leBytes 2 (d.get CFI.CELL.SIZE) ++ slice ops 2 4 ++ leBytes 8 Config.serial.toNat
    ++ leBytes 4 (assembly d.code) ++ leBytes 4 records ++ leBytes 8 len ++ leBytes 8 d.now ++ zeros 188
  h ++ leBytes 4 (crc32c h)

/-- Build the whole object of a command. -/
def Dev.ckObject (d : Dev) (j : Nat) (c : PseJob) (snap : Bool) (ops : Bytes) (rs : List (Nat × PEnt × Nat × Nat)) : Dev × Except (Nat × Nat) Bytes :=
  match Dev.ckPayloads (d.domOf j) d rs with
  | (d, .error x) => (d, .error x)
  | (d, .ok pays) =>
    let bodies := d.jobState j c :: pays.map (·.1)
    let (lay, len) := ckLayout (256 + 128 * bodies.length) (bodies.map (·.length))
    let jr := recHeader 0xFF 0 0 0 0 0 0 (lay.getD 0 (0, 0)).1 jobStateBytes (lay.getD 0 (0, 0)).2 0 0
    let dir := ((rs.zip pays).zip (lay.drop 1)).flatMap (fun (((x, e, lo, hi), (b, l0, l1)), (p, t)) =>
      recHeader x (e.fmtOf (ckptCopy x)) (if x = 6 then wrap 8 e.shift else 0) e.id e.total lo (hi - lo) p b.length t l0 l1)
    let h := d.ckHeader j c snap ops bodies.length len ++ jr ++ dir
    (d, .ok (padTo ((bodies.zip lay).foldl (fun acc (b, (p, t)) => padTo (padTo acc p ++ b) t ++ pieceTable b) h) len))

/-! ## Runs and their messages -/

/-- A checkpoint command ends: its result, and its targets are no longer busy because of it. -/
def Dev.ckFinish (d : Dev) (r : CkRun) (res : Result) : Dev :=
  let d := { d with ckpt.runs := d.ckpt.runs.filter (fun x => x.id != r.id),
                    ckpt.qps := d.ckpt.qps.map (fun (e : Nat × Qp) => (e.1, { e.2 with backlog := e.2.backlog.filter (fun m => m.owner != r.id) })) }
  (d.each (List.range 16) (·.targetReport ·)).unitDone r.opcode (fun f => f.org == r.org && f.ops == r.ops) res

/-- Does a job's checkpoint command hold its PSE order (R551, R557): a read, or a write that is not staged? -/
def CkRun.staged (r : CkRun) : Bool := r.opcode != 0x0702 && bit (le r.ops 1 1) 0
def Dev.ckHolds (d : Dev) (j : Nat) : Bool := d.ckpt.runs.any (fun r => r.job == j && !r.staged)

/-- Begin a run. -/
def Dev.ckBegin (d : Dev) (r : CkRun) : Dev :=
  let d := { d with ckpt.runs := d.ckpt.runs ++ [r], ckpt.nextRun := d.ckpt.nextRun + 1 }
  d.each (List.range 16) (fun d t => if r.uses t then (d.set (CFI.STORE_PROGRESS.MIB t) 0).targetReport t else d)

/-- Hand a write of an object's bytes [off, off+n) to queue pair i of its target. -/
def Dev.ckPut (d : Dev) (r : CkRun) (i off n : Nat) (src : TxSrc) : Dev :=
  d.roceAdd (d.targetQp r.target + i % d.targetQps r.target) ⟨r.id, false, (d.targetBase r.target + r.base + off) % 2 ^ 64, n, 0, src⟩

/-- Read n bytes at an offset of source s; on the first queue pair of its target. -/
def Dev.ckGet (d : Dev) (r : CkRun) (s off n : Nat) : Dev :=
  let (t, b) := r.sources.getD s (0, 0)
  d.roceAdd (d.targetQp t) ⟨r.id, true, (d.targetBase t + b + off) % 2 ^ 64, n, 0, .bytes []⟩

/-- A part of where an object's bytes are. -/
def srcPart : TxSrc → Nat → Nat → TxSrc
  | .bytes b, o, n => .bytes (slice b o n)
  | .mem a dom, o, _ => .mem (a + o) dom

/-- The body after the header, in messages of at most 1 MiB dealt to the queue pairs in rotation (R552). -/
def Dev.ckBody (d : Dev) (r : CkRun) (src : TxSrc) : Dev :=
  d.each (List.range (ceilDiv (r.len - 256) mib)) (fun d i =>
    let o := 256 + i * mib
    let n := min mib (r.len - o)
    d.ckPut r i o n (srcPart src o n))

/-! ## CKPT_WRITE and SNAPSHOT (R549 to R555) -/

/-- The operand checks (R549, R553, R555); LOCAL_DEST needs STAGED and names no target. -/
def ckWriteOps (snap : Bool) (ops : Bytes) : Bool :=
  let fl := le ops 1 1
  let k := le ops 4 2
  let loc := bit fl 1
  decide (fl < (if snap then 4 else 2)) && decide (1 ≤ k ∧ k ≤ 12288 ∧ le ops 2 2 < k)
    && (le ops 6 2 &&& (if snap then 0xFF16 else 0xFE40)) == 0 && zeroBytes ops 40 8 && (loc || le ops 16 8 % 4096 == 0)
    && (if bit fl 0 then le ops 24 8 % 0x200000 == 0 else zeroBytes ops 24 16 && !loc)

/-- The sizes of a command's payloads. -/
def ckSizes (rs : List (Nat × PEnt × Nat × Nat)) : List Nat := jobStateBytes :: rs.map (fun (x, e, lo, hi) => (ckRange e x lo hi).2)

/-- Start CKPT_WRITE or SNAPSHOT: the checks of R553 in order; a result when it ends at once. -/
def Dev.ckWriteStart (d : Dev) (j : Nat) (c : PseJob) (opc : Nat) (o : Origin) (ops : Bytes) : Dev × Option Result :=
  let snap := opc == 0x0704
  let fl := le ops 1 1
  let t := le ops 0 1
  let dom := d.domOf j
  let loc := bit fl 1
  let sa := le ops 24 8
  let sb := le ops 32 8
  if !ckWriteOps snap ops then (d, some (errR 0x0107))
  else if !loc ∧ !d.targetReady t then (d, some (errR 0x0298))
  else match d.pseTable c dom (fun e => !(ckRecords c (le ops 6 2) (le ops 2 2) (le ops 4 2) [e]).isEmpty) with
    | (d, .error (st, r)) => (d, some (errA st r))
    | (d, .ok es) =>
      let rs := ckRecords c (le ops 6 2) (le ops 2 2) (le ops 4 2) es
      let sizes := ckSizes rs
      let len := (ckLayout (256 + 128 * sizes.length) sizes).2
      if !loc ∧ d.targetLen t < le ops 16 8 + len then (d, some (errA 0x0292 len))
      else if bit fl 0 ∧ sb < len then (d, some (errR 0x0293))
      else match d.pseRanges dom [] (rs.flatMap (fun (x, e, lo, hi) => d.copyRanges 1 dom e (ckptCopy x) (lo - e.first) (hi - lo))
          ++ (if bit fl 0 then [(d.cfiAcc sa 4 dom, sa, sb)] else [])) with
        | (d, some (st, a)) => (d, some (errA st a))
        | (d, none) =>
          let run : CkRun := { id := d.ckpt.nextRun, org := o, ops := ops, opcode := opc, job := j, stage := 0, target := t, base := le ops 16 8, len := len,
                               src := none, sources := [], at_ := 0, recs := [], step := 0, tasks := [], table := [], piece := 0, inb := [], moved := 0, err := none }
          if !bit fl 0 then
            let d := d.ckBegin run
            (d.ckPut run 0 0 256 (.bytes (zeros 256)), none)
          else match d.ckObject j c snap ops rs with
            | (d, .error (st, a)) => (d, some (errA st a))
            | (d, .ok b) => match d.deposit (d.cfiAcc sa 2 dom) sa b with
              | (d, some (st, a)) => (d, some (errA st a))
              | (d, none) =>
                if loc then (d, some (okR len))
                else
                  let run := { run with src := some (.mem sa dom) }
                  let d := d.ckBegin run
                  (d.ckPut run 0 0 256 (.bytes (zeros 256)), none)

/-- A write whose messages are all acknowledged goes on (R552). -/
def Dev.ckWriteOn (d : Dev) (r : CkRun) : Dev :=
  let body (d : Dev) (src : TxSrc) : Dev :=
    let r := { r with stage := 1, src := some src }
    (d.onRun r.id (fun _ => r)).ckBody r src
  match r.stage with
  | 0 => match r.src with
    | some src => body d src
    | none => match (d.pseUnit r.job).cfg with
      | none => d.ckFinish r (errR 0x0280)
      | some c => match d.pseTable c (d.domOf r.job) (fun e => !(ckRecords c (le r.ops 6 2) (le r.ops 2 2) (le r.ops 4 2) [e]).isEmpty) with
        | (d, .error (st, a)) => d.ckFinish r (errA st a)
        | (d, .ok es) => match d.ckObject r.job c (r.opcode == 0x0704) r.ops (ckRecords c (le r.ops 6 2) (le r.ops 2 2) (le r.ops 4 2) es) with
          | (d, .error (st, a)) => d.ckFinish r (errA st a)
          | (d, .ok b) => body d (.bytes b)
  | 1 =>
    let r' := { r with stage := 2 }
    (d.onRun r.id (fun _ => r')).ckPut r' 0 0 256 (srcPart (r.src.getD (.bytes [])) 0 256)
  | _ => d.ckFinish r (okR r.len)

/-! ## CKPT_READ (R556 to R560) -/

/-- Is a pipeline of the job RUNNING or DRAINING? -/
def Dev.jobRuns (d : Dev) (j : Nat) : Bool :=
  d.pipes.any (fun (p, x) => (match x.map with | some m => m.job == j | none => false) && (d.pipeState p == psRUNNING || d.pipeState p == psDRAINING))

/-- Is an accession of the job open or in a slot? -/
def Dev.jobRound (d : Dev) (j : Nat) : Bool :=
  (match d.rnd.cfg with | some r => r.job == j | none => false) && (d.flag WXU.ROUND_STATE.OPEN || (List.range 4).any (fun k => (d.accSlot k).isSome))

/-- The source list (R556): a bad entry, or a target that is not READY. -/
def Dev.ckSources (d : Dev) (b : Bytes) : Nat → Nat → Except Nat (List (Nat × Nat))
  | 0, _ => .ok []
  | n + 1, i =>
    let t := le b (16 * i) 1
    let o := le b (16 * i + 8) 8
    if !zeroBytes b (16 * i + 1) 7 ∨ 16 ≤ t ∨ o % 4096 ≠ 0 then .error 0x0107
    else if !d.targetReady t then .error 0x0298
    else match d.ckSources b n (i + 1) with
      | .error e => .error e
      | .ok ss => .ok ((t, o) :: ss)

/-- Start CKPT_READ: its state, its operands, its sources. -/
def Dev.ckReadStart (d : Dev) (j : Nat) (o : Origin) (ops : Bytes) : Dev × Option Result :=
  let n := le ops 8 4
  let dom := d.domOf j
  match (d.pseUnit j).cfg with
  | none => (d, some (errR 0x0290))
  | some c =>
    if d.jobRuns j ∨ d.jobRound j then (d, some (errR 0x0290))
    else if !(decide (1 ≤ n ∧ n ≤ 65536) && (le ops 12 2 &&& 0xFE40) == 0 && decide (le ops 14 1 ≤ 1) && zeroBytes ops 15 1 && zeroBytes ops 24 24) then
      (d, some (errR 0x0107))
    else match d.pseTable c dom (fun e => !(ckWanted c (le ops 12 2) [e]).isEmpty) with
      | (d, .error (st, r)) => (d, some (errA st r))
      | (d, .ok _) => match d.fetch (d.cfiAcc (le ops 0 8) 1 dom) (le ops 0 8) (16 * n) with
        | (d, .error (st, a)) => (d, some (errA st a))
        | (d, .ok b) => match d.ckSources b n 0 with
          | .error st => (d, some (errR st))
          | .ok ss =>
            let run : CkRun := { id := d.ckpt.nextRun, org := o, ops := ops, opcode := 0x0702, job := j, stage := 0, target := 0, base := 0, len := 0,
                                 src := none, sources := ss, at_ := 0, recs := [], step := 0, tasks := [], table := [], piece := 0, inb := [], moved := 0, err := none }
            ((d.ckBegin run).ckGet run 0 0 256, none)

/-- A record header read from a directory. -/
def readRec (src : Nat) (b : Bytes) : Option CkRec :=
  if le b 0 4 = 0x44524853 ∧ le b 124 4 = crc32c (slice b 0 124) then
    some ⟨src, le b 4 1, le b 5 1, le b 8 4, le b 12 6, le b 18 6, le b 24 6, le b 32 8, le b 40 8, le b 48 8⟩
  else none

/-- The records of an entry's copy, in list and directory order. -/
def recsFor (recs : List CkRec) (e : PEnt) (x : Nat) : List CkRec := recs.filter (fun r => r.tensor == e.id && r.copy == x)

/-- Do a record's TOTAL and FMT agree with the entry (R558)? -/
def recAgrees (e : PEnt) (x : Nat) (r : CkRec) : Bool :=
  let f := e.fmtOf (ckptCopy x)
  r.total == e.total && (r.fmt == f || (r.fmt == 5 && f == 1))

/-- The runs of [pos, hi) over the records, the first that covers each coordinate (R559); none: some
coordinate is not covered. -/
def ckRuns (e : PEnt) (x : Nat) (rs : List CkRec) (hi : Nat) : Nat → Nat → Option (List CkTask)
  | 0, _ => none
  | fuel + 1, pos =>
    if hi ≤ pos then some []
    else match rs.findIdx? (fun r => decide (r.first ≤ pos ∧ pos < r.first + r.count)) with
      | none => none
      | some k => match rs[k]? with
        | none => none
        | some r =>
          let e0 := min hi (r.first + r.count)
          let stop := (rs.take k).foldl (fun s y => if pos < y.first ∧ y.first < s ∧ y.count ≠ 0 then y.first else s) e0
          match ckRuns e x rs hi fuel stop with
          | none => none
          | some ts => some (⟨e.ix, x, r, pos, stop⟩ :: ts)

/-- All tasks of the data pass, or the first entry not covered. -/
def ckPlan (recs : List CkRec) : List (PEnt × Nat) → Except Nat (List CkTask)
  | [] => .ok []
  | (e, x) :: ws =>
    let rs := recsFor recs e x
    match ckRuns e x rs (e.first + e.count) (2 * rs.length + 2) e.first with
    | none => .error e.ix
    | some ts => match ckPlan recs ws with
      | .error i => .error i
      | .ok us => .ok (ts ++ us)

/-- The JOBSTATE record of the first source. -/
def jobRec (recs : List CkRec) : Option CkRec := recs.find? (fun r => r.src == 0 && r.copy == 0xFF)

/-- Read the piece table of a record. -/
def Dev.ckTable (d : Dev) (r : CkRun) (x : CkRec) : Dev := d.ckGet r x.src x.tabOff (4 * ceilDiv x.payBytes mib)
/-- Read piece p of a record. -/
def Dev.ckPiece (d : Dev) (r : CkRun) (x : CkRec) (p : Nat) : Dev := d.ckGet r x.src (x.payOff + p * mib) (min mib (x.payBytes - p * mib))

/-- The payload bytes [a, b) a task takes from its record. -/
def CkTask.span (t : CkTask) : Nat × Nat := (fmtBytes t.rec_.fmt (t.lo - t.rec_.first), fmtBytes t.rec_.fmt (t.hi - t.rec_.first))

/-- Go to the next task, or to the job state. -/
def Dev.ckNextTask (d : Dev) (r : CkRun) : Dev :=
  match r.tasks with
  | t :: _ =>
    let r := { r with stage := 2 }
    (d.onRun r.id (fun _ => r)).ckTable r t.rec_
  | [] => match jobRec r.recs with
    | none => d.ckFinish r (errA 0x0294 0)
    | some x =>
      let r := { r with stage := 4 }
      (d.onRun r.id (fun _ => r)).ckTable r x

/-- The directory pass is complete (R558): the checks, then the data pass begins. -/
def Dev.ckChecked (d : Dev) (r : CkRun) : Dev :=
  let dom := d.domOf r.job
  match (d.pseUnit r.job).cfg with
  | none => d.ckFinish r (errR 0x0290)
  | some c => match d.pseTable c dom (fun e => !(ckWanted c (le r.ops 12 2) [e]).isEmpty) with
    | (d, .error (st, x)) => d.ckFinish r (errA st x)
    | (d, .ok es) =>
      let ws := ckWanted c (le r.ops 12 2) es
      match jobRec r.recs with
      | none => d.ckFinish r (errA 0x0294 0)
      | some js =>
        if js.payBytes < jobStateBytes then d.ckFinish r (errA 0x0294 0)
        else match ws.find? (fun (e, x) => !(recsFor r.recs e x).all (recAgrees e x)) with
          | some (e, _) => d.ckFinish r (errA 0x0296 e.ix)
          | none => match ckPlan r.recs ws with
            | .error i => d.ckFinish r (errA 0x0295 i)
            | .ok ts =>
              if bit (le r.ops 14 1) 0 then d.ckFinish r (okR r.step)
              else match d.pseRanges dom (ws.map (fun (e, x) => (e, ckptCopy x, 2))) [] with
                | (d, some (st, a)) => d.ckFinish r (errA st a)
                | (d, none) => match ts.find? (fun t => decide (t.rec_.payBytes < t.span.2)) with
                  | some t => d.ckFinish r (errA 0x0294 t.rec_.src)
                  | none => d.ckNextTask { r with tasks := ts }

/-- Is a piece as its piece table says (R547)? -/
def pieceOk (table : Bytes) (p : Nat) (b : Bytes) : Bool := le table (4 * p) 4 == crc32c b

/-- Write what a piece brings to a task: an MB6 record into a BF16 copy converts exactly (R105, R559). -/
def Dev.ckStore (d : Dev) (dom : Nat) (e : PEnt) (t : CkTask) (p : Nat) (b : Bytes) : Dev × Option (Nat × Nat) :=
  let (lo, hi) := t.span
  let a := max lo (p * mib)
  let z := min hi ((p + 1) * mib)
  let part := slice b (a - p * mib) (z - a)
  let f := e.fmtOf (ckptCopy t.copy)
  let w := if t.rec_.fmt = 5 then 1 else elemBits t.rec_.fmt / 8
  let at_ := t.rec_.first + a / w - e.first
  if t.rec_.fmt = f then d.copyWrite dom e (ckptCopy t.copy) at_ part
  else
    let n := min (z - a) (t.hi - (t.rec_.first + a))
    d.copyWrite dom e (ckptCopy t.copy) at_ ((fmtValues 5 n part).flatMap (fun v => leBytes 2 (elemConvert 1 .rne false (f32 v)).1))

/-- Restore the job state (R560). -/
def Dev.ckRestore (d : Dev) (j : Nat) (b : Bytes) : Dev :=
  let seed := le b 0 8
  let n := min 1024 (le b 144 2)
  let d := match d.job j with | some x => d.setJob j (some { x with seed := some seed }) | none => d
  (d.onPse j (fun u => { u with
    cfg := u.cfg.map (fun c => { c with seed := seed }), last := some (le b 8 8),
    guard := ⟨le b 128 4, le b 132 2, le b 134 2, le b 136 4, (List.range n).map (fun i => le b (256 + 4 * i) 4)⟩ })).pseReport j

/-- A read whose bytes have come goes on (R558 to R560). -/
def Dev.ckReadOn (d : Dev) (r : CkRun) : Dev :=
  let b := r.inb
  let r := { r with inb := [] }
  let bad (d : Dev) (s : Nat) : Dev := d.ckFinish r (errA 0x0294 s)
  let nextSource (d : Dev) (r : CkRun) : Dev :=
    if r.at_ + 1 < r.sources.length then
      let r := { r with stage := 0, at_ := r.at_ + 1 }
      (d.onRun r.id (fun _ => r)).ckGet r r.at_ 0 256
    else d.ckChecked r
  match r.stage with
  | 0 =>
    if le b 0 4 ≠ 0x4A424F5A ∨ le b 4 2 ≠ 1 ∨ le b 252 4 ≠ crc32c (slice b 0 252) ∨ le b 8 8 ≠ le r.ops 16 8
        ∨ (r.at_ ≠ 0 ∧ le b 16 8 ≠ r.step) ∨ 2 ^ 24 < le b 44 4 then bad d r.at_
    else
      let r := { r with step := le b 16 8 }
      if le b 44 4 = 0 then nextSource d r
      else
        let r := { r with stage := 1 }
        (d.onRun r.id (fun _ => r)).ckGet r r.at_ 256 (128 * le b 44 4)
  | 1 =>
    let rs := (chunksOf 128 (b.length / 128 + 1) b).map (readRec r.at_)
    if rs.any (·.isNone) then bad d r.at_ else nextSource d { r with recs := r.recs ++ rs.filterMap id }
  | 2 => match r.tasks with
    | [] => d.ckNextTask r
    | t :: _ =>
      let r := { r with stage := 3, table := b, piece := t.span.1 / mib }
      (d.onRun r.id (fun _ => r)).ckPiece r t.rec_ r.piece
  | 3 => match r.tasks, (d.pseUnit r.job).cfg with
    | t :: ts, some c =>
      if !pieceOk r.table r.piece b then d.ckFinish r (errA 0x0297 t.rec_.src)
      else match d.pseTable c (d.domOf r.job) (fun e => e.ix == t.entry) with
        | (d, .error (st, x)) => d.ckFinish r (errA st x)
        | (d, .ok es) => match es[t.entry]? with
          | none => d.ckFinish r (errA 0x0282 t.entry)
          | some e => match d.ckStore (d.domOf r.job) e t r.piece b with
            | (d, some (st, a)) => d.ckFinish r (errA st a)
            | (d, none) =>
              if (r.piece + 1) * mib < t.span.2 then
                let r := { r with piece := r.piece + 1 }
                (d.onRun r.id (fun _ => r)).ckPiece r t.rec_ r.piece
              else d.ckNextTask { r with tasks := ts }
    | _, _ => d.ckFinish r (errR 0x0290)
  | 4 => match jobRec r.recs with
    | none => bad d 0
    | some x =>
      let r := { r with stage := 5, table := b }
      (d.onRun r.id (fun _ => r)).ckPiece r x 0
  | _ =>
    if !pieceOk r.table 0 b then d.ckFinish r (errA 0x0297 0)
    else (d.ckRestore r.job b).ckFinish r (okR r.step)

/-! ## Going on -/

/-- A command using a target in ERROR fails (R542); one that met an address it could not read stops (R554);
one whose messages are done goes on. -/
def Dev.ckSettle : Nat → Dev → Dev
  | 0, d => d
  | fuel + 1, d =>
    let broken (r : CkRun) : Bool := r.err.isSome || (List.range 16).any (fun t => r.uses t && d.targetUsed t && !d.targetReady t)
    match d.ckpt.runs.find? (fun r => broken r || !d.roceBusy r.id) with
    | none => d
    | some r =>
      Dev.ckSettle fuel
        (match r.err with
        | some (st, a) => d.ckFinish r (errA st a)
        | none => if broken r then d.ckFinish r (errR 0x040A) else if r.opcode = 0x0702 then d.ckReadOn r else d.ckWriteOn r)

/-- Let the checkpoint commands go on. -/
def Dev.ckGo (d : Dev) : Dev := Dev.ckSettle (2 * d.ckpt.runs.length + 2) d

end Sys2Proof.Machine
end

