-- ==== Sys2Proof/Machine/Pse.lean ====
section
/-! DEFINITION. The commands of the parameter state engine (R359 to R387) as it executes them for a job, one
at a time: configuration, the step with its norm guard and boundaries, the host outer step, rollout copy and
digest, and the encoding of loan copies, which runs in the same order (R469). -/

namespace Sys2Proof.Machine

/-! ## PSE_CONFIG and NORM_GUARD_CFG (R359, R360, R368) -/

def f32Fin (x : Nat) : Bool := (f32 x).isFin
/-- Is a finite code at least 0, and below or at most 1? −0 is 0. -/
def f32Pos (x : Nat) : Bool := f32Fin x && (decide (x < 2 ^ 31) || f32Zero x)
def f32Below1 (x : Nat) : Bool := f32Pos x && (f32Zero x || decide (x < 0x3F800000))
def f32AtMost1 (x : Nat) : Bool := f32Pos x && (f32Zero x || decide (x ≤ 0x3F800000))

/-- The configuration a PSE_CONFIG names; `none`: a field is out of range. -/
def readPseCfg (ops : Bytes) : Option PseJob :=
  let m := le ops 20 1
  let f (o : Nat) : Nat := le ops (o - 16) 4
  if bits m 1 0 ≤ 1 ∧ bits m 3 2 ≤ 1 ∧ !bit m 7 ∧ zeroBytes ops 21 3 ∧ zeroBytes ops 46 2 ∧ zeroBytes ops 72 40
      ∧ [40, 44, 56, 68].all (fun o => f32Below1 (f o)) ∧ f32Pos (f 48) ∧ f32Pos (f 52) ∧ f32Fin (f 64)
      ∧ [72, 76, 80, 84].all (fun o => f32AtMost1 (f o)) ∧ 1 ≤ le ops 16 4 ∧ le ops 16 4 ≤ 1048576
      ∧ le ops 8 8 % 128 = 0 ∧ le ops 8 8 < 2 ^ 48 then
    some { seed := le ops 0 8, table := le ops 8 8, entries := le ops 16 4, sharded := bit m 0, adamw := bit m 2, exact := bit m 4,
           hostOuter := bit m 5, nesterov := bit m 6, beta1 := f 40, beta2 := f 44, eps := f 48, lambda := f 52, alpha := f 56,
           avgEvery := le ops 44 2, eta := f 64, betaO := f 68, fastW := f 72, slowW := [f 76, f 80, f 84],
           one1 := f32Sub 0x3F800000 (f 40), one2 := f32Sub 0x3F800000 (f 44), oneA := f32Sub 0x3F800000 (f 56) }
  else none

def Dev.pseConfig (d : Dev) (j : Nat) (ops : Bytes) : Dev × Result :=
  match readPseCfg ops, d.job j with
  | some c, some job =>
    if (match job.seed with | some s => s != c.seed | none => false) then (d, errR 0x0281)
    else match d.pseTable c job.domain (fun _ => true) with
      | (d, .error (st, r)) => (d, errA st r)
      | (d, .ok _) =>
        let d := d.setJob j (some { job with seed := some c.seed })
        ((d.onPse j (fun u => { u with cfg := some c })).pseReport j, okU [])
  | _, _ => (d, errR 0x0107)

def Dev.guardConfig (d : Dev) (j : Nat) (ops : Bytes) : Dev × Result :=
  let ratio := le ops 0 4
  let w := le ops 4 2
  let m := le ops 6 2
  let clip := le ops 8 4
  let x := le ops 12 1
  if f32Pos ratio ∧ (f32Zero ratio ∨ 0x3F800000 ≤ ratio) ∧ 1 ≤ w ∧ w ≤ 1024 ∧ 1 ≤ m ∧ m ≤ w ∧ f32Pos clip ∧ x ≤ 1 ∧ zeroBytes ops 13 35 then
    let clear := x == 1 || (match (d.pseUnit j).pending with | some (_, _, _, _, c) => c | none => false)
    ((d.onPse j (fun u => { u with pending := some (ratio, w, m, clip, clear) })).pseReport j, okU [])
  else (d, errR 0x0107)

/-- The guard a step starts with (R368). -/
def PseUnit.takeGuard (u : PseUnit) : PseUnit :=
  match u.pending with
  | none => u
  | some (r, w, m, c, clear) =>
    let ns := if clear then [] else u.guard.norms
    { u with pending := none, guard := ⟨r, w, m, c, ns.drop (ns.length - w)⟩ }

/-! ## The step (R361 to R372) -/

/-- Is the running average due at step n? -/
def PseJob.averages (c : PseJob) (n : Nat) : Bool := c.avgEvery != 0 && n % c.avgEvery == 0

/-- The copies a step reads and writes before its boundary, and the permission each needs. -/
def stepCopies (c : PseJob) (n : Nat) (e : PEnt) : List (PEnt × Nat × Nat) :=
  let rw (k : Nat) : List (PEnt × Nat × Nat) := [(e, k, 1), (e, k, 2)]
  [(e, cGRAD, 1)] ++ rw cWEIGHT ++ rw cM1 ++ (if c.adamw then rw cM2 else []) ++ (if c.averages n && e.average then rw cAVG else [])

/-- The norm pass over the NORM entries (R364): accumulator and non-finite count. -/
def Dev.normPass (dom : Nat) : Dev → List PEnt → Dev × Except (Nat × Nat) (Nat × Nat)
  | d, [] => (d, .ok (0, 0))
  | d, e :: es => match d.copyRead dom e cGRAD 0 e.count with
    | (d, .error x) => (d, .error x)
    | (d, .ok gs) =>
      let (a, b) := normAcc ((chunksOf 64 (gs.length / 64 + 1) gs).map blockSum)
      match Dev.normPass dom d es with
      | (d, .error x) => (d, .error x)
      | (d, .ok (a', b')) => (d, .ok ((a + a') % 2 ^ 352, min 0xFFFFFFFF (b + b')))

/-- The operand checks of STEP_UPDATE (R361). -/
def stepOps (ops : Bytes) : Bool :=
  f32Fin (le ops 8 4) && f32Fin (le ops 12 4) && f32Fin (le ops 16 4) && f32Pos (le ops 20 4) && !f32Zero (le ops 20 4)
    && decide (le ops 24 2 < 256) && zeroBytes ops 26 22

/-- The start of STEP_UPDATE: its checks, the norm pass, and the norm group's two collectives (R365, R410).
A result: it ended at once. -/
def Dev.stepStart (d : Dev) (j : Nat) (c : PseJob) (ops : Bytes) : Dev × Option Result :=
  let n := le ops 0 8
  let g := le ops 24 2
  let dom := d.domOf j
  let want := match (d.pseUnit j).last, d.job j with
    | some l, _ => stepAfter l
    | none, some x => x.firstStep
    | none, none => 0
  if !stepOps ops then (d, some (errR 0x0107))
  else if d.get (CFI.GROUP_STATE.STATE g) ≠ gsACTIVE then (d, some (errR 0x040E))
  else if n ≠ want then (d, some (errR 0x0283))
  else match d.pseTable c dom (fun _ => true) with
    | (d, .error (st, r)) => (d.pseFault j st, some (errA st r))
    | (d, .ok es) => match d.pseRanges dom (es.flatMap (stepCopies c n) ++ d.boundaryCopies j c n es) [] with
      | (d, some (st, a)) => (d, some (errA st a))
      | (d, none) =>
        match d.fetch (d.pseAny c.table 1 dom) c.table (128 * c.entries) with
        | (d, .error (st, a)) => (d.pseFault j st, some (errA st a))
        | (d, .ok tb) =>
          let d := d.onPse j (·.takeGuard)
          match Dev.normPass dom d (es.filter (·.norm)) with
          | (d, .error (st, a)) => (d.pseFault j st, some (errA st a))
          | (d, .ok (acc, bad)) =>
            let d := d.onPse j (fun u => { u with run := some ⟨ops, tb, g, 0, false⟩, phase := 2 })
            let coll (o : CollOwner) (op mode count : Nat) : Coll := { Coll.fresh o op mode fcEX48 fcEX48 0 0 count dom d.now with limbs := limbsOf acc bad }
            (((d.collAdd g (coll (.normReduce j) ocRS 2 12)).collAdd g (coll (.normGather j) ocAG 0 72)).pseReport j, none)

/-- End the STEP_UPDATE of a job: its completion follows. -/
def Dev.stepEnd (d : Dev) (j : Nat) (r : Result) : Dev :=
  ((d.onPse j (fun u => { u with run := none })).pseReport j).unitHold 0x0402 (fun f => f.job == j) r

/-- The phase a job's command has come to (R389). -/
def Dev.psePhase (d : Dev) (j n : Nat) : Dev := d.onPse j (fun u => { u with phase := n })

/-- STEP_UPDATE meets an error. -/
def Dev.stepFail (d : Dev) (j : Nat) (r : Result) : Dev := (d.pseFault j r.status).stepEnd j r

/-- The end of a step's boundary: an accession opens, the open one is sealed, the command completes (R36,
R362). -/
def Dev.stepFinish (d : Dev) (j : Nat) (c : PseJob) (r : StepRun) : Dev :=
  let n := le r.ops 0 8
  let done (d : Dev) : Dev := d.stepEnd j (okR r.result)
  match d.rnd.cfg with
  | none => done d
  | some rc =>
    if rc.job ≠ j then done d
    else if d.flag WXU.ROUND_STATE.OPEN ∧ d.rnd.sealAfter = n then
      let a := d.get WXU.ROUND_OPEN_ACC.ACCESSION
      match d.sealBoundary rc c (d.domOf j) n (readTable r.table) with
      | (d, some e) => d.stepFail j (errA e.1 e.2)
      | (d, none) => done (if c.hostOuter then d else d.onPse j (fun u => { u with sealedAcc := some a, phase := 4 }))
    else done (d.openBoundary rc n)

/-- The step boundary after step n (R35, R36, R362, R381). -/
def Dev.stepBoundary (d : Dev) (j : Nat) (c : PseJob) (r : StepRun) : Dev :=
  let n := le r.ops 0 8
  let d := d.onPse j (fun u => { u with last := some n })
  match d.rnd.cfg with
  | none => d.stepFinish j c r
  | some rc =>
    if rc.job ≠ j then d.stepFinish j c r
    else if c.hostOuter ∧ d.rnd.hostApply.contains n then
      let d := { d with rnd.hostApply := d.rnd.hostApply.filter (· != n) }
      (d.onPse j (fun u => { u with held := true })).stepFinish j c r
    else if (d.applySlot rc n).isSome then
      ((d.onPse j (fun u => { u with run := some { r with waiting := true } })).pseReport j).decideDue
    else d.stepFinish j c r

/-- The guard's verdict (R366): 0 accepted, 1 NON_FINITE, 2 RATIO. -/
def Guard.verdict (g : Guard) (bad : Int) (n2 norm : Nat) : Nat :=
  if bad ≠ 0 ∨ !(f32Fin n2) then 1
  else if !f32Zero g.ratio ∧ g.minHist ≤ g.norms.length ∧ !f32Le norm (f32Mul g.ratio (medianOf g.norms)) then 2
  else 0

/-- The gradient scale (R367). -/
def Guard.scale (g : Guard) (s norm : Nat) : Nat :=
  if f32Zero g.clip ∨ f32Le norm g.clip then s else f32Mul s (f32Div g.clip norm)

/-- Count elements updated in units of 2^20. -/
def Dev.countElements (d : Dev) (n : Nat) : Dev :=
  let t := d.pseRem + n
  { d.bump PSE.ELEMENTS.COUNT (t / 1048576) with pseRem := t % 1048576 }

/-- The sums have come (R365 to R372): the guard decides, the update and the average run, the boundary
follows. -/
def Dev.stepDecide (d : Dev) (j : Nat) (sums : List Int) : Dev :=
  match (d.pseUnit j).cfg, (d.pseUnit j).run with
  | some c, some r =>
    let n := le r.ops 0 8
    let s := le r.ops 20 4
    let g := (d.pseUnit j).guard
    let (n2, norm) := normOf sums s
    let cause := g.verdict (sums.getD 11 0) n2 norm
    let r := { r with result := b2n (cause != 0) + 2 * cause + norm * 2 ^ 32 }
    let d := d.onPse j (fun u => { u with lastNorm := norm, run := some r })
    if cause ≠ 0 then (d.bump PSE.SUPPRESSED.COUNT 1).stepBoundary j c r
    else
      let ns := if g.window ≤ g.norms.length then g.norms.drop (g.norms.length + 1 - g.window) else g.norms
      let d := d.onPse j (fun u => { u with guard := { g with norms := ns ++ [norm] } })
      let dom := d.domOf j
      let es := readTable r.table
      let gs := g.scale s norm
      let update (e : PEnt) (d : Dev) (lo m : Nat) : Dev × Option (Nat × Nat) :=
        match d.innerRun c dom n (le r.ops 8 4) (le r.ops 12 4) (le r.ops 16 4) gs e lo m with
        | (d, none) => (d.countElements m, none)
        | (d, some x) => (d, some x)
      match Dev.entriesRun (fun d e => d.entryRun e (update e)) (d.psePhase j 3) es with
      | (d, some e) => d.stepFail j (errA e.1 e.2)
      | (d, none) =>
        let avg := if c.averages n then es.filter (·.average) else []
        match Dev.entriesRun (fun d e => d.entryRun e (fun d lo m => d.averageRun c dom n e lo m)) d avg with
        | (d, some e) => d.stepFail j (errA e.1 e.2)
        | (d, none) => d.stepBoundary j c r
  | _, _ => d

/-! ## The apply boundary (R377 to R379) -/

/-- Is a shard's partner cell in the fast tier: that of the slot its partner list names. The other members are given
no slot, and no rule tells them the tier: a free value (R38, log 87). -/
def Dev.cellFast (d : Dev) (rc : RoundCfg) (shard cell : Nat) : Bool × Dev :=
  match (rc.shards[shard]?).bind (fun s => s.partners.find? (fun p => p.1 == cell && p.2 != 0xFFFF)) with
  | some p => (d.slotFast p.2, d)
  | none => let (v, d) := d.draw; (v % 2 == 0, d)

/-- The weight of a contribution. -/
def Dev.omega (d : Dev) (rc : RoundCfg) (c : PseJob) (x : Contrib) : Nat × Dev :=
  match x.cell with
  | none => (0x3F800000, d)
  | some cell => if x.k = 1 then let (f, d) := d.cellFast rc x.shard cell; (c.weight f 1, d) else (c.weight false x.k, d)

/-- The contribution list of an entry as the curator firmware hands it over: records with their bitmaps (R377). -/
def Dev.contribList (rc : RoundCfg) (c : PseJob) (e : PEnt) : Dev → List Contrib → Dev × List (Bytes × Bytes)
  | d, [] => (d, [])
  | d, x :: xs =>
    let (w, d) := d.omega rc c x
    let (at_, d) := d.draw
    let (d, rs) := Dev.contribList rc c e d xs
    (d, (x.record rc.cell w e.id (at_ % 2 ^ 48), x.presence) :: rs)

/-- The contributions of an entry: weight, values of the BF16 buffer, read by the slices, and bitmap. -/
def Dev.readContribs (dom : Nat) (e : PEnt) : Dev → List (Bytes × Bytes) → Dev × Except (Nat × Nat) (List (Nat × List Nat × Nat))
  | d, [] => (d, .ok [])
  | d, (r, map) :: rs => match d.fetchAll (d.sliceRanges 1 dom e (le r 0 8) (fmtBytes 1) 0 e.count) with
    | (d, .error x) => (d, .error x)
    | (d, .ok b) => match Dev.readContribs dom e d rs with
      | (d, .error x) => (d, .error x)
      | (d, .ok ys) => (d, .ok ((le r 16 4, fmtValues 1 e.count b, leNat map) :: ys))

/-- The outer step of an entry with its contribution list (R378). -/
def Dev.applyEntry (d : Dev) (c : PseJob) (dom n : Nat) (rs : List (Bytes × Bytes)) (e : PEnt) : Dev × Option (Nat × Nat) :=
  match Dev.readContribs dom e d rs with
  | (d, .error x) => (d, some x)
  | (d, .ok cs) =>
    let input (lo m : Nat) : OuterIn := .contribs (cs.map (fun (w, vs, map) =>
      (w, (vs.drop lo).take m, (List.range (ceilDiv m 64)).map (fun i => map.testBit (lo / 64 + i)))))
    d.entryRun e (fun d lo m => d.outerRun c dom n input e lo m)

/-- APPLY_BOUNDARY's effect: the accession at its apply boundary is applied once it is distributed, then the
boundary goes on (R35, R36, R440). Every copy and buffer is checked before a byte moves (R356). -/
def Dev.applyBoundary (d : Dev) (j : Nat) : Dev :=
  match (d.pseUnit j).cfg, (d.pseUnit j).run, d.rnd.cfg with
  | some c, some r, some rc =>
    let n := le r.ops 0 8
    if !r.waiting ∨ rc.job ≠ j then d
    else match d.applySlot rc n with
      | none => d
      | some k => match d.accSlot k with
        | none => d
        | some x =>
          if d.accState k ≠ acDISTRIBUTED then d
          else
            let dom := d.domOf j
            let es := (readTable r.table).filter (fun e => e.round && rc.shards.any (fun s => s.entry == e.ix))
            let mine (e : PEnt) : List Contrib := x.contribs.filter (fun y => match rc.shards[y.shard]? with | some s => s.entry == e.ix | none => false)
            let buffers := es.flatMap (fun e => (mine e).flatMap (fun y => d.sliceRanges 1 dom e y.addr (fmtBytes 1) 0 e.count))
            match d.pseRanges dom (es.flatMap (outerCopies false (!f32Zero c.betaO))) buffers with
            | (d, some e) => d.stepFail j (errA e.1 e.2)
            | (d, none) => match Dev.entriesRun (fun d e => let (d, rs) := Dev.contribList rc c e d (mine e); d.applyEntry c dom n rs e) d es with
            | (d, some e) => d.stepFail j (errA e.1 e.2)
            | (d, none) =>
              let d := (d.onPse j (fun u => { u with applied := x.acc, run := some { r with waiting := false }, phase := 5 })).setAccState k acLATE
              let ended := !d.flag WXU.ROUND_STATE.OPEN && d.rnd.opening.isNone && !d.flag WXU.ROUND_STATE.EXHAUSTED
                && (List.range 4).all (fun i => (d.accSlot i).isNone || d.accState i == acLATE)
              let d := d.when ended (·.closeWindows (fun _ => true))
              d.retireAccs.stepFinish j c r
  | _, _, _ => d

/-! ## Host outer-step mode (R381, R382) -/

def Dev.pseSeal (d : Dev) (j : Nat) (c : PseJob) (ops : Bytes) : Dev × Result :=
  let dom := d.domOf j
  if !c.hostOuter then (d, errR 0x0285)
  else if !zeroBytes ops 4 44 then (d, errR 0x0107)
  else match d.pseTable c dom (·.round) with
    | (d, .error (st, r)) => (d.pseFault j st, errA st r)
    | (d, .ok all) =>
      let es := all.filter (·.round)
      match d.pseRanges dom (es.flatMap (sealCopies true)) [] with
      | (d, some (st, a)) => (d, errA st a)
      | (d, none) => match Dev.entriesRun (fun d e => d.entryRun e (fun d lo m => d.sealRun dom true e lo m)) d es with
        | (d, some (st, a)) => (d.pseFault j st, errA st a)
        | (d, none) => ((d.onPse j (fun u => { u with sealedAcc := some (le ops 0 4), hostSeal := some (le ops 0 4), phase := 4 })).pseReport j, okR (le ops 0 4))

def Dev.pseOuter (d : Dev) (j : Nat) (c : PseJob) (ops : Bytes) : Dev × Result :=
  let dom := d.domOf j
  let acc := le ops 0 4
  let form := le ops 4 1
  let fmt := le ops 5 1
  let buf := le ops 8 8
  let u := d.pseUnit j
  if !c.hostOuter then (d, errR 0x0285)
  else if 1 < form ∨ 1 < fmt ∨ !zeroBytes ops 6 2 ∨ !zeroBytes ops 16 32 then (d, errR 0x0107)
  else if u.hostSeal ≠ some acc ∨ u.appliedAccs.contains acc then (d, errR 0x0283)
  else match d.pseTable c dom (·.round) with
    | (d, .error (st, r)) => (d.pseFault j st, errA st r)
    | (d, .ok all) =>
      let es := all.filter (·.round)
      let w := elemBits fmt / 8
      let total := es.foldl (fun a e => a + e.count) 0
      let from_ (e : PEnt) : Nat := (es.filter (fun x => decide (x.ix < e.ix))).foldl (fun a x => a + x.count) 0
      let buffer := es.flatMap (fun e => d.sliceRanges 1 dom e (buf + w * from_ e) (w * ·) 0 e.count)
      match d.pseRanges dom (es.flatMap (outerCopies (form == 1) (!f32Zero c.betaO))) buffer with
      | (d, some (st, a)) => (d, errA st a)
      | (d, none) => match d.fetchAll buffer with
        | (d, .error (st, a)) => (d.pseFault j st, errA st a)
        | (d, .ok b) =>
          let vals := fmtValues fmt total b
          let input (e : PEnt) (lo m : Nat) : OuterIn :=
            let vs := (vals.drop (from_ e + lo)).take m
            if form = 0 then .delta vs else .anchor vs
          match Dev.entriesRun (fun d e => d.entryRun e (fun d lo m => d.outerRun c dom (u.last.getD 0) (input e) e lo m)) d es with
          | (d, some (st, a)) => (d.pseFault j st, errA st a)
          | (d, none) =>
            ((d.onPse j (fun u => { u with appliedAccs := acc :: u.appliedAccs, applied := acc, held := false, phase := 5 })).pseReport j, okR acc)

/-! ## Rollout copy and digest (R383, R384) -/

def Dev.pseRollout (d : Dev) (j : Nat) (c : PseJob) (ops : Bytes) : Dev × Result :=
  let dom := d.domOf j
  if !zeroBytes ops 0 48 then (d, errR 0x0107)
  else match d.pseTable c dom (·.rollout) with
    | (d, .error (st, r)) => (d.pseFault j st, errA st r)
    | (d, .ok all) =>
      let es := all.filter (·.rollout)
      match d.pseRanges dom (es.flatMap (fun e => [(e, cWEIGHT, 1), (e, cROLL, 2)])) [] with
      | (d, some (st, a)) => (d, errA st a)
      | (d, none) => match Dev.entriesRun (fun d e => d.entryRun e (fun d lo m => d.rolloutRun dom e lo m)) d es with
        | (d, some (st, a)) => (d.pseFault j st, errA st a)
        | (d, none) => ((d.psePhase j 8).pseReport j, okU [])

/-- The lanes and the element count over entries. -/
def Dev.digestRun (dom copy : Nat) (compat : Bool) : Dev → List PEnt → Dev × Except (Nat × Nat) (Nat × Nat × Nat)
  | d, [] => (d, .ok (0, 0, 0))
  | d, e :: es => match d.copyRead dom e copy 0 e.count with
    | (d, .error x) => (d, .error x)
    | (d, .ok vs) =>
      let (a, b) := digestLanes compat e.id e.first vs
      match Dev.digestRun dom copy compat d es with
      | (d, .error x) => (d, .error x)
      | (d, .ok (a', b', n)) => (d, .ok ((a + a') % 2 ^ 64, (b + b') % 2 ^ 64, n + e.count))

def Dev.pseDigest (d : Dev) (j : Nat) (c : PseJob) (ops : Bytes) : Dev × Result :=
  let dom := d.domOf j
  let lo := le ops 0 4
  let n := le ops 4 4
  let copy := le ops 8 1
  let alg := le ops 9 1
  if 7 < copy ∨ 1 < alg ∨ !zeroBytes ops 10 38 ∨ c.entries < lo + n then (d, errR 0x0107)
  else match d.pseTable c dom (fun e => decide (lo ≤ e.ix ∧ e.ix < lo + n)) with
    | (d, .error (st, r)) => (d.pseFault j st, errA st r)
    | (d, .ok all) =>
      let k := ckptCopy copy
      let es := ((all.drop lo).take n).filter (fun e => e.keeps c k)
      match d.pseRanges dom (es.map (fun e => (e, k, 1))) [] with
      | (d, some (st, a)) => (d, errA st a)
      | (d, none) => match Dev.digestRun dom k (alg == 1) d es with
        | (d, .error (st, a)) => (d.pseFault j st, errA st a)
        | (d, .ok (a, b, m)) => ((d.psePhase j 9).pseReport j, okI a (leBytes 8 a ++ leBytes 8 b ++ leBytes 8 m ++ zeros 8))

/-! ## Loan copies sent (R469) -/

/-- Encode the anchors of the shards whose partner lists name the slot, and offer them to it. -/
def Dev.loanEncode (c : RoundCfg) (dom slot next : Nat) (es : List PEnt) : Dev → List (Nat × Shard) → Dev × Option (Nat × Nat)
  | d, [] => (d, none)
  | d, (i, sh) :: rest =>
    match es[sh.entry]? with
    | none => Dev.loanEncode c dom slot next es d rest
    | some e => match d.fetchAll (d.copyRanges 1 dom e cANCHOR 0 e.count) with
      | (d, .error x) => (d, some x)
      | (d, .ok b) =>
        let st := tessStream 1 e.first e.id true ((chunksOf 2 (e.count + 1) b).map leNat) []
        let at_ := c.loanAddr (d.roundSize c) i
        match d.deposit (wxuAcc 2 dom) at_ st with
        | (d, some x) => (d, some x)
        | (d, none) =>
          let o : OutStream := ⟨true, next, i, st.length, at_, fragOrder d.fragSize st.length sh.count⟩
          Dev.loanEncode c dom slot next es (d.onPslot slot (fun p => { p with streams := p.streams.filter (fun s => !(s.loan && s.shard == i)) ++ [o] })) rest

def Dev.loanSend (d : Dev) (j : Nat) (c : PseJob) (o : Origin) (ops : Bytes) : Dev × Option Result :=
  let slot := le ops 0 2
  let dom := d.domOf j
  if !zeroBytes ops 2 46 then (d, some (errR 0x0107))
  else match d.rnd.cfg with
    | none => (d, some (errR 0x0503))
    | some rc =>
      if rc.job ≠ j ∨ !d.flag WXU.ROUND_STATE.OPEN then (d, some (errR 0x0503))
      else if 4096 ≤ slot ∨ !d.slotUsed slot then (d, some (errR 0x0507))
      else match d.pseTable c dom (·.round) with
        | (d, .error (st, r)) => (d.pseFault j st, some (errA st r))
        | (d, .ok es) =>
          let next := d.get WXU.ROUND_OPEN_ACC.ACCESSION + 1
          let mine := (d.recorded rc).filter (fun e => e.2.partners.any (fun p => p.2 == slot))
          match Dev.loanEncode rc dom slot next es d mine with
          | (d, some (st, a)) => (d.pseFault j st, some (errA st a))
          | (d, none) =>
            if mine.isEmpty then (d, some (okU []))
            else (({ d with rnd.loansOut := d.rnd.loansOut ++ [⟨o, ops, slot, next⟩] } : Dev).wantCheck slot false, none)

/-! ## The order of a job's commands (R386) -/

/-- Run a PSE command now: its result, or none when a later event gives it. -/
def Dev.pseDo (d : Dev) (j opc : Nat) (o : Origin) (ops : Bytes) : Dev × Option Result :=
  let some' (x : Dev × Result) : Dev × Option Result := (x.1, some x.2)
  if opc = 0x0401 then some' (d.pseConfig j ops)
  else if opc = 0x0702 then d.ckReadStart j o ops
  else match (d.pseUnit j).cfg with
    | none => (d, some (errR 0x0280))
    | some c => match opc with
      | 0x0402 => d.stepStart j c ops
      | 0x0403 => some' (d.guardConfig j ops)
      | 0x0404 => some' (d.pseSeal j c ops)
      | 0x0405 => some' (d.pseOuter j c ops)
      | 0x0406 => some' (d.pseRollout j c ops)
      | 0x0407 => some' (d.pseDigest j c ops)
      | 0x0701 | 0x0704 => d.ckWriteStart j c opc o ops
      | _ => d.loanSend j c o ops

/-- Must a command wait: behind the one in progress (a step, a checkpoint command that holds the order, or one whose
completion is still to come) and those that wait; a held job starts no step but takes SEAL and OUTER_APPLY (R381). -/
def PseUnit.mustWait (u : PseUnit) (ck busy : Bool) (opc : Nat) : Bool :=
  ck || busy || u.run.isSome || (if u.held then opc == 0x0402 || (!u.queue.isEmpty && opc != 0x0404 && opc != 0x0405) else !u.queue.isEmpty)

/-- Run the commands of a job that no longer wait. -/
def Dev.pseNext (j : Nat) : Nat → Dev → Dev
  | 0, d => d
  | fuel + 1, d =>
    let u := d.pseUnit j
    match u.queue with
    | [] => d
    | (o, opc, ops) :: rest =>
      if u.run.isSome ∨ d.ckHolds j ∨ d.pseBusy j ∨ (u.held ∧ opc = 0x0402) then d
      else
        let d := d.setPse j { u with queue := rest }
        match d.pseDo j opc o ops with
        | (d, none) => Dev.pseNext j fuel d
        | (d, some r) => Dev.pseNext j fuel (d.unitHold opc (fun f => f.org == o && f.ops == ops) r)

/-- Run what waits for a job. -/
def Dev.pseDrain (d : Dev) (j : Nat) : Dev := Dev.pseNext j ((d.pseUnit j).queue.length + 1) d

/-- The device addresses a command covers while it waits or runs (R334): the parameter table, the copies it
reads and writes, and its buffers. -/
def Dev.pseCovers (d : Dev) (j opc : Nat) (ops : Bytes) : List (Nat × Nat) :=
  match (d.pseUnit j).cfg with
  | none => []
  | some c =>
    let es := match (d.pseTable c (d.domOf j) (fun _ => false)).2 with | .ok es => es | .error _ => []
    let pick (p : PEnt → Bool) (ks : List Nat) : List (Nat × Nat) :=
      (es.filter p).flatMap (fun e => (ks.filter (e.keeps c)).map (fun k => (e.addr k, fmtBytes (e.fmtOf k) e.count)))
    (c.table, 128 * c.entries) :: (match opc with
      | 0x0402 => pick (fun _ => true) [cWEIGHT, cGRAD, cM1, cM2, cAVG]
      | 0x0404 => pick (·.round) [cWEIGHT, cANCHOR, cRESID, cSEAL, cDELTA]
      | 0x0405 => (le ops 8 8, 4 * (es.filter (·.round)).foldl (fun a e => a + e.count) 0) :: pick (·.round) [cANCHOR, cWEIGHT, cSEAL, cOMOM]
      | 0x0406 => pick (·.rollout) [cWEIGHT, cROLL]
      | 0x0407 => pick (fun e => decide (le ops 0 4 ≤ e.ix ∧ e.ix < le ops 0 4 + le ops 4 4)) [ckptCopy (le ops 8 1)]
      | 0x0506 => pick (·.round) [cANCHOR]
      | 0x0701 | 0x0704 => (le ops 24 8, le ops 32 8) :: pick (fun _ => true) ((maskCopies (le ops 6 2)).map ckptCopy)
      | 0x0702 => (le ops 0 8, 16 * le ops 8 4) :: pick (fun _ => true) ((maskCopies (le ops 12 2)).map ckptCopy)
      | _ => [])

/-- A PSE command of a job (R386). One that ran at once holds its result until it completes. -/
def Dev.pseCommand (d : Dev) (j opc : Nat) (o : Origin) (ops : Bytes) : Dev × Answer :=
  let rs := d.pseCovers j opc ops
  if (d.pseUnit j).mustWait (d.ckHolds j) (d.pseBusy j) opc then
    (d.onPse j (fun u => { u with queue := u.queue ++ [(o, opc, ops)] }), .unit rs)
  else match d.pseDo j opc o ops with
    | (d, none) => (d, .unit rs)
    | (d, some r) => (d, if r.status = 0 then .later r .ready rs else .now r)

end Sys2Proof.Machine
end

