-- ==== Sys2Proof/Machine/Collectives.lean ====
section
/-! DEFINITION. Groups and collectives as commands and events (R402 to R420): creating and destroying groups,
posting collectives, their start, end and failure with what each end leads to, and reservations. -/

namespace Sys2Proof.Machine

/-! ## Loan copies installed (R470) -/

/-- Put the all-gathers of the loan copies, shard by shard, on the distribution group: each shard's bytes come
from its device of record and fill the loan region of every member. -/
def Dev.issueLoans (d : Dev) : Dev :=
  match d.rnd.cfg with
  | none => d
  | some c =>
    let issued : Bool := match d.group c.group with
      | some g => g.queue.any (fun x => match x.owner with | .loan _ _ => true | _ => false)
      | none => true
    let own := d.recorded c
    let ready := own.all (fun (i, _) => d.rnd.loansIn.any (fun l => l.shard == i && l.done))
    if !d.flag WXU.ROUND_STATE.JOIN_WAIT ∨ issued ∨ !ready then d
    else
      let g := d.roundSize c
      d.each (List.range c.shards.length) (fun d i =>
        let len := match d.rnd.loansIn.find? (fun l => l.shard == i) with | some l => l.bytes.getD 0 | none => 0
        let at_ := c.loanAddr g i
        d.collAdd c.group { Coll.fresh (.loan c.job i) ocAG 1 0 0 at_ at_ 0 d.roundDom d.now with own := len, lenVec := c.outVec g 0 })

/-- Install a shard's loan copy: WEIGHT, ANCHOR and SEAL := the copy, RESIDUAL and OMOM := +0. `false`: it
cannot be read. -/
def Dev.installLoan (d : Dev) (c : RoundCfg) (j : PseJob) (e : PEnt) (i : Nat) (sh : Shard) : Dev × Bool :=
  let dom := d.roundDom
  let at_ := c.loanAddr (d.roundSize c) i
  match d.fetch (wxuAcc 1 dom) at_ 128 with
  | (d, .error _) => (d.roundDamage c at_ 128 0 0x0216, false)
  | (d, .ok h) => match tessReadHeader 1 h with
    | .error f => (d.roundDamage c at_ 128 0 f.status, false)
    | .ok hd => match d.fetch (wxuAcc 1 dom) at_ (min hd.bytes (tessWorst sh.count true)) with
      | (d, .error _) => (d.roundDamage c at_ 128 0 0x0216, false)
      | (d, .ok b) => match tessRead (fun o n => slice b o n) 1 b.length 0 (tessBlockCount sh.count) with
        | .error f => (d.roundDamage c at_ b.length (tessFaultSeg (fun o n => slice b o n) 1 f.block) f.status, false)
        | .ok (_, bs) =>
          let w := ((blockCodes bs).take e.count).flatMap (leBytes 2 ·)
          let z := zeros (4 * e.count)
          match d.copiesWrite dom e 0 ([(cWEIGHT, w), (cANCHOR, w), (cSEAL, w), (cRESID, z)] ++ (if f32Zero j.betaO then [] else [(cOMOM, z)])) with
          | (d, some x) => (d.roundDamage c at_ 128 0 x.1, false)
          | (d, none) => (d, true)

/-- Every loan copy has been gathered: install them and post 0x050D. -/
def Dev.installLoans (d : Dev) : Dev :=
  match d.rnd.cfg with
  | none => d
  | some c => match (d.pseUnit c.job).cfg with
    | none => d
    | some j => match d.pseTable j d.roundDom (·.round) with
      | (d, .error _) => d
      | (d, .ok es) =>
        let (d, ok) := c.shards.zipIdx.foldl (fun (acc : Dev × Bool) (sh, i) => match acc with
          | (d, false) => (d, false)
          | (d, true) => match es[sh.entry]? with
            | some e => d.installLoan c j e i sh
            | none => (d, true)) (d, true)
        if !ok then d
        else
          -- without an own copy the spec states no NEXT_ACCESSION: a free value
          let (next, d) := match (d.rnd.loansIn.map (·.next)).max? with
            | some n => (n, d)
            | none => let (v, d) := d.draw; (v % 2 ^ 32, d)
          ({ d.set WXU.ROUND_STATE.JOIN_WAIT 0 with rnd.joined := true }).event 0x050D next

/-! ## The ends of collectives -/

/-- An accession's collective failed: the accessions are abandoned (R440), and a step held for one ends with
the status. -/
def Dev.roundsFail (d : Dev) (job st : Nat) : Dev :=
  let d := d.abandonAccs
  match (d.pseUnit job).run with
  | some r => if r.waiting then d.stepFail job (errR st) else d
  | none => d

/-- What a norm collective's end with a status other than OK does (R387). -/
def Dev.normFail (d : Dev) (j s : Nat) (r : Result) : Dev :=
  match (d.pseUnit j).run with
  | some x => if x.group = s ∧ !x.waiting then (d.stepFail j r).pseDrain j else d
  | none => d

/-- The sums of a norm all-gather: member 0 holds them, the others receive them. -/
def Coll.normSums (c : Coll) (own : Nat) : List Int :=
  if own = 0 then c.limbs
  else match c.rx.head? with
    | some r => (List.range 12).map (fun i => sext 48 (be r.bytes (6 * i) 6))
    | none => []

/-- A collective of slot s has ended with a result: what follows for whom it ran (R415, R387, R440, R459,
R470). -/
def Dev.collEnded (d : Dev) (s : Nat) (c : Coll) (r : Result) : Dev :=
  match c.owner with
  | .command o ops => d.unitDone c.opcode (fun f => f.org == o && f.ops == ops) r
  | .normReduce j => if r.status = 0 then d else d.normFail j s r
  | .normGather j => if r.status = 0 then (d.stepDecide j (c.normSums (d.ownIx s))).pseDrain j else d.normFail j s r
  | .package job a =>
    if r.status ≠ 0 then (d.roundsFail job r.status).pseDrain job
    else match d.accSlot (a % 4) with
      | some x => if x.acc = a then ((d.onAcc (a % 4) (fun y => { y with pkgDone := true })).setAccState (a % 4) acEXCHANGE).decideDue else d
      | none => d
  | .decision job a =>
    if r.status ≠ 0 then (d.roundsFail job r.status).pseDrain job
    else match d.accSlot (a % 4), d.rnd.cfg with
      | some x, some rc => if x.acc = a ∧ d.accState (a % 4) = acDECIDED then d.installDecision rc a else d
      | _, _ => d
  | .loan _ i =>
    if r.status ≠ 0 then d
    else match d.rnd.cfg with
      | some rc => if i + 1 = rc.shards.length then d.installLoans else d
      | none => d

/-- A slot's group fails: its first collective ends with a result, the others with 0x0405 (R420). -/
def Dev.failSlot (d : Dev) (s : Nat) (r : Result) : Dev :=
  match d.failGroup s with
  | (d, []) => d
  | (d, c :: cs) => (d.collEnded s c r).each cs (fun d x => d.collEnded s x (errR 0x0405))

/-- Start what can start on a slot, and end what a refusal ends (R411, R413, R414). -/
def Dev.kickSlot (d : Dev) (s : Nat) : Dev :=
  if d.get (CFI.GROUP_STATE.STATE s) = gsFAILED then
    match d.group s with
    | some g => if g.queue.isEmpty then d else
        (d.setGroup s (some { g with queue := [] })).each g.queue (fun d x => d.collEnded s x (errR 0x0405))
    | none => d
  else match d.collStart s with
    | (d, .refused c st a) =>
      if st = 0x0408 ∨ st = 0x040E then (d.popColl s).collEnded s c (errR st)
      else d.failSlot s (errA st a)
    | (d, _) => match d.group s with
      | some g => match g.queue with
        | c :: _ => match c.err with
          | some (st, a) => d.failSlot s (errA st a)
          | none => d
        | [] => d
      | none => d

/-- Start collectives and follow what their ends lead to, until nothing more starts. -/
def Dev.kickAll : Nat → Dev → Dev
  | 0, d => d
  | n + 1, d => Dev.kickAll n (d.each (d.cfi.groups.map (·.1)) (·.kickSlot))
def Dev.kick (d : Dev) : Dev := Dev.kickAll 8 d.flushHeld

/-- COLLECTIVE_COMPLETE's effect (R415). -/
def Dev.collComplete (d : Dev) (s : Nat) : Dev :=
  match d.group s with
  | none => d
  | some g => match g.queue with
    | [] => d
    | c :: _ =>
      if !d.collDone s then d
      else match d.collSettle s g c with
        | (d, some (st, a)) => (d.failSlot s (errA st a)).kick
        | (d, none) => ((d.popColl s).collEnded s c (if c.opcode = ocRS then okR (if c.mode = 2 then c.sat else 0) else okU [])).kick

/-- COLLECTIVE_COMPLETE (R415). -/
def execCollectiveComplete (slot : Nat) (s : State) : Host.Outcome State Fault Refusal := .next (s.onDev (fun d => (d.collComplete slot).pendServe))

/-- When the running collective of a slot times out (R420). -/
def Dev.groupDue (d : Dev) (s : Nat) : Option Nat :=
  match d.group s with
  | none => none
  | some g => match g.queue with
    | [] => none
    | c :: _ => if d.collDone s then none else some (c.since + d.get (CFI.GROUP_TIMEOUT.SECONDS s) * 1000000000)

/-- GROUP_TIMEOUT (R420). -/
def execGroupTimeout (slot : Nat) (s : State) : Host.Outcome State Fault Refusal :=
  .next (s.atTime (s.dev.groupDue slot) (fun d => (d.failSlot slot (errR (if d.flag (CFI.GROUP_STATE.MISMATCH slot) then 0x0406 else 0x0404))).kick))

/-! ## GROUP_CREATE and GROUP_DESTROY (R402 to R405) -/

/-- The cell ranks of a member list. -/
def memberList (b : Bytes) (n : Nat) : List Nat := (List.range n).map (fun i => le b (2 * i) 2)

/-- Is the cell group there? -/
def Dev.cellThere (d : Dev) : Bool := (d.group 255).isSome

/-- The operand checks of GROUP_CREATE that need no list (R403, R404). -/
def Dev.groupFieldsOk (d : Dev) (ops : Bytes) : Bool :=
  let s := le ops 0 1
  let cell := le ops 1 1
  let g := le ops 2 2
  let stg := le ops 24 8
  decide (cell ≤ 1) && (cell == 1) == (s == 255) && decide (1 ≤ g ∧ g ≤ 12288) && decide (le ops 16 2 < g) && decide (le ops 18 2 ≤ 3600)
    && zeroBytes ops 21 3 && zeroBytes ops 40 8 && stg % pageBytes == 0 && (stg != 0 || le ops 32 8 == 0)
    && (d.group s).isNone

/-- Enter a group (R403). -/
def Dev.groupMake (d : Dev) (ops : Bytes) (members : List Nat) (dom hash : Nat) : Dev :=
  let s := le ops 0 1
  let t := le ops 18 2
  let d := d.setGroup s (some ⟨s == 255, members, dom, le ops 24 8, le ops 32 8, hash, [], [], 0⟩)
  let d := ((d.clearReg (CFI.GROUP_STATE.REG s).off).set (CFI.GROUP_STATE.STATE s) gsACTIVE).set (CFI.GROUP_STATE.MEMBERS s) members.length
  let d := (d.set (CFI.GROUP_STATE.WEIGHT s) (le ops 20 1)).set (CFI.GROUP_TAG.TAG s) (le ops 4 4)
  let d := ((d.set (CFI.GROUP_SEQ.SEQ s) 0).set (CFI.GROUP_TIMEOUT.SECONDS s) (if t = 0 then 30 else t)).set (CFI.GROUP_INDEX.INDEX s) (le ops 16 2)
  d.set (CFI.GROUP_RESERVE.REG s) 0

/-- GROUP_CREATE's effect. -/
def Dev.groupCreate (d : Dev) (job : Nat) (ops : Bytes) : Dev × Answer :=
  let s := le ops 0 1
  let g := le ops 2 2
  let cell := bit (le ops 1 1) 0
  let dom := d.domOf job
  if !cell ∧ s ≠ 255 ∧ !d.cellThere then (d, .now (errR 0x0403))
  else if !d.groupFieldsOk ops then (d, .now (errR 0x0401))
  else
    let size := (if cell then 16 else 2) * g
    match d.checkRanges dom ((le ops 8 8, size, 1) :: (if le ops 32 8 = 0 then [] else [(le ops 24 8, le ops 32 8, 4)])) with
    | (d, some (st, a)) => (d, .now (errA st a))
    | (d, none) => match d.fetch (d.cfiAcc (le ops 8 8) 1 dom) (le ops 8 8) size with
      | (d, .error (st, a)) => (d, .now (errA st a))
      | (d, .ok b) =>
        let hash := crc32c (leBytes 2 g ++ leBytes 4 (le ops 4 4) ++ b)
        if cell then
          let pre := (List.range g).map (fun i => le b (16 * i) 16)
          if !pre.all (fun p => p % 16 == 0) then (d, .now (errR 0x0401))
          else
            let d := { d with cfi.prefixes := pre }
            let d := (d.set CFI.CELL.RANK (le ops 16 2)).set CFI.CELL.SIZE g
            (d.groupMake ops (List.range g) dom hash, .now (okR hash))
        else
          let ms := memberList b g
          if !(ms.all (fun m => decide (m < d.get CFI.CELL.SIZE)) && ms.eraseDups.length == g && ms.getD (le ops 16 2) 0xFFFF == d.rank) then
            (d, .now (errR 0x0401))
          else (d.groupMake ops ms dom hash, .now (okR hash))

/-- GROUP_CREATE (R403). -/
def execGroupCreate (o : Origin) (ops : Bytes) (s : State) : Host.Outcome State Fault Refusal :=
  .next (s.onDev (fun d => d.command 0x0301 o ops (fun d' => d'.groupCreate (d.jobOf o) ops)))

/-- Remove a group: its reservation goes with it. -/
def Dev.groupRemove (d : Dev) (s : Nat) : Dev :=
  let d := d.setGroup s none
  let d := d.each [CFI.GROUP_STATE.REG s, CFI.GROUP_TAG.REG s, CFI.GROUP_SEQ.REG s, CFI.GROUP_RESERVE.REG s, CFI.GROUP_TIMEOUT.REG s,
    CFI.GROUP_INDEX.REG s] (fun d f => d.clearReg f.off)
  let d := if s = 255 then { (d.set CFI.CELL.RANK 0).set CFI.CELL.SIZE 0 with cfi.prefixes := [] } else d
  d.rescale

/-- GROUP_DESTROY's effect (R402, R405). -/
def Dev.groupDestroy (d : Dev) (ops : Bytes) : Dev × Answer :=
  let s := le ops 0 1
  match d.group s with
  | none => (d, .now (errR 0x040E))
  | some g =>
    if !zeroBytes ops 1 47 then (d, .now (errR 0x040E))
    else if !g.queue.isEmpty ∨ (s = 255 ∧ d.cfi.groups.any (fun e => e.2.isSome && e.1 != 255)) then (d, .now (errR 0x0402))
    else (d.groupRemove s, .now (okU []))

/-- GROUP_DESTROY (R405). -/
def execGroupDestroy (o : Origin) (ops : Bytes) (s : State) : Host.Outcome State Fault Refusal :=
  .next (s.onDev (fun d => d.command 0x0302 o ops (fun d' => d'.groupDestroy ops)))

/-! ## Posting collectives (R405, R407, R412, R413) -/

/-- Queue a collective on an ACTIVE slot, or answer why not. -/
def Dev.post (d : Dev) (s : Nat) (ok short : Bool) (c : Coll) : Dev × Answer :=
  match d.group s with
  | none => (d, .now (errR 0x040E))
  | some _ =>
    if d.get (CFI.GROUP_STATE.STATE s) = gsFAILED then (d, .now (errR 0x0405))
    else if !ok then (d, .now (errR 0x040E))
    else if short then (d, .now (errR 0x0408))
    else (d.collAdd s c, .unit (c.ranges (match d.group s with | some g => g | none => ⟨false, [], 0, 0, 0, 0, [], [], 0⟩) |>.map (fun r => (r.1, r.2.1))))

/-- REDUCE_SCATTER's effect (R407, R409, R411). -/
def Dev.reduceScatter (d : Dev) (o : Origin) (ops : Bytes) : Dev × Answer :=
  let s := le ops 0 1
  let mode := le ops 1 1
  let f (x : Nat) : Bool := if mode = 2 then x == fcEX48 else x == fcFP32 || x == fcBF16
  let e := le ops 20 8
  let ok := decide (mode ≤ 2) && f (le ops 2 1) && f (le ops 3 1) && e != 0 && (mode != 1 || e % 32 == 0) && zeroBytes ops 28 20
  let g := d.group s
  let short := mode != 2 && (match g with | some g => decide (g.stagingLen < 4194304) | none => false)
  let exact := mode == 1 && (match g with | some g => decide (16384 < g.size) | none => false)
  if ok && exact then (d, .now (errR 0x0409))
  else d.post s ok short (Coll.fresh (.command o ops) ocRS mode (le ops 2 1) (le ops 3 1) (le ops 4 8) (le ops 12 8) e (d.domOf (d.jobOf o)) d.now)

/-- REDUCE_SCATTER (R407). -/
def execReduceScatter (o : Origin) (ops : Bytes) (s : State) : Host.Outcome State Fault Refusal :=
  .next (s.onDev (fun d => (d.command 0x0303 o ops (fun d' => d'.reduceScatter o ops)).kick))

/-- ALL_GATHER's effect (R412). -/
def Dev.allGather (d : Dev) (o : Origin) (ops : Bytes) : Dev × Answer :=
  let var := le ops 1 1
  let n := le ops 20 8
  let own := le ops 28 8
  let ok := decide (var ≤ 1) && zeroBytes ops 2 2 && n != 0 && (var == 0 || decide (own ≤ n)) && zeroBytes ops 44 4
  d.post (le ops 0 1) ok false { Coll.fresh (.command o ops) ocAG var 0 0 (le ops 4 8) (le ops 12 8) n (d.domOf (d.jobOf o)) d.now with
    own := if var = 1 then own else 0, lenVec := if var = 1 then le ops 36 8 else 0 }

/-- ALL_GATHER (R412). -/
def execAllGather (o : Origin) (ops : Bytes) (s : State) : Host.Outcome State Fault Refusal :=
  .next (s.onDev (fun d => (d.command 0x0304 o ops (fun d' => d'.allGather o ops)).kick))

/-- PERMUTE's effect (R413). -/
def Dev.permute (d : Dev) (o : Origin) (ops : Bytes) : Dev × Answer :=
  let ok := zeroBytes ops 1 1 && zeroBytes ops 14 2 && zeroBytes ops 24 24
  d.post (le ops 0 1) ok false { Coll.fresh (.command o ops) ocPERM 0 0 0 0 0 0 (d.domOf (d.jobOf o)) d.now with
    sendCount := le ops 2 2, sendList := le ops 4 8, recvCount := le ops 12 2, recvList := le ops 16 8 }

/-- PERMUTE (R413). -/
def execPermute (o : Origin) (ops : Bytes) (s : State) : Host.Outcome State Fault Refusal :=
  .next (s.onDev (fun d => (d.command 0x0305 o ops (fun d' => d'.permute o ops)).kick))

/-- GROUP_RESERVE's effect (R417, R418): at most 90 % of nominal capacity in all. -/
def Dev.groupReserve (d : Dev) (ops : Bytes) : Dev × Answer :=
  let k := le ops 0 2
  let w := le ops 2 1
  let r := le ops 4 4
  let others := (allClasses.filter (· != k)).foldl (fun a c => a + d.get (CFI.GROUP_RESERVE.RESERVED c)) 0
  if 257 < k ∨ !zeroBytes ops 3 1 ∨ !zeroBytes ops 8 40 ∨ (k < 256 ∧ (d.group k).isNone) then (d, .now (errR 0x040E))
  else if k < 256 ∧ d.get (CFI.GROUP_STATE.STATE k) = gsFAILED then (d, .now (errR 0x0405))
  else if 90 * cellPorts d.code < others + r then (d, .now (errR 0x0407))
  else (((d.set (CFI.GROUP_STATE.WEIGHT k) w).set (CFI.GROUP_RESERVE.RESERVED k) r).rescale, .now (okU []))

/-- GROUP_RESERVE (R417). -/
def execGroupReserve (o : Origin) (ops : Bytes) (s : State) : Host.Outcome State Fault Refusal :=
  .next (s.onDev (fun d => d.command 0x0306 o ops (fun d' => d'.groupReserve ops)))

end Sys2Proof.Machine
end

