-- ==== Sys2Proof/Machine/CfiEvents.lean ====
section
/-! DEFINITION. Transport frames and timers of the cell fabric (R395 to R401, R406, R411), and cross-device
pipeline links (R296, R297, R422). -/

namespace Sys2Proof.Machine

/-! ## DATA frames -/

/-- A DATA frame that names nothing in progress (R397). -/
def Dev.stale (d : Dev) : Dev := d.bump CFI.STALE_FRAMES.COUNT 1

/-- A collective's DATA frame (R397, R398): into place, its PSN taken, then whatever the collective can do. -/
def Dev.dataColl (d : Dev) (f : TFrame) (ce : Bool) : Dev :=
  match d.slotOf f.tag f.seq with
  | none => d.stale
  | some s => match d.group s with
    | none => d.stale
    | some g => match g.members.findIdx? (· == f.src), g.queue with
      | some m, c :: _ =>
        if c.rx.any (fun r => r.peer == m && r.grant == f.grant) then (((d.collData s m f).takePsn f ce).collAdvance s).kick
        else d.stale
      | _, _ => d.stale

def linkRxDflt : Nat → LinkRx := fun _ => ⟨0, [], none⟩
def Dev.linkRx (d : Dev) (k : Nat) : LinkRx := smapGet linkRxDflt d.cfi.linkRx k
def Dev.setLinkRx (d : Dev) (k : Nat) (v : LinkRx) : Dev := { d with cfi.linkRx := smapSet linkRxDflt d.cfi.linkRx k v }

/-- Link `tag` of a mapped pipeline whose consumer stage is on this device: the link and its tile. -/
def Dev.linkIn (d : Dev) (tag src : Nat) : Option (LinkEnt × Nat) :=
  match (d.pipe (tag / 65536)).map with
  | none => none
  | some m => match m.links[tag % 65536]? with
    | none => none
    | some l => match m.stages[l.src]?, m.stages[l.dst]? with
      | some (sd, _), some (dd, tile) => if dd = d.rank ∧ sd ≠ d.rank ∧ sd = src then some (l, d.phys tile) else none
      | _, _ => none

/-- A link's DATA frame (R296, R422): its bytes go into the consumer region from the write origin, and TAIL
moves over the bytes that have come without a gap. -/
def Dev.dataLink (d : Dev) (f : TFrame) (ce : Bool) : Dev :=
  match d.linkIn f.tag f.src with
  | none => d.stale
  | some (l, t) =>
    let x := d.linkRx f.tag
    let fresh : Bool := x.got.isEmpty && x.len.isNone
    if x.k ≠ f.seq then d.stale
    else
      let d := if fresh then d.admitProducer t l.region else d
      let w := d.regW t l.region
      if !d.regRoom t l.region (w + f.off) f.data.length then d.stale
      else
        let d := d.regWrite t l.region ((w + f.off) % m32) f.data
        let len := if bit f.flags 0 then some (f.off + f.data.length) else x.len
        let got := ivAdd x.got f.off (f.off + f.data.length)
        let whole : Bool := match len with | some n => ivHas got 0 n | none => false
        let d := d.setTailR t l.region ((w + ivPrefix got) % m32)
        let d := d.setLinkRx f.tag (if whole then ⟨(f.seq + 1) % m32, [], none⟩ else ⟨f.seq, got, len⟩)
        (d.takePsn f ce).pump t

/-- CFI_DATA's effect: a duplicate is acknowledged and dropped. -/
def Dev.dataIn (d : Dev) (f : TFrame) (ce : Bool) : Dev :=
  if (d.rxPeer (peerKey f.src f.cls)).seen f.psn then d.takePsn f ce
  else if f.cls = 0 then d.dataColl f ce
  else d.dataLink f ce

/-- CFI_DATA (R398). -/
def execCfiData (port : Nat) (bs : Bytes) (s : State) : Host.Outcome State Fault Refusal :=
  .next (s.onDev (·.cfiFrame port ftDATA bs Dev.dataIn))

/-- CFI_ACK (R399): the collective that waited for the bytes may go on. -/
def execCfiAck (port : Nat) (bs : Bytes) (s : State) : Host.Outcome State Fault Refusal :=
  .next (s.onDev (·.cfiFrame port ftACK bs (fun d f _ => (d.ackIn f).kick)))

/-! ## READY and GRANT (R406, R411) -/

/-- The slot of a group with a tag. -/
def Dev.slotTag (d : Dev) (tag : Nat) : Option (Nat × Group) :=
  d.cfi.groups.findSome? (fun e => match e.2 with
    | some g => if d.get (CFI.GROUP_TAG.TAG e.1) = tag then some (e.1, g) else none
    | none => none)

/-- A READY or GRANT: for the running collective, or kept for one this member has not issued yet. A member
that joins and is device of record of no shard issues the loan copies' all-gathers when the first READY
for them comes (R470). -/
def Dev.ctlIn (d : Dev) (f : TFrame) : Dev :=
  match d.slotTag f.tag with
  | none => d
  | some (s, g) => match g.members.findIdx? (· == f.src) with
    | none => d
    | some m =>
      let running : Bool := match g.queue with | c :: _ => c.started && c.seq == f.seq | [] => false
      if running then
        (((if f.type = ftREADY then d.readyIn s m f.data else d.grantIn s m f.grant f.data).collAdvance s)).kick
      else
        let ahead := psnDiff (d.get (CFI.GROUP_SEQ.SEQ s)) f.seq
        if ahead = 0 ∨ 2 ^ 31 ≤ ahead then d
        else
          let d := d.setGroup s (some { g with early := g.early ++ [(⟨f.type, f.seq, f.src, f.grant, f.data⟩ : EarlyCtl)] })
          match d.rnd.cfg with
          | some c => if c.group = s ∧ f.type = ftREADY ∧ (d.recorded c).isEmpty then d.issueLoans.kick else d
          | none => d

/-- CFI_READY (R406). -/
def execCfiReady (port : Nat) (bs : Bytes) (s : State) : Host.Outcome State Fault Refusal :=
  .next (s.onDev (·.cfiFrame port ftREADY bs (fun d f _ => d.ctlIn f)))

/-- CFI_GRANT (R411). -/
def execCfiGrant (port : Nat) (bs : Bytes) (s : State) : Host.Outcome State Fault Refusal :=
  .next (s.onDev (·.cfiFrame port ftGRANT bs (fun d f _ => d.ctlIn f)))

/-! ## Links at the producer (R296, R297, R422) -/

/-- Link `tag` of a mapped pipeline whose producer stage is on this device: the map, the link, the consumer's
rank and the producer's tile. -/
def Dev.linkOut (d : Dev) (tag : Nat) : Option (PipeMap × LinkEnt × Nat × Nat) :=
  match (d.pipe (tag / 65536)).map with
  | none => none
  | some m => match m.links[tag % 65536]? with
    | none => none
    | some l => match m.stages[l.src]?, m.stages[l.dst]? with
      | some (sd, tile), some (dd, _) => if sd = d.rank ∧ dd ≠ d.rank then some (m, l, dd, d.phys tile) else none
      | _, _ => none

/-- A CREDIT raises the offset up to which the link may send. -/
def Dev.creditIn (d : Dev) (f : TFrame) : Dev :=
  match d.linkOut f.tag with
  | none => d
  | some (_, _, dd, _) =>
    let x := d.linkTx f.tag
    let c := be f.data 0 8 % m32
    if dd ≠ f.src ∨ f.cls ≠ 1 ∨ 2 ^ 31 ≤ psnDiff x.credit c then d
    else
      let d := d.setLinkTx f.tag { x with credit := c }
      Dev.txPump 1 dd (d.pumpFuel (peerKey dd 1)) d

/-- CFI_CREDIT (R422). -/
def execCfiCredit (port : Nat) (bs : Bytes) (s : State) : Host.Outcome State Fault Refusal :=
  .next (s.onDev (·.cfiFrame port ftCREDIT bs (fun d f _ => d.creditIn f)))

/-- Does any of a link's micro-batches remain to be sent or acknowledged? -/
def TxPeer.holdsTag (p : TxPeer) (tag : Nat) : Bool := p.backlog.any (fun i => i.tag == tag) || p.unacked.any (fun f => f.tag == tag)

/-- LINK_SLOT_SEND's effect: READY has reached the next micro-batch, and the one before it has been written. -/
def Dev.slotSend (d : Dev) (tag : Nat) : Dev :=
  match d.linkOut tag with
  | none => d
  | some (m, l, dd, t) =>
    let x := d.linkTx tag
    let ready := d.get (QSU.TALLY_VALUE.VALUE (m.tallyBase + l.readyOff))
    match (d.pipe (tag / 65536)).rows.find? (fun e => e.1 == x.k) with
    | none => d
    | some (_, rows) =>
      if ready < x.k + 1 ∨ x.reading ∨ (d.txPeer (peerKey dd 1)).holdsTag tag then d
      else
        let len := l.rowBytes * rows + l.fixedBytes
        let a := l.stageAddr + l.slotBytes * (x.k % max 1 l.slots)
        let bad := (d.tile t).spmBad a len
        let d := d.spmTouch t a len
        match bad with
        | some _ => d
        | none =>
          let d := d.setLinkTx tag { x with k := x.k + 1, base := up128 (x.base + len), reading := true }
          d.txAdd 1 dd ⟨tag, x.k, x.base, len, 0, .bytes ((d.tile t).rdSpm a len)⟩

/-- LINK_SLOT_SEND (R296). -/
def execLinkSlotSend (pipe link : Nat) (s : State) : Host.Outcome State Fault Refusal :=
  .next (s.onDev (·.slotSend (pipe * 65536 + link % 65536)))

/-- LINK_SLOT_SENT's effect: the whole slot has been read, so SENT counts it. -/
def Dev.slotSent (d : Dev) (tag : Nat) : Dev :=
  match d.linkOut tag with
  | none => d
  | some (m, l, dd, _) =>
    let x := d.linkTx tag
    if !x.reading ∨ (d.txPeer (peerKey dd 1)).backlog.any (fun i => i.tag == tag) then d
    else (d.setLinkTx tag { x with reading := false }).tallyAdd (m.tallyBase + l.sentOff) 1

/-- LINK_SLOT_SENT (R296). -/
def execLinkSlotSent (pipe link : Nat) (s : State) : Host.Outcome State Fault Refusal :=
  .next (s.onDev (·.slotSent (pipe * 65536 + link % 65536)))

/-! ## Timers (R399, R400) -/

/-- When the acknowledgement timer of a sender ends: 2 µs after the first DATA frame not acknowledged. -/
def Dev.cfiAckDue (d : Dev) (k : Nat) : Option Nat :=
  if (d.rxPeer k).count = 0 then none else some ((d.rxPeer k).since + 2000)

/-- CFI_ACK_TIMER (R399). -/
def execCfiAckTimer (peer cls : Nat) (s : State) : Host.Outcome State Fault Refusal :=
  .next (s.atTime (s.dev.cfiAckDue (peerKey peer cls)) (·.ackTimer cls peer))

/-- When a frame's retransmission timer can expire. -/
def Dev.cfiRetxDue (d : Dev) (cls rank psn : Nat) : Option Nat :=
  let p := d.txPeer (peerKey rank cls)
  (p.unacked.find? (fun f => f.psn == psn)).map (d.rtoAt p.srtt)

/-- CFI_RETX_TIMER (R399). -/
def execCfiRetxTimer (peer cls psn : Nat) (s : State) : Host.Outcome State Fault Refusal :=
  .next (s.atTime (s.dev.cfiRetxDue cls peer psn) (·.retxTimer cls peer psn))

/-- CFI_RATE_INCREASE (R400): 50 µs after the last change 2 GB/s more, up to line rate; what a paused priority held goes
out. -/
def execCfiRateIncrease (peer : Nat) (s : State) : Host.Outcome State Fault Refusal :=
  .next (s.atTime (some (smapGet zeroDflt s.dev.cfi.rateAt peer + 50000)) (fun d =>
    let d := (d.setRate peer (min (max 1000 d.lineRate) (d.rateTo peer + 2000))).flushHeld
    d.each [0, 1] (fun d c => Dev.txPump c peer (d.pumpFuel (peerKey peer c)) d)))

end Sys2Proof.Machine
end

