-- ==== Sys2Proof/Machine/Handshake.lean ====
section
/-! DEFINITION. The partner handshake (R521 to R528): `PARTNER_ADD`, HELLO and CONFIRM, what each public-key
operation leads to, the timers, and the command `HANDSHAKE` (R522). -/

namespace Sys2Proof.Machine

/-! ## Causes and starts (R527) -/

/-- A failure: counted, posted once per cause and generation; a fresh HELLO follows in 1 s. -/
def Dev.hsFail (d : Dev) (slot cause : Nat) : Dev :=
  match d.pslot slot with
  | none => d
  | some p =>
    let d := (d.bump SEC.HS_FAILED.COUNT 1).onPslot slot (fun p =>
      { p with retryAt := some (d.now + 1000000000), causes := if p.causes.contains cause then p.causes else cause :: p.causes })
    d.when (!p.causes.contains cause) (·.event 0x060A (slot + cause * 65536))

/-- Begin with a fresh ephemeral key; without an own endorsement or the DIK it fails with cause 9. -/
def Dev.hsStart (d : Dev) (slot : Nat) : Dev :=
  if d.sec.endorsement.isNone || !d.dikReady then d.hsFail slot 9
  else d.pkAdd ⟨.keygen, [], [], [], [], .ephemeral slot (d.slotGen slot)⟩

/-- Is a slot still in the handshake of a generation? -/
def Dev.inHs (d : Dev) (slot gen : Nat) : Bool := d.slotState slot == wsHANDSHAKE && d.slotGen slot == gen

/-! ## PARTNER_ADD (R462 to R464) -/

/-- Operands in range. -/
def partnerOk (ops : Bytes) : Bool :=
  decide (opnd ops 18 2 ≤ 63 ∧ opnd ops 20 1 ≤ 1 ∧ opnd ops 21 1 ≤ 1 ∧ opnd ops 24 2 ≤ 1023) && opndZero ops 26 6 && opndZero ops 48 16

/-- Issue a slot. -/
def Dev.issueSlot (d : Dev) (job s : Nat) (ops : Bytes) : Dev :=
  let g := d.slotGen s
  let v4 := bit (opnd ops 21 1) 0
  let addr := if v4 then le ops 28 4 else le ops 16 16
  let port := if opnd ops 22 2 = 0 then 47100 else opnd ops 22 2
  let d := (d.slotFree s).setPslot s (some (PSlot.fresh addr port (opnd ops 24 2) job d.now))
  let d := (d.set (WXU.SLOT_STATE.GEN s) (if g = 255 then 1 else g + 1)).set (WXU.SLOT_STATE.CELL s) (opnd ops 18 2)
  ((d.set (WXU.SLOT_STATE.TIER s) (opnd ops 20 1)).set (WXU.SLOT_STATE.IPV4 s) (b2n v4)).set (WXU.SLOT_STATE.STATE s) wsHANDSHAKE

/-- PARTNER_ADD's effect. -/
def Dev.partnerAdd (d : Dev) (job : Nat) (ops : Bytes) : Dev × Answer :=
  let s := opnd ops 16 2
  let k := opnd ops 24 2
  if 4096 ≤ s then (d, .now (errR 0x0507))
  else if d.slotState s = wsHANDSHAKE ∨ d.slotState s = wsOPEN then (d, .now (errR 0x0505))
  else if d.slotState s = wsQUARANTINE then
    let left := (match d.quarDue s with | some t => t | none => d.now) - d.now
    (d, .now (errA 0x0506 (ceilDiv left 1000000)))
  else if !partnerOk ops then (d, .now (errR 0x0507))
  else if k < 16 then (d, .now (errR 0x0105))
  else match d.useKey k with
    | (d, .error st) => (d, .now (errR st))
    | (d, .ok (.pub _)) =>
      let d := d.issueSlot job s ops
      (d.hsStart s, .now (okR (d.slotGen s)))
    | (d, .ok _) => (d, .now (errR 0x0605))

/-- PARTNER_ADD (R462). -/
def execPartnerAdd (o : Origin) (ops : Bytes) (s : State) : Host.Outcome State Fault Refusal :=
  .next (s.onDev (fun d => d.command 0x0503 o ops (fun d' => d'.partnerAdd (d.jobOf o) ops)))

/-! ## HELLO (R523 to R525) -/

/-- The HELLO payload (R524). -/
def helloBytes (slot gen stamp : Nat) (nonce pt endors : Bytes) : Bytes :=
  [1, 0] ++ beBytes 2 slot ++ beBytes 1 gen ++ zeros 3 ++ beBytes 8 stamp ++ slice nonce 0 48 ++ slice pt 0 97 ++ zeros 7 ++ slice endors 0 256

/-- The endorsement in a HELLO, and its parts (R521). -/
def helloEndors (h : Bytes) : Bytes := slice h 168 256
def helloPoint (h : Bytes) : Bytes := slice h 64 97
def endorsPoint (e : Bytes) : Bytes := slice e 32 97
def endorsDigest (e : Bytes) : Bytes := sha384 (slice e 0 160)
def endorsSig (e : Bytes) : Bytes := slice e 160 96

/-- Is this side A: the lower cell number (R525)? -/
def Dev.hsRoleA (d : Dev) (slot : Nat) : Bool := decide (d.ownCell < d.get (WXU.SLOT_STATE.CELL slot))

/-- The handshake hash TH (R525). -/
def Dev.hsHash (d : Dev) (slot : Nat) (p : PSlot) : Bytes :=
  if d.hsRoleA slot then sha384 (p.hello ++ p.peerHello) else sha384 (p.peerHello ++ p.hello)

/-- The digest a CONFIRM signs, for a role. -/
def confirmDigest (roleA : Bool) (th : Bytes) : Bytes := sha384 (ascii "TXP CONFIRM" ++ [if roleA then 0x41 else 0x42] ++ th)

/-- Queue the ECDH once the peer's HELLO is endorsed and the own ephemeral key exists. -/
def Dev.hsEcdh (d : Dev) (slot : Nat) : Dev :=
  match d.pslot slot with
  | some p => if p.peerOk && !p.eph.isEmpty then d.pkAdd ⟨.ecdh, p.eph, helloPoint p.peerHello, [], [], .shared slot (d.slotGen slot)⟩ else d
  | none => d

/-- Queue the check of the peer's endorsement under the anchor slot; an anchor that is no public point fails
as a bad signature. -/
def Dev.hsEndorse (d : Dev) (slot : Nat) : Dev :=
  match d.pslot slot with
  | none => d
  | some p =>
    let e := helloEndors p.peerHello
    match d.useKey p.anchor with
    | (d, .ok (.pub pt)) => d.pkAdd ⟨.verify, [], pt, endorsDigest e, endorsSig e, .endorse slot (d.slotGen slot)⟩
    | (d, _) => d.hsFail slot 1

/-- The ephemeral key is made: HELLO goes out, and a HELLO held from the peer is taken up. -/
def Dev.hsEphemeral (d : Dev) (slot gen st : Nat) : Dev :=
  if !d.inHs slot gen then d
  else if st ≠ 0 then d.onPslot slot (fun p => { p with retryAt := some (d.now + 1000000000) })
  else
    let (x, d) := d.drawScalar
    let (nonce, d) := d.drawBytes 48
    let h := helloBytes slot gen d.now nonce (pubOf x) (d.sec.endorsement.getD [])
    let d := (d.onPslot slot (fun p => { p with eph := beBytes 48 x, hello := h, helloSends := 1, helloAt := d.now, mkPeer := [], mkOwn := [], chain0 := [], confirmed := false })).sendHandshake
      slot 0xFFFF 0 h
    match d.pslot slot with
    | some p => if p.peerOk then d.hsEcdh slot else if p.peerHello.isEmpty then d else d.hsEndorse slot
    | none => d

/-- HELLO_RESEND (R527): every 200 ms until the peer's HELLO arrives, byte for byte the same. -/
def Dev.helloDue (d : Dev) (slot : Nat) : Option Nat :=
  match d.pslot slot with
  | some p => if d.slotState slot = wsHANDSHAKE ∧ !p.hello.isEmpty ∧ p.peerHello.isEmpty then some (p.helloAt + 200000000) else none
  | none => none
def Dev.helloResend (d : Dev) (slot : Nat) : Dev :=
  match d.pslot slot with
  | some p => (d.onPslot slot (fun p => { p with helloSends := p.helloSends + 1, helloAt := d.now })).sendHandshake slot 0xFFFF 0 p.hello
  | none => d
def execHelloResend (slot : Nat) (s : State) : Host.Outcome State Fault Refusal :=
  .next (s.atTime (s.dev.helloDue slot) (·.helloResend slot))

/-- HANDSHAKE_RETRY (R527): a fresh start each second after a failure. -/
def Dev.retryDue (d : Dev) (slot : Nat) : Option Nat :=
  match d.pslot slot with
  | some p => if d.slotState slot = wsHANDSHAKE then p.retryAt else none
  | none => none
def execHandshakeRetry (slot : Nat) (s : State) : Host.Outcome State Fault Refusal :=
  .next (s.atTime (s.dev.retryDue slot) (fun d =>
    (d.onPslot slot (fun p => { p with retryAt := some (d.now + 1000000000) })).hsStart slot))

/-- HANDSHAKE_TIMEOUT (R527): 30 s after PARTNER_ADD, once. -/
def Dev.hsDue (d : Dev) (slot : Nat) : Option Nat :=
  match d.pslot slot with
  | some p => if d.slotState slot = wsHANDSHAKE ∧ !p.causes.contains 8 then some (p.addedAt + 30000000000) else none
  | none => none
def execHandshakeTimeout (slot : Nat) (s : State) : Host.Outcome State Fault Refusal :=
  .next (s.atTime (s.dev.hsDue slot) (·.hsFail slot 8))

/-- The slot a HELLO is for (R523): the lowest in HANDSHAKE with its source address and cell. -/
def Dev.helloSlot (d : Dev) (v4 : Bool) (src cell : Nat) : Option Nat :=
  d.slotNumbers.find? (fun s => d.slotState s == wsHANDSHAKE && d.get (WXU.SLOT_STATE.CELL s) == cell
    && d.flag (WXU.SLOT_STATE.IPV4 s) == v4 && (match d.pslot s with | some p => p.addr == src | none => false))

/-- A HELLO of a slot (R525, R527): at most one each 100 ms, and room in the queue. -/
def Dev.helloIn (d : Dev) (slot : Nat) (pay : Bytes) : Dev :=
  match d.pslot slot with
  | none => d
  | some p =>
    let soon : Bool := match p.hsAccepted with | some t => decide (d.now < t + 100000000) | none => false
    if soon || decide (64 ≤ d.sec.pkQueue.length) then d.bump SEC.HS_DROPPED.COUNT 1
    else (d.onPslot slot (fun p => { p with hsAccepted := some d.now, peerHello := pay, peerAt := d.now, peerOk := false })).hsEndorse slot

/-- The peer's endorsement has been verified (R525 step 1). -/
def Dev.hsEndorsed (d : Dev) (slot gen st : Nat) : Dev :=
  match d.pslot slot with
  | none => d
  | some p =>
    let e := helloEndors p.peerHello
    let sec := d.now / 1000000000
    if !d.inHs slot gen then d
    else if le e 0 4 ≠ 0x54444E45 ∨ le e 4 2 ≠ 1 ∨ st ≠ 0 then d.hsFail slot 1
    else if le e 6 1 ≠ d.get (WXU.SLOT_STATE.CELL slot) then d.hsFail slot 2
    else if sec < le e 8 8 ∨ (le e 16 8 ≠ 0 ∧ le e 16 8 < sec) then d.hsFail slot 3
    else (d.onPslot slot (fun p => { p with peerOk := true })).hsEcdh slot

/-- The shared secret (R525 step 2). -/
def Dev.hsShared (d : Dev) (slot gen st : Nat) (scalar pt : Bytes) : Dev :=
  if !d.inHs slot gen then d
  else if st ≠ 0 then d.hsFail slot 4
  else
    let x := slice (ptBytes (p384 (beNat scalar) (ptX pt, ptY pt))) 1 48
    (d.onPslot slot (fun p => { p with shared := x })).pkAdd ⟨.hkdf, [], [], [], [], .schedule slot gen⟩

/-! ## CONFIRM (R525, R526) -/

/-- Queue the check of a CONFIRM held, once the schedule is known. -/
def Dev.hsCheck (d : Dev) (slot : Nat) : Dev :=
  match d.pslot slot with
  | none => d
  | some p =>
    if p.confirmIn.isEmpty || p.mkPeer.isEmpty then d
    else d.pkAdd ⟨.verify, [], endorsPoint (helloEndors p.peerHello), confirmDigest (!d.hsRoleA slot) (d.hsHash slot p),
      slice p.confirmIn 72 96, .peerConfirm slot (d.slotGen slot)⟩

/-- The schedule (R525 steps 3 and 4, R526); the CONFIRM's signature is begun. -/
def Dev.hsSchedule (d : Dev) (slot gen : Nat) : Dev :=
  match d.pslot slot with
  | none => d
  | some p =>
    if !d.inHs slot gen then d
    else if !d.dikReady then d.hsFail slot 9
    else
      let th := d.hsHash slot p
      let prk := hkdfExtract th p.shared
      let ma := hkdfExpand prk (ascii "txp confirm A") 48
      let mb := hkdfExpand prk (ascii "txp confirm B") 48
      let a := d.hsRoleA slot
      let cs := hkdfExpand prk (ascii "txp chain") 48
      let d := d.onPslot slot (fun p => { p with mkOwn := (if a then ma else mb), mkPeer := (if a then mb else ma), chain0 := cs })
      (d.pkAdd ⟨.sign, beBytes 48 dikScalar, [], confirmDigest a th, [], .confirm slot gen⟩).hsCheck slot

/-- What the handshake no longer needs once the slot is OPEN and its own CONFIRM has gone (R526). -/
def Dev.hsErase (d : Dev) (slot : Nat) : Dev :=
  d.onPslot slot (fun p => if p.confirmed && d.slotOpen slot then { p with hello := [], peerHello := [], mkOwn := [] } else p)

/-- The CONFIRM is signed and sent (R525 step 5). -/
def Dev.hsConfirm (d : Dev) (slot gen st : Nat) (digest : Bytes) : Dev :=
  match d.pslot slot with
  | none => d
  | some p =>
    if d.slotGen slot ≠ gen ∨ !(d.slotState slot == wsHANDSHAKE || d.slotState slot == wsOPEN) then d
    else if st ≠ 0 then d.onPslot slot (fun p => { p with retryAt := some (d.now + 1000000000) })
    else
      let (k, d) := d.drawScalar
      let pay := [2] ++ zeros 7 ++ slice p.peerHello 8 8 ++ beBytes 8 (d.now - p.peerAt) ++ hmac384 p.mkOwn (d.hsHash slot p)
        ++ ecdsaSign dikScalar k digest
      ((d.onPslot slot (fun p => { p with confirmed := true })).sendHandshake slot (be p.peerHello 2 2) (be p.peerHello 4 1) pay).hsErase slot

/-- A CONFIRM has arrived for a slot in HANDSHAKE. -/
def Dev.confirmIn (d : Dev) (slot : Nat) (pay : Bytes) : Dev :=
  (d.onPslot slot (fun p => { p with confirmIn := pay, confirmAt := d.now })).hsCheck slot

/-- The first round trip of a slot that sent one HELLO (R399). -/
def Dev.hsRtt (d : Dev) (slot : Nat) (p : PSlot) : Dev :=
  d.when (decide (p.helloSends = 1)) (·.rttSample slot ((p.confirmAt : Int) - (be p.hello 8 8 : Nat) - (be p.confirmIn 16 8 : Nat)))

/-- A slot opens with its SESSION in key slot `k` (R525, R526, R528). -/
def Dev.hsOpenKey (d : Dev) (slot : Nat) (p : PSlot) (k : Nat) : Dev :=
  let s0 : Session := ⟨0, d.hsRoleA slot, [], [], [], [], none, d.now, p.chain0, false⟩
  let d := d.setKey k 0 (some ⟨.session (s0.enter 0 d.now none), false⟩)
  let d := (d.set (WXU.SLOT_KEY.KEY_SLOT slot) k).set (WXU.SLOT_KEY.AUTH_FAILS slot) 0
  let d := (d.set (WXU.SLOT_PEER.PEER_SLOT slot) (be p.peerHello 2 2)).set (WXU.SLOT_PEER.PEER_GEN slot) (be p.peerHello 4 1)
  let d := ((d.set (WXU.SLOT_STATE.KEY_PHASE slot) 0).set (WXU.SLOT_STATE.STATE slot) wsOPEN).bump SEC.HS_COMPLETE.COUNT 1
  let d := d.onPslot slot (fun p => { p with eph := [], shared := [], mkPeer := [], chain0 := [], retryAt := none, heardAt := d.now, sentAt := d.now, rateAt := d.now, confirmIn := [] })
  (((d.hsRtt slot p).hsErase slot).sendCredit slot).wantCheck slot false

/-- A slot opens, or fails with no key slot FREE (R526). -/
def Dev.hsOpenIn (d : Dev) (slot : Nat) (p : PSlot) : Option Nat → Dev
  | none => d.hsFail slot 7
  | some k => d.hsOpenKey slot p k

/-- The slot opens (R525, R526, R528): the SESSION takes the lowest FREE key slot, TX_SEQ starts at 1. -/
def Dev.hsOpen (d : Dev) (slot : Nat) (p : PSlot) : Dev := d.hsOpenIn slot p d.lowestKey

/-- The peer's CONFIRM has been verified. -/
def Dev.hsConfirmed (d : Dev) (slot gen st : Nat) : Dev :=
  match d.pslot slot with
  | none => d
  | some p =>
    if !d.inHs slot gen then d
    else if st ≠ 0 then (d.onPslot slot (fun p => { p with confirmIn := [] })).hsFail slot 5
    else if hmac384 p.mkPeer (d.hsHash slot p) ≠ slice p.confirmIn 24 48 then (d.onPslot slot (fun p => { p with confirmIn := [] })).hsFail slot 6
    else d.hsOpen slot p

/-! ## HANDSHAKE (R522) -/

/-- HANDSHAKE SET_ENDORSEMENT's effect. -/
def Dev.setEndorsement (d : Dev) (dom : Nat) (o : Origin) (ops : Bytes) : Dev × Answer :=
  let k := opnd ops 18 2
  if k < 16 then (d, .now (errR 0x0105))
  else if 1023 < k then (d, .now (errR 0x0107))
  else match d.useKey k with
    | (d, .error st) => (d, .now (errR st))
    | (d, .ok (.pub pt)) =>
      match d.fetch (hifAcc 1 dom) (opnd ops 24 8) 256 with
      | (d, .error (st, a)) => (d, .now (errA st a))
      | (d, .ok e) =>
        if endorsPoint e ≠ pubOf dikScalar ∨ le e 24 8 ≠ Config.serial.toNat ∨ (d.cfgCell ≠ 0xFF ∧ le e 6 1 ≠ d.cfgCell) then
          (d, .now (errR 0x0609))
        else (d.pkAdd ⟨.verify, e, pt, endorsDigest e, endorsSig e, .ownEndorse o ops⟩, .unit [(opnd ops 24 8, 256)])
    | (d, .ok _) => (d, .now (errR 0x0605))

/-- The own endorsement has been verified. -/
def Dev.endorsed (d : Dev) (o : Origin) (ops e : Bytes) (st : Nat) : Dev :=
  if st ≠ 0 then d.pkCommand 0x0602 o ops (errR 0x0609)
  else { d with sec.endorsement := some e }.pkCommand 0x0602 o ops (okU [])

/-- HANDSHAKE REKEY's effect: it waits until both directions use the new phase. -/
def Dev.rekeyCommand (d : Dev) (o : Origin) (ops : Bytes) : Dev × Answer :=
  let s := opnd ops 18 2
  match d.pslot s, d.session s with
  | some p, some (_, ss) =>
    if 4096 ≤ s ∨ !d.slotOpen s then (d, .now (errR 0x0605))
    else if p.rekeyCmd.isSome then (d, .now (errR 0x060E))
    else ((d.onPslot s (fun p => { p with rekeyCmd := some (o, ops), rekeyTo := ss.phase + 1 })).rekey s, .unit [])
  | _, _ => (d, .now (errR (if 4096 ≤ s then 0x0107 else 0x0605)))

/-- HANDSHAKE (R522). -/
def execHandshake (o : Origin) (ops : Bytes) (s : State) : Host.Outcome State Fault Refusal :=
  .next (s.onDev (fun d => d.command 0x0602 o ops (fun d' =>
    if opnd ops 16 1 = 0 then d'.setEndorsement (d.domOf (d.jobOf o)) o ops
    else if opnd ops 16 1 = 1 then d'.rekeyCommand o ops
    else (d', .now (errR 0x0107)))))

/-! ## The end of DEBUG_UNLOCK RESPOND (R537, R618) -/

/-- The token has been verified: at HALT or FULL the key slots are zeroised and slot 0 is locked out first. -/
def Dev.unlocked (d : Dev) (o : Origin) (ops : Bytes) (lvl st : Nat) : Dev :=
  if st ≠ 0 ∨ lvl = 0 then d.pkCommand 0x0A01 o ops (errR 0x0902)
  else
    let d := if 2 ≤ lvl then d.zeroiseAll.set SEC.STATE.IDENTITY_LOCKED 1 else d
    ({ d.set CSV.DBG_STATE.LEVEL lvl with sec.debugged := true }).pkCommand 0x0A01 o ops (okU [])

/-! ## PK_OPERATION_COMPLETE (R519, R520) -/

/-- What follows an operation, by what it was for. -/
def Dev.pkFollow (d : Dev) (o : PkOp) (st : Nat) : Dev :=
  match o.use with
  | .ephemeral s g => d.hsEphemeral s g st
  | .endorse s g => d.hsEndorsed s g st
  | .shared s g => d.hsShared s g st o.scalar o.point
  | .schedule s g => d.hsSchedule s g
  | .confirm s g => d.hsConfirm s g st o.digest
  | .peerConfirm s g => d.hsConfirmed s g st
  | .generate og ops k => d.keyGenerated og ops k st
  | .import_ og ops k => d.keyImported og ops k st o.point
  | .ownEndorse og ops => d.endorsed og ops o.scalar st
  | .attest og ops => d.attested og ops o.sig st
  | .unlock og ops lvl => d.unlocked og ops lvl st
  | .core _ => d.coreResult o st

/-- An operation completes. -/
def Dev.pkComplete (d : Dev) (c : Nat) : Dev :=
  match d.pkCore c with
  | none => d
  | some o =>
    let st := match o.use with | .core (n + 1) => n + 1 | _ => d.pkStatus o
    (((d.setPkCore c none).pkCount st).pkFollow o st).keyRelease

/-- PK_OPERATION_COMPLETE (R520). -/
def execPkOperationComplete (core : Nat) (s : State) : Host.Outcome State Fault Refusal :=
  .next (s.onDev (·.pkComplete core))

end Sys2Proof.Machine
end

