-- ==== Sys2Proof/Machine/RoundCommands.lean ====
section
/-! DEFINITION. The commands and events of the parameter state engine (R359 to R387) and of accession rounds
(R433 to R437, R444, R452, R465 to R470). What they do stands in `Pse`, `Rounds` and `Collectives`. -/

namespace Sys2Proof.Machine

/-! ## PSE commands (R386) -/

/-- A PSE command of a ring: in the job's order; what it lets go on goes on. -/
def Dev.pseRun (d : Dev) (opc : Nat) (o : Origin) (ops : Bytes) : Dev :=
  ((d.command opc o ops (fun d' => d'.pseCommand (d'.jobOf o) opc o ops)).pseDrain (d.jobOf o)).kick

/-- PSE_CONFIG (R359). -/
def execPseConfig (o : Origin) (ops : Bytes) (s : State) : Host.Outcome State Fault Refusal := .next (s.onDev (·.pseRun 0x0401 o ops))
/-- STEP_UPDATE (R361). -/
def execStepUpdate (o : Origin) (ops : Bytes) (s : State) : Host.Outcome State Fault Refusal := .next (s.onDev (·.pseRun 0x0402 o ops))
/-- NORM_GUARD_CFG (R368). -/
def execNormGuardCfg (o : Origin) (ops : Bytes) (s : State) : Host.Outcome State Fault Refusal := .next (s.onDev (·.pseRun 0x0403 o ops))
/-- SEAL (R382). -/
def execSealCmd (o : Origin) (ops : Bytes) (s : State) : Host.Outcome State Fault Refusal := .next (s.onDev (·.pseRun 0x0404 o ops))
/-- OUTER_APPLY (R382). -/
def execOuterApply (o : Origin) (ops : Bytes) (s : State) : Host.Outcome State Fault Refusal := .next (s.onDev (·.pseRun 0x0405 o ops))
/-- ROLLOUT_COPY (R383). -/
def execRolloutCopy (o : Origin) (ops : Bytes) (s : State) : Host.Outcome State Fault Refusal := .next (s.onDev (·.pseRun 0x0406 o ops))
/-- DIGEST (R384). -/
def execDigest (o : Origin) (ops : Bytes) (s : State) : Host.Outcome State Fault Refusal := .next (s.onDev (·.pseRun 0x0407 o ops))
/-- LOAN_COPY_SEND (R469). -/
def execLoanCopySend (o : Origin) (ops : Bytes) (s : State) : Host.Outcome State Fault Refusal := .next (s.onDev (·.pseRun 0x0506 o ops))

/-- APPLY_BOUNDARY (R378): the accession at its apply boundary is applied and the job's commands go on. -/
def execApplyBoundary (job : Nat) (s : State) : Host.Outcome State Fault Refusal :=
  .next (s.onDev (fun d => ((d.applyBoundary job).pseDrain job).kick))

/-! ## ROUND_CONFIG (R433 to R435) -/

/-- The operands of ROUND_CONFIG other than its lists; `none`: a field is out of range. -/
def readRoundCfg (job : Nat) (ops : Bytes) : Option RoundCfg :=
  let h := le ops 0 2
  let lag := le ops 2 2
  let dl := le ops 4 4
  let fl := le ops 11 1
  let n := le ops 24 4
  if 1 ≤ h ∧ 1 ≤ lag ∧ lag ≤ h ∧ 1 ≤ dl ∧ dl ≤ 3600000 ∧ le ops 8 1 ≤ 1 ∧ le ops 9 1 ≤ 1 ∧ 10 ≤ le ops 10 1 ∧ le ops 10 1 ≤ 13 ∧ fl ≤ 3
      ∧ le ops 12 1 ≤ 254 ∧ zeroBytes ops 13 1 ∧ le ops 14 2 ≤ 63 ∧ 1 ≤ n ∧ n ≤ 65536 ∧ zeroBytes ops 28 4 ∧ le ops 32 8 % pageBytes = 0
      ∧ zeroBytes ops 48 64 then
    some { job := job, h := h, lag := lag, deadlineMs := dl, d2 := le ops 8 1 == 1, stoch := le ops 9 1 == 1, fragLog2 := le ops 10 1,
           join := bit fl 1, group := le ops 12 1, cell := le ops 14 2, area := le ops 32 8, shards := [] }
  else none

/-- A partner list: cells and slots. -/
def readPartners (b : Bytes) (p : Nat) : List (Nat × Nat) := (List.range p).map (fun i => (le b (4 * i) 2, le b (4 * i + 2) 2))

/-- Do the partners of a shard pass (R434)? -/
def Dev.partnersOk (d : Dev) (own : Nat) (record : Bool) (ps : List (Nat × Nat)) : Bool :=
  ps.all (fun (c, s) => decide (c ≤ 63) && (if record then c != own && decide (s < 4096) && d.slotUsed s && d.get (WXU.SLOT_STATE.CELL s) == c
    else s == 0xFFFF))
    && (!record || (ps.map (·.1)).eraseDups.length == ps.length)

/-- Read and check the entries of the shard list from index i on: the shards, or status and RESULT (R431,
R434). -/
def Dev.readShards (c : RoundCfg) (es : List PEnt) (g own dom : Nat) (list : Bytes) : Nat → Nat → List Shard → Dev → Dev × Except (Nat × Nat) (List Shard)
  | 0, _, acc, d => (d, .ok acc)
  | n + 1, i, acc, d =>
    let b := slice list (32 * i) 32
    let rec_ := le b 8 2
    let p := le b 10 2
    match es[le b 4 4]? with
    | none => (d, .error (0x0502, i))
    | some e =>
      if !(e.round && (e.record == (rec_ == own)) && decide (rec_ < g ∧ p ≤ 63) && zeroBytes b 12 4 && zeroBytes b 24 8
          && !acc.any (fun s => s.id == le b 0 4)) then (d, .error (0x0502, i))
      else match (if p = 0 then (d, .ok []) else match d.xlate (wxuAcc 4 dom) (le b 16 8) (4 * p) with
          | (d, .error x) => (d, .error (causeStatus x.cause, x.addr))
          | (d, .ok _) => d.fetch (wxuAcc 1 dom) (le b 16 8) (4 * p) : Dev × Except (Nat × Nat) Bytes) with
        | (d, .error x) => (d, .error x)
        | (d, .ok pb) =>
          let ps := readPartners pb p
          if !d.partnersOk c.cell (rec_ == own) ps then (d, .error (0x0502, i))
          else Dev.readShards c es g own dom list n (i + 1) (acc ++ [⟨le b 0 4, le b 4 4, rec_, ps, e.id, e.first, e.count, e.total⟩]) d

/-- The checks of R434 in their order: the configuration and the bytes its area needs. -/
def Dev.roundCheck (d : Dev) (job : Nat) (ops : Bytes) : Dev × Except (Nat × Nat) (RoundCfg × Nat) :=
  let out : Nat := 0xFFFFFFFF
  let dom := d.domOf job
  match (d.pseUnit job).cfg with
  | none => (d, .error (0x0503, out))
  | some j =>
    if d.flag WXU.ROUND_STATE.OPEN ∨ (List.range 4).any (fun k => (d.accSlot k).isSome) then (d, .error (0x0503, out))
    else match readRoundCfg job ops with
      | none => (d, .error (0x0502, out))
      | some c => match d.group c.group with
        | none => (d, .error (0x0502, out))
        | some g =>
          if d.get (CFI.GROUP_STATE.STATE c.group) ≠ gsACTIVE then (d, .error (0x0502, out))
          else
            let n := le ops 24 4
            match d.xlate (wxuAcc 4 dom) (le ops 16 8) (32 * n) with
            | (d, .error x) => (d, .error (causeStatus x.cause, x.addr))
            | (d, .ok _) => match d.fetch (wxuAcc 1 dom) (le ops 16 8) (32 * n) with
              | (d, .error x) => (d, .error x)
              | (d, .ok list) => match d.pseTable j dom (·.round) with
                | (d, .error (st, x)) => (d, .error (if st = 0x0282 then (0x0502, out) else (st, x)))
                | (d, .ok es) => match Dev.readShards c es g.size (d.ownIx c.group) dom list n 0 [] d with
                  | (d, .error x) => (d, .error x)
                  | (d, .ok shards) =>
                    let c := { c with shards := shards }
                    let need := c.areaBytes g.size
                    let query := bit (le ops 11 1) 0
                    if !query ∧ le ops 40 8 < need then (d, .error (0x0504, need))
                    else match (if le ops 40 8 = 0 then (d, none) else match d.xlate (wxuAcc 4 dom) c.area (le ops 40 8) with
                        | (d, .error x) => (d, some (causeStatus x.cause, x.addr))
                        | (d, .ok _) => (d, none) : Dev × Option (Nat × Nat)) with
                      | (d, some x) => (d, .error x)
                      | (d, none) => (d, .ok (c, need))

/-- ROUND_CONFIG's effect. -/
def Dev.roundConfig (d : Dev) (job : Nat) (ops : Bytes) : Dev × Answer :=
  match d.roundCheck job ops with
  | (d, .error (st, r)) => (d, .now (errA st r))
  | (d, .ok (c, need)) =>
    if bit (le ops 11 1) 0 then (d, .now (okR need))
    else
      let d := { d.abandonAccs with rnd.cfg := some c, rnd.loansIn := [], rnd.joined := false, rnd.hostApply := [] }
      ((d.set WXU.ROUND_STATE.JOIN_WAIT (b2n c.join)).updateActive true, .now (okU []))

/-- ROUND_CONFIG (R433). -/
def execRoundConfig (o : Origin) (ops : Bytes) (s : State) : Host.Outcome State Fault Refusal :=
  .next (s.onDev (fun d => d.command 0x0501 o ops (fun d' => d'.roundConfig (d'.jobOf o) ops)))

/-! ## ROUND_OPEN (R436, R437) -/

/-- The next step to start of a job. -/
def Dev.nextStep (d : Dev) (job : Nat) : Nat :=
  let u := d.pseUnit job
  match u.run, u.last, d.job job with
  | some r, _, _ => stepAfter (le r.ops 0 8)
  | none, some l, _ => stepAfter l
  | none, none, some x => x.firstStep
  | none, none, none => 0

/-- ROUND_OPEN's effect. -/
def Dev.roundOpen (d : Dev) (job : Nat) (ops : Bytes) : Dev × Answer :=
  let a := le ops 0 4
  let n0 := le ops 4 8
  let refuse (st : Nat) : Dev × Answer := (d, .now (errR st))
  if 1 < le ops 12 1 ∨ !zeroBytes ops 13 35 then refuse 0x0107
  else match d.rnd.cfg with
    | none => refuse 0x0503
    | some c =>
      let opn := d.flag WXU.ROUND_STATE.OPEN
      if c.job ≠ job then refuse 0x0503
      else if d.flag WXU.ROUND_STATE.EXHAUSTED then refuse 0x0501
      else if le ops 12 1 = 1 then
        if opn then (d.set WXU.ROUND_STATE.STOPPING 1, .now (okU [])) else refuse 0x0503
      else if opn ∨ d.rnd.opening.isSome ∨ (c.join ∧ !d.rnd.joined) ∨ n0 < d.nextStep job then refuse 0x0503
      else if !d.rnd.restart && (match d.rnd.lastSealed with | some l => decide (a ≤ l) | none => false) then refuse 0x0503
      else
        let d := { d with rnd.opening := some (a, n0), rnd.restart := false }
        let d := if (d.pseUnit job).run.isNone ∧ n0 = d.nextStep job then d.openRound c a n0 else d
        (d.creditAll, .now (okU []))

/-- ROUND_OPEN (R436). -/
def execRoundOpen (o : Origin) (ops : Bytes) (s : State) : Host.Outcome State Fault Refusal :=
  .next (s.onDev (fun d => d.command 0x0502 o ops (fun d' => d'.roundOpen (d'.jobOf o) ops)))

/-! ## PARTNER_REMOVE (R465) and EPOCH_COMMIT (R467) -/

/-- End the LOAN_COPY_SENDs of a slot that is removed. -/
def Dev.loansGone (d : Dev) (slot : Nat) : Dev :=
  let gone := d.rnd.loansOut.filter (fun l => l.slot == slot)
  let d := { d with rnd.loansOut := d.rnd.loansOut.filter (fun l => l.slot != slot) }
  d.each gone (fun d l => d.unitDone 0x0506 (fun f => f.org == l.org && f.ops == l.ops) (errR 0x050E))

/-- A slot in use goes into quarantine: it sends and accepts nothing, its windows close. -/
def Dev.removeSlot (d : Dev) (s : Nat) : Dev :=
  let rk := (d.pslot s).bind (·.rekeyCmd)
  let d := d.set (WXU.SLOT_STATE.STATE s) wsQUARANTINE
  let d := ((d.set (WXU.SLOT_STATE.ACTIVE s) 0).set (WXU.SLOT_STATE.WANTING s) 0).set (WXU.SLOT_WINDOW.BYTES s) 0
  let d := d.onPslot s (fun p => { p with lastUse := d.now, streams := [], kept := [], wantAt := none, backlog := 0, leavingAt := none,
                                          rekeyCmd := none, rekeyDue := false, retryAt := none })
  let d := (d.syncOut s).set WXU.GRANT_SUM.KIB d.windowSum
  let d := d.setCqueue 1 ((d.cqueue 1).filter (fun r => match r with | .sealFrame x _ _ _ _ _ => x != s | .openFrame .. | .core .. => true))
  let d := match d.rnd.cfg with | some c => d.closeWindows (fun t => (c.partner t).2 == s) | none => d
  let d := match rk with | some (o, ops) => d.pkCommand 0x0602 o ops (errR 0x0605) | none => d
  (((d.loansGone s).keyRelease.updateActive false).retireAccs).decideDue

/-- PARTNER_REMOVE's effect. -/
def Dev.partnerRemove (d : Dev) (ops : Bytes) : Dev × Answer :=
  let s := le ops 0 2
  if !zeroBytes ops 2 46 then (d, .now (errR 0x0107))
  else if 4096 ≤ s ∨ !d.slotUsed s then (d, .now (errR 0x0507))
  else (d.removeSlot s, .now (okU []))

/-- PARTNER_REMOVE (R465). -/
def execPartnerRemove (o : Origin) (ops : Bytes) (s : State) : Host.Outcome State Fault Refusal :=
  .next (s.onDev (fun d => (d.command 0x0504 o ops (fun d' => d'.partnerRemove ops)).kick))

/-- EPOCH_COMMIT's effect: at once when no accession is open (R468). -/
def Dev.epochCommit (d : Dev) (ops : Bytes) : Dev × Answer :=
  let e := le ops 0 2
  if 1 < le ops 2 1 ∨ !zeroBytes ops 3 5 ∨ !zeroBytes ops 16 32 then (d, .now (errR 0x0107))
  else if d.flag WXU.EPOCH_CTL.PENDING_VALID then (d, .now (errR 0x0503))
  else if (d.rnd.everOpened ∧ e ≠ (d.get WXU.EPOCH.CURRENT + 1) % 65536) ∨ (d.ownCell < 64 ∧ !(le ops 8 8).testBit d.ownCell) then
    (d, .now (errR 0x0508))
  else
    let d := (d.set WXU.EPOCH.PENDING e).set WXU.EPOCH_CTL.PENDING_VALID 1
    let d := { d with rnd.pendRestart := le ops 2 1 == 1, rnd.pendMembers := le ops 8 8 }
    (if d.flag WXU.ROUND_STATE.OPEN then d else d.takeEpoch, .now (okU []))

/-- EPOCH_COMMIT (R467). -/
def execEpochCommit (o : Origin) (ops : Bytes) (s : State) : Host.Outcome State Fault Refusal :=
  .next (s.onDev (fun d => (d.command 0x0505 o ops (fun d' => d'.epochCommit ops)).kick))

/-! ## OWN_PACKAGE_GATHER (R444, R458) and the deadline (R452) -/

/-- Issue the own package's all-gather of the lowest accession encoded, once the decisions of all before it have
been issued. -/
def Dev.ownPackageGather (d : Dev) (job : Nat) : Dev :=
  match d.rnd.cfg with
  | none => d
  | some c =>
    let held := (List.range 4).filterMap (fun k => (d.accSlot k).map (fun x => (k, x)))
    let order (p q : Nat × AccSlot) : Bool := decide (p.2.sealStep ≤ q.2.sealStep)
    match (sortBy order held).find? (fun p => !p.2.pkgSent) with
    | some (k, x) =>
      if c.job ≠ job ∨ !x.encoded ∨ d.accState k ≠ acSEALING ∨ held.any (fun p => decide (p.2.sealStep < x.sealStep) && !p.2.decSent) then d
      else
        let g := d.roundSize c
        let own := d.roundIx c
        let coll := Coll.fresh (.package job x.acc) ocAG 1 0 0 (c.outAddr g k own) (c.outBlock g k) c.ownSlot d.roundDom d.now
        (d.onAcc k (fun y => { y with pkgSent := true })).collAdd c.group { coll with own := x.ownLen, lenVec := c.outVec g k }
    | none => d

/-- OWN_PACKAGE_GATHER (R444). -/
def execOwnPackageGather (job : Nat) (s : State) : Host.Outcome State Fault Refusal := .next (s.onDev (fun d => (d.ownPackageGather job).kick))

/-- When the deadline of an accession in EXCHANGE ends. -/
def Dev.decisionDue (d : Dev) (job acc : Nat) : Option Nat :=
  match d.rnd.cfg, d.accSlot (acc % 4) with
  | some c, some x => if c.job = job ∧ x.acc = acc ∧ d.accState (acc % 4) = acEXCHANGE then some (x.sealedAt + c.deadlineMs * 1000000) else none
  | _, _ => none

/-- DECISION_DEADLINE (R452). -/
def execDecisionDeadline (job acc : Nat) (s : State) : Host.Outcome State Fault Refusal :=
  .next (s.atTime (s.dev.decisionDue job acc) (·.decideDue.kick))

end Sys2Proof.Machine
end

