-- ==== Sys2Proof/Machine/StorageEvents.lean ====
section
/-! DEFINITION. Storage as commands and events: STORAGE_TARGET_ADD, CKPT_WRITE, CKPT_READ and SNAPSHOT (R541,
R549, R555, R556), and what the servers' packets and the timers of queue pairs bring (R423, R424). -/

namespace Sys2Proof.Machine

/-- What a storage event lets go on: checkpoint commands, then the commands of every job behind them. -/
def Dev.storeOn (d : Dev) : Dev :=
  let d := d.ckGo
  ((d.each (d.pse.map (·.1)) (·.pseDrain ·)).ckGo).kick

/-- STORAGE_TARGET_ADD (R541). -/
def execStorageTargetAdd (o : Origin) (ops : Bytes) (s : State) : Host.Outcome State Fault Refusal :=
  .next (s.onDev (·.command 0x0703 o ops (fun d => let (d, r) := d.targetAdd ops; (d, if r.status = 0 then .later r .ready [] else .now r))))

/-- A checkpoint command, in its job's PSE order (R551, R557). -/
def Dev.ckRun (d : Dev) (opc : Nat) (o : Origin) (ops : Bytes) : Dev := (d.pseRun opc o ops).storeOn

/-- CKPT_WRITE (R549 to R554). -/
def execCkptWrite (o : Origin) (ops : Bytes) (s : State) : Host.Outcome State Fault Refusal := .next (s.onDev (·.ckRun 0x0701 o ops))
/-- CKPT_READ (R556 to R560). -/
def execCkptRead (o : Origin) (ops : Bytes) (s : State) : Host.Outcome State Fault Refusal := .next (s.onDev (·.ckRun 0x0702 o ops))
/-- SNAPSHOT (R555). -/
def execSnapshot (o : Origin) (ops : Bytes) (s : State) : Host.Outcome State Fault Refusal := .next (s.onDev (·.ckRun 0x0704 o ops))

/-- An event on queue pair q of a target that is not in the error state. -/
def Dev.onQueuePair (d : Dev) (q : Nat) (f : Dev → Dev) : Dev :=
  if (d.qp q).target = 0 ∨ (d.qp q).err then d else (f d).storeOn

/-- ROCE_ACK (R424). -/
def execRoceAck (qp psn : Nat) (s : State) : Host.Outcome State Fault Refusal :=
  .next (s.onDev (·.onQueuePair qp (fun d => (d.roceRelease qp psn).roceGo qp)))

/-- ROCE_NAK (R424): the PSN it names is the first missing. -/
def execRoceNak (qp psn : Nat) (s : State) : Host.Outcome State Fault Refusal :=
  .next (s.onDev (·.onQueuePair qp (fun d => (((d.roceRelease qp ((psn + 2 ^ 24 - 1) % 2 ^ 24)).roceRetry qp).roceGo qp))))

/-- ROCE_RNR_NAK (R424): the queue pair waits `ns`. -/
def execRoceRnrNak (qp psn ns : Nat) (s : State) : Host.Outcome State Fault Refusal :=
  .next (s.onDev (·.onQueuePair qp (fun d =>
    (d.roceRelease qp ((psn + 2 ^ 24 - 1) % 2 ^ 24)).onQp qp (fun x => { x with rnrUntil := some (d.now + ns) }))))

/-- ROCE_READ_RESPONSE (R423). -/
def execRoceReadResponse (qp psn : Nat) (bs : Bytes) (s : State) : Host.Outcome State Fault Refusal :=
  .next (s.onDev (·.onQueuePair qp (·.roceResponse qp psn bs)))

/-- ROCE_CNP (R423). -/
def execRoceCnp (qp : Nat) (s : State) : Host.Outcome State Fault Refusal := .next (s.onDev (·.roceCut qp))

/-- ROCE_INBOUND_REQUEST (R423): discarded and counted. -/
def execRoceInboundRequest (port : Nat) (s : State) : Host.Outcome State Fault Refusal :=
  .next (s.onDev (fun d => if d.cellUp port then (d.bump (CFI.PORT_RX.COUNT port) 1).bump (CFI.PORT_DISCARDS.COUNT port) 1 else d))

/-- ROCE_RETRY_TIMER (R424): at the time its timer expires. -/
def execRoceRetryTimer (qp : Nat) (s : State) : Host.Outcome State Fault Refusal :=
  .next (s.atTime (s.dev.roceDue qp) (·.onQueuePair qp (·.roceRetry qp)))

/-- ROCE_RNR_WAIT_EXPIRY (R424): at the end of the wait the queue pair sends again. -/
def execRoceRnrWaitExpiry (qp : Nat) (s : State) : Host.Outcome State Fault Refusal :=
  .next (s.atTime (s.dev.qp qp).rnrUntil (·.onQueuePair qp (fun d =>
    ((d.onQp qp (fun x => { x with rnrUntil := none })).roceResend qp).roceGo qp)))

end Sys2Proof.Machine
end

