-- ==== Sys2Proof/Machine/Ports.lean ====
section
/-! DEFINITION. Cell ports and far ports apart from their transports: ports that go down and come up (R421,
R478), PFC pauses (R394), Neighbor Solicitation, ARP and Echo Request (R393, R476), path MTU messages (R477)
and frames discarded at the port (R393, R397, R476). In the frames that either kind of port takes, port 16 + q
is far port q. -/

namespace Sys2Proof.Machine

/-! ## Ports down and up -/

/-- Put out what the windows allow towards every peer and storage server. -/
def Dev.pumpAll (d : Dev) : Dev :=
  (d.each (d.cfi.tx.map (·.1)) (fun d k => Dev.txPump (k % 2) (k / 2) (d.pumpFuel k) d)).each (d.ckpt.qps.map (·.1)) (·.roceGo ·)

/-- A cell port's link changes (R421; a loss raises function 1's vector 4, R624): the event, and the reservations follow the capacity (R418). -/
def Dev.cellLink (d : Dev) (p : Nat) (up : Bool) : Dev :=
  if cellPorts d.code ≤ p ∨ d.flag (CFI.PORT_STATE.UP p) = up ∨ (up = true ∧ (d.flag (CFI.PORT_STATE.ENABLE p) = false ∨ d.csv.reviews.contains (uCell p) = true)) then d
  else ((if up then (d.set (CFI.PORT_STATE.UP p) 1).eventOpen 0x040D else (d.set (CFI.PORT_STATE.UP p) 0).event 0x040C p).when (!up) (·.msix1 4)).rescale.pumpAll.storeOn

/-- CELL_PORT_DOWN (R421). -/
def execCellPortDown (port : Nat) (s : State) : Host.Outcome State Fault Refusal := .next (s.onDev (·.cellLink port false))

/-- CELL_PORT_UP (R421). -/
def execCellPortUp (port : Nat) (s : State) : Host.Outcome State Fault Refusal := .next (s.onDev (·.cellLink port true))

/-- A far port's link changes (R478, R624): the event, and the windows follow the capacity (R497). -/
def Dev.farLink (d : Dev) (p : Nat) (up : Bool) : Dev :=
  if farPorts d.code ≤ p ∨ d.flag (WXU.FAR_STATE.UP p) = up ∨ (up = true ∧ (d.flag (WXU.FAR_STATE.ENABLE p) = false ∨ d.csv.reviews.contains (uFar p) = true)) then d
  else (((d.set (WXU.FAR_STATE.UP p) (b2n up)).event (if up then 0x0511 else 0x0510) p).when (!up) (·.msix1 4)).updateActive true

/-- FAR_PORT_DOWN (R478). -/
def execFarPortDown (port : Nat) (s : State) : Host.Outcome State Fault Refusal := .next (s.onDev (·.farLink port false))

/-- FAR_PORT_UP (R478). -/
def execFarPortUp (port : Nat) (s : State) : Host.Outcome State Fault Refusal := .next (s.onDev (·.farLink port true))

/-! ## PFC (R394) -/

/-- When a pause of some quanta of 512 bit times ends at 800 Gb/s. -/
def pauseEnd (now quanta : Nat) : Nat := now + ceilDiv (quanta * 512) 800

/-- A PFC pause frame holds the priorities of its mask that PFC_OBEY names; 0 quanta end a pause. -/
def Dev.pfcPause (d : Dev) (p mask quanta : Nat) : Dev :=
  if !d.cellUp p then d
  else
    let d := d.bump (CFI.PORT_RX.COUNT p) 1
    let ks := maskBits (mask &&& d.get CFI.CTL.PFC_OBEY) 8
    ({ d with cfi.paused := smapSetAll zeroDflt d.cfi.paused (ks.map (fun k => (8 * p + k, if quanta = 0 then 0 else pauseEnd d.now quanta))) } :
      Dev).flushHeld

/-- PFC_PAUSE (R394). -/
def execPfcPause (port mask quanta : Nat) (s : State) : Host.Outcome State Fault Refusal := .next (s.onDev (·.pfcPause port mask quanta))

/-! ## Neighbor Solicitation, ARP, Echo (R393, R476) -/

/-- Is a port of either kind up; its counters, gateway and IPv6 address; a frame out of it. -/
def Dev.portUp (d : Dev) (p : Nat) : Bool := if p < 16 then d.cellUp p else d.farUp (p - 16)
def Dev.portRx (d : Dev) (p : Nat) : Dev :=
  if p < 16 then d.bump (CFI.PORT_RX.COUNT p) 1 else d.bump (WXU.FAR_RX.COUNT (p - 16)) 1
def Dev.portDiscard (d : Dev) (p : Nat) : Dev :=
  if p < 16 then d.bump (CFI.PORT_DISCARDS.COUNT p) 1 else d.bump WXU.FAR_DISCARDS.COUNT 1
def Dev.portGw (d : Dev) (p : Nat) : Nat := if p < 16 then d.cellGw p else d.farGw (p - 16)
def Dev.portIp6 (d : Dev) (p : Nat) : Nat := if p < 16 then d.cellIp p else d.farIp6 (p - 16)
def Dev.portSend (d : Dev) (p type : Nat) (pkt : Bytes) : Dev :=
  let f := ether (d.portGw p) (portMac p) type pkt
  if p < 16 then d.cellOut p (dscpPrio (d.get CFI.DSCP.CTRL)) f none
  else (d.emit (.farFrame (p - 16) f)).bump (WXU.FAR_TX.COUNT (p - 16)) 1

/-- The sum of an ICMPv6 message with its pseudo-header. -/
def icmp6Sum (src dst : Nat) (msg : Bytes) : Nat :=
  onesSum (beBytes 16 src ++ beBytes 16 dst ++ beBytes 4 msg.length ++ [0, 0, 0, 58] ++ msg) 0

/-- An IPv6 packet with an ICMPv6 message, ECT(0) (R394, R476). Neighbor discovery takes hop limit 255
(PRESUMED, RFC 4861), an Echo Reply 64. -/
def icmp6 (src dst hops dscp : Nat) (msg : Bytes) : Bytes :=
  let sum := 65535 - icmp6Sum src dst (patch msg 2 [0, 0])
  beBytes 4 (6 * 2 ^ 28 + (dscp * 4 + 2) * 2 ^ 20) ++ beBytes 2 msg.length ++ [58, BitVec.ofNat 8 hops] ++ beBytes 16 src
    ++ beBytes 16 dst ++ patch msg 2 (beBytes 2 sum)

/-- The ICMPv6 message of a frame: source, destination, message. -/
def readIcmp6 (f : Bytes) : Option (Nat × Nat × Bytes) :=
  let ip := f.drop 14
  let msg := (ip.drop 40).take (be ip 4 2)
  let src := be ip 8 16
  let dst := be ip 24 16
  if be f 12 2 = 0x86DD ∧ be ip 0 1 / 16 = 6 ∧ be ip 6 1 = 58 ∧ 8 ≤ be ip 4 2 ∧ msg.length = be ip 4 2 ∧ icmp6Sum src dst msg = 65535 then
    some (src, dst, msg)
  else none

/-- The DSCP of control frames on a port. -/
def Dev.portDscp (d : Dev) (p : Nat) : Nat := if p < 16 then d.get CFI.DSCP.CTRL else d.get WXU.DSCP.CTRL

/-- A Neighbor Solicitation for an own address is answered with a Neighbor Advertisement (layout PRESUMED,
RFC 4861): solicited and override, the target and its link-layer address; to all nodes and unsolicited when
the source is unspecified. -/
def Dev.solicited (d : Dev) (p : Nat) (f : Bytes) : Dev :=
  if !d.portUp p then d
  else
    let d := d.portRx p
    match readIcmp6 f with
    | none => d.portDiscard p
    | some (src, _, msg) =>
      if be msg 0 1 ≠ 135 ∨ be msg 8 16 ≠ d.portIp6 p ∨ msg.length < 24 then d.portDiscard p
      else
        let flags := if src = 0 then 0x20000000 else 0x60000000
        let na := [136, 0, 0, 0] ++ beBytes 4 flags ++ beBytes 16 (d.portIp6 p) ++ [2, 1] ++ beBytes 6 (portMac p)
        d.portSend p 0x86DD (icmp6 (d.portIp6 p) (if src = 0 then 0xFF02 * 2 ^ 112 + 1 else src) 255 (d.portDscp p) na)

/-- NEIGHBOR_SOLICITATION (R393). -/
def execNeighborSolicitation (port : Nat) (bs : Bytes) (s : State) : Host.Outcome State Fault Refusal :=
  .next (s.onDev (·.solicited port bs))

/-- An ARP request for the own IPv4 address of a far port is answered (R476). -/
def Dev.arpIn (d : Dev) (q : Nat) (f : Bytes) : Dev :=
  if !d.farUp q then d
  else
    let d := d.portRx (16 + q)
    let a := f.drop 14
    if be f 12 2 = 0x0806 ∧ be a 0 8 = 0x0001080006040001 ∧ be a 24 4 = d.get (WXU.FAR_IP4.ADDR q) ∧ d.flag (WXU.FAR_STATE.IPV4_EN q) = true
        ∧ 28 ≤ a.length then
      d.portSend (16 + q) 0x0806 (beBytes 8 0x0001080006040002 ++ beBytes 6 (portMac (16 + q)) ++ beBytes 4 (d.get (WXU.FAR_IP4.ADDR q))
        ++ (a.drop 8).take 10)
    else d.portDiscard (16 + q)

/-- ARP_REQUEST (R476). -/
def execArpRequest (port : Nat) (bs : Bytes) (s : State) : Host.Outcome State Fault Refusal := .next (s.onDev (·.arpIn port bs))

def echoDflt : Nat → List Nat := fun _ => []
/-- The answers of a port within the last second, newest first. -/
def Dev.echoed (d : Dev) (p : Nat) : List Nat :=
  (if p < 16 then smapGet echoDflt d.cfi.echoes p else smapGet echoDflt d.wxu.echoes (p - 16)).filter (fun t => decide (d.now < t + 1000000000))

/-- Answer an Echo Request unless 1,000 were answered within the last second. -/
def Dev.echoReply (d : Dev) (p type : Nat) (pkt : Bytes) : Dev :=
  let ts := d.echoed p
  if 1000 ≤ ts.length then d
  else
    let d := if p < 16 then { d with cfi.echoes := smapSet echoDflt d.cfi.echoes p (d.now :: ts) }
      else { d with wxu.echoes := smapSet echoDflt d.wxu.echoes (p - 16) (d.now :: ts) }
    d.portSend p type pkt

/-- An ICMPv4 Echo Reply. -/
def echo4 (src dst dscp : Nat) (msg : Bytes) : Bytes :=
  let m (c : Nat) : Bytes := [0, 0] ++ beBytes 2 c ++ msg.drop 4
  let h (c : Nat) : Bytes := [0x45, BitVec.ofNat 8 (dscp * 4 + 2)] ++ beBytes 2 (20 + msg.length) ++ [0, 0, 0x40, 0, 64, 1] ++ beBytes 2 c
    ++ beBytes 4 src ++ beBytes 4 dst
  h (65535 - onesSum (h 0) 0) ++ m (65535 - onesSum (m 0) 0)

/-- ECHO_REQUEST's effect: ICMPv6 on either kind of port, ICMPv4 on a far port with IPV4_EN. -/
def Dev.echoIn (d : Dev) (p : Nat) (f : Bytes) : Dev :=
  if !d.portUp p then d
  else
    let d := d.portRx p
    match readIcmp6 f with
    | some (src, dst, msg) =>
      if be msg 0 1 = 128 ∧ dst = d.portIp6 p then d.echoReply p 0x86DD (icmp6 dst src 64 (d.portDscp p) ([129] ++ msg.drop 1))
      else d.portDiscard p
    | none =>
      let ip := f.drop 14
      let msg := (ip.drop 20).take (be ip 2 2 - 20)
      if 16 ≤ p ∧ be f 12 2 = 0x0800 ∧ be ip 0 1 = 0x45 ∧ be ip 9 1 = 1 ∧ be ip 6 2 % 2 ^ 14 = 0 ∧ be msg 0 1 = 8 ∧ onesSum (ip.take 20) 0 = 65535
          ∧ onesSum msg 0 = 65535 ∧ 8 ≤ msg.length ∧ d.flag (WXU.FAR_STATE.IPV4_EN (p - 16)) = true ∧ be ip 16 4 = d.get (WXU.FAR_IP4.ADDR (p - 16)) then
        d.echoReply p 0x0800 (echo4 (be ip 16 4) (be ip 12 4) (d.portDscp p) msg)
      else d.portDiscard p

/-- ECHO_REQUEST (R393). -/
def execEchoRequest (port : Nat) (bs : Bytes) (s : State) : Host.Outcome State Fault Refusal := .next (s.onDev (·.echoIn port bs))

/-! ## Path MTU (R477) and discarded frames -/

/-- Bytes of the IP packet of a slot's full frame. -/
def Dev.packetSize (d : Dev) (slot : Nat) : Nat := d.fragSize + (if d.flag (WXU.SLOT_STATE.IPV4 slot) then 92 else 112)

/-- PACKET_TOO_BIG (R477). -/
def execPacketTooBig (port mtu slot : Nat) (s : State) : Host.Outcome State Fault Refusal :=
  .next (s.onDev (fun d =>
    if !d.farUp port then d
    else if slot < 4096 ∧ d.slotState slot ≠ wsFREE ∧ mtu < d.packetSize slot then (d.portRx (16 + port)).event 0x0515 slot
    else d.portRx (16 + port)))

/-- CELL_FRAME_DISCARD's effect (R393, R396, R397). -/
def Dev.cellDiscard (d : Dev) (p : Nat) (why : FrameFault) : Dev :=
  if !d.cellUp p then d
  else match why with
    | .fcs => d.bump (CFI.PORT_FCS_ERR.COUNT p) 1
    | .icrc => (d.portRx p).bump (CFI.PORT_ICRC_ERR.COUNT p) 1
    | .unhandled => (d.portRx p).portDiscard p
    | .fec c u => (d.bump (CFI.PORT_FEC_CORR.COUNT p) c).bump (CFI.PORT_FEC_UNCORR.COUNT p) u

/-- CELL_FRAME_DISCARD (R393). -/
def execCellFrameDiscard (port : Nat) (why : FrameFault) (s : State) : Host.Outcome State Fault Refusal :=
  .next (s.onDev (·.cellDiscard port why))

/-- FAR_FRAME_DISCARD's effect (R476, R485): a TXP frame with a bad UDP checksum is malformed. -/
def Dev.farDiscard (d : Dev) (p : Nat) (why : FrameFault) : Dev :=
  if !d.farUp p then d
  else match why with
    | .fcs => d.bump (WXU.FAR_FCS_ERR.COUNT p) 1
    | .icrc => (d.portRx (16 + p)).bump WXU.MALFORMED.COUNT 1
    | .unhandled => (d.portRx (16 + p)).portDiscard (16 + p)
    | .fec c u => (d.bump (WXU.FAR_FEC_CORR.COUNT p) c).bump (WXU.FAR_FEC_UNCORR.COUNT p) u

/-- FAR_FRAME_DISCARD (R476). -/
def execFarFrameDiscard (port : Nat) (why : FrameFault) (s : State) : Host.Outcome State Fault Refusal :=
  .next (s.onDev (·.farDiscard port why))

end Sys2Proof.Machine
end

