-- ==== Sys2Proof/Machine/Tmu.lean ====
section
/-! DEFINITION. The time and clock unit (R568 to R590): timers and their hold queue (R583 to R586, R84), the
servo and its states (R573 to R577), PTP and PPS (R578 to R581), edge capture (R587) and the TCLK dividers
(R569). The layouts of PTP frames and the order of the best-master comparison are those of IEEE 1588
(PRESUMED, log 33). -/

namespace Sys2Proof.Machine

/-! ## Timers (R583 to R586) -/

def timerDflt : Nat → Option Timer := fun _ => none
def Dev.timer (d : Dev) (t : Nat) : Option Timer := smapGet timerDflt d.tmu.timers t
/-- Arm or free a timer; `TMU.TIMERS_ARMED` follows. -/
def Dev.setTimer (d : Dev) (t : Nat) (x : Option Timer) : Dev :=
  let d := { d with tmu.timers := smapSet timerDflt d.tmu.timers t x }
  d.set TMU.TIMERS_ARMED.COUNT d.tmu.timers.length

/-- The action of an expiry (R583): the tally, when the owner still has it, then the event. -/
def Dev.timerAction (d : Dev) (t owner : Nat) (event : Bool) (tally : Option Nat) : Dev :=
  let d := match tally with
    | none => d
    | some k => if d.tallyOwned k owner then d.tallyAdd k 1 else d.event 0x0106 t
  d.when event (·.event 0x0803 t)

/-- Count missed expiries of a timer. -/
def Dev.timerMissed (d : Dev) (t n : Nat) : Dev :=
  match d.timer t with
  | some x => (d.setTimer t (some { x with missed := x.missed + n })).bump TMU.MISSED.COUNT n
  | none => d.bump TMU.MISSED.COUNT n

/-- An expiry of timer t, `skipped` periods passed over with it (R576): delivered, or held during a rehang,
when one still undelivered or a full queue makes it a missed one (R84, R584). -/
def Dev.timerExpire (d : Dev) (t skipped : Nat) : Dev :=
  match d.timer t with
  | none => d
  | some x =>
    let d := d.when (decide (0 < skipped)) (·.timerMissed t skipped)
    let missed := x.missed + skipped
    let next : Option Timer := match x.period with
      | some p => some { x with deadline := x.deadline + (skipped + 1) * p, missed := missed }
      | none => none
    if d.curator ≠ curREHANG then (d.setTimer t next).timerAction t x.owner x.event x.tally
    else if x.fired then (d.setTimer t next).timerMissed t 1
    else if 256 ≤ d.cmd.timerHold.length then
      { (d.setTimer t next).timerMissed t 1 with cmd.holdMissed := d.cmd.holdMissed + 1 }
    else
      let held : HeldExpiry := ⟨t, x.deadline, x.owner, x.event, x.tally⟩
      { d.setTimer t (some { (next.getD x) with fired := true }) with cmd.timerHold := d.cmd.timerHold ++ [held] }

/-- Does an armed timer still run towards its deadline? A one-shot whose expiry is held does not. -/
def Timer.runs (x : Timer) : Bool := x.period.isSome || !x.fired

/-- Every timer whose deadline the time base has passed expires, in ascending deadline order, ties in
ascending timer number (R576). -/
def Dev.timersPass (d : Dev) : Dev :=
  let due := d.tmu.timers.filterMap (fun e => match e.2 with
    | some x => if x.runs ∧ x.deadline ≤ d.now then some (x.deadline, e.1) else none
    | none => none)
  let le (a b : Nat × Nat) : Bool := decide (a.1 < b.1 ∨ (a.1 = b.1 ∧ a.2 ≤ b.2))
  d.each (sortBy le due) (fun d e => match d.timer e.2 with
    | some x => d.timerExpire e.2 (match x.period with | some p => (d.now - x.deadline) / p | none => 0)
    | none => d)

/-- The hold queue is released (R84, R85): held expiries in order, then one 0x0802 when some found it full.
`claim` false: the timers still armed are cancelled, each with 0x0801. -/
def Dev.timersRelease (d : Dev) (claim : Bool) : Dev :=
  let held := d.cmd.timerHold
  let lost := d.cmd.holdMissed
  let d := { d with cmd.timerHold := [], cmd.holdMissed := 0 }
  let d := d.each held (fun d h =>
    let d := match d.timer h.timer with
      | some x => if x.fired then d.setTimer h.timer (if x.period.isSome then some { x with fired := false } else none) else d
      | none => d
    d.timerAction h.timer h.owner h.event h.tally)
  let d := d.when (decide (0 < lost)) (·.eventOpen 0x0802)
  if claim then d else d.each d.tmu.timers (fun d e => (d.setTimer e.1 none).event 0x0801 e.1)

/-- A job's timers are freed and their undelivered expiries discarded (R583). -/
def Dev.timersDrop (d : Dev) (job : Nat) : Dev :=
  let d := { d with cmd.timerHold := d.cmd.timerHold.filter (fun h => h.owner != job) }
  d.each d.tmu.timers (fun d e => match e.2 with
    | some x => if x.owner = job then d.setTimer e.1 none else d
    | none => d)

/-- TIMER_ARM's effect (R584). `disp`: when it was dispatched. -/
def Dev.timerArm (d : Dev) (job disp : Nat) (ops : Bytes) : Dev × Result :=
  let want := le ops 0 2
  let fl := le ops 4 1
  let free := (List.range 896).find? (fun i => (d.timer (128 + i)).isNone)
  let t : Option Nat := if want = 0xFFFF then free.map (· + 128)
    else if 128 ≤ want ∧ want ≤ 1023 ∧ (d.timer want).isNone then some want else none
  let period := le ops 16 8
  match t with
  | none => (d, errR 0x080B)
  | some t =>
    if le ops 2 2 ≠ job ∨ 16 ≤ fl ∨ !zeroBytes ops 5 3 ∨ !zeroBytes ops 26 22 ∨ (!bit fl 2 ∧ !bit fl 3) ∨ (bit fl 1 ∧ period < 1000) then
      (d, errR 0x080B)
    else if bit fl 3 ∧ !d.tallyOwned (le ops 24 2) job then (d, errR 0x0106)
    else
      let x : Timer := { owner := job, absolute := bit fl 0, deadline := (if bit fl 0 then 0 else disp) + le ops 8 8,
                         period := if bit fl 1 then some period else none, event := bit fl 2,
                         tally := if bit fl 3 then some (le ops 24 2) else none, fired := false, missed := 0 }
      let d := d.setTimer t (some x)
      (d.when (bit fl 0 && decide (x.deadline < d.now)) (·.timerExpire t (match x.period with | some p => (d.now - x.deadline) / p | none => 0)), okR t)

/-- When the command (o, opc, ops) was dispatched: now, if it was not. -/
def Dev.dispTime (d : Dev) (o : Origin) (opc : Nat) (ops : Bytes) : Nat :=
  match d.cmd.inflight.find? (·.isFor o opc ops) with
  | some f => f.disp
  | none => d.now

/-- A command that holds its result until it completes, unless it is refused. -/
def holdResult (x : Dev × Result) : Dev × Answer := (x.1, if x.2.status = 0 then .later x.2 .ready [] else .now x.2)

/-- TIMER_ARM (R584). -/
def execTimerArm (o : Origin) (ops : Bytes) (s : State) : Host.Outcome State Fault Refusal :=
  .next (s.onDev (·.command 0x0802 o ops (fun d => holdResult (d.timerArm (d.jobOf o) (d.dispTime o 0x0802 ops) ops))))

/-- TIMER_CANCEL's effect (R585): an expiry due and not delivered is still delivered. -/
def Dev.timerCancel (d : Dev) (job : Nat) (ops : Bytes) : Dev × Result :=
  let t := le ops 0 2
  match d.timer t with
  | none => (d, errR 0x080B)
  | some x =>
    if t < 128 ∨ 1023 < t ∨ x.owner ≠ job ∨ !zeroBytes ops 2 46 then (d, errR 0x080B)
    else if x.fired then (d.setTimer t none, okR 1)
    else if x.deadline ≤ d.now then ((d.timerExpire t 0).setTimer t none, okR 1)
    else (d.setTimer t none, okR 0)

/-- TIMER_CANCEL (R585). -/
def execTimerCancel (o : Origin) (ops : Bytes) (s : State) : Host.Outcome State Fault Refusal :=
  .next (s.onDev (·.command 0x0803 o ops (fun d => holdResult (d.timerCancel (d.jobOf o) ops))))

/-- TIMER_EXPIRY (R583): at the deadline of an armed timer. -/
def execTimerExpiry (t : Nat) (s : State) : Host.Outcome State Fault Refusal :=
  .next (s.atTime ((s.dev.timer t).bind (fun x => if x.runs then some x.deadline else none)) (·.timerExpire t 0))

/-! ## States and bounds (R573, R577) -/

def tmUNSET : Nat := 0
def tmACQUIRING : Nat := 1
def tmLOCKED : Nat := 2
def tmFREERUN : Nat := 4

/-- Enter a state. -/
def Dev.tmEnter (d : Dev) (st : Nat) : Dev := d.set TMU.STATE.STATE st

/-- The last offset. -/
def Dev.tmOffset (d : Dev) : Int := sext 32 (d.get TMU.OFFSET.NS)

/-! ## The servo (R570, R574 to R577) -/

/-- The largest magnitude of `TMU.FREQ_ADJ`. -/
def adjMax : Int := 2147484

/-- A signed value held in 32 bits. -/
def sat32 (x : Int) : Nat := wrap 32 (clampSigned 32 x)

/-- A forward step of n ns (R575, R576). -/
def Dev.timeStep (d : Dev) (n : Nat) : Dev :=
  (({ d.bump TMU.STEPS.COUNT 1 with now := d.now + n }).timersPass).event 0x0807 n

/-- A reference sample: the time base is `o` ns ahead of source `src` (R574, R575). The loop's output is a
free value within the clamp: its gains are not stated. -/
def Dev.servoSample (d : Dev) (src : Nat) (o : Int) : Dev :=
  let d := (d.set TMU.OFFSET.NS (sat32 o)).set TMU.STATE.SOURCE src
  let (v, d) := d.draw
  let adj : Int := ((v % 4294969 : Nat) : Int) - adjMax
  let d := { d.set TMU.FREQ_ADJ.ADJ (wrap 32 adj) with tmu.lastSample := d.now }
  let d := if d.tmState = tmUNSET ∨ d.tmState = tmHOLDOVER ∨ d.tmState = tmFREERUN then
      { d.tmEnter tmACQUIRING with tmu.inLock := 0, tmu.outLock := 0, tmu.adjLog := [] } else d
  let mag := o.natAbs
  let ahead := decide (o > 10000000000)
  let first := ahead && !d.tmu.aheadPosted
  let d := { d with tmu.aheadPosted := ahead }
  let d := d.when first (·.eventOpen 0x0808)
  let d := d.when (decide (o < 0 ∧ d.tmu.stepNs < mag)) (·.timeStep mag)
  if d.tmState = tmLOCKED then
    let log := (d.now, adj) :: d.tmu.adjLog.filter (fun e => decide (d.now ≤ e.1 + 64000000000))
    let out : Nat := if 1000 < mag then d.tmu.outLock + 1 else 0
    let d := { d with tmu.adjLog := log, tmu.outLock := out }
    if 4 ≤ out then
      let (b, d) := d.draw
      { (d.tmEnter tmACQUIRING).set TMU.ERROR_BOUND.NS b with tmu.inLock := 0, tmu.outLock := 0 }
    else d.set TMU.ERROR_BOUND.NS (min 0xFFFFFFFF (mag + 20))
  else
    let n : Nat := if mag ≤ d.tmu.lockNs then d.tmu.inLock + 1 else 0
    let d := { d with tmu.inLock := n }
    if 16 ≤ n then
      (({ d.tmEnter tmLOCKED with tmu.outLock := 0, tmu.adjLog := [(d.now, adj)] }).set TMU.ERROR_BOUND.NS (mag + 20)).eventOpen 0x0804
    else
      let (b, d) := d.draw
      d.set TMU.ERROR_BOUND.NS b

/-- The expected interval of the reference in use, in ns: a second for PPS, else the Sync interval. -/
def Dev.refInterval (d : Dev) : Nat :=
  if d.get TMU.STATE.SOURCE = 20 then 1000000000
  else if 0 ≤ d.tmu.syncLog then 1000000000 * 2 ^ d.tmu.syncLog.toNat else 1000000000 / 2 ^ (-d.tmu.syncLog).toNat

/-- When the reference counts as lost (R574): 3 intervals after the last sample, or at a PTP reference's announce
timeout, whose length no rule states, if that is sooner (log 82). -/
def Dev.lossTime (d : Dev) : Option Nat :=
  let e := d.tmu.lastSample + 3 * d.refInterval
  if d.tmState = tmACQUIRING ∨ d.tmState = tmLOCKED then
    some (if d.get TMU.STATE.SOURCE = 20 then e else min e (d.tmu.announceAt + Config.announceTimeout))
  else none

/-- The reference is lost (R574, R577): the frequency is held at the mean of its values while LOCKED. -/
def Dev.refLost (d : Dev) : Dev :=
  let xs := d.tmu.adjLog.map (·.2)
  let mean : Int := if xs.isEmpty then sext 32 (d.get TMU.FREQ_ADJ.ADJ) else xs.foldl (· + ·) 0 / (xs.length : Int)
  let d := ((d.set TMU.FREQ_ADJ.ADJ (wrap 32 mean)).tmEnter tmHOLDOVER).set TMU.STATE.SOURCE 0x1F
  { d with tmu.lossBound := min 0xFFFFFFFF (d.tmOffset.natAbs + 20), tmu.lossAt := d.now, tmu.master := none }.eventOpen 0x0805

/-- REFERENCE_LOSS (R574). -/
def execReferenceLoss (s : State) : Host.Outcome State Fault Refusal := .next (s.atTime s.dev.lossTime (·.refLost))

/-- HOLDOVER_LIMIT (R577). -/
def execHoldoverLimit (s : State) : Host.Outcome State Fault Refusal :=
  .next (s.atTime (if s.dev.tmState = tmHOLDOVER then some (s.dev.tmu.lossAt + s.dev.tmu.holdoverS * 1000000000) else none)
    (fun d => ((d.tmEnter tmFREERUN).set TMU.ERROR_BOUND.NS 0xFFFFFFFF).eventOpen 0x0806))

/-! ## TIME_CONFIG (R572, R582) -/

/-- The operands in range. -/
def timeOps (ops : Bytes) : Bool :=
  let sy := sext 8 (le ops 5 1)
  decide (le ops 0 4 < 2 ^ 21) && decide (-7 ≤ sy ∧ sy ≤ 1) && decide (le ops 6 1 < 16) && zeroBytes ops 7 1
    && decide (1000 ≤ le ops 16 4 ∧ le ops 16 4 ≤ 1000000000) && decide (10 ≤ le ops 20 2 ∧ le ops 20 2 ≤ 10000) && zeroBytes ops 22 2
    && decide (1 ≤ le ops 24 4 ∧ le ops 24 4 ≤ 604800) && decide (le ops 28 4 ≤ 999999999)
    && decide (1 ≤ le ops 32 4 ∧ le ops 32 4 ≤ 500000) && zeroBytes ops 36 12

/-- An accepted SET (R572): the time base moves on by D; deadlines of relative timers move with it, those
of absolute ones that it passes expire. -/
def Dev.timeSet (d : Dev) (t : Nat) : Dev :=
  let by_ := t - d.now
  let d := { d with now := t, tmu.timers := d.tmu.timers.map (fun (e : Nat × Option Timer) => (e.1, e.2.map (fun (x : Timer) =>
    if x.absolute then x else { x with deadline := x.deadline + by_ }))) }
  ((d.timersPass).tmEnter tmFREERUN).set TMU.ERROR_BOUND.NS 0xFFFFFFFF

/-- TIME_CONFIG's effect. -/
def Dev.timeConfig (d : Dev) (ops : Bytes) : Dev × Result :=
  let fl := le ops 6 1
  let t := le ops 8 8
  if !timeOps ops ∨ (bit fl 0 ∧ (d.tmState ≠ tmUNSET ∨ t < d.now)) then (d, errR 0x080C)
  else
    let d := { d with tmu := { d.tmu with
      sources := le ops 0 4, domain := le ops 4 1, syncLog := sext 8 (le ops 5 1), ppsOut := bit fl 1, always := bit fl 2,
      ppsFalling := bit fl 3, stepNs := le ops 16 4, lockNs := le ops 20 2, holdoverS := le ops 24 4, ppsOffset := le ops 28 4,
      ppsWidth := le ops 32 4, ppsHigh := d.tmu.ppsHigh && bit fl 1 } }
    let d := d.when (bit fl 0) (·.timeSet t)
    ({ d with tmu.lastPps := d.now, tmu.ppsMissing := false }, okU [])

/-- TIME_CONFIG (R582). -/
def execTimeConfig (o : Origin) (ops : Bytes) (s : State) : Host.Outcome State Fault Refusal :=
  .next (s.onTime (·.command 0x0801 o ops (fun d => holdResult (d.timeConfig ops))))

/-! ## PTP (R578, R579) -/

/-- Is a message's port up, in the source mask, and its domain the one in use? -/
def Dev.ptpPort (d : Dev) (p : Nat) : Bool := if p < 16 then d.cellUp p else d.farUp (p - 16)
def Dev.ptpMine (d : Dev) (m : PtpMsg) : Bool :=
  d.ptpPort m.port && d.tmu.sources.testBit m.port && m.domain == d.tmu.domain

/-- Is a message from the selected master? -/
def Dev.fromMaster (d : Dev) (m : PtpMsg) : Bool :=
  d.ptpMine m && (match d.tmu.master with | some x => x.port == m.port && x.clockId == m.clockId | none => false)

/-- A receive stamp corrected by the port's ingress latency (R579). -/
def Dev.rxTime (d : Dev) (m : PtpMsg) : Nat := m.rxStamp - d.get (TMU.PORT_LATENCY.INGRESS m.port)

/-- A Delay_Req message of this device. -/
def delayReq (domain port seq : Nat) : Bytes :=
  let mac := Config.macBase.toNat / 32 * 32
  [0x01, 0x12] ++ beBytes 2 44 ++ beBytes 1 domain ++ zeros 11 ++ zeros 4 ++ beBytes 3 (mac / 2 ^ 24) ++ [0xFF, 0xFE] ++ beBytes 3 mac
    ++ beBytes 2 (port + 1) ++ beBytes 2 seq ++ [0x01, 0x7F] ++ zeros 10

/-- Send a Delay_Req on the master's port, to its gateway like every frame, and keep its egress stamp (R392, R476, R578,
R579). -/
def Dev.sendDelayReq (d : Dev) (p : Nat) : Dev :=
  let seq := d.tmu.reqSeq
  let msg := delayReq d.tmu.domain p seq
  let dscp := d.get CFI.DSCP.CTRL
  let d := { d with tmu.reqSeq := (seq + 1) % 65536, tmu.reqOut := none }
  let group := 0xFF0E * 2 ^ 112 + 0x181
  if p < 16 then
    d.cellOut p (dscpPrio dscp) (ether (d.cellGw p) (portMac p) 0x86DD (ip6Udp (d.cellIp p) group dscp 0 319 319 msg)) (some seq)
  else
    let q := p - 16
    let d := { d with tmu.reqOut := some (seq, d.now + d.get (TMU.PORT_LATENCY.EGRESS p)) }
    let f := if d.flag (WXU.FAR_STATE.IPV4_EN q) then ether (d.farGw q) (portMac p) 0x0800 (ip4Udp (d.get (WXU.FAR_IP4.ADDR q)) 0xE0000181 dscp 319 319 msg)
      else ether (d.farGw q) (portMac p) 0x86DD (ip6Udp (d.farIp6 q) group dscp 0 319 319 msg)
    (d.emit (.farFrame q f)).bump (WXU.FAR_TX.COUNT q) 1

/-- A Sync's origin time is known: a sample, when the path delay is; a new delay measurement begins. -/
def Dev.syncDone (d : Dev) (port : Nat) (t1 : Int) (t2 : Nat) : Dev :=
  let d := { d with tmu.syncTimes := some (t1, t2), tmu.syncSeq := none }
  let d := match d.tmu.delay with
    | some y => d.servoSample port ((t2 : Int) - t1 - y)
    | none => d
  d.sendDelayReq port

/-- PTP_SYNC's effect: a one-step Sync carries its time; a two-step one waits for its Follow_Up. -/
def Dev.ptpSync (d : Dev) (m : PtpMsg) : Dev :=
  if !d.fromMaster m then d
  else if m.twoStep then { d with tmu.syncSeq := some (m.seq, d.rxTime m, m.correction) }
  else d.syncDone m.port ((m.origin : Int) + m.correction) (d.rxTime m)

/-- PTP_SYNC (R574, R578). -/
def execPtpSync (m : PtpMsg) (s : State) : Host.Outcome State Fault Refusal := .next (s.onTime (·.ptpSync m))

/-- PTP_FOLLOW_UP (R578). -/
def execPtpFollowUp (m : PtpMsg) (s : State) : Host.Outcome State Fault Refusal :=
  .next (s.onTime (fun d =>
    if !d.fromMaster m then d
    else match d.tmu.syncSeq with
      | some (q, rx, c) => if q = m.seq then d.syncDone m.port ((m.origin : Int) + m.correction + c) rx else d
      | none => d))

/-- PTP_DELAY_RESP's effect: the mean path delay from the last Sync and this exchange. -/
def Dev.delayResp (d : Dev) (m : PtpMsg) : Dev :=
  if !d.fromMaster m then d
  else match d.tmu.reqOut, d.tmu.syncTimes with
    | some (q, t3), some (t1, t2) =>
      if q ≠ m.seq then d
      else
        let t4 : Int := (m.origin : Int) - m.correction
        { d with tmu.delay := some ((((t2 : Int) - t1) + (t4 - (t3 : Int))) / 2), tmu.reqOut := none }
    | _, _ => d

/-- PTP_DELAY_RESP (R578). -/
def execPtpDelayResp (m : PtpMsg) (s : State) : Host.Outcome State Fault Refusal := .next (s.onDev (·.delayResp m))

/-- The order of the best-master comparison: the first difference decides, the lower is better. -/
def rankLt : List Nat → List Nat → Bool
  | a :: as, b :: bs => if a < b then true else if b < a then false else rankLt as bs
  | _, _ => false

/-- PTP_ANNOUNCE's effect: a better master than the selected one, or the selected one's new data. A change of
master begins its delay measurement anew. -/
def Dev.announce (d : Dev) (m : PtpMsg) : Dev :=
  if !d.ptpMine m then d
  else
    let x : Master := ⟨m.port, m.clockId, [m.priority1, m.clockClass, m.accuracy, m.variance, m.priority2, m.clockId, m.stepsRemoved, m.port]⟩
    match d.tmu.master with
    | none => { d with tmu.master := some x, tmu.announceAt := d.now, tmu.delay := none, tmu.syncSeq := none, tmu.reqOut := none }
    | some y =>
      if y.port = m.port ∧ y.clockId = m.clockId then { d with tmu.master := some x, tmu.announceAt := d.now }
      else if rankLt x.rank y.rank then { d with tmu.master := some x, tmu.announceAt := d.now, tmu.delay := none, tmu.syncSeq := none, tmu.reqOut := none }
      else d

/-- PTP_ANNOUNCE (R578). -/
def execPtpAnnounce (m : PtpMsg) (s : State) : Host.Outcome State Fault Refusal := .next (s.onDev (·.announce m))

/-! ## Edge capture (R587) -/

def capDflt : Nat → Capture := fun _ => ⟨0, false, 1, []⟩
def Dev.cap (d : Dev) (i : Nat) : Capture := smapGet capDflt d.tmu.captures i
/-- Change a capture input; its level register follows. -/
def Dev.setCap (d : Dev) (i : Nat) (c : Capture) : Dev :=
  ({ d with tmu.captures := smapSet capDflt d.tmu.captures i c } : Dev).set (TMU.CAP_STATE.LEVEL i) c.fifo.length

/-- An edge on a capture input. -/
def Dev.captureEdge (d : Dev) (i : Nat) (rising : Bool) : Dev :=
  let c := d.cap i
  if 5 ≤ i ∨ !c.enable ∨ (c.edge = 0 ∧ !rising) ∨ (c.edge = 1 ∧ rising) then d
  else if 64 ≤ c.fifo.length then d.set (TMU.CAP_STATE.OVERFLOW i) 1
  else
    let d := d.setCap i { c with fifo := c.fifo ++ [d.now] }
    d.when (c.fifo.length + 1 == c.notify) (·.eventOpen 0x0809)

/-- CAPTURE_CFG's effect. -/
def Dev.captureCfg (d : Dev) (ops : Bytes) : Dev × Result :=
  let i := le ops 0 1
  let n := le ops 3 1
  if 4 < i ∨ 2 < le ops 1 1 ∨ 1 < le ops 2 1 ∨ n < 1 ∨ 64 < n ∨ !zeroBytes ops 4 44 then (d, errR 0x0107)
  else (d.setCap i { d.cap i with edge := le ops 1 1, enable := bit (le ops 2 1) 0, notify := n }, okU [])

/-- CAPTURE_CFG (R587). -/
def execCaptureCfg (o : Origin) (ops : Bytes) (s : State) : Host.Outcome State Fault Refusal :=
  .next (s.onDev (·.command 0x0804 o ops (fun d => holdResult (d.captureCfg ops))))

/-- A pop of a capture FIFO (R589): the oldest stamp's lower half; the upper half is latched. -/
def Dev.capPop (d : Dev) (i : Nat) : Dev × Nat :=
  match (d.cap i).fifo with
  | [] => (d, 0)
  | t :: ts => ((d.setCap i { d.cap i with fifo := ts }).set (TMU.CAP_POP_HI.NS i) (t / 2 ^ 32), t % 2 ^ 32)

/-- CAP_POP_READ (R589). -/
def execCapPopRead (i : Nat) (s : State) : Host.Outcome State Fault Refusal :=
  .next (s.onDev (fun d => if 5 ≤ i then d else let (d, v) := d.capPop i; d.emit (.reg (BitVec.ofNat 32 v))))

/-- A read of `TMU.TIME_LO` (R589). -/
def Dev.timeLo (d : Dev) : Dev × Nat := (d.set TMU.TIME_HI_LATCH.NS (d.now / 2 ^ 32), d.now % 2 ^ 32)

/-- TIME_LO_READ (R589). -/
def execTimeLoRead (s : State) : Host.Outcome State Fault Refusal :=
  .next (s.onDev (fun d => let (d, v) := d.timeLo; d.emit (.reg (BitVec.ofNat 32 v))))

/-! ## PPS (R580, R581) -/

/-- The distance of the time base from the nearest whole second, in ns; ahead is positive. -/
def ppsOffsetOf (now : Nat) : Int :=
  let r := now % 1000000000
  if r < 500000000 then (r : Int) else (r : Int) - 1000000000

/-- An edge on PPS_IN: capture input 0, and a sample when PPS is a source. -/
def Dev.ppsIn (d : Dev) (rising : Bool) : Dev :=
  let d := d.captureEdge 0 rising
  if !d.tmu.sources.testBit 20 ∨ rising = d.tmu.ppsFalling then d
  else
    let d := { d with tmu.lastPps := d.now, tmu.ppsMissing := false }
    let o := ppsOffsetOf d.now
    if d.tmState = tmLOCKED ∧ 100000 < o.natAbs then { d with tmu.ppsDiscards := d.tmu.ppsDiscards + 1 }
    else d.servoSample 20 o

/-- PPS_IN_EDGE (R580). -/
def execPpsInEdge (rising : Bool) (s : State) : Host.Outcome State Fault Refusal := .next (s.onTime (·.ppsIn rising))

/-- CAPTURE_EDGE (R587); input 0 is PPS_IN. -/
def execCaptureEdge (i : Nat) (rising : Bool) (s : State) : Host.Outcome State Fault Refusal :=
  .next (s.onTime (fun d => if i = 0 then d.ppsIn rising else d.captureEdge i rising))

/-- PPS_MISSING (R580): no edge for 3 s. -/
def execPpsMissing (s : State) : Host.Outcome State Fault Refusal :=
  let u := s.dev.tmu
  .next (s.atTime (if u.sources.testBit 20 && !u.ppsMissing then some (u.lastPps + 3000000000) else none)
    (fun d => { d with tmu.ppsMissing := true }.eventOpen 0x080A))

/-- Is PPS_OUT driven (R581)? -/
def Dev.ppsDriven (d : Dev) : Bool := d.tmu.ppsOut && (d.tmu.always || d.tmState == tmLOCKED || d.tmState == tmHOLDOVER)

/-- The next time PPS_OUT rises: the first whole second plus the offset after `now`. -/
def ppsNext (now off : Nat) : Nat := (now + 1000000000 - off) / 1000000000 * 1000000000 + off

/-- PPS_OUT_RISE (R581). -/
def execPpsOutRise (s : State) : Host.Outcome State Fault Refusal :=
  .next (s.atTime (if s.dev.ppsDriven && !s.dev.tmu.ppsHigh then some (ppsNext s.clock.ns s.dev.tmu.ppsOffset) else none)
    (fun d => { d with tmu.ppsHigh := true, tmu.ppsRise := d.now }))

/-- PPS_OUT_FALL (R581). -/
def execPpsOutFall (s : State) : Host.Outcome State Fault Refusal :=
  .next (s.atTime (if s.dev.tmu.ppsHigh then some (s.dev.tmu.ppsRise + s.dev.tmu.ppsWidth * 1000) else none)
    (fun d => { d with tmu.ppsHigh := false }))

/-! ## TCLK dividers (R569) -/

/-- The divider that wing w moves to. -/
def Dev.divWant (d : Dev) (w : Nat) : Nat := max (divOf (d.get (divField w))) (divOf (d.get (clampField w)))

/-- A write of `TMU.TCLK_DIV` by a control core: values 1 to 7 are ignored. -/
def Dev.tclkDiv (d : Dev) (v : Reg) : Dev :=
  d.each (List.range 4) (fun d w =>
    let c := fieldOf v (4 * w + 3) (4 * w)
    if 1 ≤ c ∧ c ≤ 7 then d else d.set (divField w) c)

/-- TCLK_DIV_WRITE (R569): the host's writes are ignored (R589). -/
def execTclkDivWrite (who : Agent) (v : Reg) (s : State) : Host.Outcome State Fault Refusal :=
  .next (s.onDev (fun d => match who with | .host => d | .core _ => d.tclkDiv v))

/-- TCLK_DIVIDER_STEP (R569): one step towards the divider wanted, 1 µs after the last. -/
def execTclkDividerStep (wing : Nat) (s : State) : Host.Outcome State Fault Refusal :=
  let d := s.dev
  .next (s.atTime (if wing < 4 ∧ d.divNow wing ≠ d.divWant wing then some (smapGet zeroDflt d.tmu.divAt wing + 1000) else none)
    (fun d =>
      let n := d.divNow wing
      let n' := if n < d.divWant wing then n + 1 else n - 1
      { d with tmu.divNow := smapSet divDflt d.tmu.divNow wing n', tmu.divAt := smapSet zeroDflt d.tmu.divAt wing d.now }))

end Sys2Proof.Machine
end

