-- ==== Sys2Proof/Machine/Conservator.lean ====
section
/-! DEFINITION. The conservator: the fault ring's retirement and suspicion (R592 to R598), lending tiles, the
in-field test and the moves of stages (R154, R602 to R606), shadow replay (R607, R608), margin sweeps (R609),
background work (R610 to R612) and the retrieval commands (R615). -/

namespace Sys2Proof.Machine

/-! ## The fault ring and suspicion -/

/-- Append records to the history log; the oldest go beyond 4,096 (R601). -/
def Dev.logRecords (d : Dev) (rs : List FaultRec) : Dev :=
  { d with csv.history := (d.csv.history ++ rs).drop (d.csv.history.length + rs.length - 4096) }

/-- The oldest unretired fault of a record's unit and class is retired. -/
def retireHandling (r : FaultRec) : List Handling → List Handling
  | [] => []
  | h :: hs => if h.unit = r.unit ∧ h.cls = r.status / 256 ∧ h.retired = false then { h with retired := true } :: hs
    else h :: retireHandling r hs

/-- Retire the entry at the head of the ring. -/
def Dev.retireEntry (d : Dev) : Dev :=
  let ix := d.get CSV.FRING_HEAD.INDEX
  let d := match smapGet (fun _ => (none : Option FaultRec)) d.csv.fring ix with
    | some r => { d.logRecords [r] with csv.handling := retireHandling r d.csv.handling, csv.fring := smapDrop d.csv.fring ix }
    | none => d
  (d.set CSV.FRING_HEAD.INDEX ((ix + 1) % 64)).set CSV.STATE.FRING_LEVEL (d.get CSV.STATE.FRING_LEVEL - 1)

/-- A write of `CSV.FRING_HEAD` that advances it past written entries retires them; one that passes the tail
is ignored. A fault both retired and past HANDLE_MIN leaves handling (R593). -/
def Dev.ringRetire (d : Dev) (v : Nat) : Dev :=
  let n := (v % 64 + 64 - d.get CSV.FRING_HEAD.INDEX) % 64
  if d.get CSV.STATE.FRING_LEVEL < n then d
  else
    let d := d.each (List.range n) (fun d _ => d.retireEntry)
    { d with csv.handling := d.csv.handling.filter d.inHandling }

/-- FAULT_RING_RETIRE (R592). -/
def execFaultRingRetire (v : Reg) (s : State) : Host.Outcome State Fault Refusal := .next (s.onDev (·.ringRetire v.toNat))

/-- When the k-th fault in handling may leave it: once retired, HANDLE_MIN after its entry. -/
def Dev.handleEnd (d : Dev) (k : Nat) : Option Nat :=
  match d.csv.handling[k]? with
  | some h => if h.retired then some (h.entered + d.get CSV.HANDLE_MIN.MICROSECONDS * 1000) else none
  | none => none

/-- HANDLE_MIN_EXPIRY (R593). -/
def execHandleMinExpiry (k : Nat) (s : State) : Host.Outcome State Fault Refusal :=
  .next (s.atTime (s.dev.handleEnd k) (fun d => { d with csv.handling := d.csv.handling.eraseIdx k }))

/-- When a unit in WATCH returns to CLEAR: 24 h after its last fault. -/
def Dev.decayAt (d : Dev) (u : Nat) : Option Nat :=
  if d.get (suspLevel u) = 1 ∧ allUnits.contains u = true then
    some (match (d.unitSum u).recent with | e :: _ => e.1 + dayNs | [] => d.now)
  else none

/-- SUSPICION_DECAY (R596). -/
def execSuspicionDecay (unit : Nat) (s : State) : Host.Outcome State Fault Refusal :=
  .next (s.atTime (s.dev.decayAt unit) (·.suspect unit 0))

/-- A review test that ran at once ends (R597): WATCH or PERMANENT; a port that passes
comes up (R421, R478), and the traffic follows. -/
def Dev.reviewEnd (d : Dev) (u : Nat) (pass : Bool) : Dev :=
  if !d.csv.reviews.contains u || !reviewsAtOnce u then d
  else
    let d := { d with csv.reviews := d.csv.reviews.filter (· != u) }.suspect u (if pass then 1 else 3)
    match u / 4096 with
    | 4 => if pass then d.cellLink (u % 4096) true else d.rescale.pumpAll.storeOn
    | 5 => if pass then d.farLink (u % 4096) true else d.updateActive true
    | _ => d

/-- REVIEW_TEST_COMPLETE (R597). -/
def execReviewTestComplete (unit : Nat) (pass : Bool) (s : State) : Host.Outcome State Fault Refusal :=
  .next (s.onDev (fun d => (d.reviewEnd unit pass).kick))

/-! ## Moving a stage (R602, R603) -/

/-- The registers of the tile window that move with a stage: sequencer state, PCs and program, chain cursors,
flags, seed and step, regions, and MOVE_ALLOW. -/
def movedRegs : List Nat :=
  [0x0, 0x8, 0xC, 0x10, 0x14, 0x18, 0x1C, 0x4024, 0x4028, 0x402C, 0x4030]
    ++ (List.range 32).map (fun i => 0x4040 + 4 * i) ++ (List.range 128).map (fun i => 0x4100 + 4 * i)
    ++ (List.range 448).map (fun i => 0x7000 + 4 * i) ++ (List.range 6).map (fun i => 0x7900 + 4 * i)

def tileWindow (t : Nat) : Nat := 0x01000000 + 0x10000 * t

/-- The logical tile of t names r from now on. -/
def Dev.assign (d : Dev) (t r : Nat) : Dev :=
  let l := d.logical t
  if l = 0xFFFF then d else { d with csv.logMap := smapSet logMapDflt d.csv.logMap l r }

/-- The stage of t stands on r: its state moved, arrays and accumulators invalid (R155), TDMA channels and
counters staying with the physical tiles; t holds no stage and is EMPTY. -/
def Dev.moveState (d : Dev) (t r : Nat) : Dev :=
  let x := d.tile t
  let y := d.tile r
  let d := (d.setTile r { x with arrays := [], chans := y.chans, creditHeld := none }).setTile t { tileDflt t with chans := x.chans }
  let d := d.each movedRegs (fun d o => (d.wr (tileWindow r + o) (d.rd (tileWindow t + o))).clearReg (tileWindow t + o))
  let d := d.each (List.range 8) (fun d p => (d.showArr t p).showArr r p)
  d.assign t r

/-- Release the credit held for the regions of a stage that has moved to r (R314). -/
def Dev.releaseCredit (d : Dev) (r : Nat) : Dev := (d.each (List.range 64) (fun d k => d.creditBack r k)).pump r

/-- A stage whose scratchpad cannot be read does not move; its pipeline stops (R603, R185). -/
def Dev.moveFails (d : Dev) (t w : Nat) : Dev :=
  let d := d.spmTouch t (8 * w) 8
  let d := (d.onTile t (fun x => { x with creditHeld := none })).haltTile t 0x0265 (w / 16) ⟨d.pc t (d.ctx t), d.ctx t, 0, 0⟩ []
  d.dataDamaged t none none 0x0265

/-- A replay on a reserve that a loan or remap needs is discarded (R605). -/
def Dev.preempt (d : Dev) (r : Nat) : Dev := if d.replaying r then d.replayDrop else d

def Dev.setLoan (d : Dev) (w : Nat) (l : Option Loan) : Dev := { d with csv.loans := smapSet loanDflt d.csv.loans w l }

/-! ## Tests falling due (R602, R605) -/

/-- The units of a tile: itself and its arrays. -/
def tileUnits (t : Nat) : List Nat := uTile t :: (List.range 8).map (uArray t)

/-- Start the in-field test of a tile that holds no stage; the review of its units in PENDING is on. -/
def Dev.startTest (d : Dev) (t : Nat) : Dev :=
  { d with
    csv.testing := smapSet testDflt d.csv.testing t (some d.now),
    csv.dueNow := d.csv.dueNow.filter (· != t),
    csv.reviews := d.csv.reviews ++ (tileUnits t).filter (fun u => d.get (suspLevel u) == 2) }

/-- The test of a tile falls due again one interval from now. -/
def Dev.dueLater (d : Dev) (t : Nat) : Dev :=
  { d with csv.dueFrom := smapSet zeroDflt d.csv.dueFrom t d.now, csv.dueNow := d.csv.dueNow.filter (· != t) }

/-- With no free reserve a due test is skipped (R605). -/
def Dev.skipTest (d : Dev) (t : Nat) : Dev := ((d.bump CSV.TESTS_SKIPPED.COUNT 1).eventOpen 0x0707).dueLater t

/-- Lend a tile: an EMPTY one is swapped and tested at once, another waits for its boundary. -/
def Dev.lend (d : Dev) (t r : Nat) : Dev :=
  let d := d.preempt r
  if d.seqState t = tsEMPTY then ((d.assign t r).setLoan (wingOf t) (some ⟨t, r, 3, d.now⟩)).startTest t
  else d.setLoan (wingOf t) (some ⟨t, r, 1, d.now⟩)

/-- Can the test of a tile begin: no test or sweep runs on it, and either it is a reserve or it holds a logical
tile while its wing has no loan? -/
def Dev.testFree (d : Dev) (t : Nat) : Bool :=
  decide (t < 200) && (d.testing t).isNone && !d.sweeping t && d.curator != curREHANG
    && (if (d.reserves (wingOf t)).contains t then !d.promised t else d.logical t != 0xFFFF && (d.loan (wingOf t)).isNone
      && !d.csv.retiredTiles.contains t)

/-- A test falls due on a tile. -/
def Dev.testDue (d : Dev) (t : Nat) : Dev :=
  if !d.testFree t then d
  else if (d.reserves (wingOf t)).contains t then (d.preempt t).startTest t
  else match d.reserveFor (wingOf t) with
    | some r => d.lend t r
    | none => d.skipTest t

/-- When the test of a tile falls due: at once in PENDING, else one interval after the last. -/
def Dev.dueAt (d : Dev) (t : Nat) : Option Nat :=
  if d.csv.dueNow.contains t then some d.now
  else if d.get CSV.LOAN_CTL.INTERVAL_H = 0 then none
  else some (smapGet zeroDflt d.csv.dueFrom t + d.get CSV.LOAN_CTL.INTERVAL_H * 3600000000000)

/-- LOAN_DUE (R602). -/
def execLoanDue (tile : Nat) (s : State) : Host.Outcome State Fault Refusal :=
  .next (s.atTime (if s.dev.testFree tile then s.dev.dueAt tile else none) (·.testDue tile))

/-- The loan of the lowest wing that meets a test. -/
def Dev.findLoan (d : Dev) (p : Loan → Bool) : Option (Nat × Loan) :=
  wings.findSome? (fun w => match d.loan w with | some l => if p l then some (w, l) else none | none => none)

/-- LOAN_BOUNDARY's effect (R602): at the boundary credit return is held and the copy begins. A tile that has
become EMPTY is tested at once (R605). -/
def Dev.loanBoundary (d : Dev) : Dev :=
  if d.curator = curREHANG then d
  else match d.findLoan (fun l => l.phase == 1 && (d.atBoundary l.tile || d.seqState l.tile == tsEMPTY)) with
    | none => d
    | some (w, l) =>
      if d.seqState l.tile = tsEMPTY then ((d.assign l.tile l.reserve).setLoan w (some { l with phase := 3, since := d.now })).startTest l.tile
      else
        let heads := (List.range 64).map (d.regHead l.tile)
        (d.onTile l.tile (fun x => { x with creditHeld := some heads })).setLoan w (some { l with phase := 2, since := d.now })

/-- LOAN_BOUNDARY (R602). -/
def execLoanBoundary (s : State) : Host.Outcome State Fault Refusal := .next (s.onDev (·.loanBoundary))

/-- LOAN_COPY_COMPLETE's effect (R602, R603). -/
def Dev.loanCopied (d : Dev) : Dev :=
  match d.findLoan (fun l => l.phase == 2) with
  | none => d
  | some (w, l) => match (d.tile l.tile).spmBad 0 spmBytes with
    | some bad => (d.setLoan w none).moveFails l.tile bad
    | none => (((d.moveState l.tile l.reserve).setLoan w (some { l with phase := 3, since := d.now })).startTest l.tile).releaseCredit l.reserve

/-- LOAN_COPY_COMPLETE (R602). -/
def execLoanCopyComplete (s : State) : Host.Outcome State Fault Refusal := .next (s.onDev (·.loanCopied.kick))

/-- A fault of a tile or one of its arrays, with the job, logical tile and step of the stage the tile holds. -/
def Dev.tileUnitFault (d : Dev) (u t st src : Nat) : Dev :=
  let l := d.logical t
  let (job, step) : Nat × Nat := match d.stageOf l with
    | some (p, _, m) => (m.job, d.get2 (CMD.PIPE_STEP_LO.STEP p) (CMD.PIPE_STEP_HI.STEP p))
    | none => (0, 0)
  d.faultRecord u st src 0 0 job l step []

/-- The arrays whose streams a test's signature says failed (bits 7:0); bit 8 says that another part did. -/
def failedArrays (sig : Nat) : List Nat := maskBits (sig % 256) 8

/-- The unit a failed test is charged to: the array when only one array's streams fail, else the tile (R604). -/
def chargedUnit (t sig : Nat) : Nat :=
  match failedArrays sig, bit sig 8 with
  | [a], false => uArray t a
  | _, _ => uTile t

/-- The verdict of the review of a unit of a tested tile. -/
def reviewFails (t sig u : Nat) : Bool :=
  if u = uTile t then decide (sig % 512 ≠ 0) && chargedUnit t sig == u else bit (sig % 256) (u % 8)

/-- FIELD_TEST_COMPLETE's effect (R604): passed, the tile returns to the pool; failed, a fault and the tile
leaves it. The units under review move on (R596). What the test left in the scratchpad is free (log 2). -/
def Dev.fieldTestEnd (d : Dev) (t sig : Nat) : Dev :=
  let w := wingOf t
  let d := { d.bump CSV.TESTS_RUN.COUNT 1 with csv.testing := smapSet testDflt d.csv.testing t none }
  let d := match d.loan w with | some l => if l.tile = t ∧ l.phase = 3 then d.setLoan w none else d | none => d
  let (junk, d) := d.drawBytes spmBytes
  let d := (d.onTile t (fun x => { x with spm := bytesAt 0 junk, spmErr := [] })).dueLater t
  let open_ := (tileUnits t).filter (fun u => d.csv.reviews.contains u)
  let d := if sig % 512 = 0 then d.eventOpen 0x0701
    else
      let d := (d.eventOpen 0x0709).tileUnitFault (chargedUnit t sig) t 0x0709 3
      { d with csv.retiredTiles := if d.csv.retiredTiles.contains t then d.csv.retiredTiles else d.csv.retiredTiles ++ [t] }
  let d := { d with csv.reviews := d.csv.reviews.filter (fun u => !open_.contains u) }
  let d := d.each open_ (fun d u => if d.get (suspLevel u) = 2 then d.suspect u (if reviewFails t sig u then 3 else 1) else d)
  d.replayGo

/-- FIELD_TEST_COMPLETE (R604): 1.5 s after the test began. -/
def execFieldTestComplete (tile signature : Nat) (s : State) : Host.Outcome State Fault Refusal :=
  .next (s.atTime ((s.dev.testing tile).map (· + 1500000000)) (·.fieldTestEnd tile signature))

/-- The waiting loan that began first, and its wing. -/
def Dev.oldestWait (d : Dev) : Option (Nat × Loan) :=
  wings.foldl (fun acc w => match d.loan w, acc with
    | some l, some (_, m) => if l.phase = 1 ∧ l.since < m.since then some (w, l) else acc
    | some l, none => if l.phase = 1 then some (w, l) else none
    | none, _ => acc) none

/-- When the first waiting loan reaches the deferral limit (R605). -/
def Dev.deferEnd (d : Dev) : Option Nat := d.oldestWait.map (fun e => e.2.since + d.get CSV.LOAN_CTL.DEFER_MIN * 60000000000)

/-- LOAN_DEFERRAL_EXPIRY's effect: the loan is cancelled, 0x0708 posted and logged. -/
def Dev.deferExpired (d : Dev) : Dev :=
  match d.oldestWait with
  | none => d
  | some (w, l) =>
    let u := uTile l.tile
    let lvl := d.get (suspLevel u)
    let r : FaultRec := ⟨d.csv.recSeq, u, 0x0708, 3, lvl, lvl, 0, d.now, 0, 0, d.tileJob l.tile, d.logical l.tile, 0, 0, zeros 64⟩
    let d := { (d.setLoan w none).logRecords [r] with csv.recSeq := d.csv.recSeq + 1 }
    ((((d.bump CSV.TESTS_SKIPPED.COUNT 1).eventOpen 0x0708).dueLater l.tile).replayGo).pump l.tile

/-- LOAN_DEFERRAL_EXPIRY (R605). -/
def execLoanDeferralExpiry (s : State) : Host.Outcome State Fault Refusal := .next (s.atTime s.dev.deferEnd (·.deferExpired))

/-! ## PERMANENT verdicts on arrays and tiles (R154, R598) -/

/-- `MXA.MAP` over the arrays a mask of failed ones leaves: logical 0 up on the healthy arrays, at most seven. -/
def mapAvoiding (failed : Nat) : Reg :=
  let live := ((List.range 8).filter (fun p => !failed.testBit p)).take 7
  BitVec.ofNat 32 ((live.zipIdx).foldl (fun v (p, a) => v + (8 + p) * 2 ^ (4 * a)) 0)

/-- Load the stage's seven-array program from the image PROG_LOAD read, and let a stage that ran go on at its
entry. An image that no longer checks leaves the loaded program. -/
def Dev.loadSeven (d : Dev) (t : Nat) : Dev :=
  let (addr, len, dom) := (d.tile t).img
  let ran := d.atBoundary t
  if len = 0 then d
  else match d.fetch (cmdAcc 1 dom) addr len with
    | (d, .error _) => d
    | (d, .ok b) => match progCheck b len true with
      | some _ => d
      | none =>
        let d := (d.loadProgram t b true).onTile t (fun x => { x with img := (addr, len, dom) })
        d.when ran (fun d => d.set (CMD.SEQ_STATE.STATE t) tsRUNNING)

/-- SEVEN_ARRAY_SWITCH's effect (R154, R598): at a boundary, or with no program running. A reserve with a
failed array leaves the pool (R604). -/
def Dev.sevenSwitch (d : Dev) (t : Nat) : Dev :=
  let bad := d.unmarked t
  let st := d.seqState t
  if bad.isEmpty ∨ 200 ≤ t ∨ !(st == tsBOUNDARY || st == tsEMPTY || st == tsREADY) then d
  else
    let mask := bad.foldl (fun m a => putBits m a a 1) (d.get (MXA.FAILED.MASK t))
    let d := d.set (MXA.FAILED.MASK t) mask
    let ran := d.atBoundary t
    let d := if st = tsEMPTY then d.applyMap t (mapAvoiding mask) else (d.loadSeven t).applyMap t (mapAvoiding mask)
    let d := d.onTile t (fun x => { x with heldMap := none })
    let d := if d.logical t = 0xFFFF ∧ !d.csv.retiredTiles.contains t then { d with csv.retiredTiles := d.csv.retiredTiles ++ [t] } else d
    d.when ran (·.pump t)

/-- SEVEN_ARRAY_SWITCH (R154). -/
def execSevenArraySwitch (tile : Nat) (s : State) : Host.Outcome State Fault Refusal := .next (s.atTile tile (·.sevenSwitch tile))

/-- The waiting loan whose reserve a remap may take (R605): the tile's own, else the lowest wing's. -/
def Dev.stealable (d : Dev) (t : Nat) : Option (Nat × Loan) :=
  (d.findLoan (fun l => l.phase == 1 && l.tile == t)).or (d.findLoan (fun l => l.phase == 1))

/-- Move a PERMANENT tile's stage to a reserve; an EMPTY tile is only reassigned. -/
def Dev.remapTo (d : Dev) (t r : Nat) : Dev :=
  let d := d.preempt r
  if d.seqState t = tsEMPTY then d.assign t r
  else match (d.tile t).spmBad 0 spmBytes with
    | some bad => d.moveFails t bad
    | none => (d.moveState t r).releaseCredit r

/-- TILE_REMAP's effect (R598, R602, R605): at the next boundary, on a free reserve, ahead of any waiting loan;
with no reserve 0x0707 and the stage stays. -/
def Dev.tileRemap (d : Dev) (t : Nat) : Dev :=
  let copying : Bool := match d.loan (wingOf t) with | some l => l.tile == t && l.phase == 2 | none => false
  if 200 ≤ t ∨ d.get (suspLevel (uTile t)) ≠ 3 ∨ d.logical t = 0xFFFF ∨ copying ∨ !(d.atBoundary t || d.seqState t == tsEMPTY) then d
  else
    let own := d.findLoan (fun l => l.phase == 1 && l.tile == t)
    match own, d.reserveFor (wingOf t), d.stealable t with
    | some (w, l), _, _ => (d.setLoan w none).remapTo t l.reserve
    | none, some r, _ => d.remapTo t r
    | none, none, some (w, l) => ((d.setLoan w none).skipTest l.tile).remapTo t l.reserve
    | none, none, none => d.eventOpen 0x0707

/-- TILE_REMAP (R602). -/
def execTileRemap (tile : Nat) (s : State) : Host.Outcome State Fault Refusal := .next (s.atTile tile (fun d => (d.tileRemap tile).kick))

/-! ## LOAN_POLICY (R606) -/

/-- LOAN_POLICY's effect. -/
def Dev.loanPolicy (d : Dev) (ops : Bytes) : Dev × Answer :=
  let act := opnd ops 16 1
  let t := opnd ops 18 2
  let defer := opnd ops 22 2
  if 2 < act ∨ !opndZero ops 17 1 ∨ !opndZero ops 24 40 ∨ (act = 0 ∧ (defer < 1 ∨ 10080 < defer)) ∨ (act ≠ 0 ∧ 200 ≤ t) then
    (d, .now (errR 0x0107))
  else if act = 0 then
    let old := d.get CSV.LOAN_CTL.REG
    ((d.set CSV.LOAN_CTL.INTERVAL_H (opnd ops 20 2)).set CSV.LOAN_CTL.DEFER_MIN defer, .now (okR old))
  else if act = 1 then if d.testFree t then (d.testDue t, .now (okR 0)) else (d, .now (errR 0x070E))
  else match d.loan (wingOf t) with
    | some l => if l.tile = t ∧ l.phase = 1 then ((((d.setLoan (wingOf t) none).dueLater t).replayGo).pump t, .now (okR 1))
      else (d, .now (if l.tile = t then okR 0 else okU []))
    | none => (d, .now (okU []))

/-- LOAN_POLICY (R606). -/
def execLoanPolicy (o : Origin) (ops : Bytes) (s : State) : Host.Outcome State Fault Refusal :=
  .next (s.onDev (·.command 0x0901 o ops (·.loanPolicy ops)))

/-! ## Shadow replay (R607, R608) -/

/-- When the conservator selects again. -/
def Dev.replayDue (d : Dev) : Nat := d.csv.replayAt + d.get CSV.REPLAY_INTERVAL.MILLISECONDS * 1000000

/-- The selection due: the next tile in rotation, and on it the array that the low three bits of the time base name
(log 98). -/
def Dev.replayPick (d : Dev) : Nat × Nat := (d.csv.replayNext % 200, d.now % 8)

/-- REPLAY_SELECT's effect: the tile and array due wait for their next START stream; a sample in hand is finished
first. -/
def Dev.replaySelect (d : Dev) : Dev :=
  let (t, a) := d.replayPick
  let d := { d with csv.replayAt := d.now, csv.replayNext := (t + 1) % 200 }
  let held : Bool := match d.csv.replay with
    | some r => r.stage != 0 && (r.stage != 1 || !((d.tile r.tile).arr r.array).cur.isEmpty)
    | none => false
  if held then d else { d with csv.replay := some ⟨t, a, 0, 0, 0, d.now, 0, []⟩ }

/-- REPLAY_SELECT (R607): the row names the tile and array of the selection due; another names no selection (log 11). -/
def execReplaySelect (tile a : Nat) (s : State) : Host.Outcome State Fault Refusal :=
  .next (s.atTime (some s.dev.replayDue) (fun d => if d.replayPick = (tile, a) then d.replaySelect else d))

/-- A mismatch is charged to arrays of the sampled tile and of a reserve. -/
def Dev.chargeReplay (d : Dev) (r : Replay) (sampled reserve : Bool) : Dev :=
  let d := { d with csv.replay := none }
  let d := d.when sampled (·.tileUnitFault (uArray r.tile r.array) r.tile 0x070A 2)
  d.when reserve (·.tileUnitFault (uArray r.first r.array) r.first 0x070A 2)

/-- REPLAY_COMPARE's effect (R608). -/
def Dev.replayCompare (d : Dev) (m : ReplayMatch) : Dev :=
  match d.csv.replay with
  | none => d
  | some r =>
    if r.stage = 2 then
      let d := d.bump CSV.REPLAY_SAMPLES.COUNT 1
      if m = .sample then { d with csv.replay := none }
      else { d.bump CSV.REPLAY_MISMATCH.COUNT 1 with csv.replay := some { r with stage := 3, since := d.now } }.replayGo
    else if r.stage = 4 then
      match m with
      | .first => d.chargeReplay r true false
      | .sample => d.chargeReplay r false true
      | .neither => d.chargeReplay r true true
    else d.replayGo

/-- REPLAY_COMPARE (R608). -/
def execReplayCompare (agrees : ReplayMatch) (s : State) : Host.Outcome State Fault Refusal := .next (s.onDev (·.replayCompare agrees))

/-- When a mismatch that waits for a second reserve is charged without one. -/
def Dev.secondEnd (d : Dev) : Option Nat :=
  match d.csv.replay with
  | some r => if r.stage = 3 then some (r.since + 10000000000) else none
  | none => none

/-- SECOND_REPLAY_TIMEOUT (R608): the sampled array is charged and the first reserve's test falls due. -/
def execSecondReplayTimeout (s : State) : Host.Outcome State Fault Refusal :=
  .next (s.atTime s.dev.secondEnd (fun d => match d.csv.replay with
    | some r =>
      let d := d.chargeReplay r true false
      (if d.csv.dueNow.contains r.first then d else { d with csv.dueNow := d.csv.dueNow ++ [r.first] }).testDue r.first
    | none => d))

/-! ## MARGIN_SWEEP (R609) -/

/-- Dividers of a sweep's mask. -/
def sweepDivs (mask : Nat) : List Nat := (maskBits mask 9).map (8 + ·)

/-- The deepest passing offset at one divider: 0 to `deep` in steps of 5 mV, or 0xFF; free (log 2). -/
def sweepPoint (deep x : Nat) : Nat := let n := deep / 5 + 1
  if x % (n + 1) = n then 0xFF else 5 * (x % (n + 1))

/-- One divider of a sweep: its result, and the fault of a margin too low at divider 8. -/
def Dev.sweepDiv (deep t : Nat) (acc : Dev × List Nat) (dv : Nat) : Dev × List Nat :=
  let (x, d) := acc.1.draw
  let v := sweepPoint deep x
  let low := dv == 8 && (v == 0xFF || decide (v < d.get CSV.MARGIN_MIN.MILLIVOLTS))
  (d.when low (·.tileUnitFault (uTile t) t 0x070B 4), acc.2 ++ [v])

/-- MARGIN_SWEEP's effect. -/
def Dev.marginSweep (d : Dev) (ops : Bytes) : Dev × Answer :=
  let t := opnd ops 16 2
  let mask := opnd ops 18 2
  let deep := opnd ops 20 1
  let temp := opnd ops 21 1
  if 200 ≤ t ∨ 512 ≤ mask ∨ deep < 5 ∨ 100 < deep ∨ (temp ≠ 0 ∧ (temp < 40 ∨ 100 < temp)) then (d, .now (errR 0x0107))
  else if !((d.reserves (wingOf t)).contains t && d.isFree t) then (d, .now (errR 0x070E))
  else
    let (d, vs) := (sweepDivs mask).foldl (Dev.sweepDiv deep t) (d, [])
    (d, .later (okU (vs.map (fun (v : Nat) => BitVec.ofNat 8 v))) .ready [])

/-- MARGIN_SWEEP (R609). -/
def execMarginSweep (o : Origin) (ops : Bytes) (s : State) : Host.Outcome State Fault Refusal :=
  .next (s.onDev (·.command 0x0902 o ops (·.marginSweep ops)))

/-! ## Background work (R610) -/

/-- Scrub lines of a tile: the scratchpad's and the program store's. -/
def spmLines : Nat := 65536
def scrubLines : Nat := 2048 + spmLines

/-- SPM_SCRUB (R610). -/
def execSpmScrub (tile : Nat) (s : State) : Host.Outcome State Fault Refusal :=
  .next (s.atTile tile (fun d =>
    if 200 ≤ tile then d
    else
      let p := smapGet zeroDflt d.csv.spmPos tile
      let d := if p < spmLines then d.spmTouch tile (128 * p) 128 else d
      { d with csv.spmPos := smapSet zeroDflt d.csv.spmPos tile ((p + 1) % scrubLines) }))

/-- LANE_RETRAIN (R610): the lane's port goes down and up; port 16 + q is far port q. -/
def execLaneRetrain (port : Nat) (s : State) : Host.Outcome State Fault Refusal :=
  .next (s.onDev (fun d =>
    if port < 16 then if d.flag (CFI.PORT_STATE.UP port) then ((d.cellLink port false).cellLink port true).kick else d
    else if d.flag (WXU.FAR_STATE.UP (port - 16)) ∧ port < 20 then ((d.farLink (port - 16) false).farLink (port - 16) true).kick
    else d))

/-! ## Telemetry (R612) -/

/-- Translate a range for the conservator, which no entry is checked for (R327): the pieces whose pages are
mapped. -/
def Dev.plainSegs : Nat → Dev → Nat → Nat → List Seg
  | 0, _, _, _ => []
  | fuel + 1, d, addr, n =>
    let len := min n (pageBytes - addr % pageBytes)
    let e := (d.walk (pageOf addr)).2
    if n = 0 then []
    else if d.get HMC.CAT_CTL.ENABLE = 0 then [(addr, n)]
    else (if entValid e then [(pfnFlat d.code (entPfn e) (addr % pageBytes), len)] else []) ++ Dev.plainSegs fuel d (addr + len) (n - len)

/-- The conservator writes a short string to device memory. -/
def Dev.plainWrite (d : Dev) (addr : Nat) (bs : Bytes) : Dev := d.storeSegs (Dev.plainSegs 2 d addr bs.length) bs

/-- TELEMETRY_CFG's effect. -/
def Dev.telemetryCfg (d : Dev) (ops : Bytes) : Dev × Answer :=
  let loc := opnd ops 24 1
  let lg := opnd ops 25 1
  let dec := opnd ops 26 2
  if 1 < loc ∨ lg < 6 ∨ 20 < lg ∨ dec < 1 ∨ 1000 < dec ∨ 1 < opnd ops 28 1 then (d, .now (errR 0x0107))
  else ({ d with csv.telem := ⟨opnd ops 16 8, loc == 1, lg, dec, opnd ops 28 1 == 1, 0, 0⟩ }, .now (okU []))

/-- TELEMETRY_CFG (R612). -/
def execTelemetryCfg (o : Origin) (ops : Bytes) (s : State) : Host.Outcome State Fault Refusal :=
  .next (s.onDev (·.command 0x0904 o ops (·.telemetryCfg ops)))

/-- The counters a sample gives differences of: HBM correctable, scratchpad correctable, FEC uncorrectable. -/
def Dev.errorTotals (d : Dev) : Nat × Nat × Nat :=
  ((List.range 12).foldl (fun a k => a + d.get (HMC.ECC_CORRECTED.COUNT k)) 0,
   (List.range 200).foldl (fun a t => a + d.get (SPM.ECC_CORRECTED.COUNT t)) 0,
   (List.range 16).foldl (fun a p => a + d.get (CFI.PORT_FEC_UNCORR.COUNT p)) 0
     + (List.range 4).foldl (fun a p => a + d.get (WXU.FAR_FEC_UNCORR.COUNT p)) 0)

/-- Measured temperatures with 0x8000 for what is not fitted: stacks, then I/O dies. -/
def Dev.sampleTemps (d : Dev) (m : Bytes) : Bytes :=
  (List.range 12).flatMap (fun k => if (fittedStacks d.code).contains k then slice m (40 + 2 * k) 2 else [0x00, 0x80])
    ++ (List.range 4).flatMap (fun k => if k < ioDies d.code then slice m (64 + 2 * k) 2 else [0x00, 0x80])

/-- A 128-byte sample from what the sensors measured: bytes 16 to 87 are `m`. -/
def Dev.sampleBytes (d : Dev) (seq : Nat) (m : Bytes) : Bytes :=
  let clamped := wings.foldl (fun a w => a + b2n (d.powerHolds w || d.thermHolds w) * 2 ^ (4 + w)) 0
  let flags := b2n (wings.any d.powerHolds) + 2 * b2n (wings.any d.thermHolds) + clamped
  let (a, b, c) := d.errorTotals
  let (a0, b0, c0) := d.csv.telemBase
  leBytes 8 d.now ++ leBytes 4 seq ++ leBytes 4 flags ++ slice m 0 40 ++ d.sampleTemps m
    ++ wings.map (fun w => BitVec.ofNat 8 (d.divNow w))
    ++ leBytes 4 ((a : Int) - a0).toNat ++ leBytes 4 ((b : Int) - b0).toNat ++ leBytes 4 ((c : Int) - c0).toNat
    ++ leBytes 1 (d.get CSV.STATE.FRING_LEVEL) ++ zeros 23

/-- TELEMETRY_SAMPLE's effect: every DECIMATION-th sample is written at its slot. -/
def Dev.telemSample (d : Dev) (m : Bytes) : Dev :=
  let c := d.csv.telem
  let k := c.count / c.decim
  let writes := c.en && c.count % c.decim == 0
  let bs := d.sampleBytes (if writes then k else d.get CSV.TELEM_SEQ.SEQ) m
  let (a, b, f) := d.errorTotals
  let d := { d with csv.lastSample := bs, csv.telemBase := ((a : Int), (b : Int), (f : Int)),
                    csv.telem := if c.en then { c with count := c.count + 1 } else c }
  if writes then
    let at_ := c.addr + 128 * (k % 2 ^ c.log2)
    let d := if c.device then d.plainWrite at_ bs else d.hostPut at_ bs false
    d.set CSV.TELEM_SEQ.SEQ k
  else d

/-- TELEMETRY_SAMPLE (R612). -/
def execTelemetrySample (sample : Bytes) (s : State) : Host.Outcome State Fault Refusal := .next (s.onDev (·.telemSample sample))

/-! ## Flash (R611) -/

/-- When the conservator may write changed summaries. -/
def Dev.flashDue (d : Dev) : Option Nat :=
  if d.csv.dirtyPerm then some d.now else if d.csv.dirty then some (d.csv.flashAt + 60000000000) else none

/-- FLASH_SUMMARY_WRITE's effect: the live summaries into flash. The wear a write leaves is free, below the 90 %
at which blocks retire (log 2); reaching 80 % posts 0x070C. -/
def Dev.flashWriteSums (d : Dev) : Dev :=
  let (x, d) := d.draw
  let old := d.get CSV.FLASH_WEAR.PERCENT
  let wear := x % 90
  let d := { d with csv.flashSums := d.csv.sums.map (fun (e : Nat × UnitSum) => (e.1, (d.get (suspLevel e.1), e.2))),
                    csv.dirty := false, csv.dirtyPerm := false, csv.flashAt := d.now }
  (d.set CSV.FLASH_WEAR.PERCENT wear).when (decide (old < 80 ∧ 80 ≤ wear)) (·.eventOpen 0x070C)

/-- FLASH_SUMMARY_WRITE (R611). -/
def execFlashSummaryWrite (s : State) : Host.Outcome State Fault Refusal := .next (s.atTime s.dev.flashDue (·.flashWriteSums))

/-! ## Retrieval (R615) -/

/-- Copy strings to host memory one after another. -/
def Dev.toHost (d : Dev) (addr : Nat) (bs : Bytes) : Dev := d.hostPut addr bs false

/-- ACQUIT: a unit in PENDING or PERMANENT returns to CLEAR; one that was PERMANENT is not yet in service. -/
def Dev.acquit (d : Dev) (u : Nat) : Dev × Answer :=
  let lvl := d.get (suspLevel u)
  if !allUnits.contains u then (d, .now (errR 0x0107))
  else if lvl < 2 then (d, .now (okR lvl))
  else
    let d := { d with
      csv.reviews := d.csv.reviews.filter (· != u),
      csv.acquitted := if lvl = 3 ∧ !d.csv.acquitted.contains u then d.csv.acquitted ++ [u] else d.csv.acquitted }
    (d.suspect u 0, .now (okR lvl))

/-- FAULT_HISTORY_READ's effect. -/
def Dev.historyRead (d : Dev) (ops : Bytes) : Dev × Answer :=
  let u := opnd ops 18 2
  let first := opnd ops 20 8
  let n := opnd ops 28 4
  let host := opnd ops 32 8
  match opnd ops 16 1 with
  | 0 =>
    let rs := (d.csv.history.filter (fun r => decide (first ≤ r.id))).take n
    (d.toHost host (rs.flatMap d.recordOf), .now (okR rs.length))
  | 1 =>
    if u ≠ 0xFFFF ∧ !allUnits.contains u then (d, .now (errR 0x0107))
    else
      let us := (if u = 0xFFFF then allUnits else [u]).take n
      (d.toHost host (us.flatMap d.summaryEntry), .now (okR us.length))
  | 2 => d.acquit u
  | 3 =>
    let fs := d.csv.fatals.take n
    (d.toHost host (fs.flatMap (fun b => slice b 0 4096)), .now (okR fs.length))
  | _ => (d, .now (errR 0x0107))

/-- FAULT_HISTORY_READ (R615). -/
def execFaultHistoryRead (o : Origin) (ops : Bytes) (s : State) : Host.Outcome State Fault Refusal :=
  .next (s.onDev (·.command 0x0903 o ops (·.historyRead ops)))

/-- Bytes of the archive region: 256 MiB (R319). -/
def archiveBytes : Nat := 0x10000000

/-- DUMP_READ's effect: the archive is read as any memory (R342, R343). -/
def Dev.dumpRead (d : Dev) (ops : Bytes) : Dev × Answer :=
  let off := opnd ops 20 8
  let n := opnd ops 28 4
  match opnd ops 16 1 with
  | 0 =>
    if 0x4000000 < n then (d, .now (errR 0x0107))
    else if !d.flag CSV.DUMP_STATE.VALID || decide (archiveBytes < off + n) then (d, .now (errR 0x070D))
    else match d.readSegs [(archiveBase + off, n)] with
      | (d, some k) => (d, .now (errA 0x0216 (archiveBase + off + k)))
      | (d, none) =>
        let h := opnd ops 32 8
        ({ d with host := memCopy d.hbm.mem (archiveBase + off) d.host h n }.emit (.hostWrite [(h, n)] false false), .now (okR n))
  | 1 => (d.set CSV.DUMP_STATE.VALID 0, .now (okR 0))
  | _ => (d, .now (errR 0x0107))

/-- DUMP_READ (R615). -/
def execDumpRead (o : Origin) (ops : Bytes) (s : State) : Host.Outcome State Fault Refusal :=
  .next (s.onDev (·.command 0x0905 o ops (·.dumpRead ops)))

end Sys2Proof.Machine
end

