-- ==== Sys2Proof/Machine/Debug.lean ====
section
/-! DEFINITION. Debug access (R617 to R621): unlocking, halting and resuming control cores, and reads without
side effect. The debug port's writes stand in Machine/Registers.lean. -/

namespace Sys2Proof.Machine

/-- The debug level (R617). -/
def Dev.dbgLevel (d : Dev) : Nat := d.get CSV.DBG_STATE.LEVEL

/-! ## DEBUG_UNLOCK (R618) -/

/-- The level a token asks for when every check but the signature's holds, else 0. -/
def tokenLevel (nonce t : Bytes) : Nat :=
  let lvl := le t 6 1
  if le t 0 4 = 0x4B4F5444 ∧ le t 4 2 = 1 ∧ 1 ≤ lvl ∧ lvl ≤ 3 ∧ le t 7 1 = 0 ∧ le t 8 8 = Config.serial.toNat ∧ slice t 16 32 = nonce
      ∧ zeroBytes t 145 15 = true ∧ sha384 (slice t 48 97) = Config.debugRoot then lvl else 0

/-- RESPOND: the token is read and its signature verified; the challenge is used up. -/
def Dev.respond (d : Dev) (o : Origin) (ops : Bytes) : Dev × Answer :=
  match d.csv.challenge with
  | none => (d, .now (errR 0x0902))
  | some n => match d.fetch (hifAcc 1 (d.attestDom o)) (opnd ops 24 8) 256 with
    | (d, .error (st, a)) => (d, .now (errA st a))
    | (d, .ok t) => ({ d with csv.challenge := none }.pkAdd
        ⟨.verify, [], slice t 48 97, sha384 (slice t 0 160), slice t 160 96, .unlock o ops (tokenLevel n t)⟩, .unit [(opnd ops 24 8, 256)])

/-- DEBUG_UNLOCK's effect. -/
def Dev.debugUnlock (d : Dev) (o : Origin) (ops : Bytes) : Dev × Answer :=
  match opnd ops 16 1 with
  | 0 =>
    if !d.entropyOk then (d, .now (errR 0x0613))
    else
      let (n, d) := d.drawBytes 32
      ({ d with csv.challenge := some n }, .now (okU n))
  | 1 => d.respond o ops
  | 2 => (d.set CSV.DBG_STATE.LEVEL 0, .now (okU []))
  | _ => (d, .now (errR 0x0107))

/-- DEBUG_UNLOCK (R618). -/
def execDebugUnlock (o : Origin) (ops : Bytes) (s : State) : Host.Outcome State Fault Refusal :=
  .next (s.onDev (·.command 0x0A01 o ops (·.debugUnlock o ops)))

/-! ## CORE_HALT and CORE_RESUME (R620, R621) -/

def reqDflt : Nat → Option Nat := fun _ => none
def Dev.haltAsked (d : Dev) (c : Nat) : Option Nat := smapGet reqDflt d.csv.haltReq c

/-- Set or clear bits of a mask field. -/
def Dev.maskOn (d : Dev) (f : FRef) (m : Nat) : Dev := d.set f (d.get f ||| m)
def Dev.maskOff (d : Dev) (f : FRef) (m : Nat) : Dev := d.set f (d.get f - (d.get f &&& m))

/-- CORE_HALT's effect: every core of the mask not halted yet has a halt pending. -/
def Dev.coreHalt (d : Dev) (ops : Bytes) : Dev × Answer :=
  let mask := opnd ops 16 1
  let todo := (maskBits mask 4).filter (fun c => !(d.get CSV.DBG_STATE.HALTED).testBit c)
  if d.dbgLevel < 2 then (d, .now (errR 0x0901))
  else if 16 ≤ mask then (d, .now (errR 0x0107))
  else if todo.isEmpty then (d, .now (okU []))
  else
    let fresh := todo.filter (fun c => (d.haltAsked c).isNone)
    let d := { d with csv.haltReq := smapSetAll reqDflt d.csv.haltReq (fresh.map (fun c => (c, some d.now))) }
    (d.maskOn CSV.DBG_STATE.PENDING (todo.foldl (fun m c => m + 2 ^ c) 0), .unit [])

/-- CORE_HALT (R620). -/
def execCoreHalt (o : Origin) (ops : Bytes) (s : State) : Host.Outcome State Fault Refusal :=
  .next (s.onDev (·.command 0x0A02 o ops (·.coreHalt ops)))

/-- The locks that halted cores of a mask hold. -/
def Dev.locksOf (d : Dev) (mask : Nat) : Nat := (maskBits mask 4).foldl (fun m c => m ||| smapGet zeroDflt d.csv.locks c) 0

/-- A CORE_HALT whose cores have all halted completes: with 0x0903 when one of them was forced. -/
def Dev.haltsDone (d : Dev) : Dev :=
  let h := d.get CSV.DBG_STATE.HALTED
  let done (f : InFlight) : Bool := le f.ops 0 1 &&& h == le f.ops 0 1
  d.each (d.cmd.inflight.filter (fun f => f.opcode == 0x0A02 && f.gate == .unit && done f)) (fun d f =>
    let m := le f.ops 0 1
    d.unitDone 0x0A02 (fun g => g.org == f.org && g.ops == f.ops)
      (if d.get CSV.DBG_STATE.FORCED &&& m ≠ 0 then errA 0x0903 (d.locksOf m) else okU []))

/-- Core c is halted. -/
def Dev.coreStops (d : Dev) (c : Nat) : Dev :=
  let d := { d with csv.haltReq := smapSet reqDflt d.csv.haltReq c none }
  ((d.maskOff CSV.DBG_STATE.PENDING (2 ^ c)).maskOn CSV.DBG_STATE.HALTED (2 ^ c)).haltsDone

/-- CORE_HALT_GRANT (R620): the core stands outside a locked sequence. -/
def execCoreHaltGrant (c : Nat) (s : State) : Host.Outcome State Fault Refusal :=
  .next (s.onDev (fun d => if (d.haltAsked c).isSome then d.coreStops c else d))

/-- 65,536 CCLK cycles in ns, rounded up. -/
def forceNs : Nat := 56174

/-- A halt is forced: the locks the core holds are free (log 2). -/
def Dev.forceHalt (d : Dev) (c : Nat) : Dev :=
  let (x, d) := d.draw
  let d := { d with csv.locks := smapSet zeroDflt d.csv.locks c (x % 2 ^ 32) }
  ((d.set CSV.DBG_LOCKS.MASK (d.locksOf 15)).maskOn CSV.DBG_STATE.FORCED (2 ^ c)).coreStops c

/-- HALT_FORCED (R620): 65,536 CCLK cycles after the request. -/
def execHaltForced (c : Nat) (s : State) : Host.Outcome State Fault Refusal :=
  .next (s.atTime ((s.dev.haltAsked c).map (· + forceNs)) (·.forceHalt c))

/-- CORE_RESUME's effect: the cores run again and every watchdog starts a full period. -/
def Dev.coreResume (d : Dev) (ops : Bytes) : Dev × Answer :=
  let mask := opnd ops 16 1
  if d.dbgLevel < 2 then (d, .now (errR 0x0901))
  else if 16 ≤ mask then (d, .now (errR 0x0107))
  else if d.get CSV.DBG_STATE.HALTED &&& mask ≠ mask then (d, .now (errR 0x0904))
  else
    let d := (d.maskOff CSV.DBG_STATE.HALTED mask).maskOff CSV.DBG_STATE.FORCED mask
    let d := { d with csv.locks := smapSetAll zeroDflt d.csv.locks ((maskBits mask 4).map (fun c => (c, 0))),
                      cmd.petAt := smapSetAll zeroDflt d.cmd.petAt ((List.range 4).map (fun c => (c, d.now))) }
    (d.set CSV.DBG_LOCKS.MASK (d.locksOf 15), .now (okU []))

/-- CORE_RESUME (R620). -/
def execCoreResume (o : Origin) (ops : Bytes) (s : State) : Host.Outcome State Fault Refusal :=
  .next (s.onDev (·.command 0x0A03 o ops (·.coreResume ops)))

/-! ## Reads (R13, R619) -/

/-- Consecutive registers read without side effect. -/
def Dev.peekRegs (d : Dev) (off n : Nat) : Dev × Bytes :=
  (List.range n).foldl (fun (acc : Dev × Bytes) i =>
    let (d, v) := acc.1.regPeek (off + 4 * i)
    (d, acc.2 ++ leBytes 4 v.toNat)) (d, [])

/-- REG_READ's effect. -/
def Dev.regReadCmd (d : Dev) (ops : Bytes) : Dev × Answer :=
  let off := opnd ops 16 4
  let n := opnd ops 20 1
  if d.dbgLevel < 1 then (d, .now (errR 0x0901))
  else if n < 1 ∨ 8 < n ∨ off % 4 ≠ 0 ∨ 0x4000000 < off + 4 * n then (d, .now (errR 0x0107))
  else
    let (d, bs) := d.peekRegs off n
    (d, .now (okI (le bs 0 4) bs))

/-- REG_READ (R619). -/
def execRegRead (o : Origin) (ops : Bytes) (s : State) : Host.Outcome State Fault Refusal :=
  .next (s.onDev (·.command 0x0A04 o ops (·.regReadCmd ops)))

/-- Is the debug access port selected (R646)? -/
def Dev.dbgSelected (d : Dev) : Bool := d.hif.jtag.ir == 0x10

/-- DEBUG_PORT_READ (R619): at level OBSERVE and above. -/
def execDebugPortRead (off : Nat) (s : State) : Host.Outcome State Fault Refusal :=
  .next (s.onDev (fun d =>
    if !d.dbgSelected then d
    else if d.dbgLevel < 1 then d.emit (.status 0x0901)
    else
      let (d, v) := d.regPeek off
      d.emit (.reg v)))

end Sys2Proof.Machine
end

