-- ==== Sys2Proof/Machine/FarPath.lean ====
section
/-! DEFINITION. From arrival on a far port to HBM (R485 to R493): the arrival checks, the opening of a frame by
the cipher engine, what an authenticated frame of each kind does, and the drain of fragments. -/

namespace Sys2Proof.Machine

/-! ## Reading packets -/

/-- A TXP packet: over IPv4, CE mark, source, UDP payload. -/
structure TxpIn where
  v4 : Bool
  ce : Bool
  src : Nat
  pay : Bytes
  deriving DecidableEq, Repr

/-- An IPv4 UDP packet for an address whose header and UDP checksums agree. -/
def readUdp4 (f : Bytes) (own port : Nat) : Option TxpIn :=
  let ip := f.drop 14
  let dg := (ip.drop 20).take (be ip 2 2 - 20)
  let n := be dg 4 2
  if be f 12 2 = 0x0800 ∧ be ip 0 1 = 0x45 ∧ be ip 9 1 = 17 ∧ onesSum (ip.take 20) 0 = 65535 ∧ be ip 16 4 = own ∧ 8 ≤ n ∧ dg.length = n
      ∧ be dg 2 2 = port ∧ onesSum (slice ip 12 8 ++ [0, 17] ++ beBytes 2 n ++ dg) 0 = 65535 then
    some ⟨true, be ip 1 1 % 4 == 3, be ip 12 4, dg.drop 8⟩
  else none

/-- Is a frame neither an IPv6 nor an IPv4 packet that carries UDP whole (R476)? An IP fragment is none. -/
def notUdp (f : Bytes) : Bool :=
  let ip := f.drop 14
  if be f 12 2 = 0x86DD then be ip 6 1 != 17
  else if be f 12 2 = 0x0800 then be ip 9 1 != 17 || be ip 6 2 % 2 ^ 14 != 0
  else true

/-- Read a TXP packet for a far port. -/
def Dev.readTxp (d : Dev) (q : Nat) (f : Bytes) : Option TxpIn :=
  let port := d.get WXU.FAR_CTL.UDP_PORT
  match readUdp6 f with
  | some u => if u.dport = port ∧ u.dst = d.farIp6 q then some ⟨false, u.ce, u.src, u.pay⟩ else none
  | none => if d.flag (WXU.FAR_STATE.IPV4_EN q) then readUdp4 f (d.get (WXU.FAR_IP4.ADDR q)) port else none

/-- VER, KIND and the lengths of R481 and R524. -/
def txpWell (b : Bytes) : Bool :=
  let n := hLen b
  let q := 2 ^ hFrag b
  let body (tag : Nat) : Bool := b.length == 48 + n + tag
  be b 0 1 / 16 == 1 && (match hKind b with
    | 1 | 2 => body 16 && decide (10 ≤ hFrag b ∧ hFrag b ≤ 13)
        && (if bit (hFlags b) 1 then decide (1 ≤ n ∧ n ≤ q) && hFragIx b * q + n == hStream b else n == q)
    | 3 | 5 | 6 | 7 | 9 => body 16 && n == 16
    | 4 => body 16 && n % 8 == 0 && decide (16 ≤ n ∧ n ≤ 264)
    | 8 => body 16 && n == 8
    | 10 => body 0 && (if be b 48 1 = 1 then n == 424 else be b 48 1 == 2 && n == 168)
    | _ => false)

/-! ## Arrival (R485, R523) -/

/-- May a TX_SEQ pass, given the highest authenticated and those authenticated within 4,096 below it? -/
def seqFresh (hi : Nat) (seen : List Nat) (x : Nat) : Bool := decide (hi < x) || (decide (hi ≤ x + 4096) && !seen.contains x)

/-- Check 4 of R485: the window of the phase that the frame names; a next phase has none yet. -/
def Dev.replayOk (d : Dev) (slot : Nat) (p : PSlot) (h : Bytes) : Bool :=
  if hPhase h = d.get (WXU.SLOT_STATE.KEY_PHASE slot) then seqFresh p.seenHi p.seen (hSeq h)
  else match d.session slot with
    | some (_, s) => if s.prev.isSome then seqFresh p.prevHi p.prevSeen (hSeq h) else true
    | none => true

/-- Cells a frame takes (R486). -/
def hCells (h : Bytes) : Nat := if hIsData h then 2 ^ (hFrag h - 10) else 0

/-- Frames in the vestibule that wait for the cipher engine or are with it. -/
def Dev.held (d : Dev) : List VFrame :=
  ((d.cqueue 0).filterMap (fun r => match r with | .openFrame f _ _ => some f | .sealFrame .. | .core .. => none))
    ++ d.sec.pairs.filterMap (fun e => match e.2 with | some (.openFrame f _ _) => some f | _ => none)

/-- Release a frame's cells; they are scrubbed. -/
def Dev.freeCells (d : Dev) (h : Bytes) : Dev := d.set WXU.VEST_LEVEL.CELLS (d.get WXU.VEST_LEVEL.CELLS - hCells h)

/-- Has a DSEQ not been released? -/
def PSlot.dseqOpen (p : PSlot) (x : Nat) : Bool := !p.relAbove.contains x && psnDiff p.relCum x != 0 && decide (psnDiff p.relCum x < 2 ^ 31)

/-- NACK a data frame at once for a reason (R485, R487). -/
def Dev.nackFrame (d : Dev) (slot reason : Nat) (h : Bytes) : Dev :=
  match d.pslot slot with
  | some p => if hIsData h && p.dseqOpen (hDseq h) then d.txpNack slot reason [(hDseq h, 1)] else d
  | none => d

/-- HANDSHAKE frames (R523): a HELLO by address and cell, a CONFIRM by slot and generation. -/
def Dev.handshakeFrame (d : Dev) (x : TxpIn) (b : Bytes) : Dev :=
  let pay := b.drop 48
  if be pay 0 1 = 1 then
    match d.helloSlot x.v4 x.src (hCell b) with
    | some s => d.helloIn s pay
    | none => d.bump WXU.STALE_GEN.COUNT 1
  else
    let s := hRecv b
    match d.pslot s with
    | some p =>
      if s < 4096 ∧ d.slotState s = wsHANDSHAKE ∧ d.slotGen s = hRecvGen b ∧ !p.peerHello.isEmpty ∧ be p.peerHello 2 2 = hSend b
          ∧ be p.peerHello 4 1 = hSendGen b then d.confirmIn s pay
      else d.bump WXU.STALE_GEN.COUNT 1
    | none => d.bump WXU.STALE_GEN.COUNT 1

/-- Check 5: room in the vestibule, or a control store entry. -/
def Dev.vestRoom (d : Dev) (h : Bytes) : Bool :=
  if hIsData h then decide (d.get WXU.VEST_LEVEL.CELLS + hCells h ≤ 16384)
  else decide ((d.held.filter (fun f => !hIsData f.hdr)).length < 256)

/-- A TXP frame whose form is good: checks 3 to 5, then it waits for the cipher engine. -/
def Dev.txpArrive (d : Dev) (x : TxpIn) (b : Bytes) : Dev :=
  let s := hRecv b
  let h := b.take 48
  if hKind h = tkHANDSHAKE then d.handshakeFrame x b
  else match d.pslot s with
    | none => d.bump WXU.STALE_GEN.COUNT 1
    | some p =>
      if !(d.slotOpen s && d.slotGen s == hRecvGen h && d.get (WXU.SLOT_PEER.PEER_SLOT s) == hSend h
          && d.get (WXU.SLOT_PEER.PEER_GEN s) == hSendGen h) then d.bump WXU.STALE_GEN.COUNT 1
      else if !d.replayOk s p h then d.bump WXU.REPLAYS.COUNT 1
      else if !d.vestRoom h then
        let d := d.bump WXU.VEST_DROPS.COUNT 1
        if hIsData h then { d with wxu.fullDrop := true, wxu.calmSince := d.now }.nackFrame s 3 h else d
      else
        let level := d.get WXU.VEST_LEVEL.CELLS + hCells h
        let d := (d.set WXU.VEST_LEVEL.CELLS level).set WXU.VEST_PEAK.CELLS (max level (d.get WXU.VEST_PEAK.CELLS))
        let f : VFrame := ⟨s, h, slice b 48 (hLen h), (b.drop (48 + hLen h)).take 16, x.ce, d.now⟩
        d.setCqueue 0 (d.cqueue 0 ++ [.openFrame f (d.get (WXU.SLOT_KEY.KEY_SLOT s)) false])

/-- FAR_FRAME_ARRIVAL's effect. -/
def Dev.farArrival (d : Dev) (q : Nat) (f : Bytes) : Dev :=
  if !d.farUp q then d
  else
    let d := d.portRx (16 + q)
    if notUdp f then d.portDiscard (16 + q)
    else match d.readTxp q f with
      | none => d.bump WXU.MALFORMED.COUNT 1
      | some x =>
        let d := d.when x.ce (·.bump (WXU.FAR_ECN.COUNT q) 1)
        if txpWell x.pay then d.txpArrive x x.pay else d.bump WXU.MALFORMED.COUNT 1

/-- FAR_FRAME_ARRIVAL (R485). -/
def execFarFrameArrival (port : Nat) (bs : Bytes) (s : State) : Host.Outcome State Fault Refusal := .next (s.onDev (·.farArrival port bs))

/-! ## Opening (R487, R514, R518, R529) -/

/-- CIPHER_OPEN_REQUEST's effect: the oldest frame of the INBOUND queue goes onto a free pair. A key slot that
holds no session ends the request: the frame is discarded. -/
def Dev.openRequest (d : Dev) (q : Nat) : Dev :=
  match q, d.cqueue q, d.freePair none with
  | 0, .openFrame f k x :: rest, some pr =>
    let d := d.setCqueue 0 rest
    match d.useKey k with
    | (d, .ok (.session _)) => d.pairTake pr (.openFrame f k x)
    | (d, _) => ((d.freeCells f.hdr).when (!d.slotOpen f.slot) (·.bump WXU.STALE_GEN.COUNT 1)).keyRelease
  | _, _, _ => d

/-- CIPHER_OPEN_REQUEST (R514). -/
def execCipherOpenRequest (r : CipherArgs) (s : State) : Host.Outcome State Fault Refusal :=
  .next (s.onDev (fun d => if r.queue = 2 then d.coreRequest 2 r.req else d.openRequest r.queue))

/-- Open a frame under a key and salt: its text when the tag passes. -/
def openWith (key salt : Bytes) (f : VFrame) : Option Bytes :=
  let iv := salt ++ zeros 4 ++ beBytes 4 (hSeq f.hdr)
  if gcmTag key iv f.hdr f.text = f.tag then some (gcmCrypt key iv f.text) else none

/-- The phase a frame is tried under (R529 rule 2): 0 current, 1 previous, 2 next; and its text. -/
def Session.open_ (s : Session) (f : VFrame) : Nat × Option Bytes :=
  if hPhase f.hdr = s.phase % 2 then (0, openWith s.rxKey s.rxSalt f)
  else match s.prev with
    | some (k, z) => (1, openWith k z f)
    | none => (2, openWith s.nextRx.1 s.nextRx.2 f)

/-- A tag failed (R487, R532). -/
def Dev.openFail (d : Dev) (f : VFrame) : Dev :=
  let s := f.slot
  let d := ((d.bump SEC.TAG_FAILS.COUNT 1).bump WXU.AUTH_FAILS.COUNT 1).bump (WXU.SLOT_KEY.AUTH_FAILS s) 1
  let d := (d.freeCells f.hdr).nackFrame s 2 f.hdr
  match d.pslot s with
  | none => d
  | some p =>
    if d.get (WXU.SLOT_KEY.AUTH_FAILS s) ≠ d.get WXU.AUTH_FAIL_LIMIT.COUNT then d
    else if p.limitHit then d.event 0x060D s
    else ((d.onPslot s (fun p => { p with limitHit := true })).event 0x0513 s).rekey s

/-- Record an authenticated TX_SEQ. -/
def seqSeen (hi : Nat) (seen : List Nat) (x : Nat) : Nat × List Nat :=
  let h := max hi x
  (h, (x :: seen).filter (fun y => decide (h ≤ y + 4096)))

/-- A frame authenticated under a phase (R485, R529 rule 3): a next phase is moved to first. -/
def Dev.openPass (d : Dev) (s k which : Nat) (x : Session) (f : VFrame) : Dev :=
  let d := if which = 2 then d.movePhase s k x else d
  let d := d.onPslot s (fun p =>
    let p := { p with heardAt := d.now, silent := false, limitHit := false, authed := true, marks := p.marks + b2n f.ce }
    if which = 1 then
      let (h, l) := seqSeen p.prevHi p.prevSeen (hSeq f.hdr)
      { p with prevHi := h, prevSeen := l }
    else
      let (h, l) := seqSeen p.seenHi p.seen (hSeq f.hdr)
      { p with seenHi := h, seen := l })
  if which = 1 then d
  else match d.session s with
    | some (k, y) =>
      if y.authed then d
      else (((d.setSession k { y with authed := true }).when (decide (1 ≤ y.phase)) (·.bump SEC.REKEYS.COUNT 1)).rekeyDone s).tryRekey s
    | none => d

/-! ## Authenticated control frames (R490 to R496, R484) -/

/-- End the LOAN_COPY_SEND of a slot whose loan fragments are all acknowledged (R469). -/
def Dev.loanSent (d : Dev) (slot : Nat) : Dev :=
  match d.pslot slot, d.rnd.loansOut.find? (fun l => l.slot == slot) with
  | some p, some l =>
    if p.kept.any (·.loan) || p.streams.any (fun s => s.loan && !s.todo.isEmpty) then d
    else
      let d := { d with rnd.loansOut := d.rnd.loansOut.erase l }
      (d.onPslot slot (fun p => { p with streams := p.streams.filter (fun s => !s.loan) })).unitDone 0x0506
        (fun f => f.org == l.org && f.ops == l.ops) (okU [])
  | _, _ => d

/-- Take a round-trip sample, and recompute the windows when an active slot's sRTT has moved by a quarter
(R497). -/
def Dev.rttTake (d : Dev) (slot : Nat) (smp : Int) : Dev :=
  let d := d.rttSample slot smp
  match d.pslot slot with
  | some p => if d.slotActive slot && decide (4 * ((p.srtt : Int) - p.srttAt).natAbs > p.srttAt) then d.updateActive true else d
  | none => d

/-- TXP_ACK. -/
def Dev.ackFrame (d : Dev) (slot : Nat) (b : Bytes) (rx : Nat) : Dev :=
  match d.pslot slot with
  | none => d
  | some p =>
    let cum := be b 0 4
    let sack := be b 4 8
    let marks := min 32 (be b 12 2)
    let hit (k : SentFrag) : Bool :=
      let up := psnDiff cum k.dseq
      decide (up = 0 ∨ 2 ^ 31 ≤ up) || (decide (up ≤ 64) && sack.testBit (up - 1))
    let acked := p.kept.filter hit
    let d := d.onPslot slot (fun p => { p with kept := p.kept.filter (fun k => !hit k) })
    let newest := acked.foldl (fun (m : Option Nat) k => if k.first then some (max (m.getD 0) k.sentAt) else m) none
    let d := match newest with | some t => d.rttTake slot ((rx : Int) - t) | none => d
    let d := if marks = 0 then d else match d.pslot slot with
      | some p => d.setPace slot (d.rateNow slot p * (64 - marks) / 64)
      | none => d
    (((d.syncOut slot).updateActive false).wantCheck slot false).loanSent slot

/-- One run of a NACK. -/
def Dev.nackRun (d : Dev) (slot first n reason : Nat) : Dev :=
  match d.pslot slot with
  | none => d
  | some p =>
    let ks := p.kept.filter (fun k => decide (psnDiff first k.dseq < n))
    d.each ks (fun d k => d.againFrag slot k (fun x =>
      if reason = 3 then { x with due := some (d.now + d.get WXU.RTO_MIN.MICROSECONDS * 1000), out := false }
      else { x with again := true, out := false }))

/-- TXP_NACK. -/
def Dev.nackIn (d : Dev) (slot : Nat) (b : Bytes) : Dev :=
  if b.length ≠ 8 + 8 * be b 0 1 then d.bump WXU.MALFORMED.COUNT 1
  else
    let runs := (List.range (be b 0 1)).map (fun i => (be b (8 * i + 4) 4, be b (8 * i + 8) 2, be b (8 * i + 10) 1))
    let d := d.each runs (fun d (a, n, r) => if 1 ≤ r ∧ r ≤ 3 then d.nackRun slot a n r else d)
    match d.pslot slot with
    | some p =>
      let d := if runs.any (fun r => r.2.2 == 1) && decide (p.gapAt + p.srtt ≤ d.now) then
          (d.setPace slot (d.rateNow slot p * 7 / 10)).onPslot slot (fun p => { p with gapAt := d.now })
        else d
      d.updateActive false
    | none => d

/-- TXP_CREDIT. -/
def Dev.creditFrame (d : Dev) (slot : Nat) (b : Bytes) : Dev :=
  match d.pslot slot with
  | some p =>
    if be b 0 4 ≤ p.peerCreditSeq then d
    else (d.set (WXU.SLOT_PEER_WINDOW.BYTES slot) (min (2 ^ 28 - 1) (be b 4 4))).onPslot slot
      (fun p => { p with peerCreditSeq := be b 0 4, accLimit := be b 8 4 })
  | none => d

/-- TXP_WANT. -/
def Dev.wantFrame (d : Dev) (slot : Nat) (b : Bytes) : Dev :=
  let n := be b 0 8
  (d.onPslot slot (fun p => { p with backlog := n, wantedAt := if n = 0 then none else some (p.wantedAt.getD d.now) })).updateActive false

/-- TXP_GONE (R493). -/
def Dev.goneFrame (d : Dev) (slot : Nat) (b : Bytes) : Dev :=
  match d.rnd.cfg with
  | none => d
  | some c =>
    let hit (t : PStream) : Bool := t.acc == be b 0 4 && (c.partner t).2 == slot && (match c.shards[t.shard]? with | some s => s.id == be b 4 4 | none => false)
    (d.closeWindows hit).retireAccs

/-- An authenticated control frame. -/
def Dev.control (d : Dev) (f : VFrame) (b : Bytes) : Dev :=
  let s := f.slot
  match hKind f.hdr with
  | 3 => d.ackFrame s b f.rx
  | 4 => d.nackIn s b
  | 5 => d.creditFrame s b
  | 6 => d.wantFrame s b
  | 7 => d.goneFrame s b
  | 8 => d.txpCtl s tkREPLY (slice b 0 8 ++ beBytes 8 (d.now - f.rx))
  | 9 => d.rttTake s ((f.rx : Int) - (be b 0 8 : Nat) - (be b 8 8 : Nat))
  | _ => d

/-! ## Authenticated fragments (R488) -/

/-- A shard that lists a slot among its partners: list index, shard, partner index. -/
def RoundCfg.fragShard (c : RoundCfg) (slot id : Nat) : Option (Nat × Shard × Nat) :=
  match c.shards.findIdx? (fun s => s.id == id) with
  | none => none
  | some i => match c.shards[i]? with
    | none => none
    | some sh => (sh.partners.findIdx? (fun p => p.2 == slot)).map (fun p => (i, sh, p))

/-- Is the window of a source accession open for a partner stream (R455)? One that this device has not sealed
yet is. -/
def Dev.windowOpen (d : Dev) (i p a : Nat) : Bool :=
  match d.rnd.streams.find? (fun t => t.named i p a) with
  | some t => t.isOpen
  | none => match d.rnd.lastSealed with | some l => decide (l < a) | none => true

/-- The byte ranges received of the stream a fragment names. -/
def Dev.fragGot (d : Dev) (i p : Nat) (h : Bytes) : List (Nat × Nat) :=
  if hKind h = tkLOAN then match d.rnd.loansIn.find? (fun l => l.shard == i && l.next == hAcc h) with | some l => l.got | none => []
  else match d.rnd.streams.find? (fun t => t.named i p (hAcc h)) with | some t => t.got | none => []

/-- Does another fragment of the same bytes wait for its drain? -/
def Dev.draining (d : Dev) (slot : Nat) (h : Bytes) : Bool :=
  d.wxu.drains.any (fun x => x.slot == slot && hKind x.hdr == hKind h && hAcc x.hdr == hAcc h && hShard x.hdr == hShard h && hFragIx x.hdr == hFragIx h)

/-- The check of R488 a fragment fails, by the counter that counts it. -/
def Dev.fragBad (d : Dev) (f : VFrame) : Option FRef :=
  let h := f.hdr
  let s := f.slot
  let at_ := hFragIx h * 2 ^ hFrag h
  if hEpoch h ≠ d.get WXU.EPOCH.CURRENT then some WXU.EPOCH_DISCARDS.COUNT
  else if !d.slotOpen s ∨ d.slotGen s ≠ hRecvGen h then some WXU.STALE_GEN.COUNT
  else match d.rnd.cfg, d.pslot s with
    | some c, some p => match c.fragShard s (hShard h) with
      | none => some WXU.MALFORMED.COUNT
      | some (i, sh, pi) =>
        let loan : Bool := hKind h == tkLOAN
        if hFrag h ≠ c.fragLog2 ∨ (if loan then alignUp (tessWorst sh.count true) 128 else c.bound sh) < at_ + hLen h then some WXU.MALFORMED.COUNT
        else if !loan ∧ p.limitSent < hAcc h then some WXU.MALFORMED.COUNT
        else if !loan ∧ !d.windowOpen i pi (hAcc h) then some WXU.LATE_DISCARDED.COUNT
        else if ivHas (d.fragGot i pi h) at_ (at_ + hLen h) ∨ d.draining s h then some WXU.DUP_FRAGMENTS.COUNT
        else none
    | _, _ => some WXU.MALFORMED.COUNT

/-- An authenticated fragment: discarded with its DSEQ released, or it waits for its drain. -/
def Dev.fragment (d : Dev) (f : VFrame) (b : Bytes) : Dev :=
  let s := f.slot
  let n := hDseq f.hdr
  let d := d.onPslot s (fun p => { p with lastUse := d.now, arrived := if p.dseqOpen n then p.arrived ++ [(n, d.now)] else p.arrived })
  let d := match d.fragBad f with
    | some c => ((d.bump c 1).freeCells f.hdr).release s n
    | none => { d with wxu.drains := d.wxu.drains ++ [(⟨s, f.hdr, b⟩ : Drain)] }
  d.gapNack s

/-- CIPHER_OPEN_COMPLETE's effect. -/
def Dev.openComplete (d : Dev) (pr : Nat) : Dev :=
  match d.cpair pr with
  | some (.openFrame f k x) =>
    if d.sec.upset.contains pr then
      match d.cipherFault pr (.openFrame f k x) with
      | (d, true) => (d.freeCells f.hdr).keyRelease
      | (d, false) => d
    else
      let d := (d.setCpair pr none).countBlocks false (ceilDiv f.text.length 16)
      let d := match d.key k with
        | some ⟨.session s, false⟩ => match s.open_ f with
          | (_, none) => d.openFail f
          | (w, some b) =>
            let live : Bool := d.slotOpen f.slot && d.get (WXU.SLOT_KEY.KEY_SLOT f.slot) == k
            let d := if live then d.openPass f.slot k w s f else d
            if hIsData f.hdr then d.fragment f b else if live then d.control f b else d
        | _ => d.freeCells f.hdr
      d.keyRelease
  | some (.core r x) => if le r 0 1 = 2 then d.coreComplete pr r x else d
  | _ => d

/-- CIPHER_OPEN_COMPLETE (R487). -/
def execCipherOpenComplete (pair : Nat) (s : State) : Host.Outcome State Fault Refusal := .next (s.onDev (fun d => (d.openComplete pair).kick))

/-! ## The drain (R488, R503) -/

/-- Count drained bytes by millisecond. -/
def Dev.countDrain (d : Dev) (n : Nat) : Dev :=
  let ms := d.now / 1000000
  if ms = d.wxu.drainMs then { d with wxu.drained := d.wxu.drained + n }
  else { d.set WXU.DRAIN_RATE.MB_PER_MS (if d.wxu.drainMs + 1 = ms then d.wxu.drained / 1000000 else 0) with wxu.drained := n, wxu.drainMs := ms }

/-- Check a loan copy of which every byte has come (R448, R449, R470). -/
def Dev.loanCheck (d : Dev) (c : RoundCfg) (i : Nat) (sh : Shard) : Dev :=
  match d.rnd.loansIn.find? (fun l => l.shard == i) with
  | none => d
  | some l => match l.bytes with
    | none => d
    | some n =>
      if l.done ∨ !ivHas l.got 0 n then d
      else match d.fetch (wxuAcc 1 d.roundDom) (c.loanAddr (d.roundSize c) i) n with
        | (d, .error _) => d
        | (d, .ok b) =>
          let rd : Rd := fun o k => slice b o k
          let good := indexOk 1 (alignUp (tessWorst sh.count true) 128) sh n rd
            && (match tessRead rd 1 n 0 (tessBlockCount sh.count) with | .ok _ => true | .error _ => false)
          if good then { d with rnd.loansIn := d.rnd.loansIn.map (fun x => if x.shard = i then { x with done := true } else x) }
          else (d.bump WXU.CONTRIB_REJECTS.COUNT 1).eventOpen 0x050A

/-- A fragment's bytes have been written: its stream counts them. -/
def Dev.fragTake (d : Dev) (c : RoundCfg) (x : Drain) (i p : Nat) (sh : Shard) : Dev :=
  let h := x.hdr
  let lo := hFragIx h * 2 ^ hFrag h
  let hi := lo + hLen h
  let a := hAcc h
  if hKind h = tkLOAN then
    let old := match d.rnd.loansIn.find? (fun l => l.shard == i && l.next == a) with | some l => l | none => ⟨i, [], none, a, false⟩
    let l : LoanIn := { old with got := ivAdd old.got lo hi, bytes := some (old.bytes.getD (hStream h)) }
    (({ d with rnd.loansIn := d.rnd.loansIn.filter (fun y => y.shard != i) ++ [l] } : Dev).loanCheck c i sh).issueLoans
  else
    let me (t : PStream) : Bool := t.named i p a
    let d := if d.rnd.streams.any me then d else { d with rnd.streams := d.rnd.streams ++ [PStream.fresh i p a] }
    let d := d.onStreams me (fun t => { t with got := ivAdd t.got lo hi, bytes := some (t.bytes.getD (hStream h)) })
    match d.rnd.streams.find? me with
    | some t => if t.isOpen then (d.examine c t).decideDue else d
    | none => d

/-- FRAGMENT_DRAINED's effect: the drain serves fragments in order (R489), so only the first can be next. -/
def Dev.drainedAt (d : Dev) (k : Nat) : Dev :=
  match (if k = 0 then d.wxu.drains.head? else none) with
  | none => d
  | some x =>
    let h := x.hdr
    let d := { d with wxu.drains := d.wxu.drains.drop 1 }.freeCells h
    let bad (d : Dev) : Dev := (d.bump WXU.MALFORMED.COUNT 1).release x.slot (hDseq h)
    match d.rnd.cfg with
    | none => bad d
    | some c => match c.fragShard x.slot (hShard h) with
      | none => bad d
      | some (i, sh, p) =>
        let g := d.roundSize c
        let base := if hKind h = tkLOAN then c.loanAddr g i else c.inAddr g i p (hAcc h % 4)
        match d.deposit (wxuAcc 2 d.roundDom) (base + hFragIx h * 2 ^ hFrag h) x.text with
        | (d, some _) => bad d
        | (d, none) => (((d.countDrain x.text.length).release x.slot (hDseq h)).fragTake c x i p sh).kick

/-- FRAGMENT_DRAINED (R449). -/
def execFragmentDrained (k : Nat) (s : State) : Host.Outcome State Fault Refusal := .next (s.onDev (·.drainedAt k))

end Sys2Proof.Machine
end

