-- ==== Sys2Proof/Machine/Platform.lean ====
section
/-! DEFINITION. Resets (R630, R631, R656), the boot ROM and its images (R77, R533, R534, R632, R633), supplies
(R636, R637), the power and thermal clamps (R638 to R641), the I3C target (R643 to R645) and the JTAG port
(R646). -/

namespace Sys2Proof.Machine

/-! ## What survives a reset (R630) -/

/-- Registers that report fuses and flash, which every reset keeps. -/
def lastingRegs : List Nat := [SEC.FW_SVN.REG.off, SEC.FW_ROOT_REVOKED.REG.off, CSV.FLASH_WEAR.REG.off, HIF.RAIL_STATUS.REG.off]

/-- Registers that a warm reset keeps beside those: the last fatal cause (R81), the dump (R614) and the
lock-out of slot 0 (R537). -/
def warmRegs : List Nat := [CMD.FATAL_CAUSE.REG.off, CSV.DUMP_STATE.REG.off]

/-- The stored registers at some offsets. -/
def Dev.keepRegs (d : Dev) (offs : List Nat) : SMap Reg := d.regs.filter (fun e => offs.contains e.1)

/-- The suspicion of every unit as flash holds it (R601, R611), which the conservator reads after a reset. -/
def Dev.reloadSums (d : Dev) : Dev :=
  let fs : List (Nat × (Nat × UnitSum)) := d.csv.flashSums
  let pend : List Nat := (fs.filter (fun e => e.2.1 == 2)).map (·.1)
  let sums : SMap UnitSum := fs.map (fun e => (e.1, e.2.2))
  let d := { d with
    csv.sums := sums,
    csv.reviews := pend.filter reviewsAtOnce,
    csv.dueNow := (pend.filter (fun u => u / 4096 == 1 || u / 4096 == 2)).map (fun u => if u / 4096 = 1 then u % 4096 else u % 4096 / 8) }
  d.each fs (fun d e =>
    (d.set (suspLevel e.1) e.2.1).set (CSV.SUSPICION.TOTAL (e.1 / 4096) (e.1 % 4096)) (min 0xFFFF e.2.2.total))

/-- Every unit at its reset state, with what no reset touches: the board's side, flash and fuses. -/
def Dev.common (d : Dev) (keep : List Nat) : Dev :=
  { Dev.reset with
    code := d.code, regs := d.keepRegs keep, host := d.host, out := d.out, draws := d.draws,
    hif := { HifUnit.reset with perst := d.hif.perst, pwrgd := d.hif.pwrgd, flash := d.hif.flash, boot := d.hif.boot,
                                committed := d.hif.committed },
    csv := { CsvUnit.reset with recSeq := d.csv.recSeq, flashSums := d.csv.flashSums, fatals := d.csv.fatals, dumpSeq := d.csv.dumpSeq,
                                retiredTiles := d.csv.retiredTiles, acquitted := d.csv.acquitted, logMap := d.csv.logMap } }

/-- A cold reset: HBM, and with it the archive and the history log, is lost. -/
def Dev.coldReset (d : Dev) : Dev :=
  let d := d.common lastingRegs
  { d with hif.pwrgd := true }.reloadSums

/-- A warm reset with its cause: HBM keeps its contents and codewords, and with them the archive and the
curator's history log; the ports of VDD_AUX and THERMTRIP# keep their state. -/
def Dev.warmReset (d : Dev) (cause : Nat) : Dev :=
  let r := d.common (lastingRegs ++ warmRegs)
  let locked := d.get SEC.STATE.IDENTITY_LOCKED
  let r := { r with
    hbm := { HbmUnit.reset with mem := d.hbm.mem, cw := d.hbm.cw },
    hif.thermtrip := d.hif.thermtrip, hif.i3c := d.hif.i3c, hif.jtag := d.hif.jtag,
    csv.history := d.csv.history, csv.fring := d.csv.fring, sec.debugged := d.sec.debugged }
  ((r.set SEC.STATE.IDENTITY_LOCKED locked).set HIF.RESET_CAUSE.CAUSE cause).reloadSums

/-- Apply a reset: the time base counts from 0 (R572). -/
def State.onReset (s : State) (f : Dev → Dev) : State := { s with clock := ⟨0, 0⟩, dev := f s.dev }

/-- COLD_RESET (R630). -/
def execColdReset (s : State) : Host.Outcome State Fault Refusal := .next (s.onReset (·.coldReset))

/-- PERST_ASSERT (R630): a warm reset while PWRGD is high. -/
def execPerstAssert (s : State) : Host.Outcome State Fault Refusal :=
  let on (d : Dev) : Dev := { d with hif.perst := true }
  .next (if s.dev.hif.pwrgd && !s.dev.hif.perst then s.onReset (fun d => on (d.warmReset 1)) else s.onDev on)

/-- JTAG instructions that drive the pins (R646). -/
def pinInstr (ir : Nat) : Bool := ir == 0x00 || ir == 0x03 || ir == 0x04

/-- PERST_DEASSERT (R631): an instruction that drives the pins ends (R646). -/
def execPerstDeassert (s : State) : Host.Outcome State Fault Refusal :=
  .next (s.onDev (fun d =>
    let d := { d with hif.perst := false, hif.perstAt := d.now }
    if pinInstr d.hif.jtag.ir then { d with hif.jtag.ir := 0xFF, hif.jtag.pins := 0 } else d))

/-- RESET_CTL_WARM (R648): the host writes 1 to `HIF.RESET_CTL.WARM`. -/
def execResetCtlWarm (s : State) : Host.Outcome State Fault Refusal := .next (s.onReset (·.warmReset 2))

/-- FLR_FUNCTION1 (R630): function 1's table, pending bits and enables. -/
def execFlrFunction1 (s : State) : Host.Outcome State Fault Refusal :=
  .next (s.onDev (fun d => { d with hif.fn1 := [], hif.msixEn1 := false, hif.msixMask1 := false }))

/-- PWRGD_DEASSERT (R637). -/
def execPwrgdDeassert (s : State) : Host.Outcome State Fault Refusal := .next (s.onDev (fun d => { d with hif.pwrgd := false }))

/-- PLL_LOCK (R568). -/
def execPllLock (s : State) : Host.Outcome State Fault Refusal := .next (s.onDev (·.set TMU.STATE.PLL_LOCKED 1))

/-- REFCLK_LOST (R568): a fatal cause. -/
def execRefclkLost (s : State) : Host.Outcome State Fault Refusal :=
  .next (s.onDev (fun d => if d.flag TMU.STATE.PLL_LOCKED then (d.set TMU.STATE.PLL_LOCKED 0).raiseFatal 0x0810 else d))

/-- PCIE_LINK_TRAINED (R648): widths and speeds of R625. -/
def execPcieLinkTrained (width speed : Nat) (s : State) : Host.Outcome State Fault Refusal :=
  .next (s.onDev (fun d =>
    if [1, 2, 4, 8, 16].contains width ∧ 1 ≤ speed ∧ speed ≤ 6 then (d.set HIF.LINK.WIDTH width).set HIF.LINK.SPEED speed else d))

/-! ## Images (R77, R533, R534) -/

/-- Bytes of an image, by offset and count. -/
abbrev ImageRd := Nat → Nat → Bytes

/-- The largest image. -/
def imageMax : Nat := 25165824

/-- Check 1 of R534 on the header: its LENGTH. -/
def imageLen (rd : ImageRd) : Option Nat :=
  let h := rd 0 256
  let len := le h 12 4
  let sig := le h 20 4
  if le h 0 4 = 0x4E534F43 ∧ le h 4 2 = 1 ∧ len ≤ imageMax ∧ sig % 64 = 0 ∧ 256 ≤ sig ∧ len = sig + 512 ∧ zeroBytes h 24 232 = true then some len
  else none

/-- Check 1 of R534 on header and signature block: header, block and LENGTH. -/
def imageParts (rd : ImageRd) : Option (Bytes × Bytes × Nat) :=
  match imageLen rd with
  | none => none
  | some len =>
    let b := rd (len - 512) 512
    if le b 0 4 = 0x47534943 ∧ le b 4 2 = 1 ∧ le b 6 1 ≤ 3 ∧ le b 7 1 = 0 ∧ le b 12 4 ≤ 64 ∧ zeroBytes b 161 31 = true ∧ zeroBytes b 288 224 = true
    then some (rd 0 256, b, len) else none

/-- The checks of R534 in order: what the device keeps of an image it accepts, or the status. `n`: the length
given beside it, when one is. -/
def Dev.verifyImage (d : Dev) (rd : ImageRd) (n : Option Nat) : Except Nat ImageInfo :=
  match imageParts rd with
  | none => .error 0x060B
  | some (h, b, len) =>
    if n.isSome ∧ n ≠ some len then .error 0x060B
    else
      let pt := slice b 64 97
      if sha384 pt ≠ slice (Config.rootHash (le b 6 1)) 0 48 ∨ bit (d.get SEC.FW_ROOT_REVOKED.MASK) (le b 6 1) then .error 0x0610
      else if sha384 (rd 0 (len - 512)) ≠ slice b 16 48 then .error 0x060B
      else if verifyStatus pt (sha384 (slice b 0 192)) (slice b 192 96) ≠ 0 then .error 0x060B
      else if le b 8 4 < d.get SEC.FW_SVN.COUNT then .error 0x060C
      else .ok ⟨le h 8 4, le h 6 2, le h 16 4, le b 6 1, le b 8 4, le b 12 4, slice b 16 48⟩

/-! ## Starting an image (R78, R346, R535, R656) -/

/-- The empty catalogue the curator starts with after a reset (R656): an all-zero directory in the curator area,
translation on. -/
def Dev.freshCatalogue (d : Dev) : Dev :=
  let d := d.storeVia curatorArea 0x40000 (fun d => { d with hbm.mem := memZero d.hbm.mem curatorArea 0x40000 })
  let d := (d.set HMC.CAT_BASE_LO.ADDR (curatorArea / 65536)).set HMC.CAT_BASE_HI.ADDR (curatorArea / 2 ^ 32)
  { d.set HMC.CAT_CTL.ENABLE 1 with hbm.frames := [], hbm.limbo := [], hbm.leaves := [], hbm.caches := [] }

/-- The image reaches RUNNING: its version, key index and a full watchdog period. -/
def Dev.imageRuns (d : Dev) (im : ImageInfo) : Dev :=
  let d := { d with cmd.image := some im, cmd.staged := none, csv.stalled := [], cmd.petAt := smapSetAll zeroDflt [] ((List.range 4).map (fun c => (c, d.now))) }
  ((d.set CMD.CURATOR_VERSION.VERSION im.version).set SEC.FW_KEY_INDEX.INDEX im.keyIndex).set CMD.CURATOR_STATE.STATE curRUNNING

/-- Raise the SVN fuse to an image's FUSE_SVN (R535). -/
def Dev.raiseSvn (d : Dev) (im : ImageInfo) : Dev := d.set SEC.FW_SVN.COUNT (max (d.get SEC.FW_SVN.COUNT) (min 64 im.fuseSvn))

/-- The first image after a reset: an empty catalogue; one 0x0219 for each stack that failed training; units
that are PERMANENT or not yet back in service stay out of it (R346, R598, R615). -/
def Dev.firstImage (d : Dev) (im : ImageInfo) : Dev :=
  let failed := (fittedStacks d.code).filter (d.stackFailed ·)
  let d := (d.freshCatalogue.imageRuns im).each failed (fun d k => d.event 0x0219 k)
  d.each ((d.csv.flashSums.filter (fun e => e.2.1 == 3)).map (·.1) ++ d.csv.acquitted) (fun d u => d.outOfService u)

/-! ## The boot ROM (R632, R633) -/

/-- The base of an image slot in flash. -/
def slotBase (b : Bool) : Nat := if b then 0x2000000 else 0

/-- Where the boot ROM puts an image in the curator area (DESIGN CHOICE: R632 says the area only). -/
def imageArea : Nat := 0x10000000 + curatorArea

def Dev.flashRd (d : Dev) (b : Bool) : ImageRd := fun o n => memRead d.hif.flash (slotBase b + o) n

def BootRecord.tries (r : BootRecord) (b : Bool) : Nat := if b then r.triesB else r.triesA
def BootRecord.setTries (r : BootRecord) (b : Bool) (n : Nat) : BootRecord :=
  if b then { r with triesB := n } else { r with triesA := n }

/-- Train the fitted stacks: bit k of `trained` is 1 when stack k trains. -/
def Dev.trainStacks (d : Dev) (trained : Nat) : Dev :=
  d.each (fittedStacks d.code) (fun d k =>
    if trained.testBit k then d.set (HMC.CTL_STATE.READY k) 1
    else (d.set HMC.STACK_MAP.FAILED (d.get HMC.STACK_MAP.FAILED ||| 2 ^ k)).set (HMC.CTL_STATE.FAILED k) 1)

/-- Copy a slot's image into the curator area and verify it (R632): whether it may start, from LOADING. -/
def Dev.trySlot (d : Dev) (b : Bool) : Dev × Bool :=
  let n := (imageLen (d.flashRd b)).getD 256
  let d := d.storeVia imageArea n (fun d => { d with hbm.mem := memCopy d.hif.flash (slotBase b) d.hbm.mem imageArea n })
  match d.verifyImage (d.flashRd b) none with
  | .error st => (d.set HIF.BOOT_STATUS.FAIL_STATUS st, false)
  | .ok im => ({ d with cmd.staged := some im, hif.booting := some b }.set CMD.CURATOR_STATE.STATE curLOADING, true)

/-- The image of a slot that the boot ROM verified reaches RUNNING, and sets the slot's TRIES to 3 (R632). -/
def Dev.bootDone (d : Dev) (b : Bool) (im : ImageInfo) : Dev :=
  let d := ((d.firstImage im).set HIF.BOOT_STATUS.SLOT (b2n b)).set HIF.BOOT_STATUS.FROM_FLASH 1
  { d with hif.boot := d.hif.boot.setTries b 3, hif.booting := none }

/-- BOOT_ROM_START's effect: once after each reset, after PLL lock; and once more, in LOADING, the image it started
reaches RUNNING (log 41). -/
def Dev.bootRom (d : Dev) (trained : Nat) : Dev :=
  match d.hif.booting, d.cmd.staged with
  | some b, some im => if d.curator = curLOADING then d.bootDone b im else d
  | _, _ =>
  if d.curator ≠ curROM ∨ !d.flag TMU.STATE.PLL_LOCKED ∨ d.flag SEC.STATE.DIK_LOADED then d
  else
    let d := ((d.trainStacks trained).setKey 0 0 (some ⟨.identity, false⟩)).set SEC.STATE.DIK_LOADED 1
    if d.stackFailed 0 then d.set HIF.BOOT_STATUS.STACK0_FAILED 1
    else
      let r := d.hif.boot
      let b := if r.tries r.preferB ≠ 0 then r.preferB else !r.preferB
      let d := { d with hif.boot := r.setTries b (r.tries b - 1), hif.committed := none }
      match d.trySlot b with
      | (d, true) => d
      | (d, false) => (d.trySlot !b).1

/-- BOOT_ROM_START (R632). -/
def execBootRomStart (trained : Nat) (s : State) : Host.Outcome State Fault Refusal := .next (s.onDev (·.bootRom trained))

/-! ## Supplies (R636, R637) -/

/-- A rail of R636, in table order, enters or leaves its tolerance. -/
def Dev.railIs (d : Dev) (rail : Nat) (ok : Bool) : Dev :=
  if rail < 11 then d.set HIF.RAIL_STATUS.IN_RANGE (putBits (d.get HIF.RAIL_STATUS.IN_RANGE) rail rail (b2n ok)) else d

/-- RAIL_OUT_OF_TOLERANCE (R637). -/
def execRailOutOfTolerance (rail : Nat) (s : State) : Host.Outcome State Fault Refusal := .next (s.onDev (·.railIs rail false))
/-- RAIL_IN_TOLERANCE (R637). -/
def execRailInTolerance (rail : Nat) (s : State) : Host.Outcome State Fault Refusal := .next (s.onDev (·.railIs rail true))

/-! ## Clamps (R639 to R641) -/

/-- `TMU.TCLK_CLAMP`: of each wing the larger of the two clamps' requirements (R640). -/
def Dev.clampReport (d : Dev) : Dev :=
  d.each wings (fun d w => d.set (clampField w) (divCode (max d.hif.powerMin (d.thermMinOf w))))

/-- Intervals of 100 µs that a clamp must be calm for before it lowers a minimum: 10 ms. -/
def calmIntervals : Nat := 100

/-- POWER_CLAMP_EVAL's effect: a 100 µs sample and the 1 s average, in W. -/
def Dev.powerClamp (d : Dev) (sample average : Nat) : Dev :=
  let lim := d.powerLimit
  let past := decide (lim < average ∨ 12 * tdp d.code < 10 * sample)
  let calm := decide (100 * average ≤ 95 * lim ∧ 100 * sample ≤ 114 * tdp d.code)
  let old := d.hif.powerMin
  let n := if calm then d.hif.powerCalm + 1 else 0
  let d :=
    if past then { d with hif.powerMin := min 16 (old + 1), hif.powerCalm := 0 }
    else if n = calmIntervals then { d with hif.powerMin := max 8 (old - 1), hif.powerCalm := 0 }
    else { d with hif.powerCalm := n }
  let d := d.clampReport.when (past && old == 8) (·.msix1 2)
  d.when (wings.any d.powerHolds) (·.bump HIF.CLAMP_EVENTS.COUNT 1)

/-- POWER_CLAMP_EVAL (R639). -/
def execPowerClampEval (sample average : Nat) (s : State) : Host.Outcome State Fault Refusal :=
  .next (s.onDev (·.powerClamp sample average))

/-- The thermal clamp on one wing at a temperature in 0.01 °C: a raise is a step above the wing's minimum, and
a requirement lowered to the power clamp's minimum is none. -/
def Dev.thermWing (d : Dev) (w : Nat) (temp : Int) : Dev :=
  let lim : Int := (d.get HIF.THERM_CTL.CLAMP_C : Nat)
  let old := d.thermMinOf w
  let calm := smapGet zeroDflt d.hif.thermCalm w + 1
  let put (m c : Nat) : Dev :=
    { d with hif.thermMin := smapSet minDflt d.hif.thermMin w m, hif.thermCalm := smapSet zeroDflt d.hif.thermCalm w c }
  if 100 * lim < temp then put (min 16 (max d.hif.powerMin old + 1)) 0
  else if temp < 100 * (lim - 3) then
    if calm = calmIntervals then put (if old - 1 ≤ d.hif.powerMin then 8 else old - 1) 0 else put old calm
  else put old 0

/-- THERMAL_CLAMP_EVAL's effect: the wings' hottest junctions in 0.01 °C. The first wing held raises vector 1
and the in-band interrupt; an interval counts once, the power clamp's own evaluation counting those it
holds. -/
def Dev.thermalClamp (d : Dev) (temps : List Int) : Dev :=
  let before := wings.any d.thermHolds
  let d := ((temps.take 4).zipIdx.foldl (fun d (t, w) => d.thermWing w t) d).clampReport
  let holds := wings.any d.thermHolds
  let d := d.when (holds && !before) (fun d => (d.msix1 1).ibi 0x02)
  d.when (holds && !wings.any d.powerHolds) (·.bump HIF.CLAMP_EVENTS.COUNT 1)

/-- THERMAL_CLAMP_EVAL (R640). -/
def execThermalClampEval (temps : List Int) (s : State) : Host.Outcome State Fault Refusal := .next (s.onDev (·.thermalClamp temps))

/-- THERMAL_TRIP (R641): THERMTRIP# and a fatal cause. -/
def execThermalTrip (s : State) : Host.Outcome State Fault Refusal :=
  .next (s.onDev (fun d => { d with hif.thermtrip := true }.raiseFatal 0x0706))

/-- ALERT# (R645). -/
def Dev.alert (d : Dev) : Bool := d.curator == curFATAL || wings.any d.thermHolds

/-! ## I3C: common command codes (R643), answered whether or not PWRGD is high -/

def Dev.onI3c (d : Dev) (f : I3c → I3c) : Dev := { d with hif.i3c := f d.hif.i3c }

/-- ENTDAA (R643): a target without a dynamic address takes one. -/
def execEntdaa (a : Nat) (s : State) : Host.Outcome State Fault Refusal :=
  .next (s.onDev (·.onI3c (fun c => { c with dynAddr := c.dynAddr.or (some a) })))
/-- SETDASA (R643): the target at static address 0x4A takes a dynamic address. -/
def execSetdasa (a : Nat) (s : State) : Host.Outcome State Fault Refusal :=
  .next (s.onDev (·.onI3c (fun c => { c with dynAddr := c.dynAddr.or (some a) })))
/-- RSTDAA (R643). -/
def execRstdaa (s : State) : Host.Outcome State Fault Refusal := .next (s.onDev (·.onI3c (fun c => { c with dynAddr := none })))
/-- ENEC (R645): bit 0 enables in-band interrupts. -/
def execEnec (events : Nat) (s : State) : Host.Outcome State Fault Refusal :=
  .next (s.onDev (·.onI3c (fun c => { c with ibiEn := c.ibiEn || bit events 0 })))
/-- DISEC (R643). -/
def execDisec (events : Nat) (s : State) : Host.Outcome State Fault Refusal :=
  .next (s.onDev (·.onI3c (fun c => { c with ibiEn := c.ibiEn && !bit events 0 })))
/-- GETPID (R643). -/
def execGetpid (s : State) : Host.Outcome State Fault Refusal := .next (s.onDev (·.emit (.data (beBytes 6 Config.i3cPid.toNat))))
/-- GETBCR (R643). -/
def execGetbcr (s : State) : Host.Outcome State Fault Refusal := .next (s.onDev (·.emit (.data [Config.i3cBcr])))
/-- GETDCR (R643). -/
def execGetdcr (s : State) : Host.Outcome State Fault Refusal := .next (s.onDev (·.emit (.data [Config.i3cDcr])))
/-- GETSTATUS (R643): two bytes whose value no rule states (log 2). -/
def execGetstatus (s : State) : Host.Outcome State Fault Refusal :=
  .next (s.onDev (fun d => let (b, d) := d.drawBytes 2; d.emit (.data b)))
/-- SETMWL (R643): at most 260. -/
def execSetmwl (n : Nat) (s : State) : Host.Outcome State Fault Refusal := .next (s.onDev (·.onI3c (fun c => { c with mwl := min 260 n })))
/-- GETMWL (R643). -/
def execGetmwl (s : State) : Host.Outcome State Fault Refusal := .next (s.onDev (fun d => d.emit (.data (beBytes 2 d.hif.i3c.mwl))))
/-- SETMRL (R643): at most 260. -/
def execSetmrl (n : Nat) (s : State) : Host.Outcome State Fault Refusal := .next (s.onDev (·.onI3c (fun c => { c with mrl := min 260 n })))
/-- GETMRL (R643). -/
def execGetmrl (s : State) : Host.Outcome State Fault Refusal := .next (s.onDev (fun d => d.emit (.data (beBytes 2 d.hif.i3c.mrl))))
/-- RSTACT (R643). -/
def execRstact (action : Nat) (s : State) : Host.Outcome State Fault Refusal := .next (s.onDev (·.onI3c (fun c => { c with rstact := action })))

/-! ## I3C: the commands of private writes (R644), while PWRGD is high -/

/-- Serve a private command. -/
def State.onI3cCmd (s : State) (f : Dev → Dev) : State := s.onDev (fun d => d.when d.hif.pwrgd f)

/-- READ_TELEMETRY (R644): the latest sample, zeros before the first. -/
def execReadTelemetry (s : State) : Host.Outcome State Fault Refusal :=
  .next (s.onI3cCmd (fun d => d.emit (.data (slice d.csv.lastSample 0 128))))

/-- READ_STATE's 16 bytes. -/
def Dev.stateBytes (d : Dev) : Bytes :=
  leBytes 1 d.curator ++ leBytes 2 (d.get CMD.FATAL_CAUSE.STATUS) ++ leBytes 4 (assembly d.code) ++ leBytes 2 d.powerLimit
    ++ leBytes 1 (b2n (wings.any d.powerHolds) + 2 * b2n (wings.any d.thermHolds)) ++ zeros 6

/-- READ_STATE (R644). -/
def execReadState (s : State) : Host.Outcome State Fault Refusal := .next (s.onI3cCmd (fun d => d.emit (.data d.stateBytes)))

/-- SET_PWR_LIMIT (R638). -/
def execSetPwrLimit (bs : Bytes) (s : State) : Host.Outcome State Fault Refusal :=
  .next (s.onI3cCmd (·.set HIF.PWR_LIMIT_MGMT.WATTS (le bs 0 2)))

/-- READ_SUMMARY (R644): a block of a summary; one that does not exist reads as free bytes (log 2). -/
def execReadSummary (bs : Bytes) (s : State) : Host.Outcome State Fault Refusal :=
  .next (s.onI3cCmd (fun d =>
    match d.csv.fatals[le bs 0 1]?, decide (le bs 1 2 < 16) with
    | some f, true => d.emit (.data (slice f (256 * le bs 1 2) 256))
    | _, _ => let (b, d) := d.drawBytes 256; d.emit (.data b)))

/-- The slot FLASH_WRITE and FLASH_COMMIT work on: the one that did not boot, or, when neither did, the one
that is not PREFERRED. -/
def Dev.spareSlot (d : Dev) : Bool :=
  if d.flag HIF.BOOT_STATUS.FROM_FLASH then !d.flag HIF.BOOT_STATUS.SLOT else !d.hif.boot.preferB

/-- FLASH_WRITE's effect: 256 bytes; a commit of the slot is void. -/
def Dev.flashPut (d : Dev) (bs : Bytes) : Dev :=
  let off := le bs 0 4
  let b := d.spareSlot
  if off % 256 ≠ 0 ∨ 0x2000000 ≤ off then d
  else
    let d := { d with hif.flash := memWrite d.hif.flash (slotBase b + off) (slice bs 4 256) }
    if d.hif.committed = some b then { d with hif.committed := none, hif.boot := { d.hif.boot.setTries b 0 with preferB := !b } } else d

/-- FLASH_WRITE (R644). -/
def execFlashWrite (bs : Bytes) (s : State) : Host.Outcome State Fault Refusal := .next (s.onI3cCmd (·.flashPut bs))

/-- FLASH_COMMIT's effect: header and block format alone are checked. -/
def Dev.flashAccept (d : Dev) (bs : Bytes) : Dev :=
  let b := d.spareSlot
  match imageParts (d.flashRd b) with
  | some (_, _, len) =>
    if len = le bs 0 4 then
      { d with hif.committed := some b, hif.boot := { d.hif.boot.setTries b 3 with preferB := b } }.emit (.data [0])
    else d.emit (.data [1])
  | none => d.emit (.data [1])

/-- FLASH_COMMIT (R644). -/
def execFlashCommit (bs : Bytes) (s : State) : Host.Outcome State Fault Refusal := .next (s.onI3cCmd (·.flashAccept bs))

/-- WARM_RESET (R644). -/
def execWarmReset (bs : Bytes) (s : State) : Host.Outcome State Fault Refusal :=
  .next (if s.dev.hif.pwrgd && bs.length == 2 && le bs 0 2 == 0x5752 then s.onReset (·.warmReset 3) else s)

/-! ## JTAG (R646) -/

/-- Select an instruction; one that drives the pins becomes BYPASS unless PERST# is asserted. -/
def Dev.jtagSelect (d : Dev) (ir pins : Nat) : Dev :=
  if pins ≠ 0 ∧ !d.hif.perst then { d with hif.jtag.ir := 0xFF, hif.jtag.pins := 0 }
  else { d with hif.jtag.ir := ir, hif.jtag.pins := pins }

/-- EXTEST (R646). -/
def execExtest (s : State) : Host.Outcome State Fault Refusal := .next (s.onDev (·.jtagSelect 0x00 1))
/-- IDCODE (R646). -/
def execIdcode (s : State) : Host.Outcome State Fault Refusal :=
  .next (s.onDev (fun d => (d.jtagSelect 0x01 0).emit (.data (leBytes 4 0xB720856B))))
/-- SAMPLE/PRELOAD (R646): the signals' levels come out, in an order no rule states (log 2); the outputs to
drive go in. -/
def execSamplePreload (v : Nat) (s : State) : Host.Outcome State Fault Refusal :=
  .next (s.onDev (fun d =>
    let (b, d) := d.drawBytes 3
    ({ d with hif.jtag.preload := v }.jtagSelect 0x02 0).emit (.data b)))
/-- HIGHZ (R646). -/
def execHighz (s : State) : Host.Outcome State Fault Refusal := .next (s.onDev (·.jtagSelect 0x03 2))
/-- CLAMP (R646). -/
def execClamp (s : State) : Host.Outcome State Fault Refusal := .next (s.onDev (·.jtagSelect 0x04 3))
/-- DBG (R646). -/
def execDbg (s : State) : Host.Outcome State Fault Refusal := .next (s.onDev (·.jtagSelect 0x10 0))
/-- BYPASS (R646), and any other code. -/
def execBypass (s : State) : Host.Outcome State Fault Refusal := .next (s.onDev (·.jtagSelect 0xFF 0))
/-- TEST_LOGIC_RESET (R646). -/
def execTestLogicReset (s : State) : Host.Outcome State Fault Refusal := .next (s.onDev (·.jtagSelect 0x01 0))

end Sys2Proof.Machine
end

