-- ==== Sys2Proof/Machine/Lifecycle.lean ====
section
/-! DEFINITION. How commands, jobs and firmware end: COMMAND_COMPLETION (R57, R60, R334), JOB_DESTROY (R651), a
Function Level Reset of function 0 (R630), QUERY_DEVICE (R634), the firmware commands and the live exchange
(R78, R82 to R87, R535), the watchdog (R79, R80) and root revocation (R635). -/

namespace Sys2Proof.Machine

/-! ## Ending a job (R651) -/

/-- The enabled rings a job owns. -/
def Dev.jobRings (d : Dev) (j : Nat) : List Nat := d.usedRings.filter (fun r => d.get (QSU.RING_PAIR.OWNER r) == j)

/-- Did this walk of the ring stop at an entry it could not read, with ERROR not cleared since (R649)? -/
def Dev.walkStuck (d : Dev) (r : Nat) : Bool := d.cmd.walkHalt.contains r && d.flag (QSU.RING_STATUS.ERROR r)

/-- Go on with the walk of a submission ring (R60): whether or not an older ERROR stands. -/
def Dev.walkOn (d : Dev) (r : Nat) : Dev :=
  if d.walkStuck r then d
  else Dev.ringWalk (d.ringUsed r) { d with cmd.walkHalt := d.cmd.walkHalt.filter (· != r) } r

/-- Walk every submission ring of a job. -/
def Dev.walkJob (d : Dev) (j : Nat) : Dev := d.each ((d.jobRings j).filter (d.ringOn · 0)) (·.walkOn)

/-- The key slots a job owns. -/
def Dev.jobKeys (d : Dev) (j : Nat) : List Nat :=
  (d.sec.keys.filter (fun e => e.2.isSome && d.get (SEC.KEY_TYPE.OWNER e.1) == j)).map (·.1)

/-- Step 2 of R651: are the walks over, and every command of the job but those in `but` complete, with no
request left that names a key slot of the job (R509)? -/
def Dev.jobQuiet (d : Dev) (j : Nat) (but : InFlight → Bool) : Bool :=
  ((d.jobRings j).filter (d.ringOn · 0)).all (fun r => d.ringUsed r == 0) && d.cmd.inflight.all (fun f => f.job != j || but f)
    && (d.jobKeys j).all (fun k => !d.keyNamed k)

/-- Unmap a pipeline whose stage tiles are halted with 0x0276. -/
def Dev.endPipe (d : Dev) (p : Nat) (m : PipeMap) : Dev :=
  (d.each (d.localTiles m) (fun d l => d.hostHalt (d.phys l))).unmapPipe p m

/-- The round configuration goes, with what its job exchanges (R440). -/
def Dev.endRounds (d : Dev) : Dev :=
  let d := { d.abandonAccs with
    rnd.cfg := none, rnd.loansIn := [], rnd.loansOut := [], rnd.joined := false, rnd.hostApply := [] }
  d.set WXU.ROUND_STATE.JOIN_WAIT 0

/-- Step 3 of R651: release the resources of a job. -/
def Dev.jobRelease (d : Dev) (j : Nat) : Dev :=
  let d := d.each (d.usedTallies.filter (fun t => d.get (QSU.TALLY_CFG.OWNER t) == j)) (fun d t => d.tallyGive t none)
  let d := (d.timersDrop j).each (d.jobKeys j) (fun d k => d.setKey k 0 none)
  let d := d.each d.pipes (fun d (p, x) => match x.map with
    | some m => if m.job = j then d.endPipe p m else d
    | none => d)
  let d := if d.get PSE.JOB.JOB = j then ((d.setPse j (pseDflt j)).pseReport j).set PSE.JOB.JOB 0 else d.setPse j (pseDflt j)
  if (match d.rnd.cfg with | some c => c.job == j | none => false) then d.endRounds else d

/-- JOB_DESTROY's effect: the check, then step 1; the rest when it completes. -/
def Dev.jobDestroy (d : Dev) (ops : Bytes) : Dev × Answer :=
  let j := opnd ops 16 2
  let foreign := d.usedRings.find? (fun q => d.ringOn q 0 && d.get (QSU.RING_PAIR.OWNER q) != j
    && d.get (QSU.RING_PAIR.OWNER (d.get (QSU.RING_PAIR.CQ q))) == j)
  if (d.job j).isNone then (d, .now (errR 0x0107))
  else match foreign with
    | some q => (d, .now (errA 0x0107 q))
    | none => (d.walkJob j, .later (okR 0) (.jobDestroy j) [])

/-- JOB_DESTROY (R651). -/
def execJobDestroy (o : Origin) (ops : Bytes) (s : State) : Host.Outcome State Fault Refusal :=
  .next (s.onDev (·.command 0x000A o ops (·.jobDestroy ops)))

/-! ## COMMAND_COMPLETION (R57) -/

/-- Does the curator firmware still execute a command in flight itself (R82)? What a unit holds, or has done, it does
not; the exchange itself is none. -/
def InFlight.curators (f : InFlight) : Bool :=
  match f.gate with
  | .unit | .rehang => false
  | .ready => f.res.isNone
  | _ => true

/-- Every core's watchdog starts again. -/
def Dev.petAll (d : Dev) : Dev := { d with cmd.petAt := smapSetAll zeroDflt d.cmd.petAt ((List.range 4).map (fun c => (c, d.now))) }

/-- Where the old curator puts the handoff block in the curator area, and its bytes (DESIGN CHOICE, log 42). -/
def handoffArea : Nat := 0x8000000 + curatorArea
def handoffBytes : Nat := 64

/-- Steps 3 and 4 of R82, on the k-th command in flight: the handoff block, whose contents the image fixes, and the
cores' reset into the new image, from which the exchange waits for it. -/
def Dev.rehangSwitch (d : Dev) (k : Nat) : Dev :=
  let (bs, d) := d.drawBytes handoffBytes
  let d := d.store handoffArea bs
  let d := { d.petAll with
    cmd.handoff := some (match d.cmd.image with | some im => im.handoff | none => 0),
    cmd.inflight := d.cmd.inflight.modify k (fun f => { f with gate := .unit, res := none }) }
  d.set CMD.CURATOR_STATE.STATE curREHANG

/-- A staged image starts (R78, R535). -/
def Dev.startImage (d : Dev) (im : ImageInfo) : Dev :=
  let d := if d.cmd.image.isNone then d.firstImage im else d.imageRuns im
  (d.raiseSvn im).set HIF.BOOT_STATUS.FW_LOADED 1

/-- What a command that completes waits for: the device once it is over, none while it is not. `f` is the k-th
command in flight. -/
def Dev.gateOver (d : Dev) (k : Nat) (f : InFlight) : Dev × Bool :=
  match f.gate with
  | .ready => (d, true)
  | .unit => (d, false)
  | .ringDestroy r =>
    let d := d.walkOn r
    (d, d.ringWalked r (· == f))
  | .jobDestroy j =>
    let d := d.walkJob j
    if d.jobQuiet j (· == f) then (d.jobRelease j, true) else (d, false)
  | .invalidate p c =>
    if d.invalidateHeld p c (d.cmd.inflight.take k) then (d, false) else (d.invalidateDone p c, true)
  | .start => match d.cmd.staged with
    | some im => if d.curator = curLOADING then (d.startImage im, true) else (d, false)
    | none => (d, false)
  | .rehang => if d.curator ≠ curRUNNING ∨ d.cmd.inflight.any (·.curators) then (d, false) else (d.rehangSwitch k, false)

/-- What follows the record of a command: the rings it ends are disabled. -/
def Dev.gateAfter (d : Dev) : Gate → Dev
  | .ringDestroy r => d.ringDisable r
  | .jobDestroy j => (d.each (d.jobRings j) (·.ringDisable)).setJob j none
  | _ => d

/-- COMMAND_COMPLETION's effect on the k-th command in flight: once it has a result and what it waits for is
over. The QSU writes a ring's records under RUNNING and, for what was accepted before, REHANG (R83); an image that
starts completes its FW_LOAD. -/
def Dev.completion (d : Dev) (k : Nat) : Dev :=
  match d.cmd.inflight[k]? with
  | none => d
  | some f => match f.res with
    | none => d
    | some r =>
      if f.org.chan != .mailbox && f.gate != .start && d.curator != curRUNNING && d.curator != curREHANG then d
      else match d.gateOver k f with
        | (d, false) => d
        | (d, true) =>
          ((({ d with cmd.inflight := d.cmd.inflight.erase f }.complete f.org f.opcode true r).gateAfter f.gate).pseDrain f.job).kick.pendServe

/-- Apply an effect that may blow fuses: they follow the registers that report them, and none is ever cleared
(R535, R635). -/
def State.onFuses (s : State) (f : Dev → Dev) : State :=
  let s' := s.onDev f
  { s' with fuses := ⟨max s.fuses.svn (min 64 (s'.dev.get SEC.FW_SVN.COUNT)),
                      s.fuses.revoked ||| s'.dev.get SEC.FW_ROOT_REVOKED.MASK % 16⟩ }

/-- COMMAND_COMPLETION (R57). -/
def execCommandCompletion (k : Nat) (s : State) : Host.Outcome State Fault Refusal := 
  .next (if (s.dev.cmd.inflight[k]?).any (·.gate == .start) then s.onFuses (·.completion k) else s.onDev (·.completion k))

/-! ## The page of a weak frame (R345) -/

/-- Does a pipeline run a step (R345)? -/
def Dev.pipelinesBusy (d : Dev) : Bool :=
  (List.range 64).any (fun p => d.get (CMD.PIPE_STATE.STATE p) == 2 || d.get (CMD.PIPE_STATE.STATE p) == 3)

/-- The copy of a weak frame's page to another frame, its entry and the limbo of the frame left (R345); a codeword that is
not correctable leaves the page where it is. -/
def Dev.weakCopy (d : Dev) (pfn new : Nat) : Dev :=
  let f := d.frame pfn
  let (src, dst) := (pfnFlat d.code pfn 0, pfnFlat d.code new 0)
  let r := d.readSegs [(src, pageBytes)]
  if r.2.isSome then r.1
  else
    let d := r.1.storeSparse (r.1.segGather 0 [(src, pageBytes)]) 0 [(dst, pageBytes)]
    let d := d.setFrame new { d.frame new with used := true, lastDom := f.lastDom, page := f.page }
    let d := d.putEntryOf f.page (putBits (d.entryOf f.page) 50 32 new)
    { d with hbm.limbo := d.hbm.limbo ++ [(f.page, pfn)] }.invalidateDone f.page 1

/-- The page move of a weak frame (R345): by copy to a free frame, at once when no entry naming it may be
written, else once an UNMAP or a STEP_END has come and no step runs. -/
def Dev.weakMove (d : Dev) (pfn : Nat) : Dev :=
  let f := d.frame pfn
  let e := d.entryOf f.page
  if !f.weak || !f.used || !entValid e || entPfn e != pfn then d
  else if (entWrite e || entAdd e) && (!f.due || d.pipelinesBusy) then d
  else if d.invalidateHeld f.page 1 d.cmd.inflight then d
  else match d.takeFrame 0xFF with
    | none => d
    | some (d, new) => d.weakCopy pfn new

/-- WEAK_PAGE_MOVE (R345). -/
def execWeakPageMove (pfn : Nat) (s : State) : Host.Outcome State Fault Refusal :=
  .next (s.onDev (·.weakMove pfn))

/-! ## FLR of function 0 (R630) -/

/-- Does an operation of the public-key engine serve a ring's command? -/
def PkUse.ofRing : PkUse → Bool
  | .generate o _ _ | .import_ o _ _ | .ownEndorse o _ | .attest o _ | .unlock o _ _ => o.chan != .mailbox
  | _ => false

/-- Commands of rings, and what engines do for them, end without a record. -/
def Dev.dropRingCommands (d : Dev) : Dev :=
  { d with
    cmd.inflight := d.cmd.inflight.filter (fun f => f.org.chan == .mailbox),
    cmd.staged := if d.cmd.inflight.any (fun f => f.org.chan == .mailbox && f.gate == .rehang) then d.cmd.staged else none,
    sec.pkQueue := d.sec.pkQueue.filter (fun o => !o.use.ofRing),
    sec.pkCores := d.sec.pkCores.map (fun (e : Nat × Option PkOp) => (e.1, e.2.map (fun o => if o.use.ofRing then ⟨o.kind, [], [], [], [], .core 0⟩ else o))),
    ckpt.runs := [] }

/-- The channels of a tile drop what they hold. -/
def Dev.dropChans (d : Dev) (t : Nat) : Dev :=
  d.each (List.range 4) (fun d ch => (d.onTile t (fun x => x.setChan ch (chanDflt ch))).showChan t ch)

/-- Every page is unmapped: the directory and the leaves are zero, and every frame is free and counts as held
by no domain, so that R336 zeroes it before its next grant. -/
def Dev.unmapAll (d : Dev) : Dev :=
  let leaves := (d.hbm.leaves.filter (fun e => e.2 != 0)).map (·.1)
  let mem := leaves.foldl (fun m i => memZero m (leafFlat i) 65536) (memZero d.hbm.mem d.catBase 0x40000)
  let frames := d.hbm.frames.filterMap (fun (e : Nat × Frame) =>
    let f : Frame := { e.2 with used := false, lastDom := 0, page := 0 }
    if f = frameDflt e.1 then none else some (e.1, f))
  { d with hbm.mem := mem, hbm.frames := frames, hbm.limbo := [], hbm.leaves := [], hbm.caches := [], hbm.pendInv := [] }

/-- The MSI-X table, its pending bits and the registers of BAR2 return to their reset values. -/
def Dev.clearFn0 (d : Dev) : Dev :=
  let bar2 := [HIF.BAR2_BASE_LO.REG.off, HIF.BAR2_BASE_HI.REG.off, HIF.BAR2_CTL.REG.off]
  { d with
    regs := d.regs.filter (fun e => !(bar2.contains e.1 || decide (0x10000 ≤ e.1 ∧ e.1 < 0x20000))),
    hif.msixEn0 := false, hif.msixMask0 := false, hif.memEn := false, hif.bar2Log2 := 28, hif.d3hot := false }

/-- The timers of jobs are freed, their undelivered expiries discarded. -/
def Dev.dropJobTimers (d : Dev) : Dev :=
  let d := { d with cmd.timerHold := d.cmd.timerHold.filter (fun h => decide (h.timer < 128)) }
  d.each d.tmu.timers (fun d e => if 128 ≤ e.1 then d.setTimer e.1 none else d)

/-- An FLR of function 0 that the curator firmware carries out. -/
def Dev.flr0 (d : Dev) : Dev :=
  let d := d.dropRingCommands
  let d := d.each (d.cfi.groups.map (·.1)) (·.groupRemove)
  let d := { d with pse := d.pse.map (fun (e : Nat × PseUnit) => (e.1, { e.2 with run := none, queue := [] })) }
  let d := d.each d.jobNumbers (fun d j => (d.jobRelease j).setJob j none)
  let d := d.each ((List.range 16).filter (d.targetUsed ·)) (·.targetRemove)
  let d := d.each (d.wxu.slots.filter (fun e => d.slotUsed e.1)) (fun d e => d.removeSlot e.1)
  let d := d.each (d.usedRings.filter (16 ≤ ·)) (·.ringDisable)
  let d := d.each (d.tiles.map (·.1)) (·.dropChans)
  d.unmapAll.dropJobTimers.clearFn0

/-- FLR_FUNCTION0 (R630). -/
def execFlrFunction0 (late : Bool) (s : State) : Host.Outcome State Fault Refusal :=
  let c := s.dev.curator
  .next (if late || c == curREHANG || c == curFATAL || c == curLOADING then s.onReset (·.warmReset 4) else s.onDev (·.flr0))

/-! ## QUERY_DEVICE (R634) -/

/-- The link speed in whole GT/s by its code; 2.5 and no link read 0. -/
def linkGts : Nat → Nat
  | 2 => 5 | 3 => 8 | 4 => 16 | 5 => 32 | 6 => 64 | _ => 0

/-- Does the curator firmware run? -/
def Dev.firmwareRuns (d : Dev) : Bool := d.curator == curRUNNING || d.curator == curREHANG

/-- The inline data, completion-entry bytes 32 to 63. -/
def Dev.queryInline (d : Dev) : Bytes :=
  leBytes 8 Config.serial.toNat ++ leBytes 4 (assembly d.code) ++ leBytes 1 d.curator
    ++ leBytes 1 (d.get HIF.BOOT_STATUS.SLOT + 2 * d.get HIF.BOOT_STATUS.FW_LOADED) ++ leBytes 1 (d.get SEC.FW_SVN.COUNT)
    ++ leBytes 1 (linkGts (d.get HIF.LINK.SPEED)) ++ leBytes 4 (if d.firmwareRuns then d.get CMD.CURATOR_VERSION.VERSION else 0)
    ++ leBytes 2 (tdp d.code) ++ leBytes 2 d.powerLimit ++ leBytes 1 (d.get HIF.LINK.WIDTH) ++ zeros 7

/-- QUERY_DEVICE (R634). -/
def execQueryDevice (o : Origin) (ops : Bytes) (s : State) : Host.Outcome State Fault Refusal :=
  .next (s.onDev (·.command 0x0002 o ops (fun d => (d, .now (okI Config.serial.toNat d.queryInline)))))

/-! ## Firmware (R77, R78, R82 to R87) -/

/-- Read the image a command names: its bytes by offset, or a result. -/
def Dev.imageAt (d : Dev) (o : Origin) (ops : Bytes) : Dev × Except Result ImageRd :=
  let a := opnd ops 16 8
  let n := opnd ops 24 4
  match d.xlate (hifAcc 1 (d.attestDom o)) a n with
  | (d, .error e) => (d, .error (errA (causeStatus e.cause) e.addr))
  | (d, .ok segs) => match d.readSegs segs with
    | (d, some k) => (d, .error (errA 0x0216 (a + k)))
    | (d, none) =>
      let at_ := d
      (d, .ok (fun off k => at_.segRead (segTake (segDrop segs off) k)))

/-- Is a live exchange of the firmware in progress? -/
def Dev.rehanging (d : Dev) : Bool := d.cmd.inflight.any (·.gate == .rehang)

/-- FW_LOAD's effect: the image is verified, and from LOADING it starts with the command's completion; not during a
live exchange (DESIGN CHOICE, log 42). -/
def Dev.fwLoad (d : Dev) (o : Origin) (ops : Bytes) : Dev × Answer :=
  if d.stackFailed 0 then (d, .now (errR 0x0219))
  else if d.rehanging then (d, .now (errR 0x0105))
  else match d.imageAt o ops with
    | (d, .error r) => (d, .now r)
    | (d, .ok rd) => match d.verifyImage rd (some (opnd ops 24 4)) with
      | .error st => (d, .now (errR st))
      | .ok im => ({ d with cmd.staged := some im }.set CMD.CURATOR_STATE.STATE curLOADING, .later (okR im.version) .start [])

/-- FW_LOAD (R78). -/
def execFwLoad (o : Origin) (ops : Bytes) (s : State) : Host.Outcome State Fault Refusal :=
  .next (s.onDev (·.command 0x0007 o ops (·.fwLoad o ops)))

/-- FW_REHANG's effect: step 1 of R82, and dispatch stops. Steps 3 and 4 follow at COMMAND_COMPLETION, once the
commands that the old curator executes itself are complete. -/
def Dev.fwRehang (d : Dev) (o : Origin) (ops : Bytes) : Dev × Answer :=
  if d.curator ≠ curRUNNING ∨ d.rehanging ∨ d.get CSV.DBG_STATE.HALTED ≠ 0 then (d, .now (errR 0x0105))
  else match d.imageAt o ops with
    | (d, .error r) => (d, .now r)
    | (d, .ok rd) => match d.verifyImage rd (some (opnd ops 24 4)) with
      | .error st => (d, .now (errA 0x0104 st))
      | .ok im => ({ d with cmd.staged := some im }, .later (okR im.version) .rehang [])

/-- FW_REHANG (R82). -/
def execFwRehang (o : Origin) (ops : Bytes) (s : State) : Host.Outcome State Fault Refusal :=
  .next (s.onDev (·.command 0x0008 o ops (·.fwRehang o ops)))

/-- May the new image claim the old one's timers (R85)? -/
def claims (old new : Nat) : Bool := old / 256 == new / 256 && decide (old % 256 ≤ new % 256)

/-- REHANG_RESUME's effect: steps 5 and 6 of R82: the handoff block is read, timers are claimed or cancelled, the
image reaches RUNNING and the exchange completes. -/
def Dev.rehangResume (d : Dev) : Dev :=
  match d.cmd.staged with
  | none => d
  | some im =>
    if d.curator ≠ curREHANG then d
    else
      let d := { d.meetPieces (flatSegs handoffArea handoffBytes) with cmd.handoff := none }
      let old := match d.cmd.image with | some x => x.timerTable | none => 0
      let d := (((d.timersRelease (claims old im.timerTable)).imageRuns im).raiseSvn im).set HIF.BOOT_STATUS.FW_LOADED 0
      d.unitDone 0x0008 (fun _ => true) (okR im.version)

/-- REHANG_RESUME (R82). -/
def execRehangResume (s : State) : Host.Outcome State Fault Refusal := .next (s.onFuses (·.rehangResume))

/-! ## Watchdogs (R79, R80, R86) -/

/-- When core c's watchdog expires: while firmware runs, so in RUNNING and REHANG alone (DESIGN CHOICE, log 79), and no
core is halted under debug (R621). -/
def Dev.wdogAt (d : Dev) (c : Nat) : Option Nat :=
  if 4 ≤ c ∨ !d.firmwareRuns ∨ d.get CSV.DBG_STATE.HALTED ≠ 0 then none
  else
    let ms := if d.curator = curREHANG then d.get CMD.REHANG_WINDOW.MILLISECONDS else d.get CMD.WDOG_CFG.PERIOD_MS
    some (smapGet zeroDflt d.cmd.petAt c + ms * 1000000)

/-- WATCHDOG_EXPIRY's effect: a fatal cause on the core's fault unit. -/
def Dev.wdogExpire (d : Dev) (c : Nat) : Dev :=
  let lvl := d.get (suspLevel (uCore c))
  let r : FaultRec := ⟨d.csv.recSeq, uCore c, 0x010B, 0, lvl, lvl, 0, d.now, 0, 0, 0, 0xFFFF, 0, 0, zeros 64⟩
  { d with csv.recSeq := d.csv.recSeq + 1, csv.fatalRec := some r }.raiseFatal 0x010B

/-- WATCHDOG_EXPIRY (R80). -/
def execWatchdogExpiry (c : Nat) (s : State) : Host.Outcome State Fault Refusal := .next (s.atTime (s.dev.wdogAt c) (·.wdogExpire c))

/-! ## Root revocation (R535, R635) -/

/-- FUSE_REVOKE's effect: the roots a value names are revoked when every condition of R635 holds of each; else
the write is refused and logged. -/
def Dev.fuseRevoke (d : Dev) (who : Agent) (v : Nat) : Dev :=
  let mask := v % 16
  let ok := match who, d.cmd.image with
    | .core _, some im => im.fuseSvn != 0 && d.firmwareRuns && (maskBits mask 4).all (fun k => decide (k < im.keyIndex))
    | _, _ => false
  let u := match who with | .core c => uCore c | .host => uCore 0
  if ok then d.set SEC.FW_ROOT_REVOKED.MASK (d.get SEC.FW_ROOT_REVOKED.MASK ||| mask) else d.refuseRegister u HIF.FUSE_PROGRAM.REG.off

/-- FUSE_REVOKE (R635). -/
def execFuseRevoke (who : Agent) (v : Reg) (s : State) : Host.Outcome State Fault Refusal := .next (s.onFuses (·.fuseRevoke who v.toNat))

end Sys2Proof.Machine
end

