-- ==== Sys2Proof/Machine/Registers.lean ====
section
/-! DEFINITION. The host's requests and the general register accesses: configuration requests (R625,
R631), BAR2 (R628), MSI-X tables (R624, R629), register writes and clearing reads (R12, R13, R290), and
the debug access port's writes (R617). -/

namespace Sys2Proof.Machine

/-! ## Configuration requests (R625, R631) -/

/-- Send the pending messages of function 0's vectors that are unmasked now (R629). -/
def Dev.sendPending (d : Dev) : Dev :=
  let words := (d.regs.filter (fun e => decide (0x18000 ≤ e.1 ∧ e.1 < 0x18100))).map (·.1)
  let vs := words.flatMap (fun o => (maskBits (d.rd o).toNat 32).map (fun b => (o - 0x18000) / 4 * 32 + b))
  d.each vs (fun d v =>
    if d.hif.msixEn0 && !d.hif.msixMask0 && !d.flag (HIF.MSIX_CTRL.MASK v) then
      (d.set ⟨0x18000 + 4 * (v / 32), v % 32, v % 32⟩ 0).msix v
    else d)

/-- The same for function 1 (R624). -/
def Dev.sendPending1 (d : Dev) : Dev :=
  d.each (maskBits (d.fn1Rd 0x18000).toNat 8) (fun d v =>
    if d.hif.msixEn1 && !d.hif.msixMask1 && !bit (d.fn1Rd (0x1000C + 16 * v)).toNat 0 then
      (d.fn1Wr 0x18000 (withField (d.fn1Rd 0x18000) v v 0)).msix1 v
    else d)

/-- The identifiers of R624 as one word: vendor, device, revision. -/
def idWord : Nat := 0x1E5A + 0x7208 * 2 ^ 16 + 0xB0 * 2 ^ 32

/-- The answer to a configuration request that is served. -/
def Dev.configAnswer (d : Dev) (fn : Nat) : ConfigReq → Dev
  | .readId => d.emit (.config idWord)
  | .readSerial => d.emit (.config (Config.serial.toNat))
  | .readMsix => d.emit (.config (if fn = 0 then b2n d.hif.msixEn0 + 2 * b2n d.hif.msixMask0
                                  else b2n d.hif.msixEn1 + 2 * b2n d.hif.msixMask1))
  | .setMsix en mask =>
    if fn = 0 then ({ d with hif.msixEn0 := en, hif.msixMask0 := mask }).sendPending
    else ({ d with hif.msixEn1 := en, hif.msixMask1 := mask }).sendPending1
  | .setMemory on => if fn = 0 then { d with hif.memEn := on } else d
  | .resizeBar2 n =>
    if fn = 0 ∧ d.hif.memEn = false ∧ 28 ≤ n ∧ n ≤ 36 then { d with hif.bar2Log2 := n } else d
  | .setPower d3 => if fn = 0 then { d with hif.d3hot := d3 } else d

/-- The 20 ms in which function 0 answers with Request Retry Status (R631). -/
def retryNs : Nat := 20000000

/-- CONFIG_REQUEST (R631). Nothing is answered while PERST# is asserted. -/
def execConfigRequest (fn : Nat) (rq : ConfigReq) (s : State) : Host.Outcome State Fault Refusal :=
  .next (s.onDev (fun d =>
    if 2 ≤ fn ∨ d.hif.perst then d
    else if fn = 0 ∧ d.now < d.hif.perstAt + retryNs then d.emit .retry
    else d.configAnswer fn rq))

/-! ## BAR2 (R628) -/

/-- Does BAR2 map flat addresses (R78, R628)? -/
def Dev.bar2Flat (d : Dev) : Bool := d.curator == curROM || d.curator == curFATAL

/-- With domain 0 no request passes: the cause of its refusal (R628). -/
def Dev.zeroDomCause (d : Dev) (a : Acc) (addr : Nat) : Dev × Nat :=
  let (d, c, _) := d.checkPage a (pageOf addr)
  (d, if c = 1 ∨ c = 2 then c else 3)

/-- Translate a request of `n` bytes at BAR2 offset `x`; none when it is refused, and recorded. -/
def Dev.bar2Segs (d : Dev) (perm x n : Nat) : Dev × Option (List Seg) :=
  if d.bar2Flat then (d, some [(x, n)])
  else
    let dom := d.get HIF.BAR2_CTL.DOMAIN
    let a := hifAcc perm dom
    let addr := d.get2 HIF.BAR2_BASE_LO.ADDR HIF.BAR2_BASE_HI.ADDR + x
    if 2 ^ 48 ≤ addr then (d.protFault a 2 (addr % 2 ^ 48), none)
    else if dom = 0 then
      let (d, c) := d.zeroDomCause a addr
      (d.protFault a c addr, none)
    else
      let inside := min n (2 ^ 48 - addr)
      match d.xlate a addr inside with
      | (d, .error _) => (d, none)
      | (d, .ok segs) => if inside < n then (d.protFault a 2 0, none) else (d, some segs)

/-- Is a request inside the BAR2 window (R627)? -/
def Dev.inBar2 (d : Dev) (x n : Nat) : Bool := decide (x + n ≤ 2 ^ d.hif.bar2Log2)

/-- All ones, as a refused or failed read returns (R328, R343, R346). -/
def allOnes (n : Nat) : Bytes := List.replicate n 0xFF

/-- The bytes of a BAR2 read. -/
def Dev.bar2Bytes (d : Dev) (x n : Nat) : Dev × Bytes :=
  match d.bar2Segs 1 x n with
  | (d, none) => (d, allOnes n)
  | (d, some segs) => match d.readSegs segs with
    | (d, some _) => (d, allOnes n)
    | (d, none) => (d, d.segRead segs)

/-- BAR2_READ (R628). -/
def execBar2Read (x n : Nat) (s : State) : Host.Outcome State Fault Refusal :=
  .next (s.onDev (fun d =>
    if !d.inBar2 x n then d
    else
      let (d, bs) := d.bar2Bytes x n
      d.emit (.data bs)))

/-- A BAR2 write's effect: discarded when it is refused. -/
def Dev.bar2Store (d : Dev) (x : Nat) (bs : Bytes) : Dev :=
  match d.bar2Segs 2 x bs.length with
  | (d, none) => d
  | (d, some segs) => d.storeSegs segs bs

/-- BAR2_WRITE (R628). -/
def execBar2Write (x : Nat) (bs : Bytes) (s : State) : Host.Outcome State Fault Refusal :=
  .next (s.onDev (fun d => if d.inBar2 x bs.length then d.bar2Store x bs else d))

/-! ## Register writes (R12) -/

/-- A field of a register word after a write of `v` (R12). -/
def fldWrite (v w : Reg) (f : Fld) : Reg :=
  let x := fieldOf v f.hi f.lo
  match f.ty with
  | .rw => if f.least ≤ x ∧ x ≤ f.most then withField w f.hi f.lo x else w
  | .w1c => withField w f.hi f.lo (fieldOf w f.hi f.lo &&& (2 ^ (f.hi + 1 - f.lo) - 1 - x))
  | .ro | .rc | .wo => w

/-- A write with no effect beyond the register's own fields. -/
def Dev.plainWriteReg (d : Dev) (r : RegDef) (off : Nat) (v : Reg) : Dev := d.wr off (r.flds.foldl (fldWrite v) (d.rd off))

/-- The retransmission ceilings hold values from their floors up (R426, R503). -/
def Dev.ceilingOk (d : Dev) (off : Nat) (v : Reg) : Bool :=
  if off = CFI.RTO_MAX.REG.off then
    let x := bits v.toNat 16 0
    decide (d.get CFI.RTO_MIN.MICROSECONDS ≤ x ∧ x ≤ 100000)
  else if off = WXU.RTO_MAX.REG.off then
    let x := bits v.toNat 13 0
    decide (d.get WXU.RTO_MIN.MICROSECONDS ≤ 1000 * x ∧ x ≤ 10000)
  else true

/-- May an agent write a register? The device ignores the writes of the others (R12). -/
def mayWrite (who : Agent) (w : Writer) : Bool :=
  match who, w with
  | .host, .cores | .core _, .host => false
  | _, _ => true

/-- A write to a tile's register files (R290): 32 bits of a g or a register, or the predicates; g0 stays 0
and p0 stays 1 (R265, R266). The chain table is loaded by PROG_LOAD alone (R200). -/
def Dev.winWrite (d : Dev) (t : Nat) (w : TileWin) (v : Nat) : Dev :=
  let st := d.get (CMD.SEQ_STATE.STATE t)
  if st ≠ tsREADY ∧ st ≠ tsHALTED then d
  else d.onTile t (fun x => match w with
    | .g i hi =>
      let o := smapGet zeroDflt x.g i
      if i = 0 then x
      else { x with g := smapSet zeroDflt x.g i (if hi then o % 2 ^ 32 + v * 2 ^ 32 else o / 2 ^ 32 * 2 ^ 32 + v) }
    | .a i hi =>
      let o := smapGet zeroDflt x.a i
      { x with a := smapSet zeroDflt x.a i (if hi then o % 2 ^ 32 + v % 2 ^ 16 * 2 ^ 32 else o / 2 ^ 32 * 2 ^ 32 + v) }
    | .p => { x with p := v &&& 0xF0FF }
    | .chains _ => x)

/-- The bits of `SEQ_CTRL`, in their order. -/
def Dev.seqCtrl (d : Dev) (t : Nat) (v : Nat) : Dev :=
  let d := d.when (bit v 0) (·.hostHalt t)
  let d := d.when (bit v 1) (·.resumeTile t)
  d.when (bit v 2) (·.seqUnload t)

/-- An MSI-X table write of function 0: what is unmasked and pending is sent (R629). -/
def Dev.tableWrite (d : Dev) (r : RegDef) (off : Nat) (v : Reg) : Dev := (d.plainWriteReg r off v).sendPending

/-- A host write to a ring pointer: the tail of a submission ring, the head of the others (R52, R53). -/
def Dev.pointerWrite (d : Dev) (r : Nat) (tail : Bool) (v : Reg) : Dev :=
  if tail then d.tailDoorbell r v else d.headWrite r v

/-- A permitted write to a copy of register `r`: its own effect, or its fields'. -/
def Dev.regEffect (d : Dev) (who : Agent) (r : RegDef) (off : Nat) (v : Reg) : Dev :=
  let b := r.base
  let tile := (off - 0x01000000) / 0x10000
  if b = CMD.MBOX_OPCODE.REG.off ∨ b = CMD.MBOX_FLAGS.REG.off ∨ b = (CMD.MBOX_ARG.REG 0).off then d.mboxWrite off v
  else if b = CMD.MBOX_DOORBELL.REG.off then d.mboxDoorbell v
  else if b = CMD.WDOG_PET.REG.off then
    match who with
    | .core c => d.wdogPet c
    | .host => d
  else if b = (QSU.RING_HEAD.REG 0).off then (match who with | .host => d.pointerWrite ((off - b) / 0x20) false v | .core _ => d)
  else if b = (QSU.RING_TAIL.REG 0).off then (match who with | .host => d.pointerWrite ((off - b) / 0x20) true v | .core _ => d)
  else if b = (QSU.TALLY_VALUE.REG 0).off then d.tallySet ((off - b) / 0x10) v.toNat
  else if b = (QSU.TALLY_ADD.REG 0).off then d.tallyAdd ((off - b) / 0x10) (bits v.toNat 15 0)
  else if b = TMU.TCLK_DIV.REG.off then d.tclkDiv v
  else if b = (WXU.SLOT_WINDOW.REG 0).off then d.windowWrite ((off - b) / 0x20) v
  else if b = CSV.FRING_HEAD.REG.off then d.ringRetire (bits v.toNat 5 0)
  else if b = (CMD.SEQ_CTRL.REG 0).off then d.seqCtrl tile v.toNat
  else if b = (MXA.MAP.REG 0).off then d.mapWrite tile v
  else if (regionOf tile off).isSome ∧ (SPM.REGION_BASE.REG 0 0).off ≤ b then d.regionWrite tile off v
  else if b = (TDMA.CH_STATE.REG 0 0).off then
    if bit v.toNat 1 then d.errorClear tile ((off % 0x10000 - 0x7800) / 0x40) else d
  else if b = (TCX.FAULT_STATUS.REG 0).off then
    let d := d.plainWriteReg r off v
    if (d.tile tile).resumeHeld && d.resumeFree tile then d.resumeTile tile else d
  else if 0x00010000 ≤ off ∧ off < 0x00018000 then d.tableWrite r off v
  else if !d.ceilingOk off v then d
  else d.plainWriteReg r off v

/-- A register write (R11 to R13): reserved offsets, debug copies and the blocks of absent ports ignore
it. -/
def Dev.agentWrite (d : Dev) (who : Agent) (off : Nat) (v : Reg) : Dev :=
  if portAbsent d.code off then d
  else match findReg off with
    | some (r, _) => if mayWrite who r.writer then d.regEffect who r off v else d
    | none => match who, winOf off with
      | .core _, some (t, w) => d.winWrite t w v.toNat
      | _, _ => d

/-- A write by an agent, with the two registers whose writes reach beyond the device's state: a warm
reset (R630) and a fuse (R635). -/
def State.agentWrite (s : State) (who : Agent) (off : Nat) (v : Reg) : State :=
  if off = HIF.FUSE_PROGRAM.REG.off then s.onFuses (·.fuseRevoke who v.toNat)
  else if off = HIF.RESET_CTL.REG.off then
    match who with
    | .host => if bit v.toNat 0 then s.onReset (·.warmReset 2) else s
    | .core _ => s
  else s.onDev (·.agentWrite who off v)

/-- REGISTER_WRITE (R12). -/
def execRegisterWrite (who : Agent) (off : Nat) (v : Reg) (s : State) : Host.Outcome State Fault Refusal :=
  .next (s.agentWrite who off v)

/-- MSIX_TABLE_WRITE (R629, R624): function 0's table lies among the registers, function 1's in its own
BAR0. -/
def Dev.msixTable (d : Dev) (fn off : Nat) (v : Reg) : Dev :=
  if off % 4 ≠ 0 then d
  else if fn = 0 then if 0x10000 ≤ off ∧ off < 0x18000 then d.agentWrite .host off v else d
  else if fn = 1 ∧ 0x10000 ≤ off ∧ off < 0x10080 then
    let v : Reg := match off % 16 with
      | 0 => BitVec.ofNat 32 (v.toNat / 4 * 4)
      | 12 => BitVec.ofNat 32 (v.toNat % 2)
      | _ => v
    (d.fn1Wr off v).sendPending1
  else d

/-- MSIX_TABLE_WRITE (R629). -/
def execMsixTableWrite (fn : Nat) (off : Nat) (v : Reg) (s : State) : Host.Outcome State Fault Refusal :=
  .next (s.onDev (·.msixTable fn off v))

/-! ## Reads that clear (R12) -/

/-- The counters of which telemetry samples give differences lose a cleared amount from their base too
(R612). -/
def Dev.rebase (d : Dev) (r : RegDef) (n : Nat) : Dev :=
  let (a, b, c) := d.csv.telemBase
  let base : Int × Int × Int :=
    if r.base = (HMC.ECC_CORRECTED.REG 0).off then (a - n, b, c)
    else if r.base = (SPM.ECC_CORRECTED.REG 0).off then (a, b - n, c)
    else if r.base = (CFI.PORT_FEC_UNCORR.REG 0).off ∨ r.base = (WXU.FAR_FEC_UNCORR.REG 0).off then (a, b, c - n)
    else (a, b, c)
  { d with csv.telemBase := base }

/-- The primary read of a register whose fields clear: its value, then the reset value. -/
def Dev.readClear (d : Dev) (off : Nat) : Dev × Reg :=
  let view := d.regView off
  let d := match findReg off with
    | some (r, _) => ((d.rebase r (d.rd off).toNat).clearRc off)
    | none => d
  d.withRsv off view

/-- READ_CLEAR_REGISTER (R12). Reads of `TMU.TIME_LO` and `TMU.CAP_POP_LO` have commands of their own; here
they have the same effects. -/
def execReadClearRegister (off : Nat) (s : State) : Host.Outcome State Fault Refusal :=
  .next (s.onDev (fun d => match findReg off with
    | none => d
    | some (r, _) =>
      if !regHasRc r then d
      else if r.base = TMU.TIME_LO.REG.off then
        let (d, v) := d.timeLo
        d.emit (.reg (BitVec.ofNat 32 v))
      else if r.base = (TMU.CAP_POP_LO.REG 0).off then
        let (d, v) := d.capPop ((off - r.base) / 8)
        d.emit (.reg (BitVec.ofNat 32 v))
      else
        let (d, v) := d.readClear off
        d.emit (.reg v)))

/-! ## The debug access port (R617, R619) -/

/-- A flat read through the port: all ones where it fails (R320, R343). -/
def Dev.flatRead (d : Dev) (flat n : Nat) : Dev × Bytes :=
  match d.readSegs [(flat, n)] with
  | (d, some _) => (d, allOnes n)
  | (d, none) => (d, d.rawRead flat n)

/-- DEBUG_PORT_WRITE's effect at level FULL: a register as a control core writes it, or flat memory. -/
def State.portAccess (s : State) : DbgAccess → State
  | .reg off v => s.agentWrite (.core 0) off v
  | .memWrite flat bs => s.onDev (·.store flat bs)
  | .memRead flat n => s.onDev (fun d =>
      let (d, bs) := d.flatRead flat n
      d.emit (.data bs))

/-- DEBUG_PORT_WRITE (R617). -/
def execDebugPortWrite (a : DbgAccess) (s : State) : Host.Outcome State Fault Refusal :=
  .next (if !s.dev.dbgSelected then s
    else if s.dev.dbgLevel < 3 then s.onDev (·.emit (.status 0x0901))
    else s.portAccess a)

end Sys2Proof.Machine
end

