-- ==== Sys2Proof/Machine/Dispatch.lean ====
section
/-! DEFINITION. The dispatch: one arm per command, one direct call of its meaning. -/

namespace Sys2Proof.Machine

/-- What a command does to everything but the queue. -/
def exec (i : Instr) (s : State) : Host.Outcome State Fault Refusal :=
  match i with
  | .coldReset => Sys2Proof.Machine.execColdReset s
  | .perstAssert => Sys2Proof.Machine.execPerstAssert s
  | .perstDeassert => Sys2Proof.Machine.execPerstDeassert s
  | .resetCtlWarm => Sys2Proof.Machine.execResetCtlWarm s
  | .flrFunction0 late => Sys2Proof.Machine.execFlrFunction0 late s
  | .flrFunction1 => Sys2Proof.Machine.execFlrFunction1 s
  | .pllLock => Sys2Proof.Machine.execPllLock s
  | .refclkLost => Sys2Proof.Machine.execRefclkLost s
  | .bootRomStart trained => Sys2Proof.Machine.execBootRomStart trained s
  | .configRequest fn rq => Sys2Proof.Machine.execConfigRequest fn rq s
  | .bar2Read x n => Sys2Proof.Machine.execBar2Read x n s
  | .bar2Write x bs => Sys2Proof.Machine.execBar2Write x bs s
  | .msixTableWrite fn off v => Sys2Proof.Machine.execMsixTableWrite fn off v s
  | .registerWrite who off v => Sys2Proof.Machine.execRegisterWrite who off v s
  | .readClearRegister off => Sys2Proof.Machine.execReadClearRegister off s
  | .timeLoRead => Sys2Proof.Machine.execTimeLoRead s
  | .capPopRead input => Sys2Proof.Machine.execCapPopRead input s
  | .mboxRegisterWrite off v => Sys2Proof.Machine.execMboxRegisterWrite off v s
  | .mboxDoorbell v => Sys2Proof.Machine.execMboxDoorbell v s
  | .mboxHeldServe => Sys2Proof.Machine.execMboxHeldServe s
  | .ringTailDoorbell r v => Sys2Proof.Machine.execRingTailDoorbell r v s
  | .ringHeadWrite r v => Sys2Proof.Machine.execRingHeadWrite r v s
  | .ringErrorClear r => Sys2Proof.Machine.execRingErrorClear r s
  | .packetDispatch r => Sys2Proof.Machine.execPacketDispatch r s
  | .commandCompletion k => Sys2Proof.Machine.execCommandCompletion k s
  | .eventHoldDelivery => Sys2Proof.Machine.execEventHoldDelivery s
  | .completionOverdue r => Sys2Proof.Machine.execCompletionOverdue r s
  | .tallyAddWrite t v => Sys2Proof.Machine.execTallyAddWrite t v s
  | .tallyValueWrite t v => Sys2Proof.Machine.execTallyValueWrite t v s
  | .nop o ops => Sys2Proof.Machine.execNop o ops s
  | .queryDevice o ops => Sys2Proof.Machine.execQueryDevice o ops s
  | .ringCreate o ops => Sys2Proof.Machine.execRingCreate o ops s
  | .ringDestroy o ops => Sys2Proof.Machine.execRingDestroy o ops s
  | .tallyAlloc o ops => Sys2Proof.Machine.execTallyAlloc o ops s
  | .tallyFree o ops => Sys2Proof.Machine.execTallyFree o ops s
  | .fwLoad o ops => Sys2Proof.Machine.execFwLoad o ops s
  | .fwRehang o ops => Sys2Proof.Machine.execFwRehang o ops s
  | .rehangResume => Sys2Proof.Machine.execRehangResume s
  | .jobCreate o ops => Sys2Proof.Machine.execJobCreate o ops s
  | .jobDestroy o ops => Sys2Proof.Machine.execJobDestroy o ops s
  | .eventRingBind o ops => Sys2Proof.Machine.execEventRingBind o ops s
  | .wdogPet c => Sys2Proof.Machine.execWdogPet c s
  | .watchdogExpiry c => Sys2Proof.Machine.execWatchdogExpiry c s
  | .map o ops => Sys2Proof.Machine.execMap o ops s
  | .unmap o ops => Sys2Proof.Machine.execUnmap o ops s
  | .invalidate o ops => Sys2Proof.Machine.execInvalidate o ops s
  | .copy o ops => Sys2Proof.Machine.execCopy o ops s
  | .fill o ops => Sys2Proof.Machine.execFill o ops s
  | .hostDma o ops => Sys2Proof.Machine.execHostDma o ops s
  | .weakPageMove pfn => Sys2Proof.Machine.execWeakPageMove pfn s
  | .hbmPatrolScrub stack => Sys2Proof.Machine.execHbmPatrolScrub stack s
  | .hbmStackFailed stack => Sys2Proof.Machine.execHbmStackFailed stack s
  | .progLoad o ops => Sys2Proof.Machine.execProgLoad o ops s
  | .stageMap o ops => Sys2Proof.Machine.execStageMap o ops s
  | .pipelineStart o ops => Sys2Proof.Machine.execPipelineStart o ops s
  | .microbatchAdmit o ops => Sys2Proof.Machine.execMicrobatchAdmit o ops s
  | .pipelineDrain o ops => Sys2Proof.Machine.execPipelineDrain o ops s
  | .tileHalt o ops => Sys2Proof.Machine.execTileHalt o ops s
  | .passDelivery tile => Sys2Proof.Machine.execPassDelivery tile s
  | .pipelineStageFault tile => Sys2Proof.Machine.execPipelineStageFault tile s
  | .seqCtrlHalt tile => Sys2Proof.Machine.execSeqCtrlHalt tile s
  | .seqCtrlResume tile => Sys2Proof.Machine.execSeqCtrlResume tile s
  | .seqCtrlUnload tile => Sys2Proof.Machine.execSeqCtrlUnload tile s
  | .nopInstruction tile => Sys2Proof.Machine.execNopInstruction tile s
  | .alu tile => Sys2Proof.Machine.execAlu tile s
  | .cmp tile => Sys2Proof.Machine.execCmp tile s
  | .plog tile => Sys2Proof.Machine.execPlog tile s
  | .aop tile => Sys2Proof.Machine.execAop tile s
  | .jmp tile => Sys2Proof.Machine.execJmp tile s
  | .loop tile => Sys2Proof.Machine.execLoop tile s
  | .mbbegin tile => Sys2Proof.Machine.execMbbegin tile s
  | .mbend tile => Sys2Proof.Machine.execMbend tile s
  | .defer tile => Sys2Proof.Machine.execDefer tile s
  | .dret tile => Sys2Proof.Machine.execDret tile s
  | .dyield tile => Sys2Proof.Machine.execDyield tile s
  | .haltp tile => Sys2Proof.Machine.execHaltp tile s
  | .contextSwitch tile => Sys2Proof.Machine.execContextSwitch tile s
  | .mload tile => Sys2Proof.Machine.execMload tile s
  | .mloadTransfer tile a => Sys2Proof.Machine.execMloadTransfer tile a s
  | .mstream tile => Sys2Proof.Machine.execMstream tile s
  | .mstreamStart tile a => Sys2Proof.Machine.execMstreamStart tile a s
  | .streamCommit tile a => Sys2Proof.Machine.execStreamCommit tile a s
  | .expanderBlockFault tile a => Sys2Proof.Machine.execExpanderBlockFault tile a s
  | .codecFaultRetry tile => Sys2Proof.Machine.execCodecFaultRetry tile s
  | .vrun tile => Sys2Proof.Machine.execVrun tile s
  | .creset tile => Sys2Proof.Machine.execCreset tile s
  | .cflush tile => Sys2Proof.Machine.execCflush tile s
  | .dma tile => Sys2Proof.Machine.execDma tile s
  | .waitt tile => Sys2Proof.Machine.execWaitt tile s
  | .waitr tile => Sys2Proof.Machine.execWaitr tile s
  | .tadd tile => Sys2Proof.Machine.execTadd tile s
  | .rel tile => Sys2Proof.Machine.execRel tile s
  | .instructionComplete tile k => Sys2Proof.Machine.execInstructionComplete tile k s
  | .panelRowTake tile => Sys2Proof.Machine.execPanelRowTake tile s
  | .commitMarker tile => Sys2Proof.Machine.execCommitMarker tile s
  | .abortMarker tile => Sys2Proof.Machine.execAbortMarker tile s
  | .commitBufferRelease tile => Sys2Proof.Machine.execCommitBufferRelease tile s
  | .vrunStarvedTake tile => Sys2Proof.Machine.execVrunStarvedTake tile s
  | .bankStarved tile bank requester => Sys2Proof.Machine.execBankStarved tile bank requester s
  | .regionDescriptorWrite tile off v => Sys2Proof.Machine.execRegionDescriptorWrite tile off v s
  | .remoteRegionWrite tile region line => Sys2Proof.Machine.execRemoteRegionWrite tile region line s
  | .descriptorStart tile ch => Sys2Proof.Machine.execDescriptorStart tile ch s
  | .descriptorComplete tile ch => Sys2Proof.Machine.execDescriptorComplete tile ch s
  | .descriptorDataFault tile ch => Sys2Proof.Machine.execDescriptorDataFault tile ch s
  | .tdmaErrorClear tile ch => Sys2Proof.Machine.execTdmaErrorClear tile ch s
  | .mxaMapWrite tile v => Sys2Proof.Machine.execMxaMapWrite tile v s
  | .pseConfig o ops => Sys2Proof.Machine.execPseConfig o ops s
  | .stepUpdate o ops => Sys2Proof.Machine.execStepUpdate o ops s
  | .applyBoundary job => Sys2Proof.Machine.execApplyBoundary job s
  | .normGuardCfg o ops => Sys2Proof.Machine.execNormGuardCfg o ops s
  | .sealCmd o ops => Sys2Proof.Machine.execSealCmd o ops s
  | .outerApply o ops => Sys2Proof.Machine.execOuterApply o ops s
  | .rolloutCopy o ops => Sys2Proof.Machine.execRolloutCopy o ops s
  | .digest o ops => Sys2Proof.Machine.execDigest o ops s
  | .groupCreate o ops => Sys2Proof.Machine.execGroupCreate o ops s
  | .groupDestroy o ops => Sys2Proof.Machine.execGroupDestroy o ops s
  | .reduceScatter o ops => Sys2Proof.Machine.execReduceScatter o ops s
  | .allGather o ops => Sys2Proof.Machine.execAllGather o ops s
  | .permute o ops => Sys2Proof.Machine.execPermute o ops s
  | .groupReserve o ops => Sys2Proof.Machine.execGroupReserve o ops s
  | .collectiveComplete slot => Sys2Proof.Machine.execCollectiveComplete slot s
  | .groupTimeout slot => Sys2Proof.Machine.execGroupTimeout slot s
  | .cfiData port bs => Sys2Proof.Machine.execCfiData port bs s
  | .cfiAck port bs => Sys2Proof.Machine.execCfiAck port bs s
  | .cfiReady port bs => Sys2Proof.Machine.execCfiReady port bs s
  | .cfiGrant port bs => Sys2Proof.Machine.execCfiGrant port bs s
  | .cfiCredit port bs => Sys2Proof.Machine.execCfiCredit port bs s
  | .cfiAckTimer peer cls => Sys2Proof.Machine.execCfiAckTimer peer cls s
  | .cfiRetxTimer peer cls psn => Sys2Proof.Machine.execCfiRetxTimer peer cls psn s
  | .cfiRateIncrease peer => Sys2Proof.Machine.execCfiRateIncrease peer s
  | .linkSlotSend pipe link => Sys2Proof.Machine.execLinkSlotSend pipe link s
  | .linkSlotSent pipe link => Sys2Proof.Machine.execLinkSlotSent pipe link s
  | .cellPortDown port => Sys2Proof.Machine.execCellPortDown port s
  | .cellPortUp port => Sys2Proof.Machine.execCellPortUp port s
  | .pfcPause port mask quanta => Sys2Proof.Machine.execPfcPause port mask quanta s
  | .neighborSolicitation port bs => Sys2Proof.Machine.execNeighborSolicitation port bs s
  | .echoRequest port bs => Sys2Proof.Machine.execEchoRequest port bs s
  | .cellFrameDiscard port why => Sys2Proof.Machine.execCellFrameDiscard port why s
  | .roceAck qp psn => Sys2Proof.Machine.execRoceAck qp psn s
  | .roceNak qp psn => Sys2Proof.Machine.execRoceNak qp psn s
  | .roceRnrNak qp psn ns => Sys2Proof.Machine.execRoceRnrNak qp psn ns s
  | .roceReadResponse qp psn bs => Sys2Proof.Machine.execRoceReadResponse qp psn bs s
  | .roceCnp qp => Sys2Proof.Machine.execRoceCnp qp s
  | .roceInboundRequest port => Sys2Proof.Machine.execRoceInboundRequest port s
  | .roceRetryTimer qp => Sys2Proof.Machine.execRoceRetryTimer qp s
  | .roceRnrWaitExpiry qp => Sys2Proof.Machine.execRoceRnrWaitExpiry qp s
  | .roundConfig o ops => Sys2Proof.Machine.execRoundConfig o ops s
  | .roundOpen o ops => Sys2Proof.Machine.execRoundOpen o ops s
  | .partnerAdd o ops => Sys2Proof.Machine.execPartnerAdd o ops s
  | .partnerRemove o ops => Sys2Proof.Machine.execPartnerRemove o ops s
  | .epochCommit o ops => Sys2Proof.Machine.execEpochCommit o ops s
  | .loanCopySend o ops => Sys2Proof.Machine.execLoanCopySend o ops s
  | .ownPackageGather job => Sys2Proof.Machine.execOwnPackageGather job s
  | .decisionDeadline job acc => Sys2Proof.Machine.execDecisionDeadline job acc s
  | .farFrameArrival port bs => Sys2Proof.Machine.execFarFrameArrival port bs s
  | .cipherOpenComplete pair => Sys2Proof.Machine.execCipherOpenComplete pair s
  | .fragmentDrained k => Sys2Proof.Machine.execFragmentDrained k s
  | .fragmentSend slot => Sys2Proof.Machine.execFragmentSend slot s
  | .txpAckTimer slot => Sys2Proof.Machine.execTxpAckTimer slot s
  | .gapNackTimer slot => Sys2Proof.Machine.execGapNackTimer slot s
  | .txpRetxTimer slot dseq => Sys2Proof.Machine.execTxpRetxTimer slot dseq s
  | .fullNackDelay slot dseq => Sys2Proof.Machine.execFullNackDelay slot dseq s
  | .probeIdle slot => Sys2Proof.Machine.execProbeIdle slot s
  | .partnerSilent slot => Sys2Proof.Machine.execPartnerSilent slot s
  | .wantTimer slot => Sys2Proof.Machine.execWantTimer slot s
  | .creditTimer slot => Sys2Proof.Machine.execCreditTimer slot s
  | .pacingIncrease slot => Sys2Proof.Machine.execPacingIncrease slot s
  | .rotateQuantum => Sys2Proof.Machine.execRotateQuantum s
  | .overcommitDecrease => Sys2Proof.Machine.execOvercommitDecrease s
  | .overcommitIncrease => Sys2Proof.Machine.execOvercommitIncrease s
  | .quarantineExpiry slot => Sys2Proof.Machine.execQuarantineExpiry slot s
  | .slotWindowWrite slot v => Sys2Proof.Machine.execSlotWindowWrite slot v s
  | .farPortDown port => Sys2Proof.Machine.execFarPortDown port s
  | .farPortUp port => Sys2Proof.Machine.execFarPortUp port s
  | .arpRequest port bs => Sys2Proof.Machine.execArpRequest port bs s
  | .packetTooBig port mtu slot => Sys2Proof.Machine.execPacketTooBig port mtu slot s
  | .farFrameDiscard port why => Sys2Proof.Machine.execFarFrameDiscard port why s
  | .helloResend slot => Sys2Proof.Machine.execHelloResend slot s
  | .handshakeRetry slot => Sys2Proof.Machine.execHandshakeRetry slot s
  | .handshakeTimeout slot => Sys2Proof.Machine.execHandshakeTimeout slot s
  | .previousKeyErase slot => Sys2Proof.Machine.execPreviousKeyErase slot s
  | .keyGenerate o ops => Sys2Proof.Machine.execKeyGenerate o ops s
  | .handshake o ops => Sys2Proof.Machine.execHandshake o ops s
  | .keyDestroy o ops => Sys2Proof.Machine.execKeyDestroy o ops s
  | .attest o ops => Sys2Proof.Machine.execAttest o ops s
  | .cipherSealRequest r => Sys2Proof.Machine.execCipherSealRequest r s
  | .cipherOpenRequest r => Sys2Proof.Machine.execCipherOpenRequest r s
  | .cipherSealComplete pair => Sys2Proof.Machine.execCipherSealComplete pair s
  | .pkScalarmult a => Sys2Proof.Machine.execPkScalarmult a s
  | .pkKeygen core => Sys2Proof.Machine.execPkKeygen core s
  | .pkEcdh a => Sys2Proof.Machine.execPkEcdh a s
  | .pkSign a => Sys2Proof.Machine.execPkSign a s
  | .pkVerify a => Sys2Proof.Machine.execPkVerify a s
  | .pkValidate a => Sys2Proof.Machine.execPkValidate a s
  | .pkHkdf core => Sys2Proof.Machine.execPkHkdf core s
  | .pkOperationComplete core => Sys2Proof.Machine.execPkOperationComplete core s
  | .entropyFail => Sys2Proof.Machine.execEntropyFail s
  | .fuseRevoke who v => Sys2Proof.Machine.execFuseRevoke who v s
  | .storageTargetAdd o ops => Sys2Proof.Machine.execStorageTargetAdd o ops s
  | .ckptWrite o ops => Sys2Proof.Machine.execCkptWrite o ops s
  | .ckptRead o ops => Sys2Proof.Machine.execCkptRead o ops s
  | .snapshot o ops => Sys2Proof.Machine.execSnapshot o ops s
  | .timeConfig o ops => Sys2Proof.Machine.execTimeConfig o ops s
  | .timerArm o ops => Sys2Proof.Machine.execTimerArm o ops s
  | .timerCancel o ops => Sys2Proof.Machine.execTimerCancel o ops s
  | .captureCfg o ops => Sys2Proof.Machine.execCaptureCfg o ops s
  | .timerExpiry t => Sys2Proof.Machine.execTimerExpiry t s
  | .ptpSync m => Sys2Proof.Machine.execPtpSync m s
  | .ptpFollowUp m => Sys2Proof.Machine.execPtpFollowUp m s
  | .ptpDelayResp m => Sys2Proof.Machine.execPtpDelayResp m s
  | .ptpAnnounce m => Sys2Proof.Machine.execPtpAnnounce m s
  | .referenceLoss => Sys2Proof.Machine.execReferenceLoss s
  | .holdoverLimit => Sys2Proof.Machine.execHoldoverLimit s
  | .ppsInEdge rising => Sys2Proof.Machine.execPpsInEdge rising s
  | .ppsMissing => Sys2Proof.Machine.execPpsMissing s
  | .ppsOutRise => Sys2Proof.Machine.execPpsOutRise s
  | .ppsOutFall => Sys2Proof.Machine.execPpsOutFall s
  | .captureEdge input rising => Sys2Proof.Machine.execCaptureEdge input rising s
  | .tclkDivWrite who v => Sys2Proof.Machine.execTclkDivWrite who v s
  | .tclkDividerStep wing => Sys2Proof.Machine.execTclkDividerStep wing s
  | .loanPolicy o ops => Sys2Proof.Machine.execLoanPolicy o ops s
  | .marginSweep o ops => Sys2Proof.Machine.execMarginSweep o ops s
  | .faultHistoryRead o ops => Sys2Proof.Machine.execFaultHistoryRead o ops s
  | .telemetryCfg o ops => Sys2Proof.Machine.execTelemetryCfg o ops s
  | .dumpRead o ops => Sys2Proof.Machine.execDumpRead o ops s
  | .faultRingRetire v => Sys2Proof.Machine.execFaultRingRetire v s
  | .handleMinExpiry k => Sys2Proof.Machine.execHandleMinExpiry k s
  | .suspicionDecay unit => Sys2Proof.Machine.execSuspicionDecay unit s
  | .reviewTestComplete unit pass => Sys2Proof.Machine.execReviewTestComplete unit pass s
  | .sevenArraySwitch tile => Sys2Proof.Machine.execSevenArraySwitch tile s
  | .tileRemap tile => Sys2Proof.Machine.execTileRemap tile s
  | .loanDue tile => Sys2Proof.Machine.execLoanDue tile s
  | .loanBoundary => Sys2Proof.Machine.execLoanBoundary s
  | .loanCopyComplete => Sys2Proof.Machine.execLoanCopyComplete s
  | .fieldTestComplete tile signature => Sys2Proof.Machine.execFieldTestComplete tile signature s
  | .loanDeferralExpiry => Sys2Proof.Machine.execLoanDeferralExpiry s
  | .replaySelect tile a => Sys2Proof.Machine.execReplaySelect tile a s
  | .replayCompare agrees => Sys2Proof.Machine.execReplayCompare agrees s
  | .secondReplayTimeout => Sys2Proof.Machine.execSecondReplayTimeout s
  | .spmScrub tile => Sys2Proof.Machine.execSpmScrub tile s
  | .laneRetrain port => Sys2Proof.Machine.execLaneRetrain port s
  | .telemetrySample sample => Sys2Proof.Machine.execTelemetrySample sample s
  | .flashSummaryWrite => Sys2Proof.Machine.execFlashSummaryWrite s
  | .debugUnlock o ops => Sys2Proof.Machine.execDebugUnlock o ops s
  | .coreHalt o ops => Sys2Proof.Machine.execCoreHalt o ops s
  | .coreHaltGrant c => Sys2Proof.Machine.execCoreHaltGrant c s
  | .haltForced c => Sys2Proof.Machine.execHaltForced c s
  | .coreResume o ops => Sys2Proof.Machine.execCoreResume o ops s
  | .regRead o ops => Sys2Proof.Machine.execRegRead o ops s
  | .debugPortRead off => Sys2Proof.Machine.execDebugPortRead off s
  | .debugPortWrite a => Sys2Proof.Machine.execDebugPortWrite a s
  | .powerClampEval sample average => Sys2Proof.Machine.execPowerClampEval sample average s
  | .thermalClampEval temps => Sys2Proof.Machine.execThermalClampEval temps s
  | .thermalTrip => Sys2Proof.Machine.execThermalTrip s
  | .railOutOfTolerance rail => Sys2Proof.Machine.execRailOutOfTolerance rail s
  | .entdaa a => Sys2Proof.Machine.execEntdaa a s
  | .setdasa a => Sys2Proof.Machine.execSetdasa a s
  | .rstdaa => Sys2Proof.Machine.execRstdaa s
  | .enec events => Sys2Proof.Machine.execEnec events s
  | .disec events => Sys2Proof.Machine.execDisec events s
  | .getpid => Sys2Proof.Machine.execGetpid s
  | .getbcr => Sys2Proof.Machine.execGetbcr s
  | .getdcr => Sys2Proof.Machine.execGetdcr s
  | .getstatus => Sys2Proof.Machine.execGetstatus s
  | .setmwl n => Sys2Proof.Machine.execSetmwl n s
  | .getmwl => Sys2Proof.Machine.execGetmwl s
  | .setmrl n => Sys2Proof.Machine.execSetmrl n s
  | .getmrl => Sys2Proof.Machine.execGetmrl s
  | .rstact action => Sys2Proof.Machine.execRstact action s
  | .readTelemetry => Sys2Proof.Machine.execReadTelemetry s
  | .readState => Sys2Proof.Machine.execReadState s
  | .setPwrLimit bs => Sys2Proof.Machine.execSetPwrLimit bs s
  | .readSummary bs => Sys2Proof.Machine.execReadSummary bs s
  | .flashWrite bs => Sys2Proof.Machine.execFlashWrite bs s
  | .flashCommit bs => Sys2Proof.Machine.execFlashCommit bs s
  | .warmReset bs => Sys2Proof.Machine.execWarmReset bs s
  | .extest => Sys2Proof.Machine.execExtest s
  | .idcode => Sys2Proof.Machine.execIdcode s
  | .samplePreload v => Sys2Proof.Machine.execSamplePreload v s
  | .highz => Sys2Proof.Machine.execHighz s
  | .clamp => Sys2Proof.Machine.execClamp s
  | .dbg => Sys2Proof.Machine.execDbg s
  | .bypass => Sys2Proof.Machine.execBypass s
  | .pwrgdDeassert => Sys2Proof.Machine.execPwrgdDeassert s
  | .railInTolerance rail => Sys2Proof.Machine.execRailInTolerance rail s
  | .pcieLinkTrained width speed => Sys2Proof.Machine.execPcieLinkTrained width speed s
  | .entropyTestsPassing => Sys2Proof.Machine.execEntropyTestsPassing s
  | .testLogicReset => Sys2Proof.Machine.execTestLogicReset s
  | .leaverTimeout slot => Sys2Proof.Machine.execLeaverTimeout slot s

end Sys2Proof.Machine
end

