-- ==== Sys2Proof/Safety.lean ====
section
/-! DEFINITION. The terms claims use: what a state keeps from one to the next, part by part, the states in
which no fatal cause waits, and the fuses that hardware can hold. -/

namespace Sys2Proof.Machine

/-- The parts of the device. -/
inductive Part where
  | regs | host | out | draws | cmd | hbm | hif | csv | tiles | pipes | pse | pseRem | cfi | rnd | wxu | sec | ckpt | tmu
  deriving DecidableEq, Repr

/-- Every part, once. -/
def allParts : List Part :=
  [.regs, .host, .out, .draws, .cmd, .hbm, .hif, .csv, .tiles, .pipes, .pse, .pseRem, .cfi, .rnd, .wxu, .sec, .ckpt, .tmu]

/-- One part of two devices is the same. -/
def Part.Same (a b : Dev) : Part → Prop
  | .regs => b.regs = a.regs
  | .host => b.host = a.host
  | .out => b.out = a.out
  | .draws => b.draws = a.draws
  | .cmd => b.cmd = a.cmd
  | .hbm => b.hbm = a.hbm
  | .hif => b.hif = a.hif
  | .csv => b.csv = a.csv
  | .tiles => b.tiles = a.tiles
  | .pipes => b.pipes = a.pipes
  | .pse => b.pse = a.pse
  | .pseRem => b.pseRem = a.pseRem
  | .cfi => b.cfi = a.cfi
  | .rnd => b.rnd = a.rnd
  | .wxu => b.wxu = a.wxu
  | .sec => b.sec = a.sec
  | .ckpt => b.ckpt = a.ckpt
  | .tmu => b.tmu = a.tmu

/-- From `s` to `t` only the parts `ps` of the device change: the waiting commands, the time base, the fuses,
the ordering code and every other part stay. -/
def OnlyParts (ps : List Part) (s t : State) : Prop :=
  t.pending = s.pending ∧ t.clock = s.clock ∧ t.fuses = s.fuses ∧ t.dev.code = s.dev.code ∧ ∀ p ∈ allParts, p ∉ ps → p.Same s.dev t.dev

/-- From `s` to `t` no register bit changes outside the fields `fs`. -/
def OnlyFields (fs : List FRef) (s t : State) : Prop :=
  ∀ off i, (∀ f ∈ fs, f.off = off → ¬ (f.lo ≤ i ∧ i ≤ f.hi)) → (t.dev.rd off).getLsbD i = (s.dev.rd off).getLsbD i

/-- No fatal cause waits for the fatal routine (R613), and no report of a memory controller waits to be made (R343,
R345, R346): both are served with the command that brings them, so no command leaves one behind. -/
def Calm (s : State) : Prop := s.dev.csv.fatal = 0 ∧ s.dev.hbm.notes = []

/-- Fuses that hardware can hold (R535, R635): a SVN of at most 64, and the four revocation bits. -/
def FusesOk (f : Fuses) : Prop := f.svn ≤ 64 ∧ f.revoked < 16

/-- Fuse bits that are blown in `a` are blown in `b`, and the SVN has not gone down (R535, R635). -/
def FusesOnlyBlown (a b : Fuses) : Prop := a.svn ≤ b.svn ∧ ∀ k, a.revoked.testBit k = true → b.revoked.testBit k = true

/-- The commands that may blow a fuse: an image that starts (FW_LOAD's as the command completes), a write of `HIF.FUSE_PROGRAM`, and the debug port,
which can write that register. -/
def mayBlowFuse : Instr → Bool
  | .commandCompletion _ | .rehangResume | .fuseRevoke .. | .registerWrite .. | .debugPortWrite .. => true
  | _ => false

/-- The commands that may reset the device, and with it the time base (R572, R630). -/
def mayReset : Instr → Bool
  | .coldReset | .perstAssert | .resetCtlWarm | .flrFunction0 _ | .warmReset _ => true
  | .registerWrite .host off _ => off == HIF.RESET_CTL.REG.off
  | _ => false

/-- The time base, in units of 2^−32 ns. -/
def timeOf (c : Clock) : Nat := c.ns * 2 ^ 32 + c.frac

/-- The device as a command meets it: its units see the time base (log 1). -/
def State.here (s : State) : Dev := { s.dev with now := s.clock.ns }

/-- A packet or mailbox command stands first among the commands in flight and has not run (R55, R71), in a state that
serves it (R72, R78). -/
def AtHead (s : State) (o : Origin) (opc : Nat) (ops : Bytes) : Prop :=
  (∃ f rest, s.dev.cmd.inflight = f :: rest ∧ f.isFor o opc ops = true) ∧ s.dev.serves o opc = true

/-- The command at the head leaves the commands in flight and completes with a result (R57). -/
def Dev.finish (d : Dev) (o : Origin) (opc : Nat) (r : Result) : Dev :=
  ({ d with cmd.inflight := d.cmd.inflight.eraseIdx 0 }).complete o opc true r

/-- The command at the head stays in flight with the result it will complete with: COMMAND_COMPLETION completes it
once its gate allows. -/
def Dev.hold (d : Dev) (r : Result) (g : Gate) (rs : List (Nat × Nat)) : Dev :=
  { d with cmd.inflight := d.cmd.inflight.modify 0 (fun f => { f with res := some r, gate := g, ranges := rs }) }

/-- The command at the head stays in flight until its unit ends it. -/
def Dev.toUnit (d : Dev) (rs : List (Nat × Nat)) : Dev :=
  { d with cmd.inflight := d.cmd.inflight.modify 0 (fun f => { f with gate := .unit, ranges := rs }) }

/-- Physical tile `t` issues an instruction `op` (R256, R262, R266): once its queue heads have moved (`d`) it is RUNNING, the context `c`
that holds issue has the word `w` with this opcode at its PC, inside the program, nothing holds its issue, its predicate passes, and the
tally it names is its job's. -/
def Issues (s : State) (t op : Nat) (d : Dev) (c : Bool) (w : Nat) : Prop :=
  t < 200 ∧ d = s.here.pump t ∧ c = d.ctx t ∧ w = smapGet zeroDflt (d.tile t).prog (d.pc t c) ∧ iOp w = op ∧ d.get (CMD.SEQ_STATE.STATE t) = tsRUNNING ∧
    d.pc t c < d.get (CMD.SEQ_PROG.COUNT t) ∧ (d.tile t).issueHeld c = false ∧ (c = false → (d.tile t).mbHold = false) ∧
    (c = true → d.flag (CMD.SEQ_STATE.ROUTINE t) = true) ∧ (d.tile t).rp c (iPred w) ≠ iPneg w ∧
    (iSig w = true ∨ op = 0x80 ∨ op = 0x82 → d.tallyOwned (insTally (d.tile t) c w) (d.tileJob t) = true)

/-- What follows an instruction that has issued: the counters, and whatever the queue heads now allow. -/
def issued (d : Dev) (t : Nat) (c : Bool) : Dev :=
  ((d.bump (CMD.SEQ_ISSUED.COUNT t) 1).when c (·.bump (CMD.SEQ_DEFER_ISSUED.COUNT t) 1)).pump t

/-- The rows that issue, with their opcodes (R267). -/
def issueRows (t : Nat) : List (Instr × Nat) :=
  [(.nopInstruction t, 0x00), (.alu t, 0x01), (.cmp t, 0x02), (.plog t, 0x03), (.aop t, 0x04), (.jmp t, 0x08), (.loop t, 0x09), (.mbbegin t, 0x10),
    (.mbend t, 0x11), (.defer t, 0x12), (.dret t, 0x13), (.dyield t, 0x14), (.haltp t, 0x15), (.mload t, 0x20), (.mstream t, 0x21), (.vrun t, 0x40),
    (.creset t, 0x41), (.cflush t, 0x42), (.dma t, 0x60), (.waitt t, 0x80), (.waitr t, 0x81), (.tadd t, 0x82), (.rel t, 0x83)]

end Sys2Proof.Machine
end

