-- ==== Sys2Proof/Certificates/Slice0/Obligations.lean ====
section
/-! DEFINITION. The statements for the provers. Each cites the rules it rests on; a state in which no fatal
cause waits is called calm (`Calm`), and `Obligations.NoFatalCauseWaits` says that every step leaves a calm
state calm. -/

open Sys2Proof Sys2Proof.Machine

/-- The cause a command that applies a warm reset records (R630, R644, R648): PERST# on its edge while PWRGD is
high, `HIF.RESET_CTL` by its own row or as a register write, WARM_RESET with its two bytes while PWRGD is high, a
late FLR or one in LOADING, REHANG or FATAL. -/
def warmCause (c : Instr) (s : State) : Option Nat :=
  match c with
  | .perstAssert => if s.dev.hif.pwrgd && !s.dev.hif.perst then some 1 else none
  | .resetCtlWarm => some 2
  | .registerWrite .host off v => if off = HIF.RESET_CTL.REG.off ∧ v.getLsbD 0 = true then some 2 else none
  | .warmReset bs => if s.dev.hif.pwrgd ∧ bs = [0x52, 0x57] then some 3 else none
  | .flrFunction0 late => if late ∨ s.dev.curator = curLOADING ∨ s.dev.curator = curREHANG ∨ s.dev.curator = curFATAL then some 4 else none
  | _ => none

/-- What both kinds of reset leave (R630, R572): the time base counts from 0, the curator state is ROM, the queue, the
fuses, host memory, flash, its boot record and fatal summaries, and the ordering code stay. -/
def AfterReset (s t : State) : Prop :=
  t.pending = s.pending ∧ t.clock = ⟨0, 0⟩ ∧ t.fuses = s.fuses ∧ t.dev.code = s.dev.code ∧ t.dev.curator = curROM ∧ t.dev.host = s.dev.host ∧
    t.dev.hif.flash = s.dev.hif.flash ∧ t.dev.hif.boot = s.dev.hif.boot ∧ t.dev.csv.fatals = s.dev.csv.fatals ∧
    t.dev.get SEC.FW_SVN.COUNT = s.dev.get SEC.FW_SVN.COUNT ∧ t.dev.get SEC.FW_ROOT_REVOKED.MASK = s.dev.get SEC.FW_ROOT_REVOKED.MASK ∧
    t.dev.cmd = CmdUnit.reset ∧ t.dev.tiles = [] ∧ t.dev.pse = [] ∧ t.dev.tmu = TmuUnit.reset ∧ t.dev.sec.keys = []

/-- Registers whose writes do more than set their fields; the statements about them stand with their units. -/
def effectRegs : List Nat :=
  [CMD.MBOX_OPCODE.REG.off, CMD.MBOX_FLAGS.REG.off, (CMD.MBOX_ARG.REG 0).off, CMD.MBOX_DOORBELL.REG.off, CMD.WDOG_PET.REG.off,
   (QSU.RING_HEAD.REG 0).off, (QSU.RING_TAIL.REG 0).off, (QSU.TALLY_VALUE.REG 0).off, (QSU.TALLY_ADD.REG 0).off, TMU.TCLK_DIV.REG.off,
   (WXU.SLOT_WINDOW.REG 0).off, CSV.FRING_HEAD.REG.off, (CMD.SEQ_CTRL.REG 0).off, (MXA.MAP.REG 0).off, (TDMA.CH_STATE.REG 0 0).off,
   (TCX.FAULT_STATUS.REG 0).off]

/-- What follows a PSE command of job `j`: the job's next commands run, and collectives that can start do. -/
def pseAfter (d : Dev) (j : Nat) : Dev := (d.pseDrain j).kick

/-- The rows of the public-key engine on core `c`, with the kinds of operation they start. -/
def pkRows (c slot : Nat) (x pt dg sg : Bytes) : List (Instr × PkKind) :=
  [(.pkScalarmult ⟨c, x, pt⟩, .scalarmult), (.pkKeygen c, .keygen), (.pkEcdh ⟨c, slot, pt⟩, .ecdh), (.pkSign ⟨c, slot, dg⟩, .sign),
    (.pkVerify ⟨c, pt, dg, sg⟩, .verify), (.pkValidate ⟨c, pt⟩, .validate), (.pkHkdf c, .hkdf)]

/-- What a checkpoint command lets go on: the job's PSE commands, the storage commands, and those behind them. -/
def storeAfter (d : Dev) (j : Nat) : Dev := (pseAfter d j).storeOn

/-- A transport frame that reaches its meaning (R393, R396, R397): on a port that is up, whole, for this device and its transport's port, of
its row's type; `d` has counted it. -/
def CellFrame (s : State) (port type : Nat) (bs : Bytes) (d : Dev) (f : TFrame) (ce : Bool) : Prop :=
  s.dev.cellUp port = true ∧ ∃ u d0, d0 = s.here.bump (CFI.PORT_RX.COUNT port) 1 ∧ readUdp6 bs = some u ∧ ce = u.ce ∧
    d = d0.when u.ce (·.bump (CFI.PORT_ECN.COUNT port) 1) ∧ u.dport = d.get CFI.CTL.UDP_PORT ∧ u.dst = d.cellIp port ∧ readTframe u.pay = some f ∧
    f.type = type ∧ f.dst = d.rank

/-- The rows of transport frames, with their types (R396). -/
def cellRows (port : Nat) (bs : Bytes) : List (Instr × Nat) :=
  [(.cfiData port bs, ftDATA), (.cfiAck port bs, ftACK), (.cfiReady port bs, ftREADY), (.cfiGrant port bs, ftGRANT), (.cfiCredit port bs, ftCREDIT)]

/-! ## The queue, the clock, the fuses, and every command -/

/-- The command at the front of the queue runs on the state with the queue's rest. -/
def Obligations.StepRunsFront : Prop :=
  ∀ (c : Instr) (rest : List Instr) (s : State), step { s with pending := c :: rest } = exec c { s with pending := rest }

/-- On an empty queue one TSCLK cycle passes (the model's choice, log 1): the time base adds 1 ns and the
servo's FREQ_ADJ, clamped to ±500 ppm, in units of 2^−32 ns (R570); nothing else changes. -/
def Obligations.IdleTicks : Prop :=
  ∀ s : State, s.pending = [] → ∃ t, step s = .next t ∧ t = { s with clock := t.clock } ∧
    ∃ adj : Int, (t.clock.ns : Int) * 2 ^ 32 + t.clock.frac = s.clock.ns * 2 ^ 32 + s.clock.frac + 2 ^ 32 + adj ∧
      t.clock.frac < 2 ^ 32 ∧ adj = max (-2147484) (min 2147484 (sext 32 (s.dev.get TMU.FREQ_ADJ.ADJ)))

/-- No command stops the device, and none touches the commands that wait behind it. -/
def Obligations.EveryCommandAnswers : Prop :=
  ∀ (c : Instr) (s : State), ∃ t, exec c s = .next t ∧ t.pending = s.pending

/-- The fatal routine runs with the command that raises its cause (R613): no step leaves a cause waiting. -/
def Obligations.NoFatalCauseWaits : Prop :=
  ∀ s t : State, Calm s → step s = .next t → Calm t

/-- Fuses are one-time programmable (R535, R635): no step clears one or lowers the SVN, and what they hold stays in their range. No other command
changes the fuses. -/
def Obligations.FusesStayBlown : Prop :=
  (∀ s t : State, FusesOk s.fuses → step s = .next t → FusesOk t.fuses ∧ FusesOnlyBlown s.fuses t.fuses) ∧
  (∀ (c : Instr) (s t : State), mayBlowFuse c = false → exec c s = .next t → t.fuses = s.fuses)

/-- The time base never goes back but at a reset (R570), and its fraction stays one. -/
def Obligations.TimeGoesForward : Prop :=
  ∀ s t : State, (∀ c ∈ s.pending.head?, mayReset c = false) → s.clock.frac < 2 ^ 32 → step s = .next t →
    timeOf s.clock ≤ timeOf t.clock ∧ t.clock.frac < 2 ^ 32

/-- The state after reset: nothing waits, the time base stands at 0, no fatal cause waits, the fuses are
possible ones, the curator state reads ROM, and memory lists nothing. -/
def Obligations.ResetState : Prop :=
  State.reset.pending = [] ∧ State.reset.clock = ⟨0, 0⟩ ∧ Calm State.reset ∧ FusesOk State.reset.fuses ∧
    State.reset.dev.curator = curROM ∧ State.reset.dev.hbm.mem = [] ∧ State.reset.dev.get HIF.RESET_CAUSE.CAUSE = 0

/-! ## Resets, pins, supplies, clamps -/

/-- A warm reset: HBM keeps its bytes and the state of its codewords, the cause reads back, and the last fatal cause stays (R81, R630, R656). A cold
reset: HBM is lost as well (it reads what memory that nothing has written reads, log 3), the cause reads 0 and no fatal cause is kept (R630). -/
def Obligations.Resets : Prop :=
  (∀ (c : Instr) (s : State) (cause : Nat), warmCause c s = some cause → ∃ t, exec c s = .next t ∧ AfterReset s t ∧
    t.dev.get HIF.RESET_CAUSE.CAUSE = cause ∧ t.dev.hbm.mem = s.dev.hbm.mem ∧ t.dev.hbm.cw = s.dev.hbm.cw ∧ t.dev.hbm.frames = [] ∧
    t.dev.get CMD.FATAL_CAUSE.STATUS = s.dev.get CMD.FATAL_CAUSE.STATUS ∧ (c = .perstAssert → t.dev.hif.perst = true)) ∧
  (∀ s : State, ∃ t, exec .coldReset s = .next t ∧ AfterReset s t ∧ t.dev.get HIF.RESET_CAUSE.CAUSE = 0 ∧ t.dev.hbm = HbmUnit.reset ∧
    t.dev.hif.pwrgd = true ∧ t.dev.get CMD.FATAL_CAUSE.STATUS = 0)

/-- An FLR of function 0 that the curator firmware carries out (R630): BAR2, the MSI-X table and its enables return
to their reset values, every page is unmapped and every frame free, and the cell's cross-job state goes: every
checkpoint command is dropped. Time, fuses and the queue stay. -/
def Obligations.FlrOfFunction0 : Prop :=
  ∀ s : State, Calm s → s.dev.curator = curRUNNING → ∃ t, exec (.flrFunction0 false) s = .next (s.onDev fun _ => t) ∧
    t.hif.memEn = false ∧ t.hif.msixEn0 = false ∧ t.hif.bar2Log2 = 28 ∧ t.get HIF.BAR2_CTL.DOMAIN = 0 ∧ t.get HIF.BAR2_BASE_LO.ADDR = 0 ∧
    (∀ v, t.rd (HIF.MSIX_ADDR_LO.REG v).off = regReset (HIF.MSIX_ADDR_LO.REG v).off ∨ 2048 ≤ v) ∧
    t.hbm.leaves = [] ∧ t.hbm.caches = [] ∧ t.hbm.limbo = [] ∧ ∀ pfn, (t.frame pfn).used = false

/-- The pins that set one register or one unit field and nothing else (R568, R625, R630, R636, R637): PLL lock, a PCIe link of a width and speed that
R625 allows, a rail entering or leaving its tolerance, PWRGD falling, the entropy source passing its tests, and an FLR of function 1. PERST#
deasserted (R631, R646): the pin and its time; an instruction that drives the pins ends, another stays. The fatal pins (R568, R613, R641): a lost
reference clock of a locked PLL, and a thermal trip. The device enters FATAL with the cause in `CMD.FATAL_CAUSE`. -/
def Obligations.Pins : Prop :=
  ((∀ s, Calm s → exec .pllLock s = .next { s with dev := { s.dev with now := s.clock.ns }.set TMU.STATE.PLL_LOCKED 1 }) ∧
  (∀ s width speed, Calm s → width ∈ [1, 2, 4, 8, 16] → 1 ≤ speed → speed ≤ 6 →
    exec (.pcieLinkTrained width speed) s =
      .next { s with dev := ({ s.dev with now := s.clock.ns }.set HIF.LINK.WIDTH width).set HIF.LINK.SPEED speed }) ∧
  (∀ s rail, Calm s → rail < 11 → ∀ ok : Bool, ∃ t,
    exec (if ok then .railInTolerance rail else .railOutOfTolerance rail) s = .next t ∧
      OnlyParts [.regs] s t ∧ OnlyFields [⟨HIF.RAIL_STATUS.REG.off, rail, rail⟩] s t ∧ (t.dev.rd HIF.RAIL_STATUS.REG.off).getLsbD rail = ok) ∧
  (∀ s, Calm s → exec .pwrgdDeassert s = .next { s with dev := { s.dev with now := s.clock.ns, hif.pwrgd := false } }) ∧
  (∀ s, Calm s → exec .entropyTestsPassing s = .next { s with dev := { s.dev with now := s.clock.ns }.set SEC.STATE.ENTROPY_OK 1 }) ∧
  (∀ s, Calm s → exec .flrFunction1 s =
    .next { s with dev := { s.dev with now := s.clock.ns, hif.fn1 := [], hif.msixEn1 := false, hif.msixMask1 := false } })) ∧
  (∀ s, Calm s → ∃ t, exec .perstDeassert s = .next t ∧ OnlyParts [.hif] s t ∧ t.dev.hif.perst = false ∧ t.dev.hif.perstAt = s.clock.ns ∧
    (if s.dev.hif.jtag.ir ∈ [0x00, 0x03, 0x04] then t.dev.hif.jtag.ir = 0xFF ∧ t.dev.hif.jtag.pins = 0 else t.dev.hif.jtag = s.dev.hif.jtag)) ∧
  ((∀ s, Calm s → s.dev.get TMU.STATE.PLL_LOCKED = 1 → ∃ t, exec .refclkLost s = .next t ∧ t.dev.curator = curFATAL ∧
    t.dev.get CMD.FATAL_CAUSE.STATUS = 0x0810 ∧ Calm t ∧ t.clock = s.clock ∧ t.fuses = s.fuses) ∧
  (∀ s, Calm s → ∃ t, exec .thermalTrip s = .next t ∧ t.dev.curator = curFATAL ∧
    t.dev.get CMD.FATAL_CAUSE.STATUS = 0x0706 ∧ Calm t ∧ t.clock = s.clock ∧ t.fuses = s.fuses))

/-- The boot ROM after PLL lock in state ROM, once after a reset (R632): stack 0 failing its training stops the
boot in ROM with its bit set; else the identity key is loaded and the PREFERRED slot, while it has tries left, loses
one and is tried first, then the other. The image that a slot gives runs from LOADING: it reaches RUNNING with its version and key index,
the slot's tries read 3 and the boot status names the slot (the second event of the boot is the model's choice, log 41). -/
def Obligations.BootRom : Prop :=
  (∀ s trained, Calm s → s.dev.curator = curROM → s.dev.get TMU.STATE.PLL_LOCKED ≠ 0 → s.dev.get SEC.STATE.DIK_LOADED = 0 → s.dev.hif.booting = none →
    ∃ d1 : Dev, d1 = (({ s.dev with now := s.clock.ns }.trainStacks trained).setKey 0 0 (some ⟨.identity, false⟩)).set SEC.STATE.DIK_LOADED 1 ∧
      exec (.bootRomStart trained) s = .next (s.onDev fun _ =>
        if d1.stackFailed 0 then d1.set HIF.BOOT_STATUS.STACK0_FAILED 1
        else
          let r := d1.hif.boot
          let first := if (if r.preferB then r.triesB else r.triesA) ≠ 0 then r.preferB else !r.preferB
          let r' := if first then { r with triesB := r.triesB - 1 } else { r with triesA := r.triesA - 1 }
          let try1 := { d1 with hif.boot := r', hif.committed := none }.trySlot first
          if try1.2 then try1.1 else (try1.1.trySlot !first).1)) ∧
  (∀ (d e : Dev) b n, n = (imageLen (d.flashRd b)).getD 256 →
    e = d.storeVia imageArea n (fun d => { d with hbm.mem := memCopy d.hif.flash (if b then 0x2000000 else 0) d.hbm.mem imageArea n }) →
    (∀ im, e.verifyImage (e.flashRd b) none = .ok im →
      d.trySlot b = ({ e with cmd.staged := some im, hif.booting := some b }.set CMD.CURATOR_STATE.STATE curLOADING, true)) ∧
    (∀ st, e.verifyImage (e.flashRd b) none = .error st → d.trySlot b = (e.set HIF.BOOT_STATUS.FAIL_STATUS st, false))) ∧
  (∀ s trained b im, Calm s → s.dev.hif.booting = some b → s.dev.cmd.staged = some im → s.dev.curator = curLOADING →
    ∃ t : Dev, exec (.bootRomStart trained) s = .next (s.onDev fun _ => t) ∧ t.curator = curRUNNING ∧ t.cmd.image = some im ∧ t.cmd.staged = none ∧
      t.hif.booting = none ∧ (if b then t.hif.boot.triesB else t.hif.boot.triesA) = 3 ∧ t.get HIF.BOOT_STATUS.FROM_FLASH = 1 ∧
      t.get HIF.BOOT_STATUS.SLOT = b2n b)

/-- The limit in force (R638) is the least of TDP, the host's limit and the management limit, each counted as TDP when it is 0 or above TDP, and as
half of TDP when it is below that. The power clamp (R638, R639): a sample above 1.2 × TDP, or an average above the limit in force, raises the minimum
divider by one step, to 16 at most. The thermal clamp of one wing (R640): above the limit it requires a divider one step above the wing's minimum, to
16 at most; between the limit and 3 °C below it, it holds what it has. -/
def Obligations.ClampEvaluations : Prop :=
  (∀ d : Dev, ∃ f : Nat → Nat, d.powerLimit = min (tdp d.code) (min (f (d.get HIF.PWR_LIMIT.WATTS)) (f (d.get HIF.PWR_LIMIT_MGMT.WATTS))) ∧
    (∀ w, w = 0 ∨ tdp d.code < w → f w = tdp d.code) ∧ (∀ w, 0 < w → 2 * w < tdp d.code → 2 * f w = tdp d.code) ∧
    (∀ w, tdp d.code ≤ 2 * w → w ≤ tdp d.code → f w = w)) ∧
  (∀ s sample average, Calm s → (s.dev.powerLimit < average ∨ 12 * tdp s.dev.code < 10 * sample) →
    ∃ t, exec (.powerClampEval sample average) s = .next t ∧ t.dev.hif.powerMin = min 16 (s.dev.hif.powerMin + 1) ∧
      t.dev.hif.powerCalm = 0 ∧ OnlyParts [.regs, .hif, .out] s t) ∧
  (∀ s (temp : Int), Calm s → ∃ t, exec (.thermalClampEval [temp]) s = .next t ∧
    (100 * (s.dev.get HIF.THERM_CTL.CLAMP_C : Int) < temp → t.dev.thermMinOf 0 = min 16 (max s.dev.hif.powerMin (s.dev.thermMinOf 0) + 1)) ∧
    (temp ≤ 100 * (s.dev.get HIF.THERM_CTL.CLAMP_C : Int) → 100 * ((s.dev.get HIF.THERM_CTL.CLAMP_C : Int) - 3) ≤ temp →
      t.dev.thermMinOf 0 = s.dev.thermMinOf 0) ∧
    (∀ w, w ≠ 0 → t.dev.thermMinOf w = s.dev.thermMinOf w) ∧ OnlyParts [.regs, .hif, .out] s t)

/-! ## The I3C target and JTAG -/

/-- The common command codes (R643, R645), served in every curator state: the first assignment of a dynamic address holds until RSTDAA, ENEC and DISEC
set the in-band interrupt enable, the lengths are at most 260 bytes, and reads give two bytes (most significant first: PRESUMED, log 35). GETSTATUS's
two bytes are free (log 2). The private commands (R644), in every curator state while PWRGD is high: the latest sample; the 16 bytes of the state; the
management power limit; a block of a summary that exists; 256 bytes into the slot that did not boot the image; a commit answers 0 and makes the slot
PREFERRED with three tries, or answers 1 and changes nothing. While PWRGD is low none is answered (R643). JTAG instructions (R646): EXTEST, HIGHZ and
CLAMP take effect only while PERST# is asserted and select BYPASS otherwise; IDCODE is selected at test-logic reset and shifts out 0xB720_856B;
SAMPLE/PRELOAD takes the outputs to drive and gives three bytes of levels, free values (log 2). -/
def Obligations.ManagementPorts : Prop :=
  (∀ s, Calm s →
    (∀ a, s.dev.hif.i3c.dynAddr = none → exec (.entdaa a) s = .next { s with dev := { s.here with hif.i3c.dynAddr := some a } } ∧
      exec (.setdasa a) s = .next { s with dev := { s.here with hif.i3c.dynAddr := some a } }) ∧
    (∀ a x, s.dev.hif.i3c.dynAddr = some a → exec (.entdaa x) s = .next { s with dev := s.here } ∧ exec (.setdasa x) s = .next { s with dev := s.here }) ∧
    exec .rstdaa s = .next { s with dev := { s.here with hif.i3c.dynAddr := none } } ∧
    (∀ e, e % 2 = 1 → exec (.enec e) s = .next { s with dev := { s.here with hif.i3c.ibiEn := true } } ∧
      exec (.disec e) s = .next { s with dev := { s.here with hif.i3c.ibiEn := false } }) ∧
    (∀ e, e % 2 = 0 → exec (.enec e) s = .next { s with dev := s.here } ∧ exec (.disec e) s = .next { s with dev := s.here }) ∧
    (∀ n, exec (.setmwl n) s = .next { s with dev := { s.here with hif.i3c.mwl := min n 260 } } ∧
      exec (.setmrl n) s = .next { s with dev := { s.here with hif.i3c.mrl := min n 260 } }) ∧
    (∀ n, exec (.rstact n) s = .next { s with dev := { s.here with hif.i3c.rstact := n } }) ∧
    exec .getpid s = .next { s with dev := s.here.emit (.data (beBytes 6 Config.i3cPid.toNat)) } ∧
    exec .getbcr s = .next { s with dev := s.here.emit (.data [Config.i3cBcr]) } ∧
    exec .getdcr s = .next { s with dev := s.here.emit (.data [Config.i3cDcr]) } ∧
    exec .getmwl s = .next { s with dev := s.here.emit (.data (beBytes 2 s.dev.hif.i3c.mwl)) } ∧
    exec .getmrl s = .next { s with dev := s.here.emit (.data (beBytes 2 s.dev.hif.i3c.mrl)) } ∧
    (∃ a b, exec .getstatus s = .next { s with dev := { s.here with draws := s.dev.draws + 1 }.emit (.data [a, b]) })) ∧
  ((∀ s, Calm s → s.dev.hif.pwrgd = true →
    exec .readTelemetry s = .next { s with dev := s.here.emit (.data (slice s.dev.csv.lastSample 0 128)) } ∧
    exec .readState s = .next { s with dev := s.here.emit (.data (leBytes 1 s.dev.curator ++ leBytes 2 (s.dev.get CMD.FATAL_CAUSE.STATUS) ++
      leBytes 4 (assembly s.dev.code) ++ leBytes 2 s.dev.powerLimit ++
      leBytes 1 (b2n (wings.any s.dev.powerHolds) + 2 * b2n (wings.any s.dev.thermHolds)) ++ zeros 6)) } ∧
    (∀ bs, exec (.setPwrLimit bs) s = .next { s with dev := s.here.set HIF.PWR_LIMIT_MGMT.WATTS (le bs 0 2) }) ∧
    (∀ bs sum, s.dev.csv.fatals[le bs 0 1]? = some sum → le bs 1 2 < 16 →
      exec (.readSummary bs) s = .next { s with dev := s.here.emit (.data (slice sum (256 * le bs 1 2) 256)) }) ∧
    (∀ bs b, b = s.dev.spareSlot → le bs 0 4 % 256 = 0 → le bs 0 4 < 0x2000000 → s.dev.hif.committed ≠ some b →
      exec (.flashWrite bs) s =
        .next { s with dev := { s.here with hif.flash := memWrite s.dev.hif.flash (slotBase b + le bs 0 4) (slice bs 4 256) } }) ∧
    (∀ bs b h blk, b = s.dev.spareSlot → imageParts (s.dev.flashRd b) = some (h, blk, le bs 0 4) →
      exec (.flashCommit bs) s = .next { s with dev := { s.here with
        hif.committed := some b, hif.boot := { s.dev.hif.boot.setTries b 3 with preferB := b } }.emit (.data [0]) }) ∧
    (∀ bs, (∀ h blk, imageParts (s.dev.flashRd s.dev.spareSlot) ≠ some (h, blk, le bs 0 4)) →
      exec (.flashCommit bs) s = .next { s with dev := s.here.emit (.data [1]) })) ∧
  (∀ s bs c, Calm s → s.dev.hif.pwrgd = false → c ∈ [.readTelemetry, .readState, .setPwrLimit bs, .readSummary bs, .flashWrite bs, .flashCommit bs] →
    exec c s = .next { s with dev := s.here })) ∧
  (∀ s, Calm s →
    (s.dev.hif.perst = true →
      exec .extest s = .next { s with dev := { s.here with hif.jtag.ir := 0x00, hif.jtag.pins := 1 } } ∧
      exec .highz s = .next { s with dev := { s.here with hif.jtag.ir := 0x03, hif.jtag.pins := 2 } } ∧
      exec .clamp s = .next { s with dev := { s.here with hif.jtag.ir := 0x04, hif.jtag.pins := 3 } }) ∧
    (s.dev.hif.perst = false → ∀ c ∈ [.extest, .highz, .clamp], exec c s = exec .bypass s) ∧
    exec .bypass s = .next { s with dev := { s.here with hif.jtag.ir := 0xFF, hif.jtag.pins := 0 } } ∧
    exec .dbg s = .next { s with dev := { s.here with hif.jtag.ir := 0x10, hif.jtag.pins := 0 } } ∧
    exec .testLogicReset s = .next { s with dev := { s.here with hif.jtag.ir := 0x01, hif.jtag.pins := 0 } } ∧
    exec .idcode s = .next { s with dev := { s.here with hif.jtag.ir := 0x01, hif.jtag.pins := 0 }.emit (.data [0x6B, 0x85, 0x20, 0xB7]) } ∧
    (∀ v, ∃ bs : Bytes, bs.length = 3 ∧ exec (.samplePreload v) s =
      .next { s with dev := { s.here with draws := s.dev.draws + 1, hif.jtag.preload := v, hif.jtag.ir := 0x02, hif.jtag.pins := 0 }.emit (.data bs) }))

/-! ## Register accesses, configuration requests, BAR2, the debug port -/

/-- A register write (R11, R12): a reserved offset, a debug copy, the block of an absent port and a register
that this agent may not write ignore it; any other register without an effect of its own takes it field by
field: RW fields take the value while it is in their range, W1C fields clear where it has ones, and RO, RC and
reserved bits stay. A tile's region registers and the MSI-X table have effects of their own; the ceilings of the
retransmission timers have floors (R426, R503). -/
def Obligations.RegisterWrites : Prop :=
  (∀ s who off v, Calm s → off ≠ HIF.FUSE_PROGRAM.REG.off → off ≠ HIF.RESET_CTL.REG.off →
    (portAbsent s.dev.code off = true ∨ (findReg off = none ∧ (winOf off = none ∨ who = .host)) ∨
      ∃ r k, findReg off = some (r, k) ∧ mayWrite who r.writer = false) →
    exec (.registerWrite who off v) s = .next { s with dev := s.here }) ∧
  (∀ s who off v r k, Calm s → portAbsent s.dev.code off = false → findReg off = some (r, k) → mayWrite who r.writer = true →
    off ≠ HIF.FUSE_PROGRAM.REG.off → off ≠ HIF.RESET_CTL.REG.off → off ≠ CFI.RTO_MAX.REG.off → off ≠ WXU.RTO_MAX.REG.off →
    r.base ∉ effectRegs → ¬ ((regionOf ((off - 0x01000000) / 0x10000) off).isSome ∧ (SPM.REGION_BASE.REG 0 0).off ≤ r.base) → ¬ (0x10000 ≤ off ∧ off < 0x18000) →
    exec (.registerWrite who off v) s =
      .next { s with dev := s.here.wr off (r.flds.foldl (fun w f =>
        let x := fieldOf v f.hi f.lo
        if f.ty = .rw ∧ f.least ≤ x ∧ x ≤ f.most then withField w f.hi f.lo x
        else if f.ty = .w1c then withField w f.hi f.lo (fieldOf w f.hi f.lo &&& (2 ^ (f.hi + 1 - f.lo) - 1 - x)) else w) (s.dev.rd off)) })

/-- Reads that clear (R12, R589): every RC field of the register returns to its reset value and no other register
changes; `TMU.TIME_LO` latches the high word; a capture's pop gives the oldest stamp and latches its high word,
and 0 on an empty FIFO. -/
def Obligations.ClearingReads : Prop :=
  (∀ s off r k, Calm s → findReg off = some (r, k) → regHasRc r = true → r.base ≠ TMU.TIME_LO.REG.off → r.base ≠ (TMU.CAP_POP_LO.REG 0).off →
    ∃ t v, exec (.readClearRegister off) s = .next t ∧ t.dev.out = .reg v :: s.dev.out ∧
      (∀ i, (rsvBits off).testBit i = false → i < 32 → v.getLsbD i = (s.here.regView off).getLsbD i) ∧
      t.dev.rd off = r.flds.foldl (fun w f => if f.ty = .rc then withField w f.hi f.lo f.rst else w) (s.dev.rd off) ∧
      (∀ o, o ≠ off → t.dev.rd o = s.dev.rd o) ∧ OnlyParts [.regs, .out, .draws, .csv] s t) ∧
  (∀ s, Calm s → exec .timeLoRead s =
    .next { s with dev := (s.here.set TMU.TIME_HI_LATCH.NS (s.clock.ns / 2 ^ 32)).emit (.reg (BitVec.ofNat 32 (s.clock.ns % 2 ^ 32))) }) ∧
  (∀ s i t ts, Calm s → i < 5 → (s.dev.cap i).fifo = t :: ts → exec (.capPopRead i) s =
    .next { s with dev := ((s.here.setCap i { s.dev.cap i with fifo := ts }).set (TMU.CAP_POP_HI.NS i) (t / 2 ^ 32)).emit
                          (.reg (BitVec.ofNat 32 (t % 2 ^ 32))) }) ∧
  (∀ s i, Calm s → i < 5 → (s.dev.cap i).fifo = [] → exec (.capPopRead i) s = .next { s with dev := s.here.emit (.reg 0) })

/-- The MSI-X tables (R624, R629): a write to a table entry changes its fields and sends what is pending and unmasked. Configuration requests (R631):
none is answered while PERST# is asserted; function 0 answers with Request Retry Status for 20 ms after its deassertion; then both functions answer.
BAR2 (R628, R343): in ROM and FATAL an offset is a flat address; elsewhere a request is translated and checked in `BAR2_CTL`'s domain. What is
refused, or meets an uncorrectable codeword, reads as all ones; a refused write is discarded. -/
def Obligations.HostRequests : Prop :=
  ((∀ s off v r k, Calm s → 0x10000 ≤ off → off < 0x18000 → off % 4 = 0 → portAbsent s.dev.code off = false → findReg off = some (r, k) →
    mayWrite .host r.writer = true → 0x10000 ≤ r.base → r.base < 0x10010 → r.base ∉ effectRegs →
    exec (.msixTableWrite 0 off v) s = .next (s.onDev fun d => (d.wr off (r.flds.foldl (fldWrite v) (d.rd off))).sendPending)) ∧
  (∀ s v, Calm s → v < 8 → s.dev.hif.msixEn1 = true → s.dev.hif.msixMask1 = false → (s.dev.fn1Rd 0x18000) = BitVec.ofNat 32 (2 ^ v) →
    ∃ t, exec (.msixTableWrite 1 (0x1000C + 16 * v) 0) s = .next t ∧
      t.dev.out = .msix 1 v ((s.dev.fn1Rd (0x10000 + 16 * v)).toNat / 4 * 4 + (s.dev.fn1Rd (0x10004 + 16 * v)).toNat * 2 ^ 32)
        (s.dev.fn1Rd (0x10008 + 16 * v)).toNat :: s.dev.out ∧
      t.dev.fn1Rd 0x18000 = 0 ∧ OnlyParts [.hif, .out] s t)) ∧
  (∀ s, Calm s →
    (∀ fn rq, s.dev.hif.perst = true → exec (.configRequest fn rq) s = .next { s with dev := s.here }) ∧
    (s.dev.hif.perst = false →
      (∀ rq, s.clock.ns < s.dev.hif.perstAt + 20000000 → exec (.configRequest 0 rq) s = .next { s with dev := s.here.emit .retry }) ∧
      (∀ fn, (fn = 0 ∧ s.dev.hif.perstAt + 20000000 ≤ s.clock.ns) ∨ fn = 1 →
        exec (.configRequest fn .readId) s = .next { s with dev := s.here.emit (.config 0xB072081E5A) } ∧
        exec (.configRequest fn .readSerial) s = .next { s with dev := s.here.emit (.config Config.serial.toNat) }) ∧
      (s.dev.hif.perstAt + 20000000 ≤ s.clock.ns →
        (∀ on, exec (.configRequest 0 (.setMemory on)) s = .next { s with dev := { s.here with hif.memEn := on } }) ∧
        (∀ n, s.dev.hif.memEn = false → 28 ≤ n → n ≤ 36 → exec (.configRequest 0 (.resizeBar2 n)) s = .next { s with dev := { s.here with hif.bar2Log2 := n } }) ∧
        (∀ d3, exec (.configRequest 0 (.setPower d3)) s = .next { s with dev := { s.here with hif.d3hot := d3 } })))) ∧
  (∀ s x n bs, x + n ≤ 2 ^ s.dev.hif.bar2Log2 → bs.length = n →
    (s.dev.curator = curROM ∨ s.dev.curator = curFATAL →
      ((s.here.readSegs [(x, n)]).2 = none →
        exec (.bar2Read x n) s = .next (s.onDev fun d => (d.readSegs [(x, n)]).1.emit (.data ((d.readSegs [(x, n)]).1.segRead [(x, n)])))) ∧
      exec (.bar2Write x bs) s = .next (s.onDev fun d => d.store x bs)) ∧
    (∀ d1, s.here.bar2Segs 1 x n = (d1, none) → exec (.bar2Read x n) s = .next (s.onDev fun _ => d1.emit (.data (List.replicate n 0xFF)))) ∧
    (∀ d1 segs o, s.here.bar2Segs 1 x n = (d1, some segs) → (d1.readSegs segs).2 = some o →
      exec (.bar2Read x n) s = .next (s.onDev fun _ => (d1.readSegs segs).1.emit (.data (List.replicate n 0xFF)))) ∧
    (∀ d1 segs, s.here.bar2Segs 1 x n = (d1, some segs) → (d1.readSegs segs).2 = none →
      exec (.bar2Read x n) s = .next (s.onDev fun _ => (d1.readSegs segs).1.emit (.data ((d1.readSegs segs).1.segRead segs)))) ∧
    (∀ d1, s.here.bar2Segs 2 x n = (d1, none) → exec (.bar2Write x bs) s = .next (s.onDev fun _ => d1)) ∧
    (∀ d1 segs, s.here.bar2Segs 2 x n = (d1, some segs) → exec (.bar2Write x bs) s = .next (s.onDev fun _ => d1.storeSegs segs bs)))

/-- The debug access port (R617, R619): while JTAG selects it, a register read at level OBSERVE and above has no side
effect, and at level FULL registers and memory by flat address are written and read; a level too low answers
0x0901. -/
def Obligations.DebugPort : Prop :=
  ∀ s, Calm s → s.dev.dbgSelected = true →
    (∀ off, s.dev.dbgLevel = 0 → exec (.debugPortRead off) s = .next { s with dev := s.here.emit (.status 0x0901) }) ∧
    (∀ off, 1 ≤ s.dev.dbgLevel → ∃ v t, exec (.debugPortRead off) s = .next t ∧ t.dev.out = .reg v :: s.dev.out ∧ OnlyParts [.out, .draws] s t ∧
      ∀ i, (rsvBits (primaryOf off)).testBit i = false → i < 32 → v.getLsbD i = (s.here.regView (primaryOf off)).getLsbD i) ∧
    (∀ a, s.dev.dbgLevel < 3 → exec (.debugPortWrite a) s = .next { s with dev := s.here.emit (.status 0x0901) }) ∧
    (s.dev.dbgLevel = 3 →
      (∀ off v, exec (.debugPortWrite (.reg off v)) s = exec (.registerWrite (.core 0) off v) s) ∧
      (∀ flat bs, exec (.debugPortWrite (.memWrite flat bs)) s = .next (s.onDev fun d => d.store flat bs)) ∧
      (∀ flat n, (s.here.readSegs [(flat, n)]).2 = none → exec (.debugPortWrite (.memRead flat n)) s =
        .next (s.onDev fun d => (d.readSegs [(flat, n)]).1.emit (.data ((d.readSegs [(flat, n)]).1.rawRead flat n)))))

/-! ## The mailbox, rings, tallies, events -/

/-- The mailbox registers (R70, R71): opcode and arguments take a write while the result is not PENDING, else it is ignored and sets DROPPED; a write
of FLAGS sets IRQ_EN, and 1 to DROPPED clears it. The doorbell (R71, R72): it latches opcode and arguments and sets the result to PENDING with its
data 0; in ROM, RUNNING and FATAL the command goes in flight or is refused with 0x0105 or 0x0101, in LOADING and REHANG it is held until the state has
left them. While the result is PENDING the write sets DROPPED alone. A held mailbox command is served once the state has left LOADING and REHANG
(R72), and waits until then. -/
def Obligations.Mailbox : Prop :=
  (∀ s, Calm s →
    (∀ v, s.dev.get CMD.MBOX_RESULT.STATUS ≠ 1 →
      exec (.mboxRegisterWrite CMD.MBOX_OPCODE.REG.off v) s = .next { s with dev := s.here.wr CMD.MBOX_OPCODE.REG.off (v &&& 0xFFFF) }) ∧
    (∀ v i, i < 12 → s.dev.get CMD.MBOX_RESULT.STATUS ≠ 1 →
      exec (.mboxRegisterWrite (CMD.MBOX_ARG.REG i).off v) s = .next { s with dev := s.here.wr (CMD.MBOX_ARG.REG i).off v }) ∧
    (∀ v off, s.dev.get CMD.MBOX_RESULT.STATUS = 1 → (off = CMD.MBOX_OPCODE.REG.off ∨ ∃ i < 12, off = (CMD.MBOX_ARG.REG i).off) →
      exec (.mboxRegisterWrite off v) s = .next { s with dev := s.here.set CMD.MBOX_FLAGS.DROPPED 1 }) ∧
    (∀ v : Reg, ∃ t, exec (.mboxRegisterWrite CMD.MBOX_FLAGS.REG.off v) s = .next t ∧ OnlyParts [.regs] s t ∧
      OnlyFields [CMD.MBOX_FLAGS.IRQ_EN, CMD.MBOX_FLAGS.DROPPED] s t ∧ t.dev.flag CMD.MBOX_FLAGS.IRQ_EN = v.getLsbD 1 ∧
      t.dev.flag CMD.MBOX_FLAGS.DROPPED = (s.dev.flag CMD.MBOX_FLAGS.DROPPED && !v.getLsbD 0))) ∧
  (∀ s (v : Reg), v.getLsbD 0 = true →
    (s.dev.get CMD.MBOX_RESULT.STATUS = 1 → exec (.mboxDoorbell v) s = .next (s.onDev (·.set CMD.MBOX_FLAGS.DROPPED 1))) ∧
    (s.dev.get CMD.MBOX_RESULT.STATUS ≠ 1 →
      ∃ (d1 : Dev) (m : MboxCmd), m.opcode = s.dev.get CMD.MBOX_OPCODE.OPCODE ∧
        m.args = (List.range 12).flatMap (fun i => leBytes 4 (s.dev.get (CMD.MBOX_ARG.VALUE i))) ∧ OnlyParts [.regs] s { s with dev := d1 } ∧
        d1.get CMD.MBOX_RESULT.STATUS = 1 ∧ d1.get CMD.MBOX_DATA0.VALUE = 0 ∧ d1.get CMD.MBOX_DATA1.VALUE = 0 ∧
        (∀ i < 8, d1.get (CMD.MBOX_DATA.VALUE i) = 0) ∧
        (∀ off, off ≠ CMD.MBOX_RESULT.REG.off → off ≠ CMD.MBOX_DATA0.REG.off → off ≠ CMD.MBOX_DATA1.REG.off → (∀ i < 8, off ≠ (CMD.MBOX_DATA.REG i).off) →
          d1.rd off = s.dev.rd off) ∧
        (s.dev.curator = curLOADING ∨ s.dev.curator = curREHANG → m.held = true ∧
          exec (.mboxDoorbell v) s = .next (s.onDev fun d => { d1 with now := d.now, cmd.mbox := some m })) ∧
        (s.dev.curator ≠ curLOADING → s.dev.curator ≠ curREHANG → m.held = false ∧
          (mboxAllows s.dev.curator m.opcode = true → exec (.mboxDoorbell v) s = .next (s.onDev fun d => { d1 with
            now := d.now, cmd.mbox := some m, cmd.inflight := d1.cmd.inflight ++ [⟨mboxOrigin, m.opcode, m.args, 0, [], .ready, none, d.now⟩] })) ∧
          (mboxAllows s.dev.curator m.opcode = false → exec (.mboxDoorbell v) s = .next (s.onDev fun d =>
            { d1 with now := d.now }.mboxResult (errR (if s.dev.curator = curRUNNING ∧ opcodeKnown m.opcode = false then 0x0101 else 0x0105))))))) ∧
  (∀ s m, s.dev.cmd.mbox = some m → m.held = true →
    (s.dev.curator = curLOADING ∨ s.dev.curator = curREHANG → exec .mboxHeldServe s = .next (s.onDev id)) ∧
    (s.dev.curator ≠ curLOADING → s.dev.curator ≠ curREHANG → mboxAllows s.dev.curator m.opcode = true →
      exec .mboxHeldServe s = .next (s.onDev fun d => { d with
        cmd.mbox := some { m with held := false }, cmd.inflight := d.cmd.inflight ++ [⟨mboxOrigin, m.opcode, m.args, 0, [], .ready, none, d.now⟩] })) ∧
    (s.dev.curator ≠ curLOADING → s.dev.curator ≠ curREHANG → mboxAllows s.dev.curator m.opcode = false →
      exec .mboxHeldServe s = .next (s.onDev (·.mboxResult (errR (if s.dev.curator = curRUNNING ∧ opcodeKnown m.opcode = false then 0x0101 else 0x0105))))))

/-- Ring pointers (R52, R53): the host moves the tail of an enabled submission ring, or the head of an enabled
completion or event ring, forward by at most the free, or used, entries; a pointer outside the ring or beyond
that sets ERROR with 0x0107 and moves nothing. Writing 1 to ERROR clears it and nothing else. A ring whose pointers lie in it is empty when INDEX and
LAP agree, and full when INDEX agrees and LAP differs. -/
def Obligations.RingPointers : Prop :=
  ∀ s r (v : Reg), Calm s → r < 16384 →
    let n := s.dev.ringCount r
    let ix := v.toNat % 2 ^ 20
    let p := (if v.getLsbD 20 then n else 0) + ix
    (s.dev.ringOn r 0 = true →
      (ix < n ∧ lapDiff n (s.dev.ringTail r) p ≤ n - s.dev.ringUsed r → exec (.ringTailDoorbell r v) s = .next { s with dev := s.here.setTail r p }) ∧
      (¬ (ix < n ∧ lapDiff n (s.dev.ringTail r) p ≤ n - s.dev.ringUsed r) → exec (.ringTailDoorbell r v) s = .next { s with dev := s.here.ringError r 0x0107 })) ∧
    ((s.dev.ringOn r 1 = true ∨ s.dev.ringOn r 2 = true) →
      (ix < n ∧ lapDiff n (s.dev.ringHead r) p ≤ s.dev.ringUsed r → exec (.ringHeadWrite r v) s = .next { s with dev := s.here.setHead r p }) ∧
      (¬ (ix < n ∧ lapDiff n (s.dev.ringHead r) p ≤ s.dev.ringUsed r) → exec (.ringHeadWrite r v) s = .next { s with dev := s.here.ringError r 0x0107 })) ∧
    (s.dev.get (QSU.RING_HEAD.INDEX r) < n → s.dev.get (QSU.RING_TAIL.INDEX r) < n →
      (s.dev.ringUsed r = 0 ↔ s.dev.get (QSU.RING_HEAD.INDEX r) = s.dev.get (QSU.RING_TAIL.INDEX r) ∧ s.dev.get (QSU.RING_HEAD.LAP r) = s.dev.get (QSU.RING_TAIL.LAP r)) ∧
      (s.dev.ringUsed r = n ↔ s.dev.get (QSU.RING_HEAD.INDEX r) = s.dev.get (QSU.RING_TAIL.INDEX r) ∧ s.dev.get (QSU.RING_HEAD.LAP r) ≠ s.dev.get (QSU.RING_TAIL.LAP r))) ∧
    ∃ t, exec (.ringErrorClear r) s = .next t ∧ OnlyParts [.regs] s t ∧ OnlyFields [QSU.RING_STATUS.ERROR r] s t ∧ t.dev.get (QSU.RING_STATUS.ERROR r) = 0

/-- Tallies (R62 to R66): a write of TALLY_ADD adds its low 16 bits; a sum above 2^32 − 1 stays there, sets OVERFLOW and posts 0x0108; 0 adds nothing.
A write of TALLY_VALUE sets it. Each latches the waits its value now satisfies and raises the tally's interrupt when it reaches its threshold from
below. What a tally's new value does (R62, R63, R66): it reads back; the wait slots of rings and tiles latch when their threshold is at or below it
and never unlatch; memory, the other units and every register but the tally and the pending bits of MSI-X stay. The ends of a tally's range (R64,
R66): an add that would pass 2^32 − 1 leaves the tally there with OVERFLOW set, every wait on it satisfied, and 0x0108 posted; with IRQ_EN set, VECTOR
is raised (a message, or its pending bit while masked) exactly when a set moves the value from below THRESHOLD to at or above it. -/
def Obligations.Tallies : Prop :=
  (∀ s t (v : Reg), t < 65536 →
    let n := v.toNat % 65536
    let old := s.dev.get (QSU.TALLY_VALUE.VALUE t)
    (n = 0 → exec (.tallyAddWrite t v) s = .next (s.onDev id)) ∧
    (0 < n → old + n < 2 ^ 32 → exec (.tallyAddWrite t v) s =
      .next (s.onDev fun d => ((d.set (QSU.TALLY_VALUE.VALUE t) (old + n)).releaseWaits t).tallyIrq t old)) ∧
    (2 ^ 32 ≤ old + n → exec (.tallyAddWrite t v) s =
      .next (s.onDev fun d => ((((d.set (QSU.TALLY_VALUE.VALUE t) (2 ^ 32 - 1)).releaseWaits t).tallyIrq t old).set (QSU.TALLY_CFG.OVERFLOW t) 1).event 0x0108 t)) ∧
    exec (.tallyValueWrite t v) s = .next (s.onDev fun d => ((d.set (QSU.TALLY_VALUE.VALUE t) v.toNat).releaseWaits t).tallyIrq t old)) ∧
  (∀ s t (v : Reg), Calm s → t < 65536 → ∃ u, exec (.tallyValueWrite t v) s = .next u ∧ u.dev.get (QSU.TALLY_VALUE.VALUE t) = v.toNat ∧
    (∀ r w, smapGet waitDflt s.dev.cmd.waits r = some w →
      smapGet waitDflt u.dev.cmd.waits r = some { w with sat := w.sat || (w.tally == t && decide (w.threshold ≤ v.toNat)) }) ∧
    (∀ i, (u.dev.tile i).waits = (s.dev.tile i).waits.map (fun w => if w.isTally = true ∧ w.key = t ∧ w.amount ≤ v.toNat then { w with sat := true } else w)) ∧
    (∀ off, off ≠ (QSU.TALLY_VALUE.REG t).off → ¬ (0x18000 ≤ off ∧ off < 0x18100) → u.dev.rd off = s.dev.rd off) ∧
    OnlyParts [.regs, .out, .cmd, .tiles] s u ∧ u.dev.cmd.inflight = s.dev.cmd.inflight) ∧
  ((∀ s t (v : Reg), t < 65536 → 2 ^ 32 ≤ s.dev.get (QSU.TALLY_VALUE.VALUE t) + v.toNat % 65536 →
    ∃ d1 : Dev, exec (.tallyAddWrite t v) s = .next (s.onDev fun _ => d1.event 0x0108 t) ∧ d1.get (QSU.TALLY_VALUE.VALUE t) = 2 ^ 32 - 1 ∧
      d1.flag (QSU.TALLY_CFG.OVERFLOW t) = true ∧
      (∀ r w, smapGet waitDflt s.dev.cmd.waits r = some w → w.tally = t → w.threshold < 2 ^ 32 → smapGet waitDflt d1.cmd.waits r = some { w with sat := true }) ∧
      (∀ i, ∀ w ∈ (d1.tile i).waits, w.isTally = true → w.key = t → w.amount < 2 ^ 32 → w.sat = true)) ∧
  (∀ s t (v : Reg), Calm s → t < 65536 → ∀ c old vec, c = s.dev.get (QSU.TALLY_IRQ.THRESHOLD t) → old = s.dev.get (QSU.TALLY_VALUE.VALUE t) →
    vec = s.dev.get (QSU.TALLY_CFG.VECTOR t) → ∃ u, exec (.tallyValueWrite t v) s = .next u ∧
      (s.dev.flag (QSU.TALLY_CFG.IRQ_EN t) = true → old < c → c ≤ v.toNat →
        (s.dev.hif.msixEn0 = true → s.dev.hif.msixMask0 = false → s.dev.flag (HIF.MSIX_CTRL.MASK vec) = false →
          u.dev.out = .msix 0 vec (s.dev.get (HIF.MSIX_ADDR_LO.ADDR vec) * 4 + s.dev.get (HIF.MSIX_ADDR_HI.ADDR vec) * 2 ^ 32) (s.dev.get (HIF.MSIX_DATA.DATA vec)) :: s.dev.out) ∧
        (s.dev.hif.msixEn0 = false ∨ s.dev.hif.msixMask0 = true ∨ s.dev.flag (HIF.MSIX_CTRL.MASK vec) = true →
          u.dev.out = s.dev.out ∧ (u.dev.rd (HIF.MSIX_PBA.REG (vec / 32)).off).getLsbD (vec % 32) = true)) ∧
      (s.dev.flag (QSU.TALLY_CFG.IRQ_EN t) = false ∨ c ≤ old ∨ v.toNat < c →
        u.dev.out = s.dev.out ∧ ∀ off, off ≠ (QSU.TALLY_VALUE.REG t).off → u.dev.rd off = s.dev.rd off)))

/-- Posting an event (R46, R51, R76) to an enabled ring in host memory with space and nothing held for it: the record with the next sequence number
stands in the entry the tail named, and the tail moves on. Without a ring it waits in the holding queue, to 1,024 records. The holding queue (R76): a
record whose ring has space is delivered, after one 0x010C record that counts those dropped before it; one that cannot go stays. -/
def Obligations.Events : Prop :=
  (∀ (d : Dev) st res,
    (∀ r, d.evRing (st / 256) = some r → 0 < d.ringFree r → d.evWaiting r = false → d.get (QSU.RING_CFG.LOC r) = 0 → d.ringCount r ≤ 2 ^ 20 →
      (d.event st res).host = memWrite d.host (d.ringEntry r (d.get (QSU.RING_TAIL.INDEX r)))
        (recordBytes d.cmd.evSeq st 0 res d.now 0x3FFF true [] (1 - d.get (QSU.RING_TAIL.LAP r) % 2)) ∧
      (d.event st res).cmd = { d.cmd with evSeq := (d.cmd.evSeq + 1) % 2 ^ 32, fullSince := (d.event st res).cmd.fullSince } ∧
      (d.get (QSU.RING_TAIL.INDEX r) + 1 < d.ringCount r →
        (d.event st res).get (QSU.RING_TAIL.INDEX r) = d.get (QSU.RING_TAIL.INDEX r) + 1 ∧ (d.event st res).get (QSU.RING_TAIL.LAP r) = d.get (QSU.RING_TAIL.LAP r))) ∧
    (d.evRing (st / 256) = none → d.cmd.evHold.length < 1024 →
      d.event st res = { d with cmd.evSeq := (d.cmd.evSeq + 1) % 2 ^ 32, cmd.evHold := d.cmd.evHold ++ [⟨d.cmd.evSeq, st, res, d.now, []⟩] })) ∧
  ((∀ s, (∀ e ∈ s.dev.cmd.evHold, ∀ r, s.dev.evRing (e.status / 256) = some r → s.dev.ringFree r = 0) →
    exec .eventHoldDelivery s = .next (s.onDev id)) ∧
  (∀ s e r, s.dev.cmd.evHold = [e] → s.dev.evRing (e.status / 256) = some r → s.dev.cmd.evDropped = 0 → 1 ≤ s.dev.ringFree r →
    exec .eventHoldDelivery s = .next (s.onDev fun d => Dev.putEvent 6 { d with cmd.evHold := [] } r e)) ∧
  (∀ s e r, s.dev.cmd.evHold = [e] → s.dev.evRing (e.status / 256) = some r → s.dev.cmd.evDropped ≠ 0 → 2 ≤ s.dev.ringFree r →
    exec .eventHoldDelivery s = .next (s.onDev fun d => Dev.putEvent 6 (Dev.putEvent 6 { d with
      cmd.evHold := [], cmd.evDropped := 0, cmd.evSeq := (s.dev.cmd.evSeq + 1) % 2 ^ 32 } r ⟨s.dev.cmd.evSeq, 0x010C, s.dev.cmd.evDropped, s.clock.ns, []⟩) r e)))

/-- A completion record (R46 to R48, R57): on a completion ring in host memory the record with SEQ_TAG, status, opcode,
RESULT, the time and the submission ring stands in the entry the tail named, the tail moves on, the
reservation is released; under QUIET an OK result writes none. A RESULT that no rule states is a free value (log 72). -/
def Obligations.CompletionRecord : Prop :=
  ∀ (d : Dev) (o : Origin) q cq opc (r : Result), o.chan = .ring q → cq = d.get (QSU.RING_PAIR.CQ q) → d.ringOn q 0 = true → d.ringOn cq 1 = true →
    d.get (QSU.RING_CFG.LOC cq) = 0 → o.flags.testBit 1 = false → o.flags.testBit 3 = false →
    (o.flags.testBit 4 = true → r.status = 0 → d.complete o opc true r = d.unreserve cq) ∧
    (¬ (o.flags.testBit 4 = true ∧ r.status = 0) → ∃ res d1, (r.unstated = false → res = r.result ∧ d1 = d) ∧
      (r.unstated = true → res < 2 ^ 64 ∧ d1 = { d with draws := d.draws + 1 }) ∧
      ∃ a bs, a = d.ringEntry cq (d.get (QSU.RING_TAIL.INDEX cq)) ∧
        bs = recordBytes o.seqTag r.status opc res d.now q false r.inl (1 - d.get (QSU.RING_TAIL.LAP cq) % 2) ∧
        d.complete o opc true r = ((d1.unreserve cq).hostEntry a bs).setTail cq (d.ringTail cq + 1) ∧ (d.complete o opc true r).host = memWrite d.host a bs)

/-- Dispatch of a packet (R54, R55, R59, R649): a whole packet with a good header whose tallies are its job's, whose wait is satisfied, behind no
fence and no full group, with a free entry in its completion ring, leaves the ring; an unknown opcode or a wrong LENGTH completes with 0x0101 or
0x0107, one whose tallies are not its job's with 0x0106, any other command goes in flight with an entry reserved. A bad header stops the ring with its
status; a packet that must wait sets WAITING. A completion ring held full past the drain bound (R61): the model keeps since when it has held no free
entry; once `CMD.DRAIN_BOUND` has passed, OVERDUE is set with one 0x0109, and no second while the ring stays full; one that is not full is not
overdue. -/
def Obligations.PacketsDispatchAndComplete : Prop :=
  (∀ s r cq (d1 : Dev) (h : Bytes), r < 16384 → 64 ≤ h.length → cq = s.dev.get (QSU.RING_PAIR.CQ r) → s.dev.ringOn r 0 = true → s.dev.ringOn cq 1 = true →
    s.dev.curator = curRUNNING → s.dev.flag (QSU.RING_STATUS.ERROR r) = false → s.dev.ringStopped r = false → s.dev.ringUsed r ≠ 0 →
    s.here.readEntry r (s.dev.get (QSU.RING_HEAD.INDEX r)) = (d1, .ok h) →
    (headerBad h ≠ 0 → 0 < d1.ringFree cq →
      exec (.packetDispatch r) s = .next (s.onDev fun _ => ((d1.headOn r 1).refusePacket r h (headerBad h)).ringError r (headerBad h))) ∧
    (∀ d2 rest, headerBad h = 0 → pkLength h ≤ d1.ringUsed r → Dev.readEntries (pkLength h - 1) d1 r (s.dev.get (QSU.RING_HEAD.INDEX r) + 1) = (d2, .ok rest) →
      d2.packetTallies r h = false → d2.ringFree cq ≠ 0 →
      exec (.packetDispatch r) s = .next (s.onDev fun _ => (d2.headOn r (pkLength h)).refusePacket r h 0x0106)) ∧
    (∀ d2 rest d3 sat, headerBad h = 0 → pkLength h ≤ d1.ringUsed r →
      Dev.readEntries (pkLength h - 1) d1 r (s.dev.get (QSU.RING_HEAD.INDEX r) + 1) = (d2, .ok rest) → d2.packetTallies r h = true → d2.waitSlot r h = (d3, sat) →
      let go := sat = true ∧ ¬ ((pkFlags h).testBit 2 = true ∧ ∃ f ∈ d3.cmd.inflight, f.org.chan = .ring r) ∧
        ¬ (lengthOk (pkOpcode h) (pkLength h) = true ∧ d3.groupFull (pkOpcode h) (le h 16 1) = true) ∧ d3.ringFree cq ≠ 0
      (¬ go → exec (.packetDispatch r) s = .next (s.onDev fun _ => d3.set (QSU.RING_STATUS.WAITING r) 1)) ∧
      (go → opcodeKnown (pkOpcode h) = false →
        exec (.packetDispatch r) s = .next (s.onDev fun _ => (d3.headOn r (pkLength h)).refusePacket r (h ++ rest) 0x0101)) ∧
      (go → opcodeKnown (pkOpcode h) = true → lengthOk (pkOpcode h) (pkLength h) = false →
        exec (.packetDispatch r) s = .next (s.onDev fun _ => (d3.headOn r (pkLength h)).refusePacket r (h ++ rest) 0x0107)) ∧
      (go → opcodeKnown (pkOpcode h) = true → lengthOk (pkOpcode h) (pkLength h) = true →
        ∃ d4, d4 = d3.headOn r (pkLength h) ∧ exec (.packetDispatch r) s = .next (s.onDev fun _ => { d4 with
          cmd.inflight := d4.cmd.inflight ++ [(⟨⟨.ring r, pkTag h, pkFlags h, pkSignal h⟩, pkOpcode h, (h ++ rest).drop 16,
            d4.get (QSU.RING_PAIR.OWNER r), [], .ready, none, d4.now⟩ : InFlight)] }.reserve cq)))) ∧
  ((∀ s r t, s.dev.ringOn r 1 = true → s.dev.ringFree r = 0 → s.dev.fullSince r = some (t, false) →
    exec (.completionOverdue r) s = .next ((s.until (t + s.dev.get CMD.DRAIN_BOUND.MILLISECONDS * 1000000 + 1)).onDev fun d =>
      ({ d with cmd.fullSince := smapSet fullDflt d.cmd.fullSince r (some (t, true)) }.set (QSU.RING_STATUS.OVERDUE r) 1).event 0x0109 r)) ∧
  (∀ s r, s.dev.ringOn r 1 = false ∨ s.dev.ringFree r ≠ 0 ∨ s.dev.fullSince r = none ∨ (∃ t, s.dev.fullSince r = some (t, true)) →
    exec (.completionOverdue r) s = .next s) ∧
  (∀ (d e : Dev) r p, e = d.setTail r p → e.ringOn r 1 = true →
    (e.ringFree r = 0 → d.fullSince r = none → e.fullSince r = some (d.now, false)) ∧ (e.ringFree r ≠ 0 → e.fullSince r = none)))

/-! ## Commands of the command plane, jobs and firmware

A packet or mailbox command stands at the head of the commands in flight (`AtHead`); what it answers completes
it at once (`Dev.finish`), holds it for COMMAND_COMPLETION (`Dev.hold`) or leaves it to its unit (`Dev.toUnit`). -/

/-- NOP, QUERY_DEVICE, JOB_CREATE, EVENT_RING_BIND, TALLY_ALLOC, TALLY_FREE, RING_CREATE (R73, R74, R634, R653 to R655): what each gives, and with bad
operands 0x0107 and no other effect. Classes and rings (R634, R655): EVENT_RING_BIND names an enabled event ring and a mask without bits 0 and 10 to
15, or answers 0x0107; the mask's classes are bound to that ring alone, those of the ring that the mask does not name to none, and the others stay.
QUERY_DEVICE is accepted in every curator state. A tally that is given out (R654): it is allocated to its job with VALUE, THRESHOLD and its other
fields at their reset values; every other register stays. A ring that RING_CREATE makes (R653): enabled, with its kind, place and size, empty, its
owner and completion ring as the operands say; every register of another ring stays. -/
def Obligations.ManagementCommands : Prop :=
  (∀ s o ops,
    (AtHead s o 0x0001 ops → exec (.nop o ops) s = .next (s.onDev fun d => d.finish o 0x0001 (okR 0))) ∧
    (AtHead s o 0x0002 ops → exec (.queryDevice o ops) s =
      .next (s.onDev fun d => d.finish o 0x0002 (okI Config.serial.toNat (leBytes 8 Config.serial.toNat ++ leBytes 4 (assembly d.code) ++ leBytes 1 d.curator
        ++ leBytes 1 (d.get HIF.BOOT_STATUS.SLOT + 2 * d.get HIF.BOOT_STATUS.FW_LOADED) ++ leBytes 1 (d.get SEC.FW_SVN.COUNT)
        ++ leBytes 1 (linkGts (d.get HIF.LINK.SPEED)) ++ leBytes 4 (if d.firmwareRuns then d.get CMD.CURATOR_VERSION.VERSION else 0)
        ++ leBytes 2 (tdp d.code) ++ leBytes 2 d.powerLimit ++ leBytes 1 (d.get HIF.LINK.WIDTH) ++ zeros 7)))) ∧
    (AtHead s o 0x0009 ops → ∀ j, freeRun s.dev.jobNumbers 1 65536 1 = some j → opnd ops 16 1 ≠ 0 → opndZero ops 17 7 = true →
      exec (.jobCreate o ops) s = .next (s.onDev fun d => (d.setJob j (some ⟨opnd ops 16 1, opnd ops 24 8, none⟩)).finish o 0x0009 (okR j))) ∧
    (AtHead s o 0x0009 ops → opnd ops 16 1 = 0 ∨ opndZero ops 17 7 = false → exec (.jobCreate o ops) s = .next (s.onDev fun d => d.finish o 0x0009 (errR 0x0107))) ∧
    (AtHead s o 0x000B ops → s.dev.ringOn (opnd ops 16 2) 2 = true → (opnd ops 18 2).testBit 0 = false → opnd ops 18 2 < 1024 →
      exec (.eventRingBind o ops) s = .next (s.onDev fun d => (d.bindClasses (opnd ops 16 2) (opnd ops 18 2)).finish o 0x000B (okR 0))) ∧
    (AtHead s o 0x0005 ops → ∀ t, 0 < opnd ops 16 4 → opnd ops 16 4 ≤ 4096 → (s.dev.job (opnd ops 20 2)).isSome → freeRun s.dev.usedTallies 0 65536 (opnd ops 16 4) = some t →
      exec (.tallyAlloc o ops) s = .next (s.onDev fun d =>
        (d.each (List.range (opnd ops 16 4)) (fun d i => d.tallyGive (t + i) (some (opnd ops 20 2)))).finish o 0x0005 (okR t))) ∧
    (AtHead s o 0x0005 ops → opnd ops 16 4 = 0 ∨ 4096 < opnd ops 16 4 ∨ (s.dev.job (opnd ops 20 2)) = none ∨ freeRun s.dev.usedTallies 0 65536 (opnd ops 16 4) = none →
      exec (.tallyAlloc o ops) s = .next (s.onDev fun d => d.finish o 0x0005 (errR 0x0107))) ∧
    (AtHead s o 0x0006 ops → ∀ ts, ts = (List.range (opnd ops 18 2)).map (opnd ops 16 2 + ·) → ts ≠ [] → (∀ t ∈ ts, t < 65536 ∧ s.dev.tallyUsed t = true) →
      exec (.tallyFree o ops) s = .next (s.onDev fun d => (d.each ts (fun d t => d.tallyGive t none)).finish o 0x0006 (okR 0))) ∧
    (AtHead s o 0x0003 ops → s.dev.ringOperandsOk ops = false ∨ freeRun s.dev.usedRings 16 16384 1 = none →
      exec (.ringCreate o ops) s = .next (s.onDev fun d => d.finish o 0x0003 (errR 0x0107))) ∧
    (AtHead s o 0x0003 ops → ∀ r, s.dev.ringOperandsOk ops = true → freeRun s.dev.usedRings 16 16384 1 = some r → opnd ops 26 1 = 0 →
      exec (.ringCreate o ops) s = .next (s.onDev fun d => (d.ringMake r ops).finish o 0x0003 (okR r))) ∧
    (AtHead s o 0x0003 ops → ∀ r d1 segs, s.dev.ringOperandsOk ops = true → freeRun s.dev.usedRings 16 16384 1 = some r → opnd ops 26 1 = 1 →
      s.here.xlate (qsuAcc (if opnd ops 25 1 = 0 then 1 else 2) (s.dev.domOf (opnd ops 30 2))) (opnd ops 16 8) (64 * 2 ^ opnd ops 24 1) = (d1, .ok segs) →
      exec (.ringCreate o ops) s = .next (s.onDev fun _ => (d1.ringMake r ops).finish o 0x0003 (okR r)))) ∧
  ((∀ s o ops, AtHead s o 0x000B ops → s.dev.ringOn (opnd ops 16 2) 2 = false ∨ (opnd ops 18 2).testBit 0 = true ∨ 1024 ≤ opnd ops 18 2 →
    exec (.eventRingBind o ops) s = .next (s.onDev fun d => d.finish o 0x000B (errR 0x0107))) ∧
  (∀ (d : Dev) r mask, d.ringOn r 2 = true → ∃ e, e = d.bindClasses r mask ∧ e = { d with cmd.evBind := e.cmd.evBind } ∧
    ∀ k < 16, e.evRing k = if mask.testBit k then some r else if d.evRing k = some r then none else d.evRing k) ∧
  (∀ cur, mboxAllows cur 0x0002 = true)) ∧
  (∀ (d : Dev) t j, t < 65536 → j < 65536 → ∃ e, e = d.tallyGive t (some j) ∧ e = { d with regs := e.regs } ∧ e.get (QSU.TALLY_VALUE.VALUE t) = 0 ∧ e.get (QSU.TALLY_IRQ.THRESHOLD t) = 0 ∧
    e.flag (QSU.TALLY_CFG.ALLOCATED t) = true ∧ e.get (QSU.TALLY_CFG.OWNER t) = j ∧ e.get (QSU.TALLY_CFG.VECTOR t) = 0 ∧ e.flag (QSU.TALLY_CFG.OVERFLOW t) = false ∧ e.flag (QSU.TALLY_CFG.IRQ_EN t) = false ∧
    e.tallyOwned t j = true ∧ (∀ off, off ≠ (QSU.TALLY_VALUE.REG t).off → off ≠ (QSU.TALLY_IRQ.REG t).off → off ≠ (QSU.TALLY_CFG.REG t).off → e.rd off = d.rd off)) ∧
  (∀ (d : Dev) r ops, r < 16384 → d.ringOperandsOk ops = true → ∃ e, e = d.ringMake r ops ∧ e = { d with regs := e.regs, cmd.fullSince := e.cmd.fullSince, cmd.walkHalt := e.cmd.walkHalt } ∧ e.ringOn r (opnd ops 25 1) = true ∧
    e.get (QSU.RING_CFG.LOC r) = opnd ops 26 1 ∧ e.ringCount r = 2 ^ opnd ops 24 1 ∧ e.ringUsed r = 0 ∧ e.ringHead r = 0 ∧ e.ringTail r = 0 ∧
    e.ringEntry r 0 = opnd ops 16 8 ∧ e.get (QSU.RING_PAIR.CQ r) = opnd ops 28 2 ∧ e.get (QSU.RING_PAIR.OWNER r) = opnd ops 30 2 ∧
    e.get (QSU.RING_RESV.RESERVED r) = 0 ∧ e.flag (QSU.RING_STATUS.ERROR r) = false ∧
    (∀ off, off < (QSU.RING_BASE_LO.REG r).off ∨ (QSU.RING_BASE_LO.REG r).off + 32 ≤ off → e.rd off = d.rd off))

/-- RING_DESTROY (R60) and JOB_DESTROY (R651): a completion or event ring is disabled at once, a submission ring and a job's
rings are walked and the command waits for the walks; a ring or job that cannot be destroyed answers 0x0107.
COMMAND_COMPLETION completes any command with a result whose gate is over (R57): a walked ring's once the ring is empty and its commands are
complete, a job's once its rings, commands and keys are quiet, and then the ring is disabled or the job's resources go. -/
def Obligations.DestroyCommands : Prop :=
  (∀ s o ops r, AtHead s o 0x0004 ops → r = opnd ops 16 2 →
    (r < 16 ∨ 16384 ≤ r ∨ s.dev.flag (QSU.RING_CFG.ENABLE r) = false → exec (.ringDestroy o ops) s = .next (s.onDev fun d => d.finish o 0x0004 (errR 0x0107))) ∧
    (16 ≤ r → (s.dev.ringOn r 2 = true ∨ s.dev.ringOn r 1 = true ∧ ∀ q ∈ s.dev.usedRings, s.dev.ringOn q 0 = true → s.dev.get (QSU.RING_PAIR.CQ q) ≠ r) →
      exec (.ringDestroy o ops) s = .next (s.onDev fun d => (d.ringDisable r).finish o 0x0004 (okR 0))) ∧
    (16 ≤ r → s.dev.ringOn r 0 = true →
      exec (.ringDestroy o ops) s = .next (s.onDev fun d => (Dev.ringWalk (s.dev.ringUsed r) d r).hold (okR 0) (.ringDestroy r) []))) ∧
  (∀ s o ops j, AtHead s o 0x000A ops → j = opnd ops 16 2 →
    (s.dev.job j = none → exec (.jobDestroy o ops) s = .next (s.onDev fun d => d.finish o 0x000A (errR 0x0107))) ∧
    ((s.dev.job j).isSome → (∀ q ∈ s.dev.usedRings, s.dev.ringOn q 0 = true → s.dev.get (QSU.RING_PAIR.OWNER q) ≠ j →
        s.dev.get (QSU.RING_PAIR.OWNER (s.dev.get (QSU.RING_PAIR.CQ q))) ≠ j) →
      exec (.jobDestroy o ops) s = .next (s.onDev fun d => (d.walkJob j).hold (okR 0) (.jobDestroy j) []))) ∧
  (∀ s k f r, s.dev.cmd.inflight[k]? = some f → f.res = some r → f.org.chan = .mailbox ∨ s.dev.curator = curRUNNING ∨ s.dev.curator = curREHANG →
    f.gate ≠ .start → ∀ d1, s.here.gateOver k f = (d1, true) → exec (.commandCompletion k) s = .next (s.onDev fun _ =>
      ((({ d1 with cmd.inflight := d1.cmd.inflight.erase f }.complete f.org f.opcode true r).gateAfter f.gate).pseDrain f.job).kick.pendServe)) ∧
  (∀ (s : State) k (f : InFlight) r, f.gate = .ringDestroy r → s.dev.ringUsed r = 0 → (∀ g ∈ s.dev.cmd.inflight, g.org.chan = .ring r → g = f) →
    s.here.gateOver k f = (s.here.walkOn r, true)) ∧
  (∀ (s : State) k (f : InFlight) j, f.gate = .jobDestroy j → (∀ r ∈ s.dev.jobRings j, s.dev.ringOn r 0 = true → s.dev.ringUsed r = 0) →
    (∀ g ∈ s.dev.cmd.inflight, g.job = j → g = f) → (∀ q ∈ s.dev.jobKeys j, s.dev.keyNamed q = false) →
    s.here.gateOver k f = ((s.here.walkJob j).jobRelease j, true)) ∧
  (∀ (s : State) k (f : InFlight) p c, f.gate = .invalidate p c → s.here.invalidateHeld p c (s.dev.cmd.inflight.take k) = false →
    s.here.gateOver k f = (s.here.invalidateDone p c, true)) ∧
  (∀ s k f r, s.dev.cmd.inflight[k]? = some f → f.res = some r → f.gate = .ready → f.org.chan ≠ .mailbox →
    s.dev.curator ≠ curRUNNING → s.dev.curator ≠ curREHANG → exec (.commandCompletion k) s = .next (s.onDev id))

/-- Firmware (R77, R78, R82 to R85, R534, R535, R632): FW_LOAD takes an image that passes its checks to LOADING, and the image starts as the
command completes; FW_REHANG stages one, hands off and enters REHANG once no command is left that the old curator executes itself;
REHANG_RESUME starts it and completes FW_REHANG. An image that fails its checks changes nothing. -/
def Obligations.FirmwareCommands : Prop :=
  (∀ s o ops d1 rd, AtHead s o 0x0007 ops → s.dev.stackFailed 0 = false → s.dev.rehanging = false → s.here.imageAt o ops = (d1, .ok rd) →
    (∀ st, d1.verifyImage rd (some (opnd ops 24 4)) = .error st → exec (.fwLoad o ops) s = .next (s.onDev fun _ => d1.finish o 0x0007 (errR st))) ∧
    (∀ im, d1.verifyImage rd (some (opnd ops 24 4)) = .ok im → exec (.fwLoad o ops) s = .next (s.onDev fun _ =>
      ({ d1 with cmd.staged := some im }.set CMD.CURATOR_STATE.STATE curLOADING).hold (okR im.version) .start []))) ∧
  (∀ s k f r im, s.dev.cmd.inflight[k]? = some f → f.res = some r → f.gate = .start → s.dev.cmd.staged = some im → s.dev.curator = curLOADING →
    ∃ d1, d1 = ((if s.dev.cmd.image = none then s.here.firstImage im else s.here.imageRuns im).raiseSvn im).set HIF.BOOT_STATUS.FW_LOADED 1 ∧
      exec (.commandCompletion k) s = .next (s.onFuses fun _ =>
        (({ d1 with cmd.inflight := d1.cmd.inflight.erase f }.complete f.org f.opcode true r).pseDrain f.job).kick.pendServe)) ∧
  (∀ s o ops d1 rd, AtHead s o 0x0008 ops → s.dev.curator = curRUNNING → s.dev.rehanging = false → s.dev.get CSV.DBG_STATE.HALTED = 0 → s.here.imageAt o ops = (d1, .ok rd) →
    (∀ st, d1.verifyImage rd (some (opnd ops 24 4)) = .error st → exec (.fwRehang o ops) s = .next (s.onDev fun _ => d1.finish o 0x0008 (errA 0x0104 st))) ∧
    (∀ im, d1.verifyImage rd (some (opnd ops 24 4)) = .ok im → exec (.fwRehang o ops) s = .next (s.onDev fun _ =>
      { d1 with cmd.staged := some im }.hold (okR im.version) .rehang []))) ∧
  (∀ s k f r, s.dev.cmd.inflight[k]? = some f → f.res = some r → f.gate = .rehang → s.dev.curator = curRUNNING →
    (∀ g ∈ s.dev.cmd.inflight, g.curators = false) → exec (.commandCompletion k) s = .next (s.onDev (·.rehangSwitch k))) ∧
  (∀ s im, s.dev.cmd.staged = some im → s.dev.curator = curREHANG → exec .rehangResume s = .next (s.onFuses fun d =>
    (((({ d.meetPieces (flatSegs handoffArea handoffBytes) with cmd.handoff := none }.timersRelease (claims (match (d.meetPieces (flatSegs handoffArea handoffBytes)).cmd.image with | some x => x.timerTable | none => 0) im.timerTable)).imageRuns im).raiseSvn im).set
      HIF.BOOT_STATUS.FW_LOADED 0).unitDone 0x0008 (fun _ => true) (okR im.version)))

/-- Watchdogs (R79, R80): a pet starts a core's period again, unless the core is stalled (R595); a core that is not petted in it is a fatal cause
while firmware runs and no core is halted. Root keys are revoked by firmware alone (R535, R635): a write by a control core under a running image whose
FUSE_SVN is not 0, of roots below the image's own, blows them; any other write is refused, logged and changes no fuse. -/
def Obligations.WatchdogsAndRootRevocation : Prop :=
  ((∀ s c, Calm s → c < 4 → s.dev.csv.stalled.contains c = false → exec (.wdogPet c) s = .next { s with dev := { s.here with cmd.petAt := smapSet zeroDflt s.dev.cmd.petAt c s.clock.ns } }) ∧
  (∀ s c, Calm s → c < 4 → s.dev.curator = curRUNNING → s.dev.get CSV.DBG_STATE.HALTED = 0 → ∃ t, exec (.watchdogExpiry c) s = .next t ∧
    t.dev.curator = curFATAL ∧ t.dev.get CMD.FATAL_CAUSE.STATUS = 0x010B ∧
    t.clock.ns = max s.clock.ns (smapGet zeroDflt s.dev.cmd.petAt c + s.dev.get CMD.WDOG_CFG.PERIOD_MS * 1000000) ∧ Calm t ∧ t.fuses = s.fuses)) ∧
  (∀ s who (v : Reg), FusesOk s.fuses → Calm s → (∀ k < 4, (s.dev.get SEC.FW_ROOT_REVOKED.MASK).testBit k = s.fuses.revoked.testBit k) →
    s.dev.get SEC.FW_SVN.COUNT ≤ s.fuses.svn →
    (∀ c im, who = .core c → s.dev.cmd.image = some im → im.fuseSvn ≠ 0 → s.dev.curator = curRUNNING →
      (∀ k < 4, v.getLsbD k = true → k < im.keyIndex) → ∃ t, exec (.fuseRevoke who v) s = .next t ∧ t.fuses.svn = s.fuses.svn ∧
        (∀ k < 4, t.fuses.revoked.testBit k = (s.fuses.revoked.testBit k || v.getLsbD k)) ∧ OnlyFields [SEC.FW_ROOT_REVOKED.MASK] s t) ∧
    (who = .host ∨ s.dev.cmd.image = none ∨ s.dev.firmwareRuns = false → ∃ t, exec (.fuseRevoke who v) s = .next t ∧ t.fuses = s.fuses ∧
      OnlyFields [CSV.REFUSALS.COUNT] s t ∧ OnlyParts [.regs, .csv] s t))

/-! ## Memory -/

/-- Memory (R17, R337): a write is read back, leaves every other byte alone and keeps the canonical form; so do zeroing and reading. A store of whole
clean codewords to a stack in service (R341 to R343): the bytes read back, no other byte of memory changes, and no codeword turns bad. -/
def Obligations.MemoryKeepsWhatIsWritten : Prop :=
  (∀ (m : SMap Byte) a (bs : Bytes), memWf m = true → memWf (memWrite m a bs) = true ∧ memRead (memWrite m a bs) a bs.length = bs ∧
    (∀ b n, b + n ≤ a ∨ a + bs.length ≤ b → memRead (memWrite m a bs) b n = memRead m b n) ∧
    (∀ n, memWf (memZero m a n) = true ∧ memRead (memZero m a n) a n = List.replicate n 0)) ∧
  (∀ (d : Dev) flat (bs : Bytes), memWf d.hbm.mem = true → (∀ g ∈ flatSegs flat bs.length, d.flatFailed g.1 = false) → flat + bs.length ≤ memBytes d.code → flat % 64 = 0 → bs.length % 64 = 0 → 0 < bs.length →
    (d.store flat bs).rawRead flat bs.length = bs ∧ (∀ a n, a + n ≤ flat ∨ flat + bs.length ≤ a → (d.store flat bs).rawRead a n = d.rawRead a n) ∧
    (∀ i, flat / 64 ≤ i → i < (flat + bs.length) / 64 → (d.store flat bs).cwAt i = .clean))

/-- MAP, UNMAP and INVALIDATE (R334, R337, R338): each answers the first check that fails; a MAP that passes maps its pages and answers the first
frame, at once or, with SYNC over replaced entries, after their invalidation; an UNMAP makes its range's entries invalid and answers how many there
were after the invalidation. COPY, FILL and HOST_DMA (R339, R340): the ranges are checked whole first; the bytes then move as if the source were read
before the destination is written, and the command completes by COMMAND_COMPLETION. A HOST_DMA to the host writes with Relaxed Ordering (R626). -/
def Obligations.MemoryCommands : Prop :=
  (∀ s o ops,
    (AtHead s o 0x0101 ops → ∀ st r, s.here.mapCheck (s.dev.jobOf o) ops = some (st, r) → exec (.map o ops) s = .next (s.onDev fun d => d.finish o 0x0101 (errA st r))) ∧
    (AtHead s o 0x0101 ops → s.here.mapCheck (s.dev.jobOf o) ops = none → ∀ d1 f, s.here.mapPages (mapOps ops) = (d1, f) →
      (¬ ((mapOps ops).replace = true ∧ (mapOps ops).sync = true) → exec (.map o ops) s = .next (s.onDev fun _ => d1.finish o 0x0101 (okR f))) ∧
      ((mapOps ops).replace = true → (mapOps ops).sync = true → exec (.map o ops) s =
        .next (s.onDev fun _ => (d1.dropCached (mapOps ops).page (mapOps ops).count).hold (okR f) (.invalidate (mapOps ops).page (mapOps ops).count) []))) ∧
    (AtHead s o 0x0102 ops → pagesOk (opnd ops 16 8) (opnd ops 24 4) = false → exec (.unmap o ops) s = .next (s.onDev fun d => d.finish o 0x0102 (errR 0x0215))) ∧
    (AtHead s o 0x0102 ops → pagesOk (opnd ops 16 8) (opnd ops 24 4) = true →
      ∀ ps, ps = ((List.range (opnd ops 24 4)).map (opnd ops 16 8 / pageBytes + ·)).filter (fun q => entValid (s.dev.entryOf q)) →
      ((∃ q ∈ ps, entDomain (s.dev.entryOf q) ≠ s.dev.domOf (s.dev.jobOf o)) → exec (.unmap o ops) s = .next (s.onDev fun d => d.finish o 0x0102 (errR 0x0211))) ∧
      ((∀ q ∈ ps, entDomain (s.dev.entryOf q) = s.dev.domOf (s.dev.jobOf o)) → exec (.unmap o ops) s = .next (s.onDev fun d =>
        ((d.each ps (fun d q => { d with hbm.limbo := d.hbm.limbo ++ [(q, entPfn (d.entryOf q))] }.putEntryOf q 0)).weakDue.dropCached
          (opnd ops 16 8 / pageBytes) (opnd ops 24 4)).hold (okR ps.length) (.invalidate (opnd ops 16 8 / pageBytes) (opnd ops 24 4)) []))) ∧
    (AtHead s o 0x0103 ops → opnd ops 24 4 = 0 → exec (.invalidate o ops) s =
      .next (s.onDev fun d => (d.dropCached 0 0).hold (okR 0) (.invalidate 0 0) [])) ∧
    (AtHead s o 0x0103 ops → opnd ops 24 4 ≠ 0 → pagesOk (opnd ops 16 8) (opnd ops 24 4) = true → exec (.invalidate o ops) s =
      .next (s.onDev fun d => (d.dropCached (opnd ops 16 8 / pageBytes) (opnd ops 24 4)).hold (okR 0) (.invalidate (opnd ops 16 8 / pageBytes) (opnd ops 24 4)) [])) ∧
    (AtHead s o 0x0103 ops → opnd ops 24 4 ≠ 0 → pagesOk (opnd ops 16 8) (opnd ops 24 4) = false → exec (.invalidate o ops) s =
      .next (s.onDev fun d => d.finish o 0x0103 (errR 0x0215)))) ∧
  (∀ s o ops, 
    (AtHead s o 0x0104 ops → rangeOk (opnd ops 16 8) (opnd ops 32 8) = true → rangeOk (opnd ops 24 8) (opnd ops 32 8) = true → opnd ops 32 8 ≤ 2 ^ 40 →
      ∀ d1 d2 src dst, s.here.tryXlate (cmdAcc 1 (s.dev.domOf (s.dev.jobOf o))) (opnd ops 16 8) (opnd ops 32 8) = (d1, .ok src) →
      d1.tryXlate (cmdAcc 2 (s.dev.domOf (s.dev.jobOf o))) (opnd ops 24 8) (opnd ops 32 8) = (d2, .ok dst) →
      (d2.readSegs src).2 = none → (d2.readSegs src).1.segFailed 0 dst = none →
      exec (.copy o ops) s = .next (s.onDev fun _ => ((d2.readSegs src).1.storeSparse (d2.segGather 0 src) 0 dst).hold (okR 0) .ready
        [(opnd ops 16 8, opnd ops 32 8), (opnd ops 24 8, opnd ops 32 8)])) ∧
    (AtHead s o 0x0104 ops → rangeOk (opnd ops 16 8) (opnd ops 32 8) = false ∨ rangeOk (opnd ops 24 8) (opnd ops 32 8) = false ∨ 2 ^ 40 < opnd ops 32 8 →
      exec (.copy o ops) s = .next (s.onDev fun d => d.finish o 0x0104 (errR 0x0215))) ∧
    (AtHead s o 0x0105 ops → rangeOk (opnd ops 16 8) (opnd ops 24 8) = true → opnd ops 24 8 ≤ 2 ^ 40 → opnd ops 36 1 ∈ [1, 2, 4] →
      ∀ d1 segs, s.here.xlate (cmdAcc 2 (s.dev.domOf (s.dev.jobOf o))) (opnd ops 16 8) (opnd ops 24 8) = (d1, .ok segs) → d1.segFailed 0 segs = none →
      exec (.fill o ops) s = .next (s.onDev fun _ => (d1.storeSegs segs (repeatBytes ((leBytes 4 (opnd ops 32 4)).take (opnd ops 36 1)) (opnd ops 24 8))).hold
        (okR 0) .ready [(opnd ops 16 8, opnd ops 24 8)])) ∧
    (AtHead s o 0x0105 ops → rangeOk (opnd ops 16 8) (opnd ops 24 8) = true → opnd ops 24 8 ≤ 2 ^ 40 → opnd ops 36 1 ∉ [1, 2, 4] →
      exec (.fill o ops) s = .next (s.onDev fun d => d.finish o 0x0105 (errR 0x0107))) ∧
    (AtHead s o 0x0106 ops → rangeOk (opnd ops 24 8) (opnd ops 32 8) = true → opnd ops 32 8 ≤ 2 ^ 40 → opnd ops 40 1 = 0 →
      ∀ d1 segs, s.here.xlate (hifAcc 2 (s.dev.domOf (s.dev.jobOf o))) (opnd ops 24 8) (opnd ops 32 8) = (d1, .ok segs) → d1.segFailed 0 segs = none →
      exec (.hostDma o ops) s = .next (s.onDev fun _ => (d1.storeSparse ((smapRange d1.host (opnd ops 16 8) (opnd ops 32 8)).map (fun e => (e.1 - opnd ops 16 8, e.2)))
        0 segs).hold (okR 0) .ready [(opnd ops 24 8, opnd ops 32 8)])) ∧
    (AtHead s o 0x0106 ops → rangeOk (opnd ops 24 8) (opnd ops 32 8) = true → opnd ops 32 8 ≤ 2 ^ 40 → opnd ops 40 1 = 1 →
      ∀ d1 segs, s.here.xlate (hifAcc 1 (s.dev.domOf (s.dev.jobOf o))) (opnd ops 24 8) (opnd ops 32 8) = (d1, .ok segs) → (d1.readSegs segs).2 = none →
      ∃ d2, d2 = (d1.readSegs segs).1 ∧ exec (.hostDma o ops) s = .next (s.onDev fun _ => ({ d2 with
        host := smapSetAll memDflt (memZero d2.host (opnd ops 16 8) (opnd ops 32 8))
          ((smapRange (d2.segGather 0 segs) 0 (opnd ops 32 8)).map (fun (e : Nat × Byte) => (e.1 + opnd ops 16 8, e.2))) }.emit
          (.hostWrite [(opnd ops 16 8, opnd ops 32 8)] true false)).hold (okR 0) .ready [(opnd ops 24 8, opnd ops 32 8)])))

/-- The memory controllers' own work (R344 to R346): a scrub step of a sweep reads one codeword of a stack in service, corrects or
counts it and moves on; the sweep of a period ends with the last codeword, after which a step does nothing until the next period; a stack that is lost reads FAILED with 0x0219 and becomes PERMANENT; a
weak frame in use moves to a free frame, its page's entry named the new one, and the old frame free. -/
def Obligations.ControllerWork : Prop :=
  (∀ s k since, s.dev.stackFailed k = false → k ∈ fittedStacks s.dev.code → smapGet scrubDflt s.dev.hbm.scrub k = ⟨0, since, false⟩ →
    (s.dev.scrubNs = 0 ∨ s.clock.ns < since + s.dev.scrubNs) → s.dev.cwAt (flatOf s.dev.code k 0 / 64) = .clean → Calm s → ∃ t, exec (.hbmPatrolScrub k) s = .next t ∧ t.dev.get (HMC.CTL_STATE.SCRUBBING k) = 1 ∧
      (smapGet scrubDflt t.dev.hbm.scrub k).pos = 1 ∧ t.dev.hbm.mem = s.dev.hbm.mem ∧ OnlyParts [.regs, .hbm] s t) ∧
  (∀ s k, s.dev.stackFailed k = false → k ∈ fittedStacks s.dev.code → (smapGet scrubDflt s.dev.hbm.scrub k).fin = true →
    (s.dev.scrubNs = 0 ∨ s.clock.ns < (smapGet scrubDflt s.dev.hbm.scrub k).since + s.dev.scrubNs) → exec (.hbmPatrolScrub k) s = .next (s.onDev id)) ∧
  (∀ s k, k ∈ fittedStacks s.dev.code → s.dev.stackFailed k = false → exec (.hbmStackFailed k) s = .next (s.onDev fun d =>
    (((((d.set HMC.STACK_MAP.FAILED (d.get HMC.STACK_MAP.FAILED ||| 2 ^ k)).set (HMC.CTL_STATE.FAILED k) 1).set (HMC.CTL_STATE.READY k) 0).event 0x0219 k).fault
      (uStack k) 0x0219 0).suspect (uStack k) 3)) ∧
  (∀ s k, k ∉ fittedStacks s.dev.code ∨ s.dev.stackFailed k = true → exec (.hbmStackFailed k) s = .next (s.onDev id) ∧ exec (.hbmPatrolScrub k) s = .next (s.onDev id)) ∧
  (∀ s pfn f e d1 new, f = s.dev.frame pfn → e = s.dev.entryOf f.page → f.weak = true → f.used = true → entValid e = true → entPfn e = pfn →
    ((entWrite e = false ∧ entAdd e = false) ∨ (f.due = true ∧ s.dev.pipelinesBusy = false)) → s.dev.invalidateHeld f.page 1 s.dev.cmd.inflight = false →
    s.here.takeFrame 0xFF = some (d1, new) → (d1.readSegs [(pfnFlat s.dev.code pfn 0, pageBytes)]).2 = none →
    ∃ d2 d3, d2 = (d1.readSegs [(pfnFlat s.dev.code pfn 0, pageBytes)]).1.storeSparse
        ((d1.readSegs [(pfnFlat s.dev.code pfn 0, pageBytes)]).1.segGather 0 [(pfnFlat s.dev.code pfn 0, pageBytes)]) 0 [(pfnFlat s.dev.code new 0, pageBytes)] ∧
      d3 = (d2.setFrame new { d2.frame new with used := true, lastDom := f.lastDom, page := f.page }).putEntryOf f.page (putBits e 50 32 new) ∧
      exec (.weakPageMove pfn) s = .next (s.onDev fun _ => { d3 with hbm.limbo := d3.hbm.limbo ++ [(f.page, pfn)] }.invalidateDone f.page 1))

/-! ## Programs and pipelines -/

/-- PROG_LOAD (R200, R286, R287): an image of the job's own tile, read whole, is checked and loaded; RESULT gives the count of its code and the seven-
array variant, which a tile whose map lacks array 7 takes. The first check that fails gives the status and nothing is loaded. TILE_HALT (R283, R285,
R288): for the job's own tile, it halts at an instruction boundary or resumes a halt of the host's or the program's own, and answers the halt PC.
STAGE_MAP (R294, R295, R312): a map that passes its checks enters MAPPED, one that fails answers 0x020C with the entry, and an unmap from MAPPED,
STEP_END or FAULTED returns the tiles to the job. -/
def Obligations.ProgramsAndStageMaps : Prop :=
  (∀ s o ops l t, AtHead s o 0x0201 ops → l = opnd ops 16 2 → t = s.dev.phys l →
    (s.dev.tileOwned l (s.dev.jobOf o) = false → exec (.progLoad o ops) s = .next (s.onDev fun d => d.finish o 0x0201 (errR 0x0105))) ∧
    (s.dev.tileOwned l (s.dev.jobOf o) = true → s.dev.seqState t ∉ [tsEMPTY, tsREADY, tsHALTED] →
      exec (.progLoad o ops) s = .next (s.onDev fun d => d.finish o 0x0201 (errR 0x0270))) ∧
    (s.dev.tileOwned l (s.dev.jobOf o) = true → s.dev.seqState t ∈ [tsEMPTY, tsREADY, tsHALTED] →
      ∀ d1 b, s.here.fetch (cmdAcc 1 (s.dev.domOf (s.dev.jobOf o))) (opnd ops 20 8) (opnd ops 28 4) = (d1, .ok b) →
      (∀ st r, progCheck b (opnd ops 28 4) (!d1.arrValid t 7) = some (st, r) → exec (.progLoad o ops) s = .next (s.onDev fun _ => d1.finish o 0x0201 (progErr st r))) ∧
      (progCheck b (opnd ops 28 4) (!d1.arrValid t 7) = none →
        (d1.arrValid t 7 = true → exec (.progLoad o ops) s = .next (s.onDev fun _ => ((d1.loadProgram t b false).onTile t
          (fun x => { x with img := (opnd ops 20 8, opnd ops 28 4, s.dev.domOf (s.dev.jobOf o)) })).finish o 0x0201 (okR (code8 b).count))) ∧
        (d1.arrValid t 7 = false → exec (.progLoad o ops) s = .next (s.onDev fun _ => ((d1.loadProgram t b true).onTile t
          (fun x => { x with img := (opnd ops 20 8, opnd ops 28 4, s.dev.domOf (s.dev.jobOf o)) })).finish o 0x0201 (okR ((code7 b).count + 0x8000))))))) ∧
  (∀ s o ops l t, AtHead s o 0x0206 ops → l = opnd ops 16 2 → t = s.dev.phys l →
    (s.dev.tileOwned l (s.dev.jobOf o) = false → exec (.tileHalt o ops) s = .next (s.onDev fun d => d.finish o 0x0206 (errR 0x0105))) ∧
    (s.dev.tileOwned l (s.dev.jobOf o) = true →
      (1 < opnd ops 18 1 → exec (.tileHalt o ops) s = .next (s.onDev fun d => d.finish o 0x0206 (errR 0x0107))) ∧
      (opnd ops 18 1 = 0 → exec (.tileHalt o ops) s =
        .next (s.onDev fun d => (d.hostHalt t).finish o 0x0206 (okR ((d.hostHalt t).get (CMD.SEQ_HALT_PC.PC t))))) ∧
      (opnd ops 18 1 = 1 → (s.dev.halted t = true → s.dev.get (CMD.SEQ_HALT.STATUS t) ∈ [0x0273, 0x0276]) → exec (.tileHalt o ops) s =
        .next (s.onDev fun d => (d.resumeTile t).finish o 0x0206 (okR ((d.resumeTile t).get (CMD.SEQ_HALT_PC.PC t))))))) ∧
  (∀ s o ops, AtHead s o 0x0202 ops →
    (opnd ops 28 1 = 0 → ∀ d1 b, s.here.fetch (cmdAcc 1 (s.dev.domOf (s.dev.jobOf o))) (opnd ops 16 8) (opnd ops 24 4) = (d1, .ok b) →
      ¬ (le b 0 2 ≤ 63 ∧ (d1.pipeState (le b 0 2) ≠ 0 ∨ (readMap b).job ≠ s.dev.jobOf o)) →
      (∀ k, d1.mapCheckStage b (opnd ops 24 4) = some k → exec (.stageMap o ops) s = .next (s.onDev fun _ => d1.finish o 0x0202 (errA 0x020C k))) ∧
      (d1.mapCheckStage b (opnd ops 24 4) = none → exec (.stageMap o ops) s = .next (s.onDev fun _ => (d1.mapPipe (le b 0 2) (readMap b)).finish o 0x0202 (okR 0)))) ∧
    (opnd ops 28 1 = 1 → ∀ m, (s.dev.pipe (opnd ops 29 2)).map = some m → m.job = s.dev.jobOf o →
      s.dev.pipeState (opnd ops 29 2) ∈ [psMAPPED, psSTEPEND, psFAULTED] →
      exec (.stageMap o ops) s = .next (s.onDev fun d => (d.unmapPipe (opnd ops 29 2) m).finish o 0x0202 (okR 0))))

/-- PIPELINE_START, MICROBATCH_ADMIT and PIPELINE_DRAIN (R299 to R301, R312): a mapped pipeline whose tiles are READY starts at ENTRY; an accepted
packet's descriptors are queued, a rejected one is counted and changes nothing else; a drain of a step whose descriptors are all admitted enters
DRAINING and completes when the last has retired. A pass at a stage whose tile has halted by a fault stops its pipeline (R313). -/
def Obligations.PipelineCommands : Prop :=
  (∀ s o ops p m, p = opnd ops 16 2 → s.dev.jobPipe p (s.dev.jobOf o) = some m →
    (AtHead s o 0x0203 ops → s.dev.pipeState p = psMAPPED → (∀ l ∈ s.dev.localTiles m, s.dev.seqState (s.dev.phys l) = tsREADY) →
      ∃ f : Dev → Dev, (∀ d, f d = ((((d.startTiles m).toService.set (CMD.PIPE_STATE.STATE p) psRUNNING).clearReg (CMD.PIPE_NEXT.REG p).off).clearReg
          (CMD.PIPE_RETIRED.REG p).off).set2 (CMD.PIPE_STEP_LO.STEP p) (CMD.PIPE_STEP_HI.STEP p) m.step) ∧
        exec (.pipelineStart o ops) s = .next (s.onDev fun d => (f d).finish o 0x0203 (okR 0))) ∧
    (AtHead s o 0x0203 ops → s.dev.pipeState p ≠ psMAPPED ∨ (∃ l ∈ s.dev.localTiles m, s.dev.seqState (s.dev.phys l) ≠ tsREADY) →
      exec (.pipelineStart o ops) s = .next (s.onDev fun d => d.finish o 0x0203 (errR 0x020B))) ∧
    (AtHead s o 0x0204 ops → s.dev.admitCheck p m ops = none → exec (.microbatchAdmit o ops) s = .next (s.onDev fun d => (d.admitAll p m ops).finish o 0x0204 (okU []))) ∧
    (AtHead s o 0x0204 ops → p < 64 → ∀ st r, s.dev.admitCheck p m ops = some (st, r) →
      exec (.microbatchAdmit o ops) s = .next (s.onDev fun d => (d.bump (CMD.PIPE_REJECTS.COUNT p) 1).finish o 0x0204 (errA st r))) ∧
    (AtHead s o 0x0205 ops → s.dev.pipeState p = psRUNNING → s.dev.get (CMD.PIPE_NEXT.N p) ≠ 0 → s.dev.get (CMD.PIPE_NEXT.INDEX p) = s.dev.get (CMD.PIPE_NEXT.N p) →
      exec (.pipelineDrain o ops) s = .next (s.onDev fun d => ((d.set (CMD.PIPE_STATE.STATE p) psDRAINING).toUnit []).tryDrain p m)) ∧
    (AtHead s o 0x0205 ops → s.dev.pipeState p = psFAULTED → ∃ d1, d1 = s.here.finish o 0x0205 (errR 0x020D) ∧
      exec (.pipelineDrain o ops) s = .next (s.onDev fun _ => d1.drainNow ops))) ∧
  (∀ s t, t < 200 →
    (∀ p k m, s.dev.halted t = true → haltKeeps (s.dev.get (CMD.SEQ_HALT.STATUS t)) = false → s.dev.stageOf (s.dev.logical t) = some (p, k, m) →
      exec (.pipelineStageFault t) s = .next (s.onDev fun d => d.pipeFault p m (d.get (CMD.SEQ_HALT.STATUS t)) (d.logical t))) ∧
    (s.dev.halted t = false ∨ haltKeeps (s.dev.get (CMD.SEQ_HALT.STATUS t)) = true → exec (.pipelineStageFault t) s = .next (s.onDev id)))

/-- What an accepted packet must hold (R300): its pipeline RUNNING, or at STEP_END; 1 to 15 well-formed descriptors of consecutive
indices below N from the next index on, of the step that runs; and room for them. -/
def Obligations.AdmittedPackets : Prop :=
  ∀ (d : Dev) p m ops, d.admitCheck p m ops = none → d.pipeState p ∈ [psRUNNING, psSTEPEND] ∧ 1 ≤ opnd ops 18 1 ∧ opnd ops 18 1 ≤ 15 ∧
    (d.pipe p).queue.length + opnd ops 18 1 ≤ 64 ∧
    ∀ j, j < opnd ops 18 1 → mbIndex (mbWords ops j) = (if d.pipeState p = psSTEPEND then 0 else d.get (CMD.PIPE_NEXT.INDEX p)) + j ∧
      mbIndex (mbWords ops j) < mbN (mbWords ops j) ∧ 1 ≤ mbM (mbWords ops j) ∧ mbM (mbWords ops j) ≤ m.maxRows ∧ linkFits m (mbWords ops j) = true

/-! ## Collectives -/

/-- Groups (R402 to R405, R417, R418): the cell group and others are made from their member list, read whole; a group with nothing queued is removed,
with its reservation; a reservation holds while all of them are at most 90 % of nominal capacity; at reset the pipeline class has weight 64, the
storage class 16, and neither a reservation. Posting collectives (R405, R407, R409, R412, R413): on an ACTIVE group with good operands the collective
joins the group's queue with the next sequence number, and starts when it is first; on a FAILED group it answers 0x0405 and on none 0x040E. The ends
of a group's collective (R415, R420): once every member's part is there it settles, leaves the queue and ends OK; past its timeout the group fails
with 0x0406 when members disagree and else 0x0404, and every later one of it with 0x0405. -/
def Obligations.GroupsAndCollectives : Prop :=
  ((∀ k w, (k, w) ∈ [(0x0100, 64), (0x0101, 16)] → State.reset.dev.get (CFI.GROUP_STATE.WEIGHT k) = w ∧ State.reset.dev.get (CFI.GROUP_RESERVE.RESERVED k) = 0) ∧
  ∀ s o ops,
    (AtHead s o 0x0301 ops → le ops 0 1 ≠ 255 → le ops 1 1 % 2 = 0 → s.dev.cellThere = false →
      exec (.groupCreate o ops) s = .next (s.onDev fun d => d.finish o 0x0301 (errR 0x0403))) ∧
    (AtHead s o 0x0301 ops → s.dev.groupFieldsOk ops = true → le ops 1 1 = 1 → le ops 32 8 = 0 → ∀ d0 d1 b,
      s.here.checkRanges (s.dev.domOf (s.dev.jobOf o)) [(le ops 8 8, 16 * le ops 2 2, 1)] = (d0, none) →
      d0.fetch (d0.cfiAcc (le ops 8 8) 1 (s.dev.domOf (s.dev.jobOf o))) (le ops 8 8) (16 * le ops 2 2) = (d1, .ok b) → ∀ pre,
      pre = (List.range (le ops 2 2)).map (fun i => le b (16 * i) 16) → (∀ p ∈ pre, p % 16 = 0) → ∀ hash, hash = crc32c (leBytes 2 (le ops 2 2) ++ leBytes 4 (le ops 4 4) ++ b) →
      exec (.groupCreate o ops) s = .next (s.onDev fun _ => ((({ d1 with cfi.prefixes := pre }.set CFI.CELL.RANK (le ops 16 2)).set CFI.CELL.SIZE (le ops 2 2)).groupMake
        ops (List.range (le ops 2 2)) (s.dev.domOf (s.dev.jobOf o)) hash).finish o 0x0301 (okR hash))) ∧
    (AtHead s o 0x0301 ops → s.dev.groupFieldsOk ops = true → le ops 1 1 = 0 → s.dev.cellThere = true → le ops 32 8 = 0 → ∀ d0 d1 b,
      s.here.checkRanges (s.dev.domOf (s.dev.jobOf o)) [(le ops 8 8, 2 * le ops 2 2, 1)] = (d0, none) →
      d0.fetch (d0.cfiAcc (le ops 8 8) 1 (s.dev.domOf (s.dev.jobOf o))) (le ops 8 8) (2 * le ops 2 2) = (d1, .ok b) → ∀ ms,
      ms = memberList b (le ops 2 2) → (∀ m ∈ ms, m < d1.get CFI.CELL.SIZE) → ms.eraseDups.length = le ops 2 2 → ms.getD (le ops 16 2) 0xFFFF = d1.rank →
      ∀ hash, hash = crc32c (leBytes 2 (le ops 2 2) ++ leBytes 4 (le ops 4 4) ++ b) →
      exec (.groupCreate o ops) s = .next (s.onDev fun _ => (d1.groupMake ops ms (s.dev.domOf (s.dev.jobOf o)) hash).finish o 0x0301 (okR hash))) ∧
    (AtHead s o 0x0302 ops → ∀ g, s.dev.group (le ops 0 1) = some g → zeroBytes ops 1 47 = true →
      (g.queue = [] → (le ops 0 1 = 255 → s.dev.cfi.groups.all (fun e => e.2.isNone || e.1 == 255) = true) →
        exec (.groupDestroy o ops) s = .next (s.onDev fun d => (d.groupRemove (le ops 0 1)).finish o 0x0302 (okU []))) ∧
      (g.queue ≠ [] → exec (.groupDestroy o ops) s = .next (s.onDev fun d => d.finish o 0x0302 (errR 0x0402)))) ∧
    (AtHead s o 0x0306 ops → ∀ k r others, k = le ops 0 2 → r = le ops 4 4 →
      others = (allClasses.filter (· != k)).foldl (fun a c => a + s.dev.get (CFI.GROUP_RESERVE.RESERVED c)) 0 → zeroBytes ops 3 1 = true → zeroBytes ops 8 40 = true →
      (k < 256 → (s.dev.group k).isSome ∧ s.dev.get (CFI.GROUP_STATE.STATE k) ≠ gsFAILED) → k ≤ 257 →
      (others + r ≤ 90 * cellPorts s.dev.code → exec (.groupReserve o ops) s = .next (s.onDev fun d =>
        (((d.set (CFI.GROUP_STATE.WEIGHT k) (le ops 2 1)).set (CFI.GROUP_RESERVE.RESERVED k) r).rescale).finish o 0x0306 (okU []))) ∧
      (90 * cellPorts s.dev.code < others + r → exec (.groupReserve o ops) s = .next (s.onDev fun d => d.finish o 0x0306 (errR 0x0407))))) ∧
  ((∀ s o ops g, AtHead s o 0x0303 ops → s.dev.group (le ops 0 1) = some g → s.dev.get (CFI.GROUP_STATE.STATE (le ops 0 1)) ≠ gsFAILED →
    le ops 1 1 ≤ 2 → (le ops 1 1 = 2 → le ops 2 1 = fcEX48 ∧ le ops 3 1 = fcEX48) →
    (le ops 1 1 ≠ 2 → le ops 2 1 ∈ [fcFP32, fcBF16] ∧ le ops 3 1 ∈ [fcFP32, fcBF16] ∧ 4194304 ≤ g.stagingLen) →
    le ops 20 8 ≠ 0 → (le ops 1 1 = 1 → le ops 20 8 % 32 = 0 ∧ g.size ≤ 16384) → zeroBytes ops 28 20 = true →
    ∃ c rs, c = Coll.fresh (.command o ops) ocRS (le ops 1 1) (le ops 2 1) (le ops 3 1) (le ops 4 8) (le ops 12 8) (le ops 20 8) (s.dev.domOf (s.dev.jobOf o)) s.clock.ns ∧
      exec (.reduceScatter o ops) s = .next (s.onDev fun d => ((d.collAdd (le ops 0 1) c).toUnit rs).kick)) ∧
  (∀ s o ops g, AtHead s o 0x0304 ops → s.dev.group (le ops 0 1) = some g → s.dev.get (CFI.GROUP_STATE.STATE (le ops 0 1)) ≠ gsFAILED →
    le ops 1 1 ≤ 1 → zeroBytes ops 2 2 = true → le ops 20 8 ≠ 0 → (le ops 1 1 = 1 → le ops 28 8 ≤ le ops 20 8) → zeroBytes ops 44 4 = true →
    ∃ c rs, c = { Coll.fresh (.command o ops) ocAG (le ops 1 1) 0 0 (le ops 4 8) (le ops 12 8) (le ops 20 8) (s.dev.domOf (s.dev.jobOf o)) s.clock.ns with
        own := (if le ops 1 1 = 1 then le ops 28 8 else 0), lenVec := (if le ops 1 1 = 1 then le ops 36 8 else 0) } ∧
      exec (.allGather o ops) s = .next (s.onDev fun d => ((d.collAdd (le ops 0 1) c).toUnit rs).kick)) ∧
  (∀ s o ops g, AtHead s o 0x0305 ops → s.dev.group (le ops 0 1) = some g → s.dev.get (CFI.GROUP_STATE.STATE (le ops 0 1)) ≠ gsFAILED →
    zeroBytes ops 1 1 = true → zeroBytes ops 14 2 = true → zeroBytes ops 24 24 = true →
    ∃ c rs, c = { Coll.fresh (.command o ops) ocPERM 0 0 0 0 0 0 (s.dev.domOf (s.dev.jobOf o)) s.clock.ns with
        sendCount := le ops 2 2, sendList := le ops 4 8, recvCount := le ops 12 2, recvList := le ops 16 8 } ∧
      exec (.permute o ops) s = .next (s.onDev fun d => ((d.collAdd (le ops 0 1) c).toUnit rs).kick)) ∧
  (∀ s o ops c, c ∈ [(Instr.reduceScatter o ops, 0x0303), (.allGather o ops, 0x0304)] → AtHead s o c.2 ops →
    (s.dev.group (le ops 0 1) = none → exec c.1 s = .next (s.onDev fun d => (d.finish o c.2 (errR 0x040E)).kick)) ∧
    (∀ g, s.dev.group (le ops 0 1) = some g → s.dev.get (CFI.GROUP_STATE.STATE (le ops 0 1)) = gsFAILED → g.size ≤ 16384 →
      exec c.1 s = .next (s.onDev fun d => (d.finish o c.2 (errR 0x0405)).kick)))) ∧
  ((∀ s k g c cs d1, s.dev.group k = some g → g.queue = c :: cs → s.dev.collDone k = true →
    (s.here.collSettle k g c = (d1, none) → exec (.collectiveComplete k) s =
      .next (s.onDev fun _ => ((d1.popColl k).collEnded k c (if c.opcode = ocRS then okR (if c.mode = 2 then c.sat else 0) else okU [])).kick.pendServe)) ∧
    (∀ st a, s.here.collSettle k g c = (d1, some (st, a)) → exec (.collectiveComplete k) s = .next (s.onDev fun _ => (d1.failSlot k (errA st a)).kick.pendServe))) ∧
  (∀ s k, s.dev.group k = none ∨ s.dev.collDone k = false → exec (.collectiveComplete k) s = .next (s.onDev (·.pendServe))) ∧
  (∀ s k g c cs, s.dev.group k = some g → g.queue = c :: cs → s.dev.collDone k = false →
    ∃ u, u = s.until (c.since + s.dev.get (CFI.GROUP_TIMEOUT.SECONDS k) * 1000000000) ∧ exec (.groupTimeout k) s = .next (u.onDev fun d =>
      (d.failSlot k (errR (if s.dev.flag (CFI.GROUP_STATE.MISMATCH k) = true then 0x0406 else 0x0404))).kick)))

/-! ## The parameter state engine and rounds -/

/-- A job's PSE commands run in their order (R386): one that must wait joins the job's queue. PSE_CONFIG and NORM_GUARD_CFG (R359, R360, R368): a
configuration in range, of the job's one seed and a readable table, is taken; a guard in range stands from the job's next step on. A field out of
range answers 0x0107, another seed 0x0281. STEP_UPDATE (R361 to R365): the step that is due, with good operands over an ACTIVE group and a readable
table and gradients, takes the pending guard, sums the squares of its NORM entries and posts the norm group's two collectives; it completes with the
boundary that ends it. A step out of order answers 0x0283 and changes no parameter state. SEAL, OUTER_APPLY, ROLLOUT_COPY and DIGEST (R381 to R384):
over a readable table and ranges each runs entry by entry and answers; SEAL and OUTER_APPLY outside host outer-step mode answer 0x0285, and an
accession that is not the sealed one, or is applied already, 0x0283. -/
def Obligations.PseCommands : Prop :=
  (∀ s o ops j c opc, (c, opc) ∈ [(Instr.pseConfig o ops, 0x0401), (.stepUpdate o ops, 0x0402), (.normGuardCfg o ops, 0x0403), (.sealCmd o ops, 0x0404),
      (.outerApply o ops, 0x0405), (.rolloutCopy o ops, 0x0406), (.digest o ops, 0x0407), (.loanCopySend o ops, 0x0506)] →
    AtHead s o opc ops → j = s.dev.jobOf o → (s.dev.pseUnit j).mustWait (s.dev.ckHolds j) (s.dev.pseBusy j) opc = true →
    exec c s = .next (s.onDev fun d => pseAfter ((d.onPse j (fun u => { u with queue := u.queue ++ [(o, opc, ops)] })).toUnit (d.pseCovers j opc ops)) j)) ∧
  ((∀ s o ops j c job, AtHead s o 0x0401 ops → j = s.dev.jobOf o → (s.dev.pseUnit j).mustWait (s.dev.ckHolds j) (s.dev.pseBusy j) 0x0401 = false →
    readPseCfg ops = some c → s.dev.job j = some job →
    (job.seed = none ∨ job.seed = some c.seed → ∀ d1 es, s.here.pseTable c job.domain (fun _ => true) = (d1, .ok es) →
      exec (.pseConfig o ops) s = .next (s.onDev fun d => pseAfter ((((d1.setJob j (some { job with seed := some c.seed })).onPse j (fun u => { u with cfg := some c })).pseReport
        j).hold (okU []) .ready (d.pseCovers j 0x0401 ops)) j)) ∧
    (∀ x, job.seed = some x → x ≠ c.seed → exec (.pseConfig o ops) s = .next (s.onDev fun d => pseAfter (d.finish o 0x0401 (errR 0x0281)) j))) ∧
  (∀ s o ops j, AtHead s o 0x0401 ops → j = s.dev.jobOf o → (s.dev.pseUnit j).mustWait (s.dev.ckHolds j) (s.dev.pseBusy j) 0x0401 = false → readPseCfg ops = none →
    exec (.pseConfig o ops) s = .next (s.onDev fun d => pseAfter (d.finish o 0x0401 (errR 0x0107)) j)) ∧
  (∀ s o ops j c, AtHead s o 0x0403 ops → j = s.dev.jobOf o → (s.dev.pseUnit j).mustWait (s.dev.ckHolds j) (s.dev.pseBusy j) 0x0403 = false → (s.dev.pseUnit j).cfg = some c →
    ∀ ratio w m clip x, ratio = le ops 0 4 → w = le ops 4 2 → m = le ops 6 2 → clip = le ops 8 4 → x = le ops 12 1 →
    f32Pos ratio = true → (f32Zero ratio = true ∨ 0x3F800000 ≤ ratio) → 1 ≤ m → m ≤ w → w ≤ 1024 → f32Pos clip = true → x ≤ 1 → zeroBytes ops 13 35 = true →
    (s.dev.pseUnit j).pending = none → exec (.normGuardCfg o ops) s = .next (s.onDev fun d => pseAfter (((d.onPse j (fun u => { u with
      pending := some (ratio, w, m, clip, x == 1) })).pseReport j).hold (okU []) .ready (d.pseCovers j 0x0403 ops)) j))) ∧
  (∀ s o ops j c, AtHead s o 0x0402 ops → j = s.dev.jobOf o → (s.dev.pseUnit j).mustWait (s.dev.ckHolds j) (s.dev.pseBusy j) 0x0402 = false → (s.dev.pseUnit j).cfg = some c →
    stepOps ops = true → s.dev.get (CFI.GROUP_STATE.STATE (le ops 24 2)) = gsACTIVE → ∀ job, s.dev.job j = some job →
    let want := match (s.dev.pseUnit j).last with | some l => stepAfter l | none => job.firstStep
    let dom := job.domain
    let g := le ops 24 2
    (le ops 0 8 ≠ want → exec (.stepUpdate o ops) s = .next (s.onDev fun d => pseAfter (d.finish o 0x0402 (errR 0x0283)) j)) ∧
    (le ops 0 8 = want → ∀ d1 d2 d3 d4 es tb acc bad, s.here.pseTable c dom (fun _ => true) = (d1, .ok es) →
      d1.pseRanges dom (es.flatMap (stepCopies c (le ops 0 8)) ++ d1.boundaryCopies j c (le ops 0 8) es) [] = (d2, none) →
      d2.fetch (d2.pseAny c.table 1 dom) c.table (128 * c.entries) = (d3, .ok tb) →
      Dev.normPass dom (d3.onPse j (·.takeGuard)) (es.filter (·.norm)) = (d4, .ok (acc, bad)) →
      exec (.stepUpdate o ops) s = .next (s.onDev fun d => pseAfter ((((((d4.onPse j (fun u => { u with run := some ⟨ops, tb, g, 0, false⟩, phase := 2 })).collAdd g
        { Coll.fresh (.normReduce j) ocRS 2 fcEX48 fcEX48 0 0 12 dom d4.now with limbs := limbsOf acc bad }).collAdd g
        { Coll.fresh (.normGather j) ocAG 0 fcEX48 fcEX48 0 0 72 dom d4.now with limbs := limbsOf acc bad }).pseReport j).toUnit (d.pseCovers j 0x0402 ops))) j))) ∧
  (∀ s o ops j c, j = s.dev.jobOf o → (s.dev.pseUnit j).cfg = some c → ∀ opc, (s.dev.pseUnit j).mustWait (s.dev.ckHolds j) (s.dev.pseBusy j) opc = false → AtHead s o opc ops →
    let dom := s.dev.domOf j
    (opc = 0x0404 → c.hostOuter = false → exec (.sealCmd o ops) s = .next (s.onDev fun d => pseAfter (d.finish o opc (errR 0x0285)) j)) ∧
    (opc = 0x0405 → c.hostOuter = false → exec (.outerApply o ops) s = .next (s.onDev fun d => pseAfter (d.finish o opc (errR 0x0285)) j)) ∧
    (opc = 0x0404 → c.hostOuter = true → zeroBytes ops 4 44 = true → ∀ d1 d2 d3 all es, s.here.pseTable c dom (·.round) = (d1, .ok all) → es = all.filter (·.round) →
      d1.pseRanges dom (es.flatMap (sealCopies true)) [] = (d2, none) →
      Dev.entriesRun (fun d e => d.entryRun e (fun d lo m => d.sealRun dom true e lo m)) d2 es = (d3, none) →
      exec (.sealCmd o ops) s = .next (s.onDev fun d => pseAfter (((d3.onPse j (fun u => { u with
        sealedAcc := some (le ops 0 4), hostSeal := some (le ops 0 4), phase := 4 })).pseReport j).hold
        (okR (le ops 0 4)) .ready (d.pseCovers j opc ops)) j)) ∧
    (opc = 0x0405 → c.hostOuter = true → le ops 4 1 ≤ 1 → le ops 5 1 ≤ 1 → zeroBytes ops 6 2 = true → zeroBytes ops 16 32 = true →
      (s.dev.pseUnit j).hostSeal ≠ some (le ops 0 4) ∨ le ops 0 4 ∈ (s.dev.pseUnit j).appliedAccs →
      exec (.outerApply o ops) s = .next (s.onDev fun d => pseAfter (d.finish o opc (errR 0x0283)) j)) ∧
    (opc = 0x0405 → c.hostOuter = true → le ops 4 1 ≤ 1 → le ops 5 1 ≤ 1 → zeroBytes ops 6 2 = true → zeroBytes ops 16 32 = true →
      (s.dev.pseUnit j).hostSeal = some (le ops 0 4) → le ops 0 4 ∉ (s.dev.pseUnit j).appliedAccs →
      ∀ d1 d2 d3 d4 all es b total input place buffer, s.here.pseTable c dom (·.round) = (d1, .ok all) → es = all.filter (·.round) → total = es.foldl (fun a e => a + e.count) 0 →
      place = (fun (e : PEnt) => (es.filter (fun x => decide (x.ix < e.ix))).foldl (fun a x => a + x.count) 0) →
      buffer = es.flatMap (fun e => d1.sliceRanges 1 dom e (le ops 8 8 + elemBits (le ops 5 1) / 8 * place e) (elemBits (le ops 5 1) / 8 * ·) 0 e.count) →
      d1.pseRanges dom (es.flatMap (outerCopies (le ops 4 1 == 1) (!f32Zero c.betaO))) buffer = (d2, none) → d2.fetchAll buffer = (d3, .ok b) →
      input = (fun (e : PEnt) (lo m : Nat) =>
        let vs := ((fmtValues (le ops 5 1) total b).drop (place e + lo)).take m
        if le ops 4 1 = 0 then OuterIn.delta vs else OuterIn.anchor vs) →
      Dev.entriesRun (fun d e => d.entryRun e (fun d lo m => d.outerRun c dom ((s.dev.pseUnit j).last.getD 0) (input e) e lo m)) d3 es = (d4, none) →
      exec (.outerApply o ops) s = .next (s.onDev fun d => pseAfter (((d4.onPse j (fun u => { u with
        appliedAccs := le ops 0 4 :: u.appliedAccs, applied := le ops 0 4, held := false, phase := 5 })).pseReport j).hold (okR (le ops 0 4)) .ready (d.pseCovers j opc ops)) j)) ∧
    (opc = 0x0406 → zeroBytes ops 0 48 = true → ∀ d1 d2 d3 all es, s.here.pseTable c dom (·.rollout) = (d1, .ok all) → es = all.filter (·.rollout) →
      d1.pseRanges dom (es.flatMap (fun e => [(e, cWEIGHT, 1), (e, cROLL, 2)])) [] = (d2, none) →
      Dev.entriesRun (fun d e => d.entryRun e (fun d lo m => d.rolloutRun dom e lo m)) d2 es = (d3, none) →
      exec (.rolloutCopy o ops) s = .next (s.onDev fun d => pseAfter (((d3.psePhase j 8).pseReport j).hold (okU []) .ready (d.pseCovers j opc ops)) j)) ∧
    (opc = 0x0407 → le ops 8 1 ≤ 7 → le ops 9 1 ≤ 1 → zeroBytes ops 10 38 = true → le ops 0 4 + le ops 4 4 ≤ c.entries →
      ∀ d1 d2 d3 all es a b m, s.here.pseTable c dom (fun e => decide (le ops 0 4 ≤ e.ix ∧ e.ix < le ops 0 4 + le ops 4 4)) = (d1, .ok all) →
      es = ((all.drop (le ops 0 4)).take (le ops 4 4)).filter (fun e => e.keeps c (ckptCopy (le ops 8 1))) →
      d1.pseRanges dom (es.map (fun e => (e, ckptCopy (le ops 8 1), 1))) [] = (d2, none) →
      Dev.digestRun dom (ckptCopy (le ops 8 1)) (le ops 9 1 == 1) d2 es = (d3, .ok (a, b, m)) →
      exec (.digest o ops) s = .next (s.onDev fun d => pseAfter (((d3.psePhase j 9).pseReport j).hold (okI a (leBytes 8 a ++ leBytes 8 b ++ leBytes 8 m ++ zeros 8)) .ready
        (d.pseCovers j opc ops)) j)))

/-- LOAN_COPY_SEND (R469): while a round is open the anchors of the shards a slot in use shares are encoded and offered to it; the command completes
when the last fragment is acknowledged, or at once when there is none. ROUND_CONFIG, ROUND_OPEN, PARTNER_REMOVE and EPOCH_COMMIT (R433 to R437, R465,
R467, R468). APPLY_BOUNDARY, OWN_PACKAGE_GATHER and DECISION_DEADLINE (R378, R440, R444, R452): a distributed accession is applied where a step waits
for it; the own package of the earliest accession that is encoded is gathered; at its deadline an accession in EXCHANGE is decided with what came. -/
def Obligations.Rounds : Prop :=
  (∀ s o ops j c rc, AtHead s o 0x0506 ops → j = s.dev.jobOf o → (s.dev.pseUnit j).cfg = some c → (s.dev.pseUnit j).mustWait (s.dev.ckHolds j) (s.dev.pseBusy j) 0x0506 = false →
    s.dev.rnd.cfg = some rc → rc.job = j → zeroBytes ops 2 46 = true → s.dev.flag WXU.ROUND_STATE.OPEN = true →
    (4096 ≤ le ops 0 2 ∨ s.dev.slotUsed (le ops 0 2) = false → exec (.loanCopySend o ops) s = .next (s.onDev fun d => pseAfter (d.finish o 0x0506 (errR 0x0507)) j)) ∧
    (le ops 0 2 < 4096 → s.dev.slotUsed (le ops 0 2) = true → ∀ d1 es d2 mine, s.here.pseTable c (s.dev.domOf j) (·.round) = (d1, .ok es) →
      mine = (d1.recorded rc).filter (fun e => e.2.partners.any (fun p => p.2 == le ops 0 2)) →
      Dev.loanEncode rc (s.dev.domOf j) (le ops 0 2) (d1.get WXU.ROUND_OPEN_ACC.ACCESSION + 1) es d1 mine = (d2, none) →
      (mine = [] → exec (.loanCopySend o ops) s = .next (s.onDev fun d => pseAfter (d2.hold (okU []) .ready (d.pseCovers j 0x0506 ops)) j)) ∧
      (mine ≠ [] → exec (.loanCopySend o ops) s = .next (s.onDev fun d => pseAfter ((({ d2 with
        rnd.loansOut := d2.rnd.loansOut ++ [⟨o, ops, le ops 0 2, d1.get WXU.ROUND_OPEN_ACC.ACCESSION + 1⟩] } : Dev).wantCheck (le ops 0 2) false).toUnit (d.pseCovers j 0x0506 ops)) j)))) ∧
  (∀ s o ops,
    (AtHead s o 0x0501 ops → ∀ d1 st r, s.here.roundCheck (s.dev.jobOf o) ops = (d1, .error (st, r)) → exec (.roundConfig o ops) s = .next (s.onDev fun _ => d1.finish o 0x0501 (errA st r))) ∧
    (AtHead s o 0x0501 ops → ∀ d1 c need, s.here.roundCheck (s.dev.jobOf o) ops = (d1, .ok (c, need)) →
      ((le ops 11 1).testBit 0 = true → exec (.roundConfig o ops) s = .next (s.onDev fun _ => d1.finish o 0x0501 (okR need))) ∧
      ((le ops 11 1).testBit 0 = false → exec (.roundConfig o ops) s = .next (s.onDev fun _ => ((({ d1.abandonAccs with
        rnd.cfg := some c, rnd.loansIn := [], rnd.joined := false, rnd.hostApply := [] } : Dev).set WXU.ROUND_STATE.JOIN_WAIT
          (if c.join then 1 else 0)).updateActive true).finish o 0x0501 (okU [])))) ∧
    (AtHead s o 0x0502 ops → zeroBytes ops 13 35 = true → ∀ c, s.dev.rnd.cfg = some c → c.job = s.dev.jobOf o → s.dev.flag WXU.ROUND_STATE.EXHAUSTED = false →
      (le ops 12 1 = 1 → s.dev.flag WXU.ROUND_STATE.OPEN = true → exec (.roundOpen o ops) s = .next (s.onDev fun d => (d.set WXU.ROUND_STATE.STOPPING 1).finish o 0x0502 (okU []))) ∧
      (le ops 12 1 = 1 → s.dev.flag WXU.ROUND_STATE.OPEN = false → exec (.roundOpen o ops) s = .next (s.onDev fun d => d.finish o 0x0502 (errR 0x0503))) ∧
      (le ops 12 1 = 0 → s.dev.flag WXU.ROUND_STATE.OPEN = false → s.dev.rnd.opening = none → (c.join = true → s.dev.rnd.joined = true) →
        s.dev.nextStep c.job ≤ le ops 4 8 → (s.dev.rnd.restart = true ∨ ∀ l, s.dev.rnd.lastSealed = some l → l < le ops 0 4) →
        ((s.dev.pseUnit c.job).run = none → le ops 4 8 = s.dev.nextStep c.job → exec (.roundOpen o ops) s = .next (s.onDev fun d =>
          ((({ d with rnd.opening := some (le ops 0 4, le ops 4 8), rnd.restart := false } : Dev).openRound c (le ops 0 4) (le ops 4 8)).creditAll).finish o 0x0502 (okU []))) ∧
        ((s.dev.pseUnit c.job).run ≠ none ∨ le ops 4 8 ≠ s.dev.nextStep c.job → exec (.roundOpen o ops) s = .next (s.onDev fun d =>
          (({ d with rnd.opening := some (le ops 0 4, le ops 4 8), rnd.restart := false } : Dev).creditAll).finish o 0x0502 (okU []))))) ∧
    (AtHead s o 0x0504 ops → zeroBytes ops 2 46 = true →
      (le ops 0 2 < 4096 → s.dev.slotUsed (le ops 0 2) = true → exec (.partnerRemove o ops) s = .next (s.onDev fun d => ((d.removeSlot (le ops 0 2)).finish o 0x0504 (okU [])).kick)) ∧
      (4096 ≤ le ops 0 2 ∨ s.dev.slotUsed (le ops 0 2) = false → exec (.partnerRemove o ops) s = .next (s.onDev fun d => (d.finish o 0x0504 (errR 0x0507)).kick))) ∧
    (AtHead s o 0x0505 ops → le ops 2 1 ≤ 1 → zeroBytes ops 3 5 = true → zeroBytes ops 16 32 = true →
      (s.dev.flag WXU.EPOCH_CTL.PENDING_VALID = true → exec (.epochCommit o ops) s = .next (s.onDev fun d => (d.finish o 0x0505 (errR 0x0503)).kick)) ∧
      (s.dev.flag WXU.EPOCH_CTL.PENDING_VALID = false → (s.dev.rnd.everOpened = true → le ops 0 2 = (s.dev.get WXU.EPOCH.CURRENT + 1) % 65536) →
        (s.dev.ownCell < 64 → (le ops 8 8).testBit s.dev.ownCell = true) → ∃ f : Dev → Dev,
        (∀ d, f d = { (d.set WXU.EPOCH.PENDING (le ops 0 2)).set WXU.EPOCH_CTL.PENDING_VALID 1 with rnd.pendRestart := le ops 2 1 == 1, rnd.pendMembers := le ops 8 8 }) ∧
        (s.dev.flag WXU.ROUND_STATE.OPEN = true → exec (.epochCommit o ops) s = .next (s.onDev fun d => ((f d).finish o 0x0505 (okU [])).kick)) ∧
        (s.dev.flag WXU.ROUND_STATE.OPEN = false → exec (.epochCommit o ops) s = .next (s.onDev fun d => (((f d).takeEpoch).finish o 0x0505 (okU [])).kick))))) ∧
  ((∀ s j c r rc k x d1 d2 es mine dom, (s.dev.pseUnit j).cfg = some c → (s.dev.pseUnit j).run = some r → s.dev.rnd.cfg = some rc → rc.job = j → r.waiting = true →
    s.dev.applySlot rc (le r.ops 0 8) = some k → s.dev.accSlot k = some x → s.dev.accState k = acDISTRIBUTED →
    dom = s.dev.domOf j → es = (readTable r.table).filter (fun e => e.round && rc.shards.any (fun z => z.entry == e.ix)) →
    mine = (fun (e : PEnt) => x.contribs.filter (fun y => match rc.shards[y.shard]? with | some z => z.entry == e.ix | none => false)) →
    s.here.pseRanges dom (es.flatMap (outerCopies false (!f32Zero c.betaO))) (es.flatMap (fun e => (mine e).flatMap (fun y =>
      s.here.sliceRanges 1 dom e y.addr (fmtBytes 1) 0 e.count))) = (d1, none) →
    Dev.entriesRun (fun d e => (Dev.contribList rc c e d (mine e)).1.applyEntry c dom (le r.ops 0 8) (Dev.contribList rc c e d (mine e)).2 e) d1 es = (d2, none) →
    ∃ d3, d3 = (d2.onPse j (fun u => { u with applied := x.acc, run := some { r with waiting := false }, phase := 5 })).setAccState k acLATE ∧
      exec (.applyBoundary j) s = .next (s.onDev fun _ => pseAfter ((d3.when (!d3.flag WXU.ROUND_STATE.OPEN && d3.rnd.opening.isNone && !d3.flag WXU.ROUND_STATE.EXHAUSTED
        && (List.range 4).all (fun i => (d3.accSlot i).isNone || d3.accState i == acLATE)) (·.closeWindows (fun _ => true))).retireAccs.stepFinish j c r) j)) ∧
  (∀ s j c k x, s.dev.rnd.cfg = some c → c.job = j → s.dev.accSlot k = some x → k < 4 → (∀ i < 4, i ≠ k → s.dev.accSlot i = none) → x.pkgSent = false → x.encoded = true →
    s.dev.accState k = acSEALING → exec (.ownPackageGather j) s = .next (s.onDev fun d => ((d.onAcc k (fun y => { y with pkgSent := true })).collAdd c.group
      { Coll.fresh (.package j x.acc) ocAG 1 0 0 (c.outAddr (d.roundSize c) k (d.roundIx c)) (c.outBlock (d.roundSize c) k) c.ownSlot d.roundDom d.now with
        own := x.ownLen, lenVec := c.outVec (d.roundSize c) k }).kick)) ∧
  (∀ s j acc c x, s.dev.rnd.cfg = some c → c.job = j → s.dev.accSlot (acc % 4) = some x → x.acc = acc → s.dev.accState (acc % 4) = acEXCHANGE →
    exec (.decisionDeadline j acc) s = .next ((s.until (x.sealedAt + c.deadlineMs * 1000000)).onDev (·.decideDue.kick))))

/-! ## Security -/

/-- KEY_GENERATE, KEY_DESTROY and ATTEST (R510, R511, R520, R536): an AES key is drawn at once, a private key and a public one go through the public-
key engine; a key that nothing names is erased at once, one that is named when nothing names it; ATTEST signs through the engine. Reserved slots and
other jobs' keys are refused. PARTNER_ADD and HANDSHAKE (R462, R522 to R524): a free slot with a public anchor key enters HANDSHAKE and begins;
setting the own endorsement verifies it with the anchor; a rekey of an OPEN slot begins and completes with it. -/
def Obligations.KeysAndPartners : Prop :=
  (∀ s o ops k,
    (AtHead s o 0x0601 ops → opnd ops 16 2 < 16 → exec (.keyGenerate o ops) s = .next (s.onDev fun d => d.finish o 0x0601 (errR 0x0105))) ∧
    (AtHead s o 0x0601 ops → 16 ≤ opnd ops 16 2 → s.dev.keyOperandsOk ops = true → s.dev.keyTarget (opnd ops 16 2) = .ok k →
      (opnd ops 18 1 = ktAES → s.dev.entropyOk = true → ∃ key : Bytes, key.length = 32 ∧ exec (.keyGenerate o ops) s =
        .next (s.onDev fun d => (({ d with draws := d.draws + 1 }.setKey k (opnd ops 20 2) (some ⟨.aes key, false⟩))).finish o 0x0601 (okR k))) ∧
      (opnd ops 18 1 = ktAES → s.dev.entropyOk = false → exec (.keyGenerate o ops) s = .next (s.onDev fun d => d.finish o 0x0601 (errR 0x0613))) ∧
      (opnd ops 18 1 = ktPRIV → ∀ d1 segs, s.here.xlate (hifAcc 2 (s.dev.domOf (s.dev.jobOf o))) (opnd ops 24 8) 97 = (d1, .ok segs) →
        exec (.keyGenerate o ops) s = .next (s.onDev fun _ => (d1.pkAdd ⟨.keygen, [], [], [], [], .generate o ops k⟩).toUnit [(opnd ops 24 8, 97)])) ∧
      (opnd ops 18 1 ≠ ktAES → opnd ops 18 1 ≠ ktPRIV → ∀ d1 pt, s.here.fetch (hifAcc 1 (s.dev.domOf (s.dev.jobOf o))) (opnd ops 24 8) 97 = (d1, .ok pt) →
        exec (.keyGenerate o ops) s = .next (s.onDev fun _ => (d1.pkAdd ⟨.validate, [], pt, [], [], .import_ o ops k⟩).toUnit [(opnd ops 24 8, 97)]))) ∧
    (AtHead s o 0x0603 ops → k = opnd ops 16 2 → 16 ≤ k → k ≤ 1023 → ∀ x, s.dev.key k = some x → ¬ (x.val.type = ktSESSION ∧ s.dev.sessionUsed k = true) →
      (s.dev.get (SEC.KEY_TYPE.OWNER k) ≠ s.dev.jobOf o → exec (.keyDestroy o ops) s = .next (s.onDev fun d => d.finish o 0x0603 (errR 0x0211))) ∧
      (s.dev.get (SEC.KEY_TYPE.OWNER k) = s.dev.jobOf o → s.dev.keyNamed k = false →
        exec (.keyDestroy o ops) s = .next (s.onDev fun d => (d.setKey k 0 none).finish o 0x0603 (okU []))) ∧
      (s.dev.get (SEC.KEY_TYPE.OWNER k) = s.dev.jobOf o → s.dev.keyNamed k = true → exec (.keyDestroy o ops) s = .next (s.onDev fun d => d.toUnit []))) ∧
    (AtHead s o 0x0604 ops → s.dev.flag SEC.STATE.IDENTITY_LOCKED = true → exec (.attest o ops) s = .next (s.onDev fun d => d.finish o 0x0604 (errR 0x0614))) ∧
    (AtHead s o 0x0604 ops → s.dev.flag SEC.STATE.IDENTITY_LOCKED = false → s.dev.flag SEC.STATE.DIK_LOADED = true → opndZero ops 32 32 = true → ∀ d1 segs d2 nonce,
      s.here.xlate (hifAcc 2 (s.dev.attestDom o)) (opnd ops 16 8) 512 = (d1, .ok segs) →
      d1.fetch (hifAcc 1 (s.dev.attestDom o)) (opnd ops 24 8) 48 = (d2, .ok nonce) →
      exec (.attest o ops) s = .next (s.onDev fun _ => (d2.pkAdd ⟨.sign, beBytes 48 dikScalar, [], nonce, [], .attest o ops⟩).toUnit
        [(opnd ops 16 8, 512), (opnd ops 24 8, 48)]))) ∧
  (∀ s o ops,
    (AtHead s o 0x0503 ops → ∀ k n, k = opnd ops 16 2 → n = opnd ops 24 2 → k < 4096 → 
      (s.dev.slotState k = wsHANDSHAKE ∨ s.dev.slotState k = wsOPEN → exec (.partnerAdd o ops) s = .next (s.onDev fun d => d.finish o 0x0503 (errR 0x0505))) ∧
      (s.dev.slotState k = wsFREE → partnerOk ops = true → 16 ≤ n → ∀ d1 pt, s.here.useKey n = (d1, .ok (.pub pt)) → exec (.partnerAdd o ops) s =
        .next (s.onDev fun _ => ((d1.issueSlot (s.dev.jobOf o) k ops).hsStart k).finish o 0x0503 (okR ((d1.issueSlot (s.dev.jobOf o) k ops).slotGen k))))) ∧
    (AtHead s o 0x0602 ops → opnd ops 16 1 = 0 → 16 ≤ opnd ops 18 2 → opnd ops 18 2 ≤ 1023 → ∀ d1 pt d2 e, s.here.useKey (opnd ops 18 2) = (d1, .ok (.pub pt)) →
      d1.fetch (hifAcc 1 (s.dev.domOf (s.dev.jobOf o))) (opnd ops 24 8) 256 = (d2, .ok e) →
      (endorsPoint e = pubOf dikScalar ∧ le e 24 8 = Config.serial.toNat ∧ (d2.cfgCell = 0xFF ∨ le e 6 1 = d2.cfgCell) → exec (.handshake o ops) s =
        .next (s.onDev fun _ => (d2.pkAdd ⟨.verify, e, pt, endorsDigest e, endorsSig e, .ownEndorse o ops⟩).toUnit [(opnd ops 24 8, 256)])) ∧
      (endorsPoint e ≠ pubOf dikScalar ∨ le e 24 8 ≠ Config.serial.toNat ∨ (d2.cfgCell ≠ 0xFF ∧ le e 6 1 ≠ d2.cfgCell) →
        exec (.handshake o ops) s = .next (s.onDev fun _ => d2.finish o 0x0602 (errR 0x0609)))) ∧
    (AtHead s o 0x0602 ops → opnd ops 16 1 = 1 → ∀ p x ss, opnd ops 18 2 < 4096 → s.dev.pslot (opnd ops 18 2) = some p → s.dev.session (opnd ops 18 2) = some (x, ss) →
      s.dev.slotOpen (opnd ops 18 2) = true →
      (p.rekeyCmd = none → exec (.handshake o ops) s = .next (s.onDev fun d => ((d.onPslot (opnd ops 18 2) (fun p => { p with
        rekeyCmd := some (o, ops), rekeyTo := ss.phase + 1 })).rekey (opnd ops 18 2)).toUnit [])) ∧
      (p.rekeyCmd ≠ none → exec (.handshake o ops) s = .next (s.onDev fun d => d.finish o 0x0602 (errR 0x060E)))) ∧
    (AtHead s o 0x0602 ops → 1 < opnd ops 16 1 → exec (.handshake o ops) s = .next (s.onDev fun d => d.finish o 0x0602 (errR 0x0107))))

/-- The public-key engine (R519, R520): a free core in service takes the oldest operation queued when it is of the row's kind, and with nothing queued
the control core's own, under the private key of its slot or with the status of using it; a core that is busy or out of service takes none. An
operation completes with the status of its checks. Entropy that fails its tests closes it to what draws (R516). Handshakes in time (R527): a HELLO is
sent again 200 ms after its last sending while the peer's is missing; a failed handshake starts afresh after each second, and one that has not opened
30 s after PARTNER_ADD fails once with cause 8. -/
def Obligations.PkEngineAndHandshakes : Prop :=
  ((∀ s c k i q qs slot x pt dg sg, c < 4 → s.dev.pkCore c = none → s.dev.pkInService c = true → s.dev.sec.pkQueue = q :: qs → (i, k) ∈ pkRows c slot x pt dg sg →
    exec i s = .next (s.onDev fun d => if q.kind = k then { d with sec.pkQueue := qs }.setPkCore c (some q) else d)) ∧
  (∀ s c k i slot x pt dg sg, 4 ≤ c ∨ (s.dev.pkCore c).isSome ∨ s.dev.pkInService c = false → (i, k) ∈ pkRows c slot x pt dg sg → exec i s = .next (s.onDev id)) ∧
  (∀ s c x pt dg sg, c < 4 → s.dev.pkCore c = none → s.dev.pkInService c = true → s.dev.sec.pkQueue = [] →
    (∀ i op, (i, op) ∈ [(Instr.pkScalarmult ⟨c, x, pt⟩, (⟨.scalarmult, x, pt, [], [], .core 0⟩ : PkOp)), (.pkKeygen c, ⟨.keygen, [], [], [], [], .core 0⟩),
        (.pkVerify ⟨c, pt, dg, sg⟩, ⟨.verify, [], pt, dg, sg, .core 0⟩), (.pkValidate ⟨c, pt⟩, ⟨.validate, [], pt, [], [], .core 0⟩), (.pkHkdf c, ⟨.hkdf, [], [], [], [], .core 0⟩)] →
      exec i s = .next (s.onDev (·.setPkCore c (some op)))) ∧
    (∀ slot d1 k, s.here.privateKey slot = (d1, .ok k) →
      exec (.pkEcdh ⟨c, slot, pt⟩) s = .next (s.onDev fun _ => d1.setPkCore c (some ⟨.ecdh, k, pt, [], [], .core 0⟩)) ∧
      exec (.pkSign ⟨c, slot, dg⟩) s = .next (s.onDev fun _ => d1.setPkCore c (some ⟨.sign, k, [], dg, [], .core 0⟩))) ∧
    (∀ slot d1 st, s.here.privateKey slot = (d1, .error st) →
      exec (.pkEcdh ⟨c, slot, pt⟩) s = .next (s.onDev fun _ => d1.setPkCore c (some ⟨.ecdh, [], pt, [], [], .core st⟩)) ∧
      exec (.pkSign ⟨c, slot, dg⟩) s = .next (s.onDev fun _ => d1.setPkCore c (some ⟨.sign, [], [], dg, [], .core st⟩)))) ∧
  (∀ s c q, s.dev.pkCore c = some q → ∃ st, st = (match q.use with | .core (n + 1) => n + 1 | _ => s.here.pkStatus q) ∧
    exec (.pkOperationComplete c) s = .next (s.onDev fun d => (((d.setPkCore c none).pkCount st).pkFollow q st).keyRelease)) ∧
  (∀ s, exec .entropyFail s = .next (s.onDev fun d => (d.set SEC.STATE.ENTROPY_OK 0).eventOpen 0x0613))) ∧
  (∀ s k p, s.dev.pslot k = some p → s.dev.slotState k = wsHANDSHAKE →
    (p.hello ≠ [] → p.peerHello = [] → exec (.helloResend k) s = .next ((s.until (p.helloAt + 200000000)).onDev fun d =>
      (d.onPslot k (fun p => { p with helloSends := p.helloSends + 1, helloAt := d.now })).sendHandshake k 0xFFFF 0 p.hello)) ∧
    (∀ t, p.retryAt = some t → exec (.handshakeRetry k) s = .next ((s.until t).onDev fun d =>
      (d.onPslot k (fun p => { p with retryAt := some (d.now + 1000000000) })).hsStart k)) ∧
    (8 ∉ p.causes → exec (.handshakeTimeout k) s = .next ((s.until (p.addedAt + 30000000000)).onDev fun d =>
      ((d.bump SEC.HS_FAILED.COUNT 1).onPslot k (fun p => { p with retryAt := some (d.now + 1000000000), causes := 8 :: p.causes })).event 0x060A (k + 8 * 65536))))

/-! ## Storage -/

/-- Storage targets (R541): a free target takes queue pairs and its window, and RESULT tells the first queue pair and its PSN, a free value; a target
with no command is removed; anything else answers 0x0291. CKPT_WRITE, CKPT_READ and SNAPSHOT (R549 to R560): they run in the job's PSE order; an
unstaged write whose checks pass begins by writing 256 zero bytes of header, a read by reading the first header; a refused one answers its first
failing check. A storage server's packets and the timers of a queue pair (R423, R424): an acknowledgement releases what it covers and lets the queue
pair go on; a NAK sends again from the PSN it names; an RNR NAK holds the queue pair back for its time, at whose end it sends again; a CNP lowers its
rate; its retry timer sends again. A queue pair without a target, or in error, ignores them; an inbound request is discarded and counted. -/
def Obligations.CheckpointStorage : Prop :=
  (∀ s o ops t, AtHead s o 0x0703 ops → t = le ops 0 1 →
    (16 ≤ t ∨ 1 < le ops 1 1 → exec (.storageTargetAdd o ops) s = .next (s.onDev fun d => d.finish o 0x0703 (errR 0x0291))) ∧
    (t < 16 → le ops 1 1 = 1 → s.dev.targetUsed t = true → s.dev.targetBusy t = false →
      exec (.storageTargetAdd o ops) s = .next (s.onDev fun d => (d.targetRemove t).hold (okU []) .ready [])) ∧
    (t < 16 → le ops 1 1 = 1 → s.dev.targetUsed t = false ∨ s.dev.targetBusy t = true → exec (.storageTargetAdd o ops) s = .next (s.onDev fun d => d.finish o 0x0703 (errR 0x0291))) ∧
    (t < 16 → le ops 1 1 = 0 → s.dev.targetUsed t = true ∨ targetOk ops = false ∨ s.dev.freeQps (le ops 2 1) = none →
      exec (.storageTargetAdd o ops) s = .next (s.onDev fun d => d.finish o 0x0703 (errR 0x0291))) ∧
    (t < 16 → le ops 1 1 = 0 → s.dev.targetUsed t = false → targetOk ops = true → ∀ q, s.dev.freeQps (le ops 2 1) = some q → ∃ psn d0, psn < 2 ^ 24 ∧
      d0 = { s.here with draws := s.dev.draws + 1 }.each (List.range (le ops 2 1)) (fun d i => d.setQp (q + i) { qpDflt 0 with
        target := t + 1, remote := le ops (48 + 4 * i) 4, psn := psn }) ∧ ∃ d1, d1 = { d0 with ckpt.servers := smapSet zeroDflt d0.ckpt.servers t (le ops 24 16) } ∧
      exec (.storageTargetAdd o ops) s = .next (s.onDev fun _ => ((((((d1.set (CFI.STORE_STATE.FIRST_QP t) q).set (CFI.STORE_STATE.QP_COUNT t) (le ops 2 1)).set
        (CFI.STORE_STATE.STATE t) 1).set (CFI.STORE_RKEY.RKEY t) (le ops 4 4)).set2 (CFI.STORE_BASE_LO.ADDR t) (CFI.STORE_BASE_HI.ADDR t) (le ops 8 8)).set2
        (CFI.STORE_LEN_LO.BYTES t) (CFI.STORE_LEN_HI.BYTES t) (le ops 16 8)).hold (okR (0x100 + q + psn * 2 ^ 24)) .ready []))) ∧
  ((∀ s o ops j c opc, (c, opc) ∈ [(Instr.ckptWrite o ops, 0x0701), (.ckptRead o ops, 0x0702), (.snapshot o ops, 0x0704)] → AtHead s o opc ops → j = s.dev.jobOf o →
    (s.dev.pseUnit j).mustWait (s.dev.ckHolds j) (s.dev.pseBusy j) opc = true →
    exec c s = .next (s.onDev fun d => storeAfter ((d.onPse j (fun u => { u with queue := u.queue ++ [(o, opc, ops)] })).toUnit (d.pseCovers j opc ops)) j)) ∧
  (∀ s o ops j c cfg opc, (c, opc) ∈ [(Instr.ckptWrite o ops, 0x0701), (.snapshot o ops, 0x0704)] → AtHead s o opc ops → j = s.dev.jobOf o →
    (s.dev.pseUnit j).mustWait (s.dev.ckHolds j) (s.dev.pseBusy j) opc = false → (s.dev.pseUnit j).cfg = some cfg →
    (ckWriteOps (opc == 0x0704) ops = false → exec c s = .next (s.onDev fun d => storeAfter (d.finish o opc (errR 0x0107)) j)) ∧
    (ckWriteOps (opc == 0x0704) ops = true → (le ops 1 1).testBit 1 = false → s.dev.targetReady (le ops 0 1) = false →
      exec c s = .next (s.onDev fun d => storeAfter (d.finish o opc (errR 0x0298)) j)) ∧
    (∀ d1 r, s.here.ckWriteStart j cfg opc o ops = (d1, some r) → r.status = 0 → exec c s = .next (s.onDev fun d => storeAfter (d1.hold r .ready (d.pseCovers j opc ops)) j)) ∧
    (∀ d1, s.here.ckWriteStart j cfg opc o ops = (d1, none) → exec c s = .next (s.onDev fun d => storeAfter (d1.toUnit (d.pseCovers j opc ops)) j))) ∧
  (∀ (d : Dev) j cfg opc o ops d1 d2 es rs, ckWriteOps (opc == 0x0704) ops = true → (le ops 1 1).testBit 0 = false → (le ops 1 1).testBit 1 = false →
    d.targetReady (le ops 0 1) = true → d.pseTable cfg (d.domOf j) (fun e => !(ckRecords cfg (le ops 6 2) (le ops 2 2) (le ops 4 2) [e]).isEmpty) = (d1, .ok es) →
    rs = ckRecords cfg (le ops 6 2) (le ops 2 2) (le ops 4 2) es → ∀ len, len = (ckLayout (256 + 128 * (ckSizes rs).length) (ckSizes rs)).2 →
    (d1.targetLen (le ops 0 1) < le ops 16 8 + len → d.ckWriteStart j cfg opc o ops = (d1, some (errA 0x0292 len))) ∧
    (le ops 16 8 + len ≤ d1.targetLen (le ops 0 1) → d1.pseRanges (d.domOf j) [] (rs.flatMap (fun (x, e, lo, hi) => d1.copyRanges 1 (d.domOf j) e (ckptCopy x) (lo - e.first) (hi - lo))) = (d2, none) →
      ∃ run : CkRun, run.org = o ∧ run.ops = ops ∧ run.target = le ops 0 1 ∧ run.base = le ops 16 8 ∧ run.len = len ∧ run.job = j ∧
        d.ckWriteStart j cfg opc o ops = ((d2.ckBegin run).ckPut run 0 0 256 (.bytes (zeros 256)), none))) ∧
  (∀ s o ops j cfg, AtHead s o 0x0702 ops → j = s.dev.jobOf o → (s.dev.pseUnit j).mustWait (s.dev.ckHolds j) (s.dev.pseBusy j) 0x0702 = false →
    ((s.dev.pseUnit j).cfg = none → exec (.ckptRead o ops) s = .next (s.onDev fun d => storeAfter (d.finish o 0x0702 (errR 0x0290)) j)) ∧
    ((s.dev.pseUnit j).cfg = some cfg → s.dev.jobRuns j = false → s.dev.jobRound j = false → 1 ≤ le ops 8 4 → le ops 8 4 ≤ 65536 → (le ops 12 2 &&& 0xFE40) = 0 →
      le ops 14 1 ≤ 1 → zeroBytes ops 15 1 = true → zeroBytes ops 24 24 = true → ∀ d1 es d2 b ss,
      s.here.pseTable cfg (s.dev.domOf j) (fun e => !(ckWanted cfg (le ops 12 2) [e]).isEmpty) = (d1, .ok es) →
      d1.fetch (d1.cfiAcc (le ops 0 8) 1 (s.dev.domOf j)) (le ops 0 8) (16 * le ops 8 4) = (d2, .ok b) → d2.ckSources b (le ops 8 4) 0 = .ok ss →
      ∃ run : CkRun, run.org = o ∧ run.ops = ops ∧ run.sources = ss ∧ run.job = j ∧
        exec (.ckptRead o ops) s = .next (s.onDev fun d => storeAfter (((d2.ckBegin run).ckGet run 0 0 256).toUnit (d.pseCovers j 0x0702 ops)) j)))) ∧
  ((∀ s q, (s.dev.qp q).target ≠ 0 → (s.dev.qp q).err = false →
    (∀ psn, exec (.roceAck q psn) s = .next (s.onDev fun d => ((d.roceRelease q psn).roceGo q).storeOn)) ∧
    (∀ psn, exec (.roceNak q psn) s = .next (s.onDev fun d => (((d.roceRelease q ((psn + 2 ^ 24 - 1) % 2 ^ 24)).roceRetry q).roceGo q).storeOn)) ∧
    (∀ psn ns, exec (.roceRnrNak q psn ns) s = .next (s.onDev fun d => ((d.roceRelease q ((psn + 2 ^ 24 - 1) % 2 ^ 24)).onQp q (fun x => { x with
      rnrUntil := some (s.clock.ns + ns) })).storeOn)) ∧
    (∀ psn bs, exec (.roceReadResponse q psn bs) s = .next (s.onDev fun d => (d.roceResponse q psn bs).storeOn)) ∧
    (∀ t, s.dev.roceDue q = some t → exec (.roceRetryTimer q) s = .next ((s.until t).onDev fun d => (d.roceRetry q).storeOn)) ∧
    (∀ t, (s.dev.qp q).rnrUntil = some t → exec (.roceRnrWaitExpiry q) s = .next ((s.until t).onDev fun d =>
      (((d.onQp q (fun x => { x with rnrUntil := none })).roceResend q).roceGo q).storeOn))) ∧
  (∀ s q psn bs c, (s.dev.qp q).target = 0 ∨ (s.dev.qp q).err = true → c ∈ [.roceAck q psn, .roceNak q psn, .roceReadResponse q psn bs] → exec c s = .next (s.onDev id)) ∧
  (∀ s q, exec (.roceCnp q) s = .next (s.onDev (·.roceCut q))) ∧
  (∀ s p, Calm s → p < 16 → s.dev.cellUp p = true → ∃ t, exec (.roceInboundRequest p) s = .next t ∧ OnlyParts [.regs] s t ∧
    t.dev.get (CFI.PORT_DISCARDS.COUNT p) = min (2 ^ 32 - 1) (s.dev.get (CFI.PORT_DISCARDS.COUNT p) + 1) ∧
    OnlyFields [CFI.PORT_RX.COUNT p, CFI.PORT_DISCARDS.COUNT p] s t))

/-! ## Time -/

/-- TIMER_ARM, TIMER_CANCEL, CAPTURE_CFG and TIME_CONFIG (R572, R582 to R587). -/
def Obligations.TimeCommands : Prop :=
  ∀ s o ops,
    (AtHead s o 0x0802 ops → ∀ t x disp, 128 ≤ t → t ≤ 1023 → le ops 0 2 = t → s.dev.timer t = none → le ops 2 2 = s.dev.jobOf o → le ops 4 1 < 16 → zeroBytes ops 5 3 = true →
      zeroBytes ops 26 22 = true → ((le ops 4 1).testBit 2 = true ∨ (le ops 4 1).testBit 3 = true) → ((le ops 4 1).testBit 1 = true → 1000 ≤ le ops 16 8) →
      ((le ops 4 1).testBit 3 = true → s.dev.tallyOwned (le ops 24 2) (s.dev.jobOf o) = true) → disp = s.here.dispTime o 0x0802 ops →
      x = (⟨s.dev.jobOf o, (le ops 4 1).testBit 0, (if (le ops 4 1).testBit 0 then 0 else disp) + le ops 8 8, if (le ops 4 1).testBit 1 then some (le ops 16 8) else none,
        (le ops 4 1).testBit 2, if (le ops 4 1).testBit 3 then some (le ops 24 2) else none, false, 0⟩ : Timer) →
      (¬ ((le ops 4 1).testBit 0 = true ∧ x.deadline < s.clock.ns) → exec (.timerArm o ops) s = .next (s.onDev fun d => (d.setTimer t (some x)).hold (okR t) .ready [])) ∧
      ((le ops 4 1).testBit 0 = true → x.deadline < s.clock.ns → x.period = none → exec (.timerArm o ops) s =
        .next (s.onDev fun d => ((d.setTimer t (some x)).timerExpire t 0).hold (okR t) .ready []))) ∧
    (AtHead s o 0x0803 ops → ∀ t x, t = le ops 0 2 → s.dev.timer t = some x → 128 ≤ t → t ≤ 1023 → x.owner = s.dev.jobOf o → zeroBytes ops 2 46 = true →
      (x.fired = false → s.clock.ns < x.deadline → exec (.timerCancel o ops) s = .next (s.onDev fun d => (d.setTimer t none).hold (okR 0) .ready [])) ∧
      (x.fired = true → exec (.timerCancel o ops) s = .next (s.onDev fun d => (d.setTimer t none).hold (okR 1) .ready [])) ∧
      (x.fired = false → x.deadline ≤ s.clock.ns → exec (.timerCancel o ops) s = .next (s.onDev fun d => ((d.timerExpire t 0).setTimer t none).hold (okR 1) .ready []))) ∧
    (AtHead s o 0x0803 ops → s.dev.timer (le ops 0 2) = none → exec (.timerCancel o ops) s = .next (s.onDev fun d => d.finish o 0x0803 (errR 0x080B))) ∧
    (AtHead s o 0x0804 ops → le ops 0 1 ≤ 4 → le ops 1 1 ≤ 2 → le ops 2 1 ≤ 1 → 1 ≤ le ops 3 1 → le ops 3 1 ≤ 64 → zeroBytes ops 4 44 = true →
      exec (.captureCfg o ops) s = .next (s.onDev fun d => (d.setCap (le ops 0 1) { d.cap (le ops 0 1) with
        edge := le ops 1 1, enable := (le ops 2 1).testBit 0, notify := le ops 3 1 }).hold (okU []) .ready [])) ∧
    (AtHead s o 0x0801 ops → timeOps ops = false → exec (.timeConfig o ops) s = .next (s.onTime fun d => d.finish o 0x0801 (errR 0x080C))) ∧
    (AtHead s o 0x0801 ops → timeOps ops = true → (le ops 6 1).testBit 0 = true → s.dev.tmState ≠ tmUNSET ∨ le ops 8 8 < s.clock.ns →
      exec (.timeConfig o ops) s = .next (s.onTime fun d => d.finish o 0x0801 (errR 0x080C))) ∧
    (AtHead s o 0x0801 ops → timeOps ops = true → ((le ops 6 1).testBit 0 = true → s.dev.tmState = tmUNSET ∧ s.clock.ns ≤ le ops 8 8) → ∃ u f, 
      u = { s.dev.tmu with
        sources := le ops 0 4, domain := le ops 4 1, syncLog := sext 8 (le ops 5 1), ppsOut := (le ops 6 1).testBit 1, always := (le ops 6 1).testBit 2,
        ppsFalling := (le ops 6 1).testBit 3, stepNs := le ops 16 4, lockNs := le ops 20 2, holdoverS := le ops 24 4, ppsOffset := le ops 28 4,
        ppsWidth := le ops 32 4, ppsHigh := s.dev.tmu.ppsHigh && (le ops 6 1).testBit 1 } ∧
      (f : Dev → Dev) = (fun d => if (le ops 6 1).testBit 0 then d.timeSet (le ops 8 8) else d) ∧
      exec (.timeConfig o ops) s = .next (s.onTime fun d => { f { d with tmu := u } with
        tmu := { (f { d with tmu := u }).tmu with lastPps := (f { d with tmu := u }).now, ppsMissing := false } }.hold (okU []) .ready []))

/-- Timers expire at their deadline (R576, R583, R84): outside a rehang the action is delivered at once, a periodic timer runs on and a one-shot is
freed; under REHANG the expiry is held. The time reference (R574, R577, R578, R580): Sync messages, one- or two-step, Delay_Resp and Announce from the
selected master; edges of PPS_IN; the loss of the reference after three intervals or at the announce timeout, which holds the frequency, and the end
of holdover. What is not from the master changes nothing. -/
def Obligations.TimersAndReference : Prop :=
  (∀ s t x, s.dev.timer t = some x → x.runs = true →
    (s.dev.curator ≠ curREHANG → exec (.timerExpiry t) s = .next ((s.until x.deadline).onDev fun d =>
      (d.setTimer t (x.period.map fun p => { x with deadline := x.deadline + p })).timerAction t x.owner x.event x.tally)) ∧
    (s.dev.curator = curREHANG → x.fired = false → s.dev.cmd.timerHold.length < 256 → ∃ d1, d1 = ({ s.dev with now := (s.until x.deadline).clock.ns }).setTimer t (some { (match x.period with
        | some p => { x with deadline := x.deadline + p } | none => x) with fired := true }) ∧
      exec (.timerExpiry t) s = .next ((s.until x.deadline).onDev fun _ => { d1 with cmd.timerHold := d1.cmd.timerHold ++ [⟨t, x.deadline, x.owner, x.event, x.tally⟩] }))) ∧
  ((∀ s m, s.dev.fromMaster m = true →
    (m.twoStep = false → exec (.ptpSync m) s = .next (s.onTime (·.syncDone m.port (m.origin + m.correction) (s.dev.rxTime m)))) ∧
    (m.twoStep = true → exec (.ptpSync m) s = .next (s.onTime fun d => { d with tmu.syncSeq := some (m.seq, s.dev.rxTime m, m.correction) })) ∧
    (∀ rx c, s.dev.tmu.syncSeq = some (m.seq, rx, c) → exec (.ptpFollowUp m) s = .next (s.onTime (·.syncDone m.port (m.origin + m.correction + c) rx))) ∧
    (∀ t3 t1 t2, s.dev.tmu.reqOut = some (m.seq, t3) → s.dev.tmu.syncTimes = some (t1, t2) → exec (.ptpDelayResp m) s = .next (s.onDev fun d => { d with
      tmu.delay := some (((t2 - t1) + ((m.origin : Int) - m.correction - t3)) / 2), tmu.reqOut := none }))) ∧
  (∀ s m c, s.dev.fromMaster m = false → c ∈ [.ptpSync m, .ptpFollowUp m] → exec c s = .next (s.onTime id)) ∧
  (∀ s m x, x = (⟨m.port, m.clockId, [m.priority1, m.clockClass, m.accuracy, m.variance, m.priority2, m.clockId, m.stepsRemoved, m.port]⟩ : Master) →
    (s.dev.ptpMine m = false → exec (.ptpAnnounce m) s = .next (s.onDev id)) ∧
    (s.dev.ptpMine m = true → s.dev.tmu.master = none → exec (.ptpAnnounce m) s = .next (s.onDev fun d => { d with
      tmu.master := some x, tmu.announceAt := d.now, tmu.delay := none, tmu.syncSeq := none, tmu.reqOut := none })) ∧
    (∀ y, s.dev.ptpMine m = true → s.dev.tmu.master = some y → y.port ≠ m.port → rankLt x.rank y.rank = false → exec (.ptpAnnounce m) s = .next (s.onDev id))) ∧
  (∀ s rising, exec (.captureEdge 0 rising) s = exec (.ppsInEdge rising) s) ∧
  (∀ s rising, (s.dev.tmu.sources.testBit 20 = false ∨ rising = s.dev.tmu.ppsFalling) → exec (.ppsInEdge rising) s = .next (s.onTime (·.captureEdge 0 rising))) ∧
  (∀ s rising, (s.dev.cap 0).enable = false → s.dev.tmu.sources.testBit 20 = true → rising = !s.dev.tmu.ppsFalling → s.dev.tmState ≠ tmLOCKED →
    exec (.ppsInEdge rising) s = .next (s.onTime fun d => { d with tmu.lastPps := d.now, tmu.ppsMissing := false }.servoSample 20 (ppsOffsetOf s.clock.ns))) ∧
  (∀ s i rising, i ≠ 0 → i < 5 → (s.dev.cap i).enable = true → (s.dev.cap i).edge = 2 → (s.dev.cap i).fifo.length < 64 → (s.dev.cap i).notify ≠ (s.dev.cap i).fifo.length + 1 →
    exec (.captureEdge i rising) s = .next (s.onTime fun d => d.setCap i { d.cap i with fifo := (d.cap i).fifo ++ [d.now] })) ∧
  (∀ s t, s.dev.lossTime = some t → exec .referenceLoss s = .next ((s.until t).onDev (·.refLost))) ∧
  (∀ s, s.dev.tmState = tmHOLDOVER → exec .holdoverLimit s = .next ((s.until (s.dev.tmu.lossAt + s.dev.tmu.holdoverS * 1000000000)).onDev fun d =>
    ((d.set TMU.STATE.STATE tmFREERUN).set TMU.ERROR_BOUND.NS 0xFFFFFFFF).eventOpen 0x0806)) ∧
  (∀ s, s.dev.tmu.sources.testBit 20 = true → s.dev.tmu.ppsMissing = false → exec .ppsMissing s = .next ((s.until (s.dev.tmu.lastPps + 3000000000)).onDev fun d =>
    { d with tmu.ppsMissing := true }.eventOpen 0x080A)))

/-- PPS_OUT and the TCLK dividers (R569, R581): the pulse rises at the next edge while it is driven and falls after its width; the written divider bounds what every
wing wants, and the divider in use moves by one step a microsecond. -/
def Obligations.ClockOutputs : Prop :=
  (∀ s, s.dev.ppsDriven = true → s.dev.tmu.ppsHigh = false → exec .ppsOutRise s = .next ((s.until (ppsNext s.clock.ns s.dev.tmu.ppsOffset)).onDev fun d =>
    { d with tmu.ppsHigh := true, tmu.ppsRise := d.now })) ∧
  (∀ s, s.dev.tmu.ppsHigh = true → exec .ppsOutFall s = .next ((s.until (s.dev.tmu.ppsRise + s.dev.tmu.ppsWidth * 1000)).onDev fun d => { d with tmu.ppsHigh := false })) ∧
  (∀ s v, exec (.tclkDivWrite .host v) s = .next (s.onDev id)) ∧ (∀ s c v, exec (.tclkDivWrite (.core c) v) s = .next (s.onDev (·.tclkDiv v))) ∧
  (∀ s w, w < 4 → s.dev.divNow w ≠ s.dev.divWant w → Calm s → ∃ t, exec (.tclkDividerStep w) s = .next t ∧
    t.dev.divNow w = (if s.dev.divNow w < s.dev.divWant w then s.dev.divNow w + 1 else s.dev.divNow w - 1) ∧ (∀ x, x ≠ w → t.dev.divNow x = s.dev.divNow x) ∧
    t.clock.ns = max s.clock.ns (smapGet zeroDflt s.dev.tmu.divAt w + 1000))

/-! ## Tile programs -/

/-- Issue in program order (R256, R262, R266): another instruction at the PC leaves the row without an effect of its own; an issue that
is held counts a stall; a failed predicate makes the instruction a no-op that counts as issued; a tally that is not the job's halts the tile
with 0x0106. -/
def Obligations.TileIssues : Prop :=
  ∀ s t x op d c w, t < 200 → (x, op) ∈ issueRows t → d = s.here.pump t → c = d.ctx t → w = smapGet zeroDflt (d.tile t).prog (d.pc t c) →
    (iOp w ≠ op ∨ d.get (CMD.SEQ_STATE.STATE t) ≠ tsRUNNING ∨ d.get (CMD.SEQ_PROG.COUNT t) ≤ d.pc t c → exec x s = .next (s.onDev fun _ => d)) ∧
    (iOp w = op → d.get (CMD.SEQ_STATE.STATE t) = tsRUNNING → d.pc t c < d.get (CMD.SEQ_PROG.COUNT t) →
      ((d.tile t).issueHeld c = true ∨ (c = false ∧ (d.tile t).mbHold = true) ∨ (c = true ∧ d.flag (CMD.SEQ_STATE.ROUTINE t) = false) →
        exec x s = .next (s.onDev fun _ => d.bump (CMD.SEQ_STALL.COUNT t) 1)) ∧
      ((d.tile t).issueHeld c = false → (c = false → (d.tile t).mbHold = false) → (c = true → d.flag (CMD.SEQ_STATE.ROUTINE t) = true) →
        ((d.tile t).rp c (iPred w) = iPneg w → exec x s = .next (s.onDev fun _ => issued (d.advance t c) t c)) ∧
        ((d.tile t).rp c (iPred w) ≠ iPneg w → iSig w = true ∨ op = 0x80 ∨ op = 0x82 → d.tallyOwned (insTally (d.tile t) c w) (d.tileJob t) = false →
          exec x s = .next (s.onDev fun _ => d.haltTile t 0x0106 (insTally (d.tile t) c w) ⟨d.pc t c, c, 0, 0⟩ []))))

/-- The operand layout of the scalar instructions (R268). The scalar instructions (R264, R265, R268): each writes its one destination register, with
every value of FUNC; g0 and p0 discard what is written to them (`Tile.wg`, `Tile.wp`). JMP, LOOP and HALTP (R268): where the PC goes, what LOOP counts
down, and the halt with its code. -/
def Obligations.ScalarAndControlInstructions : Prop :=
  (∀ w : Nat, opDst w = bits w 37 32 ∧ opSrcA w = bits w 43 38 ∧ opSrcB w = bits w 49 44 ∧ opBimm w = bit w 50 ∧ opFunc w = bits w 55 51 ∧
    opImm w = bits w 127 64 ∧ opTarget w = opImm w % 2 ^ 14 ∧ opCode w = opImm w % 2 ^ 16) ∧
  (∀ s t op d c w, Issues s t op d c w → ∀ a b : Nat, a = (d.tile t).rg c (opSrcA w) → b = (if opBimm w then opImm w else (d.tile t).rg c (opSrcB w)) →
    (op = 0x00 → exec (.nopInstruction t) s = .next (s.onDev fun _ => issued (d.advance t c) t c)) ∧
    (op = 0x01 → ∀ v, (opFunc w, v) ∈ [(0, (a + b) % 2 ^ 64), (1, (a + (2 ^ 64 - b % 2 ^ 64)) % 2 ^ 64), (2, a &&& b), (3, a ||| b), (4, a ^^^ b),
        (5, a * 2 ^ (b % 64) % 2 ^ 64), (6, a / 2 ^ (b % 64)), (7, wrap 64 (sext 64 a / 2 ^ (b % 64))), (8, a * b % 2 ^ 64), (9, min a b), (10, max a b),
        (11, if sext 64 a ≤ sext 64 b then a else b), (12, if sext 64 a ≤ sext 64 b then b else a)] →
      exec (.alu t) s = .next (s.onDev fun _ => issued ((d.onTile t (·.wg c (opDst w) v)).advance t c) t c)) ∧
    (op = 0x02 → ∀ v, (opFunc w, v) ∈ [(0, decide (a = b)), (1, decide (a ≠ b)), (2, decide (a < b)), (3, decide (b ≤ a)),
        (4, decide (sext 64 a < sext 64 b)), (5, decide (sext 64 b ≤ sext 64 a))] →
      exec (.cmp t) s = .next (s.onDev fun _ => issued ((d.onTile t (·.wp c (opDst w % 8) v)).advance t c) t c)) ∧
    (op = 0x03 → ∀ v p q : Bool, p = (d.tile t).rp c (opSrcA w % 8) → q = (d.tile t).rp c (opSrcB w % 8) →
      (opFunc w, v) ∈ [(0, p && q), (1, p || q), (2, p ^^ q), (3, p && !q), (4, !p)] →
      exec (.plog t) s = .next (s.onDev fun _ => issued ((d.onTile t (·.wp c (opDst w % 8) v)).advance t c) t c)) ∧
    (op = 0x04 →
      (opFunc w = 0 → exec (.aop t) s = .next (s.onDev fun _ => issued ((d.onTile t (fun x => x.wa c (opDst w % 16) (x.ra c (opSrcA w % 16) + b % 2 ^ 48))).advance t c) t c)) ∧
      (opFunc w = 1 → exec (.aop t) s = .next (s.onDev fun _ => issued ((d.onTile t (·.wa c (opDst w % 16) (a % 2 ^ 48 + b % 2 ^ 48))).advance t c) t c)) ∧
      (opFunc w = 2 → exec (.aop t) s = .next (s.onDev fun _ => issued ((d.onTile t (fun x => x.wg c (opDst w) (x.ra c (opSrcA w % 16)))).advance t c) t c)))) ∧
  (∀ s t op d c w, Issues s t op d c w →
    (op = 0x08 → exec (.jmp t) s = .next (s.onDev fun _ => issued (d.setPc t c (opTarget w)) t c)) ∧
    (op = 0x09 → ∀ v d1, v = ((d.tile t).rg c (opDst w) + 2 ^ 64 - 1) % 2 ^ 64 → d1 = d.onTile t (·.wg c (opDst w) v) →
      (v ≠ 0 → exec (.loop t) s = .next (s.onDev fun _ => issued (d1.setPc t c (opTarget w)) t c)) ∧
      (v = 0 → exec (.loop t) s = .next (s.onDev fun _ => issued (d1.advance t c) t c))) ∧
    (op = 0x15 → exec (.haltp t) s = .next (s.onDev fun _ =>
      issued ((d.advance t c).haltTile t 0x0273 (opCode w) ⟨(d.advance t c).pc t c, c, 0, 0⟩ []) t c)))

/-- Micro-batches (R276, R277, R303): MBBEGIN holds issue once its chains' streams and queued flushes are done, and halts on an unflushed one; the
pass is delivered when its descriptor is there, unless the stage is about to move; MBEND notes the end of the micro-batch. Deferred work (R278 to
R282): DEFER queues the routine with g48 to g55 and its micro-batch, and with 8 entries there yields or halts with 0x0275; DRET frees its entry; DRET
and DYIELD hand issue back when R279 lets them; a switch to the deferred context goes on with the routine in progress or starts the next, and an idle
yield counts. -/
def Obligations.MicroBatchesAndDeferredWork : Prop :=
  ((∀ s t d c w, Issues s t 0x10 d c w →
    ((∃ e ∈ (d.tile t).live, e.2.2 ≠ 0 ∧ e.2.2 - 1 ∈ (d.tile t).mainChains) ∨ (∃ k ∈ (d.tile t).mainChains, (d.tile t).flushQueued k = true) → exec (.mbbegin t) s = .next (s.onDev fun _ => d.bump (CMD.SEQ_STALL.COUNT t) 1)) ∧
    ((∀ e ∈ (d.tile t).live, e.2.2 ≠ 0 → e.2.2 - 1 ∉ (d.tile t).mainChains) → (∀ k ∈ (d.tile t).mainChains, (d.tile t).flushQueued k = false) →
      ((∀ k ∈ (d.tile t).mainChains, ((d.tile t).encOf k).isOpen = false) →
        exec (.mbbegin t) s = .next (s.onDev fun _ => (d.onTile t (fun x => { x with mbHold := true })).bump (CMD.SEQ_STALL.COUNT t) 1)) ∧
      (∀ k, (d.tile t).mainChains.find? (fun k => ((d.tile t).encOf k).isOpen) = some k →
        exec (.mbbegin t) s = .next (s.onDev fun _ => d.haltTile t 0x0274 k ⟨d.pc t c, c, 0, 0⟩ [])))) ∧
  (∀ s t d, t < 200 → d = s.here.pump t →
    (∀ p k m ws, d.passDue t = some (p, k, m, ws) → ¬ (d.atBoundary t = true ∧ d.movePending t = true) →
      exec (.passDelivery t) s = .next (s.onDev fun _ => d.deliver t p k m ws)) ∧
    (d.passDue t = none ∨ (d.atBoundary t = true ∧ d.movePending t = true) → exec (.passDelivery t) s = .next (s.onDev fun _ => d))) ∧
  (∀ s t d c w, Issues s t 0x11 d c w → exec (.mbend t) s = .next (s.onDev fun _ =>
    issued ((d.onTile t (fun x => { x with mbends := x.mbends ++ [x.nextSeq], nextSeq := x.nextSeq + 1 })).advance t c) t c))) ∧
  ((∀ s t d c w, Issues s t 0x12 d c w →
    ((d.tile t).deferQ.length < 8 → exec (.defer t) s = .next (s.onDev fun _ => issued ((d.setTile t { d.tile t with deferHold := false, deferQ := (d.tile t).deferQ ++
      [⟨opTarget w, (List.range 8).map (fun k => (d.tile t).rg false (48 + k)), d.get (CMD.SEQ_MB.MAIN t)⟩] }).advance t c) t c)) ∧
    (8 ≤ (d.tile t).deferQ.length → (d.tile t).arraysIdle = true → (d.tile t).slotsEmpty = true →
      exec (.defer t) s = .next (s.onDev fun _ => (d.setTile t { d.tile t with deferHold := true }).bump (CMD.SEQ_STALL.COUNT t) 1)) ∧
    (8 ≤ (d.tile t).deferQ.length → (d.tile t).arraysIdle = false ∨ (d.tile t).slotsEmpty = false →
      exec (.defer t) s = .next (s.onDev fun _ => d.haltTile t 0x0275 0 ⟨d.pc t c, c, 0, 0⟩ []))) ∧
  (∀ s t d c w e, Issues s t 0x13 d c w → e = ((d.onTile t (fun x => { x with deferQ := x.deferQ.drop 1 })).advance t c).set (CMD.SEQ_STATE.ROUTINE t) 0 →
    (e.mayReturn t = true → exec (.dret t) s = .next (s.onDev fun _ => issued (e.switchTo t false) t c)) ∧
    (e.mayReturn t = false → (e.tile t).deferQ ≠ [] → e.movePending t = false → exec (.dret t) s = .next (s.onDev fun _ => issued (e.startRoutine t) t c)) ∧
    (e.mayReturn t = false → (e.tile t).deferQ = [] → (e.tile t).arraysIdle = true → (e.tile t).slotsEmpty = true →
      exec (.dret t) s = .next (s.onDev fun _ => issued (e.switchTo t false) t c))) ∧
  (∀ s t d c w e, Issues s t 0x14 d c w → e = d.advance t c →
    (e.mayReturn t = true → exec (.dyield t) s = .next (s.onDev fun _ => issued (e.switchTo t false) t c)) ∧
    (e.mayReturn t = false → exec (.dyield t) s = .next (s.onDev fun _ => issued e t c))) ∧
  (∀ s t d, t < 200 → d = s.here.pump t → d.get (CMD.SEQ_STATE.STATE t) = tsRUNNING → d.ctx t = false →
    (d.mainYields t = false → exec (.contextSwitch t) s = .next (s.onDev fun _ => d)) ∧
    (d.mainYields t = true →
      (d.flag (CMD.SEQ_STATE.ROUTINE t) = false → (d.tile t).deferQ = [] ∨ d.movePending t = true →
        exec (.contextSwitch t) s = .next (s.onDev fun _ => d.bump (CMD.SEQ_YIELD_IDLE.COUNT t) 1)) ∧
      ((d.tile t).arraysIdle = true → (d.tile t).slotsEmpty = true →
        (d.flag (CMD.SEQ_STATE.ROUTINE t) = true → exec (.contextSwitch t) s = .next (s.onDev fun _ => d.switchTo t true)) ∧
        (d.flag (CMD.SEQ_STATE.ROUTINE t) = false → (d.tile t).deferQ ≠ [] → d.movePending t = false →
          exec (.contextSwitch t) s = .next (s.onDev fun _ => (d.switchTo t true).startRoutine t))))))

/-- Waits, tally adds, releases and completion (R254, R258, R259, R262, R263, R273, R274): a wait with no free slot, or no room for its barriers,
stalls; one that is satisfied passes, another takes the slot and a barrier in each queue it gates; TADD and REL join the S queue; an instruction that
completes adds 1 to the tally it signals. `CMD.SEQ_CTRL` (R283, R285, R289): HALT stops a RUNNING or READY tile with 0x0276 at the instruction due
next; RESUME of a halted tile waits for the codec fault and the channel errors, and takes it back to the state it was halted in; UNLOAD from READY or
HALTED leaves it EMPTY. What does not apply changes nothing. -/
def Obligations.WaitsAndSequencerControl : Prop :=
  ((∀ s t op d c w wt, Issues s t op d c w →
    (op = 0x80 ∧ wt = (⟨(d.tile t).nextSeq, c, true, insTally (d.tile t) c w, (d.tile t).opVal c w, false, bits w 36 32, bit w 37, false⟩ : TWait)) ∨
      (op = 0x81 ∧ d.regOk t (bits w 45 40) = true ∧
        wt = (⟨(d.tile t).nextSeq, c, false, bits w 45 40, (d.tile t).opVal c w, bit w 39, bits w 36 32, bit w 37, false⟩ : TWait)) →
    ∀ x met, x = (if op = 0x80 then Instr.waitt t else .waitr t) →
      met = (if op = 0x80 then decide (wt.amount ≤ d.get (QSU.TALLY_VALUE.VALUE wt.key)) else d.regWaitMet t wt) →
    (met = true → (d.tile t).waits.length < 8 → (d.tile t).gateRoom wt.gates = true → exec x s = .next (s.onDev fun _ => issued (d.advance t c) t c)) ∧
    (met = false → (d.tile t).waits.length < 8 → (d.tile t).gateRoom wt.gates = true →
      exec x s = .next (s.onDev fun _ => issued ((d.setTile t ((d.tile t).takeWait wt)).advance t c) t c)) ∧
    (8 ≤ (d.tile t).waits.length ∨ (d.tile t).gateRoom wt.gates = false →
      exec x s = .next (s.onDev fun _ => d.bump (CMD.SEQ_STALL.COUNT t) 1))) ∧
  (∀ s t d c w, Issues s t 0x81 d c w → d.regOk t (bits w 45 40) = false →
    exec (.waitr t) s = .next (s.onDev fun _ => d.haltTile t 0x0261 (bits w 45 40) ⟨d.pc t c, c, 0, 0⟩ [])) ∧
  (∀ s t op d c w i x, Issues s t op d c w →
    (op = 0x82 ∧ x = Instr.tadd t ∧ i = { d.mkIns t c w with x := bits w 47 32 }) ∨
      (op = 0x83 ∧ x = Instr.rel t ∧ d.regOk t (bits w 37 32) = true ∧
        i = { d.mkIns t c w with x := (d.regR t (bits w 37 32) + (d.tile t).opVal c w) % 2 ^ 32 }) →
    ((d.tile t).sq.length < 8 → exec x s = .next (s.onDev fun _ =>
      issued (((d.track t i 0).onTile t (fun x => { x with sq := x.sq ++ [.ins i] })).advance t c) t c)) ∧
    (8 ≤ (d.tile t).sq.length → exec x s = .next (s.onDev fun _ => d.bump (CMD.SEQ_STALL.COUNT t) 1))) ∧
  (∀ s t d c w, Issues s t 0x83 d c w → d.regOk t (bits w 37 32) = false →
    exec (.rel t) s = .next (s.onDev fun _ => d.haltTile t 0x0261 (bits w 37 32) ⟨d.pc t c, c, 0, 0⟩ [])) ∧
  (∀ s t k i, t < 200 → (s.dev.tile t).done[k]? = some i →
    (i.sig = true → exec (.instructionComplete t k) s = .next (s.onDev fun d =>
      ((d.onTile t (fun x => { x with done := x.done.eraseIdx k })).tallyAdd i.tally 1).pump t)) ∧
    (i.sig = false → exec (.instructionComplete t k) s = .next (s.onDev fun d => (d.onTile t (fun x => { x with done := x.done.eraseIdx k })).pump t)))) ∧
  (∀ s t, t < 200 →
    (s.dev.get (CMD.SEQ_STATE.STATE t) ∈ [tsRUNNING, tsREADY] → exec (.seqCtrlHalt t) s = .next (s.onDev fun d =>
      d.haltTile t 0x0276 0 ⟨d.pc t (d.ctx t), d.ctx t, 0, 0⟩ [])) ∧
    (s.dev.get (CMD.SEQ_STATE.STATE t) ∉ [tsRUNNING, tsREADY] → exec (.seqCtrlHalt t) s = .next (s.onDev id)) ∧
    (s.dev.halted t = false → exec (.seqCtrlResume t) s = .next (s.onDev id)) ∧
    (s.dev.halted t = true → (s.dev.flag (TCX.FAULT_STATUS.VALID t) = true ∨ ∃ ch < 4, s.dev.flag (TDMA.CH_STATE.ERROR t ch) = true) →
      exec (.seqCtrlResume t) s = .next (s.onDev fun d => d.onTile t (fun x => { x with resumeHeld := true }))) ∧
    (s.dev.halted t = true → s.dev.flag (TCX.FAULT_STATUS.VALID t) = false → (∀ ch < 4, s.dev.flag (TDMA.CH_STATE.ERROR t ch) = false) →
      ∃ d1 : Dev, exec (.seqCtrlResume t) s = .next (s.onDev fun _ => d1.pump t) ∧ d1.get (CMD.SEQ_STATE.STATE t) = (if (s.dev.tile t).wasReady then tsREADY else tsRUNNING) ∧
        d1.get (CMD.SEQ_HALT.VALID t) = 0 ∧ (d1.tile t).resumeHeld = false ∧ (d1.tile t).wasReady = false ∧ (d1.tile t).g = (s.dev.tile t).g ∧ (d1.tile t).prog = (s.dev.tile t).prog ∧
        d1.hbm = s.dev.hbm ∧ ∀ u, u ≠ t → d1.tile u = s.dev.tile u) ∧
    (s.dev.get (CMD.SEQ_STATE.STATE t) ∈ [tsREADY, tsHALTED] → exec (.seqCtrlUnload t) s = .next (s.onDev fun d =>
      ((((d.onTile t (fun x => { x with prog := [], resumeHeld := false })).set (CMD.SEQ_STATE.STATE t) tsEMPTY).set (CMD.SEQ_HALT.VALID t) 0).set
        (CMD.SEQ_PROG.COUNT t) 0).set (CMD.SEQ_PROG.VARIANT7 t) 0)) ∧
    (s.dev.get (CMD.SEQ_STATE.STATE t) ∉ [tsREADY, tsHALTED] → exec (.seqCtrlUnload t) s = .next (s.onDev id)))

/-! ## The matrix arrays, the codec and the vector engine -/

/-- MLOAD and MSTREAM at issue (R130, R201, R254, R269, R270): an unmapped array and an invalid region halt the tile (an MSTREAM of no rows is checked
against nothing), a full queue stalls it, and else the instruction joins the M queue with its operands captured, a FINISH stream with its chain's
ranges reserved. VRUN, CRESET and CFLUSH (R202, R203, R221, R257, R258, R271): the checks, and with room the V queue or the chain's cursors; CRESET
waits for the chain's streams and its queued flush. The vector engine's takes and markers (R194, R196, R197, R214 to R216): up to 8 rows in queue
order while the commit buffer admits them, each reading the memory the take began with, the groups left to a run; a run that has waited 64 cycles
takes all 8; a marker passes the take and a commit makes its stream's lines committed, an abort discards them; committed lines are released in order.
-/
def Obligations.MatrixAndVectorInstructions : Prop :=
  (∀ s t op d c w x r, Issues s t op d c w → (op = 0x20 ∧ x = Instr.mload t ∧ r = (bit w 44, bits w 50 45)) ∨ (op = 0x21 ∧ x = Instr.mstream t ∧ r = (bit w 68, bits w 74 69)) →
    (op = 0x20 ∨ 0 < (d.tile t).streamM c w → d.arrValid t (iArray w) = false → exec x s = .next (s.onDev fun _ => d.haltTile t 0x0243 (iArray w) ⟨d.pc t c, c, 0, iArray w⟩ [])) ∧
    (op = 0x20 ∨ 0 < (d.tile t).streamM c w → d.arrValid t (iArray w) = true → r.1 = true → d.regOk t r.2 = false → exec x s = .next (s.onDev fun _ => d.haltTile t 0x0261 r.2 ⟨d.pc t c, c, 0, iArray w⟩ [])) ∧
    ((op = 0x21 ∧ (d.tile t).streamM c w = 0) ∨ (d.arrValid t (iArray w) = true ∧ (r.1 = true → d.regOk t r.2 = true)) →
      (16 ≤ (d.tile t).mq.length → exec x s = .next (s.onDev fun _ => d.bump (CMD.SEQ_STALL.COUNT t) 1)) ∧
      ((d.tile t).mq.length < 16 →
        (op = 0x20 → ∀ i, i = { d.mkIns t c w with x := d.loadFrom t c w } →
          exec x s = .next (s.onDev fun _ => issued (((d.track t i 0).onTile t (fun x => { x with mq := x.mq ++ [.ins i] })).advance t c) t c)) ∧
        (op = 0x21 → ∀ m q k base, m = (d.tile t).streamM c w → q = streamQ w → k = iChainM w → base = (d.tile t).ra c (bits w 67 64) →
          (bit w 41 = false ∨ m = 0 → (m = 0 ∨ bits w 63 55 + m * q ≤ 512) →
            ∀ i, i = { d.mkIns t c w with
              x := (if bit w 68 then (d.regR t (bits w 74 69) + base) % 2 ^ 32 else base % 2 ^ 23), y := m, z := (d.tile t).streamRow0 c w, w := (d.tile t).ra c (bits w 78 75) % 2 ^ 23,
              e0 := d.curE t k, r0 := d.curRow t k, c0 := d.curCol t k, d0 := (d.tile t).eRed k, gregs := [] } →
            exec x s = .next (s.onDev fun _ => issued (((d.track t i 0).onTile t (fun x => { x with mq := x.mq ++ [.ins i] })).advance t c) t c)) ∧
          (bit w 41 = true → 0 < m → ((d.tile t).chTess k = true ∨ (d.tile t).chRegion k = true → d.uncommitted t k = false) →
            (bit w 40 = true → bits w 63 55 + m * q ≤ 512) →
            (∀ st, d.finishCheck t k m q = st → st ≠ 0 → exec x s = .next (s.onDev fun _ => d.haltTile t st k ⟨d.pc t c, c, 0, iArray w⟩ [])) ∧
            (d.finishCheck t k m q = 0 → ∀ i, i = { d.mkIns t c w with
              x := (if bit w 68 then (d.regR t (bits w 74 69) + base) % 2 ^ 32 else base % 2 ^ 23), y := m, z := (d.tile t).streamRow0 c w,
              w := (d.tile t).ra c (bits w 78 75) % 2 ^ 23,
              e0 := d.curE t k, r0 := d.curRow t k, c0 := d.curCol t k, d0 := (d.tile t).eRed k, gregs := (d.tile t).captured c k } →
              exec x s = .next (s.onDev fun _ => issued ((((d.reserveStream t k m q).track t i (k + 1)).onTile t (fun x => { x with mq := x.mq ++ [.ins i] })).advance t c) t c))) ∧
          (0 < m → bit w 41 = false ∨ (bit w 40 = true ∧ ((d.tile t).chTess k = true ∨ (d.tile t).chRegion k = true → d.uncommitted t k = false)) → 512 < bits w 63 55 + m * q →
            exec x s = .next (s.onDev fun _ => d.haltTile t 0x0241 (iArray w) ⟨d.pc t c, c, 0, iArray w⟩ [])))))) ∧
  (∀ s t op d c w k, Issues s t op d c w → k = iChainV w →
    (op = 0x40 ∨ op = 0x42 → 8 ≤ (d.tile t).vq.length → exec (if op = 0x40 then .vrun t else .cflush t) s = .next (s.onDev fun _ => d.bump (CMD.SEQ_STALL.COUNT t) 1)) ∧
    (op = 0x40 → (d.tile t).vq.length < 8 → ∀ n src cols, n = (d.tile t).runN c w → src = (d.tile t).ra c (bits w 40 37) % 2 ^ 23 → cols = (d.tile t).chCols k →
      (n = 0 ∨ n % cols ≠ 0 → exec (.vrun t) s = .next (s.onDev fun _ => d.haltTile t 0x0254 k ⟨d.pc t c, c, 0, 0⟩ [])) ∧
      (n ≠ 0 → n % cols = 0 → (d.tile t).chTess k = true → (d.tile t).chElems k < d.curE t k + n →
        exec (.vrun t) s = .next (s.onDev fun _ => d.haltTile t 0x0307 k ⟨d.pc t c, c, 0, 0⟩ [])) ∧
      (n ≠ 0 → n % cols = 0 → ((d.tile t).chTess k = true → d.curE t k + n ≤ (d.tile t).chElems k) → src + n * elemBits ((d.tile t).chIn k) / 8 ≤ 2 ^ 23 →
        d.chainRanges t k (d.curE t k) n (d.curRow t k) (n / cols) 0 cols ((d.tile t).eRed k)
          ((if (d.tile t).chLane k then n / 32 else 0) + (if (d.tile t).chCol k then cols else 0)) = 0 →
        ∀ i d1, i = { d.mkIns t c w with x := src, y := n, e0 := d.curE t k, r0 := d.curRow t k, c0 := 0, d0 := (d.tile t).eRed k, gregs := (d.tile t).captured c k } →
        d1 = d.setCursors t k ((d.curE t k + n) % 2 ^ 48) ((d.curRow t k + n / cols) % 2 ^ 32) (d.curCol t k) ((d.tile t).eRed k) →
        exec (.vrun t) s = .next (s.onDev fun _ => issued (((d1.track t i (k + 1)).onTile t (fun x => { x with vq := x.vq ++ [.ins i] })).advance t c) t c))) ∧
    (op = 0x41 →
      (8 ≤ (d.tile t).vq.length ∨ (d.tile t).chainClear k (d.tile t).nextSeq = false ∨ (d.tile t).flushQueued k = true → exec (.creset t) s = .next (s.onDev fun _ => d.bump (CMD.SEQ_STALL.COUNT t) 1)) ∧
      ((d.tile t).vq.length < 8 → (d.tile t).chainClear k (d.tile t).nextSeq = true → (d.tile t).flushQueued k = false → ((d.tile t).encOf k).isOpen = true →
        exec (.creset t) s = .next (s.onDev fun _ => d.haltTile t 0x0274 k ⟨d.pc t c, c, 0, 0⟩ [])) ∧
      ((d.tile t).vq.length < 8 → (d.tile t).chainClear k (d.tile t).nextSeq = true → (d.tile t).flushQueued k = false → ((d.tile t).encOf k).isOpen = false →
        exec (.creset t) s = .next (s.onDev fun _ => issued ((d.resetChain t k).advance t c) t c))) ∧
    (op = 0x42 → (d.tile t).vq.length < 8 →
      ((d.tile t).chTess k = true → d.curE t k < (d.tile t).chElems k → exec (.cflush t) s = .next (s.onDev fun _ => d.haltTile t 0x0307 k ⟨d.pc t c, c, 0, 0⟩ [])) ∧
      (((d.tile t).chTess k = true → (d.tile t).chElems k ≤ d.curE t k) → ∀ i, i = d.mkIns t c w →
        exec (.cflush t) s = .next (s.onDev fun _ => issued (((d.track t i 0).onTile t (fun x => { x with vq := x.vq ++ [.ins i] })).advance t c) t c)))) ∧
  ((∀ s t d, t < 200 → d = (s.here.pump t).fillQueue t →
    (∀ r, (d.tile t).vrun = some r → 64 ≤ r.starve → exec (.panelRowTake t) s = .next (s.onDev fun _ => d)) ∧
    ((∀ r, (d.tile t).vrun = some r → r.starve < 64) → ∀ d1 free, Dev.takeRows 8 d t (d.chainView t) = (d1, free) →
      (free ≠ 0 → exec (.panelRowTake t) s = .next (s.onDev fun _ => (Dev.runGroups free d1 t (d.chainView t)).pump t)) ∧
      (free = 0 → exec (.panelRowTake t) s = .next (s.onDev fun _ => (if (d1.tile t).vrun.isSome then d1.starveRun t else d1).pump t)))) ∧
  (∀ (d : Dev) t n (v : SMap Byte) i a m ix isInt vals fl rest, (d.tile t).fpq = .row i a m ix isInt vals fl :: rest →
    ((d.tile t).cbAdmits i = true → Dev.takeRows (n + 1) d t v = Dev.takeRows n ((d.setTile t { d.tile t with fpq := rest }).takeRow t v i a m ix isInt vals fl) t v) ∧
    ((d.tile t).cbAdmits i = false → Dev.takeRows (n + 1) d t v = (d.bump (VEC.STALL_CB.COUNT t) 1, n + 1))) ∧
  (∀ (d : Dev) t n (v : SMap Byte) e rest, (d.tile t).fpq = e :: rest → (∃ i a u, e = .commit i a u) ∨ (∃ i a, e = .abort i a) →
    Dev.takeRows (n + 1) d t v = Dev.takeRows n (d.setTile t { d.tile t with fpq := rest, marks := (d.tile t).marks ++ [e] }) t v) ∧
  (∀ s t, t < 200 →
    (∀ r, (s.dev.tile t).vrun = some r → 64 ≤ r.starve → exec (.vrunStarvedTake t) s = .next (s.onDev fun d => (Dev.runGroups 8 d t (d.chainView t)).pump t)) ∧
    ((∀ r, (s.dev.tile t).vrun = some r → r.starve < 64) → exec (.vrunStarvedTake t) s = .next (s.onDev id)) ∧
    exec (.commitBufferRelease t) s = .next (s.onDev fun d => (Dev.releaseRows 8 d t).pump t)) ∧
  (∀ s t d x e rest, t < 200 → d = s.here.fillQueue t → (d.tile t).marks ++ (d.tile t).fpq = e :: rest →
    x = (if (d.tile t).marks = [] then { d.tile t with fpq := rest, marks := [] } else { d.tile t with marks := (d.tile t).marks.drop 1 }) →
    (∀ i a u, e = .commit i a u →
      (∀ y b, y = x.cbOpen i → y.cb.filter (fun b => b.ins.seq == i.seq) = [b] → exec (.commitMarker t) s = .next (s.onDev fun _ => (d.setTile t { y with
        cb := y.cb.filter (fun b => b.ins.seq != i.seq),
        cbDone := y.cbDone ++ [{ b with rows := b.rows.map (fun r => { r with red := none }), cols := [],
                                        words := b.rows.filterMap (·.red) ++ y.colWords (iChainM i.word) i.d0 b.cols }] }).pump t)) ∧
      exec (.abortMarker t) s = .next (s.onDev fun _ => d)) ∧
    (∀ i a, e = .abort i a →
      exec (.abortMarker t) s = .next (s.onDev fun _ => ((d.setTile t { x with cb := x.cb.filter (fun b => b.ins.seq != i.seq) }).bump (VEC.ABORTS.COUNT t) 1).pump t) ∧
      exec (.commitMarker t) s = .next (s.onDev fun _ => d))) ∧
  (∀ s t d, t < 200 → d = s.here.fillQueue t → (d.tile t).marks = [] → (d.tile t).fpq = [] →
    exec (.commitMarker t) s = .next (s.onDev fun _ => d) ∧ exec (.abortMarker t) s = .next (s.onDev fun _ => d)))

/-- Arrays at work (R127, R130, R131, R143, R151 to R154, R178): the transfer of a load and the wait of one for its region; the start of a stream,
which waits behind a load of the registers it swaps, enters at no late entry, waits for its region, and is halted by an empty weight register and a
format that is not its own; the commit of the oldest stream whose rows have all entered the panel queue, and the freeze of one whose rows find it
full. The map of arrays (R154, R155, R157): a map that names a failed array or one array twice is refused; another applies at once while the arrays
are idle and the tile is at a boundary, or has run nothing since it was loaded, and is held else. Codec faults (R182 to R186, R228): the faults of the
arrays abort their instructions and halt the tile with the one earliest in program order, which the fault registers record with every array's bit;
without an HBM copy of the stream, or on a second fault, the data is damaged. The retry runs the transfers of the faulted streams from HBM again,
once, and resumes the tile. -/
def Obligations.ArraysAndCodec : Prop :=
  ((∀ s t a d p ar, t < 200 → d = s.here.pump t → p = d.arrPhys t a → ar = (d.tile t).arr p →
    (∀ i w, ar.incoming = some (i, w) →
      (d.arraysRun t = true → exec (.mloadTransfer t a) s = .next (s.onDev fun _ =>
        (((d.setTile t (((d.tile t).setArr p { ar with shadow := some w, incoming := none }).forgetRetry (d.operandBase t i))).showArr t p).insDone t i).pump t)) ∧
      (d.arraysRun t = false → exec (.mloadTransfer t a) s = .next (s.onDev fun _ => d))) ∧
    (∀ i q, ar.incoming = none → (d.tile t).aqOf a = i :: q → i.op = 0x20 → ar.fault = none → d.halted t = false →
      d.supply t (loadSrc i).1 (loadSrc i).2 (bits i.word 39 36) (loadBlocks (bits i.word 39 36) - 1) = .wait →
      exec (.mloadTransfer t a) s = .next (s.onDev fun _ => (if ar.cur = [] then d else d.freezeEmpty t p).bump (SPM.REGION_WAITS.COUNT t) 1)) ∧
    (ar.incoming = none → (d.tile t).aqOf a = [] → exec (.mloadTransfer t a) s = .next (s.onDev fun _ => d)) ∧
    (∀ i q, (d.tile t).aqOf a = i :: q →
      (i.op ≠ 0x21 ∨ ar.owed ≠ [] ∨ ar.fault.isSome = true ∨ d.halted t = true → exec (.mstreamStart t a) s = .next (s.onDev fun _ => d)) ∧
      (i.op = 0x21 → ar.owed = [] → ar.fault = none → d.halted t = false →
        (sM i = 0 → exec (.mstreamStart t a) s = .next (s.onDev fun _ => ((d.setTile t ((d.tile t).setAq a q)).insDone t i).pump t)) ∧
        (sM i ≠ 0 → sSwap i = true → ar.redoOf i = none → ar.incoming.isSome = true → exec (.mstreamStart t a) s = .next (s.onDev fun _ => d.bump (MXA.LOAD_WAIT.COUNT t p) 1)) ∧
        (sM i ≠ 0 → sSwap i = false ∨ ar.incoming = none →
          (d.entersLate t (ar.foundBy i) i = true → exec (.mstreamStart t a) s = .next (s.onDev fun _ => d.haltArray t a 0x0306 a i)) ∧
          (d.entersLate t (ar.foundBy i) i = false →
            (d.imageSupply t (ar.foundBy i) i = .wait → exec (.mstreamStart t a) s = .next (s.onDev fun _ => (d.freezeEmpty t p).bump (SPM.REGION_WAITS.COUNT t) 1)) ∧
            (d.imageSupply t (ar.foundBy i) i = .tooBig → exec (.mstreamStart t a) s = .next (s.onDev fun _ => d.haltArray t a 0x0262 (sReg i - 1) i)) ∧
            (d.imageSupply t (ar.foundBy i) i = .ready →
              ((ar.foundBy i).weightsFor i = none → exec (.mstreamStart t a) s = .next (s.onDev fun _ => ((d.haltArray t a 0x0242 a i).replayCapture t p i).pump t)) ∧
              (∀ w, (ar.foundBy i).weightsFor i = some w →
                (w.fmt ≠ sWfmt i ∨ w.quad ≠ sQuad i → exec (.mstreamStart t a) s = .next (s.onDev fun _ => ((d.haltArray t a 0x0246 a i).replayCapture t p i).pump t)) ∧
                (∀ d1 im out, w.fmt = sWfmt i → w.quad = sQuad i → d.readImage t (ar.foundBy i) i = (d1, .ok im) → groupOfCode (sSfmt i) = none →
                  streamRows (ar.foundBy i) w i im.pos.lo im.pos.codes im.pos.scales ((d1.bump (TCX.BLOCKS_DECODED.COUNT t) im.fresh).rowScales t i) = .ok out →
                  exec (.mstreamStart t a) s = .next (s.onDev fun _ =>
                    (((d1.bump (TCX.BLOCKS_DECODED.COUNT t) im.fresh).takeStream t a p i w im out).replayCapture t p i).pump t)))))))) ∧
    ((d.tile t).aqOf a = [] → exec (.mstreamStart t a) s = .next (s.onDev fun _ => d))) ∧
  (∀ s t a d p ar, t < 200 → d = s.here.fillQueue t → p = d.arrPhys t a → ar = (d.tile t).arr p →
    (ar.cur = [] → exec (.streamCommit t a) s = .next (s.onDev fun _ => d)) ∧
    (∀ x rest, ar.cur = x :: rest → d.arraysRun t = true →
      (x.rows ≠ [] → exec (.streamCommit t a) s = .next (s.onDev fun _ => (d.bump (MXA.FREEZE_TOTAL.COUNT t p) 1).bump (MXA.FREEZE_FULL.COUNT t p) 1)) ∧
      (x.rows = [] → ∀ ar' d1, ar' = { ar with cur := rest, slots := commitSlots ar.slots x, redo := ar.redo.filter (fun r => r.1 != x.ins.seq) } →
        d1 = (((d.onTile t (fun y => (y.setArr p ar').forgetRetry (d.operandBase t x.ins))).showArr t p).bump (MXA.ROWS.COUNT t p) x.count).replayCaptured t p x.ins.seq →
        exec (.streamCommit t a) s = .next (s.onDev fun _ => (if x.finish then d1.putMarker t p (.commit x.ins a (ar.undoOf x)) else d1.insDone t x.ins).pump t))))) ∧
  (∀ s t (v : Reg), t < 200 →
    (mapOk (s.dev.get (MXA.FAILED.MASK t)) v.toNat = false → exec (.mxaMapWrite t v) s = .next (s.onDev fun d => d.refuseRegister (uTile t) (MXA.MAP.REG t).off)) ∧
    (mapOk (s.dev.get (MXA.FAILED.MASK t)) v.toNat = true →
      ((s.dev.tile t).arraysIdle = true →
        s.dev.get (CMD.SEQ_STATE.STATE t) ∈ [tsEMPTY, tsREADY] ∨ s.dev.boundaryHolds t = true ∨ (s.dev.halted t = true ∧ (s.dev.tile t).wasReady = true) →
        exec (.mxaMapWrite t v) s = .next (s.onDev (·.applyMap t v))) ∧
      ((s.dev.tile t).arraysIdle = false ∨ (s.dev.get (CMD.SEQ_STATE.STATE t) ∉ [tsEMPTY, tsREADY] ∧ s.dev.boundaryHolds t = false ∧ (s.dev.halted t = false ∨ (s.dev.tile t).wasReady = false)) →
        exec (.mxaMapWrite t v) s = .next (s.onDev fun d => d.onTile t (fun x => { x with heldMap := some v }))))) ∧
  ((∀ s t a d p, t < 200 → d = s.here.pump t → p = d.arrPhys t a →
    (((d.tile t).arr p).fault = none → exec (.expanderBlockFault t a) s = .next (s.onDev fun _ => d)) ∧
    (∀ a0 f0 rest cs e es, ((d.tile t).arr p).fault.isSome = true → d.faults t = (a0, f0) :: rest → cs = ((a0, f0) :: rest).filter (fun f => f.2.status != 0x0265) → cs = e :: es →
      ∀ d1, d1 = (((d.bump (TCX.FAULT_COUNT.COUNT t) cs.length).recordCodec t (cs.map (fun (f : Nat × CodecFault) => d.arrPhys t f.1)) e.2).each ((a0, f0) :: rest)
        (fun (y : Dev) (f : Nat × CodecFault) => y.abortHead t f.1 f.2.ins)) →
      exec (.expanderBlockFault t a) s = .next (s.onDev fun _ => ((d1.haltIns t f0.status a0 f0.ins 1 a0 (d1.tcxDetail t)).each rest
        (fun (y : Dev) (f : Nat × CodecFault) => y.haltFault t f.2.status f.1 f.2.ins.pc (y.tcxDetail t))).each cs (fun (y : Dev) (f : Nat × CodecFault) => y.faultDamage t f.2))) ∧
    (∀ f d1 d2, ((d.tile t).arr p).fault.isSome = true → d.faults t = [(a, f)] →
      (f.status = 0x0265 → d1 = (d.bump (TCX.FAULT_COUNT.COUNT t) 0).abortHead t a f.ins →
        exec (.expanderBlockFault t a) s = .next (s.onDev fun _ => d1.haltIns t f.status a f.ins 1 a (d1.tcxDetail t))) ∧
      (f.status ≠ 0x0265 → d1 = ((d.bump (TCX.FAULT_COUNT.COUNT t) 1).recordCodec t [d.arrPhys t a] f).abortHead t a f.ins → d2 = d1.haltIns t f.status a f.ins 1 a (d1.tcxDetail t) →
        ((d2.tile t).hbmCopy f.base = none → exec (.expanderBlockFault t a) s = .next (s.onDev fun _ => d2.dataDamaged t none none f.status)) ∧
        (∀ c, (d2.tile t).hbmCopy f.base = some c →
          (f.base ∈ (d2.tile t).retried → exec (.expanderBlockFault t a) s =
            .next (s.onDev fun _ => d2.dataDamaged t (some c.source) (d2.copySegment t c f.ins f.base f.block) f.status)) ∧
          (f.base ∉ (d2.tile t).retried → exec (.expanderBlockFault t a) s = .next (s.onDev fun _ => d2)))))) ∧
  (∀ s t bases, t < 200 → bases = s.dev.faultBases t →
    (s.dev.flag (TCX.FAULT_STATUS.VALID t) = false ∨ s.dev.halted t = false ∨ bases = [] ∨ (∃ b ∈ bases, (s.dev.tile t).hbmCopy b = none ∨ b ∈ (s.dev.tile t).retried) →
      exec (.codecFaultRetry t) s = .next (s.onDev id)) ∧
    (s.dev.flag (TCX.FAULT_STATUS.VALID t) = true → s.dev.halted t = true → bases ≠ [] → (∀ b ∈ bases, (s.dev.tile t).hbmCopy b ≠ none ∧ b ∉ (s.dev.tile t).retried) →
      ∀ d1, (Dev.refillAll t (bases.filterMap (s.dev.tile t).hbmCopy).eraseDups s.here = (d1, false) → exec (.codecFaultRetry t) s = .next (s.onDev fun _ => d1)) ∧
        (Dev.refillAll t (bases.filterMap (s.dev.tile t).hbmCopy).eraseDups s.here = (d1, true) → exec (.codecFaultRetry t) s = .next (s.onDev fun _ =>
          ((d1.onTile t (fun x => { x with retried := bases ++ x.retried })).set (TCX.FAULT_STATUS.VALID t) 0).resumeTile t)))))

/-! ## The scratchpad and tile DMA -/

/-- DMA and its descriptors (R186, R233, R239, R247 to R250, R253, R272): the instruction joins the D queue; a channel starts its next descriptor
after the whole check, or stops with an error; it waits for its source and its destination, writes what fits, and completes with its last line, or
halts the tile when its release is no line of the region; a data fault stops the channel and is answered from HBM once. Regions and banks (R151, R226,
R230, R233, R235, R252, R314): an invalid BASE or SIZE is refused, a write of a busy region is held, another is stored and lets go what it satisfies;
a remote producer's line lands at TAIL while it holds credit for it; a starved requester's losses count, and it takes its turn at the bank. -/
def Obligations.TileDmaAndScratchpad : Prop :=
  ((∀ s t d c w a, Issues s t 0x60 d c w → a = ((d.tile t).ra c (bits w 37 34) + bits w 86 64) % 2 ^ 23 →
    (a % 64 ≠ 0 → exec (.dma t) s = .next (s.onDev fun _ => d.haltTile t 0x0260 (bits w 33 32) ⟨d.pc t c, c, 0, 0⟩ [])) ∧
    (a % 64 = 0 → 16 ≤ (d.tile t).dq.length → exec (.dma t) s = .next (s.onDev fun _ => d.bump (CMD.SEQ_STALL.COUNT t) 1)) ∧
    (a % 64 = 0 → (d.tile t).dq.length < 16 → ∀ i, i = { d.mkIns t c w with x := a, y := (d.tile t).ra c (bits w 42 39), z := (d.tile t).ra c (bits w 47 44), w := (d.tile t).rg c (bits w 54 49) % 2 ^ 32 } →
      exec (.dma t) s = .next (s.onDev fun _ => issued (((d.track t i 0).onTile t (fun x => { x with dq := x.dq ++ [.ins i] })).advance t c) t c))) ∧
  (∀ s t ch d, t < 200 → d = s.here.pump t →
    (d.flag (TDMA.CH_STATE.ERROR t ch) = true ∨ ((d.tile t).chan ch).cur.isSome ∨ d.nextDesc t ch = none → exec (.descriptorStart t ch) s = .next (s.onDev fun _ => d)) ∧
    (d.flag (TDMA.CH_STATE.ERROR t ch) = false → ((d.tile t).chan ch).cur = none → ∀ e d1, d.nextDesc t ch = some e →
      d1 = d.onTile t (fun x => x.setChan ch ((x.chan ch).without e)) →
      (∀ d2 st a, d1.descCheck t e.bytes = (d2, .error (st, a)) → exec (.descriptorStart t ch) s = .next (s.onDev fun _ => d2.chanError t ch e st a)) ∧
      (∀ d2 segs, d1.descCheck t e.bytes = (d2, .ok segs) → exec (.descriptorStart t ch) s = .next (s.onDev fun _ =>
        ((d2.onTile t (fun x => x.setChan ch { x.chan ch with cur := some { e with pages := (readDesc e.bytes).pages, segs := segs } })).showChan t ch).pump t)))) ∧
  (∀ s t ch, t < 200 →
    (((s.dev.tile t).chan ch).cur = none → exec (.descriptorComplete t ch) s = .next (s.onDev id) ∧ exec (.descriptorDataFault t ch) s = .next (s.onDev id)) ∧
    (∀ e, ((s.dev.tile t).chan ch).cur = some e →
      (s.here.srcReady t e = false ∨ s.here.dstOpen t e = false → exec (.descriptorComplete t ch) s = .next (s.onDev (·.bump (SPM.REGION_WAITS.COUNT t) 1)) ∧
        exec (.descriptorDataFault t ch) s = .next (s.onDev id)) ∧
      (s.here.srcReady t e = true → s.here.dstOpen t e = true →
        (s.here.descFault t e = none → exec (.descriptorDataFault t ch) s = .next (s.onDev id)) ∧
        (s.here.descFault t e = none → ∀ m d1, s.here.descMove t e = .ok m →
          ((readDesc e.bytes).dstReg = true ∧ s.here.dstRoom t e < m.stop → d1 = s.here.descPart t ch e m →
            exec (.descriptorComplete t ch) s = .next (s.onDev fun _ => (d1.pump (d1.dstPhys t (readDesc e.bytes))).pump t)) ∧
          ((readDesc e.bytes).dstReg = false ∨ m.stop ≤ s.here.dstRoom t e →
            (s.here.descReleases t e = true → d1 = (s.here.onTile t (·.forgetRetry e.retryKey)).descComplete t ch e m →
              exec (.descriptorComplete t ch) s = .next (s.onDev fun _ => (d1.pump (d1.dstPhys t (readDesc e.bytes))).pump t)) ∧
            (s.here.descReleases t e = false → d1 = s.here.descUnreleased t ch e m →
              exec (.descriptorComplete t ch) s = .next (s.onDev fun _ => (d1.pump (d1.dstPhys t (readDesc e.bytes))).pump t)))) ∧
        (∀ st block d1, s.here.descFault t e = some (st, block) →
          d1 = ((s.here.descTouch t e).chanError t ch e st (s.dev.get2 (TDMA.CH_FAULT_LO.ADDR t ch) (TDMA.CH_FAULT_HI.ADDR t ch))).onTile t
            (fun x => { x with retried := e.retryKey :: x.retried.filter (· != e.retryKey) }) →
          exec (.descriptorComplete t ch) s = .next (s.onDev id) ∧
          exec (.descriptorDataFault t ch) s = .next (s.onDev fun _ =>
            d1.descResponse t e st (s.here.descSegment t e block) ((s.dev.tile t).retried.contains e.retryKey)))))) ∧
  (∀ s t ch, t < 200 → ch < 4 → (s.dev.tile t).resumeHeld = false → exec (.tdmaErrorClear t ch) s = .next (s.onDev (·.set (TDMA.CH_STATE.ERROR t ch) 0)))) ∧
  ((∀ s t off (v : Reg) r, t < 200 → regionOf t off = some r → off % 4 = 0 →
    (s.dev.regionValid t r off v.toNat = false → exec (.regionDescriptorWrite t off v) s = .next (s.onDev (·.refuseRegister (uTile t) off))) ∧
    (s.dev.regionValid t r off v.toNat = true → ∀ v', v' = BitVec.ofNat 32 (v.toNat &&& regionMask t off) →
      (s.dev.regionBusy t r = true → exec (.regionDescriptorWrite t off v) s =
        .next (s.onDev fun d => d.onTile t (fun x => { x with heldRegion := x.heldRegion ++ [(off, v')] }))) ∧
      (s.dev.regionBusy t r = false → exec (.regionDescriptorWrite t off v) s = .next (s.onDev fun d => (d.regionStore t off v').pump t)))) ∧
  (∀ s t r line, t < 200 →
    (s.dev.regOk t r = true → s.dev.flag (SPM.REGION_BIND.REMOTE_EN t r) = true → s.dev.creditRoom t r (s.dev.regTail t r) line.length = true →
      exec (.remoteRegionWrite t r line) s = .next (s.onDev fun d => ((d.regWrite t r (d.regTail t r) line).setTailR t r ((d.regTail t r + line.length) % 2 ^ 32)).pump t)) ∧
    (s.dev.regOk t r = false ∨ s.dev.flag (SPM.REGION_BIND.REMOTE_EN t r) = false ∨ s.dev.creditRoom t r (s.dev.regTail t r) line.length = false →
      exec (.remoteRegionWrite t r line) s = .next (s.onDev id))) ∧
  (∀ s t b q now live, t < 200 → now = s.dev.tclkAt (wingOf t) s.here.now → live = (s.dev.tile t).starved.filter (fun e => decide (now ≤ e.grant + 15)) →
    (32 ≤ b ∨ 16 ≤ q ∨ (∃ e ∈ live, e.bank = b ∧ e.requester = q) → exec (.bankStarved t b q) s = .next (s.onDev id)) ∧
    (b < 32 → q < 16 → (∀ e ∈ live, e.bank = b → e.requester ≠ q) → Calm s → ∃ u, exec (.bankStarved t b q) s = .next u ∧ OnlyParts [.regs, .tiles] s u ∧
      OnlyFields [SPM.BANK_LOSSES.COUNT t, MXA.FREEZE_TOTAL.COUNT t q, MXA.FREEZE_BANK.COUNT t q, VEC.STALL_BANK.COUNT t] s u ∧
      u.dev.get (SPM.BANK_LOSSES.COUNT t) = min (2 ^ 32 - 1) (s.dev.get (SPM.BANK_LOSSES.COUNT t) + 32) ∧
      (u.dev.tile t).starved = live.filter (fun f => f.bank != b || decide (f.grant < now)) ++
        grantFrom now ((⟨b, q, now, now⟩ :: live.filter (fun f => f.bank == b && decide (now ≤ f.grant))).mergeSort StarveEnt.before))))

/-! ## Cell ports -/

/-- What a cell port does with a frame before its meaning (R393, R396, R397): nothing while it is down; else it counts it, and discards and counts one
that is not UDP over IPv6, is for another address or port, fails its checksum, ICRC or form, or is for another device. Transport frames that reach
their meaning (R397 to R399, R406, R411, R422): a duplicate DATA frame is acknowledged again and dropped; a fresh one takes its place in what is in
progress, or counts as stale; an ACK lets what waited go on; READY and GRANT serve the collective that runs or are kept for one not issued yet; a
CREDIT raises what the link may send. Links between devices and the transport's timers (R296, R297, R399, R400): a slot that is READY goes out whole
when the one before it has been read, and SENT counts it; the acknowledgement and retransmission timers end at their time; 50 µs after its last change
the rate rises by 2 GB/s. -/
def Obligations.CellFrames : Prop :=
  (∀ s c type port bs d, (c, type) ∈ cellRows port bs → d = s.here.bump (CFI.PORT_RX.COUNT port) 1 →
    (s.dev.cellUp port = false → exec c s = .next (s.onDev id)) ∧
    (s.dev.cellUp port = true →
      (readUdp6c bs = none → exec c s = .next (s.onDev fun _ => d.bump (CFI.PORT_DISCARDS.COUNT port) 1)) ∧
      (∀ u sum, readUdp6c bs = some (u, sum) → u.ce = false →
        (u.dport ≠ d.get CFI.CTL.UDP_PORT ∨ u.dst ≠ d.cellIp port → exec c s = .next (s.onDev fun _ => d.bump (CFI.PORT_DISCARDS.COUNT port) 1)) ∧
        (u.dport = d.get CFI.CTL.UDP_PORT → u.dst = d.cellIp port →
          (sum = false ∨ icrcOk u.pay = false → exec c s = .next (s.onDev fun _ => d.bump (CFI.PORT_ICRC_ERR.COUNT port) 1)) ∧
          (sum = true → icrcOk u.pay = true →
            (readTframe u.pay = none → exec c s = .next (s.onDev fun _ => d.bump (CFI.PORT_DISCARDS.COUNT port) 1)) ∧
            (∀ f, readTframe u.pay = some f → f.type ≠ type ∨ f.dst ≠ d.rank → exec c s = .next (s.onDev fun _ => d.bump (CFI.PORT_DISCARDS.COUNT port) 1))))))) ∧
  ((∀ s port bs d f ce, CellFrame s port ftDATA bs d f ce →
    ((d.rxPeer (peerKey f.src f.cls)).seen f.psn = true → exec (.cfiData port bs) s = .next (s.onDev fun _ => d.takePsn f ce)) ∧
    ((d.rxPeer (peerKey f.src f.cls)).seen f.psn = false → f.cls = 0 →
      (d.slotOf f.tag f.seq = none → exec (.cfiData port bs) s = .next (s.onDev fun _ => d.bump CFI.STALE_FRAMES.COUNT 1)) ∧
      (∀ k g m c cs, d.slotOf f.tag f.seq = some k → d.group k = some g → g.members.findIdx? (· == f.src) = some m → g.queue = c :: cs →
        (c.rx.any (fun r => r.peer == m && r.grant == f.grant) = true → exec (.cfiData port bs) s = .next (s.onDev fun _ =>
          (((d.collData k m f).takePsn f ce).collAdvance k).kick)) ∧
        (c.rx.any (fun r => r.peer == m && r.grant == f.grant) = false → exec (.cfiData port bs) s = .next (s.onDev fun _ => d.bump CFI.STALE_FRAMES.COUNT 1)))) ∧
    ((d.rxPeer (peerKey f.src f.cls)).seen f.psn = false → f.cls ≠ 0 →
      (d.linkIn f.tag f.src = none → exec (.cfiData port bs) s = .next (s.onDev fun _ => d.bump CFI.STALE_FRAMES.COUNT 1)) ∧
      (∀ l t, d.linkIn f.tag f.src = some (l, t) → (d.linkRx f.tag).k ≠ f.seq →
        exec (.cfiData port bs) s = .next (s.onDev fun _ => d.bump CFI.STALE_FRAMES.COUNT 1)))) ∧
  (∀ s port bs d f ce, CellFrame s port ftACK bs d f ce → exec (.cfiAck port bs) s = .next (s.onDev fun _ => (d.ackIn f).kick)) ∧
  (∀ s port bs d f ce c type, (c, type) ∈ [(Instr.cfiReady port bs, ftREADY), (.cfiGrant port bs, ftGRANT)] → CellFrame s port type bs d f ce →
    (d.slotTag f.tag = none → exec c s = .next (s.onDev fun _ => d)) ∧
    (∀ k g m x xs, d.slotTag f.tag = some (k, g) → g.members.findIdx? (· == f.src) = some m → g.queue = x :: xs → x.started = true → x.seq = f.seq →
      exec c s = .next (s.onDev fun _ => (((if type = ftREADY then d.readyIn k m f.data else d.grantIn k m f.grant f.data).collAdvance k)).kick)) ∧
    (∀ k g m, d.slotTag f.tag = some (k, g) → g.members.findIdx? (· == f.src) = some m → g.queue = [] → d.rnd.cfg = none →
      0 < psnDiff (d.get (CFI.GROUP_SEQ.SEQ k)) f.seq → psnDiff (d.get (CFI.GROUP_SEQ.SEQ k)) f.seq < 2 ^ 31 →
      exec c s = .next (s.onDev fun _ => d.setGroup k (some { g with early := g.early ++ [(⟨f.type, f.seq, f.src, f.grant, f.data⟩ : EarlyCtl)] })))) ∧
  (∀ s port bs d f ce, CellFrame s port ftCREDIT bs d f ce →
    (d.linkOut f.tag = none → exec (.cfiCredit port bs) s = .next (s.onDev fun _ => d)) ∧
    (∀ m l dd t c d1, d.linkOut f.tag = some (m, l, dd, t) → c = be f.data 0 8 % 2 ^ 32 → dd = f.src → f.cls = 1 → psnDiff (d.linkTx f.tag).credit c < 2 ^ 31 →
      d1 = d.setLinkTx f.tag { d.linkTx f.tag with credit := c } →
      exec (.cfiCredit port bs) s = .next (s.onDev fun _ => Dev.txPump 1 dd (d1.pumpFuel (peerKey dd 1)) d1)))) ∧
  ((∀ s pipe link tag m l dd t rows, tag = pipe * 65536 + link % 65536 → s.dev.linkOut tag = some (m, l, dd, t) →
    (s.dev.pipe (tag / 65536)).rows.find? (fun e => e.1 == (s.dev.linkTx tag).k) = some rows →
    (s.dev.get (QSU.TALLY_VALUE.VALUE (m.tallyBase + l.readyOff)) < (s.dev.linkTx tag).k + 1 ∨ (s.dev.linkTx tag).reading = true ∨ (s.dev.txPeer (peerKey dd 1)).holdsTag tag = true →
      exec (.linkSlotSend pipe link) s = .next (s.onDev id)) ∧
    ((s.dev.linkTx tag).k + 1 ≤ s.dev.get (QSU.TALLY_VALUE.VALUE (m.tallyBase + l.readyOff)) → (s.dev.linkTx tag).reading = false → (s.dev.txPeer (peerKey dd 1)).holdsTag tag = false →
      ∀ len a d1, len = l.rowBytes * rows.2 + l.fixedBytes → a = l.stageAddr + l.slotBytes * ((s.dev.linkTx tag).k % max 1 l.slots) → (s.dev.tile t).spmBad a len = none →
      d1 = (s.here.spmTouch t a len).setLinkTx tag { s.dev.linkTx tag with k := (s.dev.linkTx tag).k + 1, base := up128 ((s.dev.linkTx tag).base + len), reading := true } →
      exec (.linkSlotSend pipe link) s = .next (s.onDev fun _ => d1.txAdd 1 dd ⟨tag, (s.dev.linkTx tag).k, (s.dev.linkTx tag).base, len, 0, .bytes ((d1.tile t).rdSpm a len)⟩)) ∧
    ((s.dev.linkTx tag).reading = true → (∀ i ∈ (s.dev.txPeer (peerKey dd 1)).backlog, i.tag ≠ tag) →
      exec (.linkSlotSent pipe link) s = .next (s.onDev fun d => (d.setLinkTx tag { d.linkTx tag with reading := false }).tallyAdd (m.tallyBase + l.sentOff) 1)) ∧
    ((s.dev.linkTx tag).reading = false → exec (.linkSlotSent pipe link) s = .next (s.onDev id))) ∧
  (∀ s peer cls, 
    ((s.dev.rxPeer (peerKey peer cls)).count ≠ 0 → exec (.cfiAckTimer peer cls) s = .next ((s.until ((s.dev.rxPeer (peerKey peer cls)).since + 2000)).onDev (·.sendAck cls peer))) ∧
    ((s.dev.rxPeer (peerKey peer cls)).count = 0 → exec (.cfiAckTimer peer cls) s = .next s) ∧
    (∀ psn f, (s.dev.txPeer (peerKey peer cls)).unacked.find? (fun f => f.psn == psn) = some f →
      exec (.cfiRetxTimer peer cls psn) s =
        .next ((s.until (f.sentAt + min (s.dev.get CFI.RTO_MAX.MICROSECONDS * 1000) (max (4 * (s.dev.txPeer (peerKey peer cls)).srtt)
            (s.dev.get CFI.RTO_MIN.MICROSECONDS * 1000) * 2 ^ f.tries))).onDev fun d =>
          (d.setTx (peerKey peer cls) { d.txPeer (peerKey peer cls) with unacked := (d.txPeer (peerKey peer cls)).unacked.map (fun u => if u.psn = psn then
            { u with tries := u.tries + 1, sentAt := d.now, fast := false } else u) }).resend cls peer f)) ∧
    (∀ psn, (∀ f ∈ (s.dev.txPeer (peerKey peer cls)).unacked, f.psn ≠ psn) → exec (.cfiRetxTimer peer cls psn) s = .next s)) ∧
  (∀ s peer u d0 d1, u = s.until (smapGet zeroDflt s.dev.cfi.rateAt peer + 50000) → d0 = (u.here.setRate peer (min (max 1000 s.dev.lineRate) (s.dev.rateTo peer + 2000))).flushHeld →
    d1 = Dev.txPump 0 peer (d0.pumpFuel (peerKey peer 0)) d0 →
    exec (.cfiRateIncrease peer) s = .next (u.onDev fun _ => Dev.txPump 1 peer (d1.pumpFuel (peerKey peer 1)) d1)))

/-! ## Cell and far ports apart from their transports -/

/-- Links of ports (R417, R418, R421, R478, R497, R624): a port that goes down or comes up posts its event, a loss raises function 1's vector 4, and
what follows the capacity is brought up to date. What is no change, would raise a port under review (R597), or names a port the device does not have,
does nothing. Frames a port answers or counts itself (R393, R394, R397, R476, R477): a pause holds the priorities that PFC_OBEY names, and what
another held goes out when it may; a solicitation, an ARP request and an Echo Request for an own address are answered, the last at most 1,000 times a
second; a message about the path MTU of a slot whose packets are larger posts 0x0515; every frame thrown away counts in its counter. The layouts of
the answers are the model's (RFC 4861, log 38). -/
def Obligations.Ports : Prop :=
  ((∀ s p, p < cellPorts s.dev.code →
    (s.dev.flag (CFI.PORT_STATE.UP p) = true → exec (.cellPortDown p) s = .next (s.onDev fun d =>
      (((d.set (CFI.PORT_STATE.UP p) 0).event 0x040C p).msix1 4).rescale.pumpAll.storeOn)) ∧
    (s.dev.flag (CFI.PORT_STATE.UP p) = false → exec (.cellPortDown p) s = .next (s.onDev id)) ∧
    (s.dev.flag (CFI.PORT_STATE.UP p) = false → s.dev.flag (CFI.PORT_STATE.ENABLE p) = true → uCell p ∉ s.dev.csv.reviews → exec (.cellPortUp p) s = .next (s.onDev fun d =>
      ((d.set (CFI.PORT_STATE.UP p) 1).eventOpen 0x040D).rescale.pumpAll.storeOn)) ∧
    (s.dev.flag (CFI.PORT_STATE.UP p) = true ∨ s.dev.flag (CFI.PORT_STATE.ENABLE p) = false ∨ uCell p ∈ s.dev.csv.reviews → exec (.cellPortUp p) s = .next (s.onDev id))) ∧
  (∀ s p, p < farPorts s.dev.code →
    (s.dev.flag (WXU.FAR_STATE.UP p) = true → exec (.farPortDown p) s = .next (s.onDev fun d =>
      (((d.set (WXU.FAR_STATE.UP p) 0).event 0x0510 p).msix1 4).updateActive true)) ∧
    (s.dev.flag (WXU.FAR_STATE.UP p) = false → exec (.farPortDown p) s = .next (s.onDev id)) ∧
    (s.dev.flag (WXU.FAR_STATE.UP p) = false → s.dev.flag (WXU.FAR_STATE.ENABLE p) = true → uFar p ∉ s.dev.csv.reviews → exec (.farPortUp p) s = .next (s.onDev fun d =>
      ((d.set (WXU.FAR_STATE.UP p) 1).event 0x0511 p).updateActive true)) ∧
    (s.dev.flag (WXU.FAR_STATE.UP p) = true ∨ s.dev.flag (WXU.FAR_STATE.ENABLE p) = false ∨ uFar p ∈ s.dev.csv.reviews → exec (.farPortUp p) s = .next (s.onDev id))) ∧
  (∀ s p, cellPorts s.dev.code ≤ p → exec (.cellPortDown p) s = .next (s.onDev id) ∧ exec (.cellPortUp p) s = .next (s.onDev id)) ∧
  (∀ s p, farPorts s.dev.code ≤ p → exec (.farPortDown p) s = .next (s.onDev id) ∧ exec (.farPortUp p) s = .next (s.onDev id))) ∧
  ((∀ s p mask q d, s.dev.cellUp p = true → d = s.here.bump (CFI.PORT_RX.COUNT p) 1 → exec (.pfcPause p mask q) s = .next (s.onDev fun _ => ({ d with
    cfi.paused := smapSetAll zeroDflt d.cfi.paused ((maskBits (mask &&& d.get CFI.CTL.PFC_OBEY) 8).map (fun k => (8 * p + k, if q = 0 then 0 else d.now + ceilDiv (q * 512) 800))) } : Dev).flushHeld)) ∧
  (∀ s p mask q, s.dev.cellUp p = false → exec (.pfcPause p mask q) s = .next (s.onDev id)) ∧
  (∀ s p bs d, s.dev.portUp p = true → d = s.here.portRx p → ∀ src dst msg, readIcmp6 bs = some (src, dst, msg) →
    (be msg 0 1 = 135 → be msg 8 16 = d.portIp6 p → 24 ≤ msg.length → exec (.neighborSolicitation p bs) s = .next (s.onDev fun _ => d.portSend p 0x86DD
      (icmp6 (d.portIp6 p) (if src = 0 then 0xFF02 * 2 ^ 112 + 1 else src) 255 (d.portDscp p)
        ([136, 0, 0, 0] ++ beBytes 4 (if src = 0 then 0x20000000 else 0x60000000) ++ beBytes 16 (d.portIp6 p) ++ [2, 1] ++ beBytes 6 (portMac p))))) ∧
    (be msg 0 1 ≠ 135 ∨ be msg 8 16 ≠ d.portIp6 p ∨ msg.length < 24 → exec (.neighborSolicitation p bs) s = .next (s.onDev fun _ => d.portDiscard p)) ∧
    (be msg 0 1 = 128 → dst = d.portIp6 p →
      (1000 ≤ (d.echoed p).length → exec (.echoRequest p bs) s = .next (s.onDev fun _ => d)) ∧
      ((d.echoed p).length < 1000 → p < 16 → exec (.echoRequest p bs) s = .next (s.onDev fun _ =>
        { d with cfi.echoes := smapSet echoDflt d.cfi.echoes p (d.now :: d.echoed p) }.portSend p 0x86DD (icmp6 dst src 64 (d.portDscp p) ([129] ++ msg.drop 1)))) ∧
      ((d.echoed p).length < 1000 → 16 ≤ p → exec (.echoRequest p bs) s = .next (s.onDev fun _ =>
        { d with wxu.echoes := smapSet echoDflt d.wxu.echoes (p - 16) (d.now :: d.echoed p) }.portSend p 0x86DD (icmp6 dst src 64 (d.portDscp p) ([129] ++ msg.drop 1))))) ∧
    (be msg 0 1 ≠ 128 ∨ dst ≠ d.portIp6 p → exec (.echoRequest p bs) s = .next (s.onDev fun _ => d.portDiscard p))) ∧
  (∀ s p bs, s.dev.portUp p = false → exec (.neighborSolicitation p bs) s = .next (s.onDev id) ∧ exec (.echoRequest p bs) s = .next (s.onDev id)) ∧
  (∀ s q bs a d, s.dev.farUp q = true → a = bs.drop 14 → d = s.here.portRx (16 + q) →
    (be bs 12 2 = 0x0806 → be a 0 8 = 0x0001080006040001 → be a 24 4 = d.get (WXU.FAR_IP4.ADDR q) → d.flag (WXU.FAR_STATE.IPV4_EN q) = true → 28 ≤ a.length →
      exec (.arpRequest q bs) s = .next (s.onDev fun _ => d.portSend (16 + q) 0x0806
        (beBytes 8 0x0001080006040002 ++ beBytes 6 (portMac (16 + q)) ++ beBytes 4 (d.get (WXU.FAR_IP4.ADDR q)) ++ (a.drop 8).take 10))) ∧
    (be a 24 4 ≠ d.get (WXU.FAR_IP4.ADDR q) ∨ d.flag (WXU.FAR_STATE.IPV4_EN q) = false →
      exec (.arpRequest q bs) s = .next (s.onDev fun _ => d.portDiscard (16 + q)))) ∧
  (∀ s q mtu slot, s.dev.farUp q = true →
    (slot < 4096 → s.dev.slotState slot ≠ wsFREE → mtu < s.dev.fragSize + (if s.dev.flag (WXU.SLOT_STATE.IPV4 slot) then 92 else 112) →
      exec (.packetTooBig q mtu slot) s = .next (s.onDev fun d => (d.portRx (16 + q)).event 0x0515 slot)) ∧
    (s.dev.fragSize + 112 ≤ mtu → exec (.packetTooBig q mtu slot) s = .next (s.onDev (·.portRx (16 + q))))) ∧
  (∀ s p, s.dev.cellUp p = true →
    exec (.cellFrameDiscard p .fcs) s = .next (s.onDev (·.bump (CFI.PORT_FCS_ERR.COUNT p) 1)) ∧
    exec (.cellFrameDiscard p .icrc) s = .next (s.onDev fun d => (d.portRx p).bump (CFI.PORT_ICRC_ERR.COUNT p) 1) ∧
    exec (.cellFrameDiscard p .unhandled) s = .next (s.onDev fun d => (d.portRx p).portDiscard p) ∧
    (∀ c u, exec (.cellFrameDiscard p (.fec c u)) s = .next (s.onDev fun d => (d.bump (CFI.PORT_FEC_CORR.COUNT p) c).bump (CFI.PORT_FEC_UNCORR.COUNT p) u))) ∧
  (∀ s q, s.dev.farUp q = true →
    exec (.farFrameDiscard q .fcs) s = .next (s.onDev (·.bump (WXU.FAR_FCS_ERR.COUNT q) 1)) ∧
    exec (.farFrameDiscard q .icrc) s = .next (s.onDev fun d => (d.portRx (16 + q)).bump WXU.MALFORMED.COUNT 1) ∧
    exec (.farFrameDiscard q .unhandled) s = .next (s.onDev fun d => (d.portRx (16 + q)).portDiscard (16 + q)) ∧
    (∀ c u, exec (.farFrameDiscard q (.fec c u)) s = .next (s.onDev fun d => (d.bump (WXU.FAR_FEC_CORR.COUNT q) c).bump (WXU.FAR_FEC_UNCORR.COUNT q) u))))

/-! ## The far path: arrival, the cipher engine, the drain -/

/-- Arrival on a far port (R476, R485): what carries no UDP, an IPv4 fragment among it, is discarded, what is not a well-formed TXP packet is
malformed; a frame that does not name an OPEN slot with both its generations is stale, one whose TX_SEQ was seen is a replay, one that finds no room
is dropped (and a data frame NACKed with FULL), each in its own counter; any other takes its cells and waits for the cipher engine. Opening (R487,
R514, R518): the oldest frame goes onto a free pair with its session's key; a key slot without a session frees its cells. When the pair is done, a tag
that fails changes nothing but counters, cells and the NACK; an authenticated frame of an OPEN slot under its key acts; a pair that was upset runs
again elsewhere. A fragment's drain writes it into its buffer, releases its DSEQ and counts it. Sealing (R482, R509, R512 to R517, R530): the oldest
request whose slot may seal takes the slot's next TX_SEQ and is sealed under its session; when its pair is done the frame leaves by its port, or by
another that is up, from an OPEN slot only. Requests of the control cores (R513 to R515): one that is not well formed ends with 0x0612, another joins
queue 2 while it has room; the oldest goes onto a free pair when it is of the row's kind. When its pair is done it has read its key, data and text,
written its outputs when nothing failed, and counted its blocks; SIGNAL adds to its tally. -/
def Obligations.FarPath : Prop :=
  ((∀ s q bs, s.dev.farUp q = false → exec (.farFrameArrival q bs) s = .next (s.onDev id)) ∧
  (∀ s q bs d, s.dev.farUp q = true → d = s.here.portRx (16 + q) →
    (notUdp bs = true → exec (.farFrameArrival q bs) s = .next (s.onDev fun _ => d.portDiscard (16 + q))) ∧
    (notUdp bs = false → d.readTxp q bs = none → exec (.farFrameArrival q bs) s = .next (s.onDev fun _ => d.bump WXU.MALFORMED.COUNT 1)) ∧
    (∀ x, notUdp bs = false → d.readTxp q bs = some x → x.ce = false →
      (txpWell x.pay = false → exec (.farFrameArrival q bs) s = .next (s.onDev fun _ => d.bump WXU.MALFORMED.COUNT 1)) ∧
      (txpWell x.pay = true → ∀ h k, h = x.pay.take 48 → k = hRecv x.pay → hKind h ≠ tkHANDSHAKE →
        (d.pslot k = none → exec (.farFrameArrival q bs) s = .next (s.onDev fun _ => d.bump WXU.STALE_GEN.COUNT 1)) ∧
        (∀ p, d.pslot k = some p →
          ((d.slotOpen k = false ∨ d.slotGen k ≠ hRecvGen h ∨ d.get (WXU.SLOT_PEER.PEER_SLOT k) ≠ hSend h ∨ d.get (WXU.SLOT_PEER.PEER_GEN k) ≠ hSendGen h) →
            exec (.farFrameArrival q bs) s = .next (s.onDev fun _ => d.bump WXU.STALE_GEN.COUNT 1)) ∧
          (d.slotOpen k = true → d.slotGen k = hRecvGen h → d.get (WXU.SLOT_PEER.PEER_SLOT k) = hSend h → d.get (WXU.SLOT_PEER.PEER_GEN k) = hSendGen h →
            (d.replayOk k p h = false → exec (.farFrameArrival q bs) s = .next (s.onDev fun _ => d.bump WXU.REPLAYS.COUNT 1)) ∧
            (d.replayOk k p h = true → d.vestRoom h = false → hIsData h = false → exec (.farFrameArrival q bs) s = .next (s.onDev fun _ => d.bump WXU.VEST_DROPS.COUNT 1)) ∧
            (d.replayOk k p h = true → d.vestRoom h = false → hIsData h = true → exec (.farFrameArrival q bs) s = .next (s.onDev fun _ =>
              { d.bump WXU.VEST_DROPS.COUNT 1 with wxu.fullDrop := true, wxu.calmSince := d.now }.nackFrame k 3 h)) ∧
            (d.replayOk k p h = true → d.vestRoom h = true → ∀ level d1, level = d.get WXU.VEST_LEVEL.CELLS + hCells h →
              d1 = (d.set WXU.VEST_LEVEL.CELLS level).set WXU.VEST_PEAK.CELLS (max level (d.get WXU.VEST_PEAK.CELLS)) →
              ∃ f : VFrame, f.slot = k ∧ f.hdr = h ∧ f.text = slice x.pay 48 (hLen h) ∧ f.rx = d.now ∧
                exec (.farFrameArrival q bs) s = .next (s.onDev fun _ => d1.setCqueue 0 (d1.cqueue 0 ++ [.openFrame f (d1.get (WXU.SLOT_KEY.KEY_SLOT k)) false]))))))))) ∧
  ((∀ s r f k x rest pr, s.dev.cqueue 0 = .openFrame f k x :: rest → s.dev.freePair none = some pr →
    (∀ d1 y, (s.here.setCqueue 0 rest).useKey k = (d1, .ok (.session y)) → exec (.cipherOpenRequest ⟨0, r⟩) s = .next (s.onDev fun _ => d1.pairTake pr (.openFrame f k x))) ∧
    (∀ d1 e, (s.here.setCqueue 0 rest).useKey k = (d1, .error e) →
      (d1.slotOpen f.slot = true → exec (.cipherOpenRequest ⟨0, r⟩) s = .next (s.onDev fun _ => (d1.freeCells f.hdr).keyRelease)) ∧
      (d1.slotOpen f.slot = false → exec (.cipherOpenRequest ⟨0, r⟩) s = .next (s.onDev fun _ => ((d1.freeCells f.hdr).bump WXU.STALE_GEN.COUNT 1).keyRelease)))) ∧
  (∀ s q r, q ≠ 2 → q ≠ 0 ∨ s.dev.cqueue q = [] ∨ s.dev.freePair none = none → exec (.cipherOpenRequest ⟨q, r⟩) s = .next (s.onDev id)) ∧
  (∀ s pr f k x d, s.dev.cpair pr = some (.openFrame f k x) → pr ∉ s.dev.sec.upset → d = (s.here.setCpair pr none).countBlocks false (ceilDiv f.text.length 16) →
    (d.key k = none → exec (.cipherOpenComplete pr) s = .next (s.onDev fun _ => (d.freeCells f.hdr).keyRelease.kick)) ∧
    (∀ y, d.key k = some ⟨.session y, false⟩ →
      ((y.open_ f).2 = none → exec (.cipherOpenComplete pr) s = .next (s.onDev fun _ => (d.openFail f).keyRelease.kick)) ∧
      (∀ b, (y.open_ f).2 = some b → d.slotOpen f.slot = true → d.get (WXU.SLOT_KEY.KEY_SLOT f.slot) = k → ∀ d1, d1 = d.openPass f.slot k (y.open_ f).1 y f →
        (hIsData f.hdr = true → exec (.cipherOpenComplete pr) s = .next (s.onDev fun _ => (d1.fragment f b).keyRelease.kick)) ∧
        (hIsData f.hdr = false → exec (.cipherOpenComplete pr) s = .next (s.onDev fun _ => (d1.control f b).keyRelease.kick))))) ∧
  (∀ s pr, s.dev.cpair pr = none → exec (.cipherOpenComplete pr) s = .next (s.onDev (·.kick)) ∧ exec (.cipherSealComplete pr) s = .next (s.onDev id)) ∧
  (∀ s k, k ≠ 0 ∨ s.dev.wxu.drains = [] → exec (.fragmentDrained k) s = .next (s.onDev id)) ∧
  (∀ s x xs d, s.dev.wxu.drains = x :: xs → d = { s.here with wxu.drains := xs }.freeCells x.hdr →
    s.dev.rnd.cfg = none ∨ (∃ c, s.dev.rnd.cfg = some c ∧ c.fragShard x.slot (hShard x.hdr) = none) →
    exec (.fragmentDrained 0) s = .next (s.onDev fun _ => (d.bump WXU.MALFORMED.COUNT 1).release x.slot (hDseq x.hdr))) ∧
  (∀ s x xs c i sh p d base, s.dev.wxu.drains = x :: xs → s.dev.rnd.cfg = some c → c.fragShard x.slot (hShard x.hdr) = some (i, sh, p) →
    d = { s.here with wxu.drains := xs }.freeCells x.hdr →
    base = (if hKind x.hdr = tkLOAN then c.loanAddr (d.roundSize c) i else c.inAddr (d.roundSize c) i p (hAcc x.hdr % 4)) → ∀ d1,
    (d.deposit (wxuAcc 2 d.roundDom) (base + hFragIx x.hdr * 2 ^ hFrag x.hdr) x.text = (d1, none) →
      exec (.fragmentDrained 0) s = .next (s.onDev fun _ => (((d1.countDrain x.text.length).release x.slot (hDseq x.hdr)).fragTake c x i p sh).kick)) ∧
    (∀ e, d.deposit (wxuAcc 2 d.roundDom) (base + hFragIx x.hdr * 2 ^ hFrag x.hdr) x.text = (d1, some e) →
      exec (.fragmentDrained 0) s = .next (s.onDev fun _ => (d1.bump WXU.MALFORMED.COUNT 1).release x.slot (hDseq x.hdr))))) ∧
  ((∀ s q rq slot k port hdr text x pr d, q ≠ 2 → (s.dev.cqueue q).find? (fun r => match r with | .sealFrame a _ _ _ _ _ => s.dev.canSeal a | .openFrame .. | .core .. => false) = some (.sealFrame slot k port hdr text x) →
    s.dev.freePair none = some pr → d = s.here.setCqueue q ((s.dev.cqueue q).eraseP (fun y => match y with
      | .sealFrame a _ b h t _ => a == slot && b == port && h == hdr && t == text | _ => false)) →
    ∀ p, d.pslot slot = some p → p.txSeq + 1 < 0xF0000000 → ∀ d1 y, d.useKey (s.dev.get (WXU.SLOT_KEY.KEY_SLOT slot)) = (d1, .ok (.session y)) → d1.pslot slot = some p →
    ∀ h c, sealFrame y (p.txSeq + 1) hdr text = (h, c) → exec (.cipherSealRequest ⟨q, rq⟩) s = .next (s.onDev fun _ =>
      (d1.onPslot slot (fun z => { z with txSeq := p.txSeq + 1 })).pairTake pr (.sealFrame slot (s.dev.get (WXU.SLOT_KEY.KEY_SLOT slot)) port h c false))) ∧
  (∀ s q rq, q ≠ 2 → s.dev.cqueue q = [] ∨ s.dev.freePair none = none → exec (.cipherSealRequest ⟨q, rq⟩) s = .next (s.onDev id)) ∧
  (∀ s pr slot k port hdr text x d, s.dev.cpair pr = some (.sealFrame slot k port hdr text x) → pr ∉ s.dev.sec.upset → d = (s.here.setCpair pr none).countBlocks true (ceilDiv (text.length - 16) 16) →
    (d.slotOpen slot = false → exec (.cipherSealComplete pr) s = .next (s.onDev fun _ => d.keyRelease)) ∧
    (d.slotOpen slot = true → d.farUp port = true → hIsData hdr = false →
      exec (.cipherSealComplete pr) s = .next (s.onDev fun _ => (d.farSend slot port (d.get WXU.DSCP.CTRL) (hdr ++ text)).keyRelease)) ∧
    (d.slotOpen slot = true → d.farUp port = true → hIsData hdr = true → exec (.cipherSealComplete pr) s =
      .next (s.onDev fun _ => ((d.farSend slot port (d.get WXU.DSCP.DATA) (hdr ++ text)).onPslot slot (fun q => { q with lastUse := d.now })).keyRelease)) ∧
    (d.slotOpen slot = true → d.farUp port = false → d.farNext none = none → exec (.cipherSealComplete pr) s = .next (s.onDev fun _ => d.keyRelease)) ∧
    (∀ q, d.slotOpen slot = true → d.farUp port = false → d.farNext none = some q → hIsData hdr = false →
      exec (.cipherSealComplete pr) s = .next (s.onDev fun _ => (d.farSend slot q (d.get WXU.DSCP.CTRL) (hdr ++ text)).keyRelease))) ∧
  (∀ s pr slot k port hdr text d p2, s.dev.cpair pr = some (.sealFrame slot k port hdr text false) → pr ∈ s.dev.sec.upset → d = (s.here.setCpair pr none).bump SEC.CIPHER_FAULTS.COUNT 1 →
    ∀ d1, d1 = { d with sec.upset := d.sec.upset.filter (· != pr) }.fault (uPair pr) 0x0608 0 → d1.freePair (some pr) = some p2 →
    exec (.cipherSealComplete pr) s = .next (s.onDev fun _ => (d1.pairTake p2 (.sealFrame slot k port hdr text true)).keyRelease))) ∧
  ((∀ s r i op d1, (i, op) ∈ [(Instr.cipherSealRequest ⟨2, r⟩, 1), (.cipherOpenRequest ⟨2, r⟩, 2)] →
    (r = [] ∧ d1 = s.here) ∨ (r ≠ [] ∧ (coreReqOk r = false ∨ le r 0 1 ≠ op) ∧ d1 = s.here.coreEnd r 0x0612) ∨
      (r ≠ [] ∧ coreReqOk r = true ∧ le r 0 1 = op ∧ ((256 ≤ (s.dev.cqueue 2).length ∧ d1 = s.here) ∨
        ((s.dev.cqueue 2).length < 256 ∧ d1 = s.here.setCqueue 2 (s.dev.cqueue 2 ++ [.core r false])))) →
    (d1.cqueue 2 = [] ∨ d1.freePair none = none → exec i s = .next (s.onDev fun _ => d1)) ∧
    (∀ x b rest pr, d1.cqueue 2 = .core x b :: rest → d1.freePair none = some pr →
      (le x 0 1 = op → exec i s = .next (s.onDev fun _ => (d1.setCqueue 2 rest).pairTake pr (.core x b))) ∧
      (le x 0 1 ≠ op → exec i s = .next (s.onDev fun _ => d1)))) ∧
  (∀ s pr r b d1 st, s.dev.cpair pr = some (.core r b) → pr ∉ s.dev.sec.upset → (s.here.setCpair pr none).coreRun r = (d1, st) →
    (le r 0 1 = 1 → exec (.cipherSealComplete pr) s = .next (s.onDev fun _ => (d1.coreEnd r st).keyRelease)) ∧
    (le r 0 1 = 2 → exec (.cipherOpenComplete pr) s = .next (s.onDev fun _ => ((d1.coreEnd r st).keyRelease).kick))) ∧
  (∀ (d d1 d2 d3 : Dev) r key aad text, d.coreKey r = (d1, .ok key) → d1.coreRead (le r 16 8) (le r 24 4) = (d2, .ok aad) → d2.coreRead (le r 32 8) (le r 28 4) = (d3, .ok text) →
    (le r 0 1 = 1 → ∀ c d4, c = gcmCrypt key (slice r 4 12) text → d4 = (d3.countBlocks true (ceilDiv text.length 16)).store (le r 40 8) c →
      d.coreRun r = (d4.store (le r 48 8) (gcmTag key (slice r 4 12) aad c), 0)) ∧
    (le r 0 1 ≠ 1 → ∀ d4 tag, (d3.countBlocks false (ceilDiv text.length 16)).coreRead (le r 48 8) 16 = (d4, .ok tag) →
      d.coreRun r = (if gcmTag key (slice r 4 12) aad text = tag then (d4.store (le r 40 8) (gcmCrypt key (slice r 4 12) text), 0)
        else (d4.bump SEC.TAG_FAILS.COUNT 1, 0x0607)))))

/-! ## The exchange's timers, windows and pacing -/

/-- The timers of a slot (R464, R478, R483, R484, R490 to R495, R531): each ends at its own time and sends what its rule says; with no far port up
what is due stays due. A WANT of 0 when the backlog has gone is the model's (log 95). At the end of its quarantine a slot's registers return to their
reset values, all but its generation. Windows, the active set, overcommit, pacing and the send of a fragment in its slot's turn and at its pace (R494,
R496 to R501; the unit of a turn's quantum is the model's, log 95). -/
def Obligations.ExchangeTimers : Prop :=
  ((∀ s slot p, s.dev.pslot slot = some p → s.dev.slotState slot = wsQUARANTINE → exec (.quarantineExpiry slot) s =
    .next ((s.until (p.lastUse + s.dev.get WXU.QUARANTINE.MILLISECONDS * 1000000)).onDev fun d =>
      ((((((d.clearReg (WXU.SLOT_STATE.REG slot).off).clearReg (WXU.SLOT_PEER.REG slot).off).clearReg (WXU.SLOT_PEER_WINDOW.REG slot).off).clearReg (WXU.SLOT_RTT.REG slot).off).clearReg
        (WXU.SLOT_OUTSTANDING.REG slot).off).clearReg (WXU.SLOT_KEY.REG slot).off).set (WXU.SLOT_STATE.GEN slot) (d.slotGen slot))) ∧
  ∀ s slot p, s.dev.pslot slot = some p → s.dev.slotOpen slot = true →
    (p.ackCount ≠ 0 → s.dev.farDown = false → exec (.txpAckTimer slot) s = .next ((s.until (p.ackSince + 100000)).onDev fun d => (d.onPslot slot (fun p => { p with ackCount := 0, marks := 0 })).txpCtl slot tkACK
      (beBytes 4 p.relCum ++ beBytes 8 ((List.range 64).foldl (fun a k => if p.relAbove.contains ((p.relCum + 1 + k) % 2 ^ 32) then a + 2 ^ k else a) 0)
        ++ beBytes 2 (min p.marks 65535) ++ [0, 0]))) ∧
    (p.ackCount = 0 → exec (.txpAckTimer slot) s = .next s) ∧
    (∀ t, ((p.gaps s.dev.now).map (·.2)).min? = some t → exec (.gapNackTimer slot) s = .next ((s.until t).onDev (·.gapNack slot))) ∧
    (p.gaps s.dev.now = [] → exec (.gapNackTimer slot) s = .next s) ∧
    (s.dev.farDown = false → exec (.creditTimer slot) s = .next ((s.until (p.creditAt + min 100000000 (max 1000000 (10 * p.srtt)))).onDev fun d =>
      (d.onPslot slot (fun p => { p with creditSeq := p.creditSeq + 1, creditAt := d.now, limitSent := d.accLimit })).txpCtl slot tkCREDIT
        (beBytes 4 (p.creditSeq + 1) ++ beBytes 4 (d.get (WXU.SLOT_WINDOW.BYTES slot)) ++ beBytes 4 d.accLimit ++ zeros 4))) ∧
    (s.dev.farDown = true → exec (.creditTimer slot) s = .next ((s.until (p.creditAt + min 100000000 (max 1000000 (10 * p.srtt)))).onDev id) ∧
      (p.ackCount ≠ 0 → exec (.txpAckTimer slot) s = .next ((s.until (p.ackSince + 100000)).onDev id))) ∧
    (∀ w, p.wantAt = some w →
      (s.dev.backlogOf p = 0 → exec (.wantTimer slot) s = .next ((s.until (w + 100000000)).onDev fun d =>
        (d.onPslot slot (fun p => { p with wantAt := none })).txpCtl slot tkWANT (beBytes 8 0 ++ beBytes 4 p.oldest ++ zeros 4))) ∧
      (s.dev.backlogOf p ≠ 0 → exec (.wantTimer slot) s = .next ((s.until (w + 100000000)).onDev fun d =>
        (d.onPslot slot (fun p => { p with wantAt := some d.now })).txpCtl slot tkWANT (beBytes 8 (d.backlogOf p) ++ beBytes 4 p.oldest ++ zeros 4)))) ∧
    (p.wantAt = none → exec (.wantTimer slot) s = .next s) ∧
    exec (.probeIdle slot) s = .next ((s.until (p.sentAt + 100000000)).onDev fun d => d.txpCtl slot tkPROBE (beBytes 8 d.now)) ∧
    (p.silent = false → exec (.partnerSilent slot) s = .next ((s.until (p.heardAt + 8 * s.dev.get WXU.RTO_MAX.MILLISECONDS * 1000000)).onDev fun d =>
      (d.onPslot slot (fun p => { p with silent := true })).event 0x0517 slot)) ∧
    (p.silent = true → exec (.partnerSilent slot) s = .next s) ∧
    (∀ dseq k, p.kept.find? (fun k => k.dseq == dseq) = some k →
      (k.again = false → k.due = none → exec (.txpRetxTimer slot dseq) s =
        .next ((s.until (k.sentAt + min (s.dev.get WXU.RTO_MAX.MILLISECONDS * 1000000) (max (p.srtt + 4 * p.rttvar) (s.dev.get WXU.RTO_MIN.MICROSECONDS * 1000) * 2 ^ k.tries))).onDev fun d =>
          d.againFrag slot k (fun x => { x with again := true, tries := x.tries + 1 }))) ∧
      (∀ t, k.due = some t → exec (.fullNackDelay slot dseq) s = .next ((s.until t).onDev fun d => d.againFrag slot k (fun x => { x with again := true, due := none })) ∧
        exec (.txpRetxTimer slot dseq) s = .next s) ∧
      (k.due = none → exec (.fullNackDelay slot dseq) s = .next s)) ∧
    (∀ k x, s.dev.session slot = some (k, x) →
      (x.prev.isSome → exec (.previousKeyErase slot) s = .next ((s.until (x.movedAt + s.dev.get WXU.QUARANTINE.MILLISECONDS * 1000000)).onDev fun d =>
        (d.setSession k { x with prev := none }).tryRekey slot)) ∧
      (x.prev = none → exec (.previousKeyErase slot) s = .next s)) ∧
    exec (.quarantineExpiry slot) s = .next s) ∧
  ((∀ s slot (v : Reg), 4096 ≤ slot ∨ bits v.toNat 27 0 % 1024 ≠ 0 ∨ bits v.toNat 27 0 = s.dev.get (WXU.SLOT_WINDOW.BYTES slot) → exec (.slotWindowWrite slot v) s = .next (s.onDev id)) ∧
  (∀ s slot (v : Reg) w, slot < 4096 → w = bits v.toNat 27 0 → w % 1024 = 0 → w ≠ s.dev.get (WXU.SLOT_WINDOW.BYTES slot) →
    (131072 < s.dev.windowSum - s.dev.get (WXU.SLOT_WINDOW.BYTES slot) / 1024 + w / 1024 → exec (.slotWindowWrite slot v) s = .next (s.onDev fun d =>
      (d.refuseRegister (uCore 0) (WXU.SLOT_WINDOW.REG slot).off).eventOpen 0x0516)) ∧
    (s.dev.windowSum - s.dev.get (WXU.SLOT_WINDOW.BYTES slot) / 1024 + w / 1024 ≤ 131072 → ∀ d1, d1 = s.here.set (WXU.SLOT_WINDOW.BYTES slot) w →
      exec (.slotWindowWrite slot v) s = .next (s.onDev fun _ => (d1.set WXU.GRANT_SUM.KIB d1.windowSum).sendCredit slot))) ∧
  (∀ s t, t = s.dev.wxu.rotateAt + s.dev.get WXU.ROTATE.QUANTUM_MS * 1000000 → ∀ d, d = { (s.until t).here with wxu.rotateAt := (s.until t).clock.ns } →
    (d.waiters = [] ∨ d.activeSlots.length < d.get WXU.VEST_CTL.ACTIVE_MAX → exec .rotateQuantum s = .next ((s.until t).onDev fun _ => d)) ∧
    (∀ x, d.waiters ≠ [] → d.get WXU.VEST_CTL.ACTIVE_MAX ≤ d.activeSlots.length → d.leaver = some x → exec .rotateQuantum s = .next ((s.until t).onDev fun _ =>
      ((d.onPslot x (fun p => { p with leavingAt := some d.now })).grantWindow x 0).updateActive true))) ∧
  (∀ s slot p t0, s.dev.pslot slot = some p →
    (p.leavingAt = some t0 → ∀ t, t = t0 + 2 * max (p.srtt + 4 * p.rttvar) (s.dev.get WXU.RTO_MIN.MICROSECONDS * 1000) →
      ((s.until t).here.waiters = [] → exec (.leaverTimeout slot) s = .next ((s.until t).onDev fun d => (d.leaveActive slot).updateActive true)) ∧
      (∀ x xs, (s.until t).here.waiters = x :: xs → exec (.leaverTimeout slot) s = .next ((s.until t).onDev fun d =>
        (((d.leaveActive slot).set (WXU.SLOT_STATE.ACTIVE x) 1).onPslot x (fun p => { p with activeAt := (d.leaveActive slot).now, leavingAt := none })).updateActive true))) ∧
    (p.leavingAt = none → exec (.leaverTimeout slot) s = .next s)) ∧
  (∀ s u, u = s.until ((s.clock.ns / 10000000 + 1) * 10000000) →
    (s.dev.wxu.fullDrop = false → exec .overcommitDecrease s = .next (u.onDev id)) ∧
    (s.dev.wxu.fullDrop = true → exec .overcommitDecrease s = .next (u.onDev fun d =>
      ({ d with wxu.fullDrop := false, wxu.calmSince := d.now }.set WXU.VEST_CTL.EFFECTIVE (max 1 (d.get WXU.VEST_CTL.EFFECTIVE - 1))).updateActive true))) ∧
  (∀ s u, u = s.until (s.dev.wxu.calmSince + 1000000000) →
    (s.dev.get WXU.VEST_CTL.EFFECTIVE < s.dev.get WXU.VEST_CTL.OVERCOMMIT → exec .overcommitIncrease s = .next (u.onDev fun d =>
      ({ d with wxu.calmSince := d.now }.set WXU.VEST_CTL.EFFECTIVE (d.get WXU.VEST_CTL.EFFECTIVE + 1)).updateActive true)) ∧
    (s.dev.get WXU.VEST_CTL.OVERCOMMIT ≤ s.dev.get WXU.VEST_CTL.EFFECTIVE → exec .overcommitIncrease s = .next (u.onDev fun d => { d with wxu.calmSince := d.now }))) ∧
  (∀ s slot p, s.dev.pslot slot = some p →
    (s.dev.slotOpen slot = true → exec (.pacingIncrease slot) s = .next ((s.until (p.rateAt + p.srtt)).onDev fun d => d.setPace slot (d.rateNow slot p * 105 / 100))) ∧
    (s.dev.slotOpen slot = false → exec (.pacingIncrease slot) s = .next s)) ∧
  (∀ s slot u d, u = (match s.dev.sendAt slot with | some t => s.until t | none => s) → d = u.here.drr →
    (d.sendReady slot = false ∨ d.wxu.turn ≠ slot ∨ 256 ≤ (d.cqueue 1).length → exec (.fragmentSend slot) s = .next (u.onDev fun _ => d)) ∧
    (∀ p st f old d1, d.sendReady slot = true → d.wxu.turn = slot → (d.cqueue 1).length < 256 → d.pslot slot = some p → Dev.nextFrag p = some (st, f, old) →
      d1 = d.sendFrag slot st f old →
      (∀ q, d1.pslot slot = some q → q.dseq = p.dseq → exec (.fragmentSend slot) s = .next (u.onDev fun _ => d1)) ∧
      (∀ q d2, d1.pslot slot = some q → q.dseq ≠ p.dseq → d2 = d1.paced slot (fragLen d1.fragSize st.bytes f) →
        (∀ k, old = some k → exec (.fragmentSend slot) s = .next (u.onDev fun _ => d2)) ∧
        (old = none → exec (.fragmentSend slot) s = .next (u.onDev fun _ => (d2.onPslot slot (fun p => { p with streams := p.streams.map (fun x =>
            if x.loan == st.loan && x.acc == st.acc && x.shard == st.shard then { x with todo := x.todo.drop 1 } else x) })).wantCheck slot false))))))

/-! ## The conservator -/

/-- The fault ring (R592, R593, R596, R597): a new head retires the entries it passes; a head beyond the tail is ignored. A retired fault leaves
handling after HANDLE_MIN, a unit in WATCH returns to CLEAR a day after its last fault, a review that ran at once ends in WATCH or PERMANENT, and a
port that passes comes up. Lending a tile (R602, R603, R605): a test that falls due lends the tile to a free reserve or is skipped; at the boundary
credit stays as it was granted and the copy begins; the copy moves the stage and starts the test, or the pipeline stops at a scratchpad that cannot be
read; a loan past its deferral limit is cancelled. -/
def Obligations.FaultsAndLoans : Prop :=
  ((∀ s (v : Reg) n, n = (v.toNat % 64 + 64 - s.dev.get CSV.FRING_HEAD.INDEX) % 64 →
    (s.dev.get CSV.STATE.FRING_LEVEL < n → exec (.faultRingRetire v) s = .next (s.onDev id)) ∧
    (n ≤ s.dev.get CSV.STATE.FRING_LEVEL → ∀ d, d = s.here.each (List.range n) (fun d _ => d.retireEntry) →
      exec (.faultRingRetire v) s = .next (s.onDev fun _ => { d with csv.handling := d.csv.handling.filter d.inHandling }))) ∧
  (∀ s k h, s.dev.csv.handling[k]? = some h →
    (h.retired = true → exec (.handleMinExpiry k) s = .next ((s.until (h.entered + s.dev.get CSV.HANDLE_MIN.MICROSECONDS * 1000)).onDev fun d =>
      { d with csv.handling := d.csv.handling.eraseIdx k })) ∧
    (h.retired = false → exec (.handleMinExpiry k) s = .next s)) ∧
  (∀ s u e es, s.dev.get (suspLevel u) = 1 → u ∈ allUnits → (s.dev.unitSum u).recent = e :: es →
    exec (.suspicionDecay u) s = .next ((s.until (e.1 + dayNs)).onDev (·.suspect u 0))) ∧
  (∀ s u, s.dev.get (suspLevel u) ≠ 1 → exec (.suspicionDecay u) s = .next s) ∧
  (∀ s u pass, s.dev.csv.reviews.contains u = false ∨ reviewsAtOnce u = false → exec (.reviewTestComplete u pass) s = .next (s.onDev (·.kick))) ∧
  (∀ s u pass d, s.dev.csv.reviews.contains u = true → reviewsAtOnce u = true →
    d = { s.here with csv.reviews := s.dev.csv.reviews.filter (· != u) }.suspect u (if pass then 1 else 3) →
    (u / 4096 = 4 → exec (.reviewTestComplete u pass) s = .next (s.onDev fun _ => (if pass then d.cellLink (u % 4096) true else d.rescale.pumpAll.storeOn).kick)) ∧
    (u / 4096 = 5 → exec (.reviewTestComplete u pass) s = .next (s.onDev fun _ => (if pass then d.farLink (u % 4096) true else d.updateActive true).kick)) ∧
    (u / 4096 ≠ 4 → u / 4096 ≠ 5 → exec (.reviewTestComplete u pass) s = .next (s.onDev fun _ => d.kick)))) ∧
  ((∀ s t at_, s.dev.testFree t = true → s.dev.dueAt t = some at_ → ∀ d, d = (s.until at_).here →
    (d.testFree t = true → (d.reserves (wingOf t)).contains t = true → exec (.loanDue t) s = .next ((s.until at_).onDev fun _ => (d.preempt t).startTest t)) ∧
    (d.testFree t = true → (d.reserves (wingOf t)).contains t = false →
      (∀ r, d.reserveFor (wingOf t) = some r → exec (.loanDue t) s = .next ((s.until at_).onDev fun _ => d.lend t r)) ∧
      (d.reserveFor (wingOf t) = none → exec (.loanDue t) s = .next ((s.until at_).onDev fun _ => ((d.bump CSV.TESTS_SKIPPED.COUNT 1).eventOpen 0x0707).dueLater t)))) ∧
  (∀ s t, s.dev.testFree t = false ∨ s.dev.dueAt t = none → exec (.loanDue t) s = .next s) ∧
  (∀ s w l, s.dev.curator ≠ curREHANG → s.dev.findLoan (fun l => l.phase == 1 && (s.dev.atBoundary l.tile || s.dev.seqState l.tile == tsEMPTY)) = some (w, l) →
    (s.dev.seqState l.tile = tsEMPTY → exec .loanBoundary s = .next (s.onDev fun d =>
      ((d.assign l.tile l.reserve).setLoan w (some { l with phase := 3, since := d.now })).startTest l.tile)) ∧
    (s.dev.seqState l.tile ≠ tsEMPTY → exec .loanBoundary s = .next (s.onDev fun d =>
      (d.onTile l.tile (fun x => { x with creditHeld := some ((List.range 64).map (d.regHead l.tile)) })).setLoan w (some { l with phase := 2, since := d.now })))) ∧
  (∀ s, s.dev.curator = curREHANG → exec .loanBoundary s = .next (s.onDev id)) ∧
  (∀ s, s.dev.findLoan (fun l => l.phase == 2) = none → exec .loanCopyComplete s = .next (s.onDev (·.kick))) ∧
  (∀ s w l, s.dev.findLoan (fun l => l.phase == 2) = some (w, l) →
    (∀ bad, (s.dev.tile l.tile).spmBad 0 spmBytes = some bad → exec .loanCopyComplete s = .next (s.onDev fun d => ((d.setLoan w none).moveFails l.tile bad).kick)) ∧
    ((s.dev.tile l.tile).spmBad 0 spmBytes = none → exec .loanCopyComplete s = .next (s.onDev fun d =>
      ((((d.moveState l.tile l.reserve).setLoan w (some { l with phase := 3, since := d.now })).startTest l.tile).releaseCredit l.reserve).kick))) ∧
  (∀ s w l, s.dev.oldestWait = some (w, l) → ∀ u, u = s.until (l.since + s.dev.get CSV.LOAN_CTL.DEFER_MIN * 60000000000) →
    ∃ r : FaultRec, r.unit = uTile l.tile ∧ r.status = 0x0708 ∧ exec .loanDeferralExpiry s = .next (u.onDev fun d =>
      (((((({ (d.setLoan w none).logRecords [r] with csv.recSeq := d.csv.recSeq + 1 } : Dev).bump CSV.TESTS_SKIPPED.COUNT 1).eventOpen 0x0708).dueLater l.tile).replayGo).pump l.tile))) ∧
  (∀ s, s.dev.oldestWait = none → exec .loanDeferralExpiry s = .next s))

/-- In-field tests and PERMANENT verdicts on arrays and tiles (R154, R598, R602, R604): a passed test posts 0x0701; a failed one posts 0x0709, charges its unit and retires the tile; failed arrays leave the map at a boundary; a PERMANENT
tile's stage moves to a reserve or 0x0707 is posted. -/
def Obligations.FieldTests : Prop :=
  (∀ s t sig since, s.dev.testing t = some since → (∀ x ∈ tileUnits t, x ∉ s.dev.csv.reviews) → ∃ u, ∃ d1 : Dev, u = s.until (since + 1500000000) ∧ d1.testing t = none ∧
    d1.csv.retiredTiles = s.dev.csv.retiredTiles ∧ d1.get CSV.TESTS_RUN.COUNT = min (2 ^ 32 - 1) (s.dev.get CSV.TESTS_RUN.COUNT + 1) ∧ (∀ x, x ≠ t → d1.tile x = s.dev.tile x) ∧
    (d1.tile t).prog = (s.dev.tile t).prog ∧
    (sig % 512 = 0 → exec (.fieldTestComplete t sig) s = .next (u.onDev fun _ => (d1.eventOpen 0x0701).replayGo)) ∧
    (sig % 512 ≠ 0 → ∀ e, e = (d1.eventOpen 0x0709).tileUnitFault (chargedUnit t sig) t 0x0709 3 → exec (.fieldTestComplete t sig) s = .next (u.onDev fun _ =>
      { e with csv.retiredTiles := if e.csv.retiredTiles.contains t then e.csv.retiredTiles else e.csv.retiredTiles ++ [t] }.replayGo))) ∧
  (∀ s t sig, s.dev.testing t = none → exec (.fieldTestComplete t sig) s = .next s) ∧
  (∀ s t, t < 200 →
    (s.dev.unmarked t = [] → exec (.sevenArraySwitch t) s = .next (s.onDev id)) ∧
    (∀ d1, s.dev.unmarked t ≠ [] → s.dev.seqState t = tsEMPTY → s.dev.logical t ≠ 0xFFFF →
      d1 = s.here.set (MXA.FAILED.MASK t) ((s.dev.unmarked t).foldl (fun m a => putBits m a a 1) (s.dev.get (MXA.FAILED.MASK t))) →
      (d1.applyMap t (mapAvoiding ((s.dev.unmarked t).foldl (fun m a => putBits m a a 1) (s.dev.get (MXA.FAILED.MASK t))))).logical t ≠ 0xFFFF → d1.atBoundary t = false →
      exec (.sevenArraySwitch t) s = .next (s.onDev fun _ =>
        (d1.applyMap t (mapAvoiding ((s.dev.unmarked t).foldl (fun m a => putBits m a a 1) (s.dev.get (MXA.FAILED.MASK t))))).onTile t (fun x => { x with heldMap := none }))) ∧
    (s.dev.get (suspLevel (uTile t)) ≠ 3 → exec (.tileRemap t) s = .next (s.onDev (·.kick))) ∧
    (s.dev.get (suspLevel (uTile t)) = 3 → s.dev.logical t ≠ 0xFFFF → s.dev.atBoundary t = true ∨ s.dev.seqState t = tsEMPTY → s.dev.findLoan (fun l => l.phase == 1 && l.tile == t) = none →
      (∀ l, s.dev.loan (wingOf t) = some l → l.tile ≠ t) →
      (∀ r, s.dev.reserveFor (wingOf t) = some r → exec (.tileRemap t) s = .next (s.onDev fun d => (d.remapTo t r).kick)) ∧
      (s.dev.reserveFor (wingOf t) = none → s.dev.stealable t = none → exec (.tileRemap t) s = .next (s.onDev fun d => (d.eventOpen 0x0707).kick))))

/-- The retrieval and control commands (R606, R609, R612, R615): LOAN_POLICY, MARGIN_SWEEP, TELEMETRY_CFG, FAULT_HISTORY_READ and DUMP_READ; what each answers and with bad operands 0x0107. The margins a sweep finds are free values (log 2). -/
def Obligations.ConservatorCommands : Prop :=
  ∀ s o ops,
    (AtHead s o 0x0901 ops → opnd ops 16 1 = 0 → opndZero ops 17 1 = true → opndZero ops 24 40 = true → 1 ≤ opnd ops 22 2 → opnd ops 22 2 ≤ 10080 → exec (.loanPolicy o ops) s = .next (s.onDev fun d =>
      ((d.set CSV.LOAN_CTL.INTERVAL_H (opnd ops 20 2)).set CSV.LOAN_CTL.DEFER_MIN (opnd ops 22 2)).finish o 0x0901 (okR (d.get CSV.LOAN_CTL.REG)))) ∧
    (AtHead s o 0x0901 ops → 2 < opnd ops 16 1 ∨ (opnd ops 16 1 ≠ 0 ∧ 200 ≤ opnd ops 18 2) → exec (.loanPolicy o ops) s = .next (s.onDev fun d => d.finish o 0x0901 (errR 0x0107))) ∧
    (AtHead s o 0x0901 ops → opnd ops 16 1 = 1 → opndZero ops 17 1 = true → opndZero ops 24 40 = true → opnd ops 18 2 < 200 →
      (s.here.testFree (opnd ops 18 2) = true → exec (.loanPolicy o ops) s = .next (s.onDev fun d => (d.testDue (opnd ops 18 2)).finish o 0x0901 (okR 0))) ∧
      (s.here.testFree (opnd ops 18 2) = false → exec (.loanPolicy o ops) s = .next (s.onDev fun d => d.finish o 0x0901 (errR 0x070E)))) ∧
    (AtHead s o 0x0902 ops → ∀ t deep temp, t = opnd ops 16 2 → deep = opnd ops 20 1 → temp = opnd ops 21 1 →
      (200 ≤ t ∨ 512 ≤ opnd ops 18 2 ∨ deep < 5 ∨ 100 < deep ∨ (temp ≠ 0 ∧ (temp < 40 ∨ 100 < temp)) → exec (.marginSweep o ops) s = .next (s.onDev fun d => d.finish o 0x0902 (errR 0x0107))) ∧
      (t < 200 → opnd ops 18 2 < 512 → 5 ≤ deep → deep ≤ 100 → temp = 0 ∨ (40 ≤ temp ∧ temp ≤ 100) →
        ((s.here.reserves (wingOf t)).contains t = false ∨ s.here.isFree t = false → exec (.marginSweep o ops) s = .next (s.onDev fun d => d.finish o 0x0902 (errR 0x070E))) ∧
        ((s.here.reserves (wingOf t)).contains t = true → s.here.isFree t = true → ∃ d1 : Dev, ∃ vs : List Nat, vs.length = (maskBits (opnd ops 18 2) 9).length ∧
          (∀ v ∈ vs, v = 0xFF ∨ (v % 5 = 0 ∧ v ≤ deep)) ∧ exec (.marginSweep o ops) s = .next (s.onDev fun _ => d1.hold (okU (vs.map (fun v => BitVec.ofNat 8 v))) .ready [])))) ∧
    (AtHead s o 0x0904 ops → opnd ops 24 1 ≤ 1 → 6 ≤ opnd ops 25 1 → opnd ops 25 1 ≤ 20 → 1 ≤ opnd ops 26 2 → opnd ops 26 2 ≤ 1000 → opnd ops 28 1 ≤ 1 →
      exec (.telemetryCfg o ops) s = .next (s.onDev fun d => { d with
        csv.telem := ⟨opnd ops 16 8, opnd ops 24 1 == 1, opnd ops 25 1, opnd ops 26 2, opnd ops 28 1 == 1, 0, 0⟩ }.finish o 0x0904 (okU []))) ∧
    (AtHead s o 0x0903 ops →
      (opnd ops 16 1 = 0 → ∀ rs, rs = (s.dev.csv.history.filter (fun r => decide (opnd ops 20 8 ≤ r.id))).take (opnd ops 28 4) →
        exec (.faultHistoryRead o ops) s = .next (s.onDev fun d => (d.hostPut (opnd ops 32 8) (rs.flatMap d.recordOf) false).finish o 0x0903 (okR rs.length))) ∧
      (opnd ops 16 1 = 1 → opnd ops 18 2 = 0xFFFF → exec (.faultHistoryRead o ops) s = .next (s.onDev fun d =>
        (d.hostPut (opnd ops 32 8) ((allUnits.take (opnd ops 28 4)).flatMap d.summaryEntry) false).finish o 0x0903 (okR (allUnits.take (opnd ops 28 4)).length))) ∧
      (opnd ops 16 1 = 2 → opnd ops 18 2 ∈ allUnits → s.dev.get (suspLevel (opnd ops 18 2)) < 2 →
        exec (.faultHistoryRead o ops) s = .next (s.onDev fun d => d.finish o 0x0903 (okR (d.get (suspLevel (opnd ops 18 2)))))) ∧
      (opnd ops 16 1 = 2 → opnd ops 18 2 ∈ allUnits → s.dev.get (suspLevel (opnd ops 18 2)) = 2 →
        exec (.faultHistoryRead o ops) s = .next (s.onDev fun d => ({ d with csv.reviews := d.csv.reviews.filter (· != opnd ops 18 2) }.suspect (opnd ops 18 2) 0).finish o 0x0903 (okR 2))) ∧
      (opnd ops 16 1 = 2 → opnd ops 18 2 ∈ allUnits → s.dev.get (suspLevel (opnd ops 18 2)) = 3 → opnd ops 18 2 ∉ s.dev.csv.acquitted →
        exec (.faultHistoryRead o ops) s = .next (s.onDev fun d => ({ d with csv.reviews := d.csv.reviews.filter (· != opnd ops 18 2), csv.acquitted := d.csv.acquitted ++ [opnd ops 18 2] }.suspect (opnd ops 18 2) 0).finish o 0x0903 (okR 3))) ∧
      (opnd ops 16 1 = 3 → ∀ fs, fs = s.dev.csv.fatals.take (opnd ops 28 4) → exec (.faultHistoryRead o ops) s = .next (s.onDev fun d =>
        (d.hostPut (opnd ops 32 8) (fs.flatMap (fun b => slice b 0 4096)) false).finish o 0x0903 (okR fs.length))) ∧
      (3 < opnd ops 16 1 → exec (.faultHistoryRead o ops) s = .next (s.onDev fun d => d.finish o 0x0903 (errR 0x0107)))) ∧
    (AtHead s o 0x0905 ops →
      (opnd ops 16 1 = 0 → opnd ops 28 4 ≤ 0x4000000 → s.dev.flag CSV.DUMP_STATE.VALID = false ∨ 2 ^ 28 < opnd ops 20 8 + opnd ops 28 4 →
        exec (.dumpRead o ops) s = .next (s.onDev fun d => d.finish o 0x0905 (errR 0x070D))) ∧
      (opnd ops 16 1 = 0 → opnd ops 28 4 ≤ 0x4000000 → s.dev.flag CSV.DUMP_STATE.VALID = true → opnd ops 20 8 + opnd ops 28 4 ≤ 2 ^ 28 → ∀ d1, s.here.readSegs [(archiveBase + opnd ops 20 8, opnd ops 28 4)] = (d1, none) →
        exec (.dumpRead o ops) s = .next (s.onDev fun _ => ({ d1 with host := memCopy d1.hbm.mem (archiveBase + opnd ops 20 8) d1.host (opnd ops 32 8) (opnd ops 28 4) }.emit
          (.hostWrite [(opnd ops 32 8, opnd ops 28 4)] false false)).finish o 0x0905 (okR (opnd ops 28 4)))) ∧
      (opnd ops 16 1 = 1 → exec (.dumpRead o ops) s = .next (s.onDev fun d => (d.set CSV.DUMP_STATE.VALID 0).finish o 0x0905 (okR 0))) ∧
      (1 < opnd ops 16 1 → exec (.dumpRead o ops) s = .next (s.onDev fun d => d.finish o 0x0905 (errR 0x0107))))

/-- Shadow replay and background work (R607, R608, R610 to R612): the selection of a tile and array (the rotation is the model's, log 98), the comparison with the reserves' results, the scrub step, a lane's retraining, a telemetry sample and the write of the
summaries into flash (the wear it leaves is free, log 2). -/
def Obligations.BackgroundWork : Prop :=
  (∀ s u t a, u = s.until (s.dev.csv.replayAt + s.dev.get CSV.REPLAY_INTERVAL.MILLISECONDS * 1000000) → t = s.dev.csv.replayNext % 200 → a = u.clock.ns % 8 →
    (s.dev.csv.replay = none ∨ (∃ r, s.dev.csv.replay = some r ∧ (r.stage = 0 ∨ (r.stage = 1 ∧ ((s.dev.tile r.tile).arr r.array).cur = []))) → exec (.replaySelect t a) s = .next (u.onDev fun d =>
      { d with csv.replayAt := d.now, csv.replayNext := (t + 1) % 200, csv.replay := some ⟨t, a, 0, 0, 0, d.now, 0, []⟩ })) ∧
    (∀ r, s.dev.csv.replay = some r → r.stage ≠ 0 → r.stage ≠ 1 ∨ ((s.dev.tile r.tile).arr r.array).cur ≠ [] →
      exec (.replaySelect t a) s = .next (u.onDev fun d => { d with csv.replayAt := d.now, csv.replayNext := (t + 1) % 200 })) ∧
    (∀ x y, (x, y) ≠ (t, a) → exec (.replaySelect x y) s = .next (u.onDev id))) ∧
  (∀ s m r, s.dev.csv.replay = some r →
    (r.stage = 2 → m = .sample → exec (.replayCompare m) s = .next (s.onDev fun d => { d.bump CSV.REPLAY_SAMPLES.COUNT 1 with csv.replay := none })) ∧
    (r.stage = 2 → m ≠ .sample → exec (.replayCompare m) s = .next (s.onDev fun d => { ((d.bump CSV.REPLAY_SAMPLES.COUNT 1).bump CSV.REPLAY_MISMATCH.COUNT 1) with
      csv.replay := some { r with stage := 3, since := d.now } }.replayGo)) ∧
    (r.stage = 4 → exec (.replayCompare m) s = .next (s.onDev fun d => d.chargeReplay r (m != .sample) (m != .first))) ∧
    (r.stage ≠ 2 → r.stage ≠ 4 → exec (.replayCompare m) s = .next (s.onDev (·.replayGo))) ∧
    (r.stage = 3 → ∀ u d, u = s.until (r.since + 10000000000) → d = u.here.chargeReplay r true false → exec .secondReplayTimeout s = .next (u.onDev fun _ =>
      (if r.first ∈ d.csv.dueNow then d else { d with csv.dueNow := d.csv.dueNow ++ [r.first] }).testDue r.first)) ∧
    (r.stage ≠ 3 → exec .secondReplayTimeout s = .next s)) ∧
  (∀ s m, s.dev.csv.replay = none → exec (.replayCompare m) s = .next (s.onDev id) ∧ exec .secondReplayTimeout s = .next s) ∧
  (∀ s t p, t < 200 → p = smapGet zeroDflt s.dev.csv.spmPos t → p < 65536 → exec (.spmScrub t) s = .next (s.onDev fun d => { d.spmTouch t (128 * p) 128 with
    csv.spmPos := smapSet zeroDflt (d.spmTouch t (128 * p) 128).csv.spmPos t ((p + 1) % 67584) })) ∧
  (∀ s p, p < 16 → (s.dev.flag (CFI.PORT_STATE.UP p) = true → exec (.laneRetrain p) s = .next (s.onDev fun d => ((d.cellLink p false).cellLink p true).kick)) ∧
    (s.dev.flag (CFI.PORT_STATE.UP p) = false → exec (.laneRetrain p) s = .next (s.onDev id))) ∧
  (∀ s q, q < 4 → (s.dev.flag (WXU.FAR_STATE.UP q) = true → exec (.laneRetrain (16 + q)) s = .next (s.onDev fun d => ((d.farLink q false).farLink q true).kick)) ∧
    (s.dev.flag (WXU.FAR_STATE.UP q) = false → exec (.laneRetrain (16 + q)) s = .next (s.onDev id))) ∧
  (∀ s m c (a b f : Nat), c = s.dev.csv.telem → s.dev.errorTotals = (a, b, f) →
    (c.en = true → c.count % c.decim = 0 → c.device = false → ∀ bs, bs = s.here.sampleBytes (c.count / c.decim) m → exec (.telemetrySample m) s = .next (s.onDev fun d =>
      (({ d with csv.lastSample := bs, csv.telemBase := ((a : Int), (b : Int), (f : Int)), csv.telem := { c with count := c.count + 1 } } : Dev).hostPut
        (c.addr + 128 * (c.count / c.decim % 2 ^ c.log2)) bs false).set CSV.TELEM_SEQ.SEQ (c.count / c.decim))) ∧
    (c.en = true → c.count % c.decim = 0 → c.device = true → ∀ bs, bs = s.here.sampleBytes (c.count / c.decim) m → exec (.telemetrySample m) s = .next (s.onDev fun d =>
      (({ d with csv.lastSample := bs, csv.telemBase := ((a : Int), (b : Int), (f : Int)), csv.telem := { c with count := c.count + 1 } } : Dev).plainWrite
        (c.addr + 128 * (c.count / c.decim % 2 ^ c.log2)) bs).set CSV.TELEM_SEQ.SEQ (c.count / c.decim))) ∧
    (c.en = false → exec (.telemetrySample m) s = .next (s.onDev fun d => { d with
      csv.lastSample := s.here.sampleBytes (s.dev.get CSV.TELEM_SEQ.SEQ) m, csv.telemBase := ((a : Int), (b : Int), (f : Int)) }))) ∧
  (∀ s, Calm s → s.dev.csv.dirtyPerm = true → ∃ t, exec .flashSummaryWrite s = .next t ∧ t.dev.csv.dirty = false ∧ t.dev.csv.dirtyPerm = false ∧
    t.dev.csv.flashSums = s.dev.csv.sums.map (fun (e : Nat × UnitSum) => (e.1, (s.dev.get (suspLevel e.1), e.2))) ∧ t.dev.get CSV.FLASH_WEAR.PERCENT < 90) ∧
  (∀ s, s.dev.csv.dirtyPerm = false → s.dev.csv.dirty = false → exec .flashSummaryWrite s = .next s)

/-! ## Debug -/

/-- Debug commands (R617 to R621): a challenge, a response whose token goes to the public-key engine, a relock; halts that wait for their cores, are granted or forced, and end; cores resume with full watchdog periods; a read of
registers without side effect. A level too low answers 0x0901. -/
def Obligations.DebugCommands : Prop :=
  (∀ s o ops, AtHead s o 0x0A01 ops →
    (opnd ops 16 1 = 0 → s.dev.entropyOk = true → ∃ n : Bytes, n.length = 32 ∧ exec (.debugUnlock o ops) s = .next (s.onDev fun d =>
      { d with draws := (d.drawBytes 32).2.draws, csv.challenge := some n }.finish o 0x0A01 (okU n))) ∧
    (opnd ops 16 1 = 0 → s.dev.entropyOk = false → exec (.debugUnlock o ops) s = .next (s.onDev fun d => d.finish o 0x0A01 (errR 0x0613))) ∧
    (opnd ops 16 1 = 1 → s.dev.csv.challenge = none → exec (.debugUnlock o ops) s = .next (s.onDev fun d => d.finish o 0x0A01 (errR 0x0902))) ∧
    (opnd ops 16 1 = 1 → ∀ n d1 t, s.dev.csv.challenge = some n → s.here.fetch (hifAcc 1 (s.here.attestDom o)) (opnd ops 24 8) 256 = (d1, .ok t) →
      exec (.debugUnlock o ops) s = .next (s.onDev fun _ => ({ d1 with csv.challenge := none }.pkAdd
        ⟨.verify, [], slice t 48 97, sha384 (slice t 0 160), slice t 160 96, .unlock o ops (tokenLevel n t)⟩).toUnit [(opnd ops 24 8, 256)])) ∧
    (opnd ops 16 1 = 2 → exec (.debugUnlock o ops) s = .next (s.onDev fun d => (d.set CSV.DBG_STATE.LEVEL 0).finish o 0x0A01 (okU [])))) ∧
  (∀ s o ops, s.dev.dbgLevel < 1 →
    (AtHead s o 0x0A02 ops → exec (.coreHalt o ops) s = .next (s.onDev fun d => d.finish o 0x0A02 (errR 0x0901))) ∧
    (AtHead s o 0x0A03 ops → exec (.coreResume o ops) s = .next (s.onDev fun d => d.finish o 0x0A03 (errR 0x0901))) ∧
    (AtHead s o 0x0A04 ops → exec (.regRead o ops) s = .next (s.onDev fun d => d.finish o 0x0A04 (errR 0x0901)))) ∧
  (∀ s o ops mask, mask = opnd ops 16 1 → mask < 16 → 2 ≤ s.dev.dbgLevel →
    (AtHead s o 0x0A02 ops → (∀ c ∈ maskBits mask 4, (s.dev.get CSV.DBG_STATE.HALTED).testBit c = true) → exec (.coreHalt o ops) s = .next (s.onDev fun d => d.finish o 0x0A02 (okU []))) ∧
    (AtHead s o 0x0A02 ops → ∀ c, c < 4 → mask = 2 ^ c → (s.dev.get CSV.DBG_STATE.HALTED).testBit c = false → s.dev.haltAsked c = none → exec (.coreHalt o ops) s = .next (s.onDev fun d =>
      ({ d with csv.haltReq := smapSet reqDflt d.csv.haltReq c (some d.now) }.maskOn CSV.DBG_STATE.PENDING (2 ^ c)).toUnit [])) ∧
    (AtHead s o 0x0A03 ops → s.dev.get CSV.DBG_STATE.HALTED &&& mask ≠ mask → exec (.coreResume o ops) s = .next (s.onDev fun d => d.finish o 0x0A03 (errR 0x0904))) ∧
    (AtHead s o 0x0A03 ops → s.dev.get CSV.DBG_STATE.HALTED &&& mask = mask → ∃ d1 : Dev, exec (.coreResume o ops) s = .next (s.onDev fun _ => d1.finish o 0x0A03 (okU [])) ∧
      d1.get CSV.DBG_STATE.HALTED = s.dev.get CSV.DBG_STATE.HALTED - mask ∧ (∀ c < 4, smapGet zeroDflt d1.cmd.petAt c = s.clock.ns) ∧ d1.tiles = s.dev.tiles ∧ d1.hbm = s.dev.hbm)) ∧
  (∀ s o ops n, AtHead s o 0x0A04 ops → 1 ≤ s.dev.dbgLevel → n = opnd ops 20 1 →
    (n < 1 ∨ 8 < n ∨ opnd ops 16 4 % 4 ≠ 0 ∨ 2 ^ 26 < opnd ops 16 4 + 4 * n → exec (.regRead o ops) s = .next (s.onDev fun d => d.finish o 0x0A04 (errR 0x0107))) ∧
    (1 ≤ n → n ≤ 8 → opnd ops 16 4 % 4 = 0 → opnd ops 16 4 + 4 * n ≤ 2 ^ 26 → ∃ d1 : Dev, ∃ bs : Bytes, bs.length = 4 * n ∧ d1.regs = s.dev.regs ∧ d1.cmd = s.dev.cmd ∧
      exec (.regRead o ops) s = .next (s.onDev fun _ => d1.finish o 0x0A04 (okI (le bs 0 4) bs)))) ∧
  (∀ s c t, s.dev.haltAsked c = some t → exec (.coreHaltGrant c) s = .next (s.onDev (·.coreStops c)) ∧ ∃ u, u = s.until (t + 56174) ∧ exec (.haltForced c) s = .next (u.onDev (·.forceHalt c))) ∧
  (∀ s c, s.dev.haltAsked c = none → exec (.coreHaltGrant c) s = .next (s.onDev id) ∧ exec (.haltForced c) s = .next s)
end

