-- ==== Sys2Proof/Laws/Exec.lean ====
section
/-! SUPPORT. The command of each row runs its own meaning: one equation per arm of the dispatch, so that no proof unfolds
the dispatch as a whole. -/

namespace Sys2Proof.Machine

variable (s : State)

@[simp] theorem exec_coldReset : exec .coldReset s = execColdReset s := rfl
@[simp] theorem exec_perstAssert : exec .perstAssert s = execPerstAssert s := rfl
@[simp] theorem exec_perstDeassert : exec .perstDeassert s = execPerstDeassert s := rfl
@[simp] theorem exec_resetCtlWarm : exec .resetCtlWarm s = execResetCtlWarm s := rfl
@[simp] theorem exec_flrFunction0 (late : Bool) : exec (.flrFunction0 late) s = execFlrFunction0 late s := rfl
@[simp] theorem exec_flrFunction1 : exec .flrFunction1 s = execFlrFunction1 s := rfl
@[simp] theorem exec_pllLock : exec .pllLock s = execPllLock s := rfl
@[simp] theorem exec_refclkLost : exec .refclkLost s = execRefclkLost s := rfl
@[simp] theorem exec_bootRomStart (trained : Nat) : exec (.bootRomStart trained) s = execBootRomStart trained s := rfl
@[simp] theorem exec_configRequest (fn : Nat) (rq : ConfigReq) : exec (.configRequest fn rq) s = execConfigRequest fn rq s := rfl
@[simp] theorem exec_bar2Read (x : Nat) (n : Nat) : exec (.bar2Read x n) s = execBar2Read x n s := rfl
@[simp] theorem exec_bar2Write (x : Nat) (bs : Bytes) : exec (.bar2Write x bs) s = execBar2Write x bs s := rfl
@[simp] theorem exec_msixTableWrite (fn : Nat) (off : Nat) (v : Reg) : exec (.msixTableWrite fn off v) s = execMsixTableWrite fn off v s := rfl
@[simp] theorem exec_registerWrite (who : Agent) (off : Nat) (v : Reg) : exec (.registerWrite who off v) s = execRegisterWrite who off v s := rfl
@[simp] theorem exec_readClearRegister (off : Nat) : exec (.readClearRegister off) s = execReadClearRegister off s := rfl
@[simp] theorem exec_timeLoRead : exec .timeLoRead s = execTimeLoRead s := rfl
@[simp] theorem exec_capPopRead (i : Nat) : exec (.capPopRead i) s = execCapPopRead i s := rfl
@[simp] theorem exec_mboxRegisterWrite (off : Nat) (v : Reg) : exec (.mboxRegisterWrite off v) s = execMboxRegisterWrite off v s := rfl
@[simp] theorem exec_mboxDoorbell (v : Reg) : exec (.mboxDoorbell v) s = execMboxDoorbell v s := rfl
@[simp] theorem exec_mboxHeldServe : exec .mboxHeldServe s = execMboxHeldServe s := rfl
@[simp] theorem exec_ringTailDoorbell (r : Nat) (v : Reg) : exec (.ringTailDoorbell r v) s = execRingTailDoorbell r v s := rfl
@[simp] theorem exec_ringHeadWrite (r : Nat) (v : Reg) : exec (.ringHeadWrite r v) s = execRingHeadWrite r v s := rfl
@[simp] theorem exec_ringErrorClear (r : Nat) : exec (.ringErrorClear r) s = execRingErrorClear r s := rfl
@[simp] theorem exec_packetDispatch (r : Nat) : exec (.packetDispatch r) s = execPacketDispatch r s := rfl
@[simp] theorem exec_commandCompletion (k : Nat) : exec (.commandCompletion k) s = execCommandCompletion k s := rfl
@[simp] theorem exec_eventHoldDelivery : exec .eventHoldDelivery s = execEventHoldDelivery s := rfl
@[simp] theorem exec_completionOverdue (r : Nat) : exec (.completionOverdue r) s = execCompletionOverdue r s := rfl
@[simp] theorem exec_tallyAddWrite (t : Nat) (v : Reg) : exec (.tallyAddWrite t v) s = execTallyAddWrite t v s := rfl
@[simp] theorem exec_tallyValueWrite (t : Nat) (v : Reg) : exec (.tallyValueWrite t v) s = execTallyValueWrite t v s := rfl
@[simp] theorem exec_nop (o : Origin) (ops : Bytes) : exec (.nop o ops) s = execNop o ops s := rfl
@[simp] theorem exec_queryDevice (o : Origin) (ops : Bytes) : exec (.queryDevice o ops) s = execQueryDevice o ops s := rfl
@[simp] theorem exec_ringCreate (o : Origin) (ops : Bytes) : exec (.ringCreate o ops) s = execRingCreate o ops s := rfl
@[simp] theorem exec_ringDestroy (o : Origin) (ops : Bytes) : exec (.ringDestroy o ops) s = execRingDestroy o ops s := rfl
@[simp] theorem exec_tallyAlloc (o : Origin) (ops : Bytes) : exec (.tallyAlloc o ops) s = execTallyAlloc o ops s := rfl
@[simp] theorem exec_tallyFree (o : Origin) (ops : Bytes) : exec (.tallyFree o ops) s = execTallyFree o ops s := rfl
@[simp] theorem exec_fwLoad (o : Origin) (ops : Bytes) : exec (.fwLoad o ops) s = execFwLoad o ops s := rfl
@[simp] theorem exec_fwRehang (o : Origin) (ops : Bytes) : exec (.fwRehang o ops) s = execFwRehang o ops s := rfl
@[simp] theorem exec_rehangResume : exec .rehangResume s = execRehangResume s := rfl
@[simp] theorem exec_jobCreate (o : Origin) (ops : Bytes) : exec (.jobCreate o ops) s = execJobCreate o ops s := rfl
@[simp] theorem exec_jobDestroy (o : Origin) (ops : Bytes) : exec (.jobDestroy o ops) s = execJobDestroy o ops s := rfl
@[simp] theorem exec_eventRingBind (o : Origin) (ops : Bytes) : exec (.eventRingBind o ops) s = execEventRingBind o ops s := rfl
@[simp] theorem exec_wdogPet (c : Nat) : exec (.wdogPet c) s = execWdogPet c s := rfl
@[simp] theorem exec_watchdogExpiry (c : Nat) : exec (.watchdogExpiry c) s = execWatchdogExpiry c s := rfl
@[simp] theorem exec_map (o : Origin) (ops : Bytes) : exec (.map o ops) s = execMap o ops s := rfl
@[simp] theorem exec_unmap (o : Origin) (ops : Bytes) : exec (.unmap o ops) s = execUnmap o ops s := rfl
@[simp] theorem exec_invalidate (o : Origin) (ops : Bytes) : exec (.invalidate o ops) s = execInvalidate o ops s := rfl
@[simp] theorem exec_copy (o : Origin) (ops : Bytes) : exec (.copy o ops) s = execCopy o ops s := rfl
@[simp] theorem exec_fill (o : Origin) (ops : Bytes) : exec (.fill o ops) s = execFill o ops s := rfl
@[simp] theorem exec_hostDma (o : Origin) (ops : Bytes) : exec (.hostDma o ops) s = execHostDma o ops s := rfl
@[simp] theorem exec_weakPageMove (pfn : Nat) : exec (.weakPageMove pfn) s = execWeakPageMove pfn s := rfl
@[simp] theorem exec_hbmPatrolScrub (stack : Nat) : exec (.hbmPatrolScrub stack) s = execHbmPatrolScrub stack s := rfl
@[simp] theorem exec_hbmStackFailed (stack : Nat) : exec (.hbmStackFailed stack) s = execHbmStackFailed stack s := rfl
@[simp] theorem exec_progLoad (o : Origin) (ops : Bytes) : exec (.progLoad o ops) s = execProgLoad o ops s := rfl
@[simp] theorem exec_stageMap (o : Origin) (ops : Bytes) : exec (.stageMap o ops) s = execStageMap o ops s := rfl
@[simp] theorem exec_pipelineStart (o : Origin) (ops : Bytes) : exec (.pipelineStart o ops) s = execPipelineStart o ops s := rfl
@[simp] theorem exec_microbatchAdmit (o : Origin) (ops : Bytes) : exec (.microbatchAdmit o ops) s = execMicrobatchAdmit o ops s := rfl
@[simp] theorem exec_pipelineDrain (o : Origin) (ops : Bytes) : exec (.pipelineDrain o ops) s = execPipelineDrain o ops s := rfl
@[simp] theorem exec_tileHalt (o : Origin) (ops : Bytes) : exec (.tileHalt o ops) s = execTileHalt o ops s := rfl
@[simp] theorem exec_passDelivery (tile : Nat) : exec (.passDelivery tile) s = execPassDelivery tile s := rfl
@[simp] theorem exec_pipelineStageFault (tile : Nat) : exec (.pipelineStageFault tile) s = execPipelineStageFault tile s := rfl
@[simp] theorem exec_seqCtrlHalt (tile : Nat) : exec (.seqCtrlHalt tile) s = execSeqCtrlHalt tile s := rfl
@[simp] theorem exec_seqCtrlResume (tile : Nat) : exec (.seqCtrlResume tile) s = execSeqCtrlResume tile s := rfl
@[simp] theorem exec_seqCtrlUnload (tile : Nat) : exec (.seqCtrlUnload tile) s = execSeqCtrlUnload tile s := rfl
@[simp] theorem exec_nopInstruction (tile : Nat) : exec (.nopInstruction tile) s = execNopInstruction tile s := rfl
@[simp] theorem exec_alu (tile : Nat) : exec (.alu tile) s = execAlu tile s := rfl
@[simp] theorem exec_cmp (tile : Nat) : exec (.cmp tile) s = execCmp tile s := rfl
@[simp] theorem exec_plog (tile : Nat) : exec (.plog tile) s = execPlog tile s := rfl
@[simp] theorem exec_aop (tile : Nat) : exec (.aop tile) s = execAop tile s := rfl
@[simp] theorem exec_jmp (tile : Nat) : exec (.jmp tile) s = execJmp tile s := rfl
@[simp] theorem exec_loop (tile : Nat) : exec (.loop tile) s = execLoop tile s := rfl
@[simp] theorem exec_mbbegin (tile : Nat) : exec (.mbbegin tile) s = execMbbegin tile s := rfl
@[simp] theorem exec_mbend (tile : Nat) : exec (.mbend tile) s = execMbend tile s := rfl
@[simp] theorem exec_defer (tile : Nat) : exec (.defer tile) s = execDefer tile s := rfl
@[simp] theorem exec_dret (tile : Nat) : exec (.dret tile) s = execDret tile s := rfl
@[simp] theorem exec_dyield (tile : Nat) : exec (.dyield tile) s = execDyield tile s := rfl
@[simp] theorem exec_haltp (tile : Nat) : exec (.haltp tile) s = execHaltp tile s := rfl
@[simp] theorem exec_contextSwitch (tile : Nat) : exec (.contextSwitch tile) s = execContextSwitch tile s := rfl
@[simp] theorem exec_mload (tile : Nat) : exec (.mload tile) s = execMload tile s := rfl
@[simp] theorem exec_mloadTransfer (tile : Nat) (a : Nat) : exec (.mloadTransfer tile a) s = execMloadTransfer tile a s := rfl
@[simp] theorem exec_mstream (tile : Nat) : exec (.mstream tile) s = execMstream tile s := rfl
@[simp] theorem exec_mstreamStart (tile : Nat) (a : Nat) : exec (.mstreamStart tile a) s = execMstreamStart tile a s := rfl
@[simp] theorem exec_streamCommit (tile : Nat) (a : Nat) : exec (.streamCommit tile a) s = execStreamCommit tile a s := rfl
@[simp] theorem exec_expanderBlockFault (tile : Nat) (a : Nat) : exec (.expanderBlockFault tile a) s = execExpanderBlockFault tile a s := rfl
@[simp] theorem exec_codecFaultRetry (tile : Nat) : exec (.codecFaultRetry tile) s = execCodecFaultRetry tile s := rfl
@[simp] theorem exec_vrun (tile : Nat) : exec (.vrun tile) s = execVrun tile s := rfl
@[simp] theorem exec_creset (tile : Nat) : exec (.creset tile) s = execCreset tile s := rfl
@[simp] theorem exec_cflush (tile : Nat) : exec (.cflush tile) s = execCflush tile s := rfl
@[simp] theorem exec_dma (tile : Nat) : exec (.dma tile) s = execDma tile s := rfl
@[simp] theorem exec_waitt (tile : Nat) : exec (.waitt tile) s = execWaitt tile s := rfl
@[simp] theorem exec_waitr (tile : Nat) : exec (.waitr tile) s = execWaitr tile s := rfl
@[simp] theorem exec_tadd (tile : Nat) : exec (.tadd tile) s = execTadd tile s := rfl
@[simp] theorem exec_rel (tile : Nat) : exec (.rel tile) s = execRel tile s := rfl
@[simp] theorem exec_instructionComplete (tile : Nat) (k : Nat) : exec (.instructionComplete tile k) s = execInstructionComplete tile k s := rfl
@[simp] theorem exec_panelRowTake (tile : Nat) : exec (.panelRowTake tile) s = execPanelRowTake tile s := rfl
@[simp] theorem exec_commitMarker (tile : Nat) : exec (.commitMarker tile) s = execCommitMarker tile s := rfl
@[simp] theorem exec_abortMarker (tile : Nat) : exec (.abortMarker tile) s = execAbortMarker tile s := rfl
@[simp] theorem exec_commitBufferRelease (tile : Nat) : exec (.commitBufferRelease tile) s = execCommitBufferRelease tile s := rfl
@[simp] theorem exec_vrunStarvedTake (tile : Nat) : exec (.vrunStarvedTake tile) s = execVrunStarvedTake tile s := rfl
@[simp] theorem exec_bankStarved (tile : Nat) (bank : Nat) (requester : Nat) : exec (.bankStarved tile bank requester) s = execBankStarved tile bank requester s := rfl
@[simp] theorem exec_regionDescriptorWrite (tile : Nat) (off : Nat) (v : Reg) : exec (.regionDescriptorWrite tile off v) s = execRegionDescriptorWrite tile off v s := rfl
@[simp] theorem exec_remoteRegionWrite (tile : Nat) (region : Nat) (line : Bytes) : exec (.remoteRegionWrite tile region line) s = execRemoteRegionWrite tile region line s := rfl
@[simp] theorem exec_descriptorStart (tile : Nat) (ch : Nat) : exec (.descriptorStart tile ch) s = execDescriptorStart tile ch s := rfl
@[simp] theorem exec_descriptorComplete (tile : Nat) (ch : Nat) : exec (.descriptorComplete tile ch) s = execDescriptorComplete tile ch s := rfl
@[simp] theorem exec_descriptorDataFault (tile : Nat) (ch : Nat) : exec (.descriptorDataFault tile ch) s = execDescriptorDataFault tile ch s := rfl
@[simp] theorem exec_tdmaErrorClear (tile : Nat) (ch : Nat) : exec (.tdmaErrorClear tile ch) s = execTdmaErrorClear tile ch s := rfl
@[simp] theorem exec_mxaMapWrite (tile : Nat) (v : Reg) : exec (.mxaMapWrite tile v) s = execMxaMapWrite tile v s := rfl
@[simp] theorem exec_pseConfig (o : Origin) (ops : Bytes) : exec (.pseConfig o ops) s = execPseConfig o ops s := rfl
@[simp] theorem exec_stepUpdate (o : Origin) (ops : Bytes) : exec (.stepUpdate o ops) s = execStepUpdate o ops s := rfl
@[simp] theorem exec_applyBoundary (job : Nat) : exec (.applyBoundary job) s = execApplyBoundary job s := rfl
@[simp] theorem exec_normGuardCfg (o : Origin) (ops : Bytes) : exec (.normGuardCfg o ops) s = execNormGuardCfg o ops s := rfl
@[simp] theorem exec_sealCmd (o : Origin) (ops : Bytes) : exec (.sealCmd o ops) s = execSealCmd o ops s := rfl
@[simp] theorem exec_outerApply (o : Origin) (ops : Bytes) : exec (.outerApply o ops) s = execOuterApply o ops s := rfl
@[simp] theorem exec_rolloutCopy (o : Origin) (ops : Bytes) : exec (.rolloutCopy o ops) s = execRolloutCopy o ops s := rfl
@[simp] theorem exec_digest (o : Origin) (ops : Bytes) : exec (.digest o ops) s = execDigest o ops s := rfl
@[simp] theorem exec_groupCreate (o : Origin) (ops : Bytes) : exec (.groupCreate o ops) s = execGroupCreate o ops s := rfl
@[simp] theorem exec_groupDestroy (o : Origin) (ops : Bytes) : exec (.groupDestroy o ops) s = execGroupDestroy o ops s := rfl
@[simp] theorem exec_reduceScatter (o : Origin) (ops : Bytes) : exec (.reduceScatter o ops) s = execReduceScatter o ops s := rfl
@[simp] theorem exec_allGather (o : Origin) (ops : Bytes) : exec (.allGather o ops) s = execAllGather o ops s := rfl
@[simp] theorem exec_permute (o : Origin) (ops : Bytes) : exec (.permute o ops) s = execPermute o ops s := rfl
@[simp] theorem exec_groupReserve (o : Origin) (ops : Bytes) : exec (.groupReserve o ops) s = execGroupReserve o ops s := rfl
@[simp] theorem exec_collectiveComplete (slot : Nat) : exec (.collectiveComplete slot) s = execCollectiveComplete slot s := rfl
@[simp] theorem exec_groupTimeout (slot : Nat) : exec (.groupTimeout slot) s = execGroupTimeout slot s := rfl
@[simp] theorem exec_cfiData (port : Nat) (bs : Bytes) : exec (.cfiData port bs) s = execCfiData port bs s := rfl
@[simp] theorem exec_cfiAck (port : Nat) (bs : Bytes) : exec (.cfiAck port bs) s = execCfiAck port bs s := rfl
@[simp] theorem exec_cfiReady (port : Nat) (bs : Bytes) : exec (.cfiReady port bs) s = execCfiReady port bs s := rfl
@[simp] theorem exec_cfiGrant (port : Nat) (bs : Bytes) : exec (.cfiGrant port bs) s = execCfiGrant port bs s := rfl
@[simp] theorem exec_cfiCredit (port : Nat) (bs : Bytes) : exec (.cfiCredit port bs) s = execCfiCredit port bs s := rfl
@[simp] theorem exec_cfiAckTimer (peer : Nat) (cls : Nat) : exec (.cfiAckTimer peer cls) s = execCfiAckTimer peer cls s := rfl
@[simp] theorem exec_cfiRetxTimer (peer : Nat) (cls : Nat) (psn : Nat) : exec (.cfiRetxTimer peer cls psn) s = execCfiRetxTimer peer cls psn s := rfl
@[simp] theorem exec_cfiRateIncrease (peer : Nat) : exec (.cfiRateIncrease peer) s = execCfiRateIncrease peer s := rfl
@[simp] theorem exec_linkSlotSend (pipe : Nat) (link : Nat) : exec (.linkSlotSend pipe link) s = execLinkSlotSend pipe link s := rfl
@[simp] theorem exec_linkSlotSent (pipe : Nat) (link : Nat) : exec (.linkSlotSent pipe link) s = execLinkSlotSent pipe link s := rfl
@[simp] theorem exec_cellPortDown (port : Nat) : exec (.cellPortDown port) s = execCellPortDown port s := rfl
@[simp] theorem exec_cellPortUp (port : Nat) : exec (.cellPortUp port) s = execCellPortUp port s := rfl
@[simp] theorem exec_pfcPause (port : Nat) (mask : Nat) (quanta : Nat) : exec (.pfcPause port mask quanta) s = execPfcPause port mask quanta s := rfl
@[simp] theorem exec_neighborSolicitation (port : Nat) (bs : Bytes) : exec (.neighborSolicitation port bs) s = execNeighborSolicitation port bs s := rfl
@[simp] theorem exec_echoRequest (port : Nat) (bs : Bytes) : exec (.echoRequest port bs) s = execEchoRequest port bs s := rfl
@[simp] theorem exec_cellFrameDiscard (port : Nat) (why : FrameFault) : exec (.cellFrameDiscard port why) s = execCellFrameDiscard port why s := rfl
@[simp] theorem exec_roceAck (qp : Nat) (psn : Nat) : exec (.roceAck qp psn) s = execRoceAck qp psn s := rfl
@[simp] theorem exec_roceNak (qp : Nat) (psn : Nat) : exec (.roceNak qp psn) s = execRoceNak qp psn s := rfl
@[simp] theorem exec_roceRnrNak (qp : Nat) (psn : Nat) (ns : Nat) : exec (.roceRnrNak qp psn ns) s = execRoceRnrNak qp psn ns s := rfl
@[simp] theorem exec_roceReadResponse (qp : Nat) (psn : Nat) (bs : Bytes) : exec (.roceReadResponse qp psn bs) s = execRoceReadResponse qp psn bs s := rfl
@[simp] theorem exec_roceCnp (qp : Nat) : exec (.roceCnp qp) s = execRoceCnp qp s := rfl
@[simp] theorem exec_roceInboundRequest (port : Nat) : exec (.roceInboundRequest port) s = execRoceInboundRequest port s := rfl
@[simp] theorem exec_roceRetryTimer (qp : Nat) : exec (.roceRetryTimer qp) s = execRoceRetryTimer qp s := rfl
@[simp] theorem exec_roceRnrWaitExpiry (qp : Nat) : exec (.roceRnrWaitExpiry qp) s = execRoceRnrWaitExpiry qp s := rfl
@[simp] theorem exec_roundConfig (o : Origin) (ops : Bytes) : exec (.roundConfig o ops) s = execRoundConfig o ops s := rfl
@[simp] theorem exec_roundOpen (o : Origin) (ops : Bytes) : exec (.roundOpen o ops) s = execRoundOpen o ops s := rfl
@[simp] theorem exec_partnerAdd (o : Origin) (ops : Bytes) : exec (.partnerAdd o ops) s = execPartnerAdd o ops s := rfl
@[simp] theorem exec_partnerRemove (o : Origin) (ops : Bytes) : exec (.partnerRemove o ops) s = execPartnerRemove o ops s := rfl
@[simp] theorem exec_epochCommit (o : Origin) (ops : Bytes) : exec (.epochCommit o ops) s = execEpochCommit o ops s := rfl
@[simp] theorem exec_loanCopySend (o : Origin) (ops : Bytes) : exec (.loanCopySend o ops) s = execLoanCopySend o ops s := rfl
@[simp] theorem exec_ownPackageGather (job : Nat) : exec (.ownPackageGather job) s = execOwnPackageGather job s := rfl
@[simp] theorem exec_decisionDeadline (job : Nat) (acc : Nat) : exec (.decisionDeadline job acc) s = execDecisionDeadline job acc s := rfl
@[simp] theorem exec_farFrameArrival (port : Nat) (bs : Bytes) : exec (.farFrameArrival port bs) s = execFarFrameArrival port bs s := rfl
@[simp] theorem exec_cipherOpenComplete (pair : Nat) : exec (.cipherOpenComplete pair) s = execCipherOpenComplete pair s := rfl
@[simp] theorem exec_fragmentDrained (k : Nat) : exec (.fragmentDrained k) s = execFragmentDrained k s := rfl
@[simp] theorem exec_fragmentSend (slot : Nat) : exec (.fragmentSend slot) s = execFragmentSend slot s := rfl
@[simp] theorem exec_txpAckTimer (slot : Nat) : exec (.txpAckTimer slot) s = execTxpAckTimer slot s := rfl
@[simp] theorem exec_gapNackTimer (slot : Nat) : exec (.gapNackTimer slot) s = execGapNackTimer slot s := rfl
@[simp] theorem exec_txpRetxTimer (slot : Nat) (dseq : Nat) : exec (.txpRetxTimer slot dseq) s = execTxpRetxTimer slot dseq s := rfl
@[simp] theorem exec_fullNackDelay (slot : Nat) (dseq : Nat) : exec (.fullNackDelay slot dseq) s = execFullNackDelay slot dseq s := rfl
@[simp] theorem exec_probeIdle (slot : Nat) : exec (.probeIdle slot) s = execProbeIdle slot s := rfl
@[simp] theorem exec_partnerSilent (slot : Nat) : exec (.partnerSilent slot) s = execPartnerSilent slot s := rfl
@[simp] theorem exec_wantTimer (slot : Nat) : exec (.wantTimer slot) s = execWantTimer slot s := rfl
@[simp] theorem exec_creditTimer (slot : Nat) : exec (.creditTimer slot) s = execCreditTimer slot s := rfl
@[simp] theorem exec_pacingIncrease (slot : Nat) : exec (.pacingIncrease slot) s = execPacingIncrease slot s := rfl
@[simp] theorem exec_rotateQuantum : exec .rotateQuantum s = execRotateQuantum s := rfl
@[simp] theorem exec_overcommitDecrease : exec .overcommitDecrease s = execOvercommitDecrease s := rfl
@[simp] theorem exec_overcommitIncrease : exec .overcommitIncrease s = execOvercommitIncrease s := rfl
@[simp] theorem exec_quarantineExpiry (slot : Nat) : exec (.quarantineExpiry slot) s = execQuarantineExpiry slot s := rfl
@[simp] theorem exec_slotWindowWrite (slot : Nat) (v : Reg) : exec (.slotWindowWrite slot v) s = execSlotWindowWrite slot v s := rfl
@[simp] theorem exec_farPortDown (port : Nat) : exec (.farPortDown port) s = execFarPortDown port s := rfl
@[simp] theorem exec_farPortUp (port : Nat) : exec (.farPortUp port) s = execFarPortUp port s := rfl
@[simp] theorem exec_arpRequest (port : Nat) (bs : Bytes) : exec (.arpRequest port bs) s = execArpRequest port bs s := rfl
@[simp] theorem exec_packetTooBig (port : Nat) (mtu : Nat) (slot : Nat) : exec (.packetTooBig port mtu slot) s = execPacketTooBig port mtu slot s := rfl
@[simp] theorem exec_farFrameDiscard (port : Nat) (why : FrameFault) : exec (.farFrameDiscard port why) s = execFarFrameDiscard port why s := rfl
@[simp] theorem exec_helloResend (slot : Nat) : exec (.helloResend slot) s = execHelloResend slot s := rfl
@[simp] theorem exec_handshakeRetry (slot : Nat) : exec (.handshakeRetry slot) s = execHandshakeRetry slot s := rfl
@[simp] theorem exec_handshakeTimeout (slot : Nat) : exec (.handshakeTimeout slot) s = execHandshakeTimeout slot s := rfl
@[simp] theorem exec_previousKeyErase (slot : Nat) : exec (.previousKeyErase slot) s = execPreviousKeyErase slot s := rfl
@[simp] theorem exec_keyGenerate (o : Origin) (ops : Bytes) : exec (.keyGenerate o ops) s = execKeyGenerate o ops s := rfl
@[simp] theorem exec_handshake (o : Origin) (ops : Bytes) : exec (.handshake o ops) s = execHandshake o ops s := rfl
@[simp] theorem exec_keyDestroy (o : Origin) (ops : Bytes) : exec (.keyDestroy o ops) s = execKeyDestroy o ops s := rfl
@[simp] theorem exec_attest (o : Origin) (ops : Bytes) : exec (.attest o ops) s = execAttest o ops s := rfl
@[simp] theorem exec_cipherSealRequest (r : CipherArgs) : exec (.cipherSealRequest r) s = execCipherSealRequest r s := rfl
@[simp] theorem exec_cipherOpenRequest (r : CipherArgs) : exec (.cipherOpenRequest r) s = execCipherOpenRequest r s := rfl
@[simp] theorem exec_cipherSealComplete (pair : Nat) : exec (.cipherSealComplete pair) s = execCipherSealComplete pair s := rfl
@[simp] theorem exec_pkScalarmult (a : PkScalarArgs) : exec (.pkScalarmult a) s = execPkScalarmult a s := rfl
@[simp] theorem exec_pkKeygen (core : Nat) : exec (.pkKeygen core) s = execPkKeygen core s := rfl
@[simp] theorem exec_pkEcdh (a : PkSlotArgs) : exec (.pkEcdh a) s = execPkEcdh a s := rfl
@[simp] theorem exec_pkSign (a : PkSlotArgs) : exec (.pkSign a) s = execPkSign a s := rfl
@[simp] theorem exec_pkVerify (a : PkVerifyArgs) : exec (.pkVerify a) s = execPkVerify a s := rfl
@[simp] theorem exec_pkValidate (a : PkPointArgs) : exec (.pkValidate a) s = execPkValidate a s := rfl
@[simp] theorem exec_pkHkdf (core : Nat) : exec (.pkHkdf core) s = execPkHkdf core s := rfl
@[simp] theorem exec_pkOperationComplete (core : Nat) : exec (.pkOperationComplete core) s = execPkOperationComplete core s := rfl
@[simp] theorem exec_entropyFail : exec .entropyFail s = execEntropyFail s := rfl
@[simp] theorem exec_fuseRevoke (who : Agent) (v : Reg) : exec (.fuseRevoke who v) s = execFuseRevoke who v s := rfl
@[simp] theorem exec_storageTargetAdd (o : Origin) (ops : Bytes) : exec (.storageTargetAdd o ops) s = execStorageTargetAdd o ops s := rfl
@[simp] theorem exec_ckptWrite (o : Origin) (ops : Bytes) : exec (.ckptWrite o ops) s = execCkptWrite o ops s := rfl
@[simp] theorem exec_ckptRead (o : Origin) (ops : Bytes) : exec (.ckptRead o ops) s = execCkptRead o ops s := rfl
@[simp] theorem exec_snapshot (o : Origin) (ops : Bytes) : exec (.snapshot o ops) s = execSnapshot o ops s := rfl
@[simp] theorem exec_timeConfig (o : Origin) (ops : Bytes) : exec (.timeConfig o ops) s = execTimeConfig o ops s := rfl
@[simp] theorem exec_timerArm (o : Origin) (ops : Bytes) : exec (.timerArm o ops) s = execTimerArm o ops s := rfl
@[simp] theorem exec_timerCancel (o : Origin) (ops : Bytes) : exec (.timerCancel o ops) s = execTimerCancel o ops s := rfl
@[simp] theorem exec_captureCfg (o : Origin) (ops : Bytes) : exec (.captureCfg o ops) s = execCaptureCfg o ops s := rfl
@[simp] theorem exec_timerExpiry (t : Nat) : exec (.timerExpiry t) s = execTimerExpiry t s := rfl
@[simp] theorem exec_ptpSync (m : PtpMsg) : exec (.ptpSync m) s = execPtpSync m s := rfl
@[simp] theorem exec_ptpFollowUp (m : PtpMsg) : exec (.ptpFollowUp m) s = execPtpFollowUp m s := rfl
@[simp] theorem exec_ptpDelayResp (m : PtpMsg) : exec (.ptpDelayResp m) s = execPtpDelayResp m s := rfl
@[simp] theorem exec_ptpAnnounce (m : PtpMsg) : exec (.ptpAnnounce m) s = execPtpAnnounce m s := rfl
@[simp] theorem exec_referenceLoss : exec .referenceLoss s = execReferenceLoss s := rfl
@[simp] theorem exec_holdoverLimit : exec .holdoverLimit s = execHoldoverLimit s := rfl
@[simp] theorem exec_ppsInEdge (rising : Bool) : exec (.ppsInEdge rising) s = execPpsInEdge rising s := rfl
@[simp] theorem exec_ppsMissing : exec .ppsMissing s = execPpsMissing s := rfl
@[simp] theorem exec_ppsOutRise : exec .ppsOutRise s = execPpsOutRise s := rfl
@[simp] theorem exec_ppsOutFall : exec .ppsOutFall s = execPpsOutFall s := rfl
@[simp] theorem exec_captureEdge (i : Nat) (rising : Bool) : exec (.captureEdge i rising) s = execCaptureEdge i rising s := rfl
@[simp] theorem exec_tclkDivWrite (who : Agent) (v : Reg) : exec (.tclkDivWrite who v) s = execTclkDivWrite who v s := rfl
@[simp] theorem exec_tclkDividerStep (wing : Nat) : exec (.tclkDividerStep wing) s = execTclkDividerStep wing s := rfl
@[simp] theorem exec_loanPolicy (o : Origin) (ops : Bytes) : exec (.loanPolicy o ops) s = execLoanPolicy o ops s := rfl
@[simp] theorem exec_marginSweep (o : Origin) (ops : Bytes) : exec (.marginSweep o ops) s = execMarginSweep o ops s := rfl
@[simp] theorem exec_faultHistoryRead (o : Origin) (ops : Bytes) : exec (.faultHistoryRead o ops) s = execFaultHistoryRead o ops s := rfl
@[simp] theorem exec_telemetryCfg (o : Origin) (ops : Bytes) : exec (.telemetryCfg o ops) s = execTelemetryCfg o ops s := rfl
@[simp] theorem exec_dumpRead (o : Origin) (ops : Bytes) : exec (.dumpRead o ops) s = execDumpRead o ops s := rfl
@[simp] theorem exec_faultRingRetire (v : Reg) : exec (.faultRingRetire v) s = execFaultRingRetire v s := rfl
@[simp] theorem exec_handleMinExpiry (k : Nat) : exec (.handleMinExpiry k) s = execHandleMinExpiry k s := rfl
@[simp] theorem exec_suspicionDecay (unit : Nat) : exec (.suspicionDecay unit) s = execSuspicionDecay unit s := rfl
@[simp] theorem exec_reviewTestComplete (unit : Nat) (pass : Bool) : exec (.reviewTestComplete unit pass) s = execReviewTestComplete unit pass s := rfl
@[simp] theorem exec_sevenArraySwitch (tile : Nat) : exec (.sevenArraySwitch tile) s = execSevenArraySwitch tile s := rfl
@[simp] theorem exec_tileRemap (tile : Nat) : exec (.tileRemap tile) s = execTileRemap tile s := rfl
@[simp] theorem exec_loanDue (tile : Nat) : exec (.loanDue tile) s = execLoanDue tile s := rfl
@[simp] theorem exec_loanBoundary : exec .loanBoundary s = execLoanBoundary s := rfl
@[simp] theorem exec_loanCopyComplete : exec .loanCopyComplete s = execLoanCopyComplete s := rfl
@[simp] theorem exec_fieldTestComplete (tile : Nat) (signature : Nat) : exec (.fieldTestComplete tile signature) s = execFieldTestComplete tile signature s := rfl
@[simp] theorem exec_loanDeferralExpiry : exec .loanDeferralExpiry s = execLoanDeferralExpiry s := rfl
@[simp] theorem exec_replaySelect (tile : Nat) (a : Nat) : exec (.replaySelect tile a) s = execReplaySelect tile a s := rfl
@[simp] theorem exec_replayCompare (agrees : ReplayMatch) : exec (.replayCompare agrees) s = execReplayCompare agrees s := rfl
@[simp] theorem exec_secondReplayTimeout : exec .secondReplayTimeout s = execSecondReplayTimeout s := rfl
@[simp] theorem exec_spmScrub (tile : Nat) : exec (.spmScrub tile) s = execSpmScrub tile s := rfl
@[simp] theorem exec_laneRetrain (port : Nat) : exec (.laneRetrain port) s = execLaneRetrain port s := rfl
@[simp] theorem exec_telemetrySample (sample : Bytes) : exec (.telemetrySample sample) s = execTelemetrySample sample s := rfl
@[simp] theorem exec_flashSummaryWrite : exec .flashSummaryWrite s = execFlashSummaryWrite s := rfl
@[simp] theorem exec_debugUnlock (o : Origin) (ops : Bytes) : exec (.debugUnlock o ops) s = execDebugUnlock o ops s := rfl
@[simp] theorem exec_coreHalt (o : Origin) (ops : Bytes) : exec (.coreHalt o ops) s = execCoreHalt o ops s := rfl
@[simp] theorem exec_coreHaltGrant (c : Nat) : exec (.coreHaltGrant c) s = execCoreHaltGrant c s := rfl
@[simp] theorem exec_haltForced (c : Nat) : exec (.haltForced c) s = execHaltForced c s := rfl
@[simp] theorem exec_coreResume (o : Origin) (ops : Bytes) : exec (.coreResume o ops) s = execCoreResume o ops s := rfl
@[simp] theorem exec_regRead (o : Origin) (ops : Bytes) : exec (.regRead o ops) s = execRegRead o ops s := rfl
@[simp] theorem exec_debugPortRead (off : Nat) : exec (.debugPortRead off) s = execDebugPortRead off s := rfl
@[simp] theorem exec_debugPortWrite (a : DbgAccess) : exec (.debugPortWrite a) s = execDebugPortWrite a s := rfl
@[simp] theorem exec_powerClampEval (sample : Nat) (average : Nat) : exec (.powerClampEval sample average) s = execPowerClampEval sample average s := rfl
@[simp] theorem exec_thermalClampEval (temps : List Int) : exec (.thermalClampEval temps) s = execThermalClampEval temps s := rfl
@[simp] theorem exec_thermalTrip : exec .thermalTrip s = execThermalTrip s := rfl
@[simp] theorem exec_railOutOfTolerance (rail : Nat) : exec (.railOutOfTolerance rail) s = execRailOutOfTolerance rail s := rfl
@[simp] theorem exec_entdaa (a : Nat) : exec (.entdaa a) s = execEntdaa a s := rfl
@[simp] theorem exec_setdasa (a : Nat) : exec (.setdasa a) s = execSetdasa a s := rfl
@[simp] theorem exec_rstdaa : exec .rstdaa s = execRstdaa s := rfl
@[simp] theorem exec_enec (events : Nat) : exec (.enec events) s = execEnec events s := rfl
@[simp] theorem exec_disec (events : Nat) : exec (.disec events) s = execDisec events s := rfl
@[simp] theorem exec_getpid : exec .getpid s = execGetpid s := rfl
@[simp] theorem exec_getbcr : exec .getbcr s = execGetbcr s := rfl
@[simp] theorem exec_getdcr : exec .getdcr s = execGetdcr s := rfl
@[simp] theorem exec_getstatus : exec .getstatus s = execGetstatus s := rfl
@[simp] theorem exec_setmwl (n : Nat) : exec (.setmwl n) s = execSetmwl n s := rfl
@[simp] theorem exec_getmwl : exec .getmwl s = execGetmwl s := rfl
@[simp] theorem exec_setmrl (n : Nat) : exec (.setmrl n) s = execSetmrl n s := rfl
@[simp] theorem exec_getmrl : exec .getmrl s = execGetmrl s := rfl
@[simp] theorem exec_rstact (action : Nat) : exec (.rstact action) s = execRstact action s := rfl
@[simp] theorem exec_readTelemetry : exec .readTelemetry s = execReadTelemetry s := rfl
@[simp] theorem exec_readState : exec .readState s = execReadState s := rfl
@[simp] theorem exec_setPwrLimit (bs : Bytes) : exec (.setPwrLimit bs) s = execSetPwrLimit bs s := rfl
@[simp] theorem exec_readSummary (bs : Bytes) : exec (.readSummary bs) s = execReadSummary bs s := rfl
@[simp] theorem exec_flashWrite (bs : Bytes) : exec (.flashWrite bs) s = execFlashWrite bs s := rfl
@[simp] theorem exec_flashCommit (bs : Bytes) : exec (.flashCommit bs) s = execFlashCommit bs s := rfl
@[simp] theorem exec_warmReset (bs : Bytes) : exec (.warmReset bs) s = execWarmReset bs s := rfl
@[simp] theorem exec_extest : exec .extest s = execExtest s := rfl
@[simp] theorem exec_idcode : exec .idcode s = execIdcode s := rfl
@[simp] theorem exec_samplePreload (v : Nat) : exec (.samplePreload v) s = execSamplePreload v s := rfl
@[simp] theorem exec_highz : exec .highz s = execHighz s := rfl
@[simp] theorem exec_clamp : exec .clamp s = execClamp s := rfl
@[simp] theorem exec_dbg : exec .dbg s = execDbg s := rfl
@[simp] theorem exec_bypass : exec .bypass s = execBypass s := rfl
@[simp] theorem exec_pwrgdDeassert : exec .pwrgdDeassert s = execPwrgdDeassert s := rfl
@[simp] theorem exec_railInTolerance (rail : Nat) : exec (.railInTolerance rail) s = execRailInTolerance rail s := rfl
@[simp] theorem exec_pcieLinkTrained (width : Nat) (speed : Nat) : exec (.pcieLinkTrained width speed) s = execPcieLinkTrained width speed s := rfl
@[simp] theorem exec_entropyTestsPassing : exec .entropyTestsPassing s = execEntropyTestsPassing s := rfl
@[simp] theorem exec_testLogicReset : exec .testLogicReset s = execTestLogicReset s := rfl
@[simp] theorem exec_leaverTimeout (slot : Nat) : exec (.leaverTimeout slot) s = execLeaverTimeout slot s := rfl

end Sys2Proof.Machine
end

