-- ==== Sys2Proof/Laws/Here.lean ====
section
/-! SUPPORT. What a unit reads of the device as a command meets it is what stands there: only the units' view of the time
base differs (log 1). -/

namespace Sys2Proof.Machine

@[simp] theorem State.here_code (s : State) : s.here.code = s.dev.code := rfl
@[simp] theorem State.here_regs (s : State) : s.here.regs = s.dev.regs := rfl
@[simp] theorem State.here_host (s : State) : s.here.host = s.dev.host := rfl
@[simp] theorem State.here_out (s : State) : s.here.out = s.dev.out := rfl
@[simp] theorem State.here_draws (s : State) : s.here.draws = s.dev.draws := rfl
@[simp] theorem State.here_cmd (s : State) : s.here.cmd = s.dev.cmd := rfl
@[simp] theorem State.here_hbm (s : State) : s.here.hbm = s.dev.hbm := rfl
@[simp] theorem State.here_hif (s : State) : s.here.hif = s.dev.hif := rfl
@[simp] theorem State.here_csv (s : State) : s.here.csv = s.dev.csv := rfl
@[simp] theorem State.here_tiles (s : State) : s.here.tiles = s.dev.tiles := rfl
@[simp] theorem State.here_pipes (s : State) : s.here.pipes = s.dev.pipes := rfl
@[simp] theorem State.here_pse (s : State) : s.here.pse = s.dev.pse := rfl
@[simp] theorem State.here_pseRem (s : State) : s.here.pseRem = s.dev.pseRem := rfl
@[simp] theorem State.here_cfi (s : State) : s.here.cfi = s.dev.cfi := rfl
@[simp] theorem State.here_rnd (s : State) : s.here.rnd = s.dev.rnd := rfl
@[simp] theorem State.here_wxu (s : State) : s.here.wxu = s.dev.wxu := rfl
@[simp] theorem State.here_sec (s : State) : s.here.sec = s.dev.sec := rfl
@[simp] theorem State.here_ckpt (s : State) : s.here.ckpt = s.dev.ckpt := rfl
@[simp] theorem State.here_tmu (s : State) : s.here.tmu = s.dev.tmu := rfl
@[simp] theorem State.here_now (s : State) : s.here.now = s.clock.ns := rfl
@[simp] theorem State.here_invalidateHeld (s : State) (page count : Nat) (before : List InFlight) : s.here.invalidateHeld page count before = s.dev.invalidateHeld page count before := rfl
@[simp] theorem State.here_linkOut (s : State) (tag : Nat) : s.here.linkOut tag = s.dev.linkOut tag := rfl
@[simp] theorem State.here_cellUp (s : State) (p : Nat) : s.here.cellUp p = s.dev.cellUp p := rfl
@[simp] theorem State.here_txPeer (s : State) (k : Nat) : s.here.txPeer k = s.dev.txPeer k := rfl
@[simp] theorem State.here_rxPeer (s : State) (k : Nat) : s.here.rxPeer k = s.dev.rxPeer k := rfl
@[simp] theorem State.here_linkTx (s : State) (k : Nat) : s.here.linkTx k = s.dev.linkTx k := rfl
@[simp] theorem State.here_group (x : State) (s : Nat) : x.here.group s = x.dev.group s := rfl
@[simp] theorem State.here_lineRate (s : State) : s.here.lineRate = s.dev.lineRate := rfl
@[simp] theorem State.here_rateTo (s : State) (rank : Nat) : s.here.rateTo rank = s.dev.rateTo rank := rfl
@[simp] theorem State.here_cellThere (s : State) : s.here.cellThere = s.dev.cellThere := rfl
@[simp] theorem State.here_groupFieldsOk (s : State) (ops : Bytes) : s.here.groupFieldsOk ops = s.dev.groupFieldsOk ops := rfl
@[simp] theorem State.here_ringStopped (s : State) (r : Nat) : s.here.ringStopped r = s.dev.ringStopped r := rfl
@[simp] theorem State.here_tallyUsed (s : State) (t : Nat) : s.here.tallyUsed t = s.dev.tallyUsed t := rfl
@[simp] theorem State.here_usedTallies (s : State) : s.here.usedTallies = s.dev.usedTallies := rfl
@[simp] theorem State.here_usedRings (s : State) : s.here.usedRings = s.dev.usedRings := rfl
@[simp] theorem State.here_ringOperandsOk (s : State) (ops : Bytes) : s.here.ringOperandsOk ops = s.dev.ringOperandsOk ops := rfl
@[simp] theorem State.here_jobNumbers (s : State) : s.here.jobNumbers = s.dev.jobNumbers := rfl
@[simp] theorem State.here_testFree (s : State) (t : Nat) : s.here.testFree t = s.dev.testFree t := rfl
@[simp] theorem State.here_findLoan (s : State) (p : Loan → Bool) : s.here.findLoan p = s.dev.findLoan p := rfl
@[simp] theorem State.here_oldestWait (s : State) : s.here.oldestWait = s.dev.oldestWait := rfl
@[simp] theorem State.here_stealable (s : State) (t : Nat) : s.here.stealable t = s.dev.stealable t := rfl
@[simp] theorem State.here_errorTotals (s : State) : s.here.errorTotals = s.dev.errorTotals := rfl
@[simp] theorem State.here_dbgLevel (s : State) : s.here.dbgLevel = s.dev.dbgLevel := rfl
@[simp] theorem State.here_haltAsked (s : State) (c : Nat) : s.here.haltAsked c = s.dev.haltAsked c := rfl
@[simp] theorem State.here_dbgSelected (s : State) : s.here.dbgSelected = s.dev.dbgSelected := rfl
@[simp] theorem State.here_pslot (x : State) (s : Nat) : x.here.pslot s = x.dev.pslot s := rfl
@[simp] theorem State.here_slotState (x : State) (s : Nat) : x.here.slotState s = x.dev.slotState s := rfl
@[simp] theorem State.here_slotOpen (x : State) (s : Nat) : x.here.slotOpen s = x.dev.slotOpen s := rfl
@[simp] theorem State.here_ownCell (s : State) : s.here.ownCell = s.dev.ownCell := rfl
@[simp] theorem State.here_fragSize (s : State) : s.here.fragSize = s.dev.fragSize := rfl
@[simp] theorem State.here_farUp (s : State) (p : Nat) : s.here.farUp p = s.dev.farUp p := rfl
@[simp] theorem State.here_cqueue (s : State) (q : Nat) : s.here.cqueue q = s.dev.cqueue q := rfl
@[simp] theorem State.here_cpair (s : State) (p : Nat) : s.here.cpair p = s.dev.cpair p := rfl
@[simp] theorem State.here_session (s : State) (slot : Nat) : s.here.session slot = s.dev.session slot := rfl
@[simp] theorem State.here_freePair (s : State) (but : Option Nat) : s.here.freePair but = s.dev.freePair but := rfl
@[simp] theorem State.here_canSeal (s : State) (slot : Nat) : s.here.canSeal slot = s.dev.canSeal slot := rfl
@[simp] theorem State.here_farDown (s : State) : s.here.farDown = s.dev.farDown := rfl
@[simp] theorem State.here_backlogOf (s : State) (p : PSlot) : s.here.backlogOf p = s.dev.backlogOf p := rfl
@[simp] theorem State.here_windowSum (s : State) : s.here.windowSum = s.dev.windowSum := rfl
@[simp] theorem State.here_collDone (x : State) (s : Nat) : x.here.collDone s = x.dev.collDone s := rfl
@[simp] theorem State.here_key (s : State) (k : Nat) : s.here.key k = s.dev.key k := rfl
@[simp] theorem State.here_keyNamed (s : State) (k : Nat) : s.here.keyNamed k = s.dev.keyNamed k := rfl
@[simp] theorem State.here_sessionUsed (s : State) (k : Nat) : s.here.sessionUsed k = s.dev.sessionUsed k := rfl
@[simp] theorem State.here_entropyOk (s : State) : s.here.entropyOk = s.dev.entropyOk := rfl
@[simp] theorem State.here_pkCore (s : State) (c : Nat) : s.here.pkCore c = s.dev.pkCore c := rfl
@[simp] theorem State.here_pkInService (s : State) (c : Nat) : s.here.pkInService c = s.dev.pkInService c := rfl
@[simp] theorem State.here_pkStatus (s : State) (o : PkOp) : s.here.pkStatus o = s.dev.pkStatus o := rfl
@[simp] theorem State.here_keyOperandsOk (s : State) (ops : Bytes) : s.here.keyOperandsOk ops = s.dev.keyOperandsOk ops := rfl
@[simp] theorem State.here_attestDom (s : State) (o : Origin) : s.here.attestDom o = s.dev.attestDom o := rfl
@[simp] theorem State.here_jobRings (s : State) (j : Nat) : s.here.jobRings j = s.dev.jobRings j := rfl
@[simp] theorem State.here_jobKeys (s : State) (j : Nat) : s.here.jobKeys j = s.dev.jobKeys j := rfl
@[simp] theorem State.here_pipelinesBusy (s : State) : s.here.pipelinesBusy = s.dev.pipelinesBusy := rfl
@[simp] theorem State.here_firmwareRuns (s : State) : s.here.firmwareRuns = s.dev.firmwareRuns := rfl
@[simp] theorem State.here_rehanging (s : State) : s.here.rehanging = s.dev.rehanging := rfl
@[simp] theorem State.here_stackFailed (s : State) (k : Nat) : s.here.stackFailed k = s.dev.stackFailed k := rfl
@[simp] theorem State.here_frame (s : State) (pfn : Nat) : s.here.frame pfn = s.dev.frame pfn := rfl
@[simp] theorem State.here_cwAt (s : State) (i : Nat) : s.here.cwAt i = s.dev.cwAt i := rfl
@[simp] theorem State.here_scrubNs (s : State) : s.here.scrubNs = s.dev.scrubNs := rfl
@[simp] theorem State.here_mapCheck (s : State) (job : Nat) (ops : Bytes) : s.here.mapCheck job ops = s.dev.mapCheck job ops := rfl
@[simp] theorem State.here_fn1Rd (s : State) (o : Nat) : s.here.fn1Rd o = s.dev.fn1Rd o := rfl
@[simp] theorem State.here_ringCount (s : State) (r : Nat) : s.here.ringCount r = s.dev.ringCount r := rfl
@[simp] theorem State.here_ringHead (s : State) (r : Nat) : s.here.ringHead r = s.dev.ringHead r := rfl
@[simp] theorem State.here_ringTail (s : State) (r : Nat) : s.here.ringTail r = s.dev.ringTail r := rfl
@[simp] theorem State.here_ringUsed (s : State) (r : Nat) : s.here.ringUsed r = s.dev.ringUsed r := rfl
@[simp] theorem State.here_ringFree (s : State) (r : Nat) : s.here.ringFree r = s.dev.ringFree r := rfl
@[simp] theorem State.here_ringOn (s : State) (r kind : Nat) : s.here.ringOn r kind = s.dev.ringOn r kind := rfl
@[simp] theorem State.here_fullSince (s : State) (r : Nat) : s.here.fullSince r = s.dev.fullSince r := rfl
@[simp] theorem State.here_job (s : State) (j : Nat) : s.here.job j = s.dev.job j := rfl
@[simp] theorem State.here_domOf (s : State) (j : Nat) : s.here.domOf j = s.dev.domOf j := rfl
@[simp] theorem State.here_evRing (s : State) (cls : Nat) : s.here.evRing cls = s.dev.evRing cls := rfl
@[simp] theorem State.here_tallyOwned (s : State) (t j : Nat) : s.here.tallyOwned t j = s.dev.tallyOwned t j := rfl
@[simp] theorem State.here_unitSum (s : State) (u : Nat) : s.here.unitSum u = s.dev.unitSum u := rfl
@[simp] theorem State.here_jobOf (s : State) (o : Origin) : s.here.jobOf o = s.dev.jobOf o := rfl
@[simp] theorem State.here_sliceRanges (s : State) (perm dom : Nat) (e : PEnt) (base : Nat) (w : Nat → Nat) (lo n : Nat) : s.here.sliceRanges perm dom e base w lo n = s.dev.sliceRanges perm dom e base w lo n := rfl
@[simp] theorem State.here_pseUnit (s : State) (j : Nat) : s.here.pseUnit j = s.dev.pseUnit j := rfl
@[simp] theorem State.here_pipeState (s : State) (p : Nat) : s.here.pipeState p = s.dev.pipeState p := rfl
@[simp] theorem State.here_localTiles (s : State) (m : PipeMap) : s.here.localTiles m = s.dev.localTiles m := rfl
@[simp] theorem State.here_jobPipe (s : State) (p job : Nat) : s.here.jobPipe p job = s.dev.jobPipe p job := rfl
@[simp] theorem State.here_admitCheck (s : State) (p : Nat) (m : PipeMap) (ops : Bytes) : s.here.admitCheck p m ops = s.dev.admitCheck p m ops := rfl
@[simp] theorem State.here_flashRd (s : State) (b : Bool) : s.here.flashRd b = s.dev.flashRd b := rfl
@[simp] theorem State.here_spareSlot (s : State) : s.here.spareSlot = s.dev.spareSlot := rfl
@[simp] theorem State.here_portUp (s : State) (p : Nat) : s.here.portUp p = s.dev.portUp p := rfl
@[simp] theorem State.here_tileOwned (s : State) (l job : Nat) : s.here.tileOwned l job = s.dev.tileOwned l job := rfl
@[simp] theorem State.here_rd (s : State) (off : Nat) : s.here.rd off = s.dev.rd off := rfl
@[simp] theorem State.here_get (s : State) (f : FRef) : s.here.get f = s.dev.get f := rfl
@[simp] theorem State.here_flag (s : State) (f : FRef) : s.here.flag f = s.dev.flag f := rfl
@[simp] theorem State.here_get2 (s : State) (lo hi : FRef) : s.here.get2 lo hi = s.dev.get2 lo hi := rfl
@[simp] theorem State.here_curator (s : State) : s.here.curator = s.dev.curator := rfl
@[simp] theorem State.here_qp (s : State) (q : Nat) : s.here.qp q = s.dev.qp q := rfl
@[simp] theorem State.here_roceDue (s : State) (q : Nat) : s.here.roceDue q = s.dev.roceDue q := rfl
@[simp] theorem State.here_nextStep (s : State) (job : Nat) : s.here.nextStep job = s.dev.nextStep job := rfl
@[simp] theorem State.here_accSlot (s : State) (k : Nat) : s.here.accSlot k = s.dev.accSlot k := rfl
@[simp] theorem State.here_accState (s : State) (k : Nat) : s.here.accState k = s.dev.accState k := rfl
@[simp] theorem State.here_slotUsed (x : State) (s : Nat) : x.here.slotUsed s = x.dev.slotUsed s := rfl
@[simp] theorem State.here_applySlot (s : State) (rc : RoundCfg) (n : Nat) : s.here.applySlot rc n = s.dev.applySlot rc n := rfl
@[simp] theorem State.here_targetUsed (s : State) (t : Nat) : s.here.targetUsed t = s.dev.targetUsed t := rfl
@[simp] theorem State.here_targetReady (s : State) (t : Nat) : s.here.targetReady t = s.dev.targetReady t := rfl
@[simp] theorem State.here_targetBusy (s : State) (t : Nat) : s.here.targetBusy t = s.dev.targetBusy t := rfl
@[simp] theorem State.here_freeQps (s : State) (n : Nat) : s.here.freeQps n = s.dev.freeQps n := rfl
@[simp] theorem State.here_ckHolds (s : State) (j : Nat) : s.here.ckHolds j = s.dev.ckHolds j := rfl
@[simp] theorem State.here_jobRuns (s : State) (j : Nat) : s.here.jobRuns j = s.dev.jobRuns j := rfl
@[simp] theorem State.here_jobRound (s : State) (j : Nat) : s.here.jobRound j = s.dev.jobRound j := rfl
@[simp] theorem State.here_tile (s : State) (t : Nat) : s.here.tile t = s.dev.tile t := rfl
@[simp] theorem State.here_phys (s : State) (l : Nat) : s.here.phys l = s.dev.phys l := rfl
@[simp] theorem State.here_logical (s : State) (t : Nat) : s.here.logical t = s.dev.logical t := rfl
@[simp] theorem State.here_pipe (s : State) (p : Nat) : s.here.pipe p = s.dev.pipe p := rfl
@[simp] theorem State.here_stageOf (s : State) (l : Nat) : s.here.stageOf l = s.dev.stageOf l := rfl
@[simp] theorem State.here_regOk (s : State) (t r : Nat) : s.here.regOk t r = s.dev.regOk t r := rfl
@[simp] theorem State.here_regTail (s : State) (t r : Nat) : s.here.regTail t r = s.dev.regTail t r := rfl
@[simp] theorem State.here_creditRoom (s : State) (t r o n : Nat) : s.here.creditRoom t r o n = s.dev.creditRoom t r o n := rfl
@[simp] theorem State.here_boundaryHolds (s : State) (t : Nat) : s.here.boundaryHolds t = s.dev.boundaryHolds t := rfl
@[simp] theorem State.here_atBoundary (s : State) (t : Nat) : s.here.atBoundary t = s.dev.atBoundary t := rfl
@[simp] theorem State.here_seqState (s : State) (t : Nat) : s.here.seqState t = s.dev.seqState t := rfl
@[simp] theorem State.here_halted (s : State) (t : Nat) : s.here.halted t = s.dev.halted t := rfl
@[simp] theorem State.here_descMove (s : State) (t : Nat) (e : ChanEnt) : s.here.descMove t e = s.dev.descMove t e := rfl
@[simp] theorem State.here_srcReady (s : State) (t : Nat) (e : ChanEnt) : s.here.srcReady t e = s.dev.srcReady t e := rfl
@[simp] theorem State.here_dstOpen (s : State) (t : Nat) (e : ChanEnt) : s.here.dstOpen t e = s.dev.dstOpen t e := rfl
@[simp] theorem State.here_dstRoom (s : State) (t : Nat) (e : ChanEnt) : s.here.dstRoom t e = s.dev.dstRoom t e := rfl
@[simp] theorem State.here_descReleases (s : State) (t : Nat) (e : ChanEnt) : s.here.descReleases t e = s.dev.descReleases t e := rfl
@[simp] theorem State.here_descSegment (s : State) (t : Nat) (e : ChanEnt) (block : Nat) : s.here.descSegment t e block = s.dev.descSegment t e block := rfl
@[simp] theorem State.here_regionValid (s : State) (t r off v : Nat) : s.here.regionValid t r off v = s.dev.regionValid t r off v := rfl
@[simp] theorem State.here_regionBusy (s : State) (t r : Nat) : s.here.regionBusy t r = s.dev.regionBusy t r := rfl
@[simp] theorem State.here_unmarked (s : State) (t : Nat) : s.here.unmarked t = s.dev.unmarked t := rfl
@[simp] theorem State.here_faultBases (s : State) (t : Nat) : s.here.faultBases t = s.dev.faultBases t := rfl
@[simp] theorem State.here_timer (s : State) (t : Nat) : s.here.timer t = s.dev.timer t := rfl
@[simp] theorem State.here_lossTime (s : State) : s.here.lossTime = s.dev.lossTime := rfl
@[simp] theorem State.here_ptpMine (s : State) (m : PtpMsg) : s.here.ptpMine m = s.dev.ptpMine m := rfl
@[simp] theorem State.here_fromMaster (s : State) (m : PtpMsg) : s.here.fromMaster m = s.dev.fromMaster m := rfl
@[simp] theorem State.here_rxTime (s : State) (m : PtpMsg) : s.here.rxTime m = s.dev.rxTime m := rfl
@[simp] theorem State.here_cap (s : State) (i : Nat) : s.here.cap i = s.dev.cap i := rfl
@[simp] theorem State.here_ppsDriven (s : State) : s.here.ppsDriven = s.dev.ppsDriven := rfl
@[simp] theorem State.here_divWant (s : State) (w : Nat) : s.here.divWant w = s.dev.divWant w := rfl
@[simp] theorem State.here_powerLimit (s : State) : s.here.powerLimit = s.dev.powerLimit := rfl
@[simp] theorem State.here_divNow (s : State) (w : Nat) : s.here.divNow w = s.dev.divNow w := rfl
@[simp] theorem State.here_tclkAt (s : State) (w ns : Nat) : s.here.tclkAt w ns = s.dev.tclkAt w ns := rfl
@[simp] theorem State.here_thermMinOf (s : State) (w : Nat) : s.here.thermMinOf w = s.dev.thermMinOf w := rfl
@[simp] theorem State.here_powerHolds (s : State) (w : Nat) : s.here.powerHolds w = s.dev.powerHolds w := rfl
@[simp] theorem State.here_thermHolds (s : State) (w : Nat) : s.here.thermHolds w = s.dev.thermHolds w := rfl
@[simp] theorem State.here_tmState (s : State) : s.here.tmState = s.dev.tmState := rfl
@[simp] theorem State.here_loan (s : State) (w : Nat) : s.here.loan w = s.dev.loan w := rfl
@[simp] theorem State.here_reserves (s : State) (w : Nat) : s.here.reserves w = s.dev.reserves w := rfl
@[simp] theorem State.here_testing (s : State) (t : Nat) : s.here.testing t = s.dev.testing t := rfl
@[simp] theorem State.here_isFree (s : State) (t : Nat) : s.here.isFree t = s.dev.isFree t := rfl
@[simp] theorem State.here_reserveFor (s : State) (w : Nat) : s.here.reserveFor w = s.dev.reserveFor w := rfl
@[simp] theorem State.here_pseBusy (s : State) (j : Nat) : s.here.pseBusy j = s.dev.pseBusy j := rfl
theorem State.here_rawRead (s : State) (a n : Nat) : s.here.rawRead a n = s.dev.rawRead a n := rfl
theorem State.here_catBase (s : State) : s.here.catBase = s.dev.catBase := rfl
theorem State.here_dirEnt (s : State) (a : Nat) : s.here.dirEnt a = s.dev.dirEnt a := by simp only [Dev.dirEnt, State.here_rawRead, State.here_catBase]
@[simp] theorem State.here_walk (s : State) (a : Nat) : s.here.walk a = s.dev.walk a := by simp only [Dev.walk, State.here_rawRead, State.here_dirEnt]
@[simp] theorem State.here_entryOf (s : State) (a : Nat) : s.here.entryOf a = s.dev.entryOf a := by simp only [Dev.entryOf, State.here_walk]

end Sys2Proof.Machine
end

