-- ==== Sys2Proof/Laws/Regs.lean ====
section
/-! SUPPORT. Laws of sparse maps, byte memories, byte strings and register fields: what a read gives after a
write, and the canonical form. -/

namespace Sys2Proof.Machine

/-! ## Sparse maps -/

section SMapLaws
variable {α : Type} [DecidableEq α] {dflt : Nat → α}

omit [DecidableEq α] in
theorem smapGet_drop (m : SMap α) (k j : Nat) : smapGet dflt (smapDrop m k) j = if j = k then dflt k else smapGet dflt m j := by
  induction m with
  | nil => by_cases h : j = k <;> simp [smapDrop, smapGet, h]
  | cons e m ih =>
    obtain ⟨a, v⟩ := e
    simp only [smapDrop] at ih
    by_cases hak : a = k
    · subst hak
      by_cases hj : j = a
      · subst hj; simpa [smapDrop] using ih
      · have : ¬ a = j := fun h => hj h.symm
        simpa [smapDrop, smapGet, hj, this] using ih
    · by_cases haj : a = j
      · subst haj; simp [smapDrop, smapGet, hak]
      · simpa [smapDrop, smapGet, hak, haj] using ih

omit [DecidableEq α] in
theorem smapGet_put (m : SMap α) (k j : Nat) (v : α) : smapGet dflt (smapPut m k v) j = if j = k then v else smapGet dflt m j := by
  induction m with
  | nil =>
    by_cases h : j = k
    · simp [smapPut, smapGet, h]
    · have : ¬ k = j := fun e => h e.symm
      simp [smapPut, smapGet, h, this]
  | cons e m ih =>
    obtain ⟨a, u⟩ := e
    simp only [smapPut]
    split
    · by_cases h : j = k
      · simp [smapGet, h]
      · have : ¬ k = j := fun e => h e.symm
        simp [smapGet, h, this]
    · split
      · rename_i h; subst h
        by_cases h : j = k
        · simp [smapGet, h]
        · have : ¬ k = j := fun e => h e.symm
          simp [smapGet, h, this]
      · rename_i h1 h2
        by_cases haj : a = j
        · subst haj
          have : ¬ a = k := fun e => h2 e.symm
          simp [smapGet, this]
        · simpa [smapGet, haj] using ih

/-- A read after a write of one key. -/
theorem smapGet_set (m : SMap α) (k j : Nat) (v : α) : smapGet dflt (smapSet dflt m k v) j = if j = k then v else smapGet dflt m j := by
  unfold smapSet
  split
  · rename_i h; subst h; exact smapGet_drop m k j
  · exact smapGet_put m k j v

@[simp] theorem smapGet_set_same (m : SMap α) (k : Nat) (v : α) : smapGet dflt (smapSet dflt m k v) k = v := by
  simp [smapGet_set]

theorem smapGet_set_ne (m : SMap α) {k j : Nat} (v : α) (h : j ≠ k) : smapGet dflt (smapSet dflt m k v) j = smapGet dflt m j := by
  simp [smapGet_set, h]

/-! ## The canonical form -/

omit [DecidableEq α] in
theorem smapRising_mono {m : SMap α} {a b : Nat} (hab : a ≤ b) (h : smapRising (some b) m = true) : smapRising (some a) m = true := by
  cases m with
  | nil => rfl
  | cons e m =>
    simp only [smapRising, Bool.and_eq_true, decide_eq_true_eq] at *
    exact ⟨by omega, h.2⟩

omit [DecidableEq α] in
theorem smapRising_none {m : SMap α} {a : Nat} (h : smapRising (some a) m = true) : smapRising none m = true := by
  cases m with
  | nil => rfl
  | cons e m =>
    simp only [smapRising, Bool.and_eq_true] at *
    exact h.2

omit [DecidableEq α] in
theorem smapRising_filter (m : SMap α) (p : Nat × α → Bool) (l : Nat) (h : smapRising (some l) m = true) :
    smapRising (some l) (m.filter p) = true := by
  induction m generalizing l with
  | nil => rfl
  | cons e m ih =>
    obtain ⟨a, v⟩ := e
    simp only [smapRising, Bool.and_eq_true, decide_eq_true_eq] at h
    simp only [List.filter]
    split
    · simp only [smapRising, Bool.and_eq_true, decide_eq_true_eq]
      exact ⟨h.1, ih a h.2⟩
    · exact ih l (smapRising_mono (Nat.le_of_lt h.1) h.2)

omit [DecidableEq α] in
theorem smapRising_filter_none (m : SMap α) (p : Nat × α → Bool) (h : smapRising none m = true) : smapRising none (m.filter p) = true := by
  cases m with
  | nil => rfl
  | cons e m =>
    obtain ⟨a, v⟩ := e
    simp only [smapRising] at h
    simp only [List.filter]
    split
    · exact smapRising_filter m p a h
    · exact smapRising_none (smapRising_filter m p a h)

omit [DecidableEq α] in
theorem smapRising_put (m : SMap α) (k : Nat) (v : α) (l : Nat) (hl : l < k) (h : smapRising (some l) m = true) :
    smapRising (some l) (smapPut m k v) = true := by
  induction m generalizing l with
  | nil => simp [smapPut, smapRising, hl]
  | cons e m ih =>
    obtain ⟨a, u⟩ := e
    simp only [smapRising, Bool.and_eq_true, decide_eq_true_eq] at h
    simp only [smapPut]
    split
    · simp only [smapRising, Bool.and_eq_true, decide_eq_true_eq]
      exact ⟨hl, by assumption, h.2⟩
    · split
      · rename_i hk; subst hk
        simp only [smapRising, Bool.and_eq_true, decide_eq_true_eq]
        exact ⟨hl, h.2⟩
      · simp only [smapRising, Bool.and_eq_true, decide_eq_true_eq]
        exact ⟨h.1, ih a (by omega) h.2⟩

omit [DecidableEq α] in
theorem smapRising_put_none (m : SMap α) (k : Nat) (v : α) (h : smapRising none m = true) : smapRising none (smapPut m k v) = true := by
  cases m with
  | nil => rfl
  | cons e m =>
    obtain ⟨a, u⟩ := e
    simp only [smapRising] at h
    simp only [smapPut]
    split
    · simp only [smapRising, Bool.and_eq_true, decide_eq_true_eq]
      exact ⟨by assumption, h⟩
    · split
      · rename_i hk; subst hk; exact h
      · exact smapRising_put m k v a (by omega) h

omit [DecidableEq α] in
theorem smapPut_all (m : SMap α) (k : Nat) (v : α) (p : Nat × α → Bool) (hp : p (k, v) = true) (h : m.all p = true) :
    (smapPut m k v).all p = true := by
  induction m with
  | nil => simpa [smapPut] using hp
  | cons e m ih =>
    obtain ⟨a, u⟩ := e
    simp only [List.all_cons, Bool.and_eq_true] at h
    simp only [smapPut]
    split
    · simp [h.1, h.2, hp]
    · split
      · simp [h.2, hp]
      · simp [h.1, ih h.2]

/-- Writing one key keeps the canonical form. -/
theorem smapSet_wf (m : SMap α) (k : Nat) (v : α) (h : smapWf dflt m = true) : smapWf dflt (smapSet dflt m k v) = true := by
  simp only [smapWf, Bool.and_eq_true] at *
  unfold smapSet
  split
  · refine ⟨smapRising_filter_none m _ h.1, ?_⟩
    simp only [smapDrop, List.all_eq_true, List.mem_filter] at *
    exact fun e he => h.2 e he.1
  · rename_i hv
    exact ⟨smapRising_put_none m k v h.1, smapPut_all m k v _ (by simpa using hv) h.2⟩

theorem smapFilter_wf (m : SMap α) (p : Nat × α → Bool) (h : smapWf dflt m = true) : smapWf dflt (m.filter p) = true := by
  simp only [smapWf, Bool.and_eq_true] at *
  refine ⟨smapRising_filter_none m p h.1, ?_⟩
  simp only [List.all_eq_true, List.mem_filter] at *
  exact fun e he => h.2 e he.1

/-- Clearing a range of keys keeps the canonical form. -/
theorem smapClear_wf (m : SMap α) (a n : Nat) (h : smapWf dflt m = true) : smapWf dflt (smapClear m a n) = true :=
  smapFilter_wf m _ h

/-- Setting several keys keeps the canonical form. -/
theorem smapSetAll_wf (es : List (Nat × α)) : ∀ (m : SMap α), smapWf dflt m = true → smapWf dflt (smapSetAll dflt m es) = true := by
  induction es with
  | nil => exact fun m h => h
  | cons e es ih => exact fun m h => ih _ (smapSet_wf m e.1 e.2 h)

omit [DecidableEq α] in
/-- A read after the keys that meet `p` are dropped. -/
theorem smapGet_filter (m : SMap α) (p : Nat → Bool) (j : Nat) :
    smapGet dflt (m.filter (fun e => !p e.1)) j = if p j = true then dflt j else smapGet dflt m j := by
  induction m with
  | nil => simp [smapGet]
  | cons e m ih =>
    obtain ⟨k, v⟩ := e
    by_cases hk : p k = true
    · rw [List.filter_cons_of_neg (by simp [hk]), ih]
      by_cases hj : k = j
      · subst hj; simp [hk]
      · simp [smapGet, hj]
    · rw [List.filter_cons_of_pos (by simp [hk])]
      simp only [smapGet]
      by_cases hj : k = j
      · subst hj; simp [hk]
      · simp only [hj, if_false]; exact ih

omit [DecidableEq α] in
/-- A read after a range of keys is cleared. -/
theorem smapGet_clear (m : SMap α) (a n j : Nat) :
    smapGet dflt (smapClear m a n) j = if a ≤ j ∧ j < a + n then dflt j else smapGet dflt m j := by
  have h := smapGet_filter (dflt := dflt) m (fun k => decide (a ≤ k ∧ k < a + n)) j
  simpa only [smapClear, decide_eq_true_eq] using h

end SMapLaws

/-! ## Byte memories -/

theorem memGet_set (m : SMap Byte) (a j : Nat) (b : Byte) : memGet (memSet m a b) j = if j = a then b else memGet m j :=
  smapGet_set m a j b

theorem memSet_wf (m : SMap Byte) (a : Nat) (b : Byte) (h : memWf m = true) : memWf (memSet m a b) = true := smapSet_wf m a b h

/-- Writing a string of bytes keeps the canonical form. -/
theorem memWrite_wf (bs : Bytes) : ∀ (m : SMap Byte) (a : Nat), memWf m = true → memWf (memWrite m a bs) = true := by
  induction bs with
  | nil => exact fun m a h => h
  | cons b bs ih => exact fun m a h => ih _ _ (memSet_wf m a b h)

/-- Zeroing a range keeps the canonical form. -/
theorem memZero_wf (m : SMap Byte) (a n : Nat) (h : memWf m = true) : memWf (memZero m a n) = true := smapClear_wf m a n h

/-- Copying a range keeps the canonical form. -/
theorem memCopy_wf (src : SMap Byte) (sa : Nat) (m : SMap Byte) (da n : Nat) (h : memWf m = true) : memWf (memCopy src sa m da n) = true :=
  smapSetAll_wf _ _ (memZero_wf m da n h)

/-- One byte after a write: the written one within the string, the old one elsewhere. -/
theorem memGet_write (bs : Bytes) : ∀ (m : SMap Byte) (a j : Nat),
    memGet (memWrite m a bs) j = if a ≤ j ∧ j < a + bs.length then bs.getD (j - a) 0 else memGet m j := by
  induction bs with
  | nil => intro m a j; simp only [memWrite, List.length_nil]; rw [if_neg (by omega)]
  | cons b bs ih =>
    intro m a j
    simp only [memWrite, ih, memGet_set, List.length_cons]
    by_cases h1 : a + 1 ≤ j ∧ j < a + 1 + bs.length
    · rw [if_pos h1, if_pos (by omega)]
      have : j - a = (j - (a + 1)) + 1 := by omega
      rw [this, List.getD_cons_succ]
    · rw [if_neg h1]
      by_cases h2 : j = a
      · subst h2; simp
      · rw [if_neg h2, if_neg (by omega)]

@[simp] theorem memRead_length (m : SMap Byte) (n : Nat) : ∀ a, (memRead m a n).length = n := by
  induction n with
  | zero => exact fun a => rfl
  | succ n ih => exact fun a => by simp [memRead, ih]

/-! ## Register fields -/

theorem bits_testBit (n hi lo i : Nat) : (bits n hi lo).testBit i = (decide (i < hi + 1 - lo) && n.testBit (lo + i)) := by
  simp [bits, Nat.testBit_mod_two_pow, Nat.testBit_shiftRight]

theorem putBits_eq (n hi lo v : Nat) (h : lo ≤ hi + 1) :
    putBits n hi lo v = 2 ^ lo * (2 ^ (hi + 1 - lo) * (n / 2 ^ (hi + 1)) + v % 2 ^ (hi + 1 - lo)) + n % 2 ^ lo := by
  have hp : (2 : Nat) ^ (hi + 1) = 2 ^ lo * 2 ^ (hi + 1 - lo) := by rw [← Nat.pow_add]; congr 1; omega
  have e1 : n / 2 ^ lo % 2 ^ (hi + 1 - lo) + 2 ^ (hi + 1 - lo) * (n / 2 ^ (hi + 1)) = n / 2 ^ lo := by
    rw [hp, ← Nat.div_div_eq_div_mul]; exact Nat.mod_add_div _ _
  have e2 : n % 2 ^ lo + 2 ^ lo * (n / 2 ^ lo) = n := Nat.mod_add_div _ _
  have e3 : 2 ^ lo * (n / 2 ^ lo) = 2 ^ lo * (n / 2 ^ lo % 2 ^ (hi + 1 - lo)) + 2 ^ lo * (2 ^ (hi + 1 - lo) * (n / 2 ^ (hi + 1))) := by
    rw [← Nat.mul_add, e1]
  simp only [putBits, bits, Nat.shiftRight_eq_div_pow, Nat.mul_add]
  rw [Nat.mul_comm (n / 2 ^ lo % 2 ^ (hi + 1 - lo)), Nat.mul_comm (v % 2 ^ (hi + 1 - lo)) (2 ^ lo)]
  omega

/-- The bits of a number after a field of it is replaced. -/
theorem putBits_testBit (n hi lo v i : Nat) (h : lo ≤ hi + 1) :
    (putBits n hi lo v).testBit i = if lo ≤ i ∧ i ≤ hi then v.testBit (i - lo) else n.testBit i := by
  rw [putBits_eq n hi lo v h, Nat.testBit_two_pow_mul_add _ (Nat.mod_lt _ (Nat.two_pow_pos lo))]
  by_cases h1 : i < lo
  · rw [if_pos h1, if_neg (by omega), Nat.testBit_mod_two_pow]; simp [h1]
  · rw [if_neg h1, Nat.testBit_two_pow_mul_add _ (Nat.mod_lt _ (Nat.two_pow_pos _))]
    by_cases h2 : i - lo < hi + 1 - lo
    · rw [if_pos h2, if_pos (by omega), Nat.testBit_mod_two_pow]; simp [h2]
    · rw [if_neg h2, if_neg (by omega), Nat.testBit_div_two_pow]; congr 1; omega

/-- The bits of a register after a field of it is replaced. -/
theorem withField_getLsbD (w : Reg) (hi lo v i : Nat) (h : lo ≤ hi + 1) :
    (withField w hi lo v).getLsbD i = (decide (i < 32) && if lo ≤ i ∧ i ≤ hi then v.testBit (i - lo) else w.getLsbD i) := by
  simp only [withField, BitVec.getLsbD_ofNat, putBits_testBit _ _ _ _ _ h]
  rfl

theorem fieldOf_testBit (w : Reg) (hi lo i : Nat) : (fieldOf w hi lo).testBit i = (decide (i < hi + 1 - lo) && w.getLsbD (lo + i)) :=
  bits_testBit _ _ _ _

/-- A field just written. -/
theorem fieldOf_withField_same (w : Reg) (hi lo v : Nat) (hh : hi < 32) (h : lo ≤ hi + 1) :
    fieldOf (withField w hi lo v) hi lo = v % 2 ^ (hi + 1 - lo) := by
  apply Nat.eq_of_testBit_eq
  intro i
  rw [fieldOf_testBit, withField_getLsbD _ _ _ _ _ h, Nat.testBit_mod_two_pow]
  by_cases hi' : i < hi + 1 - lo
  · have : lo ≤ lo + i ∧ lo + i ≤ hi := by omega
    have h32 : lo + i < 32 := by omega
    simp [hi', this, h32]
  · simp [hi']

/-- A field that does not overlap the one written. -/
theorem fieldOf_withField_ne (w : Reg) (hi lo v hi' lo' : Nat) (h : lo ≤ hi + 1) (hd : hi < lo' ∨ hi' < lo) :
    fieldOf (withField w hi lo v) hi' lo' = fieldOf w hi' lo' := by
  apply Nat.eq_of_testBit_eq
  intro i
  rw [fieldOf_testBit, fieldOf_testBit, withField_getLsbD _ _ _ _ _ h]
  by_cases hi2 : i < hi' + 1 - lo'
  · have : ¬ (lo ≤ lo' + i ∧ lo' + i ≤ hi) := by omega
    rw [if_neg this]
    by_cases h32 : lo' + i < 32
    · simp [h32]
    · simp [h32, BitVec.getLsbD_of_ge w (lo' + i) (by omega)]
  · simp [hi2]

/-! ## Registers of the device -/

theorem Dev.rd_wr (d : Dev) (a b : Nat) (v : Reg) : (d.wr a v).rd b = if b = a then v else d.rd b := smapGet_set _ _ _ _

/-- A register after a field of one is set. -/
theorem Dev.rd_set (d : Dev) (f : FRef) (v b : Nat) :
    (d.set f v).rd b = if b = f.off then withField (d.rd f.off) f.hi f.lo v else d.rd b := Dev.rd_wr _ _ _ _

theorem Dev.rd_set_ne (d : Dev) (f : FRef) (v b : Nat) (h : b ≠ f.off) : (d.set f v).rd b = d.rd b := by simp [Dev.rd_set, h]

/-- A field just set. -/
theorem Dev.get_set_same (d : Dev) (f : FRef) (v : Nat) (hh : f.hi < 32) (h : f.lo ≤ f.hi + 1) :
    (d.set f v).get f = v % 2 ^ (f.hi + 1 - f.lo) := by
  simp only [Dev.get, Dev.rd_set, if_true]
  exact fieldOf_withField_same _ _ _ _ hh h

/-- A field that the one set does not overlap. -/
theorem Dev.get_set_ne (d : Dev) (f g : FRef) (v : Nat) (h : f.lo ≤ f.hi + 1) (hd : g.off = f.off → f.hi < g.lo ∨ g.hi < f.lo) :
    (d.set f v).get g = d.get g := by
  simp only [Dev.get, Dev.rd_set]
  by_cases ho : g.off = f.off
  · rw [if_pos ho, fieldOf_withField_ne _ _ _ _ _ _ h (hd ho), ho]
  · rw [if_neg ho]

/-- A bit that the field set does not hold. -/
theorem Dev.rd_set_bit (d : Dev) (f : FRef) (v off i : Nat) (h : f.lo ≤ f.hi + 1) (hd : off = f.off → ¬ (f.lo ≤ i ∧ i ≤ f.hi)) :
    ((d.set f v).rd off).getLsbD i = (d.rd off).getLsbD i := by
  rw [Dev.rd_set]
  by_cases ho : off = f.off
  · rw [if_pos ho, withField_getLsbD _ _ _ _ _ h, if_neg (hd ho), ho]
    by_cases h32 : i < 32
    · simp [h32]
    · simp [h32, BitVec.getLsbD_of_ge (d.rd f.off) i (by omega)]
  · rw [if_neg ho]

end Sys2Proof.Machine
end

