-- ==== Sys2Proof/Laws/State.lean ====
section
/-! SUPPORT. The plain laws of the state: what an update of the device's registers or outputs leaves in each
field (true by unfolding, for simp), and what the wrappers that turn an effect into a state change do. -/

namespace Sys2Proof.Machine

/-! ## Fields of the device after an update -/

@[simp] theorem Dev.wr_code (d : Dev) (a : Nat) (v : Reg) : (d.wr a v).code = d.code := rfl
@[simp] theorem Dev.wr_now (d : Dev) (a : Nat) (v : Reg) : (d.wr a v).now = d.now := rfl
@[simp] theorem Dev.wr_host (d : Dev) (a : Nat) (v : Reg) : (d.wr a v).host = d.host := rfl
@[simp] theorem Dev.wr_out (d : Dev) (a : Nat) (v : Reg) : (d.wr a v).out = d.out := rfl
@[simp] theorem Dev.wr_draws (d : Dev) (a : Nat) (v : Reg) : (d.wr a v).draws = d.draws := rfl
@[simp] theorem Dev.wr_cmd (d : Dev) (a : Nat) (v : Reg) : (d.wr a v).cmd = d.cmd := rfl
@[simp] theorem Dev.wr_hbm (d : Dev) (a : Nat) (v : Reg) : (d.wr a v).hbm = d.hbm := rfl
@[simp] theorem Dev.wr_hif (d : Dev) (a : Nat) (v : Reg) : (d.wr a v).hif = d.hif := rfl
@[simp] theorem Dev.wr_csv (d : Dev) (a : Nat) (v : Reg) : (d.wr a v).csv = d.csv := rfl
@[simp] theorem Dev.wr_tiles (d : Dev) (a : Nat) (v : Reg) : (d.wr a v).tiles = d.tiles := rfl
@[simp] theorem Dev.wr_pipes (d : Dev) (a : Nat) (v : Reg) : (d.wr a v).pipes = d.pipes := rfl
@[simp] theorem Dev.wr_pse (d : Dev) (a : Nat) (v : Reg) : (d.wr a v).pse = d.pse := rfl
@[simp] theorem Dev.wr_pseRem (d : Dev) (a : Nat) (v : Reg) : (d.wr a v).pseRem = d.pseRem := rfl
@[simp] theorem Dev.wr_cfi (d : Dev) (a : Nat) (v : Reg) : (d.wr a v).cfi = d.cfi := rfl
@[simp] theorem Dev.wr_rnd (d : Dev) (a : Nat) (v : Reg) : (d.wr a v).rnd = d.rnd := rfl
@[simp] theorem Dev.wr_wxu (d : Dev) (a : Nat) (v : Reg) : (d.wr a v).wxu = d.wxu := rfl
@[simp] theorem Dev.wr_sec (d : Dev) (a : Nat) (v : Reg) : (d.wr a v).sec = d.sec := rfl
@[simp] theorem Dev.wr_ckpt (d : Dev) (a : Nat) (v : Reg) : (d.wr a v).ckpt = d.ckpt := rfl
@[simp] theorem Dev.wr_tmu (d : Dev) (a : Nat) (v : Reg) : (d.wr a v).tmu = d.tmu := rfl
@[simp] theorem Dev.set_code (d : Dev) (f : FRef) (v : Nat) : (d.set f v).code = d.code := rfl
@[simp] theorem Dev.set_now (d : Dev) (f : FRef) (v : Nat) : (d.set f v).now = d.now := rfl
@[simp] theorem Dev.set_host (d : Dev) (f : FRef) (v : Nat) : (d.set f v).host = d.host := rfl
@[simp] theorem Dev.set_out (d : Dev) (f : FRef) (v : Nat) : (d.set f v).out = d.out := rfl
@[simp] theorem Dev.set_draws (d : Dev) (f : FRef) (v : Nat) : (d.set f v).draws = d.draws := rfl
@[simp] theorem Dev.set_cmd (d : Dev) (f : FRef) (v : Nat) : (d.set f v).cmd = d.cmd := rfl
@[simp] theorem Dev.set_hbm (d : Dev) (f : FRef) (v : Nat) : (d.set f v).hbm = d.hbm := rfl
@[simp] theorem Dev.set_hif (d : Dev) (f : FRef) (v : Nat) : (d.set f v).hif = d.hif := rfl
@[simp] theorem Dev.set_csv (d : Dev) (f : FRef) (v : Nat) : (d.set f v).csv = d.csv := rfl
@[simp] theorem Dev.set_tiles (d : Dev) (f : FRef) (v : Nat) : (d.set f v).tiles = d.tiles := rfl
@[simp] theorem Dev.set_pipes (d : Dev) (f : FRef) (v : Nat) : (d.set f v).pipes = d.pipes := rfl
@[simp] theorem Dev.set_pse (d : Dev) (f : FRef) (v : Nat) : (d.set f v).pse = d.pse := rfl
@[simp] theorem Dev.set_pseRem (d : Dev) (f : FRef) (v : Nat) : (d.set f v).pseRem = d.pseRem := rfl
@[simp] theorem Dev.set_cfi (d : Dev) (f : FRef) (v : Nat) : (d.set f v).cfi = d.cfi := rfl
@[simp] theorem Dev.set_rnd (d : Dev) (f : FRef) (v : Nat) : (d.set f v).rnd = d.rnd := rfl
@[simp] theorem Dev.set_wxu (d : Dev) (f : FRef) (v : Nat) : (d.set f v).wxu = d.wxu := rfl
@[simp] theorem Dev.set_sec (d : Dev) (f : FRef) (v : Nat) : (d.set f v).sec = d.sec := rfl
@[simp] theorem Dev.set_ckpt (d : Dev) (f : FRef) (v : Nat) : (d.set f v).ckpt = d.ckpt := rfl
@[simp] theorem Dev.set_tmu (d : Dev) (f : FRef) (v : Nat) : (d.set f v).tmu = d.tmu := rfl
@[simp] theorem Dev.bump_code (d : Dev) (f : FRef) (n : Nat) : (d.bump f n).code = d.code := rfl
@[simp] theorem Dev.bump_now (d : Dev) (f : FRef) (n : Nat) : (d.bump f n).now = d.now := rfl
@[simp] theorem Dev.bump_host (d : Dev) (f : FRef) (n : Nat) : (d.bump f n).host = d.host := rfl
@[simp] theorem Dev.bump_out (d : Dev) (f : FRef) (n : Nat) : (d.bump f n).out = d.out := rfl
@[simp] theorem Dev.bump_draws (d : Dev) (f : FRef) (n : Nat) : (d.bump f n).draws = d.draws := rfl
@[simp] theorem Dev.bump_cmd (d : Dev) (f : FRef) (n : Nat) : (d.bump f n).cmd = d.cmd := rfl
@[simp] theorem Dev.bump_hbm (d : Dev) (f : FRef) (n : Nat) : (d.bump f n).hbm = d.hbm := rfl
@[simp] theorem Dev.bump_hif (d : Dev) (f : FRef) (n : Nat) : (d.bump f n).hif = d.hif := rfl
@[simp] theorem Dev.bump_csv (d : Dev) (f : FRef) (n : Nat) : (d.bump f n).csv = d.csv := rfl
@[simp] theorem Dev.bump_tiles (d : Dev) (f : FRef) (n : Nat) : (d.bump f n).tiles = d.tiles := rfl
@[simp] theorem Dev.bump_pipes (d : Dev) (f : FRef) (n : Nat) : (d.bump f n).pipes = d.pipes := rfl
@[simp] theorem Dev.bump_pse (d : Dev) (f : FRef) (n : Nat) : (d.bump f n).pse = d.pse := rfl
@[simp] theorem Dev.bump_pseRem (d : Dev) (f : FRef) (n : Nat) : (d.bump f n).pseRem = d.pseRem := rfl
@[simp] theorem Dev.bump_cfi (d : Dev) (f : FRef) (n : Nat) : (d.bump f n).cfi = d.cfi := rfl
@[simp] theorem Dev.bump_rnd (d : Dev) (f : FRef) (n : Nat) : (d.bump f n).rnd = d.rnd := rfl
@[simp] theorem Dev.bump_wxu (d : Dev) (f : FRef) (n : Nat) : (d.bump f n).wxu = d.wxu := rfl
@[simp] theorem Dev.bump_sec (d : Dev) (f : FRef) (n : Nat) : (d.bump f n).sec = d.sec := rfl
@[simp] theorem Dev.bump_ckpt (d : Dev) (f : FRef) (n : Nat) : (d.bump f n).ckpt = d.ckpt := rfl
@[simp] theorem Dev.bump_tmu (d : Dev) (f : FRef) (n : Nat) : (d.bump f n).tmu = d.tmu := rfl
@[simp] theorem Dev.clearReg_code (d : Dev) (a : Nat) : (d.clearReg a).code = d.code := rfl
@[simp] theorem Dev.clearReg_now (d : Dev) (a : Nat) : (d.clearReg a).now = d.now := rfl
@[simp] theorem Dev.clearReg_host (d : Dev) (a : Nat) : (d.clearReg a).host = d.host := rfl
@[simp] theorem Dev.clearReg_out (d : Dev) (a : Nat) : (d.clearReg a).out = d.out := rfl
@[simp] theorem Dev.clearReg_draws (d : Dev) (a : Nat) : (d.clearReg a).draws = d.draws := rfl
@[simp] theorem Dev.clearReg_cmd (d : Dev) (a : Nat) : (d.clearReg a).cmd = d.cmd := rfl
@[simp] theorem Dev.clearReg_hbm (d : Dev) (a : Nat) : (d.clearReg a).hbm = d.hbm := rfl
@[simp] theorem Dev.clearReg_hif (d : Dev) (a : Nat) : (d.clearReg a).hif = d.hif := rfl
@[simp] theorem Dev.clearReg_csv (d : Dev) (a : Nat) : (d.clearReg a).csv = d.csv := rfl
@[simp] theorem Dev.clearReg_tiles (d : Dev) (a : Nat) : (d.clearReg a).tiles = d.tiles := rfl
@[simp] theorem Dev.clearReg_pipes (d : Dev) (a : Nat) : (d.clearReg a).pipes = d.pipes := rfl
@[simp] theorem Dev.clearReg_pse (d : Dev) (a : Nat) : (d.clearReg a).pse = d.pse := rfl
@[simp] theorem Dev.clearReg_pseRem (d : Dev) (a : Nat) : (d.clearReg a).pseRem = d.pseRem := rfl
@[simp] theorem Dev.clearReg_cfi (d : Dev) (a : Nat) : (d.clearReg a).cfi = d.cfi := rfl
@[simp] theorem Dev.clearReg_rnd (d : Dev) (a : Nat) : (d.clearReg a).rnd = d.rnd := rfl
@[simp] theorem Dev.clearReg_wxu (d : Dev) (a : Nat) : (d.clearReg a).wxu = d.wxu := rfl
@[simp] theorem Dev.clearReg_sec (d : Dev) (a : Nat) : (d.clearReg a).sec = d.sec := rfl
@[simp] theorem Dev.clearReg_ckpt (d : Dev) (a : Nat) : (d.clearReg a).ckpt = d.ckpt := rfl
@[simp] theorem Dev.clearReg_tmu (d : Dev) (a : Nat) : (d.clearReg a).tmu = d.tmu := rfl
@[simp] theorem Dev.set2_code (d : Dev) (f g : FRef) (v : Nat) : (d.set2 f g v).code = d.code := rfl
@[simp] theorem Dev.set2_now (d : Dev) (f g : FRef) (v : Nat) : (d.set2 f g v).now = d.now := rfl
@[simp] theorem Dev.set2_host (d : Dev) (f g : FRef) (v : Nat) : (d.set2 f g v).host = d.host := rfl
@[simp] theorem Dev.set2_out (d : Dev) (f g : FRef) (v : Nat) : (d.set2 f g v).out = d.out := rfl
@[simp] theorem Dev.set2_draws (d : Dev) (f g : FRef) (v : Nat) : (d.set2 f g v).draws = d.draws := rfl
@[simp] theorem Dev.set2_cmd (d : Dev) (f g : FRef) (v : Nat) : (d.set2 f g v).cmd = d.cmd := rfl
@[simp] theorem Dev.set2_hbm (d : Dev) (f g : FRef) (v : Nat) : (d.set2 f g v).hbm = d.hbm := rfl
@[simp] theorem Dev.set2_hif (d : Dev) (f g : FRef) (v : Nat) : (d.set2 f g v).hif = d.hif := rfl
@[simp] theorem Dev.set2_csv (d : Dev) (f g : FRef) (v : Nat) : (d.set2 f g v).csv = d.csv := rfl
@[simp] theorem Dev.set2_tiles (d : Dev) (f g : FRef) (v : Nat) : (d.set2 f g v).tiles = d.tiles := rfl
@[simp] theorem Dev.set2_pipes (d : Dev) (f g : FRef) (v : Nat) : (d.set2 f g v).pipes = d.pipes := rfl
@[simp] theorem Dev.set2_pse (d : Dev) (f g : FRef) (v : Nat) : (d.set2 f g v).pse = d.pse := rfl
@[simp] theorem Dev.set2_pseRem (d : Dev) (f g : FRef) (v : Nat) : (d.set2 f g v).pseRem = d.pseRem := rfl
@[simp] theorem Dev.set2_cfi (d : Dev) (f g : FRef) (v : Nat) : (d.set2 f g v).cfi = d.cfi := rfl
@[simp] theorem Dev.set2_rnd (d : Dev) (f g : FRef) (v : Nat) : (d.set2 f g v).rnd = d.rnd := rfl
@[simp] theorem Dev.set2_wxu (d : Dev) (f g : FRef) (v : Nat) : (d.set2 f g v).wxu = d.wxu := rfl
@[simp] theorem Dev.set2_sec (d : Dev) (f g : FRef) (v : Nat) : (d.set2 f g v).sec = d.sec := rfl
@[simp] theorem Dev.set2_ckpt (d : Dev) (f g : FRef) (v : Nat) : (d.set2 f g v).ckpt = d.ckpt := rfl
@[simp] theorem Dev.set2_tmu (d : Dev) (f g : FRef) (v : Nat) : (d.set2 f g v).tmu = d.tmu := rfl
@[simp] theorem Dev.emit_code (d : Dev) (o : Output) : (d.emit o).code = d.code := rfl
@[simp] theorem Dev.emit_now (d : Dev) (o : Output) : (d.emit o).now = d.now := rfl
@[simp] theorem Dev.emit_regs (d : Dev) (o : Output) : (d.emit o).regs = d.regs := rfl
@[simp] theorem Dev.emit_host (d : Dev) (o : Output) : (d.emit o).host = d.host := rfl
@[simp] theorem Dev.emit_draws (d : Dev) (o : Output) : (d.emit o).draws = d.draws := rfl
@[simp] theorem Dev.emit_cmd (d : Dev) (o : Output) : (d.emit o).cmd = d.cmd := rfl
@[simp] theorem Dev.emit_hbm (d : Dev) (o : Output) : (d.emit o).hbm = d.hbm := rfl
@[simp] theorem Dev.emit_hif (d : Dev) (o : Output) : (d.emit o).hif = d.hif := rfl
@[simp] theorem Dev.emit_csv (d : Dev) (o : Output) : (d.emit o).csv = d.csv := rfl
@[simp] theorem Dev.emit_tiles (d : Dev) (o : Output) : (d.emit o).tiles = d.tiles := rfl
@[simp] theorem Dev.emit_pipes (d : Dev) (o : Output) : (d.emit o).pipes = d.pipes := rfl
@[simp] theorem Dev.emit_pse (d : Dev) (o : Output) : (d.emit o).pse = d.pse := rfl
@[simp] theorem Dev.emit_pseRem (d : Dev) (o : Output) : (d.emit o).pseRem = d.pseRem := rfl
@[simp] theorem Dev.emit_cfi (d : Dev) (o : Output) : (d.emit o).cfi = d.cfi := rfl
@[simp] theorem Dev.emit_rnd (d : Dev) (o : Output) : (d.emit o).rnd = d.rnd := rfl
@[simp] theorem Dev.emit_wxu (d : Dev) (o : Output) : (d.emit o).wxu = d.wxu := rfl
@[simp] theorem Dev.emit_sec (d : Dev) (o : Output) : (d.emit o).sec = d.sec := rfl
@[simp] theorem Dev.emit_ckpt (d : Dev) (o : Output) : (d.emit o).ckpt = d.ckpt := rfl
@[simp] theorem Dev.emit_tmu (d : Dev) (o : Output) : (d.emit o).tmu = d.tmu := rfl
@[simp] theorem Dev.emit_out (d : Dev) (o : Output) : (d.emit o).out = o :: d.out := rfl
@[simp] theorem Dev.emit_rd (d : Dev) (o : Output) (a : Nat) : (d.emit o).rd a = d.rd a := rfl
@[simp] theorem Dev.emit_get (d : Dev) (o : Output) (f : FRef) : (d.emit o).get f = d.get f := rfl
@[simp] theorem Dev.when_true (d : Dev) (g : Dev → Dev) : d.when true g = g d := rfl
@[simp] theorem Dev.when_false (d : Dev) (g : Dev → Dev) : d.when false g = d := rfl

/-! ## A command's effect as a state change -/

/-- An effect is all that happens while no codeword has an error to report and no fatal cause waits. -/
theorem Dev.serveFatal_calm {d : Dev} (h : d.csv.fatal = 0) (hn : d.hbm.notes = []) : d.serveFatal = d := by
  simp [Dev.serveFatal, h, hn]

@[simp] theorem State.onDev_pending (s : State) (f : Dev → Dev) : (s.onDev f).pending = s.pending := rfl
@[simp] theorem State.onDev_clock (s : State) (f : Dev → Dev) : (s.onDev f).clock = s.clock := rfl
@[simp] theorem State.onDev_fuses (s : State) (f : Dev → Dev) : (s.onDev f).fuses = s.fuses := rfl

/-- The device after an effect that raises no fatal cause and meets no bad codeword. -/
theorem State.onDev_dev (s : State) (f : Dev → Dev) (h : (f { s.dev with now := s.clock.ns }).csv.fatal = 0)
    (hn : (f { s.dev with now := s.clock.ns }).hbm.notes = []) :
    (s.onDev f).dev = f { s.dev with now := s.clock.ns } := Dev.serveFatal_calm h hn

theorem State.atTile_lt (s : State) {t : Nat} (f : Dev → Dev) (h : t < 200) : s.atTile t f = s.onDev f := by simp [State.atTile, h]
theorem State.atRing_lt (s : State) {r : Nat} (f : Dev → Dev) (h : r < 16384) : s.atRing r f = s.onDev f := by simp [State.atRing, h]

@[simp] theorem State.until_pending (s : State) (t : Nat) : (s.until t).pending = s.pending := by unfold State.until; split <;> rfl
@[simp] theorem State.until_fuses (s : State) (t : Nat) : (s.until t).fuses = s.fuses := by unfold State.until; split <;> rfl
@[simp] theorem State.until_dev (s : State) (t : Nat) : (s.until t).dev = s.dev := by unfold State.until; split <;> rfl
/-- The time base after an event at `t`: `t`, or later when it was there already. -/
@[simp] theorem State.until_ns (s : State) (t : Nat) : (s.until t).clock.ns = max s.clock.ns t := by
  unfold State.until; split
  · simp; omega
  · omega

@[simp] theorem State.atTime_none (s : State) (f : Dev → Dev) : s.atTime none f = s := rfl
@[simp] theorem State.atTime_some (s : State) (t : Nat) (f : Dev → Dev) : s.atTime (some t) f = (s.until t).onDev f := rfl

/-- Memory after reset has its canonical form (R630, log 3). -/
theorem reset_memWf : memWf State.reset.dev.hbm.mem = true := rfl

end Sys2Proof.Machine
end

