-- ==== Sys2Proof/Laws/Effects.lean ====
section
/-! SUPPORT. The shape every statement about one command starts from: an effect in a calm state, an effect named by its
value, and the issue of an instruction by a tile (R256, R266), said once. -/

namespace Sys2Proof.Machine

/-- An effect that leaves no fatal cause and no report of a codeword is the whole change. -/
theorem onDev_calm (s : State) (f : Dev → Dev) (h : (f s.here).csv.fatal = 0) (hn : (f s.here).hbm.notes = []) :
    s.onDev f = { s with dev := f s.here } := by
  simp only [State.onDev, State.here] at *
  rw [Dev.serveFatal_calm h hn]

/-- An effect matters only through what it makes of the device as the command meets it. -/
theorem onDev_eq (s : State) (f : Dev → Dev) (x : Dev) (h : f s.here = x) : s.onDev f = s.onDev (fun _ => x) := by
  subst h; rfl

theorem onDev_congr (s : State) (f g : Dev → Dev) (h : f s.here = g s.here) : s.onDev f = s.onDev g := by
  rw [onDev_eq s f _ h]; rfl

/-- Every row of a tile's program issues by one operation. -/
theorem issueRows_exec {t op : Nat} {x : Instr} (s : State) (h : (x, op) ∈ issueRows t) :
    ∃ f, exec x s = .next (s.atTile t (·.issue t op f)) := by
  simp only [issueRows, List.mem_cons, Prod.mk.injEq, List.not_mem_nil, or_false] at h
  iterate 22 (rcases h with h | h; · rw [h.1, h.2]; simp only [exec_nopInstruction, exec_alu, exec_cmp, exec_plog, exec_aop, exec_jmp,
    exec_loop, exec_mbbegin, exec_mbend, exec_defer, exec_dret, exec_dyield, exec_haltp, exec_mload, exec_mstream, exec_vrun, exec_creset,
    exec_cflush, exec_dma, exec_waitt, exec_waitr, exec_tadd]; exact ⟨_, rfl⟩)
  rw [h.1, h.2, exec_rel]; exact ⟨_, rfl⟩

/-- Another instruction, or a tile that does not run (R256). -/
theorem issue_other {s : State} {t op : Nat} {d : Dev} {c : Bool} {w : Nat} (f : Dev → Bool → Nat → Issued) (ht : t < 200) (hd : d = s.here.pump t)
    (hc : c = d.ctx t) (hw : w = smapGet zeroDflt (d.tile t).prog (d.pc t c))
    (h : iOp w ≠ op ∨ d.get (CMD.SEQ_STATE.STATE t) ≠ tsRUNNING ∨ d.get (CMD.SEQ_PROG.COUNT t) ≤ d.pc t c) :
    s.atTile t (·.issue t op f) = s.onDev (fun _ => d) := by
  rw [State.atTile, if_pos ht]
  apply onDev_eq
  simp only [Dev.issue, ← hd, ← hc, ← hw]
  rw [if_pos]; rcases h with h | h | h <;> simp [h]

/-- The issue of an instruction whose conditions hold is its own effect (R256, R266). -/
theorem issue_tile {s : State} {t op : Nat} {d : Dev} {c : Bool} {w : Nat} (h : Issues s t op d c w) (f : Dev → Bool → Nat → Issued) :
    s.atTile t (·.issue t op f) = s.onDev (fun _ => match f d c w with
      | .ok e => issued e t c
      | .stall e => e.bump (CMD.SEQ_STALL.COUNT t) 1
      | .halt st info => d.haltTile t st info ⟨d.pc t c, c, 0, if op / 32 = 1 then iArray w else 0⟩ []) := by
  obtain ⟨ht, hd, hc, hw, hop, hr, hpc, hh, hm, hrt, hp, htl⟩ := h
  rw [State.atTile, if_pos ht]
  apply onDev_eq
  simp only [Dev.issue, ← hd, ← hc, ← hw]
  rw [if_neg (by simp [hr, hop]; omega)]
  rw [if_neg (by cases c <;> simp_all)]
  rw [if_neg (by simpa using hp)]
  rw [if_neg (by
    by_cases hx : iSig w = true ∨ op = 0x80 ∨ op = 0x82
    · simp [htl hx]
    · simp only [not_or] at hx; simp [hx])]
  rfl

/-- The command at the head of those in flight that its state serves needs no dispatch. -/
theorem enter_head {s : State} {o : Origin} {opc : Nat} {ops : Bytes} (h : AtHead s o opc ops) : s.here.enter opc o ops = (s.here, some 0) := by
  obtain ⟨⟨f, rest, hl, hf⟩, hs⟩ := h
  have hs' : s.here.serves o opc = true := hs
  simp only [Dev.enter, State.here_cmd, hl, hs', List.any_cons, hf, Bool.true_or, if_true, List.findIdx?_cons]
  simp

/-- The command at the head of those in flight is the one that runs (R55, R71). -/
theorem command_head {s : State} {o : Origin} {opc : Nat} {ops : Bytes} (h : AtHead s o opc ops) (eff : Dev → Dev × Answer) :
    s.here.command opc o ops eff = match eff s.here with
      | (d, .now r) => d.finish o opc r
      | (d, .later r g rs) => d.hold r g rs
      | (d, .unit rs) => d.toUnit rs := by
  rw [Dev.command, enter_head h]; rfl

theorem command_now {s : State} {o : Origin} {opc : Nat} {ops : Bytes} {eff : Dev → Dev × Answer} {d : Dev} {r : Result} (h : AtHead s o opc ops)
    (he : eff s.here = (d, .now r)) : s.here.command opc o ops eff = d.finish o opc r := by rw [command_head h, he]

theorem command_later {s : State} {o : Origin} {opc : Nat} {ops : Bytes} {eff : Dev → Dev × Answer} {d : Dev} {r : Result} {g : Gate}
    {rs : List (Nat × Nat)} (h : AtHead s o opc ops) (he : eff s.here = (d, .later r g rs)) : s.here.command opc o ops eff = d.hold r g rs := by
  rw [command_head h, he]

theorem command_unit {s : State} {o : Origin} {opc : Nat} {ops : Bytes} {eff : Dev → Dev × Answer} {d : Dev} {rs : List (Nat × Nat)}
    (h : AtHead s o opc ops) (he : eff s.here = (d, .unit rs)) : s.here.command opc o ops eff = d.toUnit rs := by rw [command_head h, he]

/-- A PSE command at the head that may run and answers with a refusal completes at once (R386). -/
theorem pse_now {s : State} {o : Origin} {ops : Bytes} {j opc : Nat} {r : Result} {d : Dev} (h : AtHead s o opc ops) (hj : j = s.dev.jobOf o)
    (hw : (s.dev.pseUnit j).mustWait (s.dev.ckHolds j) (s.dev.pseBusy j) opc = false) (hd : s.here.pseDo j opc o ops = (d, some r)) (hr : r.status ≠ 0) :
    s.here.pseRun opc o ops = ((d.finish o opc r).pseDrain j).kick := by
  unfold Dev.pseRun
  rw [command_now h (d := d) (r := r), State.here_jobOf, hj]
  unfold Dev.pseCommand
  simp only [State.here_jobOf, State.here_pseUnit, State.here_ckHolds, State.here_pseBusy, ← hj, hw, hd]
  simp [hr]

/-- One that answers OK holds its result for COMMAND_COMPLETION. -/
theorem pse_later {s : State} {o : Origin} {ops : Bytes} {j opc : Nat} {r : Result} {d : Dev} (h : AtHead s o opc ops) (hj : j = s.dev.jobOf o)
    (hw : (s.dev.pseUnit j).mustWait (s.dev.ckHolds j) (s.dev.pseBusy j) opc = false) (hd : s.here.pseDo j opc o ops = (d, some r)) (hr : r.status = 0) :
    s.here.pseRun opc o ops = ((d.hold r .ready (s.here.pseCovers j opc ops)).pseDrain j).kick := by
  unfold Dev.pseRun
  rw [command_later h (d := d) (r := r) (g := .ready) (rs := s.here.pseCovers j opc ops), State.here_jobOf, hj]
  unfold Dev.pseCommand
  simp only [State.here_jobOf, State.here_pseUnit, State.here_ckHolds, State.here_pseBusy, ← hj, hw, hd]
  simp [hr]

/-- One that a later event ends waits for its unit. -/
theorem pse_unit {s : State} {o : Origin} {ops : Bytes} {j opc : Nat} {d : Dev} (h : AtHead s o opc ops) (hj : j = s.dev.jobOf o)
    (hw : (s.dev.pseUnit j).mustWait (s.dev.ckHolds j) (s.dev.pseBusy j) opc = false) (hd : s.here.pseDo j opc o ops = (d, none)) :
    s.here.pseRun opc o ops = ((d.toUnit (s.here.pseCovers j opc ops)).pseDrain j).kick := by
  unfold Dev.pseRun
  rw [command_unit h (d := d) (rs := s.here.pseCovers j opc ops), State.here_jobOf, hj]
  unfold Dev.pseCommand
  simp only [State.here_jobOf, State.here_pseUnit, State.here_ckHolds, State.here_pseBusy, ← hj, hw, hd]
  simp

end Sys2Proof.Machine
end

