-- ==== Sys2Proof/Laws/Step.lean ====
section
/-! SUPPORT. Said once: what any command can do to the state (`exec_change`), and the consequences that every
claim over all commands starts from. -/

namespace Sys2Proof.Machine

/-- The ways a command changes the state: not at all, by an effect on the device, by one at a time the time base
has reached, by one that may move the time base on, by one that may blow fuses, or by a reset. -/
inductive Change (fuse reset : Bool) (s : State) : State → Prop where
  | same : Change fuse reset s s
  | onDev (f : Dev → Dev) : Change fuse reset s (s.onDev f)
  | atTime (t : Nat) (f : Dev → Dev) : Change fuse reset s ((s.until t).onDev f)
  | onTime (f : Dev → Dev) : Change fuse reset s (s.onTime f)
  | onFuses (h : fuse = true) (f : Dev → Dev) : Change fuse reset s (s.onFuses f)
  | onReset (h : reset = true) (f : Dev → Dev) (hf : (f s.dev).csv.fatal = 0 ∧ (f s.dev).hbm.notes = []) : Change fuse reset s (s.onReset f)

theorem change_atTile (fuse reset : Bool) (s : State) (t : Nat) (f : Dev → Dev) : Change fuse reset s (s.atTile t f) := by
  unfold State.atTile; split
  · exact .onDev f
  · exact .same

theorem change_atRing (fuse reset : Bool) (s : State) (r : Nat) (f : Dev → Dev) : Change fuse reset s (s.atRing r f) := by
  unfold State.atRing; split
  · exact .onDev f
  · exact .same

theorem change_atTime (fuse reset : Bool) (s : State) (t : Option Nat) (f : Dev → Dev) : Change fuse reset s (s.atTime t f) := by
  cases t with
  | none => exact .same
  | some t => exact .atTime t f

/-! A fold keeps what each of its steps keeps. -/

theorem Dev.each_keep {α β : Type} (p : Dev → β) (g : Dev → α → Dev) (hg : ∀ d x, p (g d x) = p d) (xs : List α) :
    ∀ d : Dev, p (d.each xs g) = p d := by
  induction xs with
  | nil => exact fun d => rfl
  | cons x xs ih => exact fun d => (ih (g d x)).trans (hg d x)

theorem Dev.reloadSums_keep {β : Type} (p : Dev → β) (hs : ∀ (d : Dev) f v, p (d.set f v) = p d)
    (hc : ∀ (d : Dev) a b c, p { d with csv.sums := a, csv.reviews := b, csv.dueNow := c } = p d) (d : Dev) :
    p d.reloadSums = p d :=
  (Dev.each_keep p _ (fun d x => by rw [hs, hs]) _ _).trans (hc d _ _ _)

theorem Dev.reloadSums_fatal (d : Dev) : d.reloadSums.csv.fatal = d.csv.fatal :=
  Dev.reloadSums_keep (fun d => d.csv.fatal) (fun _ _ _ => rfl) (fun _ _ _ _ => rfl) d

theorem Dev.reloadSums_notes (d : Dev) : d.reloadSums.hbm.notes = d.hbm.notes :=
  Dev.reloadSums_keep (fun d => d.hbm.notes) (fun _ _ _ => rfl) (fun _ _ _ _ => rfl) d

/-- A reset leaves nothing to serve. -/
theorem Dev.warmReset_calm (d : Dev) (cause : Nat) : (d.warmReset cause).csv.fatal = 0 ∧ (d.warmReset cause).hbm.notes = [] :=
  ⟨Dev.reloadSums_fatal _, Dev.reloadSums_notes _⟩
theorem Dev.coldReset_calm (d : Dev) : d.coldReset.csv.fatal = 0 ∧ d.coldReset.hbm.notes = [] :=
  ⟨Dev.reloadSums_fatal _, Dev.reloadSums_notes _⟩

theorem change_agentWrite (fuse : Bool) (hf : fuse = true) (s : State) (who : Agent) (off : Nat) (v : Reg) :
    Change fuse (who == .host && off == HIF.RESET_CTL.REG.off) s (s.agentWrite who off v) := by
  unfold State.agentWrite
  split
  · exact .onFuses hf _
  · split
    · rename_i h
      cases who with
      | host =>
        dsimp only
        split
        · exact .onReset (by simp [h]) _ (Dev.warmReset_calm _ _)
        · exact .same
      | core c => exact .same
    · exact .onDev _

theorem change_portAccess (s : State) (a : DbgAccess) : Change true false s (s.portAccess a) := by
  cases a with
  | reg off v => exact change_agentWrite true rfl s (.core 0) off v
  | memWrite flat bs => exact .onDev (·.store flat bs)
  | memRead flat n => exact .onDev (fun d => (d.flatRead flat n).1.emit (.data (d.flatRead flat n).2))

/-- What a command can do. -/
theorem exec_change (c : Instr) (s : State) : ∃ t, exec c s = .next t ∧ Change (mayBlowFuse c) (mayReset c) s t := by
  cases c
  case perstAssert =>
    refine ⟨_, rfl, ?_⟩
    dsimp only
    split
    · exact .onReset rfl _ (Dev.warmReset_calm _ _)
    · exact .onDev _
  case flrFunction0 late =>
    refine ⟨_, rfl, ?_⟩
    split
    · exact .onReset rfl _ (Dev.warmReset_calm _ _)
    · exact .onDev _
  case warmReset bs =>
    refine ⟨_, rfl, ?_⟩
    split
    · exact .onReset rfl _ (Dev.warmReset_calm _ _)
    · exact .same
  case registerWrite who off v =>
    refine ⟨_, rfl, ?_⟩
    have h := change_agentWrite true rfl s who off v
    cases who <;> exact h
  case debugPortWrite a =>
    refine ⟨_, rfl, ?_⟩
    split
    · exact .same
    · split
      · exact .onDev _
      · exact change_portAccess s a
  case tdmaErrorClear tile ch =>
    refine ⟨_, rfl, ?_⟩
    split
    · exact change_atTile _ _ _ _ _
    · exact .same
  case commandCompletion k =>
    refine ⟨_, rfl, ?_⟩
    split
    · exact .onFuses rfl _
    · exact .onDev _
  case fragmentSend slot =>
    refine ⟨_, rfl, ?_⟩
    split
    · exact .atTime _ _
    · exact .onDev _
  all_goals first
    | exact ⟨_, rfl, .onDev _⟩
    | exact ⟨_, rfl, change_atTile _ _ _ _ _⟩
    | exact ⟨_, rfl, change_atTime _ _ _ _ _⟩
    | exact ⟨_, rfl, change_atRing _ _ _ _ _⟩
    | exact ⟨_, rfl, .onTime _⟩
    | exact ⟨_, rfl, .onFuses rfl _⟩
    | exact ⟨_, rfl, .onReset rfl _ (Dev.coldReset_calm _)⟩
    | exact ⟨_, rfl, .onReset rfl _ (Dev.warmReset_calm _ _)⟩

end Sys2Proof.Machine
end

