-- ==== Sys2Proof/WellFormed.lean ====
section
/-! DEFINITION. Which commands name things the device has: ring, tile, tally, port and slot numbers in range, packets of
a whole number of entries, and payloads of the length their row has. A command outside it is not refused by its meaning
(a name the device does not have is a command that changes nothing); nothing the interfaces carry is outside it. -/

namespace Sys2Proof

/-- The host, or one of the 4 control cores (R65, R81). -/
def Agent.wf : Agent → Bool
  | .host => true
  | .core c => decide (c < 4)

/-- The mailbox, or one of the 16,384 rings (R51); what the packet header's fields hold (R44); flag bits 7:5 are 0 (R45). -/
def Origin.wf (o : Origin) : Bool :=
  (match o.chan with | .mailbox => true | .ring r => decide (r < 16384)) &&
    decide (o.seqTag < 2 ^ 32 ∧ o.flags < 32 ∧ o.signal < 65536)

/-- The operands of a packet of 1 to 16 entries of 64 bytes, after its first 16 bytes (R44); the mailbox carries 48 bytes
of them (R70). -/
def okOps (o : Origin) (ops : Bytes) : Bool :=
  match o.chan with
  | .mailbox => ops.length == 48
  | .ring _ => ops.length % 64 == 48 && decide (ops.length ≤ 1008)

/-- A 32-bit register's offset in BAR0 (R10). -/
def okOff (off : Nat) : Bool := off % 4 == 0 && decide (off < 0x4000000)

/-- A frame a port accepts (R391, R475). -/
def okFrame (bs : Bytes) : Bool := decide (bs.length ≤ 9216)

/-- Settings a configuration request may carry (R627). -/
def ConfigReq.wf : ConfigReq → Bool
  | .resizeBar2 n => decide (28 ≤ n ∧ n ≤ 36)
  | _ => true

/-- A debug-port access (R617): a register, or bytes below 2^48. -/
def DbgAccess.wf : DbgAccess → Bool
  | .reg off _ => okOff off
  | .memWrite flat bs => decide (flat + bs.length ≤ 2 ^ 48)
  | .memRead flat n => decide (flat + n ≤ 2 ^ 48)

/-- The field widths of a message of IEEE 1588 (R578). -/
def PtpMsg.wf (m : PtpMsg) : Bool :=
  decide (m.port < 65536 ∧ m.seq < 65536 ∧ m.domain < 256 ∧ m.clockId < 2 ^ 64 ∧ m.priority1 < 256 ∧ m.clockClass < 256 ∧
    m.accuracy < 256 ∧ m.variance < 65536 ∧ m.priority2 < 256 ∧ m.stepsRemoved < 65536)

/-- The command's operands are in range. -/
def WellFormed : Instr → Bool
  | .coldReset | .perstAssert | .perstDeassert | .resetCtlWarm | .flrFunction0 .. | .flrFunction1 | .pllLock | .refclkLost | .timeLoRead
  | .mboxDoorbell .. | .mboxHeldServe | .commandCompletion .. | .eventHoldDelivery | .rehangResume | .fragmentDrained .. | .rotateQuantum
  | .overcommitDecrease | .overcommitIncrease | .entropyFail | .referenceLoss | .holdoverLimit | .ppsInEdge .. | .ppsMissing | .ppsOutRise
  | .ppsOutFall | .faultRingRetire .. | .handleMinExpiry .. | .loanBoundary | .loanCopyComplete | .loanDeferralExpiry | .replayCompare ..
  | .secondReplayTimeout | .flashSummaryWrite | .powerClampEval .. | .thermalTrip | .rstdaa | .getpid | .getbcr | .getdcr | .getstatus | .getmwl
  | .getmrl | .readTelemetry | .readState | .extest | .idcode | .samplePreload .. | .highz | .clamp | .dbg | .bypass | .pwrgdDeassert
  | .entropyTestsPassing | .testLogicReset => true
  | .bootRomStart trained => decide (trained < 2 ^ 12)
  | .configRequest fn rq => rq.wf && decide (fn < 2)
  | .bar2Read x n => decide (0 < n ∧ x + n ≤ 2 ^ 36)
  | .bar2Write x bs => decide (0 < bs.length ∧ x + bs.length ≤ 2 ^ 36)
  | .msixTableWrite fn off _ => okOff off && decide (fn < 2)
  | .registerWrite who off _ => who.wf && okOff off
  | .readClearRegister off | .debugPortRead off => okOff off
  | .capPopRead input => decide (input < 5)
  | .mboxRegisterWrite off _ => okOff off
  | .ringTailDoorbell r _ | .ringHeadWrite r _ => decide (r < 16384)
  | .ringErrorClear r | .packetDispatch r | .completionOverdue r => decide (r < 16384)
  | .tallyAddWrite t _ | .tallyValueWrite t _ => decide (t < 65536)
  | .nop o ops | .queryDevice o ops | .ringCreate o ops | .ringDestroy o ops | .tallyAlloc o ops | .tallyFree o ops | .fwLoad o ops | .fwRehang o ops
  | .jobCreate o ops | .jobDestroy o ops | .eventRingBind o ops | .map o ops | .unmap o ops | .invalidate o ops | .copy o ops | .fill o ops
  | .hostDma o ops | .progLoad o ops | .stageMap o ops | .pipelineStart o ops | .microbatchAdmit o ops | .pipelineDrain o ops | .tileHalt o ops
  | .pseConfig o ops | .stepUpdate o ops | .normGuardCfg o ops | .sealCmd o ops | .outerApply o ops | .rolloutCopy o ops | .digest o ops
  | .groupCreate o ops | .groupDestroy o ops | .reduceScatter o ops | .allGather o ops | .permute o ops | .groupReserve o ops | .roundConfig o ops
  | .roundOpen o ops | .partnerAdd o ops | .partnerRemove o ops | .epochCommit o ops | .loanCopySend o ops | .keyGenerate o ops | .handshake o ops
  | .keyDestroy o ops | .attest o ops | .storageTargetAdd o ops | .ckptWrite o ops | .ckptRead o ops | .snapshot o ops | .timeConfig o ops
  | .timerArm o ops | .timerCancel o ops | .captureCfg o ops | .loanPolicy o ops | .marginSweep o ops | .faultHistoryRead o ops | .telemetryCfg o ops
  | .dumpRead o ops | .debugUnlock o ops | .coreHalt o ops | .coreResume o ops | .regRead o ops => o.wf && okOps o ops
  | .wdogPet c | .watchdogExpiry c | .coreHaltGrant c | .haltForced c => decide (c < 4)
  | .weakPageMove pfn => decide (pfn < 12 * 32768)
  | .hbmPatrolScrub stack | .hbmStackFailed stack => decide (stack < 12)
  | .passDelivery tile | .pipelineStageFault tile | .seqCtrlHalt tile | .seqCtrlResume tile | .seqCtrlUnload tile | .nopInstruction tile | .alu tile
  | .cmp tile | .plog tile | .aop tile | .jmp tile | .loop tile | .mbbegin tile | .mbend tile | .defer tile | .dret tile | .dyield tile | .haltp tile
  | .contextSwitch tile | .mload tile | .mstream tile | .codecFaultRetry tile | .vrun tile | .creset tile | .cflush tile | .dma tile | .waitt tile
  | .waitr tile | .tadd tile | .rel tile | .panelRowTake tile | .commitMarker tile | .abortMarker tile | .commitBufferRelease tile
  | .vrunStarvedTake tile | .sevenArraySwitch tile | .tileRemap tile | .loanDue tile | .spmScrub tile => decide (tile < 200)
  | .replaySelect tile a | .mloadTransfer tile a | .mstreamStart tile a | .streamCommit tile a | .expanderBlockFault tile a => decide (tile < 200 ∧ a < 8)
  | .instructionComplete tile _ | .mxaMapWrite tile _ => decide (tile < 200)
  | .bankStarved tile bank requester => decide (tile < 200 ∧ bank < 32 ∧ requester < 16)
  | .regionDescriptorWrite tile off _ => okOff off && decide (tile < 200)
  | .remoteRegionWrite tile region line => decide (tile < 200 ∧ region < 64 ∧ line.length = 128)
  | .descriptorStart tile ch | .descriptorComplete tile ch | .descriptorDataFault tile ch | .tdmaErrorClear tile ch => decide (tile < 200 ∧ ch < 4)
  | .applyBoundary job | .ownPackageGather job => decide (job < 65536)
  | .collectiveComplete slot | .groupTimeout slot => decide (slot < 256)
  | .cfiData port bs | .cfiAck port bs | .cfiReady port bs | .cfiGrant port bs | .cfiCredit port bs => okFrame bs && decide (port < 16)
  | .cfiAckTimer peer cls => decide (peer < 65536 ∧ cls < 2)
  | .cfiRetxTimer peer cls psn => decide (peer < 65536 ∧ cls < 2 ∧ psn < 2 ^ 32)
  | .cfiRateIncrease peer => decide (peer < 65536)
  | .linkSlotSend pipe link | .linkSlotSent pipe link => decide (pipe < 65536 ∧ link < 65536)
  | .cellPortDown port | .cellPortUp port | .roceInboundRequest port => decide (port < 16)
  | .pfcPause port mask quanta => decide (port < 16 ∧ mask < 256 ∧ quanta < 65536)
  | .neighborSolicitation port bs | .echoRequest port bs => okFrame bs && decide (port < 20)
  | .cellFrameDiscard port _ => decide (port < 16)
  | .roceAck qp psn | .roceNak qp psn => decide (qp < 64 ∧ psn < 2 ^ 24)
  | .roceRnrNak qp psn _ => decide (qp < 64 ∧ psn < 2 ^ 24)
  | .roceReadResponse qp psn bs => decide (qp < 64 ∧ psn < 2 ^ 24 ∧ bs.length ≤ 4096)
  | .roceCnp qp | .roceRetryTimer qp | .roceRnrWaitExpiry qp => decide (qp < 64)
  | .decisionDeadline job acc => decide (job < 65536 ∧ acc < 2 ^ 32)
  | .farFrameArrival port bs | .arpRequest port bs => okFrame bs && decide (port < 4)
  | .cipherOpenComplete pair | .cipherSealComplete pair => decide (pair < 32)
  | .fragmentSend slot | .txpAckTimer slot | .gapNackTimer slot | .probeIdle slot | .partnerSilent slot | .wantTimer slot | .creditTimer slot
  | .pacingIncrease slot | .quarantineExpiry slot | .helloResend slot | .handshakeRetry slot | .handshakeTimeout slot | .previousKeyErase slot
  | .leaverTimeout slot => decide (slot < 4096)
  | .txpRetxTimer slot dseq | .fullNackDelay slot dseq => decide (slot < 4096 ∧ dseq < 2 ^ 32)
  | .slotWindowWrite slot _ => decide (slot < 4096)
  | .farPortDown port | .farPortUp port => decide (port < 4)
  | .packetTooBig port mtu slot => decide (port < 4 ∧ mtu < 65536 ∧ slot < 4096)
  | .farFrameDiscard port _ => decide (port < 4)
  | .cipherSealRequest r | .cipherOpenRequest r => decide (r.queue < 3) && (r.req.isEmpty || r.req.length == 64)
  | .pkKeygen core | .pkHkdf core | .pkOperationComplete core => decide (core < 4)
  | .pkScalarmult a => decide (a.core < 4 ∧ a.scalar.length = 48 ∧ a.point.length = 97)
  | .pkEcdh a => decide (a.core < 4 ∧ a.slot < 1024 ∧ a.input.length = 97)
  | .pkSign a => decide (a.core < 4 ∧ a.slot < 1024 ∧ a.input.length = 48)
  | .pkVerify a => decide (a.core < 4 ∧ a.point.length = 97 ∧ a.digest.length = 48 ∧ a.sig.length = 96)
  | .pkValidate a => decide (a.core < 4 ∧ a.point.length = 97)
  | .fuseRevoke who _ | .tclkDivWrite who _ => who.wf
  | .timerExpiry t => decide (t < 1024)
  | .ptpSync m | .ptpFollowUp m | .ptpDelayResp m | .ptpAnnounce m => m.wf
  | .captureEdge input _ => decide (input < 5)
  | .tclkDividerStep wing => decide (wing < 4)
  | .suspicionDecay unit => decide (unit < 65536)
  | .reviewTestComplete unit _ => decide (unit < 65536)
  | .fieldTestComplete tile signature => decide (tile < 200 ∧ signature < 2 ^ 32)
  | .laneRetrain port => decide (port < 20)
  | .telemetrySample sample => decide (sample.length = 128)
  | .debugPortWrite a => a.wf
  | .thermalClampEval temps => decide (temps.length = 4)
  | .railOutOfTolerance rail | .railInTolerance rail => decide (rail < 11)
  | .entdaa a | .setdasa a => decide (a < 128)
  | .enec events | .disec events => decide (events < 256)
  | .setmwl n | .setmrl n => decide (n < 65536)
  | .rstact action => decide (action < 256)
  | .setPwrLimit bs | .warmReset bs => decide (bs.length = 2)
  | .readSummary bs => decide (bs.length = 3)
  | .flashWrite bs => decide (bs.length = 260)
  | .flashCommit bs => decide (bs.length = 4)
  | .pcieLinkTrained width speed => decide (width ∈ [1, 2, 4, 8, 16] ∧ 1 ≤ speed ∧ speed ≤ 6)

end Sys2Proof
end

