-- ==== Sys2Proof/Tests/Slice0.lean ====
section
/-! SUPPORT. Tests: an ill-formed command for each check of `WellFormed`, which the check refuses; and, for the
statements of Certificates/Slice0/Obligations.lean, states and operands that meet their hypotheses (`witness_…`). -/

namespace Sys2Proof.Tests

open Sys2Proof Sys2Proof.Machine

/-! ## WellFormed -/

/-- A command by ring 16 without flags. -/
def ring16 : Origin := ⟨.ring 16, 7, 0, 0⟩

/-- A command by the mailbox. -/
def mbox : Origin := ⟨.mailbox, 0, 0, 0⟩

/-- A PTP message whose fields fit. -/
def ptp : PtpMsg := ⟨1, false, 5, 1000, 0, 2000, 0, 9, 128, 6, 0x21, 1, 128, 0⟩

theorem test_wf_accepts : ∀ c ∈ [Instr.nop ring16 (zeros 48), .nop mbox (zeros 48), .copy ring16 (zeros 112), .bar2Read 0 64, .registerWrite (.core 3) 0x40 1,
    .ringTailDoorbell 16383 0, .tallyAddWrite 65535 1, .alu 199, .fuseRevoke .host 0, .ptpSync ptp, .thermalClampEval [0, -1, 0, 0],
    .flashWrite (zeros 260), .debugPortWrite (.memRead 0 8), .remoteRegionWrite 0 63 (zeros 128)], WellFormed c = true := by decide +kernel

theorem test_wf_refuses_packets : ∀ c ∈ [Instr.nop { ring16 with chan := .ring 16384 } (zeros 48), .nop { ring16 with seqTag := 2 ^ 32 } (zeros 48),
    .nop { ring16 with flags := 32 } (zeros 48), .nop { ring16 with signal := 65536 } (zeros 48), .nop ring16 (zeros 47), .nop ring16 (zeros 1072),
    .map mbox (zeros 112)], WellFormed c = false := by decide +kernel

theorem test_wf_refuses_registers : ∀ c ∈ [Instr.registerWrite (.core 4) 0 0, .registerWrite .host 2 0, .readClearRegister 0x4000000, .debugPortRead 1,
    .mboxRegisterWrite 3 0, .msixTableWrite 2 0x10000 0, .msixTableWrite 0 1 0, .capPopRead 5, .ringTailDoorbell 16384 0, .ringHeadWrite 16384 0,
    .ringErrorClear 16384, .tallyAddWrite 65536 0, .tallyValueWrite 65536 0, .fuseRevoke (.core 9) 0, .tclkDivWrite (.core 9) 0, .slotWindowWrite 4096 0,
    .regionDescriptorWrite 200 0 0, .regionDescriptorWrite 0 1 0, .mxaMapWrite 200 0, .debugPortWrite (.reg 1 0), .debugPortWrite (.memWrite (2 ^ 48) [0]),
    .debugPortWrite (.memRead (2 ^ 48) 1)], WellFormed c = false := by decide +kernel

theorem test_wf_refuses_host : ∀ c ∈ [Instr.configRequest 2 .readId, .configRequest 0 (.resizeBar2 37), .configRequest 0 (.resizeBar2 27), .bar2Read 0 0,
    .bar2Read (2 ^ 36) 1, .bar2Write 0 [], .bar2Write (2 ^ 36) [1], .bootRomStart 4096, .railInTolerance 11, .railOutOfTolerance 11, .pcieLinkTrained 3 1,
    .pcieLinkTrained 16 7, .entdaa 128, .setdasa 128, .enec 256, .disec 256, .setmwl 65536, .setmrl 65536, .rstact 256, .setPwrLimit [1], .warmReset [1],
    .readSummary [1], .flashWrite [1], .flashCommit [1], .thermalClampEval [0]], WellFormed c = false := by decide +kernel

theorem test_wf_refuses_units : ∀ c ∈ [Instr.packetDispatch 16384, .completionOverdue 16384, .wdogPet 4, .watchdogExpiry 4, .coreHaltGrant 4, .haltForced 4,
    .weakPageMove 393216, .hbmPatrolScrub 12, .hbmStackFailed 12, .applyBoundary 65536, .ownPackageGather 65536, .decisionDeadline 0 (2 ^ 32),
    .collectiveComplete 256, .groupTimeout 256, .timerExpiry 1024, .captureEdge 5 true, .tclkDividerStep 4, .suspicionDecay 65536,
    .reviewTestComplete 65536 true, .fieldTestComplete 0 (2 ^ 32), .laneRetrain 20, .telemetrySample [], .cipherSealRequest ⟨3, []⟩, .cipherSealRequest ⟨2, [1]⟩, .cipherOpenRequest ⟨3, []⟩,
    .cipherOpenComplete 32, .cipherSealComplete 32, .pkSign ⟨4, 0, zeros 48⟩, .pkSign ⟨0, 1024, zeros 48⟩, .pkSign ⟨0, 0, []⟩, .pkOperationComplete 4, .pkKeygen 4, .pkHkdf 4,
    .pkScalarmult ⟨0, zeros 47, zeros 97⟩, .pkEcdh ⟨0, 1024, zeros 97⟩, .pkVerify ⟨0, zeros 97, zeros 48, zeros 95⟩, .pkValidate ⟨0, zeros 96⟩, .ptpSync { ptp with domain := 256 }], WellFormed c = false := by decide +kernel

theorem test_wf_refuses_tiles : ∀ c ∈ [Instr.alu 200, .mload 200, .passDelivery 200, .mloadTransfer 0 8, .streamCommit 200 0, .replaySelect 0 8, .replaySelect 200 0,
    .instructionComplete 200 0, .bankStarved 0 32 0, .bankStarved 0 0 16, .remoteRegionWrite 0 64 (zeros 128), .remoteRegionWrite 0 0 (zeros 64),
    .descriptorStart 0 4, .tdmaErrorClear 0 4, .sevenArraySwitch 200, .loanDue 200, .spmScrub 200], WellFormed c = false := by decide +kernel

theorem test_wf_refuses_ports : ∀ c ∈ [Instr.cfiData 16 [], .cfiAck 0 (zeros 9217), .cfiAckTimer 0 2, .cfiRetxTimer 0 0 (2 ^ 32), .cfiRateIncrease 65536,
    .linkSlotSend 65536 0, .linkSlotSent 0 65536, .cellPortDown 16, .cellPortUp 16, .roceInboundRequest 16, .pfcPause 0 256 0, .neighborSolicitation 20 [],
    .echoRequest 20 [], .cellFrameDiscard 16 .fcs, .roceAck 64 0, .roceNak 0 (2 ^ 24), .roceRnrNak 64 0 0, .roceReadResponse 0 0 (zeros 4097), .roceCnp 64,
    .roceRetryTimer 64, .roceRnrWaitExpiry 64, .farFrameArrival 4 [], .arpRequest 4 [], .fragmentSend 4096, .txpRetxTimer 4096 0, .fullNackDelay 0 (2 ^ 32),
    .farPortDown 4, .farPortUp 4, .packetTooBig 0 65536 0, .farFrameDiscard 4 .fcs], WellFormed c = false := by decide +kernel

/-! ## Witnesses: states and operands that meet the statements' hypotheses -/

set_option Elab.async false

/-- Packet bytes 16–63 (or more) with fields written in: offset, size, value. -/
def opsOf (n : Nat) (fs : List (Nat × Nat × Nat)) : Bytes :=
  fs.foldl (fun bs f => bs.take (f.1 - 16) ++ leBytes f.2.1 f.2.2 ++ bs.drop (f.1 - 16 + f.2.1)) (zeros n)

/-- Bytes with fields written in. -/
def bytesOf (n : Nat) (fs : List (Nat × Nat × Nat)) : Bytes :=
  fs.foldl (fun bs f => bs.take f.1 ++ leBytes f.2.1 f.2.2 ++ bs.drop (f.1 + f.2.1)) (zeros n)

/-- The state after reset of the device with 12 stacks, changed by `f`. -/
def st (f : Dev → Dev) : State := { State.reset with dev := f { State.reset.dev with code := .m12x2 } }

/-- The same with the curator firmware running. -/
def run (f : Dev → Dev) : State := st fun d => f (d.set CMD.CURATOR_STATE.STATE curRUNNING)

/-- A state with a command at the head of those in flight. -/
def flying (o : Origin) (opc : Nat) (ops : Bytes) (s : State) : State :=
  { s with dev := { s.dev with cmd.inflight := [⟨o, opc, ops, s.dev.jobOf o, [], .ready, none, 0⟩] } }

/-- A state at time `ns`. -/
def at_ (ns : Nat) (s : State) : State := { s with clock := ⟨ns, 0⟩ }

/-- A ring in host memory: its kind, its completion ring and its owner, with 64 entries at `base`. -/
def ring (r kind cq owner base : Nat) (d : Dev) : Dev :=
  d.ringMake r (opsOf 48 [(16, 8, base), (24, 1, 6), (25, 1, kind), (28, 2, cq), (30, 2, owner)])

/-- Job 1, in domain 1, with a submission ring 16, a completion ring 17 and an event ring 18. -/
def job1 (d : Dev) : Dev :=
  ring 16 0 17 1 0x1000 (ring 17 1 0 1 0x3000 (ring 18 2 0 1 0x5000 (d.setJob 1 (some ⟨1, 0, none⟩))))

/-- A command by ring 16 at the head of those in flight, for job 1, on a device changed by `f`. -/
def cmd (opc : Nat) (ops : Bytes) (f : Dev → Dev) : State := flying ring16 opc ops (run (f ∘ job1))

theorem atHead {s : State} {o : Origin} {opc : Nat} {ops : Bytes}
    (h : ((match s.dev.cmd.inflight with | f :: _ => f.isFor o opc ops | [] => false) && s.dev.serves o opc) = true) : AtHead s o opc ops := by
  unfold AtHead
  cases hs : s.dev.cmd.inflight with
  | nil => simp [hs] at h
  | cons f rest => rw [hs] at h; simp only [Bool.and_eq_true] at h; exact ⟨⟨f, rest, rfl, h.1⟩, h.2⟩

theorem calm {s : State} (h : (s.dev.csv.fatal == 0 && s.dev.hbm.notes == []) = true) : Calm s := by
  simp only [Bool.and_eq_true, beq_iff_eq] at h; exact h

theorem okOf {α ε β : Type} (p : α × Except ε β) (h : (match p.2 with | .ok _ => true | .error _ => false) = true) : ∃ a b, p = (a, .ok b) := by
  match p, h with
  | (a, .ok b), _ => exact ⟨a, b, rfl⟩

theorem noneOf {α β : Type} (p : α × Option β) (h : p.2.isNone = true) : ∃ a, p = (a, none) := by
  match p, h with
  | (a, none), _ => exact ⟨a, rfl⟩

/-- A device with bytes written into its memory. -/
def memAt (a : Nat) (bs : Bytes) (d : Dev) : Dev := { d with hbm.mem := memWrite d.hbm.mem a bs }

/-- Logical tile 0 as the one stage of pipeline 0, for job 1. -/
def pmap : PipeMap := ⟨0, 1, 8, 0, 4, 1, 5, [(0, 0)], []⟩

/-- Pipeline 0 in a state, with its tallies its job's. -/
def pipe0 (st : Nat) (d : Dev) : Dev :=
  ((d.each (List.range 4) (fun d i => d.tallyGive i (some 1))).setPipe 0 ⟨some pmap, [], [], [], []⟩).set (CMD.PIPE_STATE.STATE 0) st

/-- A PSE configuration of one entry at 0x8000, and its table entry: 64 weights, gradients and first moments. -/
def pseCfg (hostOuter : Bool) : PseJob :=
  ⟨9, 0x8000, 1, false, false, false, hostOuter, false, 0, 0, 0, 0, 0, 0, 0, 0, 0, [0, 0, 0], 0, 0, 0⟩

def pseEnt : Bytes := bytesOf 128 [(0, 4, 1), (5, 1, 1), (8, 6, 64), (20, 6, 64), (32, 6, 0x10000), (40, 6, 0x11000), (48, 6, 0x12000)]

/-- Job 1 with that configuration. -/
def psed (hostOuter : Bool) (d : Dev) : Dev := (memAt 0x8000 pseEnt d).onPse 1 (fun u => { u with cfg := some (pseCfg hostOuter) })

/-- A group of this device alone. -/
def group1 (q : List Coll) : Group := ⟨false, [0], 1, 0, 0x400000, 0, q, [], 0⟩

/-- A job's round configuration over group 3. -/
def roundCfg : RoundCfg := ⟨1, 4, 1, 100, false, false, 12, false, 3, 0, 0, []⟩

/-- Tile 3 RUNNING a program of 4 words with `w` at its PC. -/
def tile3 (w : Nat) (f : Tile → Tile) (d : Dev) : Dev :=
  ((d.onTile 3 (fun x => f { x with prog := smapSet zeroDflt [] 0 w })).set (CMD.SEQ_STATE.STATE 3) tsRUNNING).set (CMD.SEQ_PROG.COUNT 3) 4

/-- The device, context and word of an issue by a tile. -/
def pumped (s : State) : Dev := s.here.pump 3
def wordAt (s : State) : Nat := smapGet zeroDflt ((pumped s).tile 3).prog ((pumped s).pc 3 ((pumped s).ctx 3))

theorem issues {s : State} {op : Nat} (h : (iOp (wordAt s) == op && (pumped s).get (CMD.SEQ_STATE.STATE 3) == tsRUNNING && !(pumped s).ctx 3 &&
    decide ((pumped s).pc 3 false < (pumped s).get (CMD.SEQ_PROG.COUNT 3)) && !((pumped s).tile 3).issueHeld false && !((pumped s).tile 3).mbHold &&
    iPred (wordAt s) == 0 && !iPneg (wordAt s) && ((!iSig (wordAt s) && op != 0x80 && op != 0x82) ||
      (pumped s).tallyOwned (insTally ((pumped s).tile 3) false (wordAt s)) ((pumped s).tileJob 3))) = true) : Issues s 3 op (pumped s) false (wordAt s) := by
  simp only [Bool.and_eq_true, beq_iff_eq, Bool.not_eq_true', decide_eq_true_eq, Bool.or_eq_true, bne_iff_ne] at h
  obtain ⟨⟨⟨⟨⟨⟨⟨⟨h1, h2⟩, h3⟩, h4⟩, h5⟩, h6⟩, h7⟩, h8⟩, h9⟩ := h
  refine ⟨by decide, rfl, h3.symm, ?_, h1, h2, h4, h5, fun _ => h6, fun h => by simp at h, ?_, fun h => ?_⟩
  · unfold wordAt; rw [h3]
  · rw [h7, h8]; simp [Tile.rp]
  · rcases h9 with ⟨⟨a, b⟩, c⟩ | h9
    · rcases h with h | h | h
      · rw [a] at h; simp at h
      · exact absurd h b
      · exact absurd h c
    · exact h9

/-- A cell port, and a far port, up. -/
def cellOn (p : Nat) (d : Dev) : Dev := (d.set (CFI.PORT_STATE.UP p) 1).set (CFI.PORT_STATE.ENABLE p) 1
def farOn (p : Nat) (d : Dev) : Dev := (d.set (WXU.FAR_STATE.UP p) 1).set (WXU.FAR_STATE.ENABLE p) 1

/-- Pipeline 0 RUNNING on tile 3, for job 1, with tallies 0 to 3. -/
def pipe3 (d : Dev) : Dev :=
  ((d.each (List.range 4) (fun d i => d.tallyGive i (some 1))).setPipe 0 ⟨some { pmap with stages := [(d.rank, d.logical 3)] }, [], [], [], []⟩).set (CMD.PIPE_STATE.STATE 0) psRUNNING

/-- The state in which tile 3 runs a program with `w` at its PC. -/
def tst (w : Nat) (f : Tile → Tile) (g : Dev → Dev) : State := run fun d => g (tile3 w f (pipe3 (job1 d)))

theorem witness_IdleTicks : (st id).pending = [] := rfl

theorem witness_NoFatalCauseWaits : Calm (st id) ∧ ∃ t, step (st id) = .next t := ⟨⟨rfl, rfl⟩, _, rfl⟩

theorem witness_FusesStayBlown : FusesOk (st id).fuses ∧ mayBlowFuse (.nop ring16 []) = false ∧ ∃ t, step (st id) = .next t :=
  ⟨⟨by decide +kernel, by decide +kernel⟩, rfl, _, rfl⟩

theorem witness_TimeGoesForward : (∀ c ∈ (st id).pending.head?, mayReset c = false) ∧ (st id).clock.frac < 2 ^ 32 ∧ ∃ t, step (st id) = .next t :=
  ⟨by decide +kernel, by decide +kernel, _, rfl⟩

theorem witness_Resets : ∀ x ∈ [(Instr.perstAssert, 1), (.resetCtlWarm, 2), (.registerWrite .host HIF.RESET_CTL.REG.off 1, 2),
    (.warmReset [0x52, 0x57], 3), (.flrFunction0 true, 4)], warmCause x.1 (st (fun d => { d with hif.pwrgd := true, hif.perst := false })) = some x.2 := by decide +kernel

theorem witness_FlrOfFunction0 : Calm (run id) ∧ (run id).dev.curator = curRUNNING := ⟨calm (by decide +kernel), by decide +kernel⟩

theorem witness_Pins : Calm (st (·.set TMU.STATE.PLL_LOCKED 1)) ∧ (st (·.set TMU.STATE.PLL_LOCKED 1)).dev.get TMU.STATE.PLL_LOCKED = 1 ∧
    16 ∈ [1, 2, 4, 8, 16] ∧ 10 < 11 ∧ (st id).dev.hif.jtag.ir ∉ [0x00, 0x03, 0x04] := ⟨calm (by decide +kernel), by decide +kernel⟩

/-- The reset device with the PLL locked, and one whose boot ROM has started an image from slot B. -/
theorem witness_BootRom :
    (∀ s, s = st (·.set TMU.STATE.PLL_LOCKED 1) → Calm s ∧ s.dev.curator = curROM ∧ s.dev.get TMU.STATE.PLL_LOCKED ≠ 0 ∧
      s.dev.get SEC.STATE.DIK_LOADED = 0 ∧ s.dev.hif.booting = none ∧ imageParts (s.dev.flashRd false) = none) ∧
    (∀ s, s = st (fun d => { d with hif.booting := some true, cmd.staged := some ⟨1, 0, 0, 0, 0, 0, []⟩ }.set CMD.CURATOR_STATE.STATE curLOADING) →
      Calm s ∧ s.dev.hif.booting = some true ∧ s.dev.cmd.staged = some ⟨1, 0, 0, 0, 0, 0, []⟩ ∧ s.dev.curator = curLOADING) := by
  refine ⟨?_, ?_⟩ <;> rintro s rfl <;> exact ⟨calm (by decide +kernel), by decide +kernel⟩

theorem witness_ClampEvaluations : Calm (st id) ∧ 12 * tdp (st id).dev.code < 10 * 20000 ∧ (st id).dev.powerLimit < 20000 ∧
    100 * ((st id).dev.get HIF.THERM_CTL.CLAMP_C : Int) < 12000 ∧ (0 : Int) ≤ 100 * ((st id).dev.get HIF.THERM_CTL.CLAMP_C : Int) :=
  ⟨calm (by decide +kernel), by decide +kernel⟩

/-- A target with and without a dynamic address, a summary kept in flash, a block within a slot; and PWRGD low. -/
theorem witness_ManagementPorts :
    (∀ s, s = st (fun d => { d with hif.pwrgd := true, csv.fatals := [[1, 2]] }) → Calm s ∧ s.dev.hif.i3c.dynAddr = none ∧ s.dev.hif.pwrgd = true ∧
      s.dev.csv.fatals[le (zeros 3) 0 1]? = some [1, 2] ∧ le (zeros 260) 0 4 < 0x2000000 ∧ s.dev.hif.committed ≠ some s.dev.spareSlot ∧
      s.dev.hif.perst = true ∧ imageParts (s.dev.flashRd s.dev.spareSlot) = none) ∧
    (∀ s, s = st (fun d => { d with hif.pwrgd := false, hif.perst := false, hif.i3c.dynAddr := some 9 }) →
      Calm s ∧ s.dev.hif.pwrgd = false ∧ s.dev.hif.perst = false ∧ s.dev.hif.i3c.dynAddr = some 9) := by
  refine ⟨?_, ?_⟩ <;> rintro s rfl <;> exact ⟨calm (by decide +kernel), by decide +kernel⟩

theorem witness_RegisterWrites : Calm (st id) ∧ (portAbsent (st id).dev.code HIF.PWR_LIMIT.REG.off = false) ∧
    (∃ r k, findReg HIF.PWR_LIMIT.REG.off = some (r, k) ∧ mayWrite .host r.writer = true ∧ r.base ∉ effectRegs) ∧
    (∃ r k, findReg CMD.CURATOR_STATE.REG.off = some (r, k)) ∧ findReg 0x3FFFFFC = none :=
  ⟨calm (by decide +kernel), by decide +kernel, ⟨_, _, rfl, by decide +kernel⟩, ⟨_, _, rfl⟩, by decide +kernel⟩

theorem witness_ClearingReads : Calm (st id) ∧ (∃ r k, findReg (CFI.PORT_RX.REG 3).off = some (r, k)) ∧
    ((st (fun d => d.setCap 2 { d.cap 2 with fifo := [5, 6] })).dev.cap 2).fifo = [5, 6] ∧ ((st id).dev.cap 4).fifo = [] :=
  ⟨calm (by decide +kernel), ⟨_, _, rfl⟩, by decide +kernel⟩
/-- In ROM BAR2 is flat and its first bytes are readable; a running device has a domain of 0, which refuses every request. -/
theorem witness_HostRequests :
    Calm (st id) ∧ portAbsent (st id).dev.code 0x10000 = false ∧ (∃ r k, findReg 0x10000 = some (r, k) ∧ r.base ∉ effectRegs) ∧
    (st id).dev.curator = curROM ∧ ((st id).here.readSegs [(0, 4)]).2 = none ∧
    (∀ s, s = st (fun d => { d with hif.perst := false, hif.msixEn1 := true, hif.fn1 := [(0x18000, 1)] }) →
      s.dev.hif.perst = false ∧ s.dev.hif.msixEn1 = true ∧ s.dev.hif.msixMask1 = false ∧ s.dev.fn1Rd 0x18000 = BitVec.ofNat 32 (2 ^ 0) ∧
      s.clock.ns < s.dev.hif.perstAt + 20000000) ∧
    (∃ d1, (run id).here.bar2Segs 1 0 4 = (d1, none)) ∧ (∃ d1, (run id).here.bar2Segs 2 0 4 = (d1, none)) ∧ 0 + 4 ≤ 2 ^ (st id).dev.hif.bar2Log2 := by
  refine ⟨calm (by decide +kernel), by decide +kernel, ⟨_, _, rfl, by decide +kernel⟩, by decide +kernel, by decide +kernel, ?_, noneOf _ (by decide +kernel),
    noneOf _ (by decide +kernel), by decide +kernel⟩
  rintro s rfl; decide +kernel

theorem witness_DebugPort : ∀ l ∈ [0, 1, 3], ∀ s, s = st (fun d => { d with hif.jtag.ir := 0x10 }.set CSV.DBG_STATE.LEVEL l) →
    s.dev.dbgSelected = true ∧ s.dev.dbgLevel = l ∧ (s.here.readSegs [(64, 8)]).2 = none ∧ Calm s := by
  intro l hl s hs
  have h : s.dev.dbgSelected = true ∧ s.dev.dbgLevel = l ∧ (s.here.readSegs [(64, 8)]).2 = none ∧ (s.dev.csv.fatal == 0 && s.dev.hbm.notes == []) = true := by
    subst hs; revert l; decide +kernel
  exact ⟨h.1, h.2.1, h.2.2.1, calm h.2.2.2⟩

/-- A mailbox with no command, one with a command that is PENDING, one that holds a command in LOADING, and one that holds it in RUNNING. -/
theorem witness_Mailbox :
    Calm (run id) ∧ (run id).dev.get CMD.MBOX_RESULT.STATUS ≠ 1 ∧ (run (·.set CMD.MBOX_RESULT.STATUS 1)).dev.get CMD.MBOX_RESULT.STATUS = 1 ∧
    mboxAllows curRUNNING 0x0001 = true ∧ mboxAllows curRUNNING 0x0301 = false ∧
    (∀ cur ∈ [curLOADING, curRUNNING], ∀ m, m = (⟨0x0001, zeros 48, true⟩ : MboxCmd) →
      (run (fun d => { d with cmd.mbox := some m }.set CMD.CURATOR_STATE.STATE cur)).dev.cmd.mbox = some m ∧
      (run (fun d => { d with cmd.mbox := some m }.set CMD.CURATOR_STATE.STATE cur)).dev.curator = cur) := by
  refine ⟨calm (by decide +kernel), by decide +kernel, by decide +kernel, by decide +kernel, by decide +kernel, ?_⟩
  rintro cur hc m rfl; exact ⟨rfl, by revert cur; decide +kernel⟩

/-- Rings 16 and 17 with 64 entries: a tail of 5 is in reach of the empty ring, and one of 64 lies outside it. -/
theorem witness_RingPointers : ∀ s, s = run job1 → Calm s ∧ s.dev.ringOn 16 0 = true ∧ s.dev.ringOn 17 1 = true ∧ s.dev.ringOn 18 2 = true ∧
    5 < s.dev.ringCount 16 ∧ lapDiff (s.dev.ringCount 16) (s.dev.ringTail 16) 5 ≤ s.dev.ringCount 16 - s.dev.ringUsed 16 ∧ ¬ (64 < s.dev.ringCount 16) ∧
    lapDiff (s.dev.ringCount 17) (s.dev.ringHead 17) 0 ≤ s.dev.ringUsed 17 ∧
    s.dev.get (QSU.RING_HEAD.INDEX 16) < s.dev.ringCount 16 ∧ s.dev.get (QSU.RING_TAIL.INDEX 16) < s.dev.ringCount 16 := by
  rintro s rfl; exact ⟨calm (by decide +kernel), by decide +kernel⟩

/-- A tally at its top value, and a write that takes a tally with an interrupt past its threshold. -/
theorem witness_Tallies : ∀ s, s = run (fun d => ((d.set (QSU.TALLY_VALUE.VALUE 3) (2 ^ 32 - 1)).set (QSU.TALLY_IRQ.THRESHOLD 4) 7).set (QSU.TALLY_CFG.IRQ_EN 4) 1) →
    Calm s ∧ 2 ^ 32 ≤ s.dev.get (QSU.TALLY_VALUE.VALUE 3) + (5 : Reg).toNat % 65536 ∧ s.dev.get (QSU.TALLY_VALUE.VALUE 4) + (5 : Reg).toNat % 65536 < 2 ^ 32 ∧
    s.dev.flag (QSU.TALLY_CFG.IRQ_EN 4) = true ∧ s.dev.get (QSU.TALLY_VALUE.VALUE 4) < s.dev.get (QSU.TALLY_IRQ.THRESHOLD 4) ∧
    s.dev.get (QSU.TALLY_IRQ.THRESHOLD 4) ≤ (9 : Reg).toNat := by
  rintro s rfl; exact ⟨calm (by decide +kernel), by decide +kernel⟩

/-- Class 1 bound to ring 18, class 2 to none; and a record held for ring 18, with and without dropped ones. -/
theorem witness_Events :
    (∀ d, d = (run (fun d => (job1 d).bindClasses 18 2)).dev → d.evRing (0x0108 / 256) = some 18 ∧ 0 < d.ringFree 18 ∧ d.evWaiting 18 = false ∧
      d.get (QSU.RING_CFG.LOC 18) = 0 ∧ d.ringCount 18 ≤ 2 ^ 20 ∧ d.evRing (0x0215 / 256) = none ∧ d.cmd.evHold.length < 1024 ∧ 2 ≤ d.ringFree 18) ∧
    (∀ n ∈ [0, 3], ∀ s, s = run (fun d => { (job1 d).bindClasses 18 2 with cmd.evHold := [⟨0, 0x0108, 0, 0, []⟩], cmd.evDropped := n }) →
      s.dev.cmd.evHold = [⟨0, 0x0108, 0, 0, []⟩] ∧ s.dev.evRing (0x0108 / 256) = some 18 ∧ s.dev.cmd.evDropped = n ∧ 2 ≤ s.dev.ringFree 18) := by
  refine ⟨?_, ?_⟩
  · rintro d rfl; decide +kernel
  · rintro n hn s rfl; refine ⟨rfl, ?_, rfl, ?_⟩ <;> (revert n; decide +kernel)

theorem witness_CompletionRecord : ∀ d, d = (run job1).dev → ring16.chan = .ring 16 ∧ d.get (QSU.RING_PAIR.CQ 16) = 17 ∧ d.ringOn 16 0 = true ∧ d.ringOn 17 1 = true ∧
    d.get (QSU.RING_CFG.LOC 17) = 0 ∧ ring16.flags.testBit 1 = false ∧ ring16.flags.testBit 3 = false ∧ (⟨.ring 16, 7, 16, 0⟩ : Origin).flags.testBit 4 = true := by
  rintro d rfl; decide +kernel

/-- A NOP packet at the head of ring 16, and one whose header is bad; a completion ring that is full since time 5. -/
theorem witness_PacketsDispatchAndComplete :
    (∀ w ∈ [[1, 0, 0, 1], [1, 0, 0, 0], [0xFF, 0, 0, 1]], ∀ s, s = run (fun d => { (job1 d).setTail 16 1 with host := memWrite [] 0x1000 (w ++ zeros 60) }) →
      s.dev.get (QSU.RING_PAIR.CQ 16) = 17 ∧ s.dev.ringOn 16 0 = true ∧ s.dev.ringOn 17 1 = true ∧ s.dev.curator = curRUNNING ∧
      s.dev.flag (QSU.RING_STATUS.ERROR 16) = false ∧ s.dev.ringStopped 16 = false ∧ s.dev.ringUsed 16 ≠ 0 ∧
      (match (s.here.readEntry 16 (s.dev.get (QSU.RING_HEAD.INDEX 16))).2 with
        | .ok h => decide (h.length = 64 ∧ (headerBad h = 0 ↔ w ≠ [1, 0, 0, 0]) ∧ s.here.packetTallies 16 h = true ∧ (s.here.waitSlot 16 h).2 = true ∧
            (pkFlags h).testBit 2 = false ∧ s.here.ringFree 17 ≠ 0 ∧ (opcodeKnown (pkOpcode h) = true ↔ w ≠ [0xFF, 0, 0, 1]))
        | .error _ => false) = true) ∧
    (∀ s, s = run (fun d => { (job1 d).setTail 17 64 with cmd.fullSince := smapSet fullDflt [] 17 (some (5, false)) }) →
      s.dev.ringOn 17 1 = true ∧ s.dev.ringFree 17 = 0 ∧ s.dev.fullSince 17 = some (5, false)) := by
  refine ⟨?_, ?_⟩
  · rintro w hw s rfl; revert w; decide +kernel
  · rintro s rfl; decide +kernel

/-- Free numbers, good operands and a bound ring for each management command. -/
theorem witness_ManagementCommands :
    AtHead (cmd 0x0001 (zeros 48) id) ring16 0x0001 (zeros 48) ∧
    (∀ ops, ops = opsOf 48 [(16, 1, 5)] → AtHead (cmd 0x0009 ops id) ring16 0x0009 ops ∧ freeRun (cmd 0x0009 ops id).dev.jobNumbers 1 65536 1 = some 2 ∧
      opnd ops 16 1 ≠ 0 ∧ opndZero ops 17 7 = true) ∧
    (∀ ops, ops = opsOf 48 [(16, 2, 18), (18, 2, 6)] → AtHead (cmd 0x000B ops id) ring16 0x000B ops ∧ (cmd 0x000B ops id).dev.ringOn (opnd ops 16 2) 2 = true ∧
      (opnd ops 18 2).testBit 0 = false ∧ opnd ops 18 2 < 1024) ∧
    (∀ ops, ops = opsOf 48 [(16, 4, 3), (20, 2, 1)] → AtHead (cmd 0x0005 ops id) ring16 0x0005 ops ∧ 0 < opnd ops 16 4 ∧ opnd ops 16 4 ≤ 4096 ∧
      ((cmd 0x0005 ops id).dev.job (opnd ops 20 2)).isSome ∧ freeRun (cmd 0x0005 ops id).dev.usedTallies 0 65536 (opnd ops 16 4) = some 0) ∧
    (∀ ops f, ops = opsOf 48 [(16, 2, 0), (18, 2, 2)] → f = (fun d : Dev => (d.tallyGive 0 (some 1)).tallyGive 1 (some 1)) → AtHead (cmd 0x0006 ops f) ring16 0x0006 ops ∧
      ∀ t ∈ (List.range (opnd ops 18 2)).map (opnd ops 16 2 + ·), t < 65536 ∧ (cmd 0x0006 ops f).dev.tallyUsed t = true) ∧
    (∀ loc ∈ [0, 1], ∀ ops, ops = opsOf 48 [(16, 8, 0x7000), (24, 1, 6), (25, 1, 2), (26, 1, loc), (30, 2, 1)] →
      (match (cmd 0x0003 ops id).dev.cmd.inflight with | f :: _ => f.isFor ring16 0x0003 ops | [] => false) = true ∧
      (cmd 0x0003 ops id).dev.ringOperandsOk ops = true ∧ freeRun (cmd 0x0003 ops id).dev.usedRings 16 16384 1 = some 19 ∧
      (match ((cmd 0x0003 ops id).here.xlate (qsuAcc 2 1) (opnd ops 16 8) (64 * 2 ^ opnd ops 24 1)).2 with | .ok _ => true | .error _ => false) = true) := by
  refine ⟨atHead (by decide +kernel), ?_, ?_, ?_, ?_, ?_⟩
  · rintro ops rfl; exact ⟨atHead (by decide +kernel), by decide +kernel⟩
  · rintro ops rfl; exact ⟨atHead (by decide +kernel), by decide +kernel⟩
  · rintro ops rfl; exact ⟨atHead (by decide +kernel), by decide +kernel⟩
  · rintro ops f rfl rfl; exact ⟨atHead (by decide +kernel), by decide +kernel⟩
  · rintro loc hl ops rfl; revert loc; decide +kernel

/-- A ring that a RING_DESTROY walks, a job that no other job's ring completes into, and commands that COMMAND_COMPLETION can complete. -/
theorem witness_DestroyCommands :
    (∀ r ∈ [16, 17, 18, 20], ∀ ops, ops = opsOf 48 [(16, 2, r)] → AtHead (cmd 0x0004 ops id) ring16 0x0004 ops ∧ opnd ops 16 2 = r) ∧
    (cmd 0x0004 [] id).dev.ringOn 16 0 = true ∧ (cmd 0x0004 [] id).dev.ringOn 18 2 = true ∧ (cmd 0x0004 [] id).dev.flag (QSU.RING_CFG.ENABLE 20) = false ∧
    (∀ ops, ops = opsOf 48 [(16, 2, 1)] → AtHead (cmd 0x000A ops id) ring16 0x000A ops ∧ ((cmd 0x000A ops id).dev.job (opnd ops 16 2)).isSome ∧
      ∀ q ∈ (cmd 0x000A ops id).dev.usedRings, (cmd 0x000A ops id).dev.ringOn q 0 = true → (cmd 0x000A ops id).dev.get (QSU.RING_PAIR.OWNER q) = 1) ∧
    (∀ g ∈ [Gate.ready, .ringDestroy 16, .jobDestroy 1, .invalidate 0 1], ∀ f, f = (⟨ring16, 4, [], 1, [], g, some (okR 0), 0⟩ : InFlight) →
      ∀ s, s = run (fun d => { job1 d with cmd.inflight := [f] }) → s.dev.cmd.inflight[0]? = some f ∧ s.dev.curator = curRUNNING ∧ s.dev.ringUsed 16 = 0 ∧
        (s.here.gateOver 0 f).2 = true) := by
  refine ⟨?_, by decide +kernel, by decide +kernel, by decide +kernel, ?_, ?_⟩
  · rintro r hr ops rfl; refine ⟨atHead ?_, ?_⟩ <;> (revert r; decide +kernel)
  · rintro ops rfl; exact ⟨atHead (by decide +kernel), by decide +kernel⟩
  · rintro g hg f rfl s rfl; refine ⟨rfl, ?_, ?_, ?_⟩ <;> (revert g; decide +kernel)
/-- No image in memory passes its checks; an image that has passed them, staged for a start, for a handoff and under REHANG. -/
theorem witness_FirmwareCommands :
    (∀ opc ∈ [0x0007, 0x0008], AtHead (cmd opc (zeros 48) id) ring16 opc (zeros 48) ∧ (cmd opc [] id).dev.stackFailed 0 = false ∧ (cmd opc [] id).dev.rehanging = false ∧
      (cmd opc [] id).dev.curator = curRUNNING ∧ (cmd opc [] id).dev.get CSV.DBG_STATE.HALTED = 0 ∧ ∃ d1 rd, (cmd opc [] id).here.imageAt ring16 (zeros 48) = (d1, .ok rd)) ∧
    (∀ g ∈ [Gate.start, .rehang], ∀ f, f = (⟨ring16, 8, [], 1, [], g, some (okR 0), 0⟩ : InFlight) → ∀ cur ∈ [curLOADING, curRUNNING, curREHANG],
      ∀ s, s = run (fun d => { d with cmd.inflight := [f], cmd.staged := some ⟨1, 0, 0, 0, 0, 0, []⟩ }.set CMD.CURATOR_STATE.STATE cur) →
      s.dev.cmd.inflight[0]? = some f ∧ f.gate = g ∧ s.dev.cmd.staged = some ⟨1, 0, 0, 0, 0, 0, []⟩ ∧ s.dev.curator = cur ∧ (f.gate = .rehang → f.curators = false)) := by
  refine ⟨?_, ?_⟩
  · intro opc ho
    refine ⟨atHead ?_, ?_, ?_, ?_, ?_, okOf _ ?_⟩ <;> (revert opc; decide +kernel)
  · rintro g hg f rfl cur hc s rfl; refine ⟨rfl, rfl, rfl, ?_, ?_⟩ <;> (revert g cur; decide +kernel)

theorem witness_WatchdogsAndRootRevocation :
    ∀ s, s = run (fun d => { d with cmd.image := some ⟨1, 0, 0, 3, 0, 1, []⟩ }) → Calm s ∧ FusesOk s.fuses ∧ s.dev.csv.stalled.contains 0 = false ∧
      s.dev.curator = curRUNNING ∧ s.dev.get CSV.DBG_STATE.HALTED = 0 ∧ (∀ k < 4, (s.dev.get SEC.FW_ROOT_REVOKED.MASK).testBit k = s.fuses.revoked.testBit k) ∧
      s.dev.get SEC.FW_SVN.COUNT ≤ s.fuses.svn ∧ s.dev.cmd.image = some ⟨1, 0, 0, 3, 0, 1, []⟩ ∧ (∀ k < 4, (5 : Reg).getLsbD k = true → k < 3) ∧
      (run id).dev.cmd.image = none := by
  rintro s rfl; exact ⟨calm (by decide +kernel), ⟨by decide +kernel, by decide +kernel⟩, by decide +kernel⟩

theorem witness_MemoryKeepsWhatIsWritten : memWf (memWrite [] 5 [1, 2]) = true ∧ memWf (st id).dev.hbm.mem = true ∧
    (∀ g ∈ flatSegs 128 64, (st id).dev.flatFailed g.1 = false) ∧ 128 + 64 ≤ memBytes (st id).dev.code := by decide +kernel

/-- With the catalogue off every range translates to itself; MAP, UNMAP and INVALIDATE of the job's domain. -/
theorem witness_MemoryCommands :
    (∀ ops, ops = opsOf 112 [(16, 8, 0x200000), (24, 4, 1), (28, 2, 7), (30, 1, 1), (36, 1, 0xFF)] → AtHead (cmd 0x0101 ops id) ring16 0x0101 ops ∧
      (cmd 0x0101 ops id).here.mapCheck 1 ops = none ∧ (mapOps ops).replace = false) ∧
    (∀ ops, ops = opsOf 48 [(16, 8, 0x200000), (24, 4, 1)] → AtHead (cmd 0x0102 ops id) ring16 0x0102 ops ∧ AtHead (cmd 0x0103 ops id) ring16 0x0103 ops ∧
      pagesOk (opnd ops 16 8) (opnd ops 24 4) = true ∧ pagesOk 5 1 = false) ∧
    (∀ ops, ops = opsOf 48 [(16, 8, 0x200000), (24, 8, 0x400000), (32, 8, 8)] → AtHead (cmd 0x0104 ops id) ring16 0x0104 ops ∧ AtHead (cmd 0x0106 ops id) ring16 0x0106 ops ∧
      rangeOk (opnd ops 16 8) (opnd ops 32 8) = true ∧ rangeOk (opnd ops 24 8) (opnd ops 32 8) = true ∧ opnd ops 40 1 = 0 ∧
      (∃ d1 src, (cmd 0x0104 ops id).here.tryXlate (cmdAcc 1 1) (opnd ops 16 8) (opnd ops 32 8) = (d1, .ok src)) ∧
      ((cmd 0x0104 ops id).here.readSegs [(0x200000, 8)]).2 = none ∧ (cmd 0x0104 ops id).here.segFailed 0 [(0x400000, 8)] = none) ∧
    (∀ ops, ops = opsOf 48 [(16, 8, 0x200000), (24, 8, 8), (36, 1, 1)] → AtHead (cmd 0x0105 ops id) ring16 0x0105 ops ∧ rangeOk (opnd ops 16 8) (opnd ops 24 8) = true ∧
      opnd ops 36 1 ∈ [1, 2, 4] ∧ ∃ d1 segs, (cmd 0x0105 ops id).here.xlate (cmdAcc 2 1) (opnd ops 16 8) (opnd ops 24 8) = (d1, .ok segs)) := by
  refine ⟨?_, ?_, ?_, ?_⟩
  · rintro ops rfl; exact ⟨atHead (by decide +kernel), by decide +kernel, by decide +kernel⟩
  · rintro ops rfl; exact ⟨atHead (by decide +kernel), atHead (by decide +kernel), by decide +kernel⟩
  · rintro ops rfl
    exact ⟨atHead (by decide +kernel), atHead (by decide +kernel), by decide +kernel, by decide +kernel, by decide +kernel, okOf _ (by decide +kernel), by decide +kernel,
      by decide +kernel⟩
  · rintro ops rfl
    exact ⟨atHead (by decide +kernel), by decide +kernel, by decide +kernel, okOf _ (by decide +kernel)⟩

theorem witness_ControllerWork :
    (∀ s, s = run (fun d => { d with hbm.scrub := smapSet scrubDflt [] 3 ⟨0, 1, false⟩ }) → Calm s ∧ s.dev.stackFailed 3 = false ∧ 3 ∈ fittedStacks s.dev.code ∧
      smapGet scrubDflt s.dev.hbm.scrub 3 = ⟨0, 1, false⟩ ∧ (s.dev.scrubNs = 0 ∨ s.clock.ns < 1 + s.dev.scrubNs) ∧
      s.dev.cwAt (flatOf s.dev.code 3 0 / 64) = .clean) ∧
    (∀ s, s = run (fun d => d.setFrame 40 { d.frame 40 with weak := true, used := true, page := 7, due := true }) →
      (s.dev.frame 40).weak = true ∧ (s.dev.frame 40).used = true ∧ (s.dev.frame 40).due = true ∧ s.dev.pipelinesBusy = false ∧
      s.dev.invalidateHeld (s.dev.frame 40).page 1 s.dev.cmd.inflight = false ∧ (s.here.takeFrame 0xFF).isSome = true) := by
  refine ⟨?_, ?_⟩
  · rintro s rfl; exact ⟨calm (by decide +kernel), by decide +kernel⟩
  · rintro s rfl; decide +kernel
/-- A tile of the job's own pipeline, of no pipeline, HALTED by the host and RUNNING; a map that fails its checks, and pipeline 0 MAPPED. -/
theorem witness_ProgramsAndStageMaps :
    (∀ ops, ops = opsOf 48 [(28, 4, 64)] → AtHead (cmd 0x0201 ops id) ring16 0x0201 ops ∧ (cmd 0x0201 ops id).dev.tileOwned (opnd ops 16 2) 1 = false ∧
      (∀ q ∈ [tsEMPTY, tsRUNNING], ∀ s, s = cmd 0x0201 ops (fun d => (pipe0 psMAPPED d).set (CMD.SEQ_STATE.STATE (d.phys 0)) q) → s.dev.tileOwned 0 1 = true ∧ s.dev.seqState (s.dev.phys 0) = q) ∧
      (∀ s, s = cmd 0x0201 ops (pipe0 psMAPPED) → (∃ d1 b, s.here.fetch (cmdAcc 1 1) 0 64 = (d1, .ok b)) ∧ (progCheck (zeros 64) 64 false).isSome = true)) ∧
    (∀ k ∈ [0, 1, 2], ∀ ops, ops = opsOf 48 [(18, 1, k)] → AtHead (cmd 0x0206 ops (pipe0 psMAPPED)) ring16 0x0206 ops ∧
      (cmd 0x0206 ops (pipe0 psMAPPED)).dev.tileOwned (opnd ops 16 2) 1 = true ∧ opnd ops 18 1 = k ∧ (cmd 0x0206 ops (pipe0 psMAPPED)).dev.halted 0 = false) ∧
    (∀ ops, ops = opsOf 48 [(24, 4, 64), (28, 1, 0)] → AtHead (cmd 0x0202 ops id) ring16 0x0202 ops ∧
      (match ((cmd 0x0202 ops id).here.fetch (cmdAcc 1 1) (opnd ops 16 8) (opnd ops 24 4)).2 with | .ok b => (readMap b).job == 0 | .error _ => false) = true ∧
      (cmd 0x0202 ops id).here.mapCheckStage (zeros 64) 64 = some 0xFFFFFFFF) ∧
    (∀ s, s = cmd 0x0202 (opsOf 48 [(28, 1, 1)]) (pipe0 psMAPPED) → AtHead s ring16 0x0202 (opsOf 48 [(28, 1, 1)]) ∧ (s.dev.pipe 0).map = some pmap ∧ pmap.job = 1 ∧
      s.dev.pipeState 0 ∈ [psMAPPED, psSTEPEND, psFAULTED]) := by
  refine ⟨?_, ?_, ?_, ?_⟩
  · rintro ops rfl; refine ⟨atHead (by decide +kernel), by decide +kernel, ?_, ?_⟩
    · intro q hq s hs; subst hs; revert q; decide +kernel
    · rintro s rfl; exact ⟨okOf _ (by decide +kernel), by decide +kernel⟩
  · intro k hk ops ho; subst ho; refine ⟨atHead ?_, ?_, ?_, ?_⟩ <;> (revert k; decide +kernel)
  · rintro ops rfl; exact ⟨atHead (by decide +kernel), by decide +kernel, by decide +kernel⟩
  · rintro s rfl; exact ⟨atHead (by decide +kernel), by decide +kernel, rfl, by decide +kernel⟩

/-- Pipeline 0 MAPPED with its tile READY or not, RUNNING with all of its step admitted, and FAULTED; a stage whose tile has halted by a fault. -/
theorem witness_PipelineCommands :
    (∀ q ∈ [tsREADY, tsEMPTY], ∀ s, s = cmd 0x0203 (zeros 48) (fun d => (pipe0 psMAPPED d).set (CMD.SEQ_STATE.STATE (d.phys 0)) q) →
      AtHead s ring16 0x0203 (zeros 48) ∧ s.dev.jobPipe 0 1 = some pmap ∧ s.dev.pipeState 0 = psMAPPED ∧ ∀ l ∈ s.dev.localTiles pmap, s.dev.seqState (s.dev.phys l) = q) ∧
    (∀ s, s = cmd 0x0205 (zeros 48) (fun d => ((pipe0 psRUNNING d).set (CMD.PIPE_NEXT.N 0) 2).set (CMD.PIPE_NEXT.INDEX 0) 2) → AtHead s ring16 0x0205 (zeros 48) ∧
      s.dev.jobPipe 0 1 = some pmap ∧ s.dev.pipeState 0 = psRUNNING ∧ s.dev.get (CMD.PIPE_NEXT.N 0) ≠ 0 ∧ s.dev.get (CMD.PIPE_NEXT.INDEX 0) = s.dev.get (CMD.PIPE_NEXT.N 0)) ∧
    (∀ s, s = cmd 0x0205 (zeros 48) (pipe0 psFAULTED) → AtHead s ring16 0x0205 (zeros 48) ∧ s.dev.pipeState 0 = psFAULTED) ∧
    (∀ s, s = cmd 0x0204 (zeros 48) (pipe0 psRUNNING) → AtHead s ring16 0x0204 (zeros 48) ∧ s.dev.admitCheck 0 pmap (zeros 48) = some (0x0208, 0)) ∧
    (∀ s t, t = (run id).dev.phys 0 → s = run (fun d => ((pipe0 psRUNNING (job1 d)).set (CMD.SEQ_STATE.STATE t) tsHALTED).set (CMD.SEQ_HALT.STATUS t) 0x0250) →
      t < 200 ∧ s.dev.halted t = true ∧ haltKeeps (s.dev.get (CMD.SEQ_HALT.STATUS t)) = false ∧ s.dev.stageOf (s.dev.logical t) = some (0, 0, pmap)) := by
  refine ⟨?_, ?_, ?_, ?_, ?_⟩
  · intro q hq s hs; subst hs; refine ⟨atHead ?_, ?_, ?_, ?_⟩ <;> (revert q; decide +kernel)
  · rintro s rfl; exact ⟨atHead (by decide +kernel), by decide +kernel⟩
  · rintro s rfl; exact ⟨atHead (by decide +kernel), by decide +kernel⟩
  · rintro s rfl; exact ⟨atHead (by decide +kernel), by decide +kernel⟩
  · rintro s t rfl rfl; decide +kernel

/-- One descriptor: micro-batch 0 of 2 of the running step, with one row. -/
theorem witness_AdmittedPackets :
    (run (fun d => (pipe0 psRUNNING (job1 d)).set2 (CMD.PIPE_STEP_LO.STEP 0) (CMD.PIPE_STEP_HI.STEP 0) 5)).dev.admitCheck 0 pmap
      (opsOf 112 [(18, 1, 1), (72, 8, 1), (80, 8, 5), (120, 8, 2)]) = none := by decide +kernel
/-- No cell; the cell made of one member; a group with nothing queued, with a collective queued, and one that has failed. -/
theorem witness_GroupsAndCollectives :
    (∀ ops, ops = opsOf 48 [(16, 1, 3)] → AtHead (cmd 0x0301 ops id) ring16 0x0301 ops ∧ le ops 0 1 ≠ 255 ∧ le ops 1 1 % 2 = 0 ∧ (cmd 0x0301 ops id).dev.cellThere = false) ∧
    (∀ ops, ops = opsOf 48 [(16, 1, 255), (17, 1, 1), (18, 2, 1), (24, 8, 0x200000)] → ∀ s, s = cmd 0x0301 ops (memAt 0x200000 (beBytes 16 0x10)) → AtHead s ring16 0x0301 ops ∧
      s.dev.groupFieldsOk ops = true ∧ (∃ d0, s.here.checkRanges 1 [(le ops 8 8, 16 * le ops 2 2, 1)] = (d0, none)) ∧
      (∃ d1 b, s.here.fetch (s.here.cfiAcc (le ops 8 8) 1 1) (le ops 8 8) (16 * le ops 2 2) = (d1, .ok b)) ∧ le (beBytes 16 0x10) 0 16 % 16 = 0) ∧
    (∀ ops, ops = opsOf 48 [(16, 1, 3), (18, 2, 1), (24, 8, 0x200000)] → ∀ s, s = cmd 0x0301 ops (fun d => d.setGroup 255 (some (group1 []))) → AtHead s ring16 0x0301 ops ∧
      s.dev.groupFieldsOk ops = true ∧ s.dev.cellThere = true ∧ le ops 32 8 = 0) ∧
    (∀ q ∈ [[], [Coll.fresh (.package 1 0) ocAG 1 0 0 0 0 0 1 0]], ∀ ops, ops = opsOf 48 [(16, 1, 3)] → ∀ s, s = cmd 0x0302 ops (fun d => d.setGroup 3 (some (group1 q))) →
      AtHead s ring16 0x0302 ops ∧ s.dev.group (le ops 0 1) = some (group1 q) ∧ zeroBytes ops 1 47 = true ∧ (group1 q).queue = q) ∧
    (∀ r ∈ [10, 4000], ∀ ops, ops = opsOf 48 [(16, 2, 0x101), (18, 1, 5), (20, 4, r)] → AtHead (cmd 0x0306 ops id) ring16 0x0306 ops ∧ le ops 4 4 = r ∧
      zeroBytes ops 3 1 = true ∧ zeroBytes ops 8 40 = true ∧ le ops 0 2 ≤ 257 ∧ ¬ (le ops 0 2 < 256)) ∧
    (∀ opc ∈ [0x0303, 0x0304, 0x0305], ∀ k ∈ [gsACTIVE, gsFAILED], ∀ ops, ops = opsOf 48 [(16, 1, 3), (18, 1, fcFP32), (19, 1, fcFP32), (36, 8, 64)] →
      ∀ s, s = cmd opc (if opc = 0x0303 then ops else if opc = 0x0304 then opsOf 48 [(16, 1, 3), (36, 8, 64)] else opsOf 48 [(16, 1, 3)])
        (fun d => (d.setGroup 3 (some (group1 []))).set (CFI.GROUP_STATE.STATE 3) k) →
      s.dev.group 3 = some (group1 []) ∧ s.dev.get (CFI.GROUP_STATE.STATE 3) = k ∧ le ops 1 1 ≤ 2 ∧ le ops 2 1 ∈ [fcFP32, fcBF16] ∧ le ops 20 8 ≠ 0 ∧ zeroBytes ops 28 20 = true) ∧
    (∀ c, c = { Coll.fresh (.package 1 0) ocRS 0 fcFP32 fcFP32 0 0 0 1 0 with started := true } → ∀ s, s = run (fun d => d.setGroup 3 (some (group1 [c]))) →
      s.dev.group 3 = some (group1 [c]) ∧ s.dev.collDone 3 = true ∧ ∃ d1, s.here.collSettle 3 (group1 [c]) c = (d1, none)) ∧
    (∀ c, c = Coll.fresh (.package 1 0) ocRS 0 fcFP32 fcFP32 0 0 0 1 0 → (run (fun d => d.setGroup 3 (some (group1 [c])))).dev.collDone 3 = false) := by
  refine ⟨?_, ?_, ?_, ?_, ?_, ?_, ?_, ?_⟩
  · rintro ops rfl; exact ⟨atHead (by decide +kernel), by decide +kernel⟩
  · rintro ops rfl s rfl; exact ⟨atHead (by decide +kernel), by decide +kernel, noneOf _ (by decide +kernel), okOf _ (by decide +kernel), by decide +kernel⟩
  · rintro ops rfl s rfl; exact ⟨atHead (by decide +kernel), by decide +kernel⟩
  · intro q hq ops ho s hs; subst hs; subst ho; refine ⟨atHead ?_, ?_, ?_, rfl⟩ <;> (revert q; decide +kernel)
  · intro r hr ops ho; subst ho; refine ⟨atHead ?_, ?_⟩ <;> (revert r; decide +kernel)
  · intro opc ho k hk ops h s hs; subst hs; subst h; revert opc k; decide +kernel
  · rintro c rfl s rfl; exact ⟨by decide +kernel, by decide +kernel, noneOf _ (by decide +kernel)⟩
  · rintro c rfl; decide +kernel

/-- A configuration and its table, a guard, the step that is due over an active group, and a job in host mode whose SEAL has run. -/
theorem witness_PseCommands :
    (∀ s, s = cmd 0x0404 (zeros 48) (fun d => (psed true d).onPse 1 (fun u => { u with queue := [(ring16, 0x0404, [])] })) → AtHead s ring16 0x0404 (zeros 48) ∧
      (s.dev.pseUnit 1).mustWait (s.dev.ckHolds 1) (s.dev.pseBusy 1) 0x0404 = true) ∧
    (∀ ops, ops = opsOf 112 [(16, 8, 9), (24, 8, 0x8000), (32, 4, 1)] → ∀ s, s = cmd 0x0401 ops (memAt 0x8000 pseEnt) → AtHead s ring16 0x0401 ops ∧
      (s.dev.pseUnit 1).mustWait (s.dev.ckHolds 1) (s.dev.pseBusy 1) 0x0401 = false ∧ (readPseCfg ops).isSome = true ∧ s.dev.job 1 = some ⟨1, 0, none⟩ ∧
      ∃ d1 es, s.here.pseTable (pseCfg false) 1 (fun _ => true) = (d1, .ok es)) ∧
    readPseCfg (zeros 112) = none ∧
    (∀ ops, ops = opsOf 48 [(20, 2, 4), (22, 2, 2)] → ∀ s, s = cmd 0x0403 ops (psed false) → AtHead s ring16 0x0403 ops ∧ (s.dev.pseUnit 1).cfg = some (pseCfg false) ∧
      f32Pos (le ops 0 4) = true ∧ f32Zero (le ops 0 4) = true ∧ 1 ≤ le ops 6 2 ∧ le ops 6 2 ≤ le ops 4 2 ∧ le ops 4 2 ≤ 1024 ∧ zeroBytes ops 13 35 = true ∧
      (s.dev.pseUnit 1).pending = none) ∧
    (∀ n ∈ [0, 3], ∀ ops, ops = opsOf 48 [(16, 8, n), (36, 4, 0x3F800000), (40, 2, 3)] → ∀ s, s = cmd 0x0402 ops (fun d => ((psed false d).setGroup 3 (some (group1 []))).set (CFI.GROUP_STATE.STATE 3) gsACTIVE) →
      AtHead s ring16 0x0402 ops ∧ stepOps ops = true ∧ s.dev.get (CFI.GROUP_STATE.STATE (le ops 24 2)) = gsACTIVE ∧ (le ops 0 8 = 0 ↔ n = 0) ∧
      (∃ d1 es, s.here.pseTable (pseCfg false) 1 (fun _ => true) = (d1, .ok es)) ∧ ∃ d2 b, s.here.fetch (s.here.pseAny 0x8000 1 1) 0x8000 128 = (d2, .ok b)) ∧
    (∀ opc ∈ [0x0404, 0x0405, 0x0406, 0x0407], ∀ h ∈ [false, true], ∀ s, s = cmd opc (zeros 48) (fun d => (psed h d).onPse 1 (fun u => { u with hostSeal := some 0 })) →
      AtHead s ring16 opc (zeros 48) ∧ (s.dev.pseUnit 1).cfg = some (pseCfg h) ∧ (s.dev.pseUnit 1).mustWait (s.dev.ckHolds 1) (s.dev.pseBusy 1) opc = false ∧
      (s.dev.pseUnit 1).hostSeal = some 0 ∧ 0 ∉ (s.dev.pseUnit 1).appliedAccs ∧ ∃ d1 es, s.here.pseTable (pseCfg h) 1 (·.round) = (d1, .ok es)) := by
  refine ⟨?_, ?_, by decide +kernel, ?_, ?_, ?_⟩
  · rintro s rfl; exact ⟨atHead (by decide +kernel), by decide +kernel⟩
  · rintro ops rfl s rfl; exact ⟨atHead (by decide +kernel), by decide +kernel, by decide +kernel, by decide +kernel, okOf _ (by decide +kernel)⟩
  · rintro ops rfl s rfl; exact ⟨atHead (by decide +kernel), by decide +kernel⟩
  · intro n hn ops ho s hs; subst hs; subst ho; refine ⟨atHead ?_, ?_, ?_, ?_, okOf _ ?_, okOf _ ?_⟩ <;> (revert n; decide +kernel)
  · intro opc ho h hh s hs; subst hs; refine ⟨atHead ?_, ?_, ?_, ?_, ?_, okOf _ ?_⟩ <;> (revert opc h; decide +kernel)
/-- A slot in HANDSHAKE or OPEN, with its session under key 20. -/
def slot5 (st : Nat) (f : PSlot → PSlot) (d : Dev) : Dev :=
  ((((d.setPslot 5 (some (f (PSlot.fresh 0 47100 16 1 0)))).set (WXU.SLOT_STATE.STATE 5) st).set (WXU.SLOT_STATE.GEN 5) 1).set (WXU.SLOT_KEY.KEY_SLOT 5) 20).setKey 20 0
    (some ⟨.session ⟨0, true, [], [], [], [], none, 0, [], true⟩, false⟩)

/-- An accession in a state in its slot. -/
def acc0 (st : Nat) (f : AccSlot → AccSlot) (d : Dev) : Dev :=
  ({ d with rnd.cfg := some roundCfg }.setAcc 0 (some (f ⟨0, 0, 0, 3, true, 0, false, true, false, []⟩))).setAccState 0 st

theorem witness_Rounds :
    (∀ s, s = cmd 0x0506 (opsOf 48 [(16, 2, 5)]) (fun d => { slot5 wsOPEN id (psed false d) with rnd.cfg := some roundCfg }.set WXU.ROUND_STATE.OPEN 1) →
      AtHead s ring16 0x0506 (opsOf 48 [(16, 2, 5)]) ∧ (s.dev.pseUnit 1).cfg = some (pseCfg false) ∧ (s.dev.pseUnit 1).mustWait (s.dev.ckHolds 1) (s.dev.pseBusy 1) 0x0506 = false ∧
      s.dev.rnd.cfg = some roundCfg ∧ roundCfg.job = 1 ∧ zeroBytes (opsOf 48 [(16, 2, 5)]) 2 46 = true ∧ s.dev.flag WXU.ROUND_STATE.OPEN = true ∧ s.dev.slotUsed 5 = true ∧
      s.dev.slotUsed 6 = false ∧ s.dev.recorded roundCfg = [] ∧ ∃ d1 es, s.here.pseTable (pseCfg false) 1 (·.round) = (d1, .ok es)) ∧
    (∀ s, s = cmd 0x0501 (zeros 112) id → AtHead s ring16 0x0501 (zeros 112) ∧ (match (s.here.roundCheck 1 (zeros 112)).2 with | .error _ => true | .ok _ => false) = true) ∧
    (∀ ops, ops = opsOf 112 [(16, 2, 4), (18, 2, 1), (20, 4, 100), (26, 1, 12), (27, 1, 1), (28, 1, 3), (40, 4, 1)] →
      ∀ s, s = cmd 0x0501 ops (fun d => (((memAt 0x20000 (bytesOf 32 [(0, 4, 1)]) (psed false d)).setGroup 3 (some (group1 []))).set (CFI.GROUP_STATE.STATE 3) gsACTIVE)) →
      AtHead s ring16 0x0501 ops ∧ (le ops 11 1).testBit 0 = true ∧ (readRoundCfg 1 ops).isSome = true) ∧
    (∀ k ∈ [0, 1], ∀ o ∈ [0, 1], ∀ ops, ops = opsOf 48 [(28, 1, k)] → ∀ s, s = cmd 0x0502 ops (fun d => { psed false d with rnd.cfg := some roundCfg }.set WXU.ROUND_STATE.OPEN o) →
      AtHead s ring16 0x0502 ops ∧ zeroBytes ops 13 35 = true ∧ s.dev.flag WXU.ROUND_STATE.EXHAUSTED = false ∧ le ops 12 1 = k ∧ s.dev.flag WXU.ROUND_STATE.OPEN = (o == 1) ∧
      s.dev.rnd.opening = none ∧ s.dev.nextStep 1 ≤ le ops 4 8) ∧
    (∀ s, s = cmd 0x0504 (opsOf 48 [(16, 2, 5)]) (slot5 wsOPEN id) → AtHead s ring16 0x0504 (opsOf 48 [(16, 2, 5)]) ∧ zeroBytes (opsOf 48 [(16, 2, 5)]) 2 46 = true ∧ s.dev.slotUsed 5 = true) ∧
    (∀ p ∈ [0, 1], ∀ s, s = cmd 0x0505 (opsOf 48 [(16, 2, 9)]) (fun d => d.set WXU.EPOCH_CTL.PENDING_VALID p) → AtHead s ring16 0x0505 (opsOf 48 [(16, 2, 9)]) ∧
      s.dev.flag WXU.EPOCH_CTL.PENDING_VALID = (p == 1) ∧ s.dev.rnd.everOpened = false ∧ ¬ s.dev.ownCell < 64) ∧
    (∀ s, s = run (fun d => (acc0 acDISTRIBUTED id (psed false (job1 d))).onPse 1 (fun u => { u with run := some ⟨opsOf 48 [(16, 8, 4)], [], 3, 0, true⟩ })) →
      (s.dev.pseUnit 1).run = some ⟨opsOf 48 [(16, 8, 4)], [], 3, 0, true⟩ ∧ s.dev.rnd.cfg = some roundCfg ∧ s.dev.applySlot roundCfg 4 = some 0 ∧ s.dev.accState 0 = acDISTRIBUTED) ∧
    (∀ q ∈ [acSEALING, acEXCHANGE], ∀ s, s = run (fun d => acc0 q id (job1 d)) → s.dev.rnd.cfg = some roundCfg ∧ (s.dev.accSlot 0).isSome ∧ (∀ i < 4, i ≠ 0 → s.dev.accSlot i = none) ∧
      s.dev.accState 0 = q) := by
  refine ⟨?_, ?_, ?_, ?_, ?_, ?_, ?_, ?_⟩
  · rintro s rfl
    exact ⟨atHead (by decide +kernel), by decide +kernel, by decide +kernel, rfl, rfl, by decide +kernel, by decide +kernel, by decide +kernel, by decide +kernel, by decide +kernel,
      okOf _ (by decide +kernel)⟩
  · rintro s rfl; exact ⟨atHead (by decide +kernel), by decide +kernel⟩
  · rintro ops rfl s rfl; exact ⟨atHead (by decide +kernel), by decide +kernel, by decide +kernel⟩
  · intro k hk o ho ops h s hs; subst hs; subst h; refine ⟨atHead ?_, ?_, ?_, ?_, ?_, rfl, ?_⟩ <;> (revert k o; decide +kernel)
  · rintro s rfl; exact ⟨atHead (by decide +kernel), by decide +kernel⟩
  · intro p hp s hs; subst hs; refine ⟨atHead ?_, ?_, rfl, ?_⟩ <;> (revert p; decide +kernel)
  · rintro s rfl; decide +kernel
  · intro q hq s hs; subst hs; revert q; decide +kernel

/-- Key slots free, named and not; slots free, in HANDSHAKE and OPEN; a public anchor key. -/
theorem witness_KeysAndPartners :
    (∀ ty ∈ [ktAES, ktPRIV, 3], ∀ ops, ops = opsOf 48 [(16, 2, 40), (18, 1, ty), (20, 2, 1)] → ∀ s, s = cmd 0x0601 ops (fun d => d.set SEC.STATE.ENTROPY_OK 1) →
      AtHead s ring16 0x0601 ops ∧ 16 ≤ opnd ops 16 2 ∧ s.dev.keyOperandsOk ops = true ∧
      (match s.dev.keyTarget (opnd ops 16 2) with | .ok k => k == 40 | .error _ => false) = true ∧ (ty = ktAES → s.dev.entropyOk = true)) ∧
    (∀ ow ∈ [0, 1], ∀ ops, ops = opsOf 48 [(16, 2, 40)] → ∀ s, s = cmd 0x0603 ops (fun d => d.setKey 40 ow (some ⟨.aes [], false⟩)) → AtHead s ring16 0x0603 ops ∧
      s.dev.key 40 = some ⟨.aes [], false⟩ ∧ (KeyVal.aes []).type ≠ ktSESSION ∧ s.dev.get (SEC.KEY_TYPE.OWNER 40) = ow ∧ s.dev.keyNamed 40 = false) ∧
    (∀ s, s = cmd 0x0604 (zeros 48) (fun d => d.set SEC.STATE.DIK_LOADED 1) → AtHead s ring16 0x0604 (zeros 48) ∧ s.dev.flag SEC.STATE.IDENTITY_LOCKED = false ∧
      s.dev.flag SEC.STATE.DIK_LOADED = true ∧ opndZero (zeros 48) 32 32 = true ∧ ∃ d1 segs, s.here.xlate (hifAcc 2 (s.dev.attestDom ring16)) 0 512 = (d1, .ok segs)) ∧
    (∀ w ∈ [wsFREE, wsOPEN], ∀ ops, ops = opsOf 48 [(16, 2, 5), (24, 2, 16)] → ∀ s, s = cmd 0x0503 ops (fun d => (slot5 w id d).setKey 16 0 (some ⟨.pub [], false⟩)) →
      AtHead s ring16 0x0503 ops ∧ s.dev.slotState 5 = w ∧ partnerOk ops = true ∧ 16 ≤ opnd ops 24 2 ∧ s.dev.key 16 = some ⟨.pub [], false⟩) ∧
    (∀ s, s = cmd 0x0602 (opsOf 48 [(16, 1, 1), (18, 2, 5)]) (slot5 wsOPEN id) → AtHead s ring16 0x0602 (opsOf 48 [(16, 1, 1), (18, 2, 5)]) ∧ (s.dev.pslot 5).isSome ∧
      (s.dev.session 5).isSome ∧ s.dev.slotOpen 5 = true) ∧
    (∀ ops, ops = opsOf 48 [(18, 2, 16)] → ∀ s, s = cmd 0x0602 ops (fun d => d.setKey 16 0 (some ⟨.pub [], false⟩)) → AtHead s ring16 0x0602 ops ∧ opnd ops 16 1 = 0 ∧
      s.dev.key 16 = some ⟨.pub [], false⟩ ∧ ∃ d1 e, s.here.fetch (hifAcc 1 1) 0 256 = (d1, .ok e)) := by
  refine ⟨?_, ?_, ?_, ?_, ?_, ?_⟩
  · intro ty ht ops ho s hs; subst hs; subst ho; refine ⟨atHead ?_, ?_, ?_, ?_, ?_⟩ <;> (revert ty; decide +kernel)
  · intro w hw ops ho s hs; subst hs; subst ho; refine ⟨atHead ?_, ?_, ?_, ?_, ?_⟩ <;> (revert w; decide +kernel)
  · rintro s rfl; exact ⟨atHead (by decide +kernel), by decide +kernel, by decide +kernel, by decide +kernel, okOf _ (by decide +kernel)⟩
  · intro w hw ops ho s hs; subst hs; subst ho; refine ⟨atHead ?_, ?_, ?_, ?_, ?_⟩ <;> (revert w; decide +kernel)
  · rintro s rfl; exact ⟨atHead (by decide +kernel), by decide +kernel⟩
  · rintro ops rfl s rfl; exact ⟨atHead (by decide +kernel), by decide +kernel, by decide +kernel, okOf _ (by decide +kernel)⟩

/-- A core that is free, one that runs an operation, a queue with one in it; a slot whose handshake waits for the peer, and a retry. -/
theorem witness_PkEngineAndHandshakes :
    (∀ q, q = (⟨.hkdf, [], [], [], [], .core 0⟩ : PkOp) →
      (∀ s, s = run (fun d => { d with sec.pkQueue := [q] }) → s.dev.pkCore 2 = none ∧ s.dev.pkInService 2 = true ∧ s.dev.sec.pkQueue = [q] ∧ q.kind = .hkdf) ∧
      (run (fun d => d.setPkCore 2 (some q))).dev.pkCore 2 = some q) ∧
    (run id).dev.sec.pkQueue = [] ∧ (∀ s, s = run (fun d => d.setKey 40 0 (some ⟨.priv [7] [], false⟩)) →
      (match (s.here.privateKey 40).2 with | .ok k => k == [7] | .error _ => false) = true ∧ (match (s.here.privateKey 41).2 with | .ok _ => false | .error st => st == 0x0605) = true) ∧
    (∀ s, s = run (slot5 wsHANDSHAKE (fun p => { p with hello := [1], retryAt := some 9 })) → s.dev.slotState 5 = wsHANDSHAKE ∧
      (match s.dev.pslot 5 with | some p => decide (p.hello ≠ [] ∧ p.peerHello = [] ∧ p.retryAt = some 9 ∧ 8 ∉ p.causes) | none => false) = true) := by
  refine ⟨?_, rfl, ?_, ?_⟩
  · rintro q rfl; exact ⟨by rintro s rfl; decide +kernel, by decide +kernel⟩
  · rintro s rfl; decide +kernel
  · rintro s rfl; decide +kernel
/-- A free target and one in use; an unstaged write to a target with room, a read of one source, and a queue pair with a packet outstanding. -/
theorem witness_CheckpointStorage :
    (∀ k ∈ [0, 1], ∀ u ∈ [0, 1], ∀ ops, ops = opsOf 112 [(17, 1, k), (18, 1, 1), (32, 8, 4096)] → ∀ s, s = cmd 0x0703 ops (fun d => d.set (CFI.STORE_STATE.STATE 0) u) →
      AtHead s ring16 0x0703 ops ∧ le ops 0 1 < 16 ∧ le ops 1 1 = k ∧ s.dev.targetUsed 0 = (u == 1) ∧ s.dev.targetBusy 0 = false ∧ targetOk ops = true ∧
      s.dev.freeQps (le ops 2 1) = some 0) ∧
    (∀ opc ∈ [0x0701, 0x0702, 0x0704], ∀ q ∈ [[], [(ring16, 0x0404, [])]], ∀ ops, ops = opsOf 48 [(20, 2, 1), (24, 4, 1)] →
      ∀ s, s = cmd opc ops (fun d => (psed false d).onPse 1 (fun u => { u with queue := q })) → AtHead s ring16 opc ops ∧
      (s.dev.pseUnit 1).mustWait (s.dev.ckHolds 1) (s.dev.pseBusy 1) opc = !q.isEmpty ∧ (s.dev.pseUnit 1).cfg = some (pseCfg false) ∧ s.dev.targetReady 0 = false) ∧
    ckWriteOps false (opsOf 48 [(20, 2, 1)]) = true ∧ ckWriteOps false (opsOf 48 [(20, 2, 0)]) = false ∧
    (∀ ops, ops = opsOf 48 [(24, 4, 1)] → ∀ s, s = cmd 0x0702 ops (fun d => psed false (d.set (CFI.STORE_STATE.STATE 0) 1)) → s.dev.jobRuns 1 = false ∧ s.dev.jobRound 1 = false ∧
      1 ≤ le ops 8 4 ∧ (le ops 12 2 &&& 0xFE40) = 0 ∧ zeroBytes ops 24 24 = true ∧ (∃ d1 b, s.here.fetch (s.here.cfiAcc 0 1 1) 0 16 = (d1, .ok b)) ∧
      (match s.here.ckSources (zeros 16) 1 0 with | .ok l => l == [(0, 0)] | .error _ => false) = true) ∧
    (∀ s, s = run (fun d => d.setQp 2 { qpDflt 0 with target := 1, unacked := [⟨0, 0, 1, 4, none, []⟩] }) → (s.dev.qp 2).target ≠ 0 ∧ (s.dev.qp 2).err = false ∧
      (s.dev.roceDue 2).isSome = true) ∧
    (run (fun d => d.setQp 2 { qpDflt 0 with target := 1, rnrUntil := some 9 })).dev.qp 2 = { qpDflt 0 with target := 1, rnrUntil := some 9 } ∧
    ((run id).dev.qp 2).target = 0 ∧ Calm (run id) ∧ (run (cellOn 0)).dev.cellUp 0 = true := by
  refine ⟨?_, ?_, by decide +kernel, by decide +kernel, ?_, ?_, by decide +kernel, by decide +kernel, calm (by decide +kernel), by decide +kernel⟩
  · intro k hk u hu ops ho s hs; subst hs; subst ho; refine ⟨atHead ?_, ?_⟩ <;> (revert k u; decide +kernel)
  · intro opc ho q hq ops h s hs; subst hs; subst h; refine ⟨atHead ?_, ?_⟩ <;> (revert opc q; decide +kernel)
  · rintro ops rfl s rfl; exact ⟨by decide +kernel, by decide +kernel, by decide +kernel, by decide +kernel, by decide +kernel, okOf _ (by decide +kernel), by decide +kernel⟩
  · rintro s rfl; decide +kernel

/-- A free timer, an armed one and one that has fired; operands in range. -/
theorem witness_TimeCommands :
    (∀ ops, ops = opsOf 48 [(16, 2, 200), (18, 2, 1), (20, 1, 4), (24, 8, 500)] → AtHead (cmd 0x0802 ops id) ring16 0x0802 ops ∧ le ops 0 2 = 200 ∧
      (cmd 0x0802 ops id).dev.timer 200 = none ∧ le ops 2 2 = 1 ∧ (le ops 4 1).testBit 2 = true ∧ zeroBytes ops 5 3 = true ∧ zeroBytes ops 26 22 = true) ∧
    (∀ b ∈ [false, true], ∀ dl ∈ [0, 9], ∀ ops, ops = opsOf 48 [(16, 2, 200)] → ∀ x, x = (⟨1, false, dl, none, true, none, b, 0⟩ : Timer) →
      ∀ s, s = cmd 0x0803 ops (fun d => d.setTimer 200 (some x)) → AtHead s ring16 0x0803 ops ∧ s.dev.timer 200 = some x ∧ x.owner = 1 ∧ zeroBytes ops 2 46 = true ∧
      (s.clock.ns < x.deadline ↔ dl = 9)) ∧
    (∀ ops, ops = opsOf 48 [(16, 1, 2), (17, 1, 1), (18, 1, 1), (19, 1, 4)] → AtHead (cmd 0x0804 ops id) ring16 0x0804 ops ∧ le ops 0 1 ≤ 4 ∧ le ops 1 1 ≤ 2 ∧ le ops 2 1 ≤ 1 ∧
      1 ≤ le ops 3 1 ∧ le ops 3 1 ≤ 64 ∧ zeroBytes ops 4 44 = true) ∧
    (∀ k ∈ [0, 1], ∀ ops, ops = opsOf 48 [(22, 1, k), (24, 8, 1000), (32, 4, 1000), (36, 2, 10), (40, 4, 1), (48, 4, 1)] → AtHead (cmd 0x0801 ops id) ring16 0x0801 ops ∧
      timeOps ops = true ∧ ((le ops 6 1).testBit 0 = true ↔ k = 1) ∧ (cmd 0x0801 ops id).dev.tmState = tmUNSET ∧ (cmd 0x0801 ops id).clock.ns ≤ le ops 8 8) ∧
    timeOps (zeros 48) = false := by
  refine ⟨?_, ?_, ?_, ?_, by decide +kernel⟩
  · rintro ops rfl; exact ⟨atHead (by decide +kernel), by decide +kernel⟩
  · intro b hb dl hd ops ho x hx s hs; subst hs; subst hx; subst ho; refine ⟨atHead ?_, ?_⟩ <;> (revert b dl; decide +kernel)
  · rintro ops rfl; exact ⟨atHead (by decide +kernel), by decide +kernel⟩
  · intro k hk ops ho; subst ho; refine ⟨atHead ?_, ?_⟩ <;> (revert k; decide +kernel)

/-- A running timer, outside a rehang and in one; a selected master on a port that is up; a pulse that counts; a reference in use and one in holdover. -/
theorem witness_TimersAndReference :
    (∀ cur ∈ [curRUNNING, curREHANG], ∀ x, x = (⟨1, false, 9, none, true, none, false, 0⟩ : Timer) →
      ∀ s, s = run (fun d => (d.setTimer 200 (some x)).set CMD.CURATOR_STATE.STATE cur) → s.dev.timer 200 = some x ∧ x.runs = true ∧ s.dev.curator = cur ∧
        s.dev.cmd.timerHold.length < 256) ∧
    (∀ s, s = run (fun d => cellOn 1 { d with tmu.sources := 2, tmu.master := some ⟨1, 9, [1]⟩, tmu.syncSeq := some (5, 0, 0), tmu.reqOut := some (5, 0), tmu.syncTimes := some (0, 0) }) →
      s.dev.fromMaster ptp = true ∧ s.dev.fromMaster { ptp with twoStep := true } = true ∧ s.dev.ptpMine ptp = true ∧ s.dev.tmu.syncSeq = some (ptp.seq, 0, 0) ∧
      s.dev.tmu.reqOut = some (ptp.seq, 0) ∧ s.dev.tmu.syncTimes = some (0, 0)) ∧
    (run id).dev.fromMaster ptp = false ∧ (run id).dev.ptpMine ptp = false ∧
    (∀ s, s = run (fun d => { d with tmu.sources := 2 ^ 20 }) → (s.dev.cap 0).enable = false ∧ s.dev.tmu.sources.testBit 20 = true ∧ s.dev.tmu.ppsFalling = false ∧
      s.dev.tmState ≠ tmLOCKED ∧ s.dev.tmu.ppsMissing = false) ∧
    (∀ s, s = run (fun d => d.setCap 2 ⟨2, true, 9, []⟩) → (s.dev.cap 2).enable = true ∧ (s.dev.cap 2).edge = 2 ∧ (s.dev.cap 2).fifo.length < 64 ∧
      (s.dev.cap 2).notify ≠ (s.dev.cap 2).fifo.length + 1) ∧
    (∃ t, (run (fun d => (d.set TMU.STATE.STATE tmLOCKED).set TMU.STATE.SOURCE 20)).dev.lossTime = some t) ∧
    (run (·.set TMU.STATE.STATE tmHOLDOVER)).dev.tmState = tmHOLDOVER := by
  refine ⟨?_, ?_, by decide +kernel, by decide +kernel, ?_, ?_, ⟨_, rfl⟩, by decide +kernel⟩
  · intro cur hc x hx s hs; subst hs; subst hx; revert cur; decide +kernel
  · rintro s rfl; decide +kernel
  · rintro s rfl; decide +kernel
  · rintro s rfl; decide +kernel

theorem witness_ClockOutputs : (run (fun d => { d with tmu.ppsOut := true, tmu.always := true })).dev.ppsDriven = true ∧ (run id).dev.tmu.ppsHigh = false ∧
    (run (fun d => { d with tmu.ppsHigh := true })).dev.tmu.ppsHigh = true ∧
    (∀ s, s = run (fun d => { d with tmu.divNow := smapSet divDflt d.tmu.divNow 2 (d.divNow 2 + 1) }) → Calm s ∧ s.dev.divNow 2 ≠ s.dev.divWant 2) := by
  refine ⟨by decide +kernel, rfl, rfl, ?_⟩
  rintro s rfl; exact ⟨calm (by decide +kernel), by decide +kernel⟩
/-- An ALU instruction that issues, one of another opcode, one held by a wait, one whose predicate fails, and one whose tally is not its job's. -/
theorem witness_TileIssues : (Instr.alu 3, 0x01) ∈ issueRows 3 ∧ Issues (tst 0x01 id id) 3 0x01 (pumped (tst 0x01 id id)) false (wordAt (tst 0x01 id id)) ∧
    iOp (wordAt (tst 0x00 id id)) ≠ 0x01 ∧
    ((pumped (tst 0x01 (fun x => { x with waits := [⟨0, false, true, 0, 5, false, 1, false, false⟩] }) id)).tile 3).issueHeld false = true ∧
    (∀ s, s = tst 0x801 id id → iOp (wordAt s) = 0x01 ∧ ((pumped s).tile 3).issueHeld false = false ∧ ((pumped s).tile 3).mbHold = false ∧
      ((pumped s).tile 3).rp false (iPred (wordAt s)) = iPneg (wordAt s)) ∧
    (∀ s, s = tst (0x1001 + 2 ^ 19 * 9) id id → iOp (wordAt s) = 0x01 ∧ iSig (wordAt s) = true ∧ ((pumped s).tile 3).rp false (iPred (wordAt s)) ≠ iPneg (wordAt s) ∧
      (pumped s).tallyOwned (insTally ((pumped s).tile 3) false (wordAt s)) ((pumped s).tileJob 3) = false) := by
  refine ⟨by simp [issueRows], issues (by decide +kernel), by decide +kernel, by decide +kernel, ?_, ?_⟩ <;> (rintro s rfl; decide +kernel)

theorem witness_ScalarAndControlInstructions : (∀ op ∈ [0x00, 0x01, 0x02, 0x03, 0x04, 0x08, 0x09, 0x15],
    Issues (tst op id id) 3 op (pumped (tst op id id)) false (wordAt (tst op id id))) ∧ opFunc (wordAt (tst (0x01 + 5 * 2 ^ 51) id id)) = 5 ∧
    ((pumped (tst 0x09 id id)).tile 3).rg false (opDst (wordAt (tst 0x09 id id))) = 0 := by
  refine ⟨?_, by decide +kernel, by decide +kernel⟩
  intro op h; refine issues ?_; revert op; decide +kernel

/-- MBBEGIN before its chains are quiet, after it, and with an unflushed chain; a full deferral queue, a routine that returns, and main work that yields. -/
theorem witness_MicroBatchesAndDeferredWork :
    (∀ op ∈ [0x10, 0x11, 0x12, 0x13, 0x14], Issues (tst op id id) 3 op (pumped (tst op id id)) false (wordAt (tst op id id))) ∧
    (∀ s, s = tst 0x10 id id → (∀ e ∈ ((pumped s).tile 3).live, e.2.2 ≠ 0 → e.2.2 - 1 ∉ ((pumped s).tile 3).mainChains) ∧
      (∀ k ∈ ((pumped s).tile 3).mainChains, ((pumped s).tile 3).flushQueued k = false) ∧ (∀ k ∈ ((pumped s).tile 3).mainChains, (((pumped s).tile 3).encOf k).isOpen = false)) ∧
    (∀ s, s = tst 0x10 (fun x => { x with live := [(9, false, 1)] }) id → Issues s 3 0x10 (pumped s) false (wordAt s) ∧ (9, false, 1) ∈ ((pumped s).tile 3).live ∧
      0 ∈ ((pumped s).tile 3).mainChains) ∧
    (∀ s, s = tst 0x10 (fun x => x.setEnc 2 { encDflt 2 with isOpen := true }) id → Issues s 3 0x10 (pumped s) false (wordAt s) ∧
      ((pumped s).tile 3).mainChains.find? (fun k => (((pumped s).tile 3).encOf k).isOpen) = some 2) ∧
    (∀ s, s = tst 0x12 (fun x => { x with deferQ := List.replicate 8 ⟨0, [], 0⟩ }) id → Issues s 3 0x12 (pumped s) false (wordAt s) ∧ 8 ≤ ((pumped s).tile 3).deferQ.length ∧
      ((pumped s).tile 3).arraysIdle = true ∧ ((pumped s).tile 3).slotsEmpty = true) ∧
    (∀ d, d = (pumped (tst 0x13 id id)).advance 3 false → d.mayReturn 3 = true ∧ d.mainYields 3 = false) ∧
    (∀ y ∈ [false, true], ∀ s, s = tst 0x01 (fun x => { x with mbHold := y, deferQ := [⟨0, [], 0⟩] }) id → (pumped s).get (CMD.SEQ_STATE.STATE 3) = tsRUNNING ∧ (pumped s).ctx 3 = false ∧
      (pumped s).mainYields 3 = y ∧ (pumped s).flag (CMD.SEQ_STATE.ROUTINE 3) = false ∧ ((pumped s).tile 3).deferQ ≠ [] ∧ (pumped s).movePending 3 = false) := by
  refine ⟨?_, ?_, ?_, ?_, ?_, ?_, ?_⟩
  · intro op h; refine issues ?_; revert op; decide +kernel
  · rintro s rfl; decide +kernel
  · rintro s rfl; exact ⟨issues (by decide +kernel), by decide +kernel⟩
  · rintro s rfl; exact ⟨issues (by decide +kernel), by decide +kernel⟩
  · rintro s rfl; exact ⟨issues (by decide +kernel), by decide +kernel⟩
  · rintro d rfl; decide +kernel
  · intro y h s hs; subst hs; revert y; decide +kernel

/-- WAITT with its threshold reached and not, with all 8 slots taken; WAITR and REL on an invalid region and a valid one; tiles in each state. -/
theorem witness_WaitsAndSequencerControl :
    (∀ op ∈ [0x80, 0x82], Issues (tst op id id) 3 op (pumped (tst op id id)) false (wordAt (tst op id id))) ∧
    (∀ op ∈ [0x81, 0x83], ∀ v ∈ [0, 1], ∀ s, s = tst op id (fun d => d.set (SPM.REGION_BASE.VALID 3 0) v) → Issues s 3 op (pumped s) false (wordAt s) ∧ (pumped s).regOk 3 0 = (v == 1)) ∧
    (∀ s, s = tst 0x80 id id → ((pumped s).tile 3).waits.length < 8 ∧ ((pumped s).tile 3).gateRoom 0 = true ∧ ((pumped s).tile 3).sq.length < 8) ∧
    (∀ s, s = tst 0x80 (fun x => { x with waits := List.replicate 8 ⟨0, false, true, 0, 5, false, 2, false, false⟩ }) id → Issues s 3 0x80 (pumped s) false (wordAt s) ∧
      8 ≤ ((pumped s).tile 3).waits.length) ∧
    (∀ b ∈ [false, true], ∀ i, i = (⟨0, 0, false, 1, 1, 0, b, 0, 0, 0, 0, 0, 0, 0, 0, []⟩ : TIns) → ((tst 0 (fun x => { x with done := [i] }) id).dev.tile 3).done[0]? = some i) ∧
    (∀ k ∈ [tsRUNNING, tsREADY, tsHALTED, tsEMPTY], ∀ s, s = tst 0 id (fun d => d.set (CMD.SEQ_STATE.STATE 3) k) → s.dev.get (CMD.SEQ_STATE.STATE 3) = k ∧
      (s.dev.halted 3 = true ↔ k = tsHALTED) ∧ s.dev.flag (TCX.FAULT_STATUS.VALID 3) = false ∧ ∀ ch < 4, s.dev.flag (TDMA.CH_STATE.ERROR 3 ch) = false) := by
  refine ⟨?_, ?_, ?_, ?_, ?_, ?_⟩
  · intro op h; refine issues ?_; revert op; decide +kernel
  · intro op h v hv s hs; subst hs; refine ⟨issues ?_, ?_⟩ <;> (revert op v; decide +kernel)
  · rintro s rfl; decide +kernel
  · rintro s rfl; exact ⟨issues (by decide +kernel), by decide +kernel⟩
  · rintro b h i rfl; revert b; decide +kernel
  · intro k h s hs; subst hs; revert k; decide +kernel
/-- An instruction of array 0's queue. -/
def ins0 (op w m : Nat) : TIns := ⟨4, 0, false, op, w, 0, false, 0, m, 0, 0, 0, 0, 0, 0, []⟩

/-- The matrix and vector instructions at issue, on valid and failed arrays, with full queues and with room; a run that starves, rows and markers in the queue. -/
theorem witness_MatrixAndVectorInstructions :
    (∀ op ∈ [0x20, 0x21, 0x40, 0x41, 0x42], Issues (tst op id id) 3 op (pumped (tst op id id)) false (wordAt (tst op id id))) ∧
    (∀ s, s = tst 0x20 id id → (pumped s).arrValid 3 (iArray (wordAt s)) = true ∧ bit (wordAt s) 44 = false ∧ ((pumped s).tile 3).mq.length < 16) ∧
    (∀ s, s = tst 0x20 id (fun d => d.wr (MXA.MAP.REG 3).off 0) → Issues s 3 0x20 (pumped s) false (wordAt s) ∧ (pumped s).arrValid 3 (iArray (wordAt s)) = false) ∧
    (∀ s, s = tst (0x20 + 2 ^ 44) id id → Issues s 3 0x20 (pumped s) false (wordAt s) ∧ bit (wordAt s) 44 = true ∧ (pumped s).regOk 3 (bits (wordAt s) 50 45) = false) ∧
    (∀ s, s = tst (0x21 + 2 ^ 80) id id → Issues s 3 0x21 (pumped s) false (wordAt s) ∧ 0 < ((pumped s).tile 3).streamM false (wordAt s) ∧ bit (wordAt s) 41 = false ∧
      bits (wordAt s) 63 55 + ((pumped s).tile 3).streamM false (wordAt s) * streamQ (wordAt s) ≤ 512) ∧
    (∀ s, s = tst (0x21 + 2 ^ 80 + 2 ^ 41) (fun x => { x with chains := memWrite [] 12 [1] }) id → Issues s 3 0x21 (pumped s) false (wordAt s) ∧ bit (wordAt s) 41 = true ∧
      ((pumped s).tile 3).chTess 0 = false ∧ ((pumped s).tile 3).chRegion 0 = false ∧ (pumped s).finishCheck 3 0 1 (streamQ (wordAt s)) = 0x0254) ∧
    (∀ s, s = tst 0x40 id id → ((pumped s).tile 3).runN false (wordAt s) = 0 ∧ ((pumped s).tile 3).vq.length < 8 ∧ ((pumped s).tile 3).chainClear 0 ((pumped s).tile 3).nextSeq = true ∧
      ((pumped s).tile 3).flushQueued 0 = false ∧ (((pumped s).tile 3).encOf 0).isOpen = false ∧ ((pumped s).tile 3).chTess 0 = false) ∧
    (∀ n ∈ [5, 64], ∀ v, v = (⟨ins0 0x40 0x40 0, 0, [], n⟩ : VRunSt) → ∀ s, s = tst 0 (fun x => { x with vrun := some v }) id →
      (s.dev.tile 3).vrun = some v ∧ (((s.here.pump 3).fillQueue 3).tile 3).vrun = some v ∧ (64 ≤ v.starve ↔ n = 64)) ∧
    (∀ e ∈ [Panel.row (ins0 0x21 0x21 1) 0 0 0 false [] 0, .abort (ins0 0x21 0x21 1) 0, .commit (ins0 0x21 0x21 1) 0 ⟨[], none, ⟨0, false, [], []⟩⟩],
      ∀ s, s = tst 0 (fun x => { x with fpq := [e] }) id → ((s.here.fillQueue 3).tile 3).marks ++ ((s.here.fillQueue 3).tile 3).fpq = [e] ∧
        ((s.here.fillQueue 3).tile 3).cbAdmits (ins0 0x21 0x21 1) = true) := by
  refine ⟨?_, ?_, ?_, ?_, ?_, ?_, ?_, ?_, ?_⟩
  · intro op h; refine issues ?_; revert op; decide +kernel
  · rintro s rfl; decide +kernel
  · rintro s rfl; exact ⟨issues (by decide +kernel), by decide +kernel⟩
  · rintro s rfl; exact ⟨issues (by decide +kernel), by decide +kernel⟩
  · rintro s rfl; exact ⟨issues (by decide +kernel), by decide +kernel⟩
  · rintro s rfl; exact ⟨issues (by decide +kernel), by decide +kernel⟩
  · rintro s rfl; decide +kernel
  · intro n h v hv s hs; subst hs; subst hv; revert n; decide +kernel
  · intro e h s hs; subst hs; revert e; decide +kernel

/-- Array 0 with a load under way, with a stream at its queue's head and no weights, with a stream whose rows wait and with one whose rows have gone; codec faults held and recorded. -/
theorem witness_ArraysAndCodec :
    (∀ s, s = tst 0 (fun x => x.setArr 0 { arrDflt 0 with incoming := some (ins0 0x20 0x20 0, ⟨0, false, [], []⟩) }) id → (s.here.pump 3).arrPhys 3 0 = 0 ∧
      (((s.here.pump 3).tile 3).arr 0).incoming = some (ins0 0x20 0x20 0, ⟨0, false, [], []⟩) ∧ (s.here.pump 3).arraysRun 3 = true) ∧
    (∀ i, i = ins0 0x21 (0x21 + 2 ^ 80) 1 → ∀ s, s = tst 0 (fun x => x.setAq 0 [i]) id → ((s.here.pump 3).tile 3).aqOf 0 = [i] ∧ i.op = 0x21 ∧ sM i ≠ 0 ∧ sSwap i = false ∧
      (((s.here.pump 3).tile 3).arr 0).owed = [] ∧ (((s.here.pump 3).tile 3).arr 0).fault = none ∧ (s.here.pump 3).halted 3 = false ∧ (((s.here.pump 3).tile 3).arr 0).incoming = none) ∧
    (∀ rows ∈ [[], [Panel.row (ins0 0x21 0x21 1) 0 0 0 false [] 0]], ∀ x, x = (⟨ins0 0x21 0x21 1, rows, [], [], false, 1, none, ⟨0, false, [], []⟩⟩ : ArrStream) →
      ∀ s, s = tst 0 (fun y => { y.setArr 0 { arrDflt 0 with cur := [x] } with fpq := List.replicate 256 (.row (ins0 0x21 0x21 1) 1 0 0 false [] 0) }) id →
      (((s.here.fillQueue 3).tile 3).arr 0).cur.map (·.rows) = [rows] ∧ (s.here.fillQueue 3).arraysRun 3 = true) ∧
    (∀ f, f = (⟨ins0 0x21 0x21 1, 0x0302, 64, 0, 0, 0, 0⟩ : CodecFault) → ∀ s, s = tst 0 (fun x => x.setArr 0 { arrDflt 0 with fault := some f }) id →
      (((s.here.pump 3).tile 3).arr 0).fault = some f ∧ (s.here.pump 3).faults 3 = [(0, f)] ∧ f.status ≠ 0x0265 ∧ (s.dev.tile 3).hbmCopy f.base = none) ∧
    (∀ s, s = tst 0 (fun x => { x.setAq 0 [ins0 0x20 0x20 0] with fills := [⟨0, 0, [], [(0, 128)], 0⟩] })
        (fun d => ((d.set (TCX.FAULT_STATUS.VALID 3) 1).set (TCX.FAULT_STATUS.SOURCE_MASK 3) 1).set (CMD.SEQ_STATE.STATE 3) tsHALTED) →
      s.dev.flag (TCX.FAULT_STATUS.VALID 3) = true ∧ s.dev.halted 3 = true ∧ s.dev.faultBases 3 = [0] ∧ (s.dev.tile 3).hbmCopy 0 ≠ none ∧ 0 ∉ (s.dev.tile 3).retried) ∧
    (∀ s, s = tst 0 id id → mapOk (s.dev.get (MXA.FAILED.MASK 3)) (0xFEDCBA98 : Reg).toNat = true ∧ mapOk (s.dev.get (MXA.FAILED.MASK 3)) (0xFEDCBA88 : Reg).toNat = false ∧
      (s.dev.tile 3).arraysIdle = true) := by
  refine ⟨?_, ?_, ?_, ?_, ?_, ?_⟩
  · rintro s rfl; decide +kernel
  · rintro i rfl s rfl; decide +kernel
  · intro rows h x hx s hs; subst hs; subst hx; revert rows; decide +kernel
  · rintro f rfl s rfl; decide +kernel
  · rintro s rfl; decide +kernel
  · rintro s rfl; decide +kernel

/-- DMA at issue, a queued descriptor that passes its check and one that fails it, one in progress; a region idle and busy, a producer with credit, a starved requester. -/
theorem witness_TileDmaAndScratchpad :
    (∀ w ∈ [0x60, 0x60 + 2 ^ 64], ∀ s, s = tst w id id → Issues s 3 0x60 (pumped s) false (wordAt s) ∧ ((pumped s).tile 3).dq.length < 16 ∧
      ((((pumped s).tile 3).ra false (bits (wordAt s) 37 34) + bits (wordAt s) 86 64) % 2 ^ 23 % 64 = 0 ↔ w = 0x60)) ∧
    (∀ e, e = (⟨none, 0, bytesOf 64 [(0, 1, 3)], 0, [], [], 0, false⟩ : ChanEnt) →
      (∀ s, s = tst 0 (fun x => x.setChan 1 ⟨[e], none, none⟩) id → (s.here.pump 3).flag (TDMA.CH_STATE.ERROR 3 1) = false ∧ (((s.here.pump 3).tile 3).chan 1).cur = none ∧
        (s.here.pump 3).nextDesc 3 1 = some e ∧ (match ((s.here.pump 3).descCheck 3 e.bytes).2 with | .ok _ => false | .error _ => true) = true) ∧
      (∀ s, s = tst 0 (fun x => x.setChan 1 ⟨[], some e, none⟩) id → ((s.dev.tile 3).chan 1).cur = some e ∧ s.here.srcReady 3 e = true ∧ s.here.dstOpen 3 e = true ∧
        s.here.descFault 3 e = none)) ∧
    (∀ s, s = tst 0 id id → regionOf 3 (SPM.REGION_BASE.REG 3 2).off = some 2 ∧ s.dev.regionValid 3 2 (SPM.REGION_BASE.REG 3 2).off 128 = true ∧
      s.dev.regionValid 3 2 (SPM.REGION_BASE.REG 3 2).off (2 ^ 31) = false ∧ s.dev.regionBusy 3 2 = false ∧ s.dev.regOk 3 2 = false ∧ (s.dev.tile 3).resumeHeld = false) ∧
    (∀ s, s = tst 0 id (fun d => ((d.set (SPM.REGION_BASE.VALID 3 2) 1).set (SPM.REGION_SIZE.SIZE 3 2) 2).set (SPM.REGION_BIND.REMOTE_EN 3 2) 1) → s.dev.regOk 3 2 = true ∧
      s.dev.flag (SPM.REGION_BIND.REMOTE_EN 3 2) = true ∧ s.dev.creditRoom 3 2 (s.dev.regTail 3 2) (zeros 128).length = true) ∧
    (∀ e, e = (⟨5, 1, 0, 0⟩ : StarveEnt) → ∀ s, s = tst 0 (fun x => { x with starved := [e] }) id → Calm s ∧
      (s.dev.tile 3).starved.filter (fun e => decide (s.dev.tclkAt (wingOf 3) s.here.now ≤ e.grant + 15)) = [e] ∧ e.bank = 5 ∧ e.requester = 1) := by
  refine ⟨?_, ?_, ?_, ?_, ?_⟩
  · intro w h s hs; subst hs; refine ⟨issues ?_, ?_⟩ <;> (revert w; decide +kernel)
  · rintro e rfl; refine ⟨?_, ?_⟩ <;> (rintro s rfl; decide +kernel)
  · rintro s rfl; decide +kernel
  · rintro s rfl; decide +kernel
  · rintro e rfl s rfl; exact ⟨calm (by decide +kernel), by decide +kernel⟩
/-- A transport frame of a type to this device, and a frame of a port without an address that carries it. -/
def tf (type cls : Nat) : TFrame := ⟨type, 0, cls, 2, 0, 7, 0, 0, 0, 0, 0, []⟩
def frameTo (f : TFrame) : Bytes := zeros 12 ++ [0x86, 0xDD] ++ ip6Udp 1 0 0 0 5 4791 (tframeBytes f)

theorem cellFrame {s : State} {type : Nat} {bs : Bytes} (u : UdpIn) (f : TFrame)
    (h : (s.dev.cellUp 0 && readUdp6 bs == some u && !u.ce && u.dport == (s.here.bump (CFI.PORT_RX.COUNT 0) 1).get CFI.CTL.UDP_PORT &&
      u.dst == (s.here.bump (CFI.PORT_RX.COUNT 0) 1).cellIp 0 && readTframe u.pay == some f && f.type == type && f.dst == (s.here.bump (CFI.PORT_RX.COUNT 0) 1).rank) = true) :
    CellFrame s 0 type bs (s.here.bump (CFI.PORT_RX.COUNT 0) 1) f false := by
  simp only [Bool.and_eq_true, beq_iff_eq, Bool.not_eq_true'] at h
  obtain ⟨⟨⟨⟨⟨⟨⟨h1, h2⟩, h3⟩, h4⟩, h5⟩, h6⟩, h7⟩, h8⟩ := h
  exact ⟨h1, u, _, rfl, h2, h3.symm, by rw [h3]; rfl, h4, h5, h6, h7, h8⟩

/-- A link of pipeline 0 from this device to rank 2. -/
def link0 : LinkEnt := ⟨0, 1, false, 0, 1, 0, 0, 1, 0, 1, 128, 4352⟩
def linked (d : Dev) : Dev :=
  (d.setPipe 0 ⟨some { pmap with stages := [(0, 0), (2, 0)], links := [link0] }, [], [(0, 3)], [], []⟩).set (QSU.TALLY_VALUE.VALUE 0) 1

/-- Frames of each type, on a port that is up, for no collective or link that runs; a port that is down; a link whose slot is ready, and timers of a peer. -/
theorem witness_CellFrames :
    (∀ s, s = run (fun d => (cellOn 0 d).set CFI.CTL.UDP_PORT 4791) → ∀ type ∈ [ftDATA, ftACK, ftREADY, ftGRANT, ftCREDIT],
      CellFrame s 0 type (frameTo (tf type 0)) (s.here.bump (CFI.PORT_RX.COUNT 0) 1) (tf type 0) false) ∧
    (∀ s, s = run (cellOn 0) → s.dev.cellUp 0 = true ∧ readUdp6c [] = none ∧ s.dev.slotOf 7 0 = none ∧ s.dev.slotTag 7 = none ∧ s.dev.linkIn 7 2 = none ∧
      s.dev.linkOut 7 = none ∧ (s.dev.rxPeer (peerKey 2 0)).seen 0 = false) ∧ (run id).dev.cellUp 0 = false ∧
    (∀ s, s = run linked → s.dev.linkOut 0 = some ({ pmap with stages := [(0, 0), (2, 0)], links := [link0] }, link0, 2, 0) ∧
      (s.dev.pipe (0 / 65536)).rows.find? (fun e => e.1 == (s.dev.linkTx 0).k) = some (0, 3) ∧
      (s.dev.linkTx 0).k + 1 ≤ s.dev.get (QSU.TALLY_VALUE.VALUE (pmap.tallyBase + link0.readyOff)) ∧ (s.dev.linkTx 0).reading = false ∧
      (s.dev.txPeer (peerKey 2 1)).holdsTag 0 = false ∧ (s.dev.tile 0).spmBad 0 3 = none) ∧
    (∀ s, s = run (fun d => { d with cfi.rx := smapSet rxDflt [] (peerKey 2 0) { rxDflt 0 with count := 1 }
                                     cfi.tx := smapSet txDflt [] (peerKey 2 0) { txDflt 0 with unacked := [⟨4, 7, 0, 0, 0, true, [], 0, 0, false, 0, 0⟩] } }) →
      (s.dev.rxPeer (peerKey 2 0)).count ≠ 0 ∧ (s.dev.rxPeer (peerKey 3 0)).count = 0 ∧
      ((s.dev.txPeer (peerKey 2 0)).unacked.find? (fun f => f.psn == 4)).isSome = true ∧ ∀ f ∈ (s.dev.txPeer (peerKey 2 0)).unacked, f.psn ≠ 5) := by
  refine ⟨?_, ?_, by decide +kernel, ?_, ?_⟩
  · intro s hs type h; subst hs
    refine cellFrame ⟨false, 1, 0, 4791, 44, tframeBytes (tf type 0)⟩ (tf type 0) ?_; revert type; decide +kernel
  · rintro s rfl; decide +kernel
  · rintro s rfl; decide +kernel
  · rintro s rfl; decide +kernel

/-- Ports up and down, of the device and beyond it; a solicitation and an Echo Request for a port's own address, an ARP request for a far port's. -/
theorem witness_Ports :
    (∀ s, s = run (cellOn 0) → 0 < cellPorts s.dev.code ∧ s.dev.flag (CFI.PORT_STATE.UP 0) = true ∧ s.dev.flag (CFI.PORT_STATE.UP 1) = false ∧ cellPorts s.dev.code ≤ 16 ∧
      s.dev.cellUp 0 = true ∧ s.dev.cellUp 1 = false ∧ s.dev.portUp 0 = true ∧ s.dev.portUp 1 = false) ∧
    (∀ s, s = run (fun d => (d.set (CFI.PORT_STATE.ENABLE 1) 1).set (WXU.FAR_STATE.ENABLE 1) 1) → s.dev.flag (CFI.PORT_STATE.ENABLE 1) = true ∧ uCell 1 ∉ s.dev.csv.reviews ∧
      s.dev.flag (WXU.FAR_STATE.UP 1) = false ∧ s.dev.flag (WXU.FAR_STATE.ENABLE 1) = true ∧ uFar 1 ∉ s.dev.csv.reviews ∧ 1 < farPorts s.dev.code) ∧
    (∀ ty ∈ [135, 128], ∀ msg, msg = beBytes 1 ty ++ zeros 23 → ∀ bs, bs = zeros 12 ++ [0x86, 0xDD] ++ icmp6 5 0 255 0 msg →
      (match readIcmp6 bs with | some (src, dst, m) => decide (src = 5 ∧ dst = (run (cellOn 0)).dev.portIp6 0 ∧ be m 0 1 = ty ∧ be m 8 16 = 0 ∧ m.length = 24) | none => false) = true) ∧
    ((run (cellOn 0)).dev.echoed 0).length < 1000 ∧
    (∀ a, a = beBytes 8 0x0001080006040001 ++ zeros 20 → ∀ bs, bs = zeros 12 ++ [0x08, 0x06] ++ a → ∀ s, s = run (fun d => (farOn 1 d).set (WXU.FAR_STATE.IPV4_EN 1) 1) →
      s.dev.farUp 1 = true ∧ be bs 12 2 = 0x0806 ∧ be (bs.drop 14) 0 8 = 0x0001080006040001 ∧ be (bs.drop 14) 24 4 = s.dev.get (WXU.FAR_IP4.ADDR 1) ∧
      s.dev.flag (WXU.FAR_STATE.IPV4_EN 1) = true ∧ 28 ≤ (bs.drop 14).length) ∧
    (∀ s, s = run (fun d => slot5 wsOPEN id (farOn 1 d)) → s.dev.farUp 1 = true ∧ s.dev.slotState 5 ≠ wsFREE ∧
      0 < s.dev.fragSize + (if s.dev.flag (WXU.SLOT_STATE.IPV4 5) then 92 else 112)) := by
  refine ⟨?_, ?_, ?_, by decide +kernel, ?_, ?_⟩
  · rintro s rfl; decide +kernel
  · rintro s rfl; decide +kernel
  · intro ty h msg hm bs hb; subst hb; subst hm; revert ty; decide +kernel
  · rintro a rfl bs rfl s rfl; decide +kernel
  · rintro s rfl; decide +kernel
/-- A control packet of slot 5 without its seal, and the far frame that carries it. -/
def txp5 : Bytes := [0x13, 0, 0, 5, 1, 0, 0, 0, 0, 0, 0, 0, 0, 0, 0, 1] ++ zeros 16 ++ [0, 16] ++ zeros 46
def farTo (pay : Bytes) : Bytes := zeros 12 ++ [0x86, 0xDD] ++ ip6Udp 1 0 0 0 5 4790 pay

/-- A frame of slot 5 in the vestibule. -/
def vf5 : VFrame := ⟨5, txp5.take 48, zeros 32, [], false, 0⟩

/-- A request of a control core: a SEAL under key 40. -/
def core5 : Bytes := bytesOf 64 [(0, 1, 1), (2, 2, 40)]

/-- Frames that arrive on a port that is up, for an OPEN slot and for none; a frame, a request and a fragment at the heads of their queues, and on a pair. -/
theorem witness_FarPath :
    (∀ s, s = run (fun d => slot5 wsOPEN id (farOn 1 (d.set WXU.FAR_CTL.UDP_PORT 4790))) → s.dev.farUp 1 = true ∧ notUdp (zeros 60) = true ∧ notUdp (farTo txp5) = false ∧
      (match (s.here.portRx 17).readTxp 1 (farTo txp5) with
        | some x => decide (x.ce = false ∧ x.pay = txp5 ∧ txpWell x.pay = true ∧ hRecv x.pay = 5 ∧ hKind (x.pay.take 48) ≠ tkHANDSHAKE ∧ hIsData (x.pay.take 48) = false ∧
            s.dev.slotOpen 5 = true ∧ s.dev.slotGen 5 = hRecvGen (x.pay.take 48) ∧ s.dev.get (WXU.SLOT_PEER.PEER_SLOT 5) = hSend (x.pay.take 48) ∧
            s.dev.get (WXU.SLOT_PEER.PEER_GEN 5) = hSendGen (x.pay.take 48) ∧ s.dev.vestRoom (x.pay.take 48) = true ∧
            s.dev.replayOk 5 (PSlot.fresh 0 47100 16 1 0) (x.pay.take 48) = true)
        | none => false) = true ∧ s.dev.pslot 5 = some (PSlot.fresh 0 47100 16 1 0) ∧ s.dev.pslot 6 = none) ∧ (run id).dev.farUp 1 = false ∧
    (∀ s, s = run (fun d => (slot5 wsOPEN id d).setCqueue 0 [.openFrame vf5 20 false]) → s.dev.cqueue 0 = [.openFrame vf5 20 false] ∧ (s.dev.freePair none).isSome = true ∧
      (match ((s.here.setCqueue 0 []).useKey 20).2 with | .ok (.session _) => true | _ => false) = true ∧ s.dev.canSeal 5 = true) ∧
    (∀ s, s = run (fun d => (slot5 wsOPEN id d).setCqueue 1 [.sealFrame 5 20 1 txp5 [] false]) →
      s.dev.cqueue 1 = [.sealFrame 5 20 1 txp5 [] false] ∧ s.dev.canSeal 5 = true ∧ (s.dev.freePair none).isSome = true ∧ (PSlot.fresh 0 47100 16 1 0).txSeq + 1 < 0xF0000000) ∧
    (∀ r ∈ [CReq.openFrame vf5 20 false, .sealFrame 5 20 1 txp5 [] false, .core core5 false], ∀ s, s = run (fun d => (slot5 wsOPEN id (farOn 1 d)).setCpair 3 (some r)) →
      s.dev.cpair 3 = some r ∧ 3 ∉ s.dev.sec.upset ∧ s.dev.slotOpen 5 = true ∧ s.dev.farUp 1 = true) ∧
    (∀ s, s = run (fun d => { d.setCpair 3 (some (.sealFrame 5 20 1 txp5 [] false)) with sec.upset := [3] }) → s.dev.cpair 3 = some (.sealFrame 5 20 1 txp5 [] false) ∧ 3 ∈ s.dev.sec.upset ∧
      (s.dev.freePair (some 3)).isSome = true) ∧
    (∀ s, s = run (fun d => { d with wxu.drains := [⟨5, txp5, []⟩] }) → s.dev.wxu.drains = [⟨5, txp5, []⟩] ∧ s.dev.rnd.cfg = none) ∧
    (∀ c, c = { roundCfg with shards := [⟨0, 0, 0, [(1, 5)], 0, 0, 64, 64⟩] } → c.fragShard 5 0 = some (0, ⟨0, 0, 0, [(1, 5)], 0, 0, 64, 64⟩, 0)) ∧
    coreReqOk core5 = true ∧ le core5 0 1 = 1 ∧ coreReqOk [] = false ∧ (run id).dev.cqueue 2 = [] := by
  refine ⟨?_, by decide +kernel, ?_, ?_, ?_, ?_, ?_, ?_, by decide +kernel, by decide +kernel, by decide +kernel, by decide +kernel⟩
  · rintro s rfl; decide +kernel
  · rintro s rfl; decide +kernel
  · rintro s rfl; decide +kernel
  · intro r h s hs; subst hs; revert r; decide +kernel
  · rintro s rfl; decide +kernel
  · rintro s rfl; decide +kernel
  · rintro c rfl; decide +kernel

/-- An OPEN slot with an acknowledgement, a gap, a WANT, a fragment kept and a previous key; one in QUARANTINE; windows that fit and do not; a leaver and a waiter. -/
theorem witness_ExchangeTimers :
    (run (slot5 wsQUARANTINE id)).dev.slotState 5 = wsQUARANTINE ∧
    (∀ k, k = (⟨3, false, 0, 0, 0, 0, 0, true, false, 0, 0, true, true, none, false, 1⟩ : SentFrag) →
      ∀ p, p = { PSlot.fresh 0 47100 16 1 0 with ackCount := 1, wantAt := some 0, kept := [k, { k with dseq := 4, due := some 5 }] } →
      ∀ s, s = run (fun d => slot5 wsOPEN (fun _ => p) (farOn 1 d)) → s.dev.pslot 5 = some p ∧ s.dev.slotOpen 5 = true ∧ s.dev.farDown = false ∧ p.ackCount ≠ 0 ∧ p.silent = false ∧
        p.wantAt = some 0 ∧ s.dev.backlogOf p = 0 ∧ p.kept.find? (fun k => k.dseq == 3) = some k ∧ k.again = false ∧ k.due = none ∧
        (p.kept.find? (fun k => k.dseq == 4)).bind (·.due) = some 5 ∧ (s.dev.session 5).isSome = true ∧ s.dev.sendReady 5 = false) ∧
    (run id).dev.farDown = true ∧
    (∀ v ∈ [1024, 1023, 0], (bits (BitVec.ofNat 32 v : Reg).toNat 27 0 % 1024 = 0 ↔ v ≠ 1023) ∧ ((run id).dev.get (WXU.SLOT_WINDOW.BYTES 5) = bits v 27 0 ↔ v = 0)) ∧
    (run id).dev.windowSum - (run id).dev.get (WXU.SLOT_WINDOW.BYTES 5) / 1024 + 1024 / 1024 ≤ 131072 ∧
    (run (fun d => d.set (WXU.SLOT_WINDOW.BYTES 6) (2 ^ 28 - 1024))).dev.windowSum ≤ 2 ^ 28 ∧
    (∀ s, s = run (slot5 wsOPEN (fun p => { p with leavingAt := some 0 })) → (match s.dev.pslot 5 with | some p => p.leavingAt == some 0 | none => false) = true ∧ s.dev.waiters = []) ∧
    (run (fun d => { d with wxu.fullDrop := true })).dev.wxu.fullDrop = true ∧
    (∀ s, s = run (fun d => (d.set WXU.VEST_CTL.OVERCOMMIT 4).set WXU.VEST_CTL.EFFECTIVE 2) → s.dev.get WXU.VEST_CTL.EFFECTIVE < s.dev.get WXU.VEST_CTL.OVERCOMMIT) := by
  refine ⟨by decide +kernel, ?_, by decide +kernel, by decide +kernel, by decide +kernel, by decide +kernel, ?_, rfl, ?_⟩
  · rintro k rfl p rfl s rfl; decide +kernel
  · rintro s rfl; decide +kernel
  · rintro s rfl; decide +kernel

/-- An empty fault ring and a head beyond it; a fault in handling, a unit in WATCH, reviews that run; a tile whose test is due with a reserve free, and loans in each phase. -/
theorem witness_FaultsAndLoans :
    (∀ s, s = run id → ((0 : Reg).toNat % 64 + 64 - s.dev.get CSV.FRING_HEAD.INDEX) % 64 ≤ s.dev.get CSV.STATE.FRING_LEVEL ∧
      s.dev.get CSV.STATE.FRING_LEVEL < ((3 : Reg).toNat % 64 + 64 - s.dev.get CSV.FRING_HEAD.INDEX) % 64) ∧
    (∀ b ∈ [false, true], ∀ s, s = run (fun d => { d with csv.handling := [⟨uTile 3, 1, 0, b⟩] }) → (s.dev.csv.handling[0]?).map (·.retired) = some b) ∧
    (∀ s, s = run (fun d => (d.setUnitSum (uTile 3) ⟨0, [(0, 1)], 0, 1⟩).set (suspLevel (uTile 3)) 1) → s.dev.get (suspLevel (uTile 3)) = 1 ∧ uTile 3 ∈ allUnits ∧
      (s.dev.unitSum (uTile 3)).recent = [(0, 1)]) ∧
    (∀ u ∈ [uCell 1, uFar 1, uPk 1], ∀ s, s = run (fun d => { d with csv.reviews := [u] }) → s.dev.csv.reviews.contains u = true ∧ reviewsAtOnce u = true) ∧
    (∀ t ∈ [3, 170], ∀ s, s = run (fun d => { d with csv.dueNow := [t] }) → s.dev.testFree t = true ∧ s.dev.dueAt t = some s.dev.now ∧
      ((s.dev.reserves (wingOf t)).contains t = true ↔ t = 170) ∧ (s.dev.reserveFor (wingOf t)).isSome = true) ∧
    (∀ ph ∈ [1, 2], ∀ l, l = (⟨3, 170, ph, 0⟩ : Loan) → ∀ s, s = run (fun d => d.setLoan 0 (some l)) → s.dev.findLoan (fun l => l.phase == ph) = some (0, l) ∧
      (s.dev.tile 3).spmBad 0 spmBytes = none ∧ s.dev.seqState l.tile = tsEMPTY ∧ (s.dev.oldestWait = if ph = 1 then some (0, l) else none)) := by
  refine ⟨?_, ?_, ?_, ?_, ?_, ?_⟩
  · rintro s rfl; decide +kernel
  · intro b h s hs; subst hs; revert b; decide +kernel
  · rintro s rfl; decide +kernel
  · intro u h s hs; subst hs; revert u; decide +kernel
  · intro t h s hs; subst hs; revert t; decide +kernel
  · intro ph h l hl s hs; subst hs; subst hl; revert ph; decide +kernel

/-- A tile in test; arrays judged PERMANENT, not yet marked, on a tile without a program whose map avoids them; a PERMANENT tile with a reserve free and with none. -/
theorem witness_FieldTests :
    (∀ s, s = run (fun d => { d with csv.testing := smapSet testDflt [] 20 (some 0) }) → s.dev.testing 20 = some 0 ∧ (∀ x ∈ tileUnits 20, x ∉ s.dev.csv.reviews) ∧ s.dev.testing 3 = none) ∧
    (run id).dev.unmarked 3 = [] ∧
    (∀ s, s = run (fun d => d.set (suspLevel (uArray 3 2)) 3) → s.dev.unmarked 3 = [2] ∧ s.dev.seqState 3 = tsEMPTY ∧ s.dev.logical 3 ≠ 0xFFFF ∧
      (∀ d, d = s.here.set (MXA.FAILED.MASK 3) ([2].foldl (fun m a => putBits m a a 1) (s.dev.get (MXA.FAILED.MASK 3))) →
        (d.applyMap 3 (mapAvoiding ([2].foldl (fun m a => putBits m a a 1) (s.dev.get (MXA.FAILED.MASK 3))))).logical 3 ≠ 0xFFFF ∧ d.atBoundary 3 = false)) ∧
    (run id).dev.get (suspLevel (uTile 3)) ≠ 3 ∧
    (∀ rs ∈ [[], [20, 29, 70, 79, 120, 129, 170, 179]], ∀ s, s = run (fun d => { d.set (suspLevel (uTile 3)) 3 with csv.retiredTiles := rs }) → s.dev.get (suspLevel (uTile 3)) = 3 ∧
      s.dev.logical 3 ≠ 0xFFFF ∧ s.dev.seqState 3 = tsEMPTY ∧ s.dev.findLoan (fun l => l.phase == 1 && l.tile == 3) = none ∧ s.dev.loan (wingOf 3) = none ∧
      (s.dev.reserveFor (wingOf 3) = none ↔ rs ≠ []) ∧ s.dev.stealable 3 = none) := by
  refine ⟨?_, by decide +kernel, ?_, by decide +kernel, ?_⟩
  · rintro s rfl; decide +kernel
  · rintro s rfl; refine ⟨by decide +kernel, by decide +kernel, by decide +kernel, ?_⟩; rintro d rfl; decide +kernel
  · intro rs h s hs; subst hs; revert rs; decide +kernel

/-- The conservator's commands with operands at the ends of their ranges, on tiles that are and are not reserves, and with a dump that is and is not there. -/
theorem witness_ConservatorCommands :
    (∀ m ∈ [1, 10080], ∀ ops, ops = opsOf 48 [(22, 2, m)] → AtHead (cmd 0x0901 ops id) ring16 0x0901 ops ∧ opnd ops 16 1 = 0 ∧ opndZero ops 17 1 = true ∧ opndZero ops 24 40 = true ∧
      opnd ops 22 2 = m) ∧
    (∀ ops, ops = opsOf 48 [(16, 1, 3)] → AtHead (cmd 0x0901 ops id) ring16 0x0901 ops ∧ 2 < opnd ops 16 1) ∧
    (∀ t ∈ [3, 20], ∀ ops, ops = opsOf 48 [(16, 1, 1), (18, 2, t)] → ∀ f, f = (fun d : Dev => { d with csv.testing := smapSet testDflt [] 20 (some 0) }) →
      AtHead (cmd 0x0901 ops f) ring16 0x0901 ops ∧ opnd ops 16 1 = 1 ∧ opndZero ops 17 1 = true ∧ opndZero ops 24 40 = true ∧ opnd ops 18 2 = t ∧
      ((cmd 0x0901 ops f).here.testFree (opnd ops 18 2) = true ↔ t = 3)) ∧
    (∀ t ∈ [3, 20, 200], ∀ ops, ops = opsOf 48 [(16, 2, t), (18, 2, 511), (20, 1, 5), (21, 1, 100)] → AtHead (cmd 0x0902 ops id) ring16 0x0902 ops ∧ opnd ops 16 2 = t ∧
      opnd ops 18 2 < 512 ∧ opnd ops 20 1 = 5 ∧ opnd ops 21 1 = 100 ∧ (t < 200 → (((cmd 0x0902 ops id).here.reserves (wingOf t)).contains t = true ↔ t = 20)) ∧
      (t = 20 → (cmd 0x0902 ops id).here.isFree t = true)) ∧
    (∀ n ∈ [6, 20], ∀ ops, ops = opsOf 48 [(24, 1, 1), (25, 1, n), (26, 2, 1000), (28, 1, 1)] → AtHead (cmd 0x0904 ops id) ring16 0x0904 ops ∧ opnd ops 24 1 ≤ 1 ∧ opnd ops 25 1 = n ∧
      opnd ops 26 2 = 1000 ∧ opnd ops 28 1 ≤ 1) ∧
    (∀ k ∈ [0, 1, 2, 3, 4], ∀ ops, ops = opsOf 48 [(16, 1, k), (18, 2, 0xFFFF)] → AtHead (cmd 0x0903 ops id) ring16 0x0903 ops ∧ opnd ops 16 1 = k ∧ opnd ops 18 2 = 0xFFFF) ∧
    (∀ l ∈ [0, 2, 3], ∀ ops, ops = opsOf 48 [(16, 1, 2), (18, 2, uTile 3)] → ∀ s, s = cmd 0x0903 ops (fun d => d.set (suspLevel (uTile 3)) l) → AtHead s ring16 0x0903 ops ∧
      opnd ops 18 2 ∈ allUnits ∧ s.dev.get (suspLevel (opnd ops 18 2)) = l ∧ opnd ops 18 2 ∉ s.dev.csv.acquitted) ∧
    (∀ v ∈ [0, 1], ∀ ops, ops = opsOf 48 [(20, 8, 2 ^ 28 - 128), (28, 4, 128)] → ∀ s, s = cmd 0x0905 ops (fun d => d.set CSV.DUMP_STATE.VALID v) → AtHead s ring16 0x0905 ops ∧
      opnd ops 16 1 = 0 ∧ opnd ops 28 4 ≤ 0x4000000 ∧ (s.dev.flag CSV.DUMP_STATE.VALID = true ↔ v = 1) ∧ opnd ops 20 8 + opnd ops 28 4 = 2 ^ 28 ∧
      ∃ d1, s.here.readSegs [(archiveBase + opnd ops 20 8, opnd ops 28 4)] = (d1, none)) := by
  refine ⟨?_, ?_, ?_, ?_, ?_, ?_, ?_, ?_⟩
  · intro m h ops ho; subst ho; refine ⟨atHead ?_, ?_⟩ <;> (revert m; decide +kernel)
  · rintro ops rfl; exact ⟨atHead (by decide +kernel), by decide +kernel⟩
  · intro t h ops ho f hf; subst ho; subst hf; refine ⟨atHead ?_, ?_⟩ <;> (revert t; decide +kernel)
  · intro t h ops ho; subst ho; refine ⟨atHead ?_, ?_⟩ <;> (revert t; decide +kernel)
  · intro n h ops ho; subst ho; refine ⟨atHead ?_, ?_⟩ <;> (revert n; decide +kernel)
  · intro k h ops ho; subst ho; refine ⟨atHead ?_, ?_⟩ <;> (revert k; decide +kernel)
  · intro l h ops ho s hs; subst hs; subst ho; refine ⟨atHead ?_, ?_⟩ <;> (revert l; decide +kernel)
  · intro v h ops ho s hs; subst hs; subst ho
    refine ⟨atHead ?_, ?_, ?_, ?_, ?_, noneOf _ ?_⟩ <;> (revert v; decide +kernel)

/-- A sample at each stage of its replay, and none; links up and down; telemetry to the host, to the device and off; summaries to write. -/
theorem witness_BackgroundWork :
    (run id).dev.csv.replay = none ∧
    (∀ g ∈ [0, 1, 2, 3, 4], ∀ r, r = (⟨3, 2, g, 20, 29, 0, 0, []⟩ : Replay) → ∀ s, s = run (fun d => { d with csv.replay := some r }) → s.dev.csv.replay = some r ∧ r.stage = g ∧
      ((s.dev.tile r.tile).arr r.array).cur = []) ∧
    (∀ s, s = run (fun d => { d.onTile 3 (fun x => x.setArr 2 { arrDflt 2 with cur := [⟨ins0 0x21 0x21 1, [], [], [], false, 1, none, ⟨0, false, [], []⟩⟩] }) with csv.replay := some ⟨3, 2, 1, 20, 29, 0, 0, []⟩ }) →
      ((s.dev.tile 3).arr 2).cur ≠ [] ∧ s.dev.csv.replay.map (·.stage) = some 1) ∧
    (∀ s, s = run (fun d => { d with csv.spmPos := smapSet zeroDflt [] 3 65535 }) → smapGet zeroDflt s.dev.csv.spmPos 3 = 65535) ∧
    (∀ s, s = run (fun d => (d.set (CFI.PORT_STATE.UP 15) 1).set (WXU.FAR_STATE.UP 3) 1) → s.dev.flag (CFI.PORT_STATE.UP 15) = true ∧ s.dev.flag (CFI.PORT_STATE.UP 0) = false ∧
      s.dev.flag (WXU.FAR_STATE.UP 3) = true ∧ s.dev.flag (WXU.FAR_STATE.UP 0) = false) ∧
    (∀ v ∈ [false, true], ∀ c, c = (⟨0x1000, v, 6, 2, true, 4, 0⟩ : Telem) → (run (fun d => { d with csv.telem := c })).dev.csv.telem = c ∧ c.en = true ∧ c.count % c.decim = 0 ∧ c.device = v) ∧
    (run id).dev.csv.telem.en = false ∧ (run id).dev.errorTotals = (0, 0, 0) ∧
    (∀ v ∈ [false, true], ∀ s, s = run (fun d => { d with csv.dirtyPerm := v }) → Calm s ∧ s.dev.csv.dirtyPerm = v ∧ s.dev.csv.dirty = false) := by
  refine ⟨rfl, ?_, ?_, ?_, ?_, ?_, rfl, by decide +kernel, ?_⟩
  · intro g h r hr s hs; subst hs; subst hr; revert g; decide +kernel
  · rintro s rfl; decide +kernel
  · rintro s rfl; decide +kernel
  · rintro s rfl; decide +kernel
  · rintro v - c rfl; exact ⟨rfl, rfl, (by show 4 % 2 = 0; decide), rfl⟩
  · intro v h s hs; subst hs; refine ⟨calm ?_, ?_⟩ <;> (revert v; decide +kernel)

/-- The debug commands at level 0 and at level 2, with entropy and without, with a challenge and a token, with cores halted, asked to halt and running, and reads of registers at the ends of their range. -/
theorem witness_DebugCommands :
    (∀ v ∈ [0, 1], AtHead (cmd 0x0A01 (zeros 48) (fun d => d.set SEC.STATE.ENTROPY_OK v)) ring16 0x0A01 (zeros 48) ∧ opnd (zeros 48) 16 1 = 0 ∧
      ((cmd 0x0A01 (zeros 48) (fun d => d.set SEC.STATE.ENTROPY_OK v)).dev.entropyOk = true ↔ v = 1)) ∧
    (∀ ops, ops = opsOf 48 [(16, 1, 1), (24, 8, 0x9000)] → AtHead (cmd 0x0A01 ops id) ring16 0x0A01 ops ∧ opnd ops 16 1 = 1 ∧ (cmd 0x0A01 ops id).dev.csv.challenge = none ∧
      ∀ s, s = cmd 0x0A01 ops (fun d => { d with csv.challenge := some (zeros 32) }) → AtHead s ring16 0x0A01 ops ∧ s.dev.csv.challenge = some (zeros 32) ∧
        ∃ d1 t, s.here.fetch (hifAcc 1 (s.here.attestDom ring16)) (opnd ops 24 8) 256 = (d1, .ok t)) ∧
    (∀ ops, ops = opsOf 48 [(16, 1, 2)] → AtHead (cmd 0x0A01 ops id) ring16 0x0A01 ops ∧ opnd ops 16 1 = 2) ∧
    (∀ opc ∈ [0x0A02, 0x0A03, 0x0A04], AtHead (cmd opc (zeros 48) id) ring16 opc (zeros 48) ∧ (cmd opc (zeros 48) id).dev.dbgLevel < 1) ∧
    (∀ h ∈ [0, 8], ∀ opc ∈ [0x0A02, 0x0A03], ∀ ops, ops = opsOf 48 [(16, 1, 8)] → ∀ s, s = cmd opc ops (fun d => (d.set CSV.DBG_STATE.LEVEL 2).set CSV.DBG_STATE.HALTED h) →
      AtHead s ring16 opc ops ∧ opnd ops 16 1 = 2 ^ 3 ∧ 2 ≤ s.dev.dbgLevel ∧ ((∀ c ∈ maskBits 8 4, (s.dev.get CSV.DBG_STATE.HALTED).testBit c = true) ↔ h = 8) ∧
      (s.dev.get CSV.DBG_STATE.HALTED &&& 8 = 8 ↔ h = 8) ∧ s.dev.haltAsked 3 = none) ∧
    (∀ n ∈ [1, 8, 9], ∀ ops, ops = opsOf 48 [(16, 4, 2 ^ 26 - 32), (20, 1, n)] → ∀ s, s = cmd 0x0A04 ops (fun d => d.set CSV.DBG_STATE.LEVEL 1) → AtHead s ring16 0x0A04 ops ∧ 1 ≤ s.dev.dbgLevel ∧
      opnd ops 20 1 = n ∧ opnd ops 16 4 % 4 = 0 ∧ (opnd ops 16 4 + 4 * n ≤ 2 ^ 26 ↔ n ≠ 9)) ∧
    (∀ s, s = run (fun d => { d with csv.haltReq := smapSet reqDflt [] 2 (some 5) }) → s.dev.haltAsked 2 = some 5 ∧ s.dev.haltAsked 1 = none) := by
  refine ⟨?_, ?_, ?_, ?_, ?_, ?_, ?_⟩
  · intro v h; refine ⟨atHead ?_, ?_⟩ <;> (revert v; decide +kernel)
  · rintro ops rfl; refine ⟨atHead (by decide +kernel), by decide +kernel, by decide +kernel, ?_⟩
    rintro s rfl; exact ⟨atHead (by decide +kernel), by decide +kernel, okOf _ (by decide +kernel)⟩
  · rintro ops rfl; exact ⟨atHead (by decide +kernel), by decide +kernel⟩
  · intro opc h; refine ⟨atHead ?_, ?_⟩ <;> (revert opc; decide +kernel)
  · intro v h opc h' ops ho s hs; subst hs; subst ho; refine ⟨atHead ?_, ?_⟩ <;> (revert opc; revert v; decide +kernel)
  · intro n h ops ho s hs; subst hs; subst ho; refine ⟨atHead ?_, ?_⟩ <;> (revert n; decide +kernel)
  · rintro s rfl; decide +kernel

end Sys2Proof.Tests
end

section
/-! PROOFS. Ring pointers and tallies (R52, R53, R62 to R66): first what is shared (effects in a calm state, registers
and what they leave alone), then the rules of ring pointers and of tallies, then the statements. -/

namespace Sys2Proof.Machine

/-! ## Effects that keep a calm state calm -/

/-- An effect that touches neither the conservator nor the memory controllers is the whole change in a calm state. -/
theorem onDev_of_keeps {s : State} {f : Dev → Dev} {e : Dev} (hc : Calm s) (heff : f s.here = e)
    (hcsv : e.csv = s.dev.csv) (hhbm : e.hbm = s.dev.hbm) : s.onDev f = { s with dev := e } := by
  subst heff
  obtain ⟨hfatal, hnotes⟩ := hc
  exact onDev_calm s f (by rw [hcsv, hfatal]) (by rw [hhbm, hnotes])

theorem atRing_of_keeps {s : State} {r : Nat} {f : Dev → Dev} {e : Dev} (hc : Calm s) (hr : r < 16384)
    (heff : f s.here = e) (hcsv : e.csv = s.dev.csv) (hhbm : e.hbm = s.dev.hbm) :
    s.atRing r f = { s with dev := e } := by
  rw [State.atRing_lt s f hr, onDev_of_keeps hc heff hcsv hhbm]

/-! ## Register fields -/

theorem Dev.get_lt (d : Dev) (f : FRef) : d.get f < 2 ^ (f.hi + 1 - f.lo) := Nat.mod_lt _ (Nat.two_pow_pos _)

theorem Dev.get_congr {d e : Dev} (f : FRef) (h : e.rd f.off = d.rd f.off) : e.get f = d.get f := by
  rw [Dev.get, h, Dev.get]

theorem Dev.flag_congr {d e : Dev} (f : FRef) (h : e.rd f.off = d.rd f.off) : e.flag f = d.flag f := by
  rw [Dev.flag, Dev.get_congr f h, Dev.flag]

theorem onlyParts_set (s : State) (f : FRef) (v : Nat) : OnlyParts [.regs] s { s with dev := s.here.set f v } := by
  refine ⟨rfl, rfl, rfl, rfl, fun p _ hp => ?_⟩
  cases p
  case regs => simp at hp
  all_goals rfl

theorem onlyParts_commandPlane (s : State) (rs : SMap Reg) (os : List Output) (c : CmdUnit) (ts : SMap Tile) :
    OnlyParts [.regs, .out, .cmd, .tiles] s
      { s with dev := { s.here with regs := rs, out := os, cmd := c, tiles := ts } } := by
  refine ⟨rfl, rfl, rfl, rfl, fun p _ hp => ?_⟩
  cases p
  case regs | out | cmd | tiles => simp at hp
  all_goals rfl

theorem onlyFields_set (s : State) (f : FRef) (v : Nat) (h : f.lo ≤ f.hi + 1) :
    OnlyFields [f] s { s with dev := s.here.set f v } := fun off i hout =>
  Dev.rd_set_bit s.here f v off i h fun ho => hout f List.mem_cons_self ho.symm

/-! ## Positions on two laps (R53) -/

theorem lapDiff_of_le {n a b : Nat} (h : a ≤ b) (hb : b < 2 * n) : lapDiff n a b = b - a := by
  have e : b + 2 * n - a = b - a + 2 * n := by omega
  rw [lapDiff, e, Nat.add_mod_right, Nat.mod_eq_of_lt (by omega)]

theorem lapDiff_of_lt {n a b : Nat} (h : b < a) (ha : a < 2 * n) : lapDiff n a b = b + 2 * n - a :=
  Nat.mod_eq_of_lt (by omega)

theorem lapDiff_eq_zero_iff {n a b : Nat} (ha : a < 2 * n) (hb : b < 2 * n) : lapDiff n a b = 0 ↔ a = b := by
  rcases Nat.lt_or_ge b a with h | h
  · rw [lapDiff_of_lt h ha]; omega
  · rw [lapDiff_of_le h hb]; omega

theorem lapDiff_eq_count_iff {n a b : Nat} (ha : a < 2 * n) (hb : b < 2 * n) :
    lapDiff n a b = n ↔ b = a + n ∨ a = b + n := by
  rcases Nat.lt_or_ge b a with h | h
  · rw [lapDiff_of_lt h ha]; omega
  · rw [lapDiff_of_le h hb]; omega

@[simp] theorem ptrPos_zero (n i : Nat) : ptrPos n 0 i = i := by simp [ptrPos]
@[simp] theorem ptrPos_one (n i : Nat) : ptrPos n 1 i = n + i := by simp [ptrPos]

theorem ptrPos_lt {n l i : Nat} (hl : l < 2) (hi : i < n) : ptrPos n l i < 2 * n := by
  obtain rfl | rfl : l = 0 ∨ l = 1 := by omega
  all_goals simp only [ptrPos_zero, ptrPos_one]; omega

/-- Positions agree exactly when laps and indices do. -/
theorem ptrPos_inj {n l i l' i' : Nat} (hl : l < 2) (hi : i < n) (hl' : l' < 2) (hi' : i' < n) :
    ptrPos n l i = ptrPos n l' i' ↔ i = i' ∧ l = l' := by
  obtain rfl | rfl : l = 0 ∨ l = 1 := by omega
  all_goals
    obtain rfl | rfl : l' = 0 ∨ l' = 1 := by omega
    all_goals simp <;> omega

/-- Positions stand a whole lap apart exactly when the indices agree and the laps do not. -/
theorem ptrPos_lap_apart {n l i l' i' : Nat} (hl : l < 2) (hi : i < n) (hl' : l' < 2) (hi' : i' < n) :
    (ptrPos n l' i' = ptrPos n l i + n ∨ ptrPos n l i = ptrPos n l' i' + n) ↔ i = i' ∧ l ≠ l' := by
  obtain rfl | rfl : l = 0 ∨ l = 1 := by omega
  all_goals
    obtain rfl | rfl : l' = 0 ∨ l' = 1 := by omega
    all_goals
      simp
      omega

section RingFill
variable {d : Dev} {r : Nat} (hh : d.get (QSU.RING_HEAD.INDEX r) < d.ringCount r)
  (ht : d.get (QSU.RING_TAIL.INDEX r) < d.ringCount r)
include hh ht

/-- A ring whose pointers lie in it is empty when INDEX and LAP agree. -/
theorem Dev.ringUsed_eq_zero_iff : d.ringUsed r = 0 ↔
    d.get (QSU.RING_HEAD.INDEX r) = d.get (QSU.RING_TAIL.INDEX r) ∧
      d.get (QSU.RING_HEAD.LAP r) = d.get (QSU.RING_TAIL.LAP r) := by
  have hhl := d.get_lt (QSU.RING_HEAD.LAP r)
  have htl := d.get_lt (QSU.RING_TAIL.LAP r)
  exact (lapDiff_eq_zero_iff (ptrPos_lt hhl hh) (ptrPos_lt htl ht)).trans (ptrPos_inj hhl hh htl ht)

/-- It is full when INDEX agrees and LAP differs. -/
theorem Dev.ringUsed_eq_count_iff : d.ringUsed r = d.ringCount r ↔
    d.get (QSU.RING_HEAD.INDEX r) = d.get (QSU.RING_TAIL.INDEX r) ∧
      d.get (QSU.RING_HEAD.LAP r) ≠ d.get (QSU.RING_TAIL.LAP r) := by
  have hhl := d.get_lt (QSU.RING_HEAD.LAP r)
  have htl := d.get_lt (QSU.RING_TAIL.LAP r)
  exact (lapDiff_eq_count_iff (ptrPos_lt hhl hh) (ptrPos_lt htl ht)).trans (ptrPos_lap_apart hhl hh htl ht)

end RingFill

/-! ## Pointer writes (R53) -/

/-- The index a pointer write names: bits 19:0. -/
def writtenIx (v : Reg) : Nat := v.toNat % 2 ^ 20

/-- The position a pointer write names in a ring of `n` entries: bit 20 is the lap. -/
def writtenPos (n : Nat) (v : Reg) : Nat := (if v.getLsbD 20 then n else 0) + writtenIx v

theorem writtenPos_eq (n : Nat) (v : Reg) : ptrPos n (bits v.toNat 20 20) (bits v.toNat 19 0) = writtenPos n v := by
  have hlap : bits v.toNat 20 20 = (v.getLsbD 20).toNat := by
    rw [BitVec.getLsbD, Nat.toNat_testBit]; simp [bits, Nat.shiftRight_eq_div_pow]
  rw [hlap, writtenPos]
  cases v.getLsbD 20 <;> simp [bits, writtenIx]

theorem Dev.pointerOf_inside {d : Dev} {r : Nat} {v : Reg} (h : writtenIx v < d.ringCount r) :
    d.pointerOf r v = some (writtenPos (d.ringCount r) v) := by
  rw [← writtenPos_eq]
  exact if_neg (Nat.not_le.mpr h)

theorem Dev.pointerOf_outside {d : Dev} {r : Nat} {v : Reg} (h : ¬ writtenIx v < d.ringCount r) :
    d.pointerOf r v = none := if_pos (Nat.le_of_not_lt h)

section PointerWrites
variable {d : Dev} {r : Nat} {v : Reg}

/-- The host moves the tail of an enabled submission ring forward by at most the free entries. -/
theorem Dev.tailDoorbell_moves (hon : d.ringOn r 0 = true) (hin : writtenIx v < d.ringCount r ∧
    lapDiff (d.ringCount r) (d.ringTail r) (writtenPos (d.ringCount r) v) ≤ d.ringCount r - d.ringUsed r) :
    d.tailDoorbell r v = d.setTail r (writtenPos (d.ringCount r) v) := by
  obtain ⟨hix, hreach⟩ := hin
  simp [Dev.tailDoorbell, hon, Dev.pointerOf_inside hix, hreach]

/-- Any other tail write sets ERROR. -/
theorem Dev.tailDoorbell_errs (hon : d.ringOn r 0 = true) (hout : ¬ (writtenIx v < d.ringCount r ∧
    lapDiff (d.ringCount r) (d.ringTail r) (writtenPos (d.ringCount r) v) ≤ d.ringCount r - d.ringUsed r)) :
    d.tailDoorbell r v = d.ringError r 0x0107 := by
  by_cases hix : writtenIx v < d.ringCount r
  · simp [Dev.tailDoorbell, hon, Dev.pointerOf_inside hix, mt (And.intro hix) hout]
  · simp [Dev.tailDoorbell, hon, Dev.pointerOf_outside hix]

/-- The host moves the head of an enabled completion or event ring forward by at most the used entries. -/
theorem Dev.headWrite_moves (hon : d.ringOn r 1 = true ∨ d.ringOn r 2 = true) (hin : writtenIx v < d.ringCount r ∧
    lapDiff (d.ringCount r) (d.ringHead r) (writtenPos (d.ringCount r) v) ≤ d.ringUsed r) :
    d.headWrite r v = d.setHead r (writtenPos (d.ringCount r) v) := by
  obtain ⟨hix, hreach⟩ := hin
  have hon' : (d.ringOn r 1 || d.ringOn r 2) = true := by simpa using hon
  simp [Dev.headWrite, hon', Dev.pointerOf_inside hix, hreach]

/-- Any other head write sets ERROR. -/
theorem Dev.headWrite_errs (hon : d.ringOn r 1 = true ∨ d.ringOn r 2 = true) (hout : ¬ (writtenIx v < d.ringCount r ∧
    lapDiff (d.ringCount r) (d.ringHead r) (writtenPos (d.ringCount r) v) ≤ d.ringUsed r)) :
    d.headWrite r v = d.ringError r 0x0107 := by
  have hon' : (d.ringOn r 1 || d.ringOn r 2) = true := by simpa using hon
  by_cases hix : writtenIx v < d.ringCount r
  · simp [Dev.headWrite, hon', Dev.pointerOf_inside hix, mt (And.intro hix) hout]
  · simp [Dev.headWrite, hon', Dev.pointerOf_outside hix]

end PointerWrites

section RingCommands
variable {s : State} {r : Nat} {v : Reg} {e : Dev} (hc : Calm s) (hr : r < 16384)
include hc hr

theorem exec_ringTailDoorbell_calm (heff : s.here.tailDoorbell r v = e) (hcsv : e.csv = s.dev.csv)
    (hhbm : e.hbm = s.dev.hbm) : exec (.ringTailDoorbell r v) s = .next { s with dev := e } := by
  rw [exec_ringTailDoorbell, execRingTailDoorbell, atRing_of_keeps hc hr heff hcsv hhbm]

theorem exec_ringHeadWrite_calm (heff : s.here.headWrite r v = e) (hcsv : e.csv = s.dev.csv)
    (hhbm : e.hbm = s.dev.hbm) : exec (.ringHeadWrite r v) s = .next { s with dev := e } := by
  rw [exec_ringHeadWrite, execRingHeadWrite, atRing_of_keeps hc hr heff hcsv hhbm]

theorem exec_ringErrorClear_calm :
    exec (.ringErrorClear r) s = .next { s with dev := s.here.set (QSU.RING_STATUS.ERROR r) 0 } := by
  rw [exec_ringErrorClear, execRingErrorClear, atRing_of_keeps hc hr rfl rfl rfl]

end RingCommands

/-- Settles O19: pointer writes by the rule of each row, empty and full by the distance on two laps. -/
theorem ringPointers : Obligations.RingPointers := by
  intro s r v hc hr n ix p
  refine ⟨fun hon => ⟨fun hin => ?_, fun hout => ?_⟩, fun hon => ⟨fun hin => ?_, fun hout => ?_⟩,
    fun hh ht => ⟨Dev.ringUsed_eq_zero_iff hh ht, Dev.ringUsed_eq_count_iff hh ht⟩,
    _, exec_ringErrorClear_calm hc hr, onlyParts_set s _ _, onlyFields_set s _ _ (Nat.zero_le _), ?_⟩
  · exact exec_ringTailDoorbell_calm hc hr (Dev.tailDoorbell_moves hon hin) rfl rfl
  · exact exec_ringTailDoorbell_calm hc hr (Dev.tailDoorbell_errs hon hout) rfl rfl
  · exact exec_ringHeadWrite_calm hc hr (Dev.headWrite_moves hon hin) rfl rfl
  · exact exec_ringHeadWrite_calm hc hr (Dev.headWrite_errs hon hout) rfl rfl
  · exact Dev.get_set_same s.here (QSU.RING_STATUS.ERROR r) 0 (Nat.zero_lt_succ _) (Nat.zero_le _)

/-! ## The waits on a tally (R63) -/

/-- A read of a sparse map whose values were all changed alike. -/
theorem smapGet_mapValues {α : Type} {dflt : Nat → α} (f : α → α) (hf : ∀ j, f (dflt j) = dflt j) (m : SMap α) (j : Nat) :
    smapGet dflt (m.map fun e => (e.1, f e.2)) j = f (smapGet dflt m j) := by
  induction m with
  | nil => exact (hf j).symm
  | cons e m ih =>
    simp only [List.map_cons, smapGet, ih]
    split <;> rfl

/-- A ring's wait slot after tally `t` has come to hold `v`. -/
def latchSlot (t v : Nat) (w : WaitSlot) : WaitSlot :=
  { w with sat := w.sat || (w.tally == t && decide (w.threshold ≤ v)) }

/-- A tile's wait after tally `t` has come to hold `v`. -/
def latchTileWait (t v : Nat) (w : TWait) : TWait :=
  if w.isTally = true ∧ w.key = t ∧ w.amount ≤ v then { w with sat := true } else w

theorem latchTileWait_eq (t v : Nat) : latchTileWait t v =
    fun w => if w.isTally && w.key == t && decide (w.amount ≤ v) then { w with sat := true } else w := by
  funext w
  simp [latchTileWait, and_assoc]

/-- A tile after tally `t` has come to hold `v`. -/
def latchTile (t v : Nat) (x : Tile) : Tile := { x with waits := x.waits.map (latchTileWait t v) }

theorem latchSlot_met {t v : Nat} {w : WaitSlot} (ht : w.tally = t) (hv : w.threshold ≤ v) :
    latchSlot t v w = { w with sat := true } := by simp [latchSlot, ht, hv]

theorem latchTileWait_met {t v : Nat} {w : TWait} (hk : (latchTileWait t v w).isTally = true)
    (ht : (latchTileWait t v w).key = t) (hv : (latchTileWait t v w).amount ≤ v) : (latchTileWait t v w).sat = true := by
  unfold latchTileWait at *
  split
  · rfl
  · rename_i hn
    rw [if_neg hn] at hk ht hv
    exact absurd ⟨hk, ht, hv⟩ hn

@[simp] theorem Dev.releaseWaits_get (d : Dev) (t : Nat) (f : FRef) : (d.releaseWaits t).get f = d.get f := rfl

theorem Dev.releaseWaits_waits (d : Dev) (t : Nat) : (d.releaseWaits t).cmd.waits =
    d.cmd.waits.map fun e => (e.1, e.2.map (latchSlot t (d.get (QSU.TALLY_VALUE.VALUE t)))) := by
  refine List.map_congr_left fun e _ => ?_
  obtain ⟨r, _ | w⟩ := e
  · rfl
  · rfl

theorem Dev.releaseWaits_tiles (d : Dev) (t : Nat) : (d.releaseWaits t).tiles =
    d.tiles.map fun e => (e.1, latchTile t (d.get (QSU.TALLY_VALUE.VALUE t)) e.2) := by
  unfold latchTile
  rw [latchTileWait_eq]
  rfl

theorem Dev.releaseWaits_slot {d : Dev} {t r : Nat} {w : WaitSlot} (h : smapGet waitDflt d.cmd.waits r = some w) :
    smapGet waitDflt (d.releaseWaits t).cmd.waits r = some (latchSlot t (d.get (QSU.TALLY_VALUE.VALUE t)) w) := by
  rw [Dev.releaseWaits_waits, smapGet_mapValues (Option.map (latchSlot t _)) fun _ => rfl, h, Option.map_some]

theorem Dev.releaseWaits_tileWaits (d : Dev) (t i : Nat) : ((d.releaseWaits t).tile i).waits =
    (d.tile i).waits.map (latchTileWait t (d.get (QSU.TALLY_VALUE.VALUE t))) := by
  rw [Dev.tile, Dev.releaseWaits_tiles, smapGet_mapValues (latchTile t _) fun _ => rfl]
  rfl

/-! ## Raising a vector of function 0 (R629) -/

/-- The pending bits of function 0's vectors: `HIF.MSIX_PBA`. -/
def isPba (off : Nat) : Prop := 0x18000 ≤ off ∧ off < 0x18100

section Msix
variable {d : Dev} {v : Nat}

theorem Dev.msix_sent (hen : d.hif.msixEn0 = true) (hmask : d.hif.msixMask0 = false)
    (hvec : d.flag (HIF.MSIX_CTRL.MASK v) = false) : d.msix v = d.emit (.msix 0 v
      (d.get (HIF.MSIX_ADDR_LO.ADDR v) * 4 + d.get (HIF.MSIX_ADDR_HI.ADDR v) * 2 ^ 32) (d.get (HIF.MSIX_DATA.DATA v))) :=
  if_pos (by simp [hen, hmask, hvec])

theorem Dev.msix_held (h : d.hif.msixEn0 = false ∨ d.hif.msixMask0 = true ∨ d.flag (HIF.MSIX_CTRL.MASK v) = true) :
    d.msix v = d.wr (HIF.MSIX_PBA.REG (v / 32)).off
      (d.rd (HIF.MSIX_PBA.REG (v / 32)).off ||| BitVec.ofNat 32 (2 ^ (v % 32))) :=
  if_neg (by rcases h with h | h | h <;> simp [h])

/-- Raising a vector changes registers and outputs alone. -/
theorem Dev.msix_frame (d : Dev) (v : Nat) : d.msix v = { d with regs := (d.msix v).regs, out := (d.msix v).out } := by
  unfold Dev.msix
  split <;> rfl

@[simp] theorem Dev.msix_cmd (d : Dev) (v : Nat) : (d.msix v).cmd = d.cmd := by rw [Dev.msix_frame]
@[simp] theorem Dev.msix_tiles (d : Dev) (v : Nat) : (d.msix v).tiles = d.tiles := by rw [Dev.msix_frame]

/-- Of the registers it changes a pending bit alone. -/
theorem Dev.msix_rd (hv : v < 2048) {off : Nat} (hoff : ¬ isPba off) : (d.msix v).rd off = d.rd off := by
  have hne : off ≠ (HIF.MSIX_PBA.REG (v / 32)).off := by
    rintro rfl
    exact hoff ⟨Nat.le_add_right _ _, by simp only [HIF.MSIX_PBA.REG]; omega⟩
  unfold Dev.msix
  split
  · rfl
  · rw [Dev.rd_wr, if_neg hne]

theorem or_two_pow_getLsbD (w : Reg) {k : Nat} (hk : k < 32) : (w ||| BitVec.ofNat 32 (2 ^ k)).getLsbD k = true := by
  rw [BitVec.getLsbD_or, BitVec.getLsbD_ofNat]
  simp [hk, Nat.testBit_two_pow_self]

end Msix

/-! ## A tally's new value (R62, R63, R66) -/

/-- Tally `t` holds `v` and the waits it satisfies are latched; its interrupt is still to come. -/
def Dev.tallyPut (d : Dev) (t v : Nat) : Dev := (d.set (QSU.TALLY_VALUE.VALUE t) v).releaseWaits t

theorem Dev.tallySet_eq (d : Dev) (t v : Nat) :
    d.tallySet t v = (d.tallyPut t v).tallyIrq t (d.get (QSU.TALLY_VALUE.VALUE t)) := rfl

theorem Dev.vector_lt (d : Dev) (t : Nat) : d.get (QSU.TALLY_CFG.VECTOR t) < 2048 := d.get_lt _

section TallyPut
variable {d : Dev} {t v : Nat}

theorem Dev.tallyPut_value (hv : v < 2 ^ 32) : (d.tallyPut t v).get (QSU.TALLY_VALUE.VALUE t) = v :=
  (Dev.get_set_same d _ v (Nat.lt_succ_self 31) (Nat.zero_le _)).trans (Nat.mod_eq_of_lt hv)

theorem Dev.tallyPut_rd {off : Nat} (h : off ≠ (QSU.TALLY_VALUE.REG t).off) : (d.tallyPut t v).rd off = d.rd off :=
  Dev.rd_set_ne d _ v off h

@[simp] theorem Dev.tallyPut_out (d : Dev) (t v : Nat) : (d.tallyPut t v).out = d.out := rfl

/-- No register below the tallies' own changes (R62). -/
theorem Dev.tallyPut_rd_low {off : Nat} (h : off < 0x300000) : (d.tallyPut t v).rd off = d.rd off :=
  Dev.tallyPut_rd (Nat.ne_of_lt (Nat.lt_of_lt_of_le h (Nat.le_add_right _ _)))

theorem Dev.tallyPut_get_low {f : FRef} (h : f.off < 0x300000) : (d.tallyPut t v).get f = d.get f :=
  Dev.get_congr f (Dev.tallyPut_rd_low h)

theorem Dev.tallyPut_irqEn : (d.tallyPut t v).flag (QSU.TALLY_CFG.IRQ_EN t) = d.flag (QSU.TALLY_CFG.IRQ_EN t) :=
  Dev.flag_congr _ (Dev.tallyPut_rd (by simp [QSU.TALLY_CFG.IRQ_EN, QSU.TALLY_VALUE.REG]))

theorem Dev.tallyPut_vector : (d.tallyPut t v).get (QSU.TALLY_CFG.VECTOR t) = d.get (QSU.TALLY_CFG.VECTOR t) :=
  Dev.get_congr _ (Dev.tallyPut_rd (by simp [QSU.TALLY_CFG.VECTOR, QSU.TALLY_VALUE.REG]))

theorem Dev.tallyPut_threshold : (d.tallyPut t v).get (QSU.TALLY_IRQ.THRESHOLD t) = d.get (QSU.TALLY_IRQ.THRESHOLD t) :=
  Dev.get_congr _ (Dev.tallyPut_rd (by simp [QSU.TALLY_IRQ.THRESHOLD, QSU.TALLY_VALUE.REG]))

theorem Dev.tallyPut_slot (hv : v < 2 ^ 32) {r : Nat} {w : WaitSlot} (h : smapGet waitDflt d.cmd.waits r = some w) :
    smapGet waitDflt (d.tallyPut t v).cmd.waits r = some (latchSlot t v w) := by
  have hw := Dev.releaseWaits_slot (d := d.set (QSU.TALLY_VALUE.VALUE t) v) (t := t) h
  rwa [← Dev.releaseWaits_get, ← Dev.tallyPut, Dev.tallyPut_value hv] at hw

theorem Dev.tallyPut_tileWaits (hv : v < 2 ^ 32) (i : Nat) :
    ((d.tallyPut t v).tile i).waits = (d.tile i).waits.map (latchTileWait t v) := by
  have hw := Dev.releaseWaits_tileWaits (d.set (QSU.TALLY_VALUE.VALUE t) v) t i
  rwa [← Dev.releaseWaits_get _ t, ← Dev.tallyPut, Dev.tallyPut_value hv] at hw

end TallyPut

/-! ## Setting a tally -/

section TallySet
variable {d : Dev} {t v : Nat} (hv : v < 2 ^ 32)
include hv

/-- The interrupt of an enabled tally whose value goes from below THRESHOLD to at or above it. -/
theorem Dev.tallySet_crossing (hen : d.flag (QSU.TALLY_CFG.IRQ_EN t) = true)
    (hlow : d.get (QSU.TALLY_VALUE.VALUE t) < d.get (QSU.TALLY_IRQ.THRESHOLD t))
    (hhigh : d.get (QSU.TALLY_IRQ.THRESHOLD t) ≤ v) :
    d.tallySet t v = (d.tallyPut t v).msix (d.get (QSU.TALLY_CFG.VECTOR t)) := by
  rw [Dev.tallySet_eq, Dev.tallyIrq, Dev.tallyPut_value hv, Dev.tallyPut_irqEn, Dev.tallyPut_threshold, Dev.tallyPut_vector]
  simp [hen, hlow, hhigh]

/-- Without that crossing a set raises nothing. -/
theorem Dev.tallySet_quiet (h : d.flag (QSU.TALLY_CFG.IRQ_EN t) = false ∨
    d.get (QSU.TALLY_IRQ.THRESHOLD t) ≤ d.get (QSU.TALLY_VALUE.VALUE t) ∨ v < d.get (QSU.TALLY_IRQ.THRESHOLD t)) :
    d.tallySet t v = d.tallyPut t v := by
  rw [Dev.tallySet_eq, Dev.tallyIrq, Dev.tallyPut_value hv, Dev.tallyPut_irqEn, Dev.tallyPut_threshold]
  rcases h with h | h | h
  · simp [h]
  · simp [Nat.not_lt.mpr h]
  · simp [Nat.not_le.mpr h]

/-- What a set does: it raises the tally's vector or does not. -/
theorem Dev.tallySet_cases (d : Dev) (t : Nat) : d.tallySet t v = d.tallyPut t v ∨
    d.tallySet t v = (d.tallyPut t v).msix (d.get (QSU.TALLY_CFG.VECTOR t)) := by
  by_cases h : d.flag (QSU.TALLY_CFG.IRQ_EN t) = true ∧
    d.get (QSU.TALLY_VALUE.VALUE t) < d.get (QSU.TALLY_IRQ.THRESHOLD t) ∧ d.get (QSU.TALLY_IRQ.THRESHOLD t) ≤ v
  · obtain ⟨hen, hlow, hhigh⟩ := h
    exact .inr (Dev.tallySet_crossing hv hen hlow hhigh)
  · refine .inl (Dev.tallySet_quiet hv ?_)
    simpa only [Decidable.not_and_iff_or_not, Bool.not_eq_true, Nat.not_lt, Nat.not_le] using h

/-- A set changes registers, outputs, ring wait slots and tiles, nothing else. -/
theorem Dev.tallySet_frame (d : Dev) (t : Nat) : d.tallySet t v = { d with
    regs := (d.tallySet t v).regs, out := (d.tallySet t v).out, cmd.waits := (d.tallySet t v).cmd.waits,
    tiles := (d.tallySet t v).tiles } := by
  rcases Dev.tallySet_cases hv d t with h | h
  · rw [h]; rfl
  · rw [h, Dev.msix_frame]; rfl

theorem Dev.tallySet_csv : (d.tallySet t v).csv = d.csv := by rw [Dev.tallySet_frame hv]
theorem Dev.tallySet_hbm : (d.tallySet t v).hbm = d.hbm := by rw [Dev.tallySet_frame hv]
theorem Dev.tallySet_inflight : (d.tallySet t v).cmd.inflight = d.cmd.inflight := by rw [Dev.tallySet_frame hv]

theorem onlyParts_tallySet (s : State) (t : Nat) :
    OnlyParts [.regs, .out, .cmd, .tiles] s { s with dev := s.here.tallySet t v } := by
  rw [Dev.tallySet_frame hv]
  exact onlyParts_commandPlane s _ _ _ _

/-- Of the registers a set changes the tally and the pending bits of MSI-X alone. -/
theorem Dev.tallySet_rd {off : Nat} (hval : off ≠ (QSU.TALLY_VALUE.REG t).off) (hpba : ¬ isPba off) :
    (d.tallySet t v).rd off = d.rd off := by
  rcases Dev.tallySet_cases hv d t with h | h
  · rw [h, Dev.tallyPut_rd hval]
  · rw [h, Dev.msix_rd (d.vector_lt t) hpba, Dev.tallyPut_rd hval]

/-- A tally reads back what was set. -/
theorem Dev.tallySet_value : (d.tallySet t v).get (QSU.TALLY_VALUE.VALUE t) = v := by
  have hpba : ¬ isPba (QSU.TALLY_VALUE.VALUE t).off := by simp only [isPba, QSU.TALLY_VALUE.VALUE]; omega
  rcases Dev.tallySet_cases hv d t with h | h
  · rw [h, Dev.tallyPut_value hv]
  · rw [h, Dev.get_congr _ (Dev.msix_rd (d.vector_lt t) hpba), Dev.tallyPut_value hv]

theorem Dev.tallySet_slot {r : Nat} {w : WaitSlot} (hw : smapGet waitDflt d.cmd.waits r = some w) :
    smapGet waitDflt (d.tallySet t v).cmd.waits r = some (latchSlot t v w) := by
  rw [← Dev.tallyPut_slot hv hw]
  rcases Dev.tallySet_cases hv d t with h | h
  · rw [h]
  · rw [h, Dev.msix_cmd]

theorem Dev.tallySet_tileWaits (i : Nat) : ((d.tallySet t v).tile i).waits = (d.tile i).waits.map (latchTileWait t v) := by
  rw [← Dev.tallyPut_tileWaits hv]
  rcases Dev.tallySet_cases hv d t with h | h
  · rw [h]
  · rw [h, Dev.tile, Dev.msix_tiles, Dev.tile]

/-- Without a crossing nothing is put out and no register but the tally changes. -/
theorem Dev.tallySet_silent (h : d.flag (QSU.TALLY_CFG.IRQ_EN t) = false ∨
    d.get (QSU.TALLY_IRQ.THRESHOLD t) ≤ d.get (QSU.TALLY_VALUE.VALUE t) ∨ v < d.get (QSU.TALLY_IRQ.THRESHOLD t)) :
    (d.tallySet t v).out = d.out ∧ ∀ off, off ≠ (QSU.TALLY_VALUE.REG t).off → (d.tallySet t v).rd off = d.rd off := by
  rw [Dev.tallySet_quiet hv h]
  exact ⟨rfl, fun off hval => Dev.tallyPut_rd hval⟩

end TallySet

/-! ## Raising a vector after a tally is put (R66, R629) -/

section Crossing
variable {d : Dev} {t v vec : Nat} (hvec : vec < 2048)
include hvec

theorem Dev.tallyPut_mask : (d.tallyPut t v).flag (HIF.MSIX_CTRL.MASK vec) = d.flag (HIF.MSIX_CTRL.MASK vec) :=
  Dev.flag_congr _ (Dev.tallyPut_rd_low (by simp only [HIF.MSIX_CTRL.MASK]; omega))

/-- The message carries the address and data of the vector's table entry. -/
theorem Dev.tallyPut_msix_sent (hen : d.hif.msixEn0 = true) (hfn : d.hif.msixMask0 = false)
    (hmask : d.flag (HIF.MSIX_CTRL.MASK vec) = false) :
    ((d.tallyPut t v).msix vec).out = .msix 0 vec
      (d.get (HIF.MSIX_ADDR_LO.ADDR vec) * 4 + d.get (HIF.MSIX_ADDR_HI.ADDR vec) * 2 ^ 32)
      (d.get (HIF.MSIX_DATA.DATA vec)) :: d.out := by
  have hlo : (d.tallyPut t v).get (HIF.MSIX_ADDR_LO.ADDR vec) = d.get (HIF.MSIX_ADDR_LO.ADDR vec) :=
    Dev.tallyPut_get_low (by simp only [HIF.MSIX_ADDR_LO.ADDR]; omega)
  have hhi : (d.tallyPut t v).get (HIF.MSIX_ADDR_HI.ADDR vec) = d.get (HIF.MSIX_ADDR_HI.ADDR vec) :=
    Dev.tallyPut_get_low (by simp only [HIF.MSIX_ADDR_HI.ADDR]; omega)
  have hdata : (d.tallyPut t v).get (HIF.MSIX_DATA.DATA vec) = d.get (HIF.MSIX_DATA.DATA vec) :=
    Dev.tallyPut_get_low (by simp only [HIF.MSIX_DATA.DATA]; omega)
  rw [Dev.msix_sent (d := d.tallyPut t v) hen hfn ((Dev.tallyPut_mask hvec).trans hmask), Dev.emit_out, hlo, hhi, hdata, Dev.tallyPut_out]

/-- A masked vector becomes pending and puts out nothing. -/
theorem Dev.tallyPut_msix_held (h : d.hif.msixEn0 = false ∨ d.hif.msixMask0 = true ∨ d.flag (HIF.MSIX_CTRL.MASK vec) = true) :
    ((d.tallyPut t v).msix vec).out = d.out ∧
      (((d.tallyPut t v).msix vec).rd (HIF.MSIX_PBA.REG (vec / 32)).off).getLsbD (vec % 32) = true := by
  rw [← Dev.tallyPut_mask (d := d) (t := t) (v := v) hvec] at h
  rw [Dev.msix_held (d := d.tallyPut t v) h, Dev.rd_wr, if_pos rfl]
  exact ⟨rfl, or_two_pow_getLsbD _ (Nat.mod_lt _ (Nat.zero_lt_succ _))⟩

end Crossing

/-! ## Adds (R64) -/

/-- What an add past the range leaves before its event: the tally at its top, and OVERFLOW. -/
def Dev.tallyTop (d : Dev) (t : Nat) : Dev := (d.tallySet t (2 ^ 32 - 1)).set (QSU.TALLY_CFG.OVERFLOW t) 1

theorem tallyMax_lt : 2 ^ 32 - 1 < 2 ^ 32 := Nat.sub_lt (Nat.two_pow_pos 32) Nat.zero_lt_one

section TallyAdd
variable {d : Dev} {t n : Nat}

theorem Dev.tallyAdd_zero (d : Dev) (t : Nat) : d.tallyAdd t 0 = d := if_pos rfl

/-- An add within the range is a set of the sum. -/
theorem Dev.tallyAdd_within (hn : 0 < n) (h : d.get (QSU.TALLY_VALUE.VALUE t) + n < 2 ^ 32) :
    d.tallyAdd t n = d.tallySet t (d.get (QSU.TALLY_VALUE.VALUE t) + n) := by
  have hpast : ¬ 0xFFFFFFFF < d.get (QSU.TALLY_VALUE.VALUE t) + n := by omega
  rw [Dev.tallyAdd, if_neg (Nat.ne_of_gt hn)]
  dsimp only
  rw [decide_eq_false hpast, Dev.when_false, Dev.tallySet]
  rfl

/-- An add past the range is a set of the top value, then OVERFLOW and event 0x0108. -/
theorem Dev.tallyAdd_past (h : 2 ^ 32 ≤ d.get (QSU.TALLY_VALUE.VALUE t) + n) :
    d.tallyAdd t n = (d.tallyTop t).event 0x0108 t := by
  have hold : d.get (QSU.TALLY_VALUE.VALUE t) < 2 ^ 32 := d.get_lt _
  have hpast : 0xFFFFFFFF < d.get (QSU.TALLY_VALUE.VALUE t) + n := by omega
  have htop : 2 ^ 32 - 1 = 0xFFFFFFFF := rfl
  rw [Dev.tallyTop, htop, Dev.tallyAdd, if_neg (show n ≠ 0 by omega)]
  dsimp only
  rw [decide_eq_true hpast, if_pos rfl, Dev.when_true, Dev.tallySet]

theorem Dev.tallyTop_value : (d.tallyTop t).get (QSU.TALLY_VALUE.VALUE t) = 2 ^ 32 - 1 := by
  have hne : (QSU.TALLY_VALUE.VALUE t).off ≠ (QSU.TALLY_CFG.OVERFLOW t).off := by
    simp [QSU.TALLY_VALUE.VALUE, QSU.TALLY_CFG.OVERFLOW]
  rw [Dev.tallyTop, Dev.get_congr _ (Dev.rd_set_ne _ _ _ _ hne), Dev.tallySet_value tallyMax_lt]

theorem Dev.tallyTop_overflow : (d.tallyTop t).flag (QSU.TALLY_CFG.OVERFLOW t) = true := by
  have hbit : (d.tallyTop t).get (QSU.TALLY_CFG.OVERFLOW t) = 1 :=
    Dev.get_set_same _ (QSU.TALLY_CFG.OVERFLOW t) 1 (by simp [QSU.TALLY_CFG.OVERFLOW]) (by simp [QSU.TALLY_CFG.OVERFLOW])
  rw [Dev.flag, hbit]
  rfl

theorem Dev.tallyTop_cmd : (d.tallyTop t).cmd = (d.tallySet t (2 ^ 32 - 1)).cmd := by rw [Dev.tallyTop, Dev.set_cmd]

theorem Dev.tallyTop_tile (i : Nat) : (d.tallyTop t).tile i = (d.tallySet t (2 ^ 32 - 1)).tile i := by
  rw [Dev.tallyTop, Dev.tile, Dev.set_tiles, Dev.tile]

/-- Every ring's wait on a tally at its top is satisfied. -/
theorem Dev.tallyTop_slot {r : Nat} {w : WaitSlot} (hw : smapGet waitDflt d.cmd.waits r = some w) (ht : w.tally = t)
    (hlt : w.threshold < 2 ^ 32) : smapGet waitDflt (d.tallyTop t).cmd.waits r = some { w with sat := true } := by
  have hle : w.threshold ≤ 2 ^ 32 - 1 := by omega
  rw [Dev.tallyTop_cmd, Dev.tallySet_slot tallyMax_lt hw, latchSlot_met ht hle]

/-- And so is every tile's. -/
theorem Dev.tallyTop_tileWait {i : Nat} {w : TWait} (hw : w ∈ ((d.tallyTop t).tile i).waits) (hk : w.isTally = true)
    (ht : w.key = t) (hlt : w.amount < 2 ^ 32) : w.sat = true := by
  rw [Dev.tallyTop_tile, Dev.tallySet_tileWaits tallyMax_lt] at hw
  have hle : w.amount ≤ 2 ^ 32 - 1 := by omega
  obtain ⟨w₀, -, rfl⟩ := List.mem_map.mp hw
  exact latchTileWait_met hk ht hle

end TallyAdd

/-! ## The writes of a tally's registers -/

section TallyCommands
variable {t : Nat} (s : State) (v : Reg) (ht : t < 65536)
include ht

theorem exec_tallyAddWrite_eq {f : Dev → Dev} (heff : s.here.tallyAdd t (v.toNat % 65536) = f s.here) :
    exec (.tallyAddWrite t v) s = .next (s.onDev f) := by
  have hn : bits v.toNat 15 0 = v.toNat % 65536 := by simp [bits]
  rw [exec_tallyAddWrite, execTallyAddWrite, hn]
  exact congrArg Host.Outcome.next (onDev_congr s _ f ((if_pos ht).trans heff))

theorem exec_tallyValueWrite_eq {f : Dev → Dev} (heff : s.here.tallySet t v.toNat = f s.here) :
    exec (.tallyValueWrite t v) s = .next (s.onDev f) := by
  rw [exec_tallyValueWrite, execTallyValueWrite]
  exact congrArg Host.Outcome.next (onDev_congr s _ f ((if_pos ht).trans heff))

/-- In a calm state the set is the whole change. -/
theorem exec_tallyValueWrite_calm (hc : Calm s) :
    exec (.tallyValueWrite t v) s = .next { s with dev := s.here.tallySet t v.toNat } := by
  rw [exec_tallyValueWrite_eq s v ht (f := (·.tallySet t v.toNat)) rfl,
    onDev_of_keeps hc rfl (Dev.tallySet_csv v.isLt) (Dev.tallySet_hbm v.isLt)]

end TallyCommands

/-- Settles O20, clause by clause: each write as an add or a set of the tally, then what a set latches and keeps, what
an add past the range leaves, and when the interrupt is raised. -/
theorem tallies : Obligations.Tallies := by
  refine ⟨fun s t v ht => ⟨fun hn => exec_tallyAddWrite_eq s v ht ?zero, fun hn hsum => exec_tallyAddWrite_eq s v ht ?within,
      fun hsum => exec_tallyAddWrite_eq s v ht ?past, exec_tallyValueWrite_eq s v ht rfl⟩,
    fun s t v hc ht => ?set, fun s t v ht hsum => ?top, fun s t v hc ht c old vec hcEq holdEq hvecEq => ?irq⟩
  case zero => exact (congrArg (s.here.tallyAdd t) hn).trans (Dev.tallyAdd_zero s.here t)
  case within => exact Dev.tallyAdd_within hn hsum
  case past => exact Dev.tallyAdd_past hsum
  case set =>
    exact ⟨_, exec_tallyValueWrite_calm s v ht hc, Dev.tallySet_value v.isLt, fun r w hw => Dev.tallySet_slot v.isLt hw,
      Dev.tallySet_tileWaits v.isLt, fun off hval hpba => Dev.tallySet_rd v.isLt hval hpba,
      onlyParts_tallySet v.isLt s t, Dev.tallySet_inflight v.isLt⟩
  case top =>
    exact ⟨s.here.tallyTop t, exec_tallyAddWrite_eq s v ht (Dev.tallyAdd_past hsum), Dev.tallyTop_value, Dev.tallyTop_overflow,
      fun r w hw hwt hlt => Dev.tallyTop_slot hw hwt hlt, fun i w hw hk hwt hlt => Dev.tallyTop_tileWait hw hk hwt hlt⟩
  case irq =>
    subst hcEq holdEq hvecEq
    have hvec := s.dev.vector_lt t
    refine ⟨_, exec_tallyValueWrite_calm s v ht hc, fun hen hlow hhigh => ?_,
      Dev.tallySet_silent (d := s.here) (t := t) v.isLt⟩
    have hcross : s.here.tallySet t v.toNat = _ := Dev.tallySet_crossing v.isLt hen hlow hhigh
    rw [hcross]
    exact ⟨fun hon hfn hmask => Dev.tallyPut_msix_sent hvec hon hfn hmask, fun hheld => Dev.tallyPut_msix_held hvec hheld⟩

end Sys2Proof.Machine
end

section
/-! PROOFS. Tile programs (R256, R264 to R268, R276 to R282): first what an issue comes to, by its outcome; then the
scalar and control instructions, micro-batches and deferred work, each with the statement it settles. -/

namespace Sys2Proof.Machine

/-! ## What an issue comes to (R256) -/

section IssueOutcomes

variable {s : State} {t op : Nat} {d : Dev} {c : Bool} {w : Nat} (hi : Issues s t op d c w)
include hi

theorem Issues.ok {f : Dev → Bool → Nat → Issued} {e : Dev} (hf : f d c w = .ok e) :
    s.atTile t (·.issue t op f) = s.onDev fun _ => issued e t c := by
  rw [issue_tile hi, hf]

theorem Issues.stall {f : Dev → Bool → Nat → Issued} {e : Dev} (hf : f d c w = .stall e) :
    s.atTile t (·.issue t op f) = s.onDev fun _ => e.bump (CMD.SEQ_STALL.COUNT t) 1 := by
  rw [issue_tile hi, hf]

/-- An instruction that is no matrix instruction halts with array 0 in the halt record. -/
theorem Issues.halt {f : Dev → Bool → Nat → Issued} {st info : Nat} (hf : f d c w = .halt st info) (hop : op / 32 ≠ 1) :
    s.atTile t (·.issue t op f) = s.onDev fun _ => d.haltTile t st info ⟨d.pc t c, c, 0, 0⟩ [] := by
  rw [issue_tile hi, hf, if_neg hop]

/-- A scalar instruction changes the tile's register files and steps the PC (R268). -/
theorem Issues.scalar {f : Tile → Bool → Nat → Tile} {x : Tile} (hf : f (d.tile t) c w = x) :
    s.atTile t (·.scalar t op f) = s.onDev fun _ => issued ((d.setTile t x).advance t c) t c := by
  subst hf
  exact hi.ok (f := fun d c w => .ok ((d.onTile t (fun x => f x c w)).advance t c)) rfl

end IssueOutcomes

/-! ## The operands and functions of the scalar instructions (R268) -/

/-- A field of an instruction word that starts where IMM does is IMM's low part. -/
theorem bits_of_opImm (w : Nat) {hi : Nat} (h : hi ≤ 127) : bits w hi 64 = opImm w % 2 ^ (hi + 1 - 64) := by
  rw [opImm, bits, bits, Nat.mod_mod_of_dvd _ (Nat.pow_dvd_pow 2 (by omega))]

/-- The results R268 lists for ALU, by FUNC. -/
def aluTable (a b : Nat) : List (Nat × Nat) :=
  [(0, (a + b) % 2 ^ 64), (1, (a + (2 ^ 64 - b % 2 ^ 64)) % 2 ^ 64), (2, a &&& b), (3, a ||| b), (4, a ^^^ b),
    (5, a * 2 ^ (b % 64) % 2 ^ 64), (6, a / 2 ^ (b % 64)), (7, wrap 64 (sext 64 a / 2 ^ (b % 64))), (8, a * b % 2 ^ 64),
    (9, min a b), (10, max a b), (11, if sext 64 a ≤ sext 64 b then a else b), (12, if sext 64 a ≤ sext 64 b then b else a)]

theorem aluFn_sub (a b : Nat) : aluFn 1 a b = (a + (2 ^ 64 - b % 2 ^ 64)) % 2 ^ 64 := rfl

theorem aluFn_sll (a b : Nat) : aluFn 5 a b = a * 2 ^ (b % 64) % 2 ^ 64 :=
  congrArg (· % 2 ^ 64) (Nat.shiftLeft_eq a (b % 64))

theorem aluFn_srl (a b : Nat) : aluFn 6 a b = a / 2 ^ (b % 64) := Nat.shiftRight_eq_div_pow a (b % 64)

theorem aluFn_sra (a b : Nat) : aluFn 7 a b = wrap 64 (sext 64 a / 2 ^ (b % 64)) := by
  have hshift : sext 64 a >>> (b % 64) = sext 64 a / 2 ^ (b % 64) :=
    (Int.shiftRight_eq_div_pow (sext 64 a) (b % 64)).trans (congrArg (sext 64 a / ·) (Int.natCast_pow 2 (b % 64)))
  exact congrArg (wrap 64) hshift

theorem aluFn_of_mem {a b f v : Nat} (h : (f, v) ∈ aluTable a b) : aluFn f a b = v := by
  have hrows : ∀ r ∈ aluTable a b, aluFn r.1 a b = r.2 := by
    simp only [aluTable, List.forall_mem_cons]
    exact ⟨rfl, aluFn_sub a b, rfl, rfl, rfl, aluFn_sll a b, aluFn_srl a b, aluFn_sra a b, rfl, rfl, rfl, rfl, rfl, by simp⟩
  exact hrows _ h

/-- The results R268 lists for CMP, by FUNC. -/
def cmpTable (a b : Nat) : List (Nat × Bool) :=
  [(0, decide (a = b)), (1, decide (a ≠ b)), (2, decide (a < b)), (3, decide (b ≤ a)),
    (4, decide (sext 64 a < sext 64 b)), (5, decide (sext 64 b ≤ sext 64 a))]

theorem cmpFn_of_mem {a b f : Nat} {v : Bool} (h : (f, v) ∈ cmpTable a b) : cmpFn f a b = v := by
  have hrows : ∀ r ∈ cmpTable a b, cmpFn r.1 a b = r.2 := by
    simp only [cmpTable, List.forall_mem_cons]
    exact ⟨rfl, (decide_not).symm, rfl, rfl, rfl, rfl, by simp⟩
  exact hrows _ h

/-- The results R268 lists for PLOG, by FUNC. -/
def plogTable (p q : Bool) : List (Nat × Bool) := [(0, p && q), (1, p || q), (2, p ^^ q), (3, p && !q), (4, !p)]

theorem plogFn_of_mem {p q v : Bool} {f : Nat} (h : (f, v) ∈ plogTable p q) : plogFn f p q = v := by
  have hrows : ∀ r ∈ plogTable p q, plogFn r.1 p q = r.2 := by
    simp only [plogTable, List.forall_mem_cons]
    exact ⟨rfl, rfl, rfl, rfl, rfl, by simp⟩
  exact hrows _ h

section AopEffect

variable {x : Tile} {c : Bool} {w : Nat}

theorem Tile.aopEff_addA (h : opFunc w = 0) :
    x.aopEff c w = x.wa c (opDst w % 16) (x.ra c (opSrcA w % 16) + x.opB c w % 2 ^ 48) := by simp only [Tile.aopEff, h]

theorem Tile.aopEff_addG (h : opFunc w = 1) :
    x.aopEff c w = x.wa c (opDst w % 16) (x.rg c (opSrcA w) % 2 ^ 48 + x.opB c w % 2 ^ 48) := by simp only [Tile.aopEff, h]

theorem Tile.aopEff_read (h : opFunc w = 2) : x.aopEff c w = x.wg c (opDst w) (x.ra c (opSrcA w % 16)) := by
  simp only [Tile.aopEff, h]

end AopEffect

/-! ## LOOP's counter (R268) -/

theorem aluFn_sub_one (a : Nat) : aluFn 1 a 1 = (a + 2 ^ 64 - 1) % 2 ^ 64 := by
  rw [aluFn_sub, Nat.add_sub_assoc Nat.one_le_two_pow, Nat.mod_eq_of_lt (Nat.one_lt_two_pow (by decide))]

section LoopEffect

variable {d e : Dev} {t : Nat} {c : Bool} {w v : Nat}
  (hv : v = ((d.tile t).rg c (opDst w) + 2 ^ 64 - 1) % 2 ^ 64) (he : e = d.onTile t (·.wg c (opDst w) v))
include hv he

theorem Dev.loopEff_eq : d.loopEff t c w = if v = 0 then e.advance t c else e.setPc t c (opTarget w) := by
  rw [Dev.loopEff, aluFn_sub_one, ← hv, he]

theorem Dev.loopEff_branches (h : v ≠ 0) : d.loopEff t c w = e.setPc t c (opTarget w) := by
  rw [Dev.loopEff_eq hv he, if_neg h]

theorem Dev.loopEff_falls (h : v = 0) : d.loopEff t c w = e.advance t c := by
  rw [Dev.loopEff_eq hv he, if_pos h]

end LoopEffect

/-- Settles O44: the operand layout, then each scalar instruction by its FUNC's result, then where JMP, LOOP and HALTP
leave the PC. -/
theorem scalarAndControlInstructions : Obligations.ScalarAndControlInstructions := by
  refine ⟨fun w => ⟨rfl, rfl, rfl, rfl, rfl, rfl, bits_of_opImm w (by decide), bits_of_opImm w (by decide)⟩,
    fun s t op d c w hi a b ha hb => ?scalar, fun s t op d c w hi => ?control⟩
  case scalar =>
    have hopB : (d.tile t).opB c w = b := hb.symm
    subst ha
    refine ⟨?nop, ?alu, ?cmp, ?plog, ?aop⟩
    case nop =>
      rintro rfl
      exact congrArg Host.Outcome.next (hi.ok rfl)
    case alu =>
      rintro rfl v hv
      have heff : (d.tile t).aluEff c w = (d.tile t).wg c (opDst w) v := by rw [Tile.aluEff, hopB, aluFn_of_mem hv]
      exact congrArg Host.Outcome.next (hi.scalar heff)
    case cmp =>
      rintro rfl v hv
      have heff : (d.tile t).cmpEff c w = (d.tile t).wp c (opDst w % 8) v := by rw [Tile.cmpEff, hopB, cmpFn_of_mem hv]
      exact congrArg Host.Outcome.next (hi.scalar heff)
    case plog =>
      rintro rfl v p q rfl rfl hv
      have heff : (d.tile t).plogEff c w = (d.tile t).wp c (opDst w % 8) v := by rw [Tile.plogEff, plogFn_of_mem hv]
      exact congrArg Host.Outcome.next (hi.scalar heff)
    case aop =>
      rintro rfl
      subst hopB
      exact ⟨fun hf => congrArg Host.Outcome.next (hi.scalar (Tile.aopEff_addA hf)),
        fun hf => congrArg Host.Outcome.next (hi.scalar (Tile.aopEff_addG hf)),
        fun hf => congrArg Host.Outcome.next (hi.scalar (Tile.aopEff_read hf))⟩
  case control =>
    refine ⟨?jmp, ?loop, ?haltp⟩
    case jmp =>
      rintro rfl
      exact congrArg Host.Outcome.next (hi.ok rfl)
    case loop =>
      rintro rfl v e hv he
      exact ⟨fun h => congrArg Host.Outcome.next (hi.ok (congrArg Issued.ok (Dev.loopEff_branches hv he h))),
        fun h => congrArg Host.Outcome.next (hi.ok (congrArg Issued.ok (Dev.loopEff_falls hv he h)))⟩
    case haltp =>
      rintro rfl
      exact congrArg Host.Outcome.next (hi.ok rfl)

/-! ## MBBEGIN (R276) -/

/-- Does a stream or run of a chain of the main context, or a queued flush of one, keep MBBEGIN waiting (R276)? -/
def Tile.mainBusy (x : Tile) : Bool :=
  x.live.any (fun e => e.2.2 != 0 && x.mainChains.contains (e.2.2 - 1)) || x.mainChains.any x.flushQueued

theorem Tile.mainBusy_iff (x : Tile) : x.mainBusy = true ↔
    (∃ e ∈ x.live, e.2.2 ≠ 0 ∧ e.2.2 - 1 ∈ x.mainChains) ∨ ∃ k ∈ x.mainChains, x.flushQueued k = true := by
  simp only [Tile.mainBusy, Bool.or_eq_true, List.any_eq_true, Bool.and_eq_true, bne_iff_ne, List.contains_iff_mem]

theorem Tile.mainBusy_eq_false {x : Tile} (hlive : ∀ e ∈ x.live, e.2.2 ≠ 0 → e.2.2 - 1 ∉ x.mainChains)
    (hflush : ∀ k ∈ x.mainChains, x.flushQueued k = false) : x.mainBusy = false := by
  rw [Bool.eq_false_iff, ne_eq, Tile.mainBusy_iff]
  rintro (⟨e, he, hne, hk⟩ | ⟨k, hk, hq⟩)
  · exact hlive e he hne hk
  · rw [hflush k hk] at hq
    cases hq

section Mbbegin

variable {d : Dev} {t : Nat}

theorem Dev.mbbeginIssue_waits (h : (d.tile t).mainBusy = true) : d.mbbeginIssue t = .stall d := if_pos h

theorem Dev.mbbeginIssue_halts {k : Nat} (h : (d.tile t).mainBusy = false)
    (hk : (d.tile t).mainChains.find? (fun k => ((d.tile t).encOf k).isOpen) = some k) :
    d.mbbeginIssue t = .halt 0x0274 k := by
  unfold Tile.mainBusy at h
  simp only [Dev.mbbeginIssue, h, hk, Bool.false_eq_true, if_false]

theorem Dev.mbbeginIssue_holds (h : (d.tile t).mainBusy = false)
    (hk : ∀ k ∈ (d.tile t).mainChains, ((d.tile t).encOf k).isOpen = false) :
    d.mbbeginIssue t = .stall (d.onTile t (fun x => { x with mbHold := true })) := by
  have hnone : (d.tile t).mainChains.find? (fun k => ((d.tile t).encOf k).isOpen) = none := by
    simpa only [List.find?_eq_none, Bool.not_eq_true] using hk
  unfold Tile.mainBusy at h
  simp only [Dev.mbbeginIssue, h, hnone, Bool.false_eq_true, if_false]

end Mbbegin

/-! ## PASS_DELIVERY (R303) -/

section PassDelivery

variable {d e : Dev} {t : Nat} (he : e = d.pump t)
include he

theorem Dev.passDelivery_delivers {p k : Nat} {m : PipeMap} {ws : List Nat} (hdue : e.passDue t = some (p, k, m, ws))
    (hmove : ¬ (e.atBoundary t = true ∧ e.movePending t = true)) : d.passDelivery t = e.deliver t p k m ws := by
  simp only [Dev.passDelivery, ← he, Bool.and_eq_true, if_neg hmove, hdue]

theorem Dev.passDelivery_waits (h : e.passDue t = none ∨ (e.atBoundary t = true ∧ e.movePending t = true)) :
    d.passDelivery t = e := by
  simp only [Dev.passDelivery, ← he, Bool.and_eq_true]
  rcases h with hdue | hmove
  · rw [hdue, ite_self]
  · rw [if_pos hmove]

end PassDelivery

/-! ## Deferred work (R278 to R282) -/

section DeferredWork

variable {d : Dev} {t : Nat} {c : Bool} {w : Nat}

theorem Dev.deferIssue_queues (h : (d.tile t).deferQ.length < 8) : d.deferIssue t c w =
    .ok ((d.setTile t { d.tile t with deferHold := false, deferQ := (d.tile t).deferQ ++
      [⟨opTarget w, (List.range 8).map (fun k => (d.tile t).rg false (48 + k)), d.get (CMD.SEQ_MB.MAIN t)⟩] }).advance t c) :=
  if_pos h

theorem Dev.deferIssue_yields (hfull : 8 ≤ (d.tile t).deferQ.length) (ha : (d.tile t).arraysIdle = true)
    (hs : (d.tile t).slotsEmpty = true) : d.deferIssue t c w = .stall (d.setTile t { d.tile t with deferHold := true }) := by
  rw [Dev.deferIssue, if_neg (Nat.not_lt.mpr hfull), ha, hs, Bool.and_true, if_pos rfl]

theorem Dev.deferIssue_halts (hfull : 8 ≤ (d.tile t).deferQ.length)
    (h : (d.tile t).arraysIdle = false ∨ (d.tile t).slotsEmpty = false) : d.deferIssue t c w = .halt 0x0275 0 := by
  have hbusy : ((d.tile t).arraysIdle && (d.tile t).slotsEmpty) = false := Bool.and_eq_false_iff.mpr h
  rw [Dev.deferIssue, if_neg (Nat.not_lt.mpr hfull), hbusy, if_neg Bool.false_ne_true]

theorem Dev.nextRoutine_starts (hq : (d.tile t).deferQ ≠ []) (hm : d.movePending t = false) :
    d.nextRoutine t = d.startRoutine t := by
  rw [Dev.nextRoutine, if_pos (by simp [hq, hm])]

theorem Dev.nextRoutine_returns (hq : (d.tile t).deferQ = []) (ha : (d.tile t).arraysIdle = true)
    (hs : (d.tile t).slotsEmpty = true) : d.nextRoutine t = d.switchTo t false := by
  rw [Dev.nextRoutine, if_neg (by simp [hq]), if_pos (by rw [ha, hs]; rfl)]

end DeferredWork

/-- What DRET makes of a tile once the routine's entry is freed and the routine is over (`e`). -/
theorem Dev.dretEff_eq {d e : Dev} {t : Nat} {c : Bool}
    (he : e = ((d.onTile t (fun x => { x with deferQ := x.deferQ.drop 1 })).advance t c).set (CMD.SEQ_STATE.ROUTINE t) 0) :
    d.dretEff t c = if e.mayReturn t then e.switchTo t false else e.nextRoutine t := by
  subst he
  rfl

theorem Dev.dyieldEff_eq {d e : Dev} {t : Nat} {c : Bool} (he : e = d.advance t c) :
    d.dyieldEff t c = if e.mayReturn t then e.switchTo t false else e := by
  subst he
  rfl

/-! ## CONTEXT_SWITCH from the main context (R279, R280) -/

section ContextSwitch

variable {d e : Dev} {t : Nat} (he : e = d.pump t) (hrun : e.get (CMD.SEQ_STATE.STATE t) = tsRUNNING) (hctx : e.ctx t = false)
include he hrun hctx

theorem Dev.contextSwitch_stays (hy : e.mainYields t = false) : d.contextSwitch t = e := by
  simp [Dev.contextSwitch, ← he, hrun, hctx, hy]

variable (hy : e.mainYields t = true)
include hy

theorem Dev.contextSwitch_idles (hr : e.flag (CMD.SEQ_STATE.ROUTINE t) = false)
    (h : (e.tile t).deferQ = [] ∨ e.movePending t = true) : d.contextSwitch t = e.bump (CMD.SEQ_YIELD_IDLE.COUNT t) 1 := by
  simp [Dev.contextSwitch, ← he, hrun, hctx, hy, hr, h]

variable (ha : (e.tile t).arraysIdle = true) (hs : (e.tile t).slotsEmpty = true)
include ha hs

theorem Dev.contextSwitch_goesOn (hr : e.flag (CMD.SEQ_STATE.ROUTINE t) = true) : d.contextSwitch t = e.switchTo t true := by
  simp [Dev.contextSwitch, ← he, hrun, hctx, hy, hr, ha, hs]

theorem Dev.contextSwitch_starts (hr : e.flag (CMD.SEQ_STATE.ROUTINE t) = false) (hq : (e.tile t).deferQ ≠ [])
    (hm : e.movePending t = false) : d.contextSwitch t = (e.switchTo t true).startRoutine t := by
  simp [Dev.contextSwitch, ← he, hrun, hctx, hy, hr, ha, hs, hq, hm]

end ContextSwitch

/-- An event of a tile the device has, by what it makes of the device as the event meets it. -/
theorem next_atTile_eq {s : State} {t : Nat} {f : Dev → Dev} {e : Dev} (ht : t < 200) (hf : f s.here = e) :
    (.next (s.atTile t f) : Host.Outcome State Fault Refusal) = .next (s.onDev fun _ => e) := by
  rw [State.atTile_lt s f ht, onDev_eq s f e hf]

/-- Settles O45, instruction by instruction: MBBEGIN, the pass and MBEND, then DEFER, DRET, DYIELD and the switch. -/
theorem microBatchesAndDeferredWork : Obligations.MicroBatchesAndDeferredWork := by
  refine ⟨⟨fun s t d c w hi => ?mbbegin, fun s t d ht he => ?pass, fun s t d c w hi => congrArg Host.Outcome.next (hi.ok rfl)⟩,
    fun s t d c w hi => ?defer, fun s t d c w e hi he => ?dret, fun s t d c w e hi he => ?dyield,
    fun s t d ht he hrun hctx => ?switch⟩
  case mbbegin =>
    refine ⟨fun h => ?_, fun hlive hflush => ?_⟩
    · exact congrArg Host.Outcome.next (hi.stall (Dev.mbbeginIssue_waits ((Tile.mainBusy_iff _).mpr h)))
    · have hquiet := Tile.mainBusy_eq_false hlive hflush
      exact ⟨fun h => congrArg Host.Outcome.next (hi.stall (Dev.mbbeginIssue_holds hquiet h)),
        fun k hk => congrArg Host.Outcome.next (hi.halt (Dev.mbbeginIssue_halts hquiet hk) (by decide))⟩
  case pass =>
    exact ⟨fun p k m ws hdue hmove => next_atTile_eq ht (Dev.passDelivery_delivers he hdue hmove),
      fun h => next_atTile_eq ht (Dev.passDelivery_waits he h)⟩
  case defer =>
    exact ⟨fun h => congrArg Host.Outcome.next (hi.ok (Dev.deferIssue_queues h)),
      fun hfull ha hs => congrArg Host.Outcome.next (hi.stall (Dev.deferIssue_yields hfull ha hs)),
      fun hfull h => congrArg Host.Outcome.next (hi.halt (Dev.deferIssue_halts hfull h) (by decide))⟩
  case dret =>
    have hexec {x : Dev} (hx : (if e.mayReturn t then e.switchTo t false else e.nextRoutine t) = x) :
        exec (.dret t) s = .next (s.onDev fun _ => issued x t c) :=
      congrArg Host.Outcome.next (hi.ok (congrArg Issued.ok ((Dev.dretEff_eq he).trans hx)))
    refine ⟨fun h => hexec (if_pos h), fun h hq hm => hexec ?_, fun h hq ha hs => hexec ?_⟩
    · rw [h, Dev.nextRoutine_starts hq hm]; rfl
    · rw [h, Dev.nextRoutine_returns hq ha hs]; rfl
  case dyield =>
    have hexec {x : Dev} (hx : (if e.mayReturn t then e.switchTo t false else e) = x) :
        exec (.dyield t) s = .next (s.onDev fun _ => issued x t c) :=
      congrArg Host.Outcome.next (hi.ok (congrArg Issued.ok ((Dev.dyieldEff_eq he).trans hx)))
    exact ⟨fun h => hexec (if_pos h), fun h => hexec (by rw [h]; rfl)⟩
  case switch =>
    exact ⟨fun hy => next_atTile_eq ht (Dev.contextSwitch_stays he hrun hctx hy), fun hy =>
      ⟨fun hr h => next_atTile_eq ht (Dev.contextSwitch_idles he hrun hctx hy hr h), fun ha hs =>
        ⟨fun hr => next_atTile_eq ht (Dev.contextSwitch_goesOn he hrun hctx hy ha hs hr),
          fun hr hq hm => next_atTile_eq ht (Dev.contextSwitch_starts he hrun hctx hy ha hs hr hq hm)⟩⟩⟩

end Sys2Proof.Machine
end

section
/-! PROOFS. The groups and collectives of the cell fabric (R402 to R420): what each group command answers, what posting a
collective comes to, and how a group's running collective ends; then the statement. -/

namespace Sys2Proof.Machine

/-! ## Rows that change the state alike -/

/-- Two rows that make the same of the device as they meet it change the state alike. -/
theorem next_onDev_congr {s : State} {f g : Dev → Dev} (h : f s.here = g s.here) :
    (.next (s.onDev f) : Host.Outcome State Fault Refusal) = .next (s.onDev g) :=
  congrArg Host.Outcome.next (onDev_congr s f g h)

/-! ## GROUP_CREATE (R402 to R404) -/

section GroupCreate

variable {d d0 d1 : Dev} {job hash : Nat} {ops b : Bytes}

/-- A group that is not the cell's needs the cell. -/
theorem Dev.groupCreate_noCell (hslot : le ops 0 1 ≠ 255) (hcell : le ops 1 1 % 2 = 0) (hthere : d.cellThere = false) :
    d.groupCreate job ops = (d, .now (errR 0x0403)) := by
  have hbit : bit (le ops 1 1) 0 = false := by simp [bit, Nat.testBit_zero, hcell]
  simp only [Dev.groupCreate, hbit, hthere, hslot, Bool.not_false, ne_eq, not_false_eq_true, and_self, if_true]

variable (hok : d.groupFieldsOk ops = true) (hstage : le ops 32 8 = 0)
  (hhash : hash = crc32c (leBytes 2 (le ops 2 2) ++ leBytes 4 (le ops 4 4) ++ b))
include hok hstage hhash

theorem Dev.groupCreate_cell {pre : List Nat} (hcell : le ops 1 1 = 1)
    (hranges : d.checkRanges (d.domOf job) [(le ops 8 8, 16 * le ops 2 2, 1)] = (d0, none))
    (hlist : d0.fetch (d0.cfiAcc (le ops 8 8) 1 (d.domOf job)) (le ops 8 8) (16 * le ops 2 2) = (d1, .ok b))
    (hpre : pre = (List.range (le ops 2 2)).map (fun i => le b (16 * i) 16)) (haligned : ∀ p ∈ pre, p % 16 = 0) :
    d.groupCreate job ops = ((({ d1 with cfi.prefixes := pre }.set CFI.CELL.RANK (le ops 16 2)).set CFI.CELL.SIZE (le ops 2 2)).groupMake
      ops (List.range (le ops 2 2)) (d.domOf job) hash, .now (okR hash)) := by
  have hbit : bit (le ops 1 1) 0 = true := by rw [hcell]; rfl
  have hall : pre.all (fun p => p % 16 == 0) = true := by simpa using haligned
  subst hpre hhash
  simp only [Dev.groupCreate, hbit, hok, hstage, hranges, hlist, hall, Bool.not_true, Bool.false_eq_true, false_and, if_true, if_false]

theorem Dev.groupCreate_members {ms : List Nat} (hcell : le ops 1 1 = 0) (hthere : d.cellThere = true)
    (hranges : d.checkRanges (d.domOf job) [(le ops 8 8, 2 * le ops 2 2, 1)] = (d0, none))
    (hlist : d0.fetch (d0.cfiAcc (le ops 8 8) 1 (d.domOf job)) (le ops 8 8) (2 * le ops 2 2) = (d1, .ok b))
    (hms : ms = memberList b (le ops 2 2)) (hin : ∀ m ∈ ms, m < d1.get CFI.CELL.SIZE) (hdistinct : ms.eraseDups.length = le ops 2 2)
    (hown : ms.getD (le ops 16 2) 0xFFFF = d1.rank) :
    d.groupCreate job ops = (d1.groupMake ops ms (d.domOf job) hash, .now (okR hash)) := by
  have hbit : bit (le ops 1 1) 0 = false := by rw [hcell]; rfl
  have hall : ms.all (fun m => decide (m < d1.get CFI.CELL.SIZE)) = true := by simpa using hin
  subst hms hhash
  simp only [Dev.groupCreate, hbit, hok, hstage, hthere, hranges, hlist, hall, hdistinct, hown, beq_self_eq_true, Bool.and_self, Bool.not_true,
    Bool.false_eq_true, and_false, if_true, if_false]

end GroupCreate

/-! ## GROUP_DESTROY (R405) -/

section GroupDestroy

variable {d : Dev} {ops : Bytes} {g : Group} (hg : d.group (le ops 0 1) = some g) (hzero : zeroBytes ops 1 47 = true)
include hg hzero

/-- A group with nothing queued goes, the cell's only as the last. -/
theorem Dev.groupDestroy_removes (hq : g.queue = [])
    (hlast : le ops 0 1 = 255 → d.cfi.groups.all (fun e => e.2.isNone || e.1 == 255) = true) :
    d.groupDestroy ops = (d.groupRemove (le ops 0 1), .now (okU [])) := by
  have hothers : ¬ (le ops 0 1 = 255 ∧ d.cfi.groups.any (fun e => e.2.isSome && e.1 != 255) = true) := by
    rintro ⟨hcell, hany⟩
    obtain ⟨e, he, hother⟩ := List.any_eq_true.mp hany
    obtain ⟨hthere, hne⟩ : e.2.isSome = true ∧ e.1 ≠ 255 := by simpa using hother
    have hgone : e.2 = none ∨ e.1 = 255 := by simpa using List.all_eq_true.mp (hlast hcell) e he
    rcases hgone with hnone | hslot
    · simp [hnone] at hthere
    · exact hne hslot
  simp only [Dev.groupDestroy, hg, hzero, hq, List.isEmpty_nil, Bool.not_true, Bool.false_eq_true, false_or, if_false, if_neg hothers]

theorem Dev.groupDestroy_busy (hq : g.queue ≠ []) : d.groupDestroy ops = (d, .now (errR 0x0402)) := by
  have hne : g.queue.isEmpty = false := by simpa using hq
  simp only [Dev.groupDestroy, hg, hzero, hne, Bool.not_true, Bool.not_false, Bool.false_eq_true, if_false, true_or, if_true]

end GroupDestroy

/-! ## GROUP_RESERVE (R417, R418) -/

/-- What all classes but `k` have reserved. -/
def Dev.reservedBut (d : Dev) (k : Nat) : Nat :=
  (allClasses.filter (· != k)).foldl (fun a c => a + d.get (CFI.GROUP_RESERVE.RESERVED c)) 0

/-- On a class that may be reserved for, 90 % of nominal capacity decides. -/
theorem Dev.groupReserve_eq {d : Dev} {ops : Bytes} {k r : Nat} (hk : k = le ops 0 2) (hr : r = le ops 4 4)
    (hzero3 : zeroBytes ops 3 1 = true) (hzero8 : zeroBytes ops 8 40 = true)
    (hgroup : k < 256 → (d.group k).isSome ∧ d.get (CFI.GROUP_STATE.STATE k) ≠ gsFAILED) (hclass : k ≤ 257) :
    d.groupReserve ops = if 90 * cellPorts d.code < d.reservedBut k + r then (d, .now (errR 0x0407))
      else (((d.set (CFI.GROUP_STATE.WEIGHT k) (le ops 2 1)).set (CFI.GROUP_RESERVE.RESERVED k) r).rescale, .now (okU [])) := by
  subst hk hr
  have hoperands : ¬ (257 < le ops 0 2 ∨ (!zeroBytes ops 3 1) = true ∨ (!zeroBytes ops 8 40) = true ∨
      (le ops 0 2 < 256 ∧ (d.group (le ops 0 2)).isNone = true)) := by
    rw [hzero3, hzero8]
    rintro (hlarge | hbad | hbad | ⟨hlt, hnone⟩)
    · exact Nat.not_lt.mpr hclass hlarge
    · cases hbad
    · cases hbad
    · rw [Option.isNone_iff_eq_none] at hnone
      simpa [hnone] using (hgroup hlt).1
  have hactive : ¬ (le ops 0 2 < 256 ∧ d.get (CFI.GROUP_STATE.STATE (le ops 0 2)) = gsFAILED) :=
    fun ⟨hlt, hfailed⟩ => (hgroup hlt).2 hfailed
  exact (if_neg hoperands).trans (if_neg hactive)

/-! ## Posting collectives (R405, R407, R412, R413) -/

section Posting

variable {d : Dev} {k : Nat} {g : Group} {c : Coll} {ok short : Bool}

theorem Dev.post_noGroup (hg : d.group k = none) : d.post k ok short c = (d, .now (errR 0x040E)) := by
  simp only [Dev.post, hg]

theorem Dev.post_failed (hg : d.group k = some g) (hst : d.get (CFI.GROUP_STATE.STATE k) = gsFAILED) :
    d.post k ok short c = (d, .now (errR 0x0405)) := by
  simp only [Dev.post, hg, hst, if_true]

theorem Dev.post_joins (hg : d.group k = some g) (hst : d.get (CFI.GROUP_STATE.STATE k) ≠ gsFAILED) (hok : ok = true) (hshort : short = false) :
    d.post k ok short c = (d.collAdd k c, .unit ((c.ranges g).map fun r => (r.1, r.2.1))) := by
  simp only [Dev.post, hg, hst, hok, hshort, Bool.not_true, Bool.false_eq_true, if_false]

end Posting

section ReduceScatter

variable {d : Dev} {o : Origin} {ops : Bytes} {g : Group}

/-- The collective a REDUCE_SCATTER posts (R407). -/
def Dev.reduceColl (d : Dev) (o : Origin) (ops : Bytes) : Coll :=
  Coll.fresh (.command o ops) ocRS (le ops 1 1) (le ops 2 1) (le ops 3 1) (le ops 4 8) (le ops 12 8) (le ops 20 8) (d.domOf (d.jobOf o)) d.now

/-- A mode takes the formats R407 lists for it. -/
def formatFits (mode f : Nat) : Bool := if mode = 2 then f == fcEX48 else f == fcFP32 || f == fcBF16

/-- Are the operands of a REDUCE_SCATTER good, its group's size and staging aside? -/
def reduceOperandsOk (ops : Bytes) : Bool :=
  decide (le ops 1 1 ≤ 2) && formatFits (le ops 1 1) (le ops 2 1) && formatFits (le ops 1 1) (le ops 3 1) && le ops 20 8 != 0
    && (le ops 1 1 != 1 || le ops 20 8 % 32 == 0) && zeroBytes ops 28 20

theorem formatFits_iff (mode f : Nat) :
    formatFits mode f = true ↔ (mode = 2 → f = fcEX48) ∧ (mode ≠ 2 → f ∈ [fcFP32, fcBF16]) := by
  by_cases h : mode = 2 <;> simp [formatFits, h]

theorem reduceOperandsOk_of (hmode : le ops 1 1 ≤ 2) (hsums : le ops 1 1 = 2 → le ops 2 1 = fcEX48 ∧ le ops 3 1 = fcEX48)
    (hfloats : le ops 1 1 ≠ 2 → le ops 2 1 ∈ [fcFP32, fcBF16] ∧ le ops 3 1 ∈ [fcFP32, fcBF16]) (hcount : le ops 20 8 ≠ 0)
    (hunits : le ops 1 1 = 1 → le ops 20 8 % 32 = 0) (hzero : zeroBytes ops 28 20 = true) : reduceOperandsOk ops = true := by
  have hsrc := (formatFits_iff (le ops 1 1) (le ops 2 1)).mpr ⟨fun h => (hsums h).1, fun h => (hfloats h).1⟩
  have hdst := (formatFits_iff (le ops 1 1) (le ops 3 1)).mpr ⟨fun h => (hsums h).2, fun h => (hfloats h).2⟩
  have hwhole : (le ops 1 1 != 1 || le ops 20 8 % 32 == 0) = true := by
    by_cases hmode1 : le ops 1 1 = 1
    · rw [hunits hmode1, beq_self_eq_true, Bool.or_true]
    · rw [bne_iff_ne.mpr hmode1, Bool.true_or]
  simp only [reduceOperandsOk, hmode, hsrc, hdst, hwhole, hzero, bne_iff_ne.mpr hcount, decide_true, Bool.and_self]

/-- A group that EXACT sums fit in, or any other mode, leaves the answer to the queue. -/
theorem Dev.reduceScatter_posts (hg : d.group (le ops 0 1) = some g) (hfit : le ops 1 1 = 1 → g.size ≤ 16384) :
    d.reduceScatter o ops = d.post (le ops 0 1) (reduceOperandsOk ops) (le ops 1 1 != 2 && decide (g.stagingLen < 4194304)) (d.reduceColl o ops) := by
  have hexact : (le ops 1 1 == 1 && decide (16384 < g.size)) = false := by
    simpa [Bool.and_eq_false_imp] using hfit
  simp only [Dev.reduceScatter, hg, hexact, Bool.and_false, Bool.false_eq_true, if_false]
  rfl

theorem Dev.reduceScatter_noGroup (hg : d.group (le ops 0 1) = none) : d.reduceScatter o ops = (d, .now (errR 0x040E)) := by
  simp only [Dev.reduceScatter, hg, Bool.and_false, Bool.false_eq_true, if_false, Dev.post_noGroup hg]

end ReduceScatter

section AllGatherPermute

variable {d : Dev} {o : Origin} {ops : Bytes}

/-- The collective an ALL_GATHER posts (R412). -/
def Dev.gatherColl (d : Dev) (o : Origin) (ops : Bytes) : Coll :=
  { Coll.fresh (.command o ops) ocAG (le ops 1 1) 0 0 (le ops 4 8) (le ops 12 8) (le ops 20 8) (d.domOf (d.jobOf o)) d.now with
    own := if le ops 1 1 = 1 then le ops 28 8 else 0, lenVec := if le ops 1 1 = 1 then le ops 36 8 else 0 }

/-- Are the operands of an ALL_GATHER good (R412)? -/
def gatherOperandsOk (ops : Bytes) : Bool :=
  decide (le ops 1 1 ≤ 1) && zeroBytes ops 2 2 && le ops 20 8 != 0 && (le ops 1 1 == 0 || decide (le ops 28 8 ≤ le ops 20 8)) && zeroBytes ops 44 4

theorem gatherOperandsOk_of (hvar : le ops 1 1 ≤ 1) (hzero2 : zeroBytes ops 2 2 = true) (hcount : le ops 20 8 ≠ 0)
    (hown : le ops 1 1 = 1 → le ops 28 8 ≤ le ops 20 8) (hzero44 : zeroBytes ops 44 4 = true) : gatherOperandsOk ops = true := by
  have hslot : (le ops 1 1 == 0 || decide (le ops 28 8 ≤ le ops 20 8)) = true := by
    obtain h | h : le ops 1 1 = 0 ∨ le ops 1 1 = 1 := by omega
    · rw [h]; rfl
    · rw [decide_eq_true (hown h), Bool.or_true]
  simp only [gatherOperandsOk, hvar, hzero2, hslot, hzero44, bne_iff_ne.mpr hcount, decide_true, Bool.and_self]

theorem Dev.allGather_posts : d.allGather o ops = d.post (le ops 0 1) (gatherOperandsOk ops) false (d.gatherColl o ops) := rfl

/-- The collective a PERMUTE posts (R413). -/
def Dev.permuteColl (d : Dev) (o : Origin) (ops : Bytes) : Coll :=
  { Coll.fresh (.command o ops) ocPERM 0 0 0 0 0 0 (d.domOf (d.jobOf o)) d.now with
    sendCount := le ops 2 2, sendList := le ops 4 8, recvCount := le ops 12 2, recvList := le ops 16 8 }

theorem Dev.permute_posts : d.permute o ops =
    d.post (le ops 0 1) (zeroBytes ops 1 1 && zeroBytes ops 14 2 && zeroBytes ops 24 24) false (d.permuteColl o ops) := rfl

end AllGatherPermute

/-! ## The ends of a group's collective (R415, R420) -/

section Ends

variable {d d1 : Dev} {k : Nat} {g : Group} {c : Coll} {cs : List Coll}

theorem Dev.collComplete_waits (h : d.group k = none ∨ d.collDone k = false) : d.collComplete k = d := by
  rcases h with hg | hdone
  · simp only [Dev.collComplete, hg]
  · simp only [Dev.collComplete, hdone, Bool.not_false, if_true]
    split
    · rfl
    · split <;> rfl

variable (hg : d.group k = some g) (hq : g.queue = c :: cs)
include hg hq

theorem Dev.collComplete_ends (hdone : d.collDone k = true) (hsettle : d.collSettle k g c = (d1, none)) :
    d.collComplete k = ((d1.popColl k).collEnded k c (if c.opcode = ocRS then okR (if c.mode = 2 then c.sat else 0) else okU [])).kick := by
  simp only [Dev.collComplete, hg, hq, hdone, hsettle, Bool.not_true, Bool.false_eq_true, if_false]

theorem Dev.collComplete_fails {st a : Nat} (hdone : d.collDone k = true) (hsettle : d.collSettle k g c = (d1, some (st, a))) :
    d.collComplete k = (d1.failSlot k (errA st a)).kick := by
  simp only [Dev.collComplete, hg, hq, hdone, hsettle, Bool.not_true, Bool.false_eq_true, if_false]

theorem Dev.groupDue_running (hdone : d.collDone k = false) :
    d.groupDue k = some (c.since + d.get (CFI.GROUP_TIMEOUT.SECONDS k) * 1000000000) := by
  simp only [Dev.groupDue, hg, hq, hdone, Bool.false_eq_true, if_false]

end Ends

/-! ## The statement -/

/-- Settles O34, clause by clause: a command by what its effect answers at the head, an event by what its effect makes of
the device. A posted collective covers the ranges `Dev.post` answers with. -/
theorem groupsAndCollectives : Obligations.GroupsAndCollectives := by
  refine ⟨⟨?reset, fun s o ops => ⟨?noCell, ?cell, ?members, ?destroy, ?reserve⟩⟩,
    ⟨?reduceScatter, ?allGather, ?permute, ?refused⟩, ?complete, ?waits, ?timeout⟩
  case reset =>
    intro k w hw
    simp only [List.mem_cons, Prod.mk.injEq, List.not_mem_nil, or_false] at hw
    obtain ⟨rfl, rfl⟩ | ⟨rfl, rfl⟩ := hw <;> exact ⟨rfl, rfl⟩
  case noCell =>
    exact fun h hslot hcell hthere =>
      next_onDev_congr (command_now h (Dev.groupCreate_noCell hslot hcell hthere))
  case cell =>
    exact fun h hok hcell hstage d0 d1 b hranges hlist pre hpre haligned hash hhash =>
      next_onDev_congr (command_now h
        (Dev.groupCreate_cell (d := s.here) (job := s.here.jobOf o) hok hstage hhash hcell hranges hlist hpre haligned))
  case members =>
    exact fun h hok hcell hthere hstage d0 d1 b hranges hlist ms hms hin hdistinct hown hash hhash =>
      next_onDev_congr (command_now h
        (Dev.groupCreate_members (d := s.here) (job := s.here.jobOf o) hok hstage hhash hcell hthere hranges hlist hms hin hdistinct hown))
  case destroy =>
    exact fun h g hg hzero =>
      ⟨fun hq hlast => next_onDev_congr (command_now h (Dev.groupDestroy_removes hg hzero hq hlast)),
        fun hq => next_onDev_congr (command_now h (Dev.groupDestroy_busy hg hzero hq))⟩
  case reserve =>
    intro h k r others hk hr hothers hzero3 hzero8 hgroup hclass
    subst hothers
    have heff := Dev.groupReserve_eq (d := s.here) hk hr hzero3 hzero8 hgroup hclass
    exact ⟨fun hfits => next_onDev_congr (command_now h (heff.trans (if_neg (Nat.not_lt.mpr hfits)))),
      fun hover => next_onDev_congr (command_now h (heff.trans (if_pos hover)))⟩
  case reduceScatter =>
    intro s o ops g h hg hst hmode hsums hother hcount hunits hzero
    have hok := reduceOperandsOk_of hmode hsums (fun hm => (hother hm).imp_right And.left) hcount (fun hm => (hunits hm).1) hzero
    have hstaged : (le ops 1 1 != 2 && decide (g.stagingLen < 4194304)) = false := by
      rw [Bool.and_eq_false_imp, bne_iff_ne]
      intro hm
      obtain ⟨-, -, hlen⟩ := hother hm
      exact decide_eq_false (Nat.not_lt.mpr hlen)
    exact ⟨_, _, rfl, next_onDev_congr (congrArg Dev.kick (command_unit h
      ((Dev.reduceScatter_posts (d := s.here) (o := o) hg fun hm => (hunits hm).2).trans (Dev.post_joins hg hst hok hstaged))))⟩
  case allGather =>
    intro s o ops g h hg hst hvar hzero2 hcount hown hzero
    have hok := gatherOperandsOk_of hvar hzero2 hcount hown hzero
    exact ⟨_, _, rfl, next_onDev_congr (congrArg Dev.kick (command_unit h
      ((Dev.allGather_posts (d := s.here) (o := o)).trans (Dev.post_joins hg hst hok rfl))))⟩
  case permute =>
    intro s o ops g h hg hst hzero1 hzero14 hzero24
    have hok : (zeroBytes ops 1 1 && zeroBytes ops 14 2 && zeroBytes ops 24 24) = true := by rw [hzero1, hzero14, hzero24]; rfl
    exact ⟨_, _, rfl, next_onDev_congr (congrArg Dev.kick (command_unit h
      ((Dev.permute_posts (d := s.here) (o := o)).trans (Dev.post_joins hg hst hok rfl))))⟩
  case refused =>
    intro s o ops c hc h
    simp only [List.mem_cons, List.not_mem_nil, or_false] at hc
    obtain rfl | rfl := hc
    · exact ⟨fun hg => next_onDev_congr (congrArg Dev.kick (command_now h (Dev.reduceScatter_noGroup hg))),
        fun g hg hst hsize => next_onDev_congr (congrArg Dev.kick (command_now h
          ((Dev.reduceScatter_posts (d := s.here) (o := o) hg fun _ => hsize).trans (Dev.post_failed hg hst))))⟩
    · exact ⟨fun hg => next_onDev_congr (congrArg Dev.kick (command_now h
          ((Dev.allGather_posts (d := s.here) (o := o)).trans (Dev.post_noGroup hg)))),
        fun g hg hst _ => next_onDev_congr (congrArg Dev.kick (command_now h
          ((Dev.allGather_posts (d := s.here) (o := o)).trans (Dev.post_failed hg hst))))⟩
  case complete =>
    exact fun s k g c cs d1 hg hq hdone =>
      ⟨fun hsettle => next_onDev_congr (congrArg Dev.pendServe (Dev.collComplete_ends (d := s.here) hg hq hdone hsettle)),
        fun st a hsettle => next_onDev_congr (congrArg Dev.pendServe (Dev.collComplete_fails (d := s.here) hg hq hdone hsettle))⟩
  case waits =>
    exact fun s k h => next_onDev_congr (congrArg Dev.pendServe (Dev.collComplete_waits (d := s.here) h))
  case timeout =>
    intro s k g c cs hg hq hdone
    refine ⟨_, rfl, ?_⟩
    rw [exec_groupTimeout, execGroupTimeout, Dev.groupDue_running hg hq hdone, State.atTime_some]
    refine next_onDev_congr ?_
    rw [State.here_flag, State.until_dev]

end Sys2Proof.Machine
end

section
/-! PROOFS. The management commands (R73, R74, R634, R653 to R655): first operand fields and the reset values of the QSU's
registers, then what each command answers, what a binding of classes, a tally's gift and a new ring leave in the device,
and then the statement. -/

namespace Sys2Proof.Machine

/-! ## Operand fields -/

theorem leNat_lt (bs : Bytes) : leNat bs < 256 ^ bs.length := by
  induction bs with
  | nil => exact Nat.one_pos
  | cons b bs ih =>
    have hb : b.toNat < 256 := b.isLt
    rw [leNat, List.length_cons, Nat.pow_succ]
    omega

/-- A field of `n` bytes holds a number of `n` bytes. -/
theorem opnd_lt (ops : Bytes) (off n : Nat) : opnd ops off n < 256 ^ n :=
  Nat.lt_of_lt_of_le (leNat_lt _) (Nat.pow_le_pow_right (by decide) (List.length_take_le _ _))

/-- Bits 10 to 15 of a halfword are 0 exactly when it lies below 1,024. -/
theorem bits_15_10_eq_zero_iff {m : Nat} (hm : m < 65536) : bits m 15 10 = 0 ↔ m < 1024 := by
  rw [bits, Nat.shiftRight_eq_div_pow]
  omega

theorem fieldOf_ofNat (n hi lo : Nat) : fieldOf (BitVec.ofNat 32 n) hi lo = n % 2 ^ 32 / 2 ^ lo % 2 ^ (hi + 1 - lo) := by
  rw [fieldOf, bits, BitVec.toNat_ofNat, Nat.shiftRight_eq_div_pow]

/-! ## The reset values of the QSU's registers (R52, R62) -/

/-- `QSU.RING_CFG`, whose LOG2_COUNT resets to 6, is the one register of the unit that does not reset to 0. -/
theorem regsQsu_reset : ∀ r ∈ regsQsu, r.base = 0x210008 ∧ r.dims = [(0x20, 16384)] ∨
    r.resetIx = 0 ∧ r.flds.foldl (fun a fl => a + fl.rst * 2 ^ fl.lo) 0 = 0 := by
  decide

theorem findReg_qsu {off : Nat} (hlo : 0x200000 ≤ off) (hhi : off < 0x600000) : findReg off =
    regsQsu.findSome? (fun r => if r.base ≤ off then (dimIx r.dims (off - r.base)).map (fun i => (r, i)) else none) := by
  have hfind : regBlocks.find? (fun b => decide (b.1 ≤ off ∧ off ≤ b.2.1)) = some (0x00200000, 0x005FFFFF, regsQsu) := by
    rw [regBlocks, List.find?_cons_of_neg (by rw [decide_eq_true_eq]; exact fun h => Nat.not_lt.mpr h.2 (Nat.lt_of_lt_of_le (by decide) hlo)),
      List.find?_cons_of_neg (by rw [decide_eq_true_eq]; exact fun h => Nat.not_lt.mpr h.2 hlo),
      List.find?_cons_of_pos (by rw [decide_eq_true_eq]; exact ⟨hlo, Nat.le_of_lt_succ hhi⟩)]
  rw [findReg, hfind]

theorem regReset_qsu {off : Nat} (hlo : 0x200000 ≤ off) (hhi : off < 0x600000) (hcfg : off % 32 = 8 → 0x290008 ≤ off) : regReset off = 0 := by
  rw [regReset, if_neg (by omega), if_neg (by omega), findReg_qsu hlo hhi]
  split
  · rfl
  next r i hfound =>
    obtain ⟨q, hq, hix⟩ := List.exists_of_findSome?_eq_some hfound
    obtain ⟨hbase, hix⟩ := Option.ite_none_right_eq_some.mp hix
    obtain ⟨k, hk, hpair⟩ := Option.map_eq_some_iff.mp hix
    obtain ⟨rfl, rfl⟩ := Prod.mk.inj hpair
    rcases regsQsu_reset q hq with ⟨hcfgBase, hdims⟩ | ⟨hresetIx, hflds⟩
    · rw [hdims, hcfgBase, dimIx, Option.ite_none_right_eq_some] at hk
      omega
    · rw [hresetIx, Nat.zero_mul, hflds]
      rfl

theorem Dev.clearReg_rd (d : Dev) (a off : Nat) : (d.clearReg a).rd off = if off = a then regReset a else d.rd off := Dev.rd_wr _ _ _ _

theorem Dev.get_of_rd {d : Dev} {f : FRef} {n : Nat} (h : d.rd f.off = BitVec.ofNat 32 n) :
    d.get f = n % 2 ^ 32 / 2 ^ f.lo % 2 ^ (f.hi + 1 - f.lo) := by
  rw [Dev.get, h, fieldOf_ofNat]

theorem Dev.get_of_rd_zero {d : Dev} {f : FRef} (h : d.rd f.off = 0) : d.get f = 0 := by
  rw [Dev.get_of_rd (n := 0) h, Nat.zero_mod, Nat.zero_div, Nat.zero_mod]

/-! ## What the commands answer -/

section Answers

variable {d : Dev} {ops : Bytes}

theorem Dev.jobCreate_makes {j : Nat} (hfree : freeRun d.jobNumbers 1 65536 1 = some j) (hdom : opnd ops 16 1 ≠ 0)
    (hzero : opndZero ops 17 7 = true) :
    d.jobCreate ops = (d.setJob j (some ⟨opnd ops 16 1, opnd ops 24 8, none⟩), .now (okR j)) := by
  simp [Dev.jobCreate, hdom, hzero, hfree]

theorem Dev.jobCreate_refused (h : opnd ops 16 1 = 0 ∨ opndZero ops 17 7 = false) : d.jobCreate ops = (d, .now (errR 0x0107)) :=
  if_pos (h.imp_right fun hz => by rw [hz]; rfl)

/-- The check of EVENT_RING_BIND (R655): an enabled event ring, and a mask without bits 0 and 10 to 15. -/
theorem Dev.eventRingBind_eq (d : Dev) (ops : Bytes) : d.eventRingBind ops =
    if d.ringOn (opnd ops 16 2) 2 = true ∧ (opnd ops 18 2).testBit 0 = false ∧ opnd ops 18 2 < 1024 then
      (d.bindClasses (opnd ops 16 2) (opnd ops 18 2), .now (okR 0))
    else (d, .now (errR 0x0107)) := by
  have htop := bits_15_10_eq_zero_iff (opnd_lt ops 18 2)
  by_cases hon : d.ringOn (opnd ops 16 2) 2 = true
  · by_cases hbit : (opnd ops 18 2).testBit 0 = true
    · simp [Dev.eventRingBind, bit, hon, hbit]
    · simp [Dev.eventRingBind, bit, hon, hbit, ← htop]
  · simp [Dev.eventRingBind, hon]

theorem Dev.tallyAlloc_gives {t : Nat} (hpos : 0 < opnd ops 16 4) (hmost : opnd ops 16 4 ≤ 4096)
    (hjob : (d.job (opnd ops 20 2)).isSome) (hfree : freeRun d.usedTallies 0 65536 (opnd ops 16 4) = some t) :
    d.tallyAlloc ops =
      (d.each (List.range (opnd ops 16 4)) (fun d i => d.tallyGive (t + i) (some (opnd ops 20 2))), .now (okR t)) := by
  have hgood : ¬ (opnd ops 16 4 = 0 ∨ 4096 < opnd ops 16 4 ∨ (d.job (opnd ops 20 2)).isNone = true) := by
    rw [Option.isNone_eq_false_iff.mpr hjob]
    simp only [Bool.false_eq_true, or_false]
    omega
  simp only [Dev.tallyAlloc, if_neg hgood, hfree]

theorem Dev.tallyAlloc_refused (h : opnd ops 16 4 = 0 ∨ 4096 < opnd ops 16 4 ∨ d.job (opnd ops 20 2) = none ∨
    freeRun d.usedTallies 0 65536 (opnd ops 16 4) = none) : d.tallyAlloc ops = (d, .now (errR 0x0107)) := by
  rcases h with h | h | h | h
  · exact if_pos (.inl h)
  · exact if_pos (.inr (.inl h))
  · exact if_pos (.inr (.inr (by rw [h]; rfl)))
  · simp only [Dev.tallyAlloc, h, ite_self]

/-- A range that is not empty and whose tallies are all allocated is freed (R74). -/
theorem Dev.tallyFree_frees {ts : List Nat} (hts : ts = (List.range (opnd ops 18 2)).map (opnd ops 16 2 + ·)) (hne : ts ≠ [])
    (hused : ∀ t ∈ ts, t < 65536 ∧ d.tallyUsed t = true) :
    d.tallyFree ops = (d.each ts (fun d t => d.tallyGive t none), .now (okR 0)) := by
  subst hts
  have hpos : opnd ops 18 2 ≠ 0 := fun h => hne (by rw [h]; rfl)
  have hlast : opnd ops 16 2 + (opnd ops 18 2 - 1) < 65536 :=
    (hused _ (List.mem_map_of_mem (List.mem_range.mpr (by omega)))).1
  have hall : ((List.range (opnd ops 18 2)).map (opnd ops 16 2 + ·)).all (d.tallyUsed ·) = true :=
    List.all_eq_true.mpr fun t ht => (hused t ht).2
  have hgood : ¬ (opnd ops 18 2 = 0 ∨ 65536 < opnd ops 16 2 + opnd ops 18 2 ∨
      (!((List.range (opnd ops 18 2)).map (opnd ops 16 2 + ·)).all (d.tallyUsed ·)) = true) := by
    rw [hall]
    simp only [Bool.not_true, Bool.false_eq_true, or_false]
    omega
  simp only [Dev.tallyFree, if_neg hgood]

theorem Dev.ringCreate_refused (h : d.ringOperandsOk ops = false ∨ freeRun d.usedRings 16 16384 1 = none) :
    d.ringCreate ops = (d, .now (errR 0x0107)) := by
  rcases h with h | h
  · simp [Dev.ringCreate, h]
  · simp [Dev.ringCreate, h]

variable {r : Nat} (hok : d.ringOperandsOk ops = true) (hfree : freeRun d.usedRings 16 16384 1 = some r)
include hok hfree

/-- A ring in host memory (R653). -/
theorem Dev.ringCreate_host (hloc : opnd ops 26 1 = 0) : d.ringCreate ops = (d.ringMake r ops, .now (okR r)) := by
  simp [Dev.ringCreate, hok, hfree, hloc]

/-- A ring in device memory, whose range the QSU can reach (R649, R650, R653). -/
theorem Dev.ringCreate_device {d1 : Dev} {segs : List Seg} (hloc : opnd ops 26 1 = 1)
    (hx : d.xlate (qsuAcc (if opnd ops 25 1 = 0 then 1 else 2) (d.domOf (opnd ops 30 2))) (opnd ops 16 8) (64 * 2 ^ opnd ops 24 1) =
      (d1, .ok segs)) : d.ringCreate ops = (d1.ringMake r ops, .now (okR r)) := by
  simp [Dev.ringCreate, hok, hfree, hloc, hx]

end Answers

/-- QUERY_DEVICE is accepted in every curator state (R72, R634). -/
theorem mboxAllows_queryDevice (cur : Nat) : mboxAllows cur 0x0002 = true := by
  unfold mboxAllows
  split
  · rfl
  · split
    · rfl
    · exact if_pos (by decide)

/-! ## The classes of an event ring (R655) -/

section Classes

variable {d : Dev} {r k q : Nat}

theorem Dev.evRing_bound (h : smapGet evBindDflt d.cmd.evBind k = q + 1) :
    d.evRing k = if d.ringOn q 2 = true then some q else none := by
  rw [Dev.evRing, h]

theorem Dev.evRing_unbound (h : smapGet evBindDflt d.cmd.evBind k = 0) : d.evRing k = none := by
  rw [Dev.evRing, h]

/-- An enabled event ring takes the records of a class exactly when the class is bound to it. -/
theorem Dev.evRing_eq_some_iff (hon : d.ringOn r 2 = true) :
    d.evRing k = some r ↔ smapGet evBindDflt d.cmd.evBind k = r + 1 := by
  rcases hb : smapGet evBindDflt d.cmd.evBind k with - | q
  · simp [Dev.evRing_unbound hb]
  · rw [Dev.evRing_bound hb]
    constructor
    · intro h
      rw [(Option.ite_none_right_eq_some.mp h).2 |> Option.some.inj]
    · intro h
      obtain rfl : q = r := Nat.succ.inj h
      exact if_pos hon

theorem Dev.ringOn_congr {e : Dev} (hregs : e.regs = d.regs) (q kind : Nat) : e.ringOn q kind = d.ringOn q kind := by
  have hrd : e.rd = d.rd := funext fun off => by rw [Dev.rd, hregs, Dev.rd]
  rw [Dev.ringOn, Dev.flag, Dev.get, Dev.get, hrd]
  rfl

/-- Only the binding and the rings' registers decide which ring takes a class. -/
theorem Dev.evRing_congr {e : Dev} (hregs : e.regs = d.regs)
    (hbind : smapGet evBindDflt e.cmd.evBind k = smapGet evBindDflt d.cmd.evBind k) : e.evRing k = d.evRing k := by
  rcases hb : smapGet evBindDflt d.cmd.evBind k with - | q
  · rw [Dev.evRing_unbound hb, Dev.evRing_unbound (hbind.trans hb)]
  · rw [Dev.evRing_bound hb, Dev.evRing_bound (hbind.trans hb)]
    rw [Dev.ringOn_congr hregs]

/-- What EVENT_RING_BIND makes of the ring + 1 that class `k` is bound to, `b`. -/
def boundTo (r mask k b : Nat) : Nat := if mask.testBit k then r + 1 else if b = r + 1 then 0 else b

/-- One class of EVENT_RING_BIND's mask. -/
def Dev.bindClass (r mask : Nat) (d : Dev) (k : Nat) : Dev :=
  if bit mask k then { d with cmd.evBind := smapSet evBindDflt d.cmd.evBind k (r + 1) }
  else if smapGet evBindDflt d.cmd.evBind k = r + 1 then { d with cmd.evBind := smapSet evBindDflt d.cmd.evBind k 0 }
  else d

theorem Dev.bindClasses_eq (d : Dev) (r mask : Nat) : d.bindClasses r mask = d.each (List.range 16) (Dev.bindClass r mask) := rfl

section OneClass

variable {mask : Nat}

theorem Dev.bindClass_named (hmask : mask.testBit k = true) :
    d.bindClass r mask k = { d with cmd.evBind := smapSet evBindDflt d.cmd.evBind k (r + 1) } := if_pos hmask

theorem Dev.bindClass_released (hmask : ¬ mask.testBit k = true) (hown : smapGet evBindDflt d.cmd.evBind k = r + 1) :
    d.bindClass r mask k = { d with cmd.evBind := smapSet evBindDflt d.cmd.evBind k 0 } := (if_neg hmask).trans (if_pos hown)

theorem Dev.bindClass_kept (hmask : ¬ mask.testBit k = true) (hown : ¬ smapGet evBindDflt d.cmd.evBind k = r + 1) :
    d.bindClass r mask k = d := (if_neg hmask).trans (if_neg hown)

end OneClass

theorem Dev.bindClass_binding (d : Dev) (r mask k j : Nat) : smapGet evBindDflt (d.bindClass r mask k).cmd.evBind j =
    if j = k then boundTo r mask k (smapGet evBindDflt d.cmd.evBind k) else smapGet evBindDflt d.cmd.evBind j := by
  by_cases hmask : mask.testBit k = true
  · rw [Dev.bindClass_named hmask, boundTo, if_pos hmask]
    exact smapGet_set d.cmd.evBind k j (r + 1)
  by_cases hown : smapGet evBindDflt d.cmd.evBind k = r + 1
  · rw [Dev.bindClass_released hmask hown, boundTo, if_neg hmask, if_pos hown]
    exact smapGet_set d.cmd.evBind k j 0
  rw [Dev.bindClass_kept hmask hown, boundTo, if_neg hmask, if_neg hown]
  by_cases hj : j = k
  · rw [if_pos hj, hj]
  · rw [if_neg hj]

/-- The device but for its bindings. -/
def Dev.unbound (d : Dev) : Dev := { d with cmd.evBind := [] }

theorem Dev.bindClass_unbound (d : Dev) (r mask k : Nat) : (d.bindClass r mask k).unbound = d.unbound := by
  by_cases hmask : mask.testBit k = true
  · rw [Dev.bindClass_named hmask]
    rfl
  by_cases hown : smapGet evBindDflt d.cmd.evBind k = r + 1
  · rw [Dev.bindClass_released hmask hown]
    rfl
  rw [Dev.bindClass_kept hmask hown]

theorem Dev.bindClasses_frame (d : Dev) (r mask : Nat) :
    d.bindClasses r mask = { d with cmd.evBind := (d.bindClasses r mask).cmd.evBind } := by
  have hkeep : (d.bindClasses r mask).unbound = d.unbound :=
    Dev.each_keep Dev.unbound (Dev.bindClass r mask) (fun d k => d.bindClass_unbound r mask k) _ d
  exact congrArg (fun x : Dev => { x with cmd.evBind := (d.bindClasses r mask).cmd.evBind }) hkeep

theorem Dev.bindRange_binding (d : Dev) (r mask n j : Nat) :
    smapGet evBindDflt (d.each (List.range n) (Dev.bindClass r mask)).cmd.evBind j =
      if j < n then boundTo r mask j (smapGet evBindDflt d.cmd.evBind j) else smapGet evBindDflt d.cmd.evBind j := by
  induction n with
  | zero => rfl
  | succ n ih =>
    rw [Dev.each, List.range_succ, List.foldl_append, List.foldl_cons, List.foldl_nil, Dev.bindClass_binding, ← Dev.each]
    rcases Nat.lt_trichotomy j n with h | rfl | h
    · rw [if_neg (by omega), ih, if_pos h, if_pos (by omega)]
    · rw [if_pos rfl, ih, if_neg (Nat.lt_irrefl j), if_pos (Nat.lt_succ_self j)]
    · rw [if_neg (by omega), ih, if_neg (by omega), if_neg (by omega)]

/-- The classes of the mask go to the ring alone, its other classes to none, and the rest stay. -/
theorem Dev.bindClasses_evRing (hon : d.ringOn r 2 = true) (mask : Nat) (hk : k < 16) : (d.bindClasses r mask).evRing k =
    if mask.testBit k then some r else if d.evRing k = some r then none else d.evRing k := by
  have hframe := d.bindClasses_frame r mask
  have hregs : (d.bindClasses r mask).regs = d.regs := by rw [hframe]
  have hon' : (d.bindClasses r mask).ringOn r 2 = true := by rw [hframe]; exact hon
  have hbind : smapGet evBindDflt (d.bindClasses r mask).cmd.evBind k = boundTo r mask k (smapGet evBindDflt d.cmd.evBind k) := by
    rw [Dev.bindClasses_eq, Dev.bindRange_binding, if_pos hk]
  by_cases hmask : mask.testBit k = true
  · rw [boundTo, if_pos hmask] at hbind
    exact ((Dev.evRing_eq_some_iff hon').mpr hbind).trans (if_pos hmask).symm
  by_cases hown : smapGet evBindDflt d.cmd.evBind k = r + 1
  · rw [boundTo, if_neg hmask, if_pos hown] at hbind
    rw [if_neg hmask, if_pos ((Dev.evRing_eq_some_iff hon).mpr hown), Dev.evRing_unbound hbind]
  · rw [boundTo, if_neg hmask, if_neg hown] at hbind
    rw [if_neg hmask, if_neg (mt (Dev.evRing_eq_some_iff hon).mp hown), Dev.evRing_congr hregs hbind]

end Classes

/-! ## A tally that is given out (R654) -/

section GivenTally

variable {d : Dev} {t j : Nat}

/-- A tally whose three registers are at their reset values. -/
def Dev.tallyClear (d : Dev) (t : Nat) : Dev :=
  ((d.clearReg (QSU.TALLY_VALUE.REG t).off).clearReg (QSU.TALLY_IRQ.REG t).off).clearReg (QSU.TALLY_CFG.REG t).off

theorem Dev.tallyGive_some (d : Dev) (t j : Nat) : d.tallyGive t (some j) =
    ((d.tallyClear t).set (QSU.TALLY_CFG.ALLOCATED t) 1).set (QSU.TALLY_CFG.OWNER t) j := rfl

theorem Dev.tallyClear_rd (ht : t < 65536) {off : Nat}
    (hoff : off = (QSU.TALLY_VALUE.REG t).off ∨ off = (QSU.TALLY_IRQ.REG t).off ∨ off = (QSU.TALLY_CFG.REG t).off) :
    (d.tallyClear t).rd off = 0 := by
  have hreset : regReset off = 0 := by
    simp only [QSU.TALLY_VALUE.REG, QSU.TALLY_IRQ.REG, QSU.TALLY_CFG.REG] at hoff
    exact regReset_qsu (by omega) (by omega) (by omega)
  by_cases hcfg : off = (QSU.TALLY_CFG.REG t).off
  · rw [Dev.tallyClear, Dev.clearReg_rd, if_pos hcfg, ← hcfg, hreset]
  rw [Dev.tallyClear, Dev.clearReg_rd, if_neg hcfg]
  by_cases hirq : off = (QSU.TALLY_IRQ.REG t).off
  · rw [Dev.clearReg_rd, if_pos hirq, ← hirq, hreset]
  rw [Dev.clearReg_rd, if_neg hirq]
  have hval : off = (QSU.TALLY_VALUE.REG t).off := hoff.resolve_right fun h => h.elim hirq hcfg
  rw [Dev.clearReg_rd, if_pos hval, ← hval, hreset]

/-- Every field of a tally but ALLOCATED and OWNER starts at 0. -/
theorem Dev.tallyGive_get (ht : t < 65536) {f : FRef}
    (hoff : f.off = (QSU.TALLY_VALUE.REG t).off ∨ f.off = (QSU.TALLY_IRQ.REG t).off ∨ f.off = (QSU.TALLY_CFG.REG t).off)
    (hcfg : f.off = (QSU.TALLY_CFG.REG t).off → (f.hi < 1 ∨ 1 < f.lo) ∧ f.hi < 16) : (d.tallyGive t (some j)).get f = 0 := by
  have howner : (((d.tallyClear t).set (QSU.TALLY_CFG.ALLOCATED t) 1).set (QSU.TALLY_CFG.OWNER t) j).get f =
      ((d.tallyClear t).set (QSU.TALLY_CFG.ALLOCATED t) 1).get f :=
    Dev.get_set_ne _ _ _ _ (by simp [QSU.TALLY_CFG.OWNER]) fun h => .inr (hcfg h).2
  have halloc : ((d.tallyClear t).set (QSU.TALLY_CFG.ALLOCATED t) 1).get f = (d.tallyClear t).get f :=
    Dev.get_set_ne _ _ _ _ (by simp [QSU.TALLY_CFG.ALLOCATED]) fun h => (hcfg h).1.symm
  rw [Dev.tallyGive_some, howner, halloc, Dev.get_of_rd_zero (Dev.tallyClear_rd ht hoff)]

theorem Dev.tallyGive_allocated : (d.tallyGive t (some j)).flag (QSU.TALLY_CFG.ALLOCATED t) = true := by
  rw [Dev.tallyGive_some, Dev.flag, Dev.get_set_ne _ _ _ _ (by simp [QSU.TALLY_CFG.OWNER])
      (fun _ => .inr (by simp [QSU.TALLY_CFG.ALLOCATED, QSU.TALLY_CFG.OWNER])),
    Dev.get_set_same _ _ _ (by simp [QSU.TALLY_CFG.ALLOCATED]) (by simp [QSU.TALLY_CFG.ALLOCATED])]
  rfl

theorem Dev.tallyGive_owner (hj : j < 65536) : (d.tallyGive t (some j)).get (QSU.TALLY_CFG.OWNER t) = j := by
  rw [Dev.tallyGive_some, Dev.get_set_same _ _ _ (by simp [QSU.TALLY_CFG.OWNER]) (by simp [QSU.TALLY_CFG.OWNER])]
  exact Nat.mod_eq_of_lt hj

theorem Dev.tallyGive_owned (ht : t < 65536) (hj : j < 65536) : (d.tallyGive t (some j)).tallyOwned t j = true := by
  rw [Dev.tallyOwned, Dev.tallyGive_allocated, Dev.tallyGive_owner hj, decide_eq_true ht, beq_self_eq_true]
  rfl

theorem Dev.tallyGive_rd {off : Nat} (hval : off ≠ (QSU.TALLY_VALUE.REG t).off) (hirq : off ≠ (QSU.TALLY_IRQ.REG t).off)
    (hcfg : off ≠ (QSU.TALLY_CFG.REG t).off) : (d.tallyGive t (some j)).rd off = d.rd off := by
  rw [Dev.tallyGive_some, Dev.rd_set_ne _ (QSU.TALLY_CFG.OWNER t) _ _ hcfg, Dev.rd_set_ne _ (QSU.TALLY_CFG.ALLOCATED t) _ _ hcfg,
    Dev.tallyClear, Dev.clearReg_rd, if_neg hcfg, Dev.clearReg_rd, if_neg hirq, Dev.clearReg_rd, if_neg hval]

end GivenTally

/-! ## A ring that RING_CREATE makes (R653) -/

section NewRing

variable {d : Dev} {r : Nat} {ops : Bytes}

theorem or_shiftLeft_eq_add {b i m : Nat} (hm : 2 ^ i = m) (hb : b < m) (a : Nat) : b ||| a <<< i = b + m * a := by
  subst hm
  rw [Nat.or_comm, ← Nat.shiftLeft_add_eq_or_of_lt hb, Nat.shiftLeft_eq, Nat.mul_comm, Nat.add_comm]

/-- The word that RING_CREATE writes to `QSU.RING_CFG`. -/
def ringCfgWord (ops : Bytes) : Nat :=
  1 ||| (opnd ops 26 1 <<< 1) ||| (opnd ops 25 1 <<< 2) ||| (opnd ops 24 1 <<< 4) ||| (bits (opnd ops 34 1) 0 0 <<< 10) ||| (opnd ops 32 2 <<< 11)

/-- What good operands of RING_CREATE say of the fields they are written to (R653). -/
theorem Dev.ringOperandsOk_fits (h : d.ringOperandsOk ops = true) :
    opnd ops 24 1 ≤ 20 ∧ opnd ops 25 1 ≤ 2 ∧ opnd ops 26 1 ≤ 1 ∧ opnd ops 16 8 % 64 = 0 ∧ opnd ops 28 2 < 16384 ∧ opnd ops 32 2 ≤ 2047 := by
  simp only [Dev.ringOperandsOk, Bool.and_eq_true, decide_eq_true_eq, beq_iff_eq] at h
  obtain ⟨⟨⟨⟨⟨⟨⟨⟨⟨⟨-, hcount, hkind, hloc⟩, hbase⟩, -⟩, -⟩, -⟩, hcq⟩, hvec⟩, -⟩, -⟩, -⟩ := h
  refine ⟨hcount, hkind, hloc, hbase, ?_, hvec⟩
  by_cases hk : opnd ops 25 1 = 0
  · rw [if_pos hk] at hcq
    simp only [Dev.ringOn, Bool.and_eq_true, decide_eq_true_eq] at hcq
    obtain ⟨⟨⟨⟨hlt, -⟩, -⟩, -⟩, -⟩ := hcq
    exact hlt
  · rw [if_neg hk, beq_iff_eq] at hcq
    omega

theorem ringCfgWord_eq (h : d.ringOperandsOk ops = true) : ringCfgWord ops = 1 + 2 * opnd ops 26 1 + 4 * opnd ops 25 1 + 16 * opnd ops 24 1 +
    1024 * bits (opnd ops 34 1) 0 0 + 2048 * opnd ops 32 2 := by
  obtain ⟨hcount, hkind, hloc, -, -, -⟩ := Dev.ringOperandsOk_fits h
  have hirq : bits (opnd ops 34 1) 0 0 < 2 := Nat.mod_lt _ (by decide)
  rw [ringCfgWord, or_shiftLeft_eq_add (i := 1) (m := 2) rfl (by omega), or_shiftLeft_eq_add (i := 2) (m := 4) rfl (by omega),
    or_shiftLeft_eq_add (i := 4) (m := 16) rfl (by omega), or_shiftLeft_eq_add (i := 10) (m := 1024) rfl (by omega),
    or_shiftLeft_eq_add (i := 11) (m := 2048) rfl (by omega)]

/-- What RING_CREATE writes to the registers of its ring. -/
def Dev.ringWrite (d : Dev) (r : Nat) (ops : Bytes) : Dev :=
  ((((d.wr (QSU.RING_BASE_LO.REG r).off (BitVec.ofNat 32 (opnd ops 16 8))).wr (QSU.RING_BASE_HI.REG r).off (BitVec.ofNat 32 (opnd ops 16 8 / 2 ^ 32))).wr
    (QSU.RING_PAIR.REG r).off (BitVec.ofNat 32 (opnd ops 30 2 * 65536 + opnd ops 28 2))).each
      [QSU.RING_HEAD.REG r, QSU.RING_TAIL.REG r, QSU.RING_STATUS.REG r, QSU.RING_RESV.REG r] (fun d f => d.clearReg f.off)).wr
    (QSU.RING_CFG.REG r).off (BitVec.ofNat 32 (ringCfgWord ops))

theorem Dev.ringMake_eq (d : Dev) (r : Nat) (ops : Bytes) : d.ringMake r ops = { d.ringWrite r ops with
    cmd.fullSince := smapSet fullDflt (d.ringWrite r ops).cmd.fullSince r none,
    cmd.walkHalt := (d.ringWrite r ops).cmd.walkHalt.filter (· != r) } := rfl

theorem Dev.rd_withCmd (d : Dev) (c : CmdUnit) (off : Nat) : ({ d with cmd := c } : Dev).rd off = d.rd off := rfl

/-- The registers after RING_CREATE. -/
theorem Dev.ringMake_rd (d : Dev) (r : Nat) (ops : Bytes) (off : Nat) : (d.ringMake r ops).rd off =
    if off = (QSU.RING_CFG.REG r).off then BitVec.ofNat 32 (ringCfgWord ops)
    else if off = (QSU.RING_RESV.REG r).off then regReset (QSU.RING_RESV.REG r).off
    else if off = (QSU.RING_STATUS.REG r).off then regReset (QSU.RING_STATUS.REG r).off
    else if off = (QSU.RING_TAIL.REG r).off then regReset (QSU.RING_TAIL.REG r).off
    else if off = (QSU.RING_HEAD.REG r).off then regReset (QSU.RING_HEAD.REG r).off
    else if off = (QSU.RING_PAIR.REG r).off then BitVec.ofNat 32 (opnd ops 30 2 * 65536 + opnd ops 28 2)
    else if off = (QSU.RING_BASE_HI.REG r).off then BitVec.ofNat 32 (opnd ops 16 8 / 2 ^ 32)
    else if off = (QSU.RING_BASE_LO.REG r).off then BitVec.ofNat 32 (opnd ops 16 8)
    else d.rd off := by
  simp only [Dev.ringMake_eq, Dev.rd_withCmd, Dev.ringWrite, Dev.each, List.foldl_cons, List.foldl_nil, Dev.rd_wr, Dev.clearReg_rd]

/-- The device but for its registers. -/
def Dev.noRegs (d : Dev) : Dev := { d with regs := [] }

theorem Dev.wr_noRegs (d : Dev) (a : Nat) (v : Reg) : (d.wr a v).noRegs = d.noRegs := rfl

theorem Dev.clearReg_noRegs (d : Dev) (a : Nat) : (d.clearReg a).noRegs = d.noRegs := rfl

theorem Dev.eq_withRegs {d e : Dev} (h : e.noRegs = d.noRegs) : e = { d with regs := e.regs } :=
  congrArg (fun x : Dev => { x with regs := e.regs }) h

theorem Dev.ringMake_frame (d : Dev) (r : Nat) (ops : Bytes) : d.ringMake r ops = { d with
    regs := (d.ringMake r ops).regs, cmd.fullSince := (d.ringMake r ops).cmd.fullSince, cmd.walkHalt := (d.ringMake r ops).cmd.walkHalt } := by
  have hkeep : (d.ringWrite r ops).noRegs = d.noRegs := by
    simp only [Dev.ringWrite, Dev.each, List.foldl_cons, List.foldl_nil, Dev.wr_noRegs, Dev.clearReg_noRegs]
  rw [Dev.ringMake_eq, Dev.eq_withRegs hkeep]

/-- Every register of another ring stays. -/
theorem Dev.ringMake_rd_other {off : Nat} (h : off < (QSU.RING_BASE_LO.REG r).off ∨ (QSU.RING_BASE_LO.REG r).off + 32 ≤ off) :
    (d.ringMake r ops).rd off = d.rd off := by
  simp only [QSU.RING_BASE_LO.REG] at h
  rw [Dev.ringMake_rd]
  iterate 8 rw [if_neg]
  all_goals
    simp only [QSU.RING_CFG.REG, QSU.RING_RESV.REG, QSU.RING_STATUS.REG, QSU.RING_TAIL.REG, QSU.RING_HEAD.REG, QSU.RING_PAIR.REG,
      QSU.RING_BASE_HI.REG, QSU.RING_BASE_LO.REG]
    omega

theorem Dev.ringMake_cfg : (d.ringMake r ops).rd (QSU.RING_CFG.REG r).off = BitVec.ofNat 32 (ringCfgWord ops) := by
  rw [Dev.ringMake_rd, if_pos rfl]

theorem Dev.ringMake_pair :
    (d.ringMake r ops).rd (QSU.RING_PAIR.REG r).off = BitVec.ofNat 32 (opnd ops 30 2 * 65536 + opnd ops 28 2) := by
  simp [Dev.ringMake_rd, QSU.RING_CFG.REG, QSU.RING_RESV.REG, QSU.RING_STATUS.REG, QSU.RING_TAIL.REG, QSU.RING_HEAD.REG, QSU.RING_PAIR.REG]

theorem Dev.ringMake_baseHi : (d.ringMake r ops).rd (QSU.RING_BASE_HI.REG r).off = BitVec.ofNat 32 (opnd ops 16 8 / 2 ^ 32) := by
  simp [Dev.ringMake_rd, QSU.RING_CFG.REG, QSU.RING_RESV.REG, QSU.RING_STATUS.REG, QSU.RING_TAIL.REG, QSU.RING_HEAD.REG, QSU.RING_PAIR.REG,
    QSU.RING_BASE_HI.REG]

theorem Dev.ringMake_baseLo : (d.ringMake r ops).rd (QSU.RING_BASE_LO.REG r).off = BitVec.ofNat 32 (opnd ops 16 8) := by
  simp [Dev.ringMake_rd, QSU.RING_CFG.REG, QSU.RING_RESV.REG, QSU.RING_STATUS.REG, QSU.RING_TAIL.REG, QSU.RING_HEAD.REG, QSU.RING_PAIR.REG,
    QSU.RING_BASE_HI.REG, QSU.RING_BASE_LO.REG]

/-- The pointers, the status and the reservation of a new ring are at their reset values. -/
theorem Dev.ringMake_cleared (hr : r < 16384) {f : FRef} (hf : f ∈ [QSU.RING_HEAD.REG r, QSU.RING_TAIL.REG r, QSU.RING_STATUS.REG r, QSU.RING_RESV.REG r]) :
    (d.ringMake r ops).rd f.off = 0 := by
  have hreset : regReset f.off = 0 := by
    simp only [List.mem_cons, List.not_mem_nil, or_false] at hf
    rcases hf with rfl | rfl | rfl | rfl
    all_goals
      simp only [QSU.RING_HEAD.REG, QSU.RING_TAIL.REG, QSU.RING_STATUS.REG, QSU.RING_RESV.REG]
      exact regReset_qsu (by omega) (by omega) (by omega)
  rw [← hreset]
  simp only [List.mem_cons, List.not_mem_nil, or_false] at hf
  rcases hf with rfl | rfl | rfl | rfl
  all_goals simp [Dev.ringMake_rd, QSU.RING_CFG.REG, QSU.RING_RESV.REG, QSU.RING_STATUS.REG, QSU.RING_TAIL.REG, QSU.RING_HEAD.REG]

theorem Dev.ringMake_empty (hr : r < 16384) :
    (d.ringMake r ops).ringUsed r = 0 ∧ (d.ringMake r ops).ringHead r = 0 ∧ (d.ringMake r ops).ringTail r = 0 := by
  have hhead : (d.ringMake r ops).ringHead r = 0 := by
    have hrd : (d.ringMake r ops).rd (QSU.RING_HEAD.REG r).off = 0 := Dev.ringMake_cleared hr (by simp)
    rw [Dev.ringHead, Dev.get_of_rd_zero (f := QSU.RING_HEAD.LAP r) hrd, Dev.get_of_rd_zero (f := QSU.RING_HEAD.INDEX r) hrd, ptrPos_zero]
  have htail : (d.ringMake r ops).ringTail r = 0 := by
    have hrd : (d.ringMake r ops).rd (QSU.RING_TAIL.REG r).off = 0 := Dev.ringMake_cleared hr (by simp)
    rw [Dev.ringTail, Dev.get_of_rd_zero (f := QSU.RING_TAIL.LAP r) hrd, Dev.get_of_rd_zero (f := QSU.RING_TAIL.INDEX r) hrd, ptrPos_zero]
  have hpos : 0 < 2 * (d.ringMake r ops).ringCount r := Nat.mul_pos Nat.two_pos (Nat.two_pow_pos _)
  refine ⟨?_, hhead, htail⟩
  rw [Dev.ringUsed, hhead, htail]
  exact (lapDiff_eq_zero_iff hpos hpos).mpr rfl

theorem Dev.ringMake_resv (hr : r < 16384) : (d.ringMake r ops).get (QSU.RING_RESV.RESERVED r) = 0 := by
  have hrd : (d.ringMake r ops).rd (QSU.RING_RESV.REG r).off = 0 := Dev.ringMake_cleared hr (by simp)
  exact Dev.get_of_rd_zero (f := QSU.RING_RESV.RESERVED r) hrd

theorem Dev.ringMake_error (hr : r < 16384) : (d.ringMake r ops).flag (QSU.RING_STATUS.ERROR r) = false := by
  have hrd : (d.ringMake r ops).rd (QSU.RING_STATUS.REG r).off = 0 := Dev.ringMake_cleared hr (by simp)
  rw [Dev.flag, Dev.get_of_rd_zero (f := QSU.RING_STATUS.ERROR r) hrd]
  rfl

section GoodOperands

variable (hok : d.ringOperandsOk ops = true)
include hok

theorem Dev.ringMake_getCfg {f : FRef} (hf : f.off = (QSU.RING_CFG.REG r).off) : (d.ringMake r ops).get f =
    (1 + 2 * opnd ops 26 1 + 4 * opnd ops 25 1 + 16 * opnd ops 24 1 + 1024 * bits (opnd ops 34 1) 0 0 + 2048 * opnd ops 32 2) %
      2 ^ 32 / 2 ^ f.lo % 2 ^ (f.hi + 1 - f.lo) := by
  rw [Dev.get_of_rd (by rw [hf]; exact Dev.ringMake_cfg), ringCfgWord_eq hok]

/-- A new ring is enabled, of the kind that the operands name. -/
theorem Dev.ringMake_on (hr : r < 16384) : (d.ringMake r ops).ringOn r (opnd ops 25 1) = true := by
  obtain ⟨-, hkind, hloc, -, -, -⟩ := Dev.ringOperandsOk_fits hok
  have henable : (d.ringMake r ops).get (QSU.RING_CFG.ENABLE r) = 1 := by
    rw [Dev.ringMake_getCfg hok (f := QSU.RING_CFG.ENABLE r) rfl]
    simp only [QSU.RING_CFG.ENABLE]
    omega
  have hkindField : (d.ringMake r ops).get (QSU.RING_CFG.KIND r) = opnd ops 25 1 := by
    rw [Dev.ringMake_getCfg hok (f := QSU.RING_CFG.KIND r) rfl]
    simp only [QSU.RING_CFG.KIND]
    omega
  rw [Dev.ringOn, Dev.flag, henable, hkindField, decide_eq_true hr, beq_self_eq_true]
  rfl

theorem Dev.ringMake_loc : (d.ringMake r ops).get (QSU.RING_CFG.LOC r) = opnd ops 26 1 := by
  obtain ⟨-, -, hloc, -, -, -⟩ := Dev.ringOperandsOk_fits hok
  rw [Dev.ringMake_getCfg hok (f := QSU.RING_CFG.LOC r) rfl]
  simp only [QSU.RING_CFG.LOC]
  omega

theorem Dev.ringMake_count : (d.ringMake r ops).ringCount r = 2 ^ opnd ops 24 1 := by
  obtain ⟨hcount, hkind, hloc, -, -, hvec⟩ := Dev.ringOperandsOk_fits hok
  have hirq : bits (opnd ops 34 1) 0 0 < 2 := Nat.mod_lt _ (by decide)
  rw [Dev.ringCount, Dev.ringMake_getCfg hok (f := QSU.RING_CFG.LOG2_COUNT r) rfl]
  simp only [QSU.RING_CFG.LOG2_COUNT]
  congr 1
  omega

/-- The first entry of a new ring stands at its base. -/
theorem Dev.ringMake_entry : (d.ringMake r ops).ringEntry r 0 = opnd ops 16 8 := by
  obtain ⟨-, -, -, halign, -, -⟩ := Dev.ringOperandsOk_fits hok
  have hbase : opnd ops 16 8 < 256 ^ 8 := opnd_lt ops 16 8
  rw [Dev.ringEntry, Dev.get_of_rd (f := QSU.RING_BASE_LO.ADDR r) Dev.ringMake_baseLo,
    Dev.get_of_rd (f := QSU.RING_BASE_HI.ADDR r) Dev.ringMake_baseHi]
  simp only [QSU.RING_BASE_LO.ADDR, QSU.RING_BASE_HI.ADDR]
  omega

theorem Dev.ringMake_cq : (d.ringMake r ops).get (QSU.RING_PAIR.CQ r) = opnd ops 28 2 := by
  obtain ⟨-, -, -, -, hcq, -⟩ := Dev.ringOperandsOk_fits hok
  rw [Dev.get_of_rd (f := QSU.RING_PAIR.CQ r) Dev.ringMake_pair]
  simp only [QSU.RING_PAIR.CQ]
  omega

theorem Dev.ringMake_owner : (d.ringMake r ops).get (QSU.RING_PAIR.OWNER r) = opnd ops 30 2 := by
  obtain ⟨-, -, -, -, hcq, -⟩ := Dev.ringOperandsOk_fits hok
  have howner : opnd ops 30 2 < 256 ^ 2 := opnd_lt ops 30 2
  rw [Dev.get_of_rd (f := QSU.RING_PAIR.OWNER r) Dev.ringMake_pair]
  simp only [QSU.RING_PAIR.OWNER]
  omega

end GoodOperands

end NewRing

/-! ## The statement -/

/-- Settles O24, clause by clause: a command by what its effect answers at the head; a binding, a tally's gift and a new
ring by what they leave in the device. -/
theorem managementCommands : Obligations.ManagementCommands := by
  refine ⟨fun s o ops => ⟨?nop, ?query, ?jobMade, ?jobRefused, ?bound, ?tallies, ?talliesRefused, ?freed, ?ringRefused, ?ringHost, ?ringDevice⟩,
    ⟨?bindRefused, ?classes, mboxAllows_queryDevice⟩, ?tally, ?ring⟩
  case nop => exact fun h => next_onDev_congr (command_now h rfl)
  case query => exact fun h => next_onDev_congr (command_now h rfl)
  case jobMade =>
    exact fun h j hfree hdom hzero => next_onDev_congr (command_now h (Dev.jobCreate_makes (d := s.here) hfree hdom hzero))
  case jobRefused => exact fun h hbad => next_onDev_congr (command_now h (Dev.jobCreate_refused hbad))
  case bound =>
    exact fun h hon hbit hmask =>
      next_onDev_congr (command_now h ((Dev.eventRingBind_eq s.here ops).trans (if_pos ⟨hon, hbit, hmask⟩)))
  case tallies =>
    exact fun h t hpos hmost hjob hfree =>
      next_onDev_congr (command_now h (Dev.tallyAlloc_gives (d := s.here) hpos hmost hjob hfree))
  case talliesRefused => exact fun h hbad => next_onDev_congr (command_now h (Dev.tallyAlloc_refused (d := s.here) hbad))
  case freed =>
    exact fun h ts hts hne hused => next_onDev_congr (command_now h (Dev.tallyFree_frees (d := s.here) hts hne hused))
  case ringRefused => exact fun h hbad => next_onDev_congr (command_now h (Dev.ringCreate_refused (d := s.here) hbad))
  case ringHost =>
    exact fun h r hok hfree hloc => next_onDev_congr (command_now h (Dev.ringCreate_host (d := s.here) hok hfree hloc))
  case ringDevice =>
    exact fun h r d1 segs hok hfree hloc hx =>
      next_onDev_congr (command_now h (Dev.ringCreate_device (d := s.here) hok hfree hloc hx))
  case bindRefused =>
    intro s o ops h hbad
    refine next_onDev_congr (command_now h ((Dev.eventRingBind_eq s.here ops).trans (if_neg ?_)))
    rintro ⟨hon, hbit, hmask⟩
    rcases hbad with hoff | hset | hover
    · exact Bool.false_ne_true (hoff.symm.trans hon)
    · exact Bool.false_ne_true (hbit.symm.trans hset)
    · exact Nat.not_lt.mpr hover hmask
  case classes =>
    exact fun d r mask hon =>
      ⟨_, rfl, d.bindClasses_frame r mask, fun k hk => Dev.bindClasses_evRing hon mask hk⟩
  case tally =>
    intro d t j ht hj
    have hflag {f : FRef} (hf : (d.tallyGive t (some j)).get f = 0) : (d.tallyGive t (some j)).flag f = false := by rw [Dev.flag, hf]; rfl
    refine ⟨_, rfl, rfl, ?value, ?threshold, Dev.tallyGive_allocated, Dev.tallyGive_owner hj, ?vector, hflag ?overflow, hflag ?irqEn,
      Dev.tallyGive_owned ht hj, fun off hval hirq hcfg => Dev.tallyGive_rd hval hirq hcfg⟩
    case value => exact Dev.tallyGive_get ht (.inl rfl) fun h => by simp [QSU.TALLY_VALUE.VALUE, QSU.TALLY_CFG.REG] at h
    case threshold => exact Dev.tallyGive_get ht (.inr (.inl rfl)) fun h => by simp [QSU.TALLY_IRQ.THRESHOLD, QSU.TALLY_CFG.REG] at h
    case vector => exact Dev.tallyGive_get ht (.inr (.inr rfl)) fun _ => by simp [QSU.TALLY_CFG.VECTOR]
    case overflow => exact Dev.tallyGive_get ht (.inr (.inr rfl)) fun _ => by simp [QSU.TALLY_CFG.OVERFLOW]
    case irqEn => exact Dev.tallyGive_get ht (.inr (.inr rfl)) fun _ => by simp [QSU.TALLY_CFG.IRQ_EN]
  case ring =>
    intro d r ops hr hok
    obtain ⟨hused, hhead, htail⟩ := Dev.ringMake_empty (d := d) (ops := ops) hr
    exact ⟨_, rfl, d.ringMake_frame r ops, Dev.ringMake_on hok hr, Dev.ringMake_loc hok, Dev.ringMake_count hok, hused, hhead, htail,
      Dev.ringMake_entry hok, Dev.ringMake_cq hok, Dev.ringMake_owner hok, Dev.ringMake_resv hr, Dev.ringMake_error hr,
      fun off hoff => Dev.ringMake_rd_other hoff⟩

end Sys2Proof.Machine
end


section
/-! PROOFS. What holds of every command and every step (R535, R570, R613, R635): each claim is read off the ways a command can
change the state (`exec_change`). -/

namespace Sys2Proof.Machine

/-! ## Every command answers -/

theorem Change.pending_eq {fuse reset : Bool} {s t : State} (h : Change fuse reset s t) : t.pending = s.pending := by
  cases h with
  | same | onDev | onFuses | onReset => rfl
  | atTime n f => exact s.until_pending n
  | onTime f => exact State.until_pending _ _

/-- Settles O3: every way a command changes the state keeps the queue. -/
theorem everyCommandAnswers : Obligations.EveryCommandAnswers := by
  intro c s
  obtain ⟨t, ht, hchange⟩ := exec_change c s
  exact ⟨t, ht, hchange.pending_eq⟩

/-- Settles O1: by the definition of a step. -/
theorem stepRunsFront : Obligations.StepRunsFront := fun _ _ _ => rfl

/-! ## A property of the next state -/

/-- A next state comes of a tick on an empty queue, or of the front command on the state with the queue's rest. -/
theorem step_change {s t : State} (h : step s = .next t) :
    (s.pending = [] ∧ t = s.tick) ∨
      ∃ c rest, s.pending = c :: rest ∧ Change (mayBlowFuse c) (mayReset c) { s with pending := rest } t := by
  unfold step at h
  split at h
  next hq => exact .inl ⟨hq, (Host.Outcome.next.inj h).symm⟩
  next c rest hq =>
    obtain ⟨u, hu, hchange⟩ := exec_change c { s with pending := rest }
    obtain rfl : u = t := Host.Outcome.next.inj (hu.symm.trans h)
    exact .inr ⟨c, rest, hq, hchange⟩

/-! ## The fatal routine leaves no cause (R613) -/

/-- Raising vectors and interrupts does not touch the conservator. -/
@[simp] theorem Dev.msix_csv (d : Dev) (v : Nat) : (d.msix v).csv = d.csv := by unfold Dev.msix; split <;> rfl
@[simp] theorem Dev.msix1_csv (d : Dev) (v : Nat) : (d.msix1 v).csv = d.csv := by unfold Dev.msix1; dsimp only; split <;> rfl
@[simp] theorem Dev.ibi_csv (d : Dev) (b : Nat) : (d.ibi b).csv = d.csv := by unfold Dev.ibi Dev.when; split <;> rfl

theorem Dev.resultOf_csv (d : Dev) (r : Result) : (d.resultOf r).2.csv = d.csv := by
  unfold Dev.resultOf; split <;> rfl

theorem Dev.each_set_csv {α : Type} (f : α → FRef) (v : α → Nat) (xs : List α) (d : Dev) :
    (d.each xs fun d i => d.set (f i) (v i)).csv = d.csv :=
  Dev.each_keep (·.csv) (fun d i => d.set (f i) (v i)) (fun _ _ => rfl) xs d

theorem Dev.when_msix_csv (d : Dev) (c : Bool) (v : Nat) : (d.when c (·.msix v)).csv = d.csv := by
  cases c with
  | true => exact d.msix_csv v
  | false => rfl

theorem Dev.mboxResult_csv (d : Dev) (r : Result) : (d.mboxResult r).csv = d.csv := by
  simp only [Dev.mboxResult, Dev.when_msix_csv, Dev.each_set_csv, Dev.set_csv, Dev.resultOf_csv]

theorem Dev.fatalMailbox_csv (d : Dev) : d.fatalMailbox.csv = d.csv := by
  unfold Dev.fatalMailbox; dsimp only; split
  · exact Dev.mboxResult_csv _ _
  · rfl

/-- The routine takes the cause it serves away. -/
theorem Dev.fatalRoutine_fatal (d : Dev) (cause : Nat) : (d.fatalRoutine cause).csv.fatal = 0 := by
  unfold Dev.fatalRoutine Dev.when
  dsimp only
  split <;> simp [Dev.fatalMailbox_csv]

/-- Reports are made until none is left. -/
theorem Dev.settle_notes (fuel : Nat) : ∀ d : Dev, (d.settle fuel).hbm.notes = [] := by
  induction fuel with
  | zero => exact fun d => rfl
  | succ fuel ih =>
    intro d
    unfold Dev.settle
    split
    next h => exact h
    next => exact ih _

/-- Whatever an effect leaves to be served is served. -/
theorem Dev.serveFatal_serves (d : Dev) : d.serveFatal.csv.fatal = 0 ∧ d.serveFatal.hbm.notes = [] := by
  unfold Dev.serveFatal
  dsimp only
  generalize hx : (if d.hbm.notes = [] then d else _) = x
  have hnotes : x.hbm.notes = [] := by
    subst hx; split
    next h => exact h
    next => exact Dev.settle_notes _ _
  split
  next h => exact ⟨h, hnotes⟩
  next =>
    have hserved := Dev.fatalRoutine_fatal x x.csv.fatal
    generalize x.fatalRoutine x.csv.fatal = y at hserved ⊢
    exact ⟨hserved, rfl⟩

theorem calm_onDev (s : State) (f : Dev → Dev) : Calm (s.onDev f) := Dev.serveFatal_serves _

theorem Calm.until {s : State} (h : Calm s) (t : Nat) : Calm (s.until t) := by
  unfold State.until; split <;> exact h

/-- However a command changes a calm state, the next is calm. -/
theorem Change.calm {fuse reset : Bool} {s t : State} (h : Change fuse reset s t) (hs : Calm s) : Calm t := by
  cases h with
  | same => exact hs
  | onDev f => exact calm_onDev s f
  | atTime n f => exact calm_onDev _ f
  | onTime f => exact (calm_onDev s f).until _
  | onFuses hf f => exact calm_onDev s f
  | onReset hr f hf => exact hf

/-- Settles O4: an effect ends with what it left to be served, a reset leaves nothing, and a tick touches no unit. -/
theorem noFatalCauseWaits : Obligations.NoFatalCauseWaits := by
  intro s t hs hstep
  obtain ⟨_, rfl⟩ | ⟨c, rest, _, hchange⟩ := step_change hstep
  · exact hs
  · exact hchange.calm hs

/-! ## Fuses (R535, R635) -/

theorem FusesOnlyBlown.refl (f : Fuses) : FusesOnlyBlown f f := ⟨Nat.le_refl _, fun _ h => h⟩

/-- The fuses follow the registers that report them, upwards only. -/
theorem onFuses_fuses (s : State) (f : Dev → Dev) (h : FusesOk s.fuses) :
    FusesOk (s.onFuses f).fuses ∧ FusesOnlyBlown s.fuses (s.onFuses f).fuses := by
  obtain ⟨hsvn, hrevoked⟩ := h
  refine ⟨⟨?_, ?_⟩, ?_, fun k hk => ?_⟩
  · exact Nat.max_le.mpr ⟨hsvn, Nat.min_le_left _ _⟩
  · exact Nat.or_lt_two_pow (n := 4) hrevoked (Nat.mod_lt _ (by decide))
  · exact Nat.le_max_left _ _
  · simp only [State.onFuses, Nat.testBit_or, hk, Bool.true_or]

theorem Change.fuses {fuse reset : Bool} {s t : State} (h : Change fuse reset s t) (hs : FusesOk s.fuses) :
    FusesOk t.fuses ∧ FusesOnlyBlown s.fuses t.fuses := by
  cases h with
  | same | onDev | onReset => exact ⟨hs, .refl _⟩
  | atTime n f => rw [State.onDev_fuses, State.until_fuses]; exact ⟨hs, .refl _⟩
  | onTime f => rw [State.onTime, State.until_fuses]; exact ⟨hs, .refl _⟩
  | onFuses hf f => exact onFuses_fuses s f hs

theorem Change.fuses_eq {reset : Bool} {s t : State} (h : Change false reset s t) : t.fuses = s.fuses := by
  cases h with
  | same | onDev | onReset => rfl
  | atTime n f => exact s.until_fuses n
  | onTime f => exact State.until_fuses _ _
  | onFuses hf f => cases hf

/-- Settles O5: only an effect that may blow fuses changes them, and it raises the SVN and adds bits. -/
theorem fusesStayBlown : Obligations.FusesStayBlown := by
  refine ⟨fun s t hs hstep => ?_, fun c s t hc hexec => ?_⟩
  · obtain ⟨_, rfl⟩ | ⟨c, rest, _, hchange⟩ := step_change hstep
    · exact ⟨hs, .refl _⟩
    · exact hchange.fuses hs
  · obtain ⟨u, hu, hchange⟩ := exec_change c s
    obtain rfl : u = t := Host.Outcome.next.inj (hu.symm.trans hexec)
    rw [hc] at hchange
    exact hchange.fuses_eq

/-! ## The time base (R570) -/

/-- Moving the time base on to an event's time never takes it back. -/
theorem until_time (s : State) (t : Nat) (h : s.clock.frac < 2 ^ 32) :
    timeOf s.clock ≤ timeOf (s.until t).clock ∧ (s.until t).clock.frac < 2 ^ 32 := by
  unfold State.until timeOf
  split
  next hlt => refine ⟨?_, Nat.two_pow_pos 32⟩; dsimp only; omega
  next => exact ⟨Nat.le_refl _, h⟩

/-- A tick adds 1 ns and the clamped adjustment, which is far below it. -/
theorem tick_time (s : State) : ∃ adj : Int,
    (s.tick.clock.ns : Int) * 2 ^ 32 + s.tick.clock.frac = s.clock.ns * 2 ^ 32 + s.clock.frac + 2 ^ 32 + adj ∧
      s.tick.clock.frac < 2 ^ 32 ∧ adj = max (-2147484) (min 2147484 (sext 32 (s.dev.get TMU.FREQ_ADJ.ADJ))) := by
  refine ⟨_, ?_, ?_, rfl⟩
  · simp only [State.tick]; omega
  · exact Nat.mod_lt _ (Nat.two_pow_pos 32)

theorem Change.time {fuse : Bool} {s t : State} (h : Change fuse false s t) (hs : s.clock.frac < 2 ^ 32) :
    timeOf s.clock ≤ timeOf t.clock ∧ t.clock.frac < 2 ^ 32 := by
  cases h with
  | same | onDev | onFuses => exact ⟨Nat.le_refl _, hs⟩
  | atTime n f => exact until_time s n hs
  | onTime f => exact until_time (s.onDev f) (s.onDev f).dev.now hs
  | onReset hr f hf => cases hr

/-- Settles O6: without a reset the time base stands, ticks, or moves on to an event's time. -/
theorem timeGoesForward : Obligations.TimeGoesForward := by
  intro s t hq hs hstep
  obtain ⟨_, rfl⟩ | ⟨c, rest, hp, hchange⟩ := step_change hstep
  · obtain ⟨adj, htime, hfrac, hadj⟩ := tick_time s
    refine ⟨?_, hfrac⟩
    simp only [timeOf]
    omega
  · rw [hq c (by simp [hp])] at hchange
    exact hchange.time hs

/-- Settles O2: the tick of an empty queue. -/
theorem idleTicks : Obligations.IdleTicks := by
  intro s hq
  refine ⟨s.tick, ?_, rfl, tick_time s⟩
  simp only [step, hq]

/-- Settles O7: the reset values, field by field. -/
theorem resetState : Obligations.ResetState := by
  refine ⟨rfl, rfl, ⟨rfl, rfl⟩, ⟨Nat.zero_le _, by decide⟩, ?_, rfl, ?_⟩
  · decide
  · decide

end Sys2Proof.Machine
end


section
/-! PROOFS. The platform (R568, R625, R630 to R632, R636, R637, R641, R643 to R646): resets, pins, the boot ROM, the I3C target
and JTAG. -/

namespace Sys2Proof.Machine

/-! ## What a reset keeps (R630) -/

theorem smapGet_filter_key {α : Type} (dflt : Nat → α) (p : Nat → Bool) (m : SMap α) {k : Nat} (hk : p k = true) :
    smapGet dflt (m.filter fun e => p e.1) k = smapGet dflt m k := by
  induction m with
  | nil => rfl
  | cons e m ih =>
    obtain ⟨j, v⟩ := e
    by_cases hj : p j = true
    · simp only [List.filter, hj, smapGet, ih]
    · have hne : j ≠ k := fun h => hj (h ▸ hk)
      simp only [List.filter, hj, smapGet, hne, if_false, ih]

theorem smapGet_filter_key_false {α : Type} (dflt : Nat → α) (p : Nat → Bool) (m : SMap α) {k : Nat} (hk : p k = false) :
    smapGet dflt (m.filter fun e => p e.1) k = dflt k := by
  induction m with
  | nil => rfl
  | cons e m ih =>
    obtain ⟨j, v⟩ := e
    by_cases hj : p j = true
    · have hne : j ≠ k := fun h => Bool.false_ne_true (hk.symm.trans (h ▸ hj))
      simp only [List.filter, hj, smapGet, hne, if_false, ih]
    · simp only [List.filter, hj, ih]

/-- The suspicion registers lie above every register a reset keeps or sets. -/
theorem Dev.reloadSums_rd (d : Dev) {a : Nat} (ha : a < 0xC40000) : d.reloadSums.rd a = d.rd a := by
  have hoff : ∀ i j, a ≠ 0xC40000 + 0x4000 * i + 0x4 * j := fun i j => by omega
  have hlevel : ∀ (e : Dev) u v, (e.set (suspLevel u) v).rd a = e.rd a := fun e u v => Dev.rd_set_ne e _ v a (hoff _ _)
  have htotal : ∀ (e : Dev) i j v, (e.set (CSV.SUSPICION.TOTAL i j) v).rd a = e.rd a :=
    fun e i j v => Dev.rd_set_ne e _ v a (hoff _ _)
  exact Dev.each_keep (·.rd a) _ (fun e x => by rw [htotal, hlevel]) _ _

theorem Dev.reloadSums_get (d : Dev) {f : FRef} (h : f.off < 0xC40000) : d.reloadSums.get f = d.get f :=
  Dev.get_congr f (Dev.reloadSums_rd d h)

/-- Reading the summaries of flash touches the registers of suspicion and the conservator's own state only. -/
theorem Dev.reloadSums_parts (d : Dev) : ∃ rs cs, d.reloadSums = { d with regs := rs, csv := cs } ∧ cs.fatals = d.csv.fatals := by
  refine ⟨d.reloadSums.regs, d.reloadSums.csv, ?_,
    Dev.reloadSums_keep (fun d => d.csv.fatals) (fun _ _ _ => rfl) (fun _ _ _ _ => rfl) d⟩
  have hkeep := Dev.reloadSums_keep (fun e => { e with regs := d.reloadSums.regs, csv := d.reloadSums.csv })
    (fun _ _ _ => rfl) (fun _ _ _ _ => rfl) d
  exact hkeep

theorem Dev.common_get (d : Dev) {keep : List Nat} {f : FRef} (h : keep.contains f.off = true) : (d.common keep).get f = d.get f :=
  Dev.get_congr f (smapGet_filter_key regReset keep.contains d.regs h)

theorem Dev.common_get_reset (d : Dev) {keep : List Nat} {f : FRef} (h : keep.contains f.off = false) :
    (d.common keep).get f = fieldOf (regReset f.off) f.hi f.lo := by
  rw [Dev.get, Dev.rd, Dev.common, Dev.keepRegs, smapGet_filter_key_false regReset keep.contains d.regs h]

/-- The device of a warm reset before the conservator has read its summaries. -/
def Dev.warmed (d : Dev) (cause : Nat) : Dev :=
  let r := d.common (lastingRegs ++ warmRegs)
  ({ r with
    hbm := { HbmUnit.reset with mem := d.hbm.mem, cw := d.hbm.cw },
    hif.thermtrip := d.hif.thermtrip, hif.i3c := d.hif.i3c, hif.jtag := d.hif.jtag,
    csv.history := d.csv.history, csv.fring := d.csv.fring, sec.debugged := d.sec.debugged }.set SEC.STATE.IDENTITY_LOCKED
      (d.get SEC.STATE.IDENTITY_LOCKED)).set HIF.RESET_CAUSE.CAUSE cause

theorem Dev.warmReset_eq (d : Dev) (cause : Nat) : d.warmReset cause = (d.warmed cause).reloadSums := rfl

/-- A register that a warm reset does not set reads as the kept registers do. -/
theorem Dev.warmReset_get (d : Dev) (cause : Nat) {f : FRef} (h : f.off < 0xC40000) (hs : f.off ≠ SEC.STATE.IDENTITY_LOCKED.off)
    (hc : f.off ≠ HIF.RESET_CAUSE.CAUSE.off) : (d.warmReset cause).get f = (d.common (lastingRegs ++ warmRegs)).get f := by
  rw [Dev.warmReset_eq, Dev.reloadSums_get _ h]
  refine Dev.get_congr f ?_
  rw [Dev.warmed, Dev.rd_set_ne _ _ _ _ hc, Dev.rd_set_ne _ _ _ _ hs]
  rfl

theorem Dev.warmReset_cause (d : Dev) {cause : Nat} (h : cause < 8) : (d.warmReset cause).get HIF.RESET_CAUSE.CAUSE = cause := by
  rw [Dev.warmReset_eq, Dev.reloadSums_get _ (by decide), Dev.warmed, Dev.get_set_same _ _ _ (by decide) (by decide)]
  exact Nat.mod_eq_of_lt h

theorem Dev.coldReset_get (d : Dev) {f : FRef} (h : f.off < 0xC40000) : d.coldReset.get f = (d.common lastingRegs).get f :=
  Dev.reloadSums_get _ h

theorem warmReset_after (s : State) (cause : Nat) : AfterReset s (s.onReset (·.warmReset cause)) := by
  obtain ⟨rs, cs, heq, hfatals⟩ := (s.dev.warmed cause).reloadSums_parts
  have hget := fun f => Dev.warmReset_get s.dev cause (f := f)
  have heq' : s.dev.warmReset cause = _ := heq
  refine ⟨rfl, rfl, rfl, ?_, ?_, ?_, ?_, ?_, ?_, ?_, ?_, ?_, ?_, ?_, ?_, ?_⟩
  case refine_2 =>
    exact (hget _ (by decide) (by decide) (by decide)).trans ((Dev.common_get_reset _ (by decide)).trans (by decide))
  case refine_7 | refine_8 =>
    exact (hget _ (by decide) (by decide) (by decide)).trans (Dev.common_get _ (by decide))
  case refine_6 => simp only [State.onReset, heq']; exact hfatals
  all_goals simp only [State.onReset, heq']; rfl

theorem coldReset_after (s : State) : AfterReset s (s.onReset (·.coldReset)) := by
  obtain ⟨rs, cs, heq, hfatals⟩ := { s.dev.common lastingRegs with hif.pwrgd := true }.reloadSums_parts
  have heq' : s.dev.coldReset = _ := heq
  refine ⟨rfl, rfl, rfl, ?_, ?_, ?_, ?_, ?_, ?_, ?_, ?_, ?_, ?_, ?_, ?_, ?_⟩
  case refine_2 => exact (Dev.coldReset_get _ (by decide)).trans ((Dev.common_get_reset _ (by decide)).trans (by decide))
  case refine_7 | refine_8 => exact (Dev.coldReset_get _ (by decide)).trans (Dev.common_get _ (by decide))
  case refine_6 => simp only [State.onReset, heq']; exact hfatals
  all_goals simp only [State.onReset, heq']; rfl

/-- What a warm reset keeps of memory and of the last fatal cause. -/
def WarmKeeps (s t : State) (cause : Nat) : Prop :=
  t.dev.get HIF.RESET_CAUSE.CAUSE = cause ∧ t.dev.hbm.mem = s.dev.hbm.mem ∧ t.dev.hbm.cw = s.dev.hbm.cw ∧ t.dev.hbm.frames = [] ∧
    t.dev.get CMD.FATAL_CAUSE.STATUS = s.dev.get CMD.FATAL_CAUSE.STATUS

theorem warmReset_keeps (s : State) {cause : Nat} (h : cause < 8) : WarmKeeps s (s.onReset (·.warmReset cause)) cause := by
  obtain ⟨rs, cs, heq, hfatals⟩ := (s.dev.warmed cause).reloadSums_parts
  have heq' : s.dev.warmReset cause = _ := heq
  refine ⟨Dev.warmReset_cause _ h, ?_, ?_, ?_,
    (Dev.warmReset_get _ _ (by decide) (by decide) (by decide)).trans (Dev.common_get _ (by decide))⟩
  all_goals simp only [State.onReset, heq']; rfl

/-- A command with a warm-reset cause applies the reset; PERST# is asserted with it. -/
theorem exec_warmCause {c : Instr} {s : State} {cause : Nat} (h : warmCause c s = some cause) : cause < 8 ∧
    (c = .perstAssert ∧ exec c s = .next (s.onReset fun d => { d.warmReset cause with hif.perst := true }) ∨
      c ≠ .perstAssert ∧ exec c s = .next (s.onReset (·.warmReset cause))) := by
  unfold warmCause at h
  split at h
  case h_1 =>
    obtain ⟨hp, rfl⟩ := Option.ite_none_right_eq_some.mp h |>.imp id Option.some.inj
    refine ⟨by decide, .inl ⟨rfl, ?_⟩⟩
    rw [exec_perstAssert, execPerstAssert, if_pos hp]
  case h_2 =>
    obtain rfl := Option.some.inj h
    exact ⟨by decide, .inr ⟨Instr.noConfusion, rfl⟩⟩
  case h_3 off v =>
    obtain ⟨⟨rfl, hv⟩, rfl⟩ := Option.ite_none_right_eq_some.mp h |>.imp id Option.some.inj
    refine ⟨by decide, .inr ⟨Instr.noConfusion, ?_⟩⟩
    rw [exec_registerWrite, execRegisterWrite, State.agentWrite, if_neg (by decide), if_pos rfl]
    exact congrArg _ (if_pos hv)
  case h_4 bs =>
    obtain ⟨⟨hp, rfl⟩, rfl⟩ := Option.ite_none_right_eq_some.mp h |>.imp id Option.some.inj
    refine ⟨by decide, .inr ⟨Instr.noConfusion, ?_⟩⟩
    rw [exec_warmReset, execWarmReset, hp, if_pos (by decide)]
  case h_5 late =>
    obtain ⟨hc, rfl⟩ := Option.ite_none_right_eq_some.mp h |>.imp id Option.some.inj
    refine ⟨by decide, .inr ⟨Instr.noConfusion, ?_⟩⟩
    rw [exec_flrFunction0, execFlrFunction0]
    simp only [Bool.or_eq_true, beq_iff_eq]
    rw [if_pos (by grind)]
  case h_6 => cases h

/-- Settles O8: both resets are the common one with what each keeps. -/
theorem resets : Obligations.Resets := by
  refine ⟨fun c s cause h => ?_, fun s => ?_⟩
  · obtain ⟨hlt, ⟨rfl, hexec⟩ | ⟨hne, hexec⟩⟩ := exec_warmCause h
    · obtain ⟨hcause, hmem, hcw, hframes, hlast⟩ := warmReset_keeps s hlt
      exact ⟨_, hexec, warmReset_after s cause, hcause, hmem, hcw, hframes, hlast, fun _ => rfl⟩
    · obtain ⟨hcause, hmem, hcw, hframes, hlast⟩ := warmReset_keeps s hlt
      exact ⟨_, hexec, warmReset_after s cause, hcause, hmem, hcw, hframes, hlast, fun h => absurd h hne⟩
  · refine ⟨_, exec_coldReset s, coldReset_after s, ?_, ?_, ?_, ?_⟩
    · exact (Dev.coldReset_get _ (by decide)).trans ((Dev.common_get_reset _ (by decide)).trans (by decide))
    · obtain ⟨rs, cs, heq, _⟩ := { s.dev.common lastingRegs with hif.pwrgd := true }.reloadSums_parts
      exact congrArg Dev.hbm heq
    · obtain ⟨rs, cs, heq, _⟩ := { s.dev.common lastingRegs with hif.pwrgd := true }.reloadSums_parts
      exact congrArg (·.hif.pwrgd) heq
    · exact (Dev.coldReset_get _ (by decide)).trans ((Dev.common_get_reset _ (by decide)).trans (by decide))

/-! ## Pins that set registers or one field (R568, R625, R630, R636, R637) -/

/-- An effect that leaves the causes and the reports alone is the whole change in a calm state. -/
theorem onDev_quiet {s : State} {f : Dev → Dev} {e : Dev} (hc : Calm s) (heff : f s.here = e)
    (hfatal : e.csv.fatal = s.dev.csv.fatal) (hnotes : e.hbm.notes = s.dev.hbm.notes) : s.onDev f = { s with dev := e } := by
  subst heff
  exact onDev_calm s f (hfatal.trans hc.1) (hnotes.trans hc.2)

theorem onlyParts_hif (s : State) (h : HifUnit) : OnlyParts [.hif] s { s with dev := { s.here with hif := h } } := by
  refine ⟨rfl, rfl, rfl, rfl, fun p _ hp => ?_⟩
  cases p
  case hif => simp at hp
  all_goals rfl

/-- One bit of a register after one bit of a field of it is set. -/
theorem set_putBits_getLsbD (d : Dev) (f : FRef) {k : Nat} (hk : k ≤ f.hi - f.lo) (hf : f.lo ≤ f.hi) (hhi : f.hi < 32) (v : Nat) (i : Nat) :
    ((d.set f (putBits (d.get f) k k v)).rd f.off).getLsbD i = if i = f.lo + k then v.testBit 0 else (d.rd f.off).getLsbD i := by
  rw [Dev.rd_set, if_pos rfl, withField_getLsbD _ _ _ _ _ (by omega), putBits_testBit _ _ _ _ _ (by omega), Dev.get, fieldOf_testBit]
  by_cases hi : i = f.lo + k
  · subst hi
    have h1 : f.lo + k < 32 := by omega
    have h2 : f.lo ≤ f.lo + k ∧ f.lo + k ≤ f.hi := by omega
    simp [h1, h2]
  · rw [if_neg hi]
    by_cases h32 : i < 32
    · by_cases hin : f.lo ≤ i ∧ i ≤ f.hi
      · have h3 : ¬ (k ≤ i - f.lo ∧ i - f.lo ≤ k) := by omega
        have h4 : f.lo + (i - f.lo) = i := by omega
        have h5 : i - f.lo < f.hi + 1 - f.lo := by omega
        rw [if_pos hin, if_neg h3, h4]
        simp [h32, h5]
      · simp [h32, hin]
    · rw [BitVec.getLsbD_of_ge (d.rd f.off) i (by omega)]
      simp [h32]

theorem exec_rail (s : State) {rail : Nat} (hc : Calm s) (hr : rail < 11) (ok : Bool) :
    exec (if ok then .railInTolerance rail else .railOutOfTolerance rail) s =
      .next { s with dev := s.here.set HIF.RAIL_STATUS.IN_RANGE (putBits (s.here.get HIF.RAIL_STATUS.IN_RANGE) rail rail (b2n ok)) } := by
  have heff : s.here.railIs rail ok = s.here.set HIF.RAIL_STATUS.IN_RANGE (putBits (s.here.get HIF.RAIL_STATUS.IN_RANGE) rail rail (b2n ok)) :=
    if_pos hr
  cases ok with
  | true => exact congrArg Host.Outcome.next (onDev_quiet hc heff rfl rfl)
  | false => exact congrArg Host.Outcome.next (onDev_quiet hc heff rfl rfl)

/-- The bit of a rail alone follows it. -/
theorem rail_bit (s : State) {rail : Nat} (hr : rail < 11) (ok : Bool) (off i : Nat) :
    ((s.here.set HIF.RAIL_STATUS.IN_RANGE (putBits (s.here.get HIF.RAIL_STATUS.IN_RANGE) rail rail (b2n ok))).rd off).getLsbD i =
      if off = HIF.RAIL_STATUS.REG.off ∧ i = rail then ok else (s.dev.rd off).getLsbD i := by
  by_cases ho : off = HIF.RAIL_STATUS.REG.off
  · subst ho
    have hbit := set_putBits_getLsbD s.here HIF.RAIL_STATUS.IN_RANGE (k := rail) (Nat.le_of_lt_succ hr) (by decide) (by decide) (b2n ok) i
    have hlo : HIF.RAIL_STATUS.IN_RANGE.lo + rail = rail := Nat.zero_add rail
    rw [hlo] at hbit
    refine hbit.trans ?_
    by_cases hi : i = rail
    · rw [if_pos hi, if_pos ⟨rfl, hi⟩]
      cases ok <;> rfl
    · rw [if_neg hi, if_neg (fun h => hi h.2)]
      rfl
  · rw [Dev.rd_set_ne _ HIF.RAIL_STATUS.IN_RANGE _ _ ho, if_neg (fun h => ho h.1)]
    rfl

/-! ## The fatal pins (R568, R613, R641) -/

/-- A register that is none of the mailbox's results and no pending bit. -/
def OffMbox (a : Nat) : Prop :=
  a ≠ CMD.MBOX_RESULT.STATUS.off ∧ a ≠ CMD.MBOX_DATA0.VALUE.off ∧ a ≠ CMD.MBOX_DATA1.VALUE.off ∧ (∀ i < 8, a ≠ (CMD.MBOX_DATA.VALUE i).off) ∧ ¬ isPba a

theorem Dev.each_keep_mem {α β : Type} (p : Dev → β) (g : Dev → α → Dev) (xs : List α) (hg : ∀ d, ∀ x ∈ xs, p (g d x) = p d) :
    ∀ d : Dev, p (d.each xs g) = p d := by
  induction xs with
  | nil => exact fun d => rfl
  | cons x xs ih =>
    exact fun d => (ih (fun e y hy => hg e y (List.mem_cons_of_mem _ hy)) (g d x)).trans (hg d x List.mem_cons_self)

theorem Dev.resultOf_rd (d : Dev) (r : Result) (a : Nat) : (d.resultOf r).2.rd a = d.rd a := by
  unfold Dev.resultOf; split <;> rfl

theorem Dev.mboxResult_rd (d : Dev) (r : Result) {a : Nat} (ha : OffMbox a) : (d.mboxResult r).rd a = d.rd a := by
  obtain ⟨hres, h0, h1, hdata, hpba⟩ := ha
  have hmsix : ∀ (e : Dev) c, (e.when c (·.msix 0)).rd a = e.rd a := fun e c => by
    cases c with
    | true => exact Dev.msix_rd (by decide) hpba
    | false => rfl
  have heach : ∀ (e : Dev) (v : Nat → Nat), (e.each (List.range 8) fun d i => d.set (CMD.MBOX_DATA.VALUE i) (v i)).rd a = e.rd a :=
    fun e v => Dev.each_keep_mem (·.rd a) (fun d i => d.set (CMD.MBOX_DATA.VALUE i) (v i)) (List.range 8)
      (fun d i hi => Dev.rd_set_ne _ _ _ _ (hdata i (List.mem_range.mp hi))) e
  have hset : ∀ (e : Dev) f v, a ≠ f.off → (e.set f v).rd a = e.rd a := fun e f v h => Dev.rd_set_ne e f v a h
  have hcmd : ∀ (e : Dev) c, Dev.rd { e with cmd := c } a = e.rd a := fun _ _ => rfl
  simp only [Dev.mboxResult, hmsix, hcmd, heach, hset _ _ _ hres, hset _ _ _ h0, hset _ _ _ h1, Dev.resultOf_rd]

theorem Dev.fatalMailbox_rd (d : Dev) {a : Nat} (ha : OffMbox a) : d.fatalMailbox.rd a = d.rd a := by
  unfold Dev.fatalMailbox; dsimp only; split
  · exact Dev.mboxResult_rd _ _ ha
  · rfl

theorem Dev.msix1_rd (d : Dev) (v a : Nat) : (d.msix1 v).rd a = d.rd a := by unfold Dev.msix1; dsimp only; split <;> rfl
theorem Dev.ibi_rd (d : Dev) (b a : Nat) : (d.ibi b).rd a = d.rd a := by unfold Dev.ibi Dev.when; split <;> rfl

/-- The routine ends in FATAL with its cause reported. -/
theorem Dev.fatalRoutine_reports (d : Dev) {cause : Nat} (h : cause < 65536) :
    (d.fatalRoutine cause).curator = curFATAL ∧ (d.fatalRoutine cause).get CMD.FATAL_CAUSE.STATUS = cause := by
  have hlast : ∀ (e : Dev) (c : Bool) {f : FRef}, OffMbox f.off →
      (e.fatalMailbox.msix 0 |>.when c fun d => (d.msix1 0).ibi 0x01).get f = e.get f := fun e c f hf => by
    refine Dev.get_congr f ?_
    have hm : (e.fatalMailbox.msix 0).rd f.off = e.rd f.off :=
      (Dev.msix_rd (by decide) hf.2.2.2.2).trans (Dev.fatalMailbox_rd e hf)
    cases c with
    | true => exact (Dev.ibi_rd _ _ _).trans ((Dev.msix1_rd _ _ _).trans hm)
    | false => exact hm
  unfold Dev.fatalRoutine
  dsimp only
  refine ⟨(hlast _ _ ?_).trans ?_, (hlast _ _ ?_).trans ?_⟩
  · exact ⟨by decide, by decide, by decide, by decide, by unfold isPba; decide⟩
  · exact Dev.get_set_same _ CMD.CURATOR_STATE.STATE curFATAL (by decide) (by decide)
  · exact ⟨by decide, by decide, by decide, by decide, by unfold isPba; decide⟩
  · rw [Dev.get_set_ne _ _ _ _ (by decide) (by decide), Dev.get_set_same _ CMD.FATAL_CAUSE.STATUS cause (by decide) (by decide)]
    exact Nat.mod_eq_of_lt h

/-- Nothing is left to report once the routine has run. -/
def Dev.unnoted (d : Dev) : Dev := { d with hbm.notes := [] }

theorem Dev.unnoted_get (d : Dev) (f : FRef) : d.unnoted.get f = d.get f := rfl

theorem Dev.serveFatal_raised {d : Dev} (hf : d.csv.fatal ≠ 0) (hn : d.hbm.notes = []) :
    d.serveFatal = (d.fatalRoutine d.csv.fatal).unnoted := by
  rw [Dev.serveFatal, if_pos hn]
  exact if_neg hf

/-- An effect of a calm state that raises a cause runs the routine for it. -/
theorem onDev_fatal {s : State} {f : Dev → Dev} {e : Dev} {cause : Nat} (hc : Calm s) (heff : f s.here = e.raiseFatal cause)
    (hcause : 0 < cause ∧ cause < 65536) (hfatal : e.csv.fatal = s.dev.csv.fatal) (hnotes : e.hbm.notes = s.dev.hbm.notes) :
    (s.onDev f).dev.curator = curFATAL ∧ (s.onDev f).dev.get CMD.FATAL_CAUSE.STATUS = cause ∧ Calm (s.onDev f) := by
  have hraise : e.raiseFatal cause = { e with csv.fatal := cause } := if_pos (hfatal.trans hc.1)
  have hserve : (s.onDev f).dev = (Dev.fatalRoutine { e with csv.fatal := cause } cause).unnoted := by
    have hdev : (s.onDev f).dev = (f s.here).serveFatal := by simp only [State.onDev, State.here]
    rw [hdev, heff, hraise]
    exact Dev.serveFatal_raised (Nat.ne_of_gt hcause.1) (hnotes.trans hc.2)
  obtain ⟨hcur, hstatus⟩ := Dev.fatalRoutine_reports { e with csv.fatal := cause } hcause.2
  refine ⟨?_, ?_, calm_onDev s f⟩
  · rw [hserve, Dev.curator, Dev.unnoted_get]; exact hcur
  · rw [hserve, Dev.unnoted_get]; exact hstatus

/-- Settles O10: the plain pins by their one effect, the fatal ones by the routine. -/
theorem pins : Obligations.Pins := by
  refine ⟨⟨fun s hc => ?_, fun s width speed hc hw h1 h6 => ?_, fun s rail hc hr ok => ?_, fun s hc => ?_, fun s hc => ?_, fun s hc => ?_⟩,
    fun s hc => ?_, fun s hc hpll => ?_, fun s hc => ?_⟩
  · exact congrArg Host.Outcome.next (onDev_quiet hc rfl rfl rfl)
  · exact congrArg Host.Outcome.next (onDev_quiet hc (if_pos ⟨by simpa using hw, h1, h6⟩) rfl rfl)
  · refine ⟨_, exec_rail s hc hr ok, onlyParts_set s _ _, fun off i hout => ?_, ?_⟩
    · refine (rail_bit s hr ok off i).trans (if_neg fun h => ?_)
      exact hout ⟨HIF.RAIL_STATUS.REG.off, rail, rail⟩ List.mem_cons_self h.1.symm ⟨Nat.le_of_eq h.2.symm, Nat.le_of_eq h.2⟩
    · exact (rail_bit s hr ok _ _).trans (if_pos ⟨rfl, rfl⟩)
  · exact congrArg Host.Outcome.next (onDev_quiet hc rfl rfl rfl)
  · exact congrArg Host.Outcome.next (onDev_quiet hc rfl rfl rfl)
  · exact congrArg Host.Outcome.next (onDev_quiet hc rfl rfl rfl)
  · by_cases hp : pinInstr s.dev.hif.jtag.ir = true
    · have hir : s.dev.hif.jtag.ir ∈ [0x00, 0x03, 0x04] := by simpa [pinInstr, or_assoc] using hp
      refine ⟨_, congrArg Host.Outcome.next (onDev_quiet hc (if_pos hp) rfl rfl), onlyParts_hif s _, rfl, rfl, ?_⟩
      rw [if_pos hir]
      exact ⟨rfl, rfl⟩
    · have hir : s.dev.hif.jtag.ir ∉ [0x00, 0x03, 0x04] := by simpa [pinInstr, or_assoc] using hp
      refine ⟨_, congrArg Host.Outcome.next (onDev_quiet hc (if_neg hp) rfl rfl), onlyParts_hif s _, rfl, rfl, ?_⟩
      rw [if_neg hir]
      rfl
  · have hlock : s.here.flag TMU.STATE.PLL_LOCKED = true := by
      have hget : s.here.get TMU.STATE.PLL_LOCKED = 1 := hpll
      rw [Dev.flag, hget]; rfl
    obtain ⟨hcur, hstatus, hcalm⟩ := onDev_fatal (e := s.here.set TMU.STATE.PLL_LOCKED 0) (cause := 0x0810) hc (if_pos hlock) ⟨by decide, by decide⟩ rfl rfl
    exact ⟨_, exec_refclkLost s, hcur, hstatus, hcalm, rfl, rfl⟩
  · obtain ⟨hcur, hstatus, hcalm⟩ := onDev_fatal (f := fun d => { d with hif.thermtrip := true }.raiseFatal 0x0706)
      (e := { s.here with hif.thermtrip := true }) (cause := 0x0706) hc rfl ⟨by decide, by decide⟩ rfl rfl
    exact ⟨_, exec_thermalTrip s, hcur, hstatus, hcalm, rfl, rfl⟩

end Sys2Proof.Machine
end


section
/-! PROOFS. What posting an event can reach (R48, R51, R76, R343): rings' and controllers' registers, pending bits, outputs, host
memory, HBM and the event state; everything else is steady. -/

namespace Sys2Proof.Machine

/-! ## The steady part of the device -/

/-- Registers that no event, translation or store touches: those of HIF and CMD but the pending bits and `CMD.EVENT_LOST`. -/
def SteadyReg (a : Nat) : Prop := a < 0x200000 ∧ ¬ isPba a ∧ a ≠ CMD.EVENT_LOST.REG.off

/-- What posting an event leaves alone. -/
def Dev.steady (d : Dev) : Dev × ({a : Nat // SteadyReg a} → Reg) :=
  ({ d with regs := [], out := [], draws := 0, host := [], hbm := HbmUnit.reset, cmd.evSeq := 0, cmd.evHold := [], cmd.evDropped := 0,
            cmd.fullSince := [] }, fun a => d.rd a.1)

theorem Dev.steady_rd {d e : Dev} (h : e.steady = d.steady) {a : Nat} (ha : SteadyReg a) : e.rd a = d.rd a :=
  congrFun (congrArg Prod.snd h) ⟨a, ha⟩

/-- A part that the steady part shows is the same. -/
theorem Dev.steady_part {α : Type} {d e : Dev} (h : e.steady = d.steady) (p : Dev → α) : p e.steady.1 = p d.steady.1 := by rw [h]

theorem Dev.steady_wr (d : Dev) (a : Nat) (v : Reg) (ha : ¬ SteadyReg a) : (d.wr a v).steady = d.steady := by
  refine Prod.ext rfl (funext fun b => ?_)
  exact (Dev.rd_wr d a b.1 v).trans (if_neg fun (h : b.1 = a) => ha (h ▸ b.2))

/-- Memory and the controllers' own state are not part of it. -/
theorem Dev.steady_hbm (d : Dev) (h : HbmUnit) : { d with hbm := h }.steady = d.steady := rfl

theorem Dev.steady_set (d : Dev) (f : FRef) (v : Nat) (hf : ¬ SteadyReg f.off) : (d.set f v).steady = d.steady := Dev.steady_wr d _ _ hf

theorem Dev.steady_bump (d : Dev) (f : FRef) (n : Nat) (hf : ¬ SteadyReg f.off) : (d.bump f n).steady = d.steady := Dev.steady_wr d _ _ hf

theorem Dev.steady_set2 (d : Dev) (f g : FRef) (v : Nat) (hf : ¬ SteadyReg f.off) (hg : ¬ SteadyReg g.off) :
    (d.set2 f g v).steady = d.steady := (Dev.steady_set _ g _ hg).trans (Dev.steady_set d f _ hf)

theorem not_steady_of_ge {a : Nat} (h : 0x200000 ≤ a) : ¬ SteadyReg a := fun hs => Nat.not_lt.mpr h hs.1

theorem not_steady_add (b n : Nat) (h : 0x200000 ≤ b) : ¬ SteadyReg (b + n) := not_steady_of_ge (Nat.le_trans h (Nat.le_add_right b n))

/-! Each with its copy's number, so that no offset is computed. -/

theorem not_steady_eccCorrected (k : Nat) : ¬ SteadyReg (HMC.ECC_CORRECTED.COUNT k).off := not_steady_add 0x700004 _ (by decide)
theorem not_steady_eccCheckOnly (k : Nat) : ¬ SteadyReg (HMC.ECC_CHECK_ONLY.COUNT k).off := not_steady_add 0x700008 _ (by decide)
theorem not_steady_eccUncorr (k : Nat) : ¬ SteadyReg (HMC.ECC_UNCORR.COUNT k).off := not_steady_add 0x70000C _ (by decide)
theorem not_steady_eccAddrLo (k : Nat) : ¬ SteadyReg (HMC.ECC_ADDR_LO.OFFSET k).off := not_steady_add 0x700010 _ (by decide)
theorem not_steady_eccAddrHi (k : Nat) : ¬ SteadyReg (HMC.ECC_ADDR_HI.OFFSET k).off := not_steady_add 0x700014 _ (by decide)
theorem not_steady_poisonWrites (k : Nat) : ¬ SteadyReg (HMC.POISON_WRITES.COUNT k).off := not_steady_add 0x700018 _ (by decide)
theorem not_steady_traffic (k : Nat) : ¬ SteadyReg (HMC.TRAFFIC.COUNT k).off := not_steady_add 0x700028 _ (by decide)
theorem not_steady_tailLap (r : Nat) : ¬ SteadyReg (QSU.RING_TAIL.LAP r).off := not_steady_add 0x210014 _ (by decide)
theorem not_steady_tailIndex (r : Nat) : ¬ SteadyReg (QSU.RING_TAIL.INDEX r).off := not_steady_add 0x210014 _ (by decide)
theorem not_steady_ringError (r : Nat) : ¬ SteadyReg (QSU.RING_STATUS.ERROR r).off := not_steady_add 0x210018 _ (by decide)
theorem not_steady_ringStatus (r : Nat) : ¬ SteadyReg (QSU.RING_STATUS.LAST_STATUS r).off := not_steady_add 0x210018 _ (by decide)

theorem Dev.steady_when (d : Dev) (c : Bool) (g : Dev → Dev) (hg : (g d).steady = d.steady) : (d.when c g).steady = d.steady := by
  cases c with
  | true => exact hg
  | false => rfl

theorem Dev.steady_each {α : Type} (g : Dev → α → Dev) (hg : ∀ d x, (g d x).steady = d.steady) (xs : List α) (d : Dev) :
    (d.each xs g).steady = d.steady := Dev.each_keep Dev.steady g hg xs d

/-! ## Codewords met and bytes stored -/

theorem Dev.steady_scrubRoll (d : Dev) (k : Nat) : (d.scrubRoll k).steady = d.steady := by
  unfold Dev.scrubRoll; dsimp only; split <;> rfl

theorem Dev.steady_correctCw (d : Dev) (i : Nat) (c : Bool) : (d.correctCw i c).steady = d.steady := by
  unfold Dev.correctCw
  dsimp only
  generalize hx : Dev.when _ c _ = x
  have hbase : x.steady = d.steady := by
    subst hx
    rw [Dev.steady_when _ _ _ (Dev.steady_bump _ _ _ (not_steady_eccCheckOnly _)), Dev.steady_bump _ _ _ (not_steady_eccCorrected _)]
    exact (Dev.steady_hbm _ _).trans (Dev.steady_scrubRoll d _)
  split
  · exact (Dev.steady_hbm _ _).trans ((Dev.steady_hbm x _).trans hbase)
  · exact (Dev.steady_hbm x _).trans hbase

theorem Dev.steady_uncorrCw (d : Dev) (i : Nat) (first : Bool) : (d.uncorrCw i first).steady = d.steady := by
  unfold Dev.uncorrCw
  dsimp only
  generalize hx : Dev.set2 _ _ _ _ = x
  have hbase : x.steady = d.steady := by
    subst hx
    rw [Dev.steady_set2 _ _ _ _ (not_steady_eccAddrLo _) (not_steady_eccAddrHi _),
      Dev.steady_bump _ _ _ (not_steady_eccUncorr _)]
  have hlost : ∀ (c : Prop) [Decidable c] (u v : HbmUnit), (if c then { x with hbm := u } else { x with hbm := v }).steady = d.steady :=
    fun c _ u v => by split <;> exact (Dev.steady_hbm x _).trans hbase
  split
  · exact (Dev.steady_hbm _ _).trans ((Dev.steady_hbm _ _).trans (hlost _ _ _))
  · exact hlost _ _ _

theorem Dev.steady_meetCw (d : Dev) (e : Nat × CwState) : (d.meetCw e).steady = d.steady := by
  unfold Dev.meetCw
  cases cwKind e.1 e.2 with
  | clean => rfl
  | corr | corrCheck => exact d.steady_correctCw _ _
  | uncorr | poisoned => exact d.steady_uncorrCw _ _

theorem Dev.steady_countTraffic (d : Dev) (flat n : Nat) : (d.countTraffic flat n).steady = d.steady := by
  unfold Dev.countTraffic
  split
  · rfl
  · exact (Dev.steady_hbm _ _).trans (Dev.steady_bump d _ _ (not_steady_traffic _))

theorem Dev.steady_meetPieces (segs : List Seg) : ∀ d : Dev, (d.meetPieces segs).steady = d.steady := by
  induction segs with
  | nil => exact fun d => rfl
  | cons e segs ih =>
    intro d
    obtain ⟨a, n⟩ := e
    have hone : ∀ m, ((d.each (d.badCws a m) Dev.meetCw).countTraffic a m).steady = d.steady := fun m =>
      (Dev.steady_countTraffic _ _ _).trans (Dev.steady_each _ Dev.steady_meetCw _ d)
    unfold Dev.meetPieces
    split
    · rfl
    · split
      · exact hone _
      · exact (ih _).trans (hone n)

/-! ## Translation -/

theorem Dev.steady_cacheFill (d : Dev) (c page ent : Nat) : (d.cacheFill c page ent).steady = d.steady := by
  unfold Dev.cacheFill; split <;> rfl

theorem Dev.steady_lookup (d : Dev) (c page : Nat) : (d.lookup c page).1.steady = d.steady := by
  unfold Dev.lookup
  have h := Dev.steady_meetPieces (d.walkSegs page) d
  generalize d.walk page = w
  obtain ⟨de, e⟩ := w
  split
  · rfl
  · dsimp only
    generalize d.meetPieces (d.walkSegs page) = x at h ⊢
    split
    · exact h
    · dsimp only
      split
      · exact (Dev.steady_cacheFill x _ _ _).trans h
      · exact h

theorem Dev.steady_checkPage (d : Dev) (a : Acc) (page : Nat) : (d.checkPage a page).1.steady = d.steady := by
  have h := d.steady_lookup a.cache page
  unfold Dev.checkPage
  split
  next heq => rw [heq] at h; exact h
  next heq => rw [heq] at h; exact h

theorem Dev.steady_xlatePages (a : Acc) (fuel : Nat) : ∀ (d : Dev) (addr n : Nat), (Dev.xlatePages a fuel d addr n).1.steady = d.steady := by
  induction fuel with
  | zero => exact fun d _ _ => rfl
  | succ fuel ih =>
    intro d addr n
    unfold Dev.xlatePages
    split
    · rfl
    · dsimp only
      have hpage := d.steady_checkPage a (pageOf addr)
      split
      · exact hpage
      · split
        next heq =>
          have hrest := ih (d.checkPage a (pageOf addr)).1 (addr + min n (pageBytes - addr % pageBytes)) (n - min n (pageBytes - addr % pageBytes))
          rw [heq] at hrest; exact hrest.trans hpage
        next heq =>
          have hrest := ih (d.checkPage a (pageOf addr)).1 (addr + min n (pageBytes - addr % pageBytes)) (n - min n (pageBytes - addr % pageBytes))
          rw [heq] at hrest; exact hrest.trans hpage

theorem Dev.steady_tryXlate (d : Dev) (a : Acc) (addr n : Nat) : (d.tryXlate a addr n).1.steady = d.steady := by
  unfold Dev.tryXlate
  split
  · rfl
  · exact Dev.steady_xlatePages a _ d addr n

theorem Dev.steady_protFault (d : Dev) (a : Acc) (cause addr : Nat) : (d.protFault a cause addr).steady = d.steady := by
  unfold Dev.protFault
  dsimp only
  split
  · exact Dev.steady_bump _ _ _ (not_steady_of_ge (by decide))
  · rw [Dev.steady_set2 _ _ _ _ (not_steady_of_ge (by decide)) (not_steady_of_ge (by decide)), Dev.steady_set _ _ _ (not_steady_of_ge (by decide)),
      Dev.steady_set _ _ _ (not_steady_of_ge (by decide)), Dev.steady_set _ _ _ (not_steady_of_ge (by decide)),
      Dev.steady_set _ _ _ (not_steady_of_ge (by decide)), Dev.steady_bump _ _ _ (not_steady_of_ge (by decide))]

theorem Dev.steady_refused (d : Dev) (a : Acc) (r : Refused) : (d.refused a r).steady = d.steady := by
  unfold Dev.refused
  split
  · rfl
  · exact d.steady_protFault _ _ _

theorem Dev.steady_xlate (d : Dev) (a : Acc) (addr n : Nat) : (d.xlate a addr n).1.steady = d.steady := by
  have h := d.steady_tryXlate a addr n
  unfold Dev.xlate
  split
  next heq => rw [heq] at h; exact h
  next heq => rw [heq] at h; exact (Dev.steady_refused _ _ _).trans h

/-! ## Rings and events -/

theorem Dev.steady_msix (d : Dev) {v : Nat} (hv : v < 2048) : (d.msix v).steady = d.steady := by
  unfold Dev.msix
  split
  · rfl
  · refine Dev.steady_wr _ _ _ fun h => h.2.1 ⟨Nat.le_add_right _ _, ?_⟩
    simp only [HIF.MSIX_PBA.REG]; omega

theorem Dev.steady_noteFull (d : Dev) (r : Nat) : (d.noteFull r).steady = d.steady := rfl

theorem Dev.steady_tailOn (d : Dev) (r : Nat) : (d.tailOn r).steady = d.steady := by
  unfold Dev.tailOn Dev.setTail
  dsimp only
  rw [Dev.steady_noteFull, Dev.steady_set _ _ _ (not_steady_tailIndex _), Dev.steady_set _ _ _ (not_steady_tailLap _)]

theorem Dev.steady_ringError (d : Dev) (r st : Nat) : (d.ringError r st).steady = d.steady := by
  unfold Dev.ringError
  rw [Dev.steady_set _ _ _ (not_steady_ringStatus _), Dev.steady_set _ _ _ (not_steady_ringError _)]

theorem Dev.steady_putEntry (d : Dev) (r : Nat) (entry : Bytes) : (d.putEntry r entry).1.steady = d.steady := by
  unfold Dev.putEntry
  dsimp only
  split
  · rfl
  · generalize ha : d.ringEntry r _ = a
    have h := d.steady_xlate (qsuAcc 2 (d.domOf (d.get (QSU.RING_PAIR.OWNER r)))) a 64
    split
    next heq => rw [heq] at h; exact h
    next e segs heq =>
      rw [heq] at h
      dsimp only at h ⊢
      generalize (segs.headD (0, 0)).1 = flat
      split
      · exact h
      · have hmeet : (if e.cwAt (flat / 64) = .poisoned then e else e.meetCw (flat / 64, e.cwAt (flat / 64))).steady = d.steady := by
          split
          · exact h
          · exact (e.steady_meetCw _).trans h
        generalize (if e.cwAt (flat / 64) = .poisoned then e else e.meetCw (flat / 64, e.cwAt (flat / 64))) = x at hmeet ⊢
        split
        · exact (Dev.steady_bump _ _ _ (not_steady_poisonWrites _)).trans hmeet
        · exact (Dev.steady_countTraffic _ _ _).trans ((Dev.steady_hbm x _).trans hmeet)

theorem Dev.steady_evDrop (d : Dev) : d.evDrop.steady = d.steady :=
  Dev.steady_bump d _ _ fun h => h.2.2 rfl

theorem Dev.steady_evHoldIt (d : Dev) (e : EvRec) : (d.evHoldIt e).steady = d.steady := by
  unfold Dev.evHoldIt
  split
  · rfl
  · exact d.steady_evDrop

theorem Dev.ringVector_lt (d : Dev) (r : Nat) : d.get (QSU.RING_CFG.VECTOR r) < 2048 := d.get_lt (QSU.RING_CFG.VECTOR r)

/-- Writing an event record, and posting one, touch nothing steady. -/
theorem Dev.steady_putEvent_postEventF (fuel : Nat) : (∀ (d : Dev) r e, (Dev.putEvent fuel d r e).steady = d.steady) ∧
    ∀ (d : Dev) st res inl, (Dev.postEventF fuel d st res inl).steady = d.steady := by
  induction fuel with
  | zero => exact ⟨fun d _ _ => d.steady_evDrop, fun d _ _ _ => d.steady_evDrop⟩
  | succ fuel ih =>
    obtain ⟨ihput, ihpost⟩ := ih
    refine ⟨fun d r e => ?_, fun d st res inl => ?_⟩
    · unfold Dev.putEvent
      dsimp only
      generalize recordBytes e.seq e.status 0 e.result e.time 0x3FFF true e.inl (d.ringPhase r) = entry
      have h := d.steady_putEntry r entry
      split
      next x heq =>
        rw [heq] at h
        exact ((Dev.steady_when _ _ _ (Dev.steady_msix _ (Dev.ringVector_lt _ r))).trans (Dev.steady_tailOn x r)).trans h
      next x st a heq =>
        rw [heq] at h
        have herr : ((x.tailOn r).ringError r st).steady = d.steady := (Dev.steady_ringError _ _ _).trans ((x.steady_tailOn r).trans h)
        split
        · exact (Dev.steady_evDrop _).trans herr
        · exact (ihpost _ _ _ _).trans herr
    · unfold Dev.postEventF
      dsimp only
      split
      · split
        · exact (ihput _ _ _).trans rfl
        · exact (Dev.steady_evHoldIt _ _).trans rfl
      · exact (Dev.steady_evHoldIt _ _).trans rfl

theorem Dev.steady_event (d : Dev) (st res : Nat) : (d.event st res).steady = d.steady :=
  (Dev.steady_putEvent_postEventF 6).2 d st res []

end Sys2Proof.Machine
end


section
/-! PROOFS. The boot ROM (R632, R633), the I3C target (R643 to R645) and JTAG (R646). -/

namespace Sys2Proof.Machine

/-! ## The boot ROM (R632) -/

section BootRom
variable {s : State} {trained : Nat}

theorem Dev.bootRom_starts {d : Dev} (hb : d.hif.booting = none) (hcur : d.curator = curROM) (hpll : d.get TMU.STATE.PLL_LOCKED ≠ 0)
    (hdik : d.get SEC.STATE.DIK_LOADED = 0) (trained : Nat) : d.bootRom trained =
      let d1 := ((d.trainStacks trained).setKey 0 0 (some ⟨.identity, false⟩)).set SEC.STATE.DIK_LOADED 1
      if d1.stackFailed 0 then d1.set HIF.BOOT_STATUS.STACK0_FAILED 1
      else
        let r := d1.hif.boot
        let first := if (if r.preferB then r.triesB else r.triesA) ≠ 0 then r.preferB else !r.preferB
        let r' := if first then { r with triesB := r.triesB - 1 } else { r with triesA := r.triesA - 1 }
        let try1 := { d1 with hif.boot := r', hif.committed := none }.trySlot first
        if try1.2 then try1.1 else (try1.1.trySlot !first).1 := by
  have hgo : ¬ (d.curator ≠ curROM ∨ (!d.flag TMU.STATE.PLL_LOCKED) = true ∨ d.flag SEC.STATE.DIK_LOADED = true) := by
    simp [Dev.flag, hcur, hpll, hdik]
  unfold Dev.bootRom
  rw [hb]
  dsimp only
  rw [if_neg hgo]
  generalize ((d.trainStacks trained).setKey 0 0 (some ⟨.identity, false⟩)).set SEC.STATE.DIK_LOADED 1 = d1
  split
  · rfl
  · have htwice : ∀ (x : Dev × Bool) b, (match x with
        | (d, true) => d
        | (d, false) => (d.trySlot b).1) = if x.2 then x.1 else (x.1.trySlot b).1 := fun x b => by
      obtain ⟨e, ok⟩ := x
      cases ok <;> rfl
    have hfrom : ∀ first : Bool, { d1 with hif.boot := d1.hif.boot.setTries first (d1.hif.boot.tries first - 1), hif.committed := none } =
        { d1 with hif.boot := if first then { d1.hif.boot with triesB := d1.hif.boot.triesB - 1 }
          else { d1.hif.boot with triesA := d1.hif.boot.triesA - 1 }, hif.committed := none } := fun first => by
      cases first <;> rfl
    rw [hfrom]
    exact htwice _ _

/-- What the image that starts has set by the time the units left out follow. -/
def Dev.running (d : Dev) : Reg × Option ImageInfo × Option ImageInfo := (d.rd CMD.CURATOR_STATE.STATE.off, d.cmd.image, d.cmd.staged)

theorem Dev.running_event (d : Dev) (st res : Nat) : (d.event st res).running = d.running := by
  have h := d.steady_event st res
  have hrd := Dev.steady_rd h (a := CMD.CURATOR_STATE.STATE.off) ⟨by decide, by unfold isPba; decide, by decide⟩
  have himage : (d.event st res).cmd.image = d.cmd.image := Dev.steady_part h (·.cmd.image)
  have hstaged : (d.event st res).cmd.staged = d.cmd.staged := Dev.steady_part h (·.cmd.staged)
  rw [Dev.running, hrd, himage, hstaged, Dev.running]

theorem Dev.running_set (d : Dev) (f : FRef) (v : Nat) (h : 0x200000 ≤ f.off) : (d.set f v).running = d.running := by
  rw [Dev.running, Dev.rd_set_ne d f v _ (fun heq => by rw [← heq] at h; exact absurd h (by decide))]
  rfl

theorem Dev.running_outOfService (d : Dev) (u : Nat) : (d.outOfService u).running = d.running := by
  unfold Dev.outOfService
  dsimp only
  split
  · rfl
  · rw [Dev.running_set _ _ _ (Nat.le_add_right_of_le (by decide)), Dev.running_set _ _ _ (Nat.le_add_right_of_le (by decide)),
      Dev.running_set _ _ _ (by decide)]
  · exact Dev.running_set _ _ _ (Nat.le_add_right_of_le (by decide))
  · exact Dev.running_set _ _ _ (Nat.le_add_right_of_le (by decide))
  · exact Dev.running_set _ _ _ (by decide)
  · rfl
  · rfl

theorem Dev.imageRuns_running (d : Dev) (im : ImageInfo) : (d.imageRuns im).curator = curRUNNING ∧ (d.imageRuns im).cmd.image = some im ∧
    (d.imageRuns im).cmd.staged = none :=
  ⟨Dev.get_set_same _ CMD.CURATOR_STATE.STATE curRUNNING (by decide) (by decide), rfl, rfl⟩

theorem Dev.firstImage_running (d : Dev) (im : ImageInfo) : (d.firstImage im).running = (d.freshCatalogue.imageRuns im).running := by
  unfold Dev.firstImage
  dsimp only
  rw [Dev.each_keep Dev.running (fun d u => d.outOfService u) Dev.running_outOfService,
    Dev.each_keep Dev.running (fun d k => d.event 0x0219 k) (fun d k => d.running_event _ k)]

theorem Dev.curator_of_running {d e : Dev} (h : e.running = d.running) : e.curator = d.curator :=
  Dev.get_congr CMD.CURATOR_STATE.STATE (congrArg Prod.fst h)

theorem BootRecord.setTries_tries (r : BootRecord) (b : Bool) (n : Nat) :
    (if b then (r.setTries b n).triesB else (r.setTries b n).triesA) = n := by
  cases b <;> rfl

theorem Dev.bootDone_boot (d : Dev) (b : Bool) (im : ImageInfo) : ∃ r : BootRecord, (d.bootDone b im).hif.boot = r.setTries b 3 := ⟨_, rfl⟩

end BootRom

/-- Settles O11: the first event chooses and tries the slots, the second starts the image. -/
theorem bootRom : Obligations.BootRom := by
  refine ⟨fun s trained hc hcur hpll hdik hb => ⟨_, rfl, ?_⟩, fun d e b n hn he => ⟨fun im him => ?_, fun st hst => ?_⟩,
    fun s trained b im hc hb hst hcur => ?_⟩
  · have hstart := Dev.bootRom_starts (d := s.here) hb hcur hpll hdik trained
    exact congrArg Host.Outcome.next (onDev_eq s (·.bootRom trained) _ hstart)
  · subst hn he
    unfold Dev.trySlot
    dsimp only
    rw [show slotBase b = if b then 0x2000000 else 0 from rfl, him]
  · subst hn he
    unfold Dev.trySlot
    dsimp only
    rw [show slotBase b = if b then 0x2000000 else 0 from rfl, hst]
  · have hboot : s.here.bootRom trained = s.here.bootDone b im := by
      have hb' : s.here.hif.booting = some b := hb
      have hst' : s.here.cmd.staged = some im := hst
      have hcur' : s.here.curator = curLOADING := hcur
      unfold Dev.bootRom
      rw [hb', hst']
      exact if_pos hcur'
    obtain ⟨hrun, himage, hstaged⟩ := Dev.imageRuns_running s.here.freshCatalogue im
    have hfirst := Dev.firstImage_running s.here im
    have hslots : (((s.here.firstImage im).set HIF.BOOT_STATUS.SLOT (b2n b)).set HIF.BOOT_STATUS.FROM_FLASH 1).curator = curRUNNING :=
      (Dev.get_set_ne _ _ _ _ (by decide) (by decide)).trans ((Dev.get_set_ne _ _ _ _ (by decide) (by decide)).trans
        ((Dev.curator_of_running hfirst).trans hrun))
    refine ⟨s.here.bootDone b im, congrArg Host.Outcome.next (onDev_eq s _ _ hboot), hslots, ?_, ?_, rfl, ?_, ?_, ?_⟩
    · exact (congrArg (·.2.1) hfirst).trans himage
    · exact (congrArg (·.2.2) hfirst).trans hstaged
    · obtain ⟨r, hr⟩ := Dev.bootDone_boot s.here b im
      rw [hr, BootRecord.setTries_tries]
    · have hflash : (((s.here.firstImage im).set HIF.BOOT_STATUS.SLOT (b2n b)).set HIF.BOOT_STATUS.FROM_FLASH 1).get HIF.BOOT_STATUS.FROM_FLASH = 1 :=
        Dev.get_set_same _ _ _ (by decide) (by decide)
      exact hflash
    · have hslot : (((s.here.firstImage im).set HIF.BOOT_STATUS.SLOT (b2n b)).set HIF.BOOT_STATUS.FROM_FLASH 1).get HIF.BOOT_STATUS.SLOT = b2n b := by
        rw [Dev.get_set_ne _ _ _ _ (by decide) (by decide), Dev.get_set_same _ _ _ (by decide) (by decide)]
        cases b <;> decide
      exact hslot

/-! ## The I3C common command codes (R643, R645) -/

section ManagementPorts
variable {s : State} (hc : Calm s)
include hc

/-- A command code whose effect on the target is known. -/
theorem onI3c_calm {f : I3c → I3c} {c : I3c} (hf : f s.dev.hif.i3c = c) :
    s.onDev (·.onI3c f) = { s with dev := { s.here with hif.i3c := c } } := by
  have heff : s.here.onI3c f = { s.here with hif.i3c := c } := by rw [← hf]; rfl
  exact onDev_quiet hc heff rfl rfl

theorem onEmit_calm (o : Output) : s.onDev (·.emit o) = { s with dev := s.here.emit o } := onDev_quiet hc rfl rfl rfl

/-- A vendor command of the port is served while PWRGD is high (R643, R644). -/
theorem onI3cCmd_served {f : Dev → Dev} {e : Dev} (hp : s.dev.hif.pwrgd = true) (heff : f s.here = e) (hcsv : e.csv = s.dev.csv)
    (hhbm : e.hbm = s.dev.hbm) : s.onI3cCmd f = { s with dev := e } := by
  have hwhen : s.here.when s.here.hif.pwrgd f = e := (if_pos hp).trans heff
  exact onDev_of_keeps hc hwhen hcsv hhbm

theorem onI3cCmd_unserved (f : Dev → Dev) (hp : s.dev.hif.pwrgd = false) : s.onI3cCmd f = { s with dev := s.here } := by
  have hwhen : s.here.when s.here.hif.pwrgd f = s.here := if_neg (by rw [show s.here.hif.pwrgd = false from hp]; decide)
  exact onDev_of_keeps hc hwhen rfl rfl

/-- Selecting a JTAG instruction (R646). -/
theorem jtagSelect_calm {ir pins : Nat} (h : pins = 0 ∨ s.dev.hif.perst = true) :
    s.onDev (·.jtagSelect ir pins) = { s with dev := { s.here with hif.jtag.ir := ir, hif.jtag.pins := pins } } := by
  have heff : s.here.jtagSelect ir pins = { s.here with hif.jtag.ir := ir, hif.jtag.pins := pins } :=
    if_neg fun hn => h.elim hn.1 fun hp => by
      have hlow : (!s.here.hif.perst) = true := hn.2
      rw [show s.here.hif.perst = true from hp] at hlow
      exact absurd hlow (by decide)
  exact onDev_of_keeps hc heff rfl rfl

/-- One that drives the pins selects BYPASS unless PERST# is asserted. -/
theorem jtagSelect_bypass {ir pins : Nat} (hpins : pins ≠ 0) (hp : s.dev.hif.perst = false) :
    s.onDev (·.jtagSelect ir pins) = s.onDev (·.jtagSelect 0xFF 0) := by
  have heff : s.here.jtagSelect ir pins = { s.here with hif.jtag.ir := 0xFF, hif.jtag.pins := 0 } :=
    if_pos ⟨hpins, by rw [show s.here.hif.perst = false from hp]; rfl⟩
  rw [jtagSelect_calm hc (.inl rfl)]
  exact onDev_of_keeps hc heff rfl rfl

end ManagementPorts

theorem bit_zero_of_odd {e : Nat} (h : e % 2 = 1) : bit e 0 = true := by simp [bit, Nat.testBit_zero, h]
theorem bit_zero_of_even {e : Nat} (h : e % 2 = 0) : bit e 0 = false := by simp [bit, Nat.testBit_zero, h]

/-- The common command codes. -/
theorem commonCodes {s : State} (hc : Calm s) :
    (∀ a, s.dev.hif.i3c.dynAddr = none → exec (.entdaa a) s = .next { s with dev := { s.here with hif.i3c.dynAddr := some a } } ∧
      exec (.setdasa a) s = .next { s with dev := { s.here with hif.i3c.dynAddr := some a } }) ∧
    (∀ a x, s.dev.hif.i3c.dynAddr = some a → exec (.entdaa x) s = .next { s with dev := s.here } ∧ exec (.setdasa x) s = .next { s with dev := s.here }) ∧
    (∀ e, e % 2 = 1 → exec (.enec e) s = .next { s with dev := { s.here with hif.i3c.ibiEn := true } } ∧
      exec (.disec e) s = .next { s with dev := { s.here with hif.i3c.ibiEn := false } }) ∧
    (∀ e, e % 2 = 0 → exec (.enec e) s = .next { s with dev := s.here } ∧ exec (.disec e) s = .next { s with dev := s.here }) := by
  refine ⟨fun a h => ?_, fun a x h => ?_, fun e he => ?_, fun e he => ?_⟩
  · have hor : s.dev.hif.i3c.dynAddr.or (some a) = some a := by rw [h]; rfl
    exact ⟨congrArg Host.Outcome.next (onI3c_calm hc (congrArg (fun x => { s.dev.hif.i3c with dynAddr := x }) hor)),
      congrArg Host.Outcome.next (onI3c_calm hc (congrArg (fun x => { s.dev.hif.i3c with dynAddr := x }) hor))⟩
  · have hor : s.dev.hif.i3c.dynAddr.or (some x) = s.dev.hif.i3c.dynAddr := by rw [h]; rfl
    exact ⟨congrArg Host.Outcome.next (onI3c_calm hc (congrArg (fun x => { s.dev.hif.i3c with dynAddr := x }) hor)),
      congrArg Host.Outcome.next (onI3c_calm hc (congrArg (fun x => { s.dev.hif.i3c with dynAddr := x }) hor))⟩
  · have hen : (s.dev.hif.i3c.ibiEn || bit e 0) = true := by rw [bit_zero_of_odd he, Bool.or_true]
    have hdis : (s.dev.hif.i3c.ibiEn && !bit e 0) = false := by rw [bit_zero_of_odd he]; exact Bool.and_false _
    exact ⟨congrArg Host.Outcome.next (onI3c_calm hc (congrArg (fun x => { s.dev.hif.i3c with ibiEn := x }) hen)),
      congrArg Host.Outcome.next (onI3c_calm hc (congrArg (fun x => { s.dev.hif.i3c with ibiEn := x }) hdis))⟩
  · have hen : (s.dev.hif.i3c.ibiEn || bit e 0) = s.dev.hif.i3c.ibiEn := by rw [bit_zero_of_even he, Bool.or_false]
    have hdis : (s.dev.hif.i3c.ibiEn && !bit e 0) = s.dev.hif.i3c.ibiEn := by rw [bit_zero_of_even he]; exact Bool.and_true _
    exact ⟨congrArg Host.Outcome.next (onI3c_calm hc (congrArg (fun x => { s.dev.hif.i3c with ibiEn := x }) hen)),
      congrArg Host.Outcome.next (onI3c_calm hc (congrArg (fun x => { s.dev.hif.i3c with ibiEn := x }) hdis))⟩

/-! ## FLASH_WRITE and FLASH_COMMIT (R644) -/

theorem Dev.flashPut_uncommitted {d : Dev} {bs : Bytes} (ha : le bs 0 4 % 256 = 0) (hlt : le bs 0 4 < 0x2000000)
    (hcom : d.hif.committed ≠ some d.spareSlot) :
    d.flashPut bs = { d with hif.flash := memWrite d.hif.flash (slotBase d.spareSlot + le bs 0 4) (slice bs 4 256) } := by
  unfold Dev.flashPut
  dsimp only
  rw [if_neg (by omega), if_neg hcom]

theorem Dev.flashAccept_accepts {d : Dev} {bs h blk : Bytes} (hparts : imageParts (d.flashRd d.spareSlot) = some (h, blk, le bs 0 4)) :
    d.flashAccept bs = { d with
      hif.committed := some d.spareSlot, hif.boot := { d.hif.boot.setTries d.spareSlot 3 with preferB := d.spareSlot } }.emit (.data [0]) := by
  unfold Dev.flashAccept
  dsimp only
  rw [hparts]
  exact if_pos rfl

theorem Dev.flashAccept_refuses {d : Dev} {bs : Bytes} (hparts : ∀ h blk, imageParts (d.flashRd d.spareSlot) ≠ some (h, blk, le bs 0 4)) :
    d.flashAccept bs = d.emit (.data [1]) := by
  unfold Dev.flashAccept
  dsimp only
  split
  next h blk len heq => exact if_neg fun hlen => hparts h blk (by rw [heq, hlen])
  next => rfl

/-- Settles O13: each code by its one effect. -/
theorem managementPorts : Obligations.ManagementPorts := by
  refine ⟨fun s hc => ?_, ⟨fun s hc hp => ?_, fun s bs c hc hp hmem => ?_⟩, fun s hc => ?_⟩
  · obtain ⟨hfree, htaken, hodd, heven⟩ := commonCodes hc
    refine ⟨hfree, htaken, congrArg Host.Outcome.next (onI3c_calm hc rfl), hodd, heven, fun n => ⟨?_, ?_⟩,
      fun n => congrArg Host.Outcome.next (onI3c_calm hc rfl), congrArg Host.Outcome.next (onEmit_calm hc _),
      congrArg Host.Outcome.next (onEmit_calm hc _), congrArg Host.Outcome.next (onEmit_calm hc _),
      congrArg Host.Outcome.next (onDev_of_keeps hc rfl rfl rfl), congrArg Host.Outcome.next (onDev_of_keeps hc rfl rfl rfl),
      _, _, congrArg Host.Outcome.next (onDev_of_keeps hc rfl rfl rfl)⟩
    · rw [Nat.min_comm]; exact congrArg Host.Outcome.next (onI3c_calm hc rfl)
    · rw [Nat.min_comm]; exact congrArg Host.Outcome.next (onI3c_calm hc rfl)
  · refine ⟨congrArg Host.Outcome.next (onI3cCmd_served hc hp rfl rfl rfl), congrArg Host.Outcome.next (onI3cCmd_served hc hp rfl rfl rfl),
      fun bs => congrArg Host.Outcome.next (onI3cCmd_served hc hp rfl rfl rfl), fun bs sum hsum hblk => ?_,
      fun bs b hb ha hlt hcom => ?_, fun bs b h blk hb hparts => ?_, fun bs hparts => ?_⟩
    · refine congrArg Host.Outcome.next (onI3cCmd_served hc hp ?_ rfl rfl)
      rw [show s.here.csv.fatals[le bs 0 1]? = some sum from hsum, decide_eq_true hblk]
    · subst hb
      exact congrArg Host.Outcome.next (onI3cCmd_served hc hp (Dev.flashPut_uncommitted (d := s.here) ha hlt hcom) rfl rfl)
    · subst hb
      exact congrArg Host.Outcome.next (onI3cCmd_served hc hp (Dev.flashAccept_accepts (d := s.here) hparts) rfl rfl)
    · exact congrArg Host.Outcome.next (onI3cCmd_served hc hp (Dev.flashAccept_refuses (d := s.here) hparts) rfl rfl)
  · simp only [List.mem_cons, List.not_mem_nil, or_false] at hmem
    rcases hmem with rfl | rfl | rfl | rfl | rfl | rfl <;> exact congrArg Host.Outcome.next (onI3cCmd_unserved hc _ hp)
  · refine ⟨fun hp => ⟨congrArg Host.Outcome.next (jtagSelect_calm hc (.inr hp)), congrArg Host.Outcome.next (jtagSelect_calm hc (.inr hp)),
      congrArg Host.Outcome.next (jtagSelect_calm hc (.inr hp))⟩, fun hp c hmem => ?_, congrArg Host.Outcome.next (jtagSelect_calm hc (.inl rfl)),
      congrArg Host.Outcome.next (jtagSelect_calm hc (.inl rfl)), congrArg Host.Outcome.next (jtagSelect_calm hc (.inl rfl)),
      congrArg Host.Outcome.next (onDev_of_keeps hc rfl rfl rfl), fun v => ⟨_, rfl, congrArg Host.Outcome.next (onDev_of_keeps hc rfl rfl rfl)⟩⟩
    simp only [List.mem_cons, List.not_mem_nil, or_false] at hmem
    rcases hmem with rfl | rfl | rfl <;> exact congrArg Host.Outcome.next (jtagSelect_bypass hc (by decide) hp)

end Sys2Proof.Machine
end


section
/-! PROOFS. Register accesses (R11 to R13, R589), the host's requests (R624, R628, R629, R631) and the debug access port (R617, R619). -/

namespace Sys2Proof.Machine

/-! ## Register writes (R12) -/

/-- The device leaves a command of a calm state without effect. -/
theorem onDev_nothing {s : State} {f : Dev → Dev} (hc : Calm s) (h : f s.here = s.here) : s.onDev f = { s with dev := s.here } :=
  onDev_quiet hc h rfl rfl

theorem agentWrite_plain (s : State) {who : Agent} {off : Nat} {v : Reg} (hfuse : off ≠ HIF.FUSE_PROGRAM.REG.off)
    (hreset : off ≠ HIF.RESET_CTL.REG.off) : exec (.registerWrite who off v) s = .next (s.onDev (·.agentWrite who off v)) :=
  congrArg Host.Outcome.next ((if_neg hfuse).trans (if_neg hreset))

/-- The writes that are ignored (R11, R12). -/
theorem Dev.agentWrite_ignored {d : Dev} {who : Agent} {off : Nat} {v : Reg}
    (h : portAbsent d.code off = true ∨ (findReg off = none ∧ (winOf off = none ∨ who = .host)) ∨
      ∃ r k, findReg off = some (r, k) ∧ mayWrite who r.writer = false) : d.agentWrite who off v = d := by
  unfold Dev.agentWrite
  rcases h with hport | ⟨hfind, hwin⟩ | ⟨r, k, hfind, hmay⟩
  · exact if_pos hport
  · rw [hfind]
    rcases hwin with hwin | rfl
    · rw [hwin]; cases who <;> exact ite_self d
    · exact ite_self d
  · rw [hfind]
    simp [hmay]

theorem Dev.agentWrite_found {d : Dev} {who : Agent} {off : Nat} {v : Reg} {r : RegDef} {k : Nat} (hport : portAbsent d.code off = false)
    (hfind : findReg off = some (r, k)) (hmay : mayWrite who r.writer = true) : d.agentWrite who off v = d.regEffect who r off v := by
  unfold Dev.agentWrite
  rw [hfind]
  simp [hport, hmay]

/-- A register without an effect of its own is a table entry or takes the write field by field. -/
theorem Dev.regEffect_plain {d : Dev} {who : Agent} {r : RegDef} {off : Nat} {v : Reg} (hbase : r.base ∉ effectRegs)
    (hregion : ¬ ((regionOf ((off - 0x01000000) / 0x10000) off).isSome ∧ (SPM.REGION_BASE.REG 0 0).off ≤ r.base)) :
    d.regEffect who r off v = if 0x00010000 ≤ off ∧ off < 0x00018000 then d.tableWrite r off v
      else if !d.ceilingOk off v then d else d.plainWriteReg r off v := by
  simp only [effectRegs, List.mem_cons, List.not_mem_nil, or_false, not_or] at hbase
  obtain ⟨h1, h2, h3, h4, h5, h6, h7, h8, h9, h10, h11, h12, h13, h14, h15, h16⟩ := hbase
  simp only [Dev.regEffect, h1, h2, h3, h4, h5, h6, h7, h8, h9, h10, h11, h12, h13, h14, h15, h16, hregion, or_self, if_false]

theorem fldWrite_eq (v w : Reg) (f : Fld) : fldWrite v w f =
    (let x := fieldOf v f.hi f.lo
    if f.ty = .rw ∧ f.least ≤ x ∧ x ≤ f.most then withField w f.hi f.lo x
    else if f.ty = .w1c then withField w f.hi f.lo (fieldOf w f.hi f.lo &&& (2 ^ (f.hi + 1 - f.lo) - 1 - x)) else w) := by
  unfold fldWrite
  cases f.ty <;> simp

/-- Settles O14: the ignored writes change nothing, any other is the fields' own rule. -/
theorem registerWrites : Obligations.RegisterWrites := by
  refine ⟨fun s who off v hc hfuse hreset h => ?_, fun s who off v r k hc hport hfind hmay hfuse hreset hcfi hwxu hbase hregion htable => ?_⟩
  · rw [agentWrite_plain s hfuse hreset]
    exact congrArg Host.Outcome.next (onDev_nothing hc (Dev.agentWrite_ignored (d := s.here) h))
  · rw [agentWrite_plain s hfuse hreset]
    have hceil : s.here.ceilingOk off v = true := by
      unfold Dev.ceilingOk
      rw [if_neg hcfi, if_neg hwxu]
    have heff : s.here.agentWrite who off v = s.here.plainWriteReg r off v := by
      rw [Dev.agentWrite_found (d := s.here) hport hfind hmay, Dev.regEffect_plain hbase hregion, if_neg htable, hceil]
      rfl
    have hplain : s.here.plainWriteReg r off v = s.here.wr off (r.flds.foldl (fun w f =>
        let x := fieldOf v f.hi f.lo
        if f.ty = .rw ∧ f.least ≤ x ∧ x ≤ f.most then withField w f.hi f.lo x
        else if f.ty = .w1c then withField w f.hi f.lo (fieldOf w f.hi f.lo &&& (2 ^ (f.hi + 1 - f.lo) - 1 - x)) else w) (s.dev.rd off)) := by
      unfold Dev.plainWriteReg
      rw [funext fun w => funext (fldWrite_eq v w)]
      rfl
    exact congrArg Host.Outcome.next (onDev_quiet hc (heff.trans hplain) rfl rfl)

/-! ## Values read (R12) -/

theorem rsvBits_lt (off : Nat) : rsvBits off < 2 ^ 32 := by
  have hput : ∀ (fs : List Fld) n, n < 2 ^ 32 → fs.foldl (fun a f => putBits a f.hi f.lo 0) n < 2 ^ 32 := by
    intro fs
    induction fs with
    | nil => exact fun n h => h
    | cons f fs ih =>
      refine fun n h => ih _ (Nat.lt_of_le_of_lt ?_ h)
      simp only [putBits, Nat.zero_mod, Nat.zero_mul, Nat.add_zero]
      exact Nat.sub_le _ _
  unfold rsvBits
  split
  · exact hput _ _ (by decide)
  · split <;> decide

/-- The masks of a read's free bits. -/
theorem freeMask_lt (d : Dev) (off : Nat) : rsvBits off ||| d.drainBit off < 2 ^ 32 := by
  refine Nat.or_lt_two_pow (rsvBits_lt off) ?_
  unfold Dev.drainBit
  split
  · split <;> decide
  · decide

/-- A bit of a word whose bits under a mask are replaced. -/
theorem ofNat_masked_getLsbD (v x m i : Nat) (hm : m < 2 ^ 32) (hi : i < 32) :
    (BitVec.ofNat 32 ((v &&& (0xFFFFFFFF - m)) ||| (x &&& m))).getLsbD i = if m.testBit i then x.testBit i else v.testBit i := by
  have hsub : (0xFFFFFFFF - m).testBit i = !m.testBit i := by
    have h := Nat.testBit_two_pow_sub_succ (x := m) (n := 32) hm i
    have heq : 2 ^ 32 - (m + 1) = 0xFFFFFFFF - m := by omega
    rw [heq] at h
    simpa [hi] using h
  rw [BitVec.getLsbD_ofNat, Nat.testBit_or, Nat.testBit_and, Nat.testBit_and, hsub]
  cases m.testBit i <;> simp [hi]

/-- A read gives the register's bits outside those that are free. -/
theorem Dev.withRsv_getLsbD (d : Dev) (off : Nat) (v : Reg) {i : Nat} (hr : (rsvBits off).testBit i = false)
    (hd : (d.drainBit off).testBit i = false) (hi : i < 32) : (d.withRsv off v).2.getLsbD i = v.getLsbD i := by
  unfold Dev.withRsv
  dsimp only
  split
  · rfl
  · refine (ofNat_masked_getLsbD _ _ _ _ (freeMask_lt d off) hi).trans ?_
    rw [Nat.testBit_or, hr, hd]
    rfl

/-- It draws at most one value. -/
theorem Dev.withRsv_dev (d : Dev) (off : Nat) (v : Reg) : ∃ n, (d.withRsv off v).1 = { d with draws := n } := by
  unfold Dev.withRsv
  dsimp only
  split
  · exact ⟨d.draws, rfl⟩
  · exact ⟨d.draws + 1, rfl⟩

/-- Of the registers, only `MXA.STATE`, which has no clearing field, has a bit that rests on cycles. -/
theorem regBlocks_state_noRc : ∀ b ∈ regBlocks, ∀ r ∈ b.2.2, regHasRc r = true → r.base ≠ (MXA.STATE.REG 0 0).off := by decide

theorem findReg_mem {off k : Nat} {r : RegDef} (h : findReg off = some (r, k)) : ∃ b ∈ regBlocks, r ∈ b.2.2 := by
  unfold findReg at h
  split at h
  · cases h
  next lo hi rs hb =>
    obtain ⟨q, hq, hix⟩ := List.exists_of_findSome?_eq_some h
    obtain ⟨_, hix⟩ := Option.ite_none_right_eq_some.mp hix
    obtain ⟨j, _, hpair⟩ := Option.map_eq_some_iff.mp hix
    obtain ⟨rfl, rfl⟩ := Prod.mk.inj hpair
    exact ⟨_, List.mem_of_find?_eq_some hb, hq⟩

theorem Dev.drainBit_clearing (d : Dev) {off k : Nat} {r : RegDef} (hfind : findReg off = some (r, k)) (hrc : regHasRc r = true) :
    d.drainBit off = 0 := by
  obtain ⟨b, hb, hr⟩ := findReg_mem hfind
  unfold Dev.drainBit
  rw [hfind]
  exact if_neg fun h => regBlocks_state_noRc b hb r hr hrc h.1

/-! ## Reads that clear (R12, R589) -/

/-- A register's word after a clearing read: its RC fields at their reset values. -/
def clearedWord (r : RegDef) (w : Reg) : Reg := r.flds.foldl (fun w f => if f.ty = .rc then withField w f.hi f.lo f.rst else w) w

theorem Dev.rebase_dev (d : Dev) (r : RegDef) (n : Nat) : ∃ b, d.rebase r n = { d with csv.telemBase := b } := ⟨_, rfl⟩

theorem Dev.readClear_found (d : Dev) {off k : Nat} {r : RegDef} (hfind : findReg off = some (r, k)) : ∃ n b,
    d.readClear off = ({ d with draws := n, csv.telemBase := b }.wr off
      (clearedWord r (d.rd off)),
        (({ d with csv.telemBase := b }.clearRc off).withRsv off (d.regView off)).2) := by
  obtain ⟨b, hb⟩ := d.rebase_dev r (d.rd off).toNat
  obtain ⟨n, hn⟩ := Dev.withRsv_dev ({ d with csv.telemBase := b }.clearRc off) off (d.regView off)
  refine ⟨n, b, ?_⟩
  unfold Dev.readClear
  rw [hfind]
  dsimp only
  rw [hb]
  refine Prod.ext (hn.trans ?_) rfl
  unfold Dev.clearRc
  rw [hfind]
  simp only [beq_iff_eq]
  rfl

theorem exec_readClear {s : State} {off k : Nat} {r : RegDef} (hc : Calm s) (hfind : findReg off = some (r, k)) (hrc : regHasRc r = true)
    (htime : r.base ≠ TMU.TIME_LO.REG.off) (hcap : r.base ≠ (TMU.CAP_POP_LO.REG 0).off) : ∃ n b,
    ∃ e : Dev, e = ({ s.here with draws := n, csv.telemBase := b }.wr off (clearedWord r (s.dev.rd off))).emit
        (.reg (({ s.here with csv.telemBase := b }.clearRc off).withRsv off (s.here.regView off)).2) ∧
      exec (.readClearRegister off) s = .next { s with dev := e } := by
  obtain ⟨n, b, hread⟩ := s.here.readClear_found hfind
  refine ⟨n, b, _, rfl, congrArg Host.Outcome.next (onDev_quiet hc ?_ rfl rfl)⟩
  rw [hfind]
  dsimp only
  rw [hrc, if_neg (by decide), if_neg htime, if_neg hcap, hread]
  rfl

theorem onlyParts_clearingRead (s : State) (rs : SMap Reg) (o : List Output) (n : Nat) (c : CsvUnit) :
    OnlyParts [.regs, .out, .draws, .csv] s { s with dev := { s.here with regs := rs, out := o, draws := n, csv := c } } := by
  refine ⟨rfl, rfl, rfl, rfl, fun p _ hp => ?_⟩
  cases p
  case regs | out | draws | csv => simp at hp
  all_goals rfl

/-- Settles O15: a clearing read by its fields; the time base and a capture by what they latch. -/
theorem clearingReads : Obligations.ClearingReads := by
  refine ⟨fun s off r k hc hfind hrc htime hcap => ?_, fun s hc => ?_, fun s i t ts hc hi hfifo => ?_, fun s i hc hi hfifo => ?_⟩
  · obtain ⟨n, b, _, rfl, hexec⟩ := exec_readClear hc hfind hrc htime hcap
    refine ⟨_, _, hexec, rfl, fun i hr hi => ?_, ?_, fun o ho => ?_, onlyParts_clearingRead s _ _ _ _⟩
    · exact Dev.withRsv_getLsbD _ off _ hr (by rw [Dev.drainBit_clearing _ hfind hrc]; exact Nat.zero_testBit i) hi
    · exact (Dev.rd_wr _ off off _).trans (if_pos rfl)
    · exact (Dev.rd_wr _ off o _).trans (if_neg ho)
  · exact congrArg Host.Outcome.next (onDev_quiet hc rfl rfl rfl)
  · have hpop : s.here.capPop i = ((s.here.setCap i { s.dev.cap i with fifo := ts }).set (TMU.CAP_POP_HI.NS i) (t / 2 ^ 32), t % 2 ^ 32) := by
      unfold Dev.capPop
      rw [State.here_cap, hfifo]
    refine congrArg Host.Outcome.next (onDev_quiet hc ?_ rfl rfl)
    rw [if_neg (Nat.not_le.mpr hi), hpop]
  · have hpop : s.here.capPop i = (s.here, 0) := by
      unfold Dev.capPop
      rw [State.here_cap, hfifo]
    refine congrArg Host.Outcome.next (onDev_quiet hc ?_ rfl rfl)
    rw [if_neg (Nat.not_le.mpr hi), hpop]
    rfl

/-! ## Function 1's vectors (R624) -/

theorem Dev.fn1Rd_fn1Wr (d : Dev) (a b : Nat) (v : Reg) : (d.fn1Wr a v).fn1Rd b = if b = a then v else d.fn1Rd b := smapGet_set _ _ _ _

/-- One bit pending among the eight. -/
theorem maskBits_two_pow {v : Nat} (hv : v < 8) : maskBits (BitVec.ofNat 32 (2 ^ v)).toNat 8 = [v] := by
  revert v; decide

theorem withField_two_pow {v : Nat} (hv : v < 8) : withField (BitVec.ofNat 32 (2 ^ v)) v v 0 = 0 := by
  revert v; decide

/-- Clearing the mask of a pending vector sends it. -/
theorem Dev.sendPending1_one {d : Dev} {v : Nat} (hv : v < 8) (hen : d.hif.msixEn1 = true) (hmask : d.hif.msixMask1 = false)
    (hpend : d.fn1Rd 0x18000 = BitVec.ofNat 32 (2 ^ v)) (hvec : d.fn1Rd (0x1000C + 16 * v) = 0) :
    d.sendPending1 = (d.fn1Wr 0x18000 0).emit (.msix 1 v ((d.fn1Rd (0x10000 + 16 * v)).toNat / 4 * 4 +
      (d.fn1Rd (0x10004 + 16 * v)).toNat * 2 ^ 32) (d.fn1Rd (0x10008 + 16 * v)).toNat) := by
  have hrd : ∀ a, a ≠ 0x18000 → (d.fn1Wr 0x18000 0).fn1Rd a = d.fn1Rd a := fun a ha => (d.fn1Rd_fn1Wr _ _ _).trans (if_neg ha)
  have h0 := hrd (0x10000 + 16 * v) (by omega)
  have h4 := hrd (0x10000 + 16 * v + 4) (by omega)
  have h8 := hrd (0x10000 + 16 * v + 8) (by omega)
  have h12 := hrd (0x10000 + 16 * v + 12) (by omega)
  have e4 : 0x10000 + 16 * v + 4 = 0x10004 + 16 * v := by omega
  have e8 : 0x10000 + 16 * v + 8 = 0x10008 + 16 * v := by omega
  have e12 : 0x10000 + 16 * v + 12 = 0x1000C + 16 * v := by omega
  rw [e4] at h4
  rw [e8] at h8
  rw [e12] at h12
  unfold Dev.sendPending1
  rw [hpend, maskBits_two_pow hv]
  simp only [Dev.each, List.foldl_cons, List.foldl_nil]
  rw [if_pos (by rw [hen, hmask, hvec]; rfl), hpend, withField_two_pow hv]
  unfold Dev.msix1
  dsimp only
  rw [e12, h12, if_pos (by rw [hvec]; simp [Dev.fn1Wr, hen, hmask]; rfl), h0, e4, h4, e8, h8]

/-! ## Configuration requests (R631) -/

section Config
variable {s : State} (hc : Calm s)
include hc

theorem configRequest_perst (fn : Nat) (rq : ConfigReq) (hp : s.dev.hif.perst = true) :
    exec (.configRequest fn rq) s = .next { s with dev := s.here } :=
  congrArg Host.Outcome.next (onDev_nothing hc (if_pos (.inr hp)))

theorem configRequest_retry (rq : ConfigReq) (hp : s.dev.hif.perst = false) (ht : s.clock.ns < s.dev.hif.perstAt + 20000000) :
    exec (.configRequest 0 rq) s = .next { s with dev := s.here.emit .retry } := by
  refine congrArg Host.Outcome.next (onDev_quiet hc ?_ rfl rfl)
  have hserve : ¬ (2 ≤ 0 ∨ s.here.hif.perst = true) := by simp [hp]
  rw [if_neg hserve]
  exact if_pos ⟨rfl, ht⟩

/-- A request that is served is answered. -/
theorem configRequest_served {fn : Nat} {rq : ConfigReq} {e : Dev} (hp : s.dev.hif.perst = false)
    (hfn : (fn = 0 ∧ s.dev.hif.perstAt + 20000000 ≤ s.clock.ns) ∨ fn = 1) (hans : s.here.configAnswer fn rq = e) (hcsv : e.csv = s.dev.csv)
    (hhbm : e.hbm = s.dev.hbm) : exec (.configRequest fn rq) s = .next { s with dev := e } := by
  refine congrArg Host.Outcome.next (onDev_of_keeps hc ?_ hcsv hhbm)
  have hserve : ¬ (2 ≤ fn ∨ s.here.hif.perst = true) := by
    simp only [State.here_hif, hp, Bool.false_eq_true, or_false]
    omega
  have hnow : ¬ (fn = 0 ∧ s.here.now < s.here.hif.perstAt + retryNs) := by
    rintro ⟨rfl, hlt⟩
    rcases hfn with ⟨_, hle⟩ | h
    · exact absurd hlt (Nat.not_lt.mpr hle)
    · exact absurd h (by decide)
  rw [if_neg hserve, if_neg hnow, hans]

end Config

/-! ## BAR2 (R628) -/

section Bar2
variable {s : State} {x n : Nat} (hin : x + n ≤ 2 ^ s.dev.hif.bar2Log2)
include hin

/-- A read inside the window gives its bytes. -/
theorem exec_bar2Read_inside {d1 : Dev} {bs : Bytes} (h : s.here.bar2Bytes x n = (d1, bs)) :
    exec (.bar2Read x n) s = .next (s.onDev fun _ => d1.emit (.data bs)) := by
  refine congrArg Host.Outcome.next (onDev_eq s _ _ ?_)
  have hw : s.here.inBar2 x n = true := decide_eq_true hin
  rw [hw, h]
  rfl

theorem exec_bar2Write_inside {bs : Bytes} (hlen : bs.length = n) {e : Dev} (h : s.here.bar2Store x bs = e) :
    exec (.bar2Write x bs) s = .next (s.onDev fun _ => e) := by
  refine congrArg Host.Outcome.next (onDev_eq s _ _ ?_)
  have hw : s.here.inBar2 x bs.length = true := decide_eq_true (by rw [hlen]; exact hin)
  rw [hw, if_pos rfl, h]

end Bar2

theorem Dev.bar2Bytes_refused {d d1 : Dev} {x n : Nat} (h : d.bar2Segs 1 x n = (d1, none)) :
    d.bar2Bytes x n = (d1, List.replicate n 0xFF) := by
  unfold Dev.bar2Bytes
  rw [h]
  rfl

theorem Dev.bar2Bytes_lost {d d1 : Dev} {x n o : Nat} {segs : List Seg} (h : d.bar2Segs 1 x n = (d1, some segs))
    (hr : (d1.readSegs segs).2 = some o) : d.bar2Bytes x n = ((d1.readSegs segs).1, List.replicate n 0xFF) := by
  have hr' : d1.readSegs segs = ((d1.readSegs segs).1, some o) := Prod.ext rfl hr
  unfold Dev.bar2Bytes
  rw [h]
  dsimp only
  rw [hr']
  rfl

theorem Dev.bar2Bytes_read {d d1 : Dev} {x n : Nat} {segs : List Seg} (h : d.bar2Segs 1 x n = (d1, some segs))
    (hr : (d1.readSegs segs).2 = none) : d.bar2Bytes x n = ((d1.readSegs segs).1, (d1.readSegs segs).1.segRead segs) := by
  have hr' : d1.readSegs segs = ((d1.readSegs segs).1, none) := Prod.ext rfl hr
  unfold Dev.bar2Bytes
  rw [h]
  dsimp only
  rw [hr']

theorem Dev.bar2Segs_flat {d : Dev} (perm x n : Nat) (h : d.curator = curROM ∨ d.curator = curFATAL) :
    d.bar2Segs perm x n = (d, some [(x, n)]) := by
  have hflat : d.bar2Flat = true := by simpa [Dev.bar2Flat] using h
  unfold Dev.bar2Segs
  rw [hflat]
  rfl

theorem Dev.bar2Store_some {d d1 : Dev} {x : Nat} {bs : Bytes} {segs : List Seg} (h : d.bar2Segs 2 x bs.length = (d1, some segs)) :
    d.bar2Store x bs = d1.storeSegs segs bs := by
  unfold Dev.bar2Store
  rw [h]

theorem Dev.bar2Store_none {d d1 : Dev} {x : Nat} {bs : Bytes} (h : d.bar2Segs 2 x bs.length = (d1, none)) : d.bar2Store x bs = d1 := by
  unfold Dev.bar2Store
  rw [h]

theorem Dev.storeSegs_flat (d : Dev) (x : Nat) (bs : Bytes) : d.storeSegs [(x, bs.length)] bs = d.store x bs := by
  unfold Dev.storeSegs Dev.store segCut
  rw [List.flatMap_cons, List.flatMap_nil, List.append_nil]

theorem onlyParts_hifOut (s : State) (h : HifUnit) (o : List Output) :
    OnlyParts [.hif, .out] s { s with dev := { s.here with hif := h, out := o } } := by
  refine ⟨rfl, rfl, rfl, rfl, fun p _ hp => ?_⟩
  cases p
  case hif | out => simp at hp
  all_goals rfl

/-- Function 0's table lies among the registers. -/
theorem msixTable_fn0 {s : State} {off k : Nat} {v : Reg} {r : RegDef} (hlo : 0x10000 ≤ off) (hhi : off < 0x18000) (ha : off % 4 = 0)
    (hport : portAbsent s.dev.code off = false) (hfind : findReg off = some (r, k)) (hmay : mayWrite .host r.writer = true)
    (hbase : r.base < 0x10010) (heffect : r.base ∉ effectRegs) : exec (.msixTableWrite 0 off v) s =
      .next (s.onDev fun d => (d.wr off (r.flds.foldl (fldWrite v) (d.rd off))).sendPending) := by
  refine congrArg Host.Outcome.next (onDev_congr s _ _ ?_)
  have hwrite : s.here.agentWrite .host off v = s.here.tableWrite r off v := by
    rw [Dev.agentWrite_found (d := s.here) hport hfind hmay, Dev.regEffect_plain heffect (fun h => ?_), if_pos ⟨hlo, hhi⟩]
    exact absurd (Nat.lt_of_le_of_lt h.2 hbase) (by decide)
  unfold Dev.msixTable
  rw [if_neg (not_not_intro ha), if_pos rfl, if_pos ⟨hlo, hhi⟩, hwrite]
  rfl

/-- Settles O16: the tables' writes, the answers to configuration requests, and BAR2 by its translation. -/
theorem hostRequests : Obligations.HostRequests := by
  refine ⟨⟨fun s off v r k hc hlo hhi ha hport hfind hmay _ hbase heffect => msixTable_fn0 hlo hhi ha hport hfind hmay hbase heffect,
    fun s v hc hv hen hmask hpend => ?_⟩, fun s hc => ⟨fun fn rq hp => configRequest_perst hc fn rq hp, fun hp => ⟨fun rq ht => configRequest_retry hc rq hp ht,
      fun fn hfn => ⟨configRequest_served hc hp hfn rfl rfl rfl, configRequest_served hc hp hfn rfl rfl rfl⟩,
      fun ht => ⟨fun on => configRequest_served hc hp (.inl ⟨rfl, ht⟩) rfl rfl rfl, fun n hmem hn28 hn36 => ?_,
        fun d3 => configRequest_served hc hp (.inl ⟨rfl, ht⟩) rfl rfl rfl⟩⟩⟩, fun s x n bs hin hlen => ?_⟩
  · have hrd := fun a => Dev.fn1Rd_fn1Wr s.here (0x1000C + 16 * v) a 0
    have hne : ∀ a, a ≠ 0x1000C + 16 * v → (s.here.fn1Wr (0x1000C + 16 * v) 0).fn1Rd a = s.dev.fn1Rd a := fun a ha => (hrd a).trans (if_neg ha)
    have hsend := Dev.sendPending1_one (d := s.here.fn1Wr (0x1000C + 16 * v) 0) hv hen hmask ((hne _ (by omega)).trans hpend)
      ((hrd _).trans (if_pos rfl))
    rw [hne _ (by omega), hne _ (by omega), hne _ (by omega)] at hsend
    have htable : s.here.msixTable 1 (0x1000C + 16 * v) 0 = (s.here.fn1Wr (0x1000C + 16 * v) 0).sendPending1 := by
      have hmod : (0x1000C + 16 * v) % 16 = 12 := by omega
      unfold Dev.msixTable
      rw [if_neg (by omega), if_neg (by decide), if_pos (by omega), hmod]
      rfl
    refine ⟨_, congrArg Host.Outcome.next (onDev_quiet hc (htable.trans hsend) rfl rfl), rfl, ?_, onlyParts_hifOut s _ _⟩
    exact (Dev.fn1Rd_fn1Wr _ 0x18000 0x18000 0).trans (if_pos rfl)
  · exact configRequest_served hc hp (.inl ⟨rfl, ht⟩) (if_pos ⟨rfl, hmem, hn28, hn36⟩) rfl rfl
  · refine ⟨fun hcur => ⟨fun hok => ?_, ?_⟩, fun d1 h => exec_bar2Read_inside hin (Dev.bar2Bytes_refused h),
      fun d1 segs o h ho => exec_bar2Read_inside hin (Dev.bar2Bytes_lost h ho), fun d1 segs h ho => exec_bar2Read_inside hin (Dev.bar2Bytes_read h ho),
      fun d1 h => exec_bar2Write_inside hin hlen (Dev.bar2Store_none (hlen ▸ h)), fun d1 segs h => exec_bar2Write_inside hin hlen (Dev.bar2Store_some (hlen ▸ h))⟩
    · exact (exec_bar2Read_inside hin (Dev.bar2Bytes_read (Dev.bar2Segs_flat (d := s.here) 1 x n hcur) hok)).trans
        (congrArg Host.Outcome.next (onDev_congr s _ _ rfl))
    · exact (exec_bar2Write_inside hin hlen ((Dev.bar2Store_some (Dev.bar2Segs_flat (d := s.here) 2 x bs.length hcur)).trans
        (Dev.storeSegs_flat _ _ _))).trans (congrArg Host.Outcome.next (onDev_congr s _ _ rfl))

/-! ## The debug access port (R617, R619): a counterexample

A debug read frees bit 4 (DRAINING) of `MXA.STATE` while its array has a stream in progress, and no rule counts it
among the reserved bits. -/

/-- The offset of `MXA.STATE` of array 0 of tile 0. -/
def arrayState : Nat := 0x1002000

/-- A tile whose array 0 has a stream in progress. -/
def streamingTile : Tile :=
  (tileDflt 0).setArr 0 { arrDflt 0 with
    cur := [⟨⟨0, 0, false, 0, 0, 0, false, 0, 0, 0, 0, 0, 0, 0, 0, []⟩, [], [], [], false, 0, none, ⟨0, false, [], []⟩⟩] }

/-- At debug level OBSERVE, with JTAG at DBG: the streaming tile, whose DRAINING bit stands as `b`. -/
def streaming (b : Bool) : State :=
  { State.reset with dev := { Dev.reset with
      hif.jtag.ir := 0x10, tiles := [(0, streamingTile)], regs := [(CSV.DBG_STATE.LEVEL.off, 1), (arrayState, if b then 0x10 else 0)] } }

theorem regPuts_getLsbD (fs : List (FRef × Nat)) {i : Nat} (hi : i < 32) (h : ∀ f ∈ fs, f.1.lo ≤ f.1.hi + 1 ∧ ¬ (f.1.lo ≤ i ∧ i ≤ f.1.hi)) :
    ∀ w, (regPuts w fs).getLsbD i = w.getLsbD i := by
  induction fs with
  | nil => exact fun w => rfl
  | cons f fs ih =>
    obtain ⟨hord, hout⟩ := h f (by simp)
    intro w
    refine (ih (fun g hg => h g (by simp [hg])) _).trans ?_
    rw [withField_getLsbD _ _ _ _ _ hord, if_neg hout]
    simp [hi]

theorem Dev.arrReg_draining (d : Dev) (t p : Nat) (w : Reg) : (d.arrReg t p w).getLsbD 4 = w.getLsbD 4 :=
  regPuts_getLsbD _ (by decide) (by simp [MXA.STATE.FAILED, MXA.STATE.MAPPED, MXA.STATE.LOGICAL]) w

theorem Dev.computed_arrayState (d : Dev) {r : RegDef} (h : r.base = arrayState) (w : Reg) : d.computed r arrayState w = d.arrReg 0 0 w := by
  unfold Dev.computed
  rw [h]
  rfl

theorem rsvBits_arrayState : (rsvBits arrayState).testBit 4 = false := by decide

theorem partAbsent_arrayState (c : OrderingCode) : partAbsent c arrayState = false := by
  cases c <;> decide

theorem findReg_arrayState : ∃ r k, findReg arrayState = some (r, k) ∧ r.base = arrayState :=
  ⟨_, _, rfl, rfl⟩

theorem streaming_drainBit (b : Bool) : (streaming b).here.drainBit arrayState = 16 := by
  obtain ⟨r, k, hr, hbase⟩ := findReg_arrayState
  unfold Dev.drainBit
  rw [hr]
  dsimp only
  rw [hbase]
  exact if_pos ⟨rfl, rfl⟩

theorem streaming_regView (b : Bool) : ((streaming b).here.regView arrayState).getLsbD 4 = b := by
  obtain ⟨r, k, hr, hbase⟩ := findReg_arrayState
  unfold Dev.regView
  rw [partAbsent_arrayState, hr, if_neg (by decide)]
  dsimp only
  rw [Dev.computed_arrayState _ hbase, Dev.arrReg_draining]
  cases b <;> rfl

/-- The bit that the read gives. -/
theorem streaming_read (b : Bool) : ((streaming b).here.regPeek arrayState).2.getLsbD 4 = (Config.free 0).testBit 4 := by
  have hmask : (rsvBits arrayState ||| 16).testBit 4 = true := by decide
  show ((streaming b).here.withRsv arrayState ((streaming b).here.regView arrayState)).2.getLsbD 4 = _
  unfold Dev.withRsv
  rw [streaming_drainBit, partAbsent_arrayState]
  dsimp only
  rw [if_neg (by decide)]
  refine (ofNat_masked_getLsbD _ _ _ _ (by decide) (by decide)).trans ?_
  rw [hmask]
  rfl

theorem streaming_exec (b : Bool) : ∃ u, exec (.debugPortRead arrayState) (streaming b) = .next u ∧
    u.dev.out = [.reg ((streaming b).here.regPeek arrayState).2] := by
  have hc : Calm (streaming b) := ⟨rfl, rfl⟩
  have hsel : (streaming b).here.dbgSelected = true := rfl
  have hlvl : ¬ (streaming b).here.dbgLevel < 1 := by cases b <;> decide
  obtain ⟨n, hn⟩ := Dev.withRsv_dev (streaming b).here arrayState ((streaming b).here.regView arrayState)
  refine ⟨_, congrArg Host.Outcome.next (onDev_quiet hc (e := { (streaming b).here with
    draws := n, out := [.reg ((streaming b).here.regPeek arrayState).2] }) ?_ rfl rfl), rfl⟩
  dsimp only
  rw [hsel, if_neg (by decide), if_neg hlvl]
  have hemit : ∀ x : Dev × Reg, x.1 = { (streaming b).here with draws := n } →
      (match x with | (d, v) => d.emit (.reg v)) = { (streaming b).here with draws := n, out := [.reg x.2] } := by
    rintro ⟨d, v⟩ rfl
    rfl
  exact hemit ((streaming b).here.regPeek arrayState) hn

/-- Refutes O17: of `MXA.STATE` of an array with a stream in progress, bit 4 reads as a free value. -/
theorem not_debugPort : ¬ Obligations.DebugPort := by
  intro h
  let b := !(Config.free 0).testBit 4
  obtain ⟨u, hu, hout⟩ := streaming_exec b
  obtain ⟨_, hread, _⟩ := h (streaming b) ⟨rfl, rfl⟩ rfl
  obtain ⟨v, t, ht, htout, _, hbits⟩ := hread arrayState (by cases b <;> decide)
  have hut : u = t := by
    have := hu.symm.trans ht
    injection this
  have hv : v = ((streaming b).here.regPeek arrayState).2 := by
    rw [hut, htout] at hout
    injection hout with h1
    injection h1
  have hbit := hbits 4 rsvBits_arrayState (by decide)
  have hview : ((streaming b).here.regView arrayState).getLsbD 4 = b := streaming_regView b
  rw [hv, streaming_read] at hbit
  have := hbit.trans hview
  simp [b] at this

end Sys2Proof.Machine
end


section
/-! PROOFS. The mailbox (R70 to R73, R87), completion and event records (R46 to R48, R76). -/

namespace Sys2Proof.Machine

/-! ## The mailbox -/

/-- The mailbox as a post leaves it: the result PENDING, its data 0. -/
def Dev.mboxCleared (d : Dev) : Dev :=
  (((d.set CMD.MBOX_RESULT.STATUS 1).set CMD.MBOX_DATA0.VALUE 0).set CMD.MBOX_DATA1.VALUE 0).each (List.range 8) fun d i => d.set (CMD.MBOX_DATA.VALUE i) 0

theorem Dev.set_noRegs (d : Dev) (f : FRef) (v : Nat) : (d.set f v).noRegs = d.noRegs := rfl

/-- A fold commutes with a change that each of its steps commutes with. -/
theorem Dev.each_commutes {α : Type} (p : Dev → Dev) (g : Dev → α → Dev) (hg : ∀ d x, p (g d x) = g (p d) x) (xs : List α) :
    ∀ d : Dev, p (d.each xs g) = (p d).each xs g := by
  induction xs with
  | nil => exact fun d => rfl
  | cons x xs ih => exact fun d => (ih (g d x)).trans (congrArg (fun e : Dev => e.each xs g) (hg d x))

def Dev.withNow (n : Nat) (d : Dev) : Dev := { d with now := n }

theorem Dev.withNow_set (n : Nat) (d : Dev) (f : FRef) (v : Nat) : (d.set f v).withNow n = (d.withNow n).set f v := rfl

theorem Dev.withNow_curator (n : Nat) (d : Dev) : (d.withNow n).curator = d.curator := rfl

theorem onlyParts_noRegs {s : State} {e : Dev} (n : Nat) (h : e.noRegs = (s.dev.withNow n).noRegs) : OnlyParts [.regs] s { s with dev := e } := by
  have hcode : e.noRegs.code = (s.dev.withNow n).noRegs.code := by rw [h]
  refine ⟨rfl, rfl, rfl, hcode, fun p _ hp => ?_⟩
  rw [Dev.eq_withRegs h]
  cases p
  case regs => simp at hp
  all_goals rfl

theorem Dev.mboxCleared_noRegs (d : Dev) : d.mboxCleared.noRegs = d.noRegs := by
  unfold Dev.mboxCleared
  rw [Dev.each_keep Dev.noRegs _ (fun d i => Dev.set_noRegs d _ _), Dev.set_noRegs, Dev.set_noRegs, Dev.set_noRegs]

theorem Dev.each_set_withNow {α : Type} (n : Nat) (f : α → FRef) (v : α → Nat) (xs : List α) (d : Dev) :
    (d.withNow n).each xs (fun d i => d.set (f i) (v i)) = (d.each xs fun d i => d.set (f i) (v i)).withNow n :=
  (Dev.each_commutes (Dev.withNow n) (fun d i => d.set (f i) (v i)) (fun _ _ => rfl) xs d).symm

theorem Dev.mboxCleared_now (d : Dev) (n : Nat) : (d.withNow n).mboxCleared = d.mboxCleared.withNow n := by
  unfold Dev.mboxCleared
  rw [← Dev.withNow_set, ← Dev.withNow_set, ← Dev.withNow_set, Dev.each_set_withNow]

theorem Dev.mboxCleared_rd (d : Dev) {a : Nat} (hres : a ≠ CMD.MBOX_RESULT.REG.off) (h0 : a ≠ CMD.MBOX_DATA0.REG.off) (h1 : a ≠ CMD.MBOX_DATA1.REG.off)
    (hdata : ∀ i < 8, a ≠ (CMD.MBOX_DATA.REG i).off) : d.mboxCleared.rd a = d.rd a := by
  refine (Dev.each_keep_mem (·.rd a) (fun d i => d.set (CMD.MBOX_DATA.VALUE i) 0) (List.range 8)
    (fun d i hi => Dev.rd_set_ne _ _ _ _ (hdata i (List.mem_range.mp hi))) _).trans ?_
  exact ((Dev.rd_set_ne _ _ _ _ h1).trans (Dev.rd_set_ne _ _ _ _ h0)).trans (Dev.rd_set_ne _ _ _ _ hres)

/-- The registers before the eight data words keep what the post set in them. -/
theorem Dev.mboxCleared_get (d : Dev) (f : FRef) (h : f.off < 0x100050) :
    d.mboxCleared.get f = (((d.set CMD.MBOX_RESULT.STATUS 1).set CMD.MBOX_DATA0.VALUE 0).set CMD.MBOX_DATA1.VALUE 0).get f :=
  Dev.each_keep (·.get f) (fun d i => d.set (CMD.MBOX_DATA.VALUE i) 0)
    (fun d i => Dev.get_congr f (Dev.rd_set_ne _ _ _ _ (by simp only [CMD.MBOX_DATA.VALUE]; omega))) _ _

/-- Words set one after another to 0 all read 0. -/
theorem Dev.get_each_zero (f : Nat → FRef) (hf : ∀ i, (f i).hi = 31 ∧ (f i).lo = 0) (hoff : ∀ i j, (f i).off = (f j).off → i = j) (xs : List Nat) {i : Nat}
    (hi : i ∈ xs) (d : Dev) : (d.each xs fun d i => d.set (f i) 0).get (f i) = 0 := by
  have hord : ∀ j, (f j).hi < 32 ∧ (f j).lo ≤ (f j).hi + 1 := fun j => by
    obtain ⟨h1, h2⟩ := hf j
    omega
  have hkeep : ∀ (ys : List Nat) (e : Dev), e.get (f i) = 0 → (e.each ys fun d i => d.set (f i) 0).get (f i) = 0 := by
    intro ys
    induction ys with
    | nil => exact fun e h => h
    | cons y ys ih =>
      refine fun e h => ih _ ?_
      by_cases hy : y = i
      · rw [hy, Dev.get_set_same _ _ _ (hord i).1 (hord i).2, Nat.zero_mod]
      · rw [Dev.get_set_ne _ _ _ _ (hord y).2 (fun heq => absurd (hoff _ _ heq).symm hy), h]
  induction xs generalizing d with
  | nil => cases hi
  | cons x xs ih =>
    rcases List.mem_cons.mp hi with rfl | hmem
    · exact hkeep xs _ (by rw [Dev.get_set_same _ _ _ (hord _).1 (hord _).2, Nat.zero_mod])
    · exact ih hmem _

theorem Dev.mboxCleared_data (d : Dev) {i : Nat} (hi : i < 8) : d.mboxCleared.get (CMD.MBOX_DATA.VALUE i) = 0 :=
  Dev.get_each_zero CMD.MBOX_DATA.VALUE (fun _ => ⟨rfl, rfl⟩) (fun i j h => by simp only [CMD.MBOX_DATA.VALUE] at h; omega) _ (List.mem_range.mpr hi) _

theorem Dev.mboxCleared_result (d : Dev) : d.mboxCleared.get CMD.MBOX_RESULT.STATUS = 1 ∧ d.mboxCleared.get CMD.MBOX_DATA0.VALUE = 0 ∧
    d.mboxCleared.get CMD.MBOX_DATA1.VALUE = 0 := by
  refine ⟨?_, ?_, ?_⟩
  · rw [Dev.mboxCleared_get _ _ (by decide), Dev.get_set_ne _ _ _ _ (by decide) (by decide), Dev.get_set_ne _ _ _ _ (by decide) (by decide),
      Dev.get_set_same _ _ _ (by decide) (by decide)]
    rfl
  · rw [Dev.mboxCleared_get _ _ (by decide), Dev.get_set_ne _ _ _ _ (by decide) (by decide), Dev.get_set_same _ _ _ (by decide) (by decide)]
    rfl
  · rw [Dev.mboxCleared_get _ _ (by decide), Dev.get_set_same _ _ _ (by decide) (by decide)]
    rfl

theorem Dev.mboxCleared_curator (d : Dev) : d.mboxCleared.curator = d.curator :=
  Dev.get_congr CMD.CURATOR_STATE.STATE (d.mboxCleared_rd (by decide) (by decide) (by decide) (by decide))

/-- A post by the state it meets: held in LOADING and REHANG, served in the others. -/
theorem Dev.mboxPost_eq (d : Dev) (opc : Nat) (args : Bytes) : d.mboxPost opc args =
    if d.curator = curLOADING ∨ d.curator = curREHANG then { d.mboxCleared with cmd.mbox := some ⟨opc, args, true⟩ }
    else d.mboxCleared.mboxServe ⟨opc, args, false⟩ := by
  have hpost : d.mboxPost opc args = (let held := d.mboxCleared.curator == curLOADING || d.mboxCleared.curator == curREHANG
      if held then { d.mboxCleared with cmd.mbox := some ⟨opc, args, held⟩ } else d.mboxCleared.mboxServe ⟨opc, args, held⟩) := by
    unfold Dev.mboxPost Dev.mboxCleared
    rfl
  rw [hpost, Dev.mboxCleared_curator]
  by_cases h : d.curator = curLOADING ∨ d.curator = curREHANG
  · have hb : (d.curator == curLOADING || d.curator == curREHANG) = true := by simpa using h
    simp only [hb, if_pos h, if_true]
  · have hb : (d.curator == curLOADING || d.curator == curREHANG) = false := by simpa using h
    simp only [hb, if_neg h, if_neg Bool.false_ne_true]

theorem Dev.mboxServe_allowed {d : Dev} {m : MboxCmd} (h : mboxAllows d.curator m.opcode = true) : d.mboxServe m =
    { d with cmd.mbox := some { m with held := false },
             cmd.inflight := d.cmd.inflight ++ [⟨mboxOrigin, m.opcode, m.args, 0, [], .ready, none, d.now⟩] } := by
  rw [Dev.mboxServe, h]
  rfl

theorem Dev.mboxServe_refused {d : Dev} {m : MboxCmd} (h : mboxAllows d.curator m.opcode = false) : d.mboxServe m =
    d.mboxResult (errR (if d.curator = curRUNNING ∧ opcodeKnown m.opcode = false then 0x0101 else 0x0105)) := by
  rw [Dev.mboxServe, h]
  simp

theorem mbox_pending_iff {d : Dev} : d.mboxPending = true ↔ d.get CMD.MBOX_RESULT.STATUS = 1 := by simp [Dev.mboxPending]

theorem mboxLatched_arg {i : Nat} (hi : i < 12) : mboxLatched (CMD.MBOX_ARG.REG i).off = true := by
  simp [mboxLatched, CMD.MBOX_ARG.REG]
  omega

/-- A latched register's write. -/
theorem Dev.mboxWrite_latched {d : Dev} {off : Nat} (v : Reg) (hl : mboxLatched off = true) (hf : off ≠ CMD.MBOX_FLAGS.REG.off) : d.mboxWrite off v =
    if d.get CMD.MBOX_RESULT.STATUS = 1 then d.set CMD.MBOX_FLAGS.DROPPED 1
    else d.wr off (if off = CMD.MBOX_OPCODE.REG.off then BitVec.ofNat 32 (bits v.toNat 15 0) else v) := by
  rw [Dev.mboxWrite, if_neg hf, hl]
  by_cases hp : d.get CMD.MBOX_RESULT.STATUS = 1
  · rw [if_pos hp, mbox_pending_iff.mpr hp]; rfl
  · rw [if_neg hp, Bool.eq_false_iff.mpr (mt mbox_pending_iff.mp hp)]; rfl

theorem ofNat_low_sixteen (v : Reg) : BitVec.ofNat 32 (bits v.toNat 15 0) = v &&& 0xFFFF := by
  refine BitVec.eq_of_toNat_eq ?_
  rw [BitVec.toNat_ofNat, BitVec.toNat_and]
  have hmask : (0xFFFF : Reg).toNat = 2 ^ 16 - 1 := rfl
  rw [hmask, Nat.and_two_pow_sub_one_eq_mod]
  simp only [bits]
  omega

/-- A held command is served in the states that serve. -/
theorem Dev.mboxHeldServe_serves {s : State} {m : MboxCmd} (hm : s.dev.cmd.mbox = some m) (hheld : m.held = true) (hl : s.dev.curator ≠ curLOADING)
    (hr : s.dev.curator ≠ curREHANG) : s.here.mboxHeldServe = s.here.mboxServe m := by
  have hgo : (m.held && s.dev.curator != curLOADING && s.dev.curator != curREHANG) = true := by simp [hheld, hl, hr]
  rw [Dev.mboxHeldServe, State.here_cmd, hm]
  dsimp only
  rw [State.here_curator, hgo]
  rfl

/-- The doorbell's post by what it finds (R71, R72): the latched command and the cleared mailbox. -/
theorem mboxDoorbell_posts {s : State} {v : Reg} (hv : v.getLsbD 0 = true) (hp : s.dev.get CMD.MBOX_RESULT.STATUS ≠ 1) :
    ∃ (d1 : Dev) (m : MboxCmd), m.opcode = s.dev.get CMD.MBOX_OPCODE.OPCODE ∧
        m.args = (List.range 12).flatMap (fun i => leBytes 4 (s.dev.get (CMD.MBOX_ARG.VALUE i))) ∧ OnlyParts [.regs] s { s with dev := d1 } ∧
        d1.get CMD.MBOX_RESULT.STATUS = 1 ∧ d1.get CMD.MBOX_DATA0.VALUE = 0 ∧ d1.get CMD.MBOX_DATA1.VALUE = 0 ∧
        (∀ i < 8, d1.get (CMD.MBOX_DATA.VALUE i) = 0) ∧
        (∀ off, off ≠ CMD.MBOX_RESULT.REG.off → off ≠ CMD.MBOX_DATA0.REG.off → off ≠ CMD.MBOX_DATA1.REG.off → (∀ i < 8, off ≠ (CMD.MBOX_DATA.REG i).off) →
          d1.rd off = s.dev.rd off) ∧
        (s.dev.curator = curLOADING ∨ s.dev.curator = curREHANG → m.held = true ∧
          exec (.mboxDoorbell v) s = .next (s.onDev fun d => { d1 with now := d.now, cmd.mbox := some m })) ∧
        (s.dev.curator ≠ curLOADING → s.dev.curator ≠ curREHANG → m.held = false ∧
          (mboxAllows s.dev.curator m.opcode = true → exec (.mboxDoorbell v) s = .next (s.onDev fun d => { d1 with
            now := d.now, cmd.mbox := some m, cmd.inflight := d1.cmd.inflight ++ [⟨mboxOrigin, m.opcode, m.args, 0, [], .ready, none, d.now⟩] })) ∧
          (mboxAllows s.dev.curator m.opcode = false → exec (.mboxDoorbell v) s = .next (s.onDev fun d =>
            { d1 with now := d.now }.mboxResult (errR (if s.dev.curator = curRUNNING ∧ opcodeKnown m.opcode = false then 0x0101 else 0x0105))))) := by
  have hhere : s.here.mboxCleared = s.dev.mboxCleared.withNow s.clock.ns := Dev.mboxCleared_now s.dev s.clock.ns
  have hgo : s.here.mboxDoorbell v = s.here.mboxPost (s.dev.get CMD.MBOX_OPCODE.OPCODE) ((List.range 12).flatMap fun i => leBytes 4 (s.dev.get (CMD.MBOX_ARG.VALUE i))) := by
    have hno : ¬ s.here.mboxPending = true := mt mbox_pending_iff.mp hp
    have hset : ¬ (!bit v.toNat 0) = true := fun h => by
      rw [show bit v.toNat 0 = true from hv] at h
      cases h
    rw [Dev.mboxDoorbell, if_neg hno, if_neg hset]
    rfl
  rw [Dev.mboxPost_eq, hhere, State.here_curator] at hgo
  have hparts : OnlyParts [.regs] s { s with dev := s.dev.mboxCleared } := onlyParts_noRegs s.dev.now (Dev.mboxCleared_noRegs s.dev)
  obtain ⟨hstatus, hdata0, hdata1⟩ := s.dev.mboxCleared_result
  have hdata : ∀ i < 8, s.dev.mboxCleared.get (CMD.MBOX_DATA.VALUE i) = 0 := fun i hi => Dev.mboxCleared_data _ hi
  have hrd : ∀ off, off ≠ CMD.MBOX_RESULT.REG.off → off ≠ CMD.MBOX_DATA0.REG.off → off ≠ CMD.MBOX_DATA1.REG.off →
      (∀ i < 8, off ≠ (CMD.MBOX_DATA.REG i).off) → s.dev.mboxCleared.rd off = s.dev.rd off :=
    fun off => Dev.mboxCleared_rd s.dev
  have hsame : (s.dev.mboxCleared.withNow s.clock.ns).curator = s.dev.curator :=
    (Dev.withNow_curator _ _).trans (Dev.mboxCleared_curator s.dev)
  obtain ⟨d1, hd1⟩ : ∃ d1, d1 = s.dev.mboxCleared := ⟨_, rfl⟩
  rw [← hd1] at hgo hparts hstatus hdata0 hdata1 hsame
  simp only [← hd1] at hdata hrd
  generalize (List.range 12).flatMap (fun i => leBytes 4 (s.dev.get (CMD.MBOX_ARG.VALUE i))) = args at hgo ⊢
  generalize s.dev.get CMD.MBOX_OPCODE.OPCODE = opc at hgo ⊢
  by_cases hcur : s.dev.curator = curLOADING ∨ s.dev.curator = curREHANG
  · have hheld := hgo.trans (if_pos hcur)
    refine ⟨d1, ⟨opc, args, true⟩, rfl, rfl, hparts, hstatus, hdata0, hdata1, hdata, hrd, fun _ => ⟨rfl, ?_⟩, fun hl hr => ?_⟩
    · have heff : s.here.mboxDoorbell v =
          (fun d : Dev => { d1 with now := d.now, cmd.mbox := some ⟨opc, args, true⟩ }) s.here := hheld.trans rfl
      exact congrArg Host.Outcome.next (onDev_congr s _ _ heff)
    · exact absurd hcur (not_or.mpr ⟨hl, hr⟩)
  · have hserve := hgo.trans (if_neg hcur)
    refine ⟨d1, ⟨opc, args, false⟩, rfl, rfl, hparts, hstatus, hdata0, hdata1, hdata, hrd, fun h => absurd h hcur, fun _ _ => ⟨rfl, fun hallow => ?_, fun hallow => ?_⟩⟩
    · have heff : s.here.mboxDoorbell v =
          (fun d : Dev => { d1 with
            now := d.now, cmd.mbox := some ⟨opc, args, false⟩,
            cmd.inflight := d1.cmd.inflight ++ [⟨mboxOrigin, opc, args, 0, [], .ready, none, d.now⟩] }) s.here :=
        (hserve.trans (Dev.mboxServe_allowed (hsame ▸ hallow))).trans rfl
      exact congrArg Host.Outcome.next (onDev_congr s _ _ heff)
    · refine congrArg Host.Outcome.next (onDev_congr s _ _ ((hserve.trans (Dev.mboxServe_refused (hsame ▸ hallow))).trans ?_))
      rw [hsame]
      rfl

/-- A field of one bit. -/
theorem Dev.flag_eq_getLsbD (d : Dev) (f : FRef) (h : f.hi = f.lo) : d.flag f = (d.rd f.off).getLsbD f.lo := by
  have hbit : (d.get f).testBit 0 = (d.rd f.off).getLsbD f.lo := by
    rw [Dev.get, fieldOf_testBit, h]
    simp
  have hlt : d.get f < 2 := by
    simp only [Dev.get, fieldOf, bits, h]
    rw [Nat.add_sub_cancel_left]
    omega
  rw [← hbit, Dev.flag]
  rcases (by omega : d.get f = 0 ∨ d.get f = 1) with h0 | h1
  · rw [h0]; rfl
  · rw [h1]; rfl

/-- A write of FLAGS (R71). -/
theorem mboxFlags_written {s : State} (hc : Calm s) (v : Reg) : ∃ t, exec (.mboxRegisterWrite CMD.MBOX_FLAGS.REG.off v) s = .next t ∧
    OnlyParts [.regs] s t ∧ OnlyFields [CMD.MBOX_FLAGS.IRQ_EN, CMD.MBOX_FLAGS.DROPPED] s t ∧ t.dev.flag CMD.MBOX_FLAGS.IRQ_EN = v.getLsbD 1 ∧
    t.dev.flag CMD.MBOX_FLAGS.DROPPED = (s.dev.flag CMD.MBOX_FLAGS.DROPPED && !v.getLsbD 0) := by
  have hflag : ∀ d : Dev, d.flag CMD.MBOX_FLAGS.IRQ_EN = (d.rd 0x100004).getLsbD 1 ∧ d.flag CMD.MBOX_FLAGS.DROPPED = (d.rd 0x100004).getLsbD 0 :=
    fun d => ⟨Dev.flag_eq_getLsbD d CMD.MBOX_FLAGS.IRQ_EN rfl, Dev.flag_eq_getLsbD d CMD.MBOX_FLAGS.DROPPED rfl⟩
  have hirq : (bits v.toNat 1 1).testBit 0 = v.getLsbD 1 := bits_testBit v.toNat 1 1 0
  have hset : ∀ (d : Dev) off i, (off = CMD.MBOX_FLAGS.IRQ_EN.off → ¬ (1 ≤ i ∧ i ≤ 1)) →
      ((d.set CMD.MBOX_FLAGS.IRQ_EN (bits v.toNat 1 1)).rd off).getLsbD i = (d.rd off).getLsbD i := fun d off i h => Dev.rd_set_bit d _ _ off i (by decide) h
  have hset1 : ∀ d : Dev, ((d.set CMD.MBOX_FLAGS.IRQ_EN (bits v.toNat 1 1)).rd 0x100004).getLsbD 1 = v.getLsbD 1 := fun d => by
    rw [Dev.rd_set, if_pos (show 0x100004 = CMD.MBOX_FLAGS.IRQ_EN.off from rfl), withField_getLsbD _ _ _ _ _ (by decide)]
    exact hirq
  cases hv : v.getLsbD 0 with
  | false =>
    have heff : s.here.mboxWrite CMD.MBOX_FLAGS.REG.off v = s.here.set CMD.MBOX_FLAGS.IRQ_EN (bits v.toNat 1 1) := by
      rw [Dev.mboxWrite, if_pos rfl, show bit v.toNat 0 = false from hv]
      rfl
    refine ⟨_, congrArg Host.Outcome.next (onDev_quiet hc heff rfl rfl), onlyParts_set _ _ _, fun off i h => hset _ off i ?_, ?_, ?_⟩
    · exact fun ho => h CMD.MBOX_FLAGS.IRQ_EN List.mem_cons_self ho.symm
    · exact ((hflag _).1).trans (hset1 _)
    · rw [(hflag _).2, (hflag _).2, Bool.not_false, Bool.and_true]
      exact hset s.here _ 0 (fun _ => by decide)
  | true =>
    have heff : s.here.mboxWrite CMD.MBOX_FLAGS.REG.off v = (s.here.set CMD.MBOX_FLAGS.IRQ_EN (bits v.toNat 1 1)).set CMD.MBOX_FLAGS.DROPPED 0 := by
      rw [Dev.mboxWrite, if_pos rfl, show bit v.toNat 0 = true from hv]
      rfl
    have hdrop : ∀ (d : Dev) off i, (off = CMD.MBOX_FLAGS.DROPPED.off → ¬ (0 ≤ i ∧ i ≤ 0)) →
        ((d.set CMD.MBOX_FLAGS.DROPPED 0).rd off).getLsbD i = (d.rd off).getLsbD i := fun d off i h => Dev.rd_set_bit d _ _ off i (by decide) h
    refine ⟨_, congrArg Host.Outcome.next (onDev_quiet hc heff rfl rfl), onlyParts_noRegs s.clock.ns rfl, fun off i h => ?_, ?_, ?_⟩
    · refine (hdrop _ off i fun ho => h CMD.MBOX_FLAGS.DROPPED (by simp) ho.symm).trans (hset _ off i ?_)
      exact fun ho => h CMD.MBOX_FLAGS.IRQ_EN List.mem_cons_self ho.symm
    · exact ((hflag _).1).trans ((hdrop _ _ 1 (fun _ => by decide)).trans (hset1 _))
    · rw [(hflag _).2, Bool.not_true, Bool.and_false, Dev.rd_set, if_pos (show 0x100004 = CMD.MBOX_FLAGS.DROPPED.off from rfl),
        withField_getLsbD _ _ _ _ _ (by decide)]
      rfl

/-- Settles O18: the writes of the mailbox registers, the doorbell by the curator's state, and a held command. -/
theorem mailbox : Obligations.Mailbox := by
  refine ⟨fun s hc => ⟨fun v hp => ?_, fun v i hi hp => ?_, fun v off hp hoff => ?_, fun v => ?_⟩, fun s v hv => ⟨fun hp => ?_, fun hp => ?_⟩,
    fun s m hm hheld => ⟨fun hcur => ?_, fun hl hr hallow => ?_, fun hl hr hallow => ?_⟩⟩
  · refine congrArg Host.Outcome.next (onDev_quiet hc ?_ rfl rfl)
    rw [Dev.mboxWrite_latched v (by decide) (by decide), State.here_get, if_neg hp, if_pos rfl, ofNat_low_sixteen]
  · refine congrArg Host.Outcome.next (onDev_quiet hc ?_ rfl rfl)
    have hne : (CMD.MBOX_ARG.REG i).off ≠ CMD.MBOX_OPCODE.REG.off := by simp [CMD.MBOX_ARG.REG, CMD.MBOX_OPCODE.REG]; omega
    rw [Dev.mboxWrite_latched v (mboxLatched_arg hi) (by simp [CMD.MBOX_ARG.REG, CMD.MBOX_FLAGS.REG]; omega), State.here_get, if_neg hp, if_neg hne]
  · refine congrArg Host.Outcome.next (onDev_quiet hc ?_ rfl rfl)
    have hlatched : mboxLatched off = true ∧ off ≠ CMD.MBOX_FLAGS.REG.off := by
      rcases hoff with rfl | ⟨i, hi, rfl⟩
      · exact ⟨by decide, by decide⟩
      · exact ⟨mboxLatched_arg hi, by simp [CMD.MBOX_ARG.REG, CMD.MBOX_FLAGS.REG]; omega⟩
    rw [Dev.mboxWrite_latched v hlatched.1 hlatched.2, State.here_get, if_pos hp]
  · exact mboxFlags_written hc v
  · refine congrArg Host.Outcome.next (onDev_congr s _ _ ?_)
    exact if_pos (mbox_pending_iff.mpr hp)
  · exact mboxDoorbell_posts hv hp
  · refine congrArg Host.Outcome.next (onDev_congr s _ _ ?_)
    have hno : (m.held && s.dev.curator != curLOADING && s.dev.curator != curREHANG) = false := by
      rcases hcur with h | h <;> simp [h]
    show s.here.mboxHeldServe = s.here
    rw [Dev.mboxHeldServe, State.here_cmd, hm]
    dsimp only
    rw [State.here_curator, hno]
    rfl
  · refine congrArg Host.Outcome.next (onDev_congr s _ _ ((Dev.mboxHeldServe_serves hm hheld hl hr).trans (Dev.mboxServe_allowed hallow)))
  · refine congrArg Host.Outcome.next (onDev_congr s _ _ ((Dev.mboxHeldServe_serves hm hheld hl hr).trans (Dev.mboxServe_refused hallow)))

/-! ## Records on rings in host memory (R46 to R48) -/

theorem Dev.noteFull_rd (d : Dev) (r a : Nat) : (d.noteFull r).rd a = d.rd a := rfl

theorem Dev.noteFull_get (d : Dev) (r : Nat) (f : FRef) : (d.noteFull r).get f = d.get f := rfl

theorem Dev.hostEntry_get (d : Dev) (a : Nat) (bs : Bytes) (f : FRef) : (d.hostEntry a bs).get f = d.get f := rfl

theorem tailIndex_field (r : Nat) : (QSU.RING_TAIL.INDEX r).hi = 19 ∧ (QSU.RING_TAIL.INDEX r).lo = 0 := ⟨rfl, rfl⟩
theorem tailLap_field (r : Nat) : (QSU.RING_TAIL.LAP r).hi = 20 ∧ (QSU.RING_TAIL.LAP r).lo = 20 := ⟨rfl, rfl⟩
theorem tailIndex_off (r : Nat) : (QSU.RING_TAIL.INDEX r).off = (QSU.RING_TAIL.REG r).off := rfl
theorem tailLap_off (r : Nat) : (QSU.RING_TAIL.LAP r).off = (QSU.RING_TAIL.REG r).off := rfl

/-- The tail as it is set. -/
theorem Dev.setTail_tail (d : Dev) (r p : Nat) : (d.setTail r p).get (QSU.RING_TAIL.INDEX r) = p % d.ringCount r % 2 ^ 20 ∧
    (d.setTail r p).get (QSU.RING_TAIL.LAP r) = p / d.ringCount r % 2 % 2 := by
  obtain ⟨hih, hil⟩ := tailIndex_field r
  obtain ⟨hlh, hll⟩ := tailLap_field r
  unfold Dev.setTail
  dsimp only
  refine ⟨?_, ?_⟩
  · rw [Dev.noteFull_get, Dev.get_set_same _ _ _ (by omega) (by omega), hih, hil]
  · rw [Dev.noteFull_get, Dev.get_set_ne _ _ _ _ (by omega) (fun _ => by omega), Dev.get_set_same _ _ _ (by omega) (by omega), hlh, hll,
      Nat.add_sub_cancel_left, Nat.pow_one]

/-- One entry on, short of the ring's end: the index moves on and the lap stays. -/
theorem Dev.tailOn_tail {d : Dev} {r : Nat} (hcount : d.ringCount r ≤ 2 ^ 20) (h : d.get (QSU.RING_TAIL.INDEX r) + 1 < d.ringCount r) :
    (d.tailOn r).get (QSU.RING_TAIL.INDEX r) = d.get (QSU.RING_TAIL.INDEX r) + 1 ∧
    (d.tailOn r).get (QSU.RING_TAIL.LAP r) = d.get (QSU.RING_TAIL.LAP r) := by
  obtain ⟨hix, hlap⟩ := d.setTail_tail r (d.ringTail r + 1)
  have hbit : d.get (QSU.RING_TAIL.LAP r) < 2 := d.get_lt (QSU.RING_TAIL.LAP r)
  have hpos : d.ringTail r + 1 = d.ringCount r * d.get (QSU.RING_TAIL.LAP r) + (d.get (QSU.RING_TAIL.INDEX r) + 1) := by
    rw [Dev.ringTail, ptrPos, Nat.mul_comm]; omega
  refine ⟨hix.trans ?_, hlap.trans ?_⟩
  · rw [hpos, Nat.mul_add_mod, Nat.mod_eq_of_lt h, Nat.mod_eq_of_lt (by omega)]
  · rw [hpos, Nat.mul_add_div (by omega), Nat.div_eq_of_lt h]; omega

theorem Dev.putEntry_host {d : Dev} {r : Nat} (entry : Bytes) (h : d.get (QSU.RING_CFG.LOC r) = 0) :
    d.putEntry r entry = (d.hostEntry (d.ringEntry r (d.get (QSU.RING_TAIL.INDEX r))) entry, none) := if_pos h

/-- A record written onto an event ring in host memory. -/
theorem Dev.putEvent_host {d : Dev} {r : Nat} (fuel : Nat) (e : EvRec) (h : d.get (QSU.RING_CFG.LOC r) = 0) :
    ∃ c v, v < 2048 ∧ Dev.putEvent (fuel + 1) d r e = ((d.hostEntry (d.ringEntry r (d.get (QSU.RING_TAIL.INDEX r)))
      (recordBytes e.seq e.status 0 e.result e.time 0x3FFF true e.inl (d.ringPhase r))).tailOn r).when c (·.msix v) := by
  unfold Dev.putEvent
  dsimp only
  rw [Dev.putEntry_host _ h]
  exact ⟨_, _, Dev.ringVector_lt _ r, rfl⟩

theorem Dev.when_msix_rd (d : Dev) (c : Bool) {v a : Nat} (hv : v < 2048) (ha : ¬ isPba a) : (d.when c (·.msix v)).rd a = d.rd a := by
  cases c with
  | true => exact Dev.msix_rd hv ha
  | false => rfl

theorem Dev.when_msix_parts (d : Dev) (c : Bool) (v : Nat) : (d.when c (·.msix v)).host = d.host ∧ (d.when c (·.msix v)).cmd = d.cmd := by
  cases c with
  | true => exact ⟨by rw [Dev.when_true, Dev.msix_frame], by rw [Dev.when_true, Dev.msix_frame]⟩
  | false => exact ⟨rfl, rfl⟩

theorem Dev.noteFull_frame (d : Dev) (r : Nat) : ∃ m, d.noteFull r = { d with cmd.fullSince := m } := ⟨_, rfl⟩

theorem Dev.frame_of_noRegs {d x y : Dev} (h : x.noRegs = d.noRegs) (hy : ∃ m, y = { x with cmd.fullSince := m }) :
    ∃ rs m, y = { d with regs := rs, cmd.fullSince := m } := by
  obtain ⟨m, hm⟩ := hy
  exact ⟨x.regs, m, hm.trans (congrArg (fun z : Dev => { z with cmd.fullSince := m }) (Dev.eq_withRegs h))⟩

/-- Of the state, a ring's tail is a register; the time since the ring is full goes with it. -/
theorem Dev.setTail_frame (d : Dev) (r p : Nat) : ∃ rs m, d.setTail r p = { d with regs := rs, cmd.fullSince := m } := by
  unfold Dev.setTail
  dsimp only
  exact Dev.frame_of_noRegs ((Dev.set_noRegs _ _ _).trans (Dev.set_noRegs _ _ _)) (Dev.noteFull_frame _ r)

theorem Dev.hostEntry_parts (d : Dev) (a : Nat) (bs : Bytes) : (d.hostEntry a bs).host = memWrite d.host a bs ∧ (d.hostEntry a bs).cmd = d.cmd := ⟨rfl, rfl⟩

/-- The same, by what it leaves before the tail moves. -/
theorem Dev.putEvent_onHost {d : Dev} {r : Nat} (fuel : Nat) (e : EvRec) (h : d.get (QSU.RING_CFG.LOC r) = 0) : ∃ x : Dev,
    x.host = memWrite d.host (d.ringEntry r (d.get (QSU.RING_TAIL.INDEX r))) (recordBytes e.seq e.status 0 e.result e.time 0x3FFF true e.inl (d.ringPhase r)) ∧
    x.cmd = d.cmd ∧ (∀ f, x.get f = d.get f) ∧ ∃ c v, v < 2048 ∧ Dev.putEvent (fuel + 1) d r e = (x.tailOn r).when c (·.msix v) :=
  ⟨_, (Dev.hostEntry_parts d _ _).1, (Dev.hostEntry_parts d _ _).2, fun f => Dev.hostEntry_get d _ _ f, Dev.putEvent_host fuel e h⟩

theorem tailReg_notPba (r : Nat) : ¬ isPba (QSU.RING_TAIL.REG r).off := by
  simp only [isPba, QSU.RING_TAIL.REG]; omega

/-- An event whose ring has space is written onto it (R51). -/
theorem Dev.event_ring {d : Dev} {st r : Nat} (res : Nat) (hr : d.evRing (st / 256) = some r) (hfree : 0 < d.ringFree r) (hwait : d.evWaiting r = false) :
    d.event st res = Dev.putEvent 5 { d with cmd.evSeq := (d.cmd.evSeq + 1) % 2 ^ 32 } r ⟨d.cmd.evSeq, st, res, d.now, []⟩ := by
  have hsame : Dev.evRing { d with cmd.evSeq := (d.cmd.evSeq + 1) % 2 ^ 32 } (st / 256) = some r := hr
  have hgo : 0 < Dev.ringFree { d with cmd.evSeq := (d.cmd.evSeq + 1) % 2 ^ 32 } r ∧ (!Dev.evWaiting { d with cmd.evSeq := (d.cmd.evSeq + 1) % 2 ^ 32 } r) = true :=
    ⟨hfree, by rw [show Dev.evWaiting { d with cmd.evSeq := (d.cmd.evSeq + 1) % 2 ^ 32 } r = d.evWaiting r from rfl, hwait]; rfl⟩
  unfold Dev.event Dev.postEventF Dev.newEvent
  dsimp only
  rw [hsame]
  exact if_pos hgo

/-- One without a ring waits (R76). -/
theorem Dev.event_held {d : Dev} {st : Nat} (res : Nat) (hr : d.evRing (st / 256) = none) (hhold : d.cmd.evHold.length < 1024) :
    d.event st res = { d with cmd.evSeq := (d.cmd.evSeq + 1) % 2 ^ 32, cmd.evHold := d.cmd.evHold ++ [⟨d.cmd.evSeq, st, res, d.now, []⟩] } := by
  have hsame : Dev.evRing { d with cmd.evSeq := (d.cmd.evSeq + 1) % 2 ^ 32 } (st / 256) = none := hr
  unfold Dev.event Dev.postEventF Dev.newEvent
  dsimp only
  rw [hsame]
  exact if_pos hhold

/-- No record of the queue can go: none does. -/
theorem Dev.deliverHeld_stuck (d : Dev) (es : List EvRec) : ∀ fuel stuck, (∀ e ∈ es, ∀ r, d.evRing (e.status / 256) = some r → d.ringFree r = 0) →
    Dev.deliverHeld fuel d es stuck = d := by
  induction es with
  | nil => intro fuel stuck _; cases fuel <;> rfl
  | cons e es ih =>
    intro fuel stuck h
    cases fuel with
    | zero => rfl
    | succ fuel =>
      have hrest := fun stuck' => ih fuel stuck' fun x hx => h x (List.mem_cons_of_mem _ hx)
      unfold Dev.deliverHeld
      split
      · exact hrest stuck
      next r hr =>
        have hnone : stuck.contains r = true ∨ d.ringFree r < if d.cmd.evDropped = 0 then 1 else 2 := by
          refine .inr ?_
          rw [h e List.mem_cons_self r hr]
          split <;> decide
        dsimp only
        rw [if_pos hnone]
        exact hrest (r :: stuck)

/-- The one record of the queue goes, after the record that counts those dropped (R76). -/
theorem Dev.deliverHeld_one {d : Dev} {e : EvRec} {r : Nat} (hone : d.cmd.evHold = [e]) (hr : d.evRing (e.status / 256) = some r)
    (hfree : (if d.cmd.evDropped = 0 then 1 else 2) ≤ d.ringFree r) : Dev.deliverHeld (d.cmd.evHold.length + 1) d d.cmd.evHold [] =
      Dev.putEvent 6 (if d.cmd.evDropped = 0 then { d with cmd.evHold := [] } else
        Dev.putEvent 6 { d with cmd.evHold := [], cmd.evDropped := 0, cmd.evSeq := (d.cmd.evSeq + 1) % 2 ^ 32 } r
          ⟨d.cmd.evSeq, 0x010C, d.cmd.evDropped, d.now, []⟩) r e := by
  have hgo : ¬ (([] : List Nat).contains r = true ∨ d.ringFree r < if d.cmd.evDropped = 0 then 1 else 2) := by
    rintro (h | h)
    · cases h
    · omega
  have herase : d.cmd.evHold.erase e = [] := by rw [hone]; simp
  rw [hone, List.length_singleton]
  unfold Dev.deliverHeld
  rw [hr]
  dsimp only
  rw [if_neg hgo, herase]
  unfold Dev.deliverHeld
  rfl

/-- A record on a ring in host memory, and its tail. -/
theorem Dev.event_onRing {d : Dev} {st r : Nat} (res : Nat) (hr : d.evRing (st / 256) = some r) (hfree : 0 < d.ringFree r) (hwait : d.evWaiting r = false)
    (hloc : d.get (QSU.RING_CFG.LOC r) = 0) (hcount : d.ringCount r ≤ 2 ^ 20) :
    (d.event st res).host = memWrite d.host (d.ringEntry r (d.get (QSU.RING_TAIL.INDEX r)))
        (recordBytes d.cmd.evSeq st 0 res d.now 0x3FFF true [] (1 - d.get (QSU.RING_TAIL.LAP r) % 2)) ∧
      (d.event st res).cmd = { d.cmd with evSeq := (d.cmd.evSeq + 1) % 2 ^ 32, fullSince := (d.event st res).cmd.fullSince } ∧
      (d.get (QSU.RING_TAIL.INDEX r) + 1 < d.ringCount r →
        (d.event st res).get (QSU.RING_TAIL.INDEX r) = d.get (QSU.RING_TAIL.INDEX r) + 1 ∧ (d.event st res).get (QSU.RING_TAIL.LAP r) = d.get (QSU.RING_TAIL.LAP r)) := by
  have hget' : ∀ f, Dev.get { d with cmd.evSeq := (d.cmd.evSeq + 1) % 2 ^ 32 } f = d.get f := fun _ => rfl
  obtain ⟨e, hehost, hecmd, heget, c, v, hv, hput⟩ :=
    Dev.putEvent_onHost (d := { d with cmd.evSeq := (d.cmd.evSeq + 1) % 2 ^ 32 }) (r := r) 4 ⟨d.cmd.evSeq, st, res, d.now, []⟩ hloc
  have hevent := (Dev.event_ring res hr hfree hwait).trans hput
  simp only [hget'] at heget
  have hecount : e.ringCount r = d.ringCount r := by rw [Dev.ringCount, heget, Dev.ringCount]
  obtain ⟨hhost, hcmd⟩ := Dev.when_msix_parts (e.tailOn r) c v
  obtain ⟨rs, m, htail⟩ := Dev.setTail_frame e r (e.ringTail r + 1)
  have htail' : e.tailOn r = { e with regs := rs, cmd.fullSince := m } := htail
  refine ⟨?_, ?_, fun hnext => ?_⟩
  · rw [hevent, hhost, htail']
    exact hehost
  · rw [hevent, hcmd, htail']
    dsimp only
    rw [hecmd]
  · have hget : ∀ f : FRef, f.off = (QSU.RING_TAIL.REG r).off → (d.event st res).get f = (e.tailOn r).get f := fun f hf => by
      rw [hevent]
      exact Dev.get_congr f (Dev.when_msix_rd _ _ hv (hf ▸ tailReg_notPba r))
    have hmoved := Dev.tailOn_tail (d := e) (r := r) (by rw [hecount]; exact hcount) (by rw [hecount, heget]; exact hnext)
    rw [heget, heget] at hmoved
    rw [hget _ (tailIndex_off r), hget _ (tailLap_off r)]
    exact hmoved

/-- Settles O21: a record on its ring, in the holding queue, and out of it. -/
theorem events : Obligations.Events := by
  refine ⟨fun d st res => ⟨fun r hr hfree hwait hloc hcount => ?_, fun hr hhold => Dev.event_held res hr hhold⟩, fun s hstuck => ?_, fun s e r hone hr hdrop hfree => ?_,
    fun s e r hone hr hdrop hfree => ?_⟩
  · exact Dev.event_onRing res hr hfree hwait hloc hcount
  · exact congrArg Host.Outcome.next (onDev_congr s _ _ (Dev.deliverHeld_stuck s.here s.dev.cmd.evHold _ [] hstuck))
  · have h := Dev.deliverHeld_one (d := s.here) hone hr (by rw [State.here_cmd, if_pos hdrop]; exact hfree)
    rw [State.here_cmd, if_pos hdrop] at h
    exact congrArg Host.Outcome.next (onDev_congr s _ _ h)
  · have h := Dev.deliverHeld_one (d := s.here) hone hr (by rw [State.here_cmd, if_neg hdrop]; exact hfree)
    rw [State.here_cmd, if_neg hdrop] at h
    exact congrArg Host.Outcome.next (onDev_congr s _ _ h)

/-! ## Completion records (R46 to R48, R57) -/

theorem reserved_off_ne (q : Nat) : (QSU.RING_CFG.REG q).off ≠ (QSU.RING_RESV.RESERVED q).off ∧ (QSU.RING_TAIL.REG q).off ≠ (QSU.RING_RESV.RESERVED q).off ∧
    (QSU.RING_BASE_LO.REG q).off ≠ (QSU.RING_RESV.RESERVED q).off ∧ (QSU.RING_BASE_HI.REG q).off ≠ (QSU.RING_RESV.RESERVED q).off := by
  simp only [QSU.RING_CFG.REG, QSU.RING_TAIL.REG, QSU.RING_BASE_LO.REG, QSU.RING_BASE_HI.REG, QSU.RING_RESV.RESERVED]
  omega

theorem Dev.unreserve_get (d : Dev) (cq : Nat) {f : FRef} (h : f.off ≠ (QSU.RING_RESV.RESERVED cq).off) : (d.unreserve cq).get f = d.get f := by
  unfold Dev.unreserve
  rw [Dev.noteFull_get]
  exact Dev.get_congr f (Dev.rd_set_ne _ _ _ _ h)

theorem Dev.unreserve_frame (d : Dev) (cq : Nat) : ∃ rs m, d.unreserve cq = { d with regs := rs, cmd.fullSince := m } := by
  unfold Dev.unreserve
  exact Dev.frame_of_noRegs (Dev.set_noRegs _ _ _) (Dev.noteFull_frame _ cq)

/-- Releasing a reservation leaves the ring's place, size and tail. -/
theorem Dev.unreserve_ring (d : Dev) (cq : Nat) : (d.unreserve cq).get (QSU.RING_CFG.LOC cq) = d.get (QSU.RING_CFG.LOC cq) ∧
    (d.unreserve cq).get (QSU.RING_TAIL.INDEX cq) = d.get (QSU.RING_TAIL.INDEX cq) ∧ (d.unreserve cq).ringPhase cq = d.ringPhase cq ∧
    (∀ i, (d.unreserve cq).ringEntry cq i = d.ringEntry cq i) ∧ (d.unreserve cq).ringTail cq = d.ringTail cq := by
  obtain ⟨hcfg, htail, hlo, hhi⟩ := reserved_off_ne cq
  have hindex := d.unreserve_get cq (f := QSU.RING_TAIL.INDEX cq) htail
  have hlap := d.unreserve_get cq (f := QSU.RING_TAIL.LAP cq) htail
  have hcount : (d.unreserve cq).ringCount cq = d.ringCount cq := by
    rw [Dev.ringCount, Dev.unreserve_get d cq (f := QSU.RING_CFG.LOG2_COUNT cq) hcfg, Dev.ringCount]
  refine ⟨d.unreserve_get cq (f := QSU.RING_CFG.LOC cq) hcfg, hindex, ?_, fun i => ?_, ?_⟩
  · rw [Dev.ringPhase, hlap, Dev.ringPhase]
  · rw [Dev.ringEntry, Dev.unreserve_get d cq (f := QSU.RING_BASE_LO.ADDR cq) hlo, Dev.unreserve_get d cq (f := QSU.RING_BASE_HI.ADDR cq) hhi, Dev.ringEntry]
  · rw [Dev.ringTail, hcount, hlap, hindex, Dev.ringTail]

theorem Dev.unreserve_draws (d : Dev) (cq n : Nat) : { d with draws := n }.unreserve cq = { d.unreserve cq with draws := n } := rfl

/-- A record without an interrupt on a completion ring in host memory. -/
theorem Dev.putRecord_host {d : Dev} {cq : Nat} (tag st opc res src : Nat) (inl : Bytes) (h : d.get (QSU.RING_CFG.LOC cq) = 0) :
    d.putRecord cq tag st opc res src inl false = (d.hostEntry (d.ringEntry cq (d.get (QSU.RING_TAIL.INDEX cq)))
      (recordBytes tag st opc res d.now src false inl (d.ringPhase cq))).tailOn cq := by
  unfold Dev.putRecord
  dsimp only
  rw [Dev.putEntry_host _ h]
  rfl

/-- The completion of a packet without SIGNAL on enabled rings. -/
theorem Dev.complete_ring {d : Dev} {o : Origin} {q cq : Nat} (opc : Nat) (r : Result) (ho : o.chan = .ring q) (hcq : cq = d.get (QSU.RING_PAIR.CQ q))
    (hq : d.ringOn q 0 = true) (hon : d.ringOn cq 1 = true) (hsignal : o.flags.testBit 1 = false) (hirq : o.flags.testBit 3 = false) :
    d.complete o opc true r = if o.flags.testBit 4 = true ∧ r.status = 0 then d.unreserve cq else
      (((d.unreserve cq).resultOf r).2).putRecord cq o.seqTag r.status opc ((d.unreserve cq).resultOf r).1 q r.inl false := by
  subst hcq
  have hb1 : bit o.flags 1 = false := hsignal
  have hb3 : bit o.flags 3 = false := hirq
  unfold Dev.complete
  simp only [hb1, hb3, ho, hq, hon, Bool.false_and, Dev.when_false, Bool.and_self, Bool.not_true, Bool.false_eq_true, if_false, Dev.when_true]
  simp only [bit, Bool.and_eq_true, beq_iff_eq]

/-- The record of a completion, its entry and its tail (R46, R48). -/
theorem Dev.putRecord_unreserve {d : Dev} {cq : Nat} (tag st opc res src : Nat) (inl : Bytes) (h : d.get (QSU.RING_CFG.LOC cq) = 0) {a : Nat} {bs : Bytes}
    (ha : a = d.ringEntry cq (d.get (QSU.RING_TAIL.INDEX cq))) (hbs : bs = recordBytes tag st opc res d.now src false inl (1 - d.get (QSU.RING_TAIL.LAP cq) % 2)) :
    (d.unreserve cq).putRecord cq tag st opc res src inl false = ((d.unreserve cq).hostEntry a bs).setTail cq (d.ringTail cq + 1) ∧
      ((d.unreserve cq).putRecord cq tag st opc res src inl false).host = memWrite d.host a bs := by
  obtain ⟨hloc, hindex, hphase, hentry, htail⟩ := d.unreserve_ring cq
  have hnow : (d.unreserve cq).now = d.now := by
    obtain ⟨rs, m, hm⟩ := d.unreserve_frame cq
    rw [hm]
  have hhost : (d.unreserve cq).host = d.host := by
    obtain ⟨rs, m, hm⟩ := d.unreserve_frame cq
    rw [hm]
  have hput := Dev.putRecord_host tag st opc res src inl (hloc.trans h)
  rw [hentry, hindex, hphase, hnow, Dev.ringPhase, ← ha, ← hbs] at hput
  have hmove : ((d.unreserve cq).hostEntry a bs).tailOn cq = ((d.unreserve cq).hostEntry a bs).setTail cq (d.ringTail cq + 1) := by
    rw [← htail]
    rfl
  refine ⟨hput.trans hmove, ?_⟩
  obtain ⟨rs, m, hframe⟩ := Dev.setTail_frame ((d.unreserve cq).hostEntry a bs) cq (d.ringTail cq + 1)
  rw [hput, hmove, hframe]
  exact (Dev.hostEntry_parts _ a bs).1.trans (by rw [hhost])

/-- Settles O22: the record, its entry and the tail. -/
theorem completionRecord : Obligations.CompletionRecord := by
  intro d o q cq opc r ho hcq hq hon hloc hsignal hirq
  have hcomplete := Dev.complete_ring opc r ho hcq hq hon hsignal hirq
  refine ⟨fun hquiet hok => hcomplete.trans (if_pos ⟨hquiet, hok⟩), fun hloud => ?_⟩
  rw [if_neg hloud] at hcomplete
  cases hr : r.unstated with
  | false =>
    have hresult : (d.unreserve cq).resultOf r = (r.result, d.unreserve cq) := by
      rw [Dev.resultOf, hr]
      rfl
    rw [hresult] at hcomplete
    obtain ⟨hput, hhost⟩ := Dev.putRecord_unreserve o.seqTag r.status opc r.result q r.inl hloc rfl rfl
    exact ⟨r.result, d, fun _ => ⟨rfl, rfl⟩, fun h => absurd h (by simp), _, _, rfl, rfl, hcomplete.trans hput, by rw [hcomplete]; exact hhost⟩
  | true =>
    have hdraws : (d.unreserve cq).draws = d.draws := by
      obtain ⟨rs, m, hm⟩ := d.unreserve_frame cq
      rw [hm]
    have hresult : (d.unreserve cq).resultOf r = (Config.free d.draws % 2 ^ 64, { d with draws := d.draws + 1 }.unreserve cq) := by
      rw [Dev.resultOf, hr, hdraws, Dev.unreserve_draws]
      rfl
    rw [hresult] at hcomplete
    obtain ⟨hput, hhost⟩ := Dev.putRecord_unreserve (d := { d with draws := d.draws + 1 }) o.seqTag r.status opc (Config.free d.draws % 2 ^ 64) q r.inl hloc
      (a := d.ringEntry cq (d.get (QSU.RING_TAIL.INDEX cq))) rfl
      (bs := recordBytes o.seqTag r.status opc (Config.free d.draws % 2 ^ 64) d.now q false r.inl (1 - d.get (QSU.RING_TAIL.LAP cq) % 2)) rfl
    exact ⟨Config.free d.draws % 2 ^ 64, { d with draws := d.draws + 1 }, fun h => absurd h (by simp), fun _ => ⟨Nat.mod_lt _ (by decide), rfl⟩, _, _, rfl, rfl,
      hcomplete.trans hput, by rw [hcomplete]; exact hhost⟩

end Sys2Proof.Machine
end


section
/-! PROOFS. Dispatch of packets (R54 to R61), destroyed rings and jobs, and firmware. -/

namespace Sys2Proof.Machine

/-- What falls due at a time happens then. -/
theorem atTime_due {s : State} {w : Option Nat} {t : Nat} (f g : Dev → Dev) (hw : w = some t) (h : f (s.until t).here = g (s.until t).here) :
    s.atTime w f = (s.until t).onDev g := by
  rw [hw, State.atTime_some]
  exact onDev_congr _ f g h

theorem atTime_not {s : State} {w : Option Nat} (f : Dev → Dev) (hw : w = none) : s.atTime w f = s := by rw [hw, State.atTime_none]

/-! ## Dispatch (R54, R55) -/

/-- What a packet whose header has been read does (R58, R64, R68). -/
def Dev.headPacket (d : Dev) (r cq ix : Nat) (h : Bytes) : Dev :=
  if headerBad h ≠ 0 then
    if d.ringFree cq = 0 then d.set (QSU.RING_STATUS.WAITING r) 1 else ((d.headOn r 1).refusePacket r h (headerBad h)).ringError r (headerBad h)
  else if d.ringUsed r < pkLength h then d
  else match Dev.readEntries (pkLength h - 1) d r (ix + 1) with
    | (d, .error (st, a)) => (d.ringError r st).event st a
    | (d, .ok rest) =>
      if d.packetTallies r h = false then
        if d.ringFree cq = 0 then d.set (QSU.RING_STATUS.WAITING r) 1 else (d.headOn r (pkLength h)).refusePacket r h 0x0106
      else
        let (d, sat) := d.waitSlot r h
        if sat = false ∨ ((pkFlags h).testBit 2 = true ∧ ∃ f ∈ d.cmd.inflight, f.org.chan = .ring r) ∨
            (lengthOk (pkOpcode h) (pkLength h) = true ∧ d.groupFull (pkOpcode h) (le h 16 1) = true) ∨ d.ringFree cq = 0 then d.set (QSU.RING_STATUS.WAITING r) 1
        else d.dispatch r cq (h ++ rest)

section Dispatch
variable {d d1 : Dev} {r cq : Nat} {h : Bytes}

theorem Dev.packetDispatch_read (hcq : cq = d.get (QSU.RING_PAIR.CQ r)) (hon : d.ringOn r 0 = true) (hcqon : d.ringOn cq 1 = true)
    (hcur : d.curator = curRUNNING) (herr : d.flag (QSU.RING_STATUS.ERROR r) = false) (hstop : d.ringStopped r = false) (hused : d.ringUsed r ≠ 0)
    (hread : d.readEntry r (d.get (QSU.RING_HEAD.INDEX r)) = (d1, .ok h)) :
    d.packetDispatch r = d1.headPacket r cq (d.get (QSU.RING_HEAD.INDEX r)) h := by
  subst hcq
  unfold Dev.packetDispatch Dev.headPacket
  dsimp only
  simp only [hon, hcqon, hcur, herr, hstop, hread, beq_eq_false_iff_ne.mpr hused, bne_self_eq_false, Bool.not_true, Bool.or_self, Bool.false_eq_true, if_false]
  simp only [Bool.not_eq_true', Bool.or_eq_true, Bool.and_eq_true, List.any_eq_true, beq_iff_eq, bit, or_assoc] <;> rfl

theorem Dev.headPacket_bad (ix : Nat) (hbad : headerBad h ≠ 0) (hfree : 0 < d.ringFree cq) :
    d.headPacket r cq ix h = ((d.headOn r 1).refusePacket r h (headerBad h)).ringError r (headerBad h) := by
  rw [Dev.headPacket, if_pos hbad, if_neg (Nat.ne_of_gt hfree)]

theorem Dev.headPacket_foreign {ix : Nat} {d2 : Dev} {rest : Bytes} (hgood : headerBad h = 0) (hwhole : pkLength h ≤ d.ringUsed r)
    (hread : Dev.readEntries (pkLength h - 1) d r (ix + 1) = (d2, .ok rest)) (htally : d2.packetTallies r h = false) (hfree : d2.ringFree cq ≠ 0) :
    d.headPacket r cq ix h = (d2.headOn r (pkLength h)).refusePacket r h 0x0106 := by
  rw [Dev.headPacket, if_neg (not_not_intro hgood), if_neg (Nat.not_lt.mpr hwhole), hread]
  dsimp only
  rw [if_pos htally, if_neg hfree]

/-- A whole packet of its job's tallies dispatches, or waits. -/
theorem Dev.headPacket_whole {ix : Nat} {d2 d3 : Dev} {rest : Bytes} {sat : Bool} (hgood : headerBad h = 0) (hwhole : pkLength h ≤ d.ringUsed r)
    (hread : Dev.readEntries (pkLength h - 1) d r (ix + 1) = (d2, .ok rest)) (htally : d2.packetTallies r h = true) (hwait : d2.waitSlot r h = (d3, sat)) :
    d.headPacket r cq ix h = if sat = false ∨ ((pkFlags h).testBit 2 = true ∧ ∃ f ∈ d3.cmd.inflight, f.org.chan = .ring r) ∨
      (lengthOk (pkOpcode h) (pkLength h) = true ∧ d3.groupFull (pkOpcode h) (le h 16 1) = true) ∨ d3.ringFree cq = 0 then d3.set (QSU.RING_STATUS.WAITING r) 1
      else d3.dispatch r cq (h ++ rest) := by
  rw [Dev.headPacket, if_neg (not_not_intro hgood), if_neg (Nat.not_lt.mpr hwhole), hread]
  dsimp only
  rw [if_neg (by simp [htally]), hwait]

theorem le_append_of_le {a b : Bytes} {off n : Nat} (h : off + n ≤ a.length) : le (a ++ b) off n = le a off n := by
  have hlen : n ≤ (a.drop off).length := by rw [List.length_drop]; omega
  rw [le, le, List.drop_append_of_le_length (by omega), List.take_append_of_le_length hlen]

/-- The header stands in the packet's first entry. -/
theorem packetHeader_append (rest : Bytes) (hlen : 64 ≤ h.length) : pkOpcode (h ++ rest) = pkOpcode h ∧ pkFlags (h ++ rest) = pkFlags h ∧
    pkLength (h ++ rest) = pkLength h ∧ pkTag (h ++ rest) = pkTag h ∧ pkSignal (h ++ rest) = pkSignal h :=
  ⟨le_append_of_le (by omega), le_append_of_le (by omega), le_append_of_le (by omega), le_append_of_le (by omega), le_append_of_le (by omega)⟩

/-- A packet that leaves its ring (R55, R59). -/
theorem Dev.dispatch_cases (rest : Bytes) (hlen : 64 ≤ h.length) :
    (opcodeKnown (pkOpcode h) = false → d.dispatch r cq (h ++ rest) = (d.headOn r (pkLength h)).refusePacket r (h ++ rest) 0x0101) ∧
    (opcodeKnown (pkOpcode h) = true → lengthOk (pkOpcode h) (pkLength h) = false →
      d.dispatch r cq (h ++ rest) = (d.headOn r (pkLength h)).refusePacket r (h ++ rest) 0x0107) ∧
    (opcodeKnown (pkOpcode h) = true → lengthOk (pkOpcode h) (pkLength h) = true → d.dispatch r cq (h ++ rest) =
      { d.headOn r (pkLength h) with cmd.inflight := (d.headOn r (pkLength h)).cmd.inflight ++ [(⟨⟨.ring r, pkTag h, pkFlags h, pkSignal h⟩, pkOpcode h,
        (h ++ rest).drop 16, (d.headOn r (pkLength h)).get (QSU.RING_PAIR.OWNER r), [], .ready, none, (d.headOn r (pkLength h)).now⟩ : InFlight)] }.reserve cq) := by
  obtain ⟨hopc, hflags, hplen, htag, hsig⟩ := packetHeader_append rest hlen
  unfold Dev.dispatch
  dsimp only
  rw [hopc, hplen, htag, hflags, hsig]
  refine ⟨fun hk => ?_, fun hk hl => ?_, fun hk hl => ?_⟩
  · rw [hk]; rfl
  · rw [hk, hl]; rfl
  · rw [hk, hl]; rfl

end Dispatch

/-! ## A completion ring held full (R61) -/

theorem Dev.overdueAt_due {d : Dev} {r t : Nat} (hon : d.ringOn r 1 = true) (hfree : d.ringFree r = 0) (hfull : d.fullSince r = some (t, false)) :
    d.overdueAt r = some (t + d.get CMD.DRAIN_BOUND.MILLISECONDS * 1000000 + 1) := by
  rw [Dev.overdueAt, if_pos ⟨hon, hfree⟩, hfull]

theorem Dev.overdueAt_none {d : Dev} {r : Nat} (h : d.ringOn r 1 = false ∨ d.ringFree r ≠ 0 ∨ d.fullSince r = none ∨ ∃ t, d.fullSince r = some (t, true)) :
    d.overdueAt r = none := by
  unfold Dev.overdueAt
  rcases h with h | h | h | ⟨t, h⟩
  · rw [if_neg (by simp [h])]
  · rw [if_neg fun hf => h hf.2]
  · rw [h]; split <;> rfl
  · rw [h]; split <;> rfl

theorem Dev.noteFull_fullSince (d : Dev) (r : Nat) : (d.noteFull r).fullSince r =
    if d.ringOn r 1 && d.ringFree r == 0 then some ((d.fullSince r).getD (d.now, false)) else none := smapGet_set_same _ _ _

/-- A pointer's move keeps the time since the ring is full. -/
theorem Dev.noteFull_since {d e x : Dev} {r : Nat} (he : e = x.noteFull r) (hx : x.noRegs = d.noRegs) (hon : e.ringOn r 1 = true) :
    (e.ringFree r = 0 → d.fullSince r = none → e.fullSince r = some (d.now, false)) ∧ (e.ringFree r ≠ 0 → e.fullSince r = none) := by
  have hsame : e.ringOn r 1 = x.ringOn r 1 ∧ e.ringFree r = x.ringFree r := by rw [he]; exact ⟨rfl, rfl⟩
  have hold : x.fullSince r = d.fullSince r ∧ x.now = d.now := by rw [Dev.eq_withRegs hx]; exact ⟨rfl, rfl⟩
  have hsince : e.fullSince r = if e.ringOn r 1 && e.ringFree r == 0 then some ((d.fullSince r).getD (d.now, false)) else none := by
    rw [hsame.1, hsame.2, ← hold.1, ← hold.2, ← Dev.noteFull_fullSince, ← he]
  refine ⟨fun hfree hnone => ?_, fun hfree => ?_⟩
  · rw [hsince, hon, hfree, hnone]
    rfl
  · rw [hsince, if_neg (by simp [hfree])]

/-- Settles O23: the head packet by its header, its tallies and its wait, and a completion ring held full. -/
theorem packetsDispatchAndComplete : Obligations.PacketsDispatchAndComplete := by
  refine ⟨fun s r cq d1 h hr hlen hcq hon hcqon hcur herr hstop hused hread => ?_, fun s r t hon hfree hfull => ?_, fun s r h => ?_, fun d e r p he hon => ?_⟩
  · have hhead : s.here.packetDispatch r = d1.headPacket r cq (s.dev.get (QSU.RING_HEAD.INDEX r)) h :=
      Dev.packetDispatch_read (d := s.here) hcq hon hcqon hcur herr hstop hused hread
    have hgo : ∀ e, d1.headPacket r cq (s.dev.get (QSU.RING_HEAD.INDEX r)) h = e → exec (.packetDispatch r) s = .next (s.onDev fun _ => e) := fun e he =>
      congrArg Host.Outcome.next ((State.atRing_lt s _ hr).trans (onDev_eq s _ e (hhead.trans he)))
    refine ⟨fun hbad hfree => hgo _ (Dev.headPacket_bad _ hbad hfree),
      fun d2 rest hgood hwhole hrest htally hfree => hgo _ (Dev.headPacket_foreign hgood hwhole hrest htally hfree),
      fun d2 rest d3 sat hgood hwhole hrest htally hwait => ?_⟩
    have hwholePacket := Dev.headPacket_whole (cq := cq) hgood hwhole hrest htally hwait
    have hcond : (¬ (sat = false ∨ ((pkFlags h).testBit 2 = true ∧ ∃ f ∈ d3.cmd.inflight, f.org.chan = .ring r) ∨
        (lengthOk (pkOpcode h) (pkLength h) = true ∧ d3.groupFull (pkOpcode h) (le h 16 1) = true) ∨ d3.ringFree cq = 0)) ↔
        sat = true ∧ ¬ ((pkFlags h).testBit 2 = true ∧ ∃ f ∈ d3.cmd.inflight, f.org.chan = .ring r) ∧
          ¬ (lengthOk (pkOpcode h) (pkLength h) = true ∧ d3.groupFull (pkOpcode h) (le h 16 1) = true) ∧ d3.ringFree cq ≠ 0 := by
      rw [not_or, not_or, not_or, Bool.not_eq_false]
    obtain ⟨hunknown, hlength, hcommand⟩ := Dev.dispatch_cases (d := d3) (r := r) (cq := cq) rest hlen
    refine ⟨fun hno => hgo _ (hwholePacket.trans (if_pos (Classical.not_not.mp fun h => hno (hcond.mp h)))),
      fun go hk => hgo _ ((hwholePacket.trans (if_neg (hcond.mpr go))).trans (hunknown hk)),
      fun go hk hl => hgo _ ((hwholePacket.trans (if_neg (hcond.mpr go))).trans (hlength hk hl)),
      fun go hk hl => ⟨_, rfl, hgo _ ((hwholePacket.trans (if_neg (hcond.mpr go))).trans (hcommand hk hl))⟩⟩
  · have hdue : s.dev.overdueAt r = some (t + s.dev.get CMD.DRAIN_BOUND.MILLISECONDS * 1000000 + 1) := Dev.overdueAt_due hon hfree hfull
    refine congrArg Host.Outcome.next (atTime_due _ _ hdue ?_)
    have hsince : (s.until (t + s.dev.get CMD.DRAIN_BOUND.MILLISECONDS * 1000000 + 1)).here.fullSince r = some (t, false) := by
      rw [State.here_fullSince, State.until_dev, hfull]
    rw [Dev.completionOverdue, hsince]
    rfl
  · exact congrArg Host.Outcome.next (atTime_not _ (Dev.overdueAt_none h))
  · refine Dev.noteFull_since (x := (d.set (QSU.RING_TAIL.LAP r) (p / d.ringCount r % 2)).set (QSU.RING_TAIL.INDEX r) (p % d.ringCount r)) ?_
      ((Dev.set_noRegs _ _ _).trans (Dev.set_noRegs _ _ _)) hon
    rw [he, Dev.setTail]

/-! ## Rings and jobs that end (R60, R651) -/

def Dev.withHalt (d : Dev) (w : List Nat) : Dev := { d with cmd.walkHalt := w }

/-- A walk of an empty ring keeps only the note of the rings whose walk stopped. -/
theorem Dev.walkOn_empty {d : Dev} {r : Nat} (h : d.ringUsed r = 0) : ∃ w, d.walkOn r = d.withHalt w := by
  unfold Dev.walkOn
  split
  · exact ⟨d.cmd.walkHalt, rfl⟩
  · rw [h]
    exact ⟨_, rfl⟩

theorem Dev.walks_empty (rs : List Nat) : ∀ (d : Dev), (∀ r ∈ rs, d.ringUsed r = 0) → ∃ w, d.each rs (·.walkOn) = d.withHalt w := by
  induction rs with
  | nil => exact fun d _ => ⟨d.cmd.walkHalt, rfl⟩
  | cons r rs ih =>
    intro d h
    obtain ⟨w, hw⟩ := Dev.walkOn_empty (h r List.mem_cons_self)
    obtain ⟨w', hw'⟩ := ih (d.withHalt w) fun q hq => h q (List.mem_cons_of_mem _ hq)
    refine ⟨w', ?_⟩
    show (d.walkOn r).each rs (·.walkOn) = _
    rw [hw]
    exact hw'

theorem Dev.walkJob_empty {d : Dev} {j : Nat} (h : ∀ r ∈ d.jobRings j, d.ringOn r 0 = true → d.ringUsed r = 0) : ∃ w, d.walkJob j = d.withHalt w :=
  Dev.walks_empty _ d fun r hr => h r (List.mem_filter.mp hr).1 (List.mem_filter.mp hr).2

theorem Dev.ringWalked_only {d : Dev} {r : Nat} {f : InFlight} (hused : d.ringUsed r = 0) (hf : ∀ g ∈ d.cmd.inflight, g.org.chan = .ring r → g = f) :
    d.ringWalked r (· == f) = true := by
  rw [Dev.ringWalked, hused]
  refine Bool.and_eq_true_iff.mpr ⟨rfl, List.all_eq_true.mpr fun g hg => ?_⟩
  by_cases hc : g.org.chan = .ring r
  · simp [hf g hg hc]
  · simp [hc]

theorem Dev.jobQuiet_only {d : Dev} {j : Nat} {f : InFlight} (hrings : ∀ r ∈ d.jobRings j, d.ringOn r 0 = true → d.ringUsed r = 0)
    (hf : ∀ g ∈ d.cmd.inflight, g.job = j → g = f) (hkeys : ∀ q ∈ d.jobKeys j, d.keyNamed q = false) : d.jobQuiet j (· == f) = true := by
  rw [Dev.jobQuiet, Bool.and_eq_true_iff, Bool.and_eq_true_iff]
  refine ⟨⟨List.all_eq_true.mpr fun r hr => ?_, List.all_eq_true.mpr fun g hg => ?_⟩, List.all_eq_true.mpr fun q hq => ?_⟩
  · rw [hrings r (List.mem_filter.mp hr).1 (List.mem_filter.mp hr).2]; rfl
  · by_cases hj : g.job = j
    · simp [hf g hg hj]
    · simp [hj]
  · rw [hkeys q hq]; rfl

section Destroy
variable {d : Dev} {ops : Bytes} {r j : Nat}

theorem Dev.ringDestroy_refused (hr : r = opnd ops 16 2) (h : r < 16 ∨ 16384 ≤ r ∨ d.flag (QSU.RING_CFG.ENABLE r) = false) :
    d.ringDestroy ops = (d, .now (errR 0x0107)) := by
  subst hr
  exact if_pos (by simpa using h)

/-- Of the kinds of an enabled ring one holds. -/
theorem Dev.ringOn_kind {k k' : Nat} (h : d.ringOn r k = true) (hk : k ≠ k') : d.ringOn r k' = false := by
  simp only [Dev.ringOn, Bool.and_eq_true, beq_iff_eq] at h
  obtain ⟨_, hkind⟩ := h
  simp [Dev.ringOn, hkind, hk]

theorem Dev.ringOn_enabled {k : Nat} (h : d.ringOn r k = true) : r < 16384 ∧ d.flag (QSU.RING_CFG.ENABLE r) = true := by
  simp only [Dev.ringOn, Bool.and_eq_true, decide_eq_true_eq] at h
  exact h.1

theorem Dev.ringDestroy_valid {k : Nat} (hr : r = opnd ops 16 2) (h16 : 16 ≤ r) (hon : d.ringOn r k = true) : d.ringDestroy ops =
    if d.ringOn r 1 && d.usedRings.any (fun q => d.ringOn q 0 && d.get (QSU.RING_PAIR.CQ q) == r) then (d, .now (errR 0x0107))
    else if d.ringOn r 0 then (Dev.ringWalk (d.ringUsed r) d r, .later (okR 0) (.ringDestroy r) []) else (d.ringDisable r, .now (okR 0)) := by
  subst hr
  obtain ⟨hlt, hen⟩ := Dev.ringOn_enabled hon
  exact if_neg (by simp [hen]; omega)

theorem Dev.ringDestroy_disables (hr : r = opnd ops 16 2) (h16 : 16 ≤ r)
    (hon : d.ringOn r 2 = true ∨ d.ringOn r 1 = true ∧ ∀ q ∈ d.usedRings, d.ringOn q 0 = true → d.get (QSU.RING_PAIR.CQ q) ≠ r) :
    d.ringDestroy ops = (d.ringDisable r, .now (okR 0)) := by
  rcases hon with hon | ⟨hon, hfree⟩
  · rw [Dev.ringDestroy_valid hr h16 hon, Dev.ringOn_kind hon (by decide : 2 ≠ 1), Dev.ringOn_kind hon (by decide : 2 ≠ 0)]
    rfl
  · have hnone : d.usedRings.any (fun q => d.ringOn q 0 && d.get (QSU.RING_PAIR.CQ q) == r) = false := by
      refine List.any_eq_false.mpr fun q hq => ?_
      simpa using hfree q hq
    rw [Dev.ringDestroy_valid hr h16 hon, hnone, Bool.and_false, Dev.ringOn_kind hon (by decide : 1 ≠ 0)]
    rfl

theorem Dev.ringDestroy_walks (hr : r = opnd ops 16 2) (h16 : 16 ≤ r) (hon : d.ringOn r 0 = true) :
    d.ringDestroy ops = (Dev.ringWalk (d.ringUsed r) d r, .later (okR 0) (.ringDestroy r) []) := by
  rw [Dev.ringDestroy_valid hr h16 hon, Dev.ringOn_kind hon (by decide : 0 ≠ 1), hon]
  rfl

theorem Dev.jobDestroy_refused (hj : j = opnd ops 16 2) (h : d.job j = none) : d.jobDestroy ops = (d, .now (errR 0x0107)) := by
  subst hj
  exact if_pos (by rw [h]; rfl)

theorem Dev.jobDestroy_walks (hj : j = opnd ops 16 2) (h : (d.job j).isSome) (hown : ∀ q ∈ d.usedRings, d.ringOn q 0 = true →
    d.get (QSU.RING_PAIR.OWNER q) ≠ j → d.get (QSU.RING_PAIR.OWNER (d.get (QSU.RING_PAIR.CQ q))) ≠ j) :
    d.jobDestroy ops = (d.walkJob j, .later (okR 0) (.jobDestroy j) []) := by
  subst hj
  have hnone : d.usedRings.find? (fun q => d.ringOn q 0 && d.get (QSU.RING_PAIR.OWNER q) != opnd ops 16 2
      && d.get (QSU.RING_PAIR.OWNER (d.get (QSU.RING_PAIR.CQ q))) == opnd ops 16 2) = none := by
    refine List.find?_eq_none.mpr fun q hq => ?_
    simpa [and_imp] using hown q hq
  unfold Dev.jobDestroy
  dsimp only
  rw [hnone, if_neg fun hn => by rw [Option.isNone_iff_eq_none.mp hn] at h; cases h]

end Destroy

/-- A command with a result whose gate is over completes (R57). -/
theorem exec_commandCompletion_over {s : State} {k : Nat} {f : InFlight} {r : Result} {d1 : Dev} (hf : s.dev.cmd.inflight[k]? = some f) (hres : f.res = some r)
    (hserve : f.org.chan = .mailbox ∨ s.dev.curator = curRUNNING ∨ s.dev.curator = curREHANG) (hgate : f.gate ≠ .start)
    (hover : s.here.gateOver k f = (d1, true)) : exec (.commandCompletion k) s = .next (s.onDev fun _ =>
      ((({ d1 with cmd.inflight := d1.cmd.inflight.erase f }.complete f.org f.opcode true r).gateAfter f.gate).pseDrain f.job).kick.pendServe) := by
  have hstart : (s.dev.cmd.inflight[k]?).any (·.gate == .start) = false := by rw [hf]; simpa using hgate
  have hheld : (f.org.chan != .mailbox && f.gate != .start && s.here.curator != curRUNNING && s.here.curator != curREHANG) = false := by
    rcases hserve with h | h | h
    · simp [h]
    · simp [h]
    · simp [h]
  refine congrArg Host.Outcome.next ((if_neg (by rw [hstart]; decide)).trans (onDev_eq s _ _ ?_))
  rw [Dev.completion, State.here_cmd, hf]
  dsimp only
  rw [hres]
  dsimp only
  rw [hheld, hover]
  rfl

/-- Settles O25: what each command checks and walks, and what a completion waits for. -/
theorem destroyCommands : Obligations.DestroyCommands := by
  refine ⟨fun s o ops r hat hr => ⟨fun h => ?_, fun h16 hon => ?_, fun h16 hon => ?_⟩, fun s o ops j hat hj => ⟨fun h => ?_, fun h hown => ?_⟩,
    fun s k f r hf hres hserve hgate d1 hover => exec_commandCompletion_over hf hres hserve hgate hover, fun s k f r hgate hused hf => ?_,
    fun s k f j hgate hrings hf hkeys => ?_, fun s k f p c hgate hheld => ?_, fun s k f r hf hres hgate hchan hrun hreh => ?_⟩
  · exact congrArg Host.Outcome.next (onDev_congr s _ _ (command_now hat (Dev.ringDestroy_refused (d := s.here) hr h)))
  · exact congrArg Host.Outcome.next (onDev_congr s _ _ (command_now hat (Dev.ringDestroy_disables (d := s.here) hr h16 hon)))
  · exact congrArg Host.Outcome.next (onDev_congr s _ _ (command_later hat (Dev.ringDestroy_walks (d := s.here) hr h16 hon)))
  · exact congrArg Host.Outcome.next (onDev_congr s _ _ (command_now hat (Dev.jobDestroy_refused (d := s.here) hj h)))
  · exact congrArg Host.Outcome.next (onDev_congr s _ _ (command_later hat (Dev.jobDestroy_walks (d := s.here) hj h hown)))
  · obtain ⟨w, hw⟩ := Dev.walkOn_empty (d := s.here) hused
    rw [Dev.gateOver, hgate]
    dsimp only
    rw [hw, Dev.ringWalked_only (d := s.here.withHalt w) hused hf]
  · obtain ⟨w, hw⟩ := Dev.walkJob_empty (d := s.here) hrings
    rw [Dev.gateOver, hgate]
    dsimp only
    rw [hw, Dev.jobQuiet_only (d := s.here.withHalt w) hrings hf hkeys]
    rfl
  · rw [Dev.gateOver, hgate]
    dsimp only
    rw [if_neg (by rw [State.here_cmd, hheld]; decide)]
  · have hstart : (s.dev.cmd.inflight[k]?).any (·.gate == .start) = false := by rw [hf]; simp [hgate]
    refine congrArg Host.Outcome.next ((if_neg (by rw [hstart]; decide)).trans (onDev_congr s _ _ ?_))
    rw [Dev.completion, State.here_cmd, hf]
    dsimp only
    rw [hres]
    dsimp only
    rw [if_pos (by simp [hgate, hchan, hrun, hreh])]
    rfl

/-! ## Firmware (R77 to R85) -/

theorem onFuses_congr (s : State) (f g : Dev → Dev) (h : f s.here = g s.here) : s.onFuses f = s.onFuses g := by
  unfold State.onFuses
  rw [onDev_congr s f g h]

section Firmware
variable {d d1 : Dev} {o : Origin} {ops : Bytes} {rd : ImageRd}

theorem Dev.fwLoad_read (hstack : d.stackFailed 0 = false) (hreh : d.rehanging = false) (hread : d.imageAt o ops = (d1, .ok rd)) : d.fwLoad o ops =
    match d1.verifyImage rd (some (opnd ops 24 4)) with
    | .error st => (d1, .now (errR st))
    | .ok im => ({ d1 with cmd.staged := some im }.set CMD.CURATOR_STATE.STATE curLOADING, .later (okR im.version) .start []) := by
  unfold Dev.fwLoad
  rw [hstack, hreh, hread] <;> rfl

theorem Dev.fwRehang_read (hcur : d.curator = curRUNNING) (hreh : d.rehanging = false) (hhalt : d.get CSV.DBG_STATE.HALTED = 0)
    (hread : d.imageAt o ops = (d1, .ok rd)) : d.fwRehang o ops =
    match d1.verifyImage rd (some (opnd ops 24 4)) with
    | .error st => (d1, .now (errA 0x0104 st))
    | .ok im => ({ d1 with cmd.staged := some im }, .later (okR im.version) .rehang []) := by
  unfold Dev.fwRehang
  rw [if_neg (by simp [hcur, hreh, hhalt]), hread] <;> rfl

end Firmware

/-- An image that starts completes its FW_LOAD (R78). -/
theorem Dev.completion_starts {d : Dev} {k : Nat} {f : InFlight} {r : Result} {im : ImageInfo} (hf : d.cmd.inflight[k]? = some f) (hres : f.res = some r)
    (hgate : f.gate = .start) (hstaged : d.cmd.staged = some im) (hcur : d.curator = curLOADING) : d.completion k =
      ((({ d.startImage im with cmd.inflight := (d.startImage im).cmd.inflight.erase f }.complete f.org f.opcode true r)).pseDrain f.job).kick.pendServe := by
  have hover : d.gateOver k f = (d.startImage im, true) := by
    rw [Dev.gateOver, hgate]
    dsimp only
    rw [hstaged]
    exact if_pos hcur
  unfold Dev.completion
  rw [hf]
  dsimp only
  rw [hres]
  dsimp only
  rw [if_neg (by simp [hgate]), hover]
  dsimp only
  rw [hgate]
  rfl

/-- The live exchange begins once no command is left that the old curator executes (R82). -/
theorem Dev.completion_rehangs {d : Dev} {k : Nat} {f : InFlight} {r : Result} (hf : d.cmd.inflight[k]? = some f) (hres : f.res = some r)
    (hgate : f.gate = .rehang) (hcur : d.curator = curRUNNING) (hnone : ∀ g ∈ d.cmd.inflight, g.curators = false) : d.completion k = d.rehangSwitch k := by
  have hany : d.cmd.inflight.any (·.curators) = false := List.any_eq_false.mpr fun g hg => by simp [hnone g hg]
  have hover : d.gateOver k f = (d.rehangSwitch k, false) := by
    rw [Dev.gateOver, hgate]
    dsimp only
    exact if_neg (by simp [hcur, hany])
  unfold Dev.completion
  rw [hf]
  dsimp only
  rw [hres]
  dsimp only
  rw [if_neg (by simp [hcur]), hover]

/-- Settles O26: an image that is read, checked, staged, started and resumed. -/
theorem firmwareCommands : Obligations.FirmwareCommands := by
  refine ⟨fun s o ops d1 rd hat hstack hreh hread => ⟨fun st hv => ?_, fun im hv => ?_⟩, fun s k f r im hf hres hgate hstaged hcur => ?_,
    fun s o ops d1 rd hat hcur hreh hhalt hread => ⟨fun st hv => ?_, fun im hv => ?_⟩, fun s k f r hf hres hgate hcur hnone => ?_, fun s im hstaged hcur => ?_⟩
  · have heff := Dev.fwLoad_read (d := s.here) hstack hreh hread
    rw [hv] at heff
    exact congrArg Host.Outcome.next (onDev_congr s _ _ (command_now hat heff))
  · have heff := Dev.fwLoad_read (d := s.here) hstack hreh hread
    rw [hv] at heff
    exact congrArg Host.Outcome.next (onDev_congr s _ _ (command_later hat heff))
  · have hstart : (s.dev.cmd.inflight[k]?).any (·.gate == .start) = true := by rw [hf]; simp [hgate]
    have hdone := Dev.completion_starts (d := s.here) hf hres hgate hstaged hcur
    refine ⟨s.here.startImage im, ?_, congrArg Host.Outcome.next ((if_pos hstart).trans (onFuses_congr s _ _ hdone))⟩
    unfold Dev.startImage
    rw [State.here_cmd]
    simp only [Option.isNone_iff_eq_none]
  · have heff := Dev.fwRehang_read (d := s.here) hcur hreh hhalt hread
    rw [hv] at heff
    exact congrArg Host.Outcome.next (onDev_congr s _ _ (command_now hat heff))
  · have heff := Dev.fwRehang_read (d := s.here) hcur hreh hhalt hread
    rw [hv] at heff
    exact congrArg Host.Outcome.next (onDev_congr s _ _ (command_later hat heff))
  · have hstart : (s.dev.cmd.inflight[k]?).any (·.gate == .start) = false := by rw [hf]; simp [hgate]
    exact congrArg Host.Outcome.next ((if_neg (by rw [hstart]; decide)).trans
      (onDev_congr s _ _ (Dev.completion_rehangs (d := s.here) hf hres hgate hcur hnone)))
  · refine congrArg Host.Outcome.next (onFuses_congr s _ _ ?_)
    have hgo : ¬ s.here.curator ≠ curREHANG := not_not_intro hcur
    unfold Dev.rehangResume
    rw [State.here_cmd, hstaged]
    exact if_neg hgo

end Sys2Proof.Machine
end


section
/-! PROOFS. Memory and its commands (R17, R320, R334 to R343). -/

namespace Sys2Proof.Machine

/-! ## Byte memories -/

theorem memRead_eq_map (m : SMap Byte) (n : Nat) : ∀ a, memRead m a n = (List.range n).map (fun i => memGet m (a + i)) := by
  induction n with
  | zero => exact fun a => rfl
  | succ n ih =>
    intro a
    rw [List.range_succ_eq_map, List.map_cons, List.map_map, memRead, ih]
    congr 1
    refine List.map_congr_left fun i _ => ?_
    rw [Function.comp_apply, Nat.add_assoc, Nat.add_comm 1 i]

theorem memRead_congr {m m' : SMap Byte} {a n : Nat} (h : ∀ j, a ≤ j → j < a + n → memGet m j = memGet m' j) : memRead m a n = memRead m' a n := by
  rw [memRead_eq_map, memRead_eq_map]
  exact List.map_congr_left fun i hi => h _ (Nat.le_add_right a i) (Nat.add_lt_add_left (List.mem_range.mp hi) a)

/-- A range that reads byte by byte as a string reads as the string. -/
theorem memRead_of_bytes {m : SMap Byte} {a : Nat} (bs : Bytes) (h : ∀ j, a ≤ j → j < a + bs.length → memGet m j = bs.getD (j - a) 0) :
    memRead m a bs.length = bs := by
  rw [memRead_eq_map]
  refine List.ext_getElem (by simp) fun i hi hi' => ?_
  rw [List.getElem_map, List.getElem_range, h _ (Nat.le_add_right a i) (by omega), Nat.add_sub_cancel_left]
  rw [List.getD_eq_getElem?_getD, List.getElem?_eq_getElem hi', Option.getD_some]

theorem memGet_zero (m : SMap Byte) (a n j : Nat) : memGet (memZero m a n) j = if a ≤ j ∧ j < a + n then 0 else memGet m j := smapGet_clear m a n j

/-! ## Stores of whole codewords (R341 to R343) -/

theorem Dev.rawRead_eq_map (d : Dev) (flat n : Nat) :
    d.rawRead flat n = (List.range n).map (fun i => if flat + i < memBytes d.code then memGet d.hbm.mem (flat + i) else 0xFF) := by
  unfold Dev.rawRead
  split
  next h =>
    rw [memRead_eq_map]
    refine List.map_congr_left fun i hi => ?_
    have hlt : flat + i < memBytes d.code := by
      have := List.mem_range.mp hi
      omega
    rw [if_pos hlt]
  next => rfl

theorem partCws_whole {flat n : Nat} (hf : flat % 64 = 0) (hn : n % 64 = 0) : partCws flat n = [] := by
  unfold partCws
  split
  · rfl
  · rw [if_neg (by omega), if_neg (by omega)]
    rfl

theorem stackMap_off_ne (k : Nat) : HMC.STACK_MAP.FAILED.off ≠ (HMC.TRAFFIC.COUNT k).off := by
  simp only [HMC.STACK_MAP.FAILED, HMC.TRAFFIC.COUNT]
  omega

/-- Counting traffic touches no memory, no codeword and no stack's state. -/
theorem Dev.countTraffic_keeps (d : Dev) (flat n : Nat) : (d.countTraffic flat n).code = d.code ∧ (d.countTraffic flat n).hbm.mem = d.hbm.mem ∧
    (d.countTraffic flat n).hbm.cw = d.hbm.cw ∧ (d.countTraffic flat n).get HMC.STACK_MAP.FAILED = d.get HMC.STACK_MAP.FAILED := by
  unfold Dev.countTraffic
  split
  · exact ⟨rfl, rfl, rfl, rfl⟩
  next k o heq =>
    refine ⟨rfl, rfl, rfl, Dev.get_congr _ ?_⟩
    exact Dev.rd_set_ne d (HMC.TRAFFIC.COUNT k) _ _ (stackMap_off_ne k)

theorem Dev.flatFailed_congr {d e : Dev} (hcode : e.code = d.code) (hmap : e.get HMC.STACK_MAP.FAILED = d.get HMC.STACK_MAP.FAILED) (flat : Nat) :
    e.flatFailed flat = d.flatFailed flat := by
  unfold Dev.flatFailed Dev.stackFailed
  rw [hcode, hmap]

/-- A piece of whole codewords on a stack in service: its bytes, and its codewords clean. -/
theorem Dev.storeVia_whole {d : Dev} {flat n : Nat} {bs : Bytes} (hf : flat % 64 = 0) (hn : n % 64 = 0) (hfit : flat + n ≤ memBytes d.code)
    (hlen : bs.length = n) (hok : d.flatFailed flat = false) : ∃ e, e = d.storeVia flat n (·.rawWrite flat bs) ∧ e.code = d.code ∧
      e.hbm.mem = memWrite d.hbm.mem flat bs ∧ e.hbm.cw = smapClear d.hbm.cw (flat / 64) (n / 64) ∧ e.get HMC.STACK_MAP.FAILED = d.get HMC.STACK_MAP.FAILED := by
  refine ⟨_, rfl, ?_⟩
  have hlo : ceilDiv flat 64 = flat / 64 := by simp only [ceilDiv]; omega
  have hhi : (flat + n) / 64 - flat / 64 = n / 64 := by omega
  have htake : bs.take (memBytes d.code - flat) = bs := List.take_of_length_le (by omega)
  have heq : d.storeVia flat n (·.rawWrite flat bs) = { d with hbm.mem := memWrite d.hbm.mem flat bs, hbm.cw := smapClear d.hbm.cw (flat / 64) (n / 64) }.countTraffic flat n := by
    unfold Dev.storeVia
    rw [hok, partCws_whole hf hn, hlo]
    show ({ d.rawWrite flat bs with hbm.cw := smapClear (d.rawWrite flat bs).hbm.cw (flat / 64) ((flat + n) / 64 - flat / 64) } : Dev).countTraffic flat n = _
    rw [hhi, Dev.rawWrite, htake]
  rw [heq]
  exact Dev.countTraffic_keeps _ flat n

/-- Where a range is cut: the pieces lie one after another, whole codewords each. -/
theorem storePieces_whole (fuel : Nat) : ∀ (d : Dev) (a : Nat) (bs : Bytes), a % 64 = 0 → bs.length % 64 = 0 → a + bs.length ≤ memBytes d.code →
    (∀ g ∈ flatCut fuel a bs.length, d.flatFailed g.1 = false) → ∃ e, e = d.storePieces (flatCut fuel a bs.length) bs ∧ e.code = d.code ∧
      (∀ j, memGet e.hbm.mem j = if a ≤ j ∧ j < a + bs.length then bs.getD (j - a) 0 else memGet d.hbm.mem j) ∧
      (∀ i, a / 64 ≤ i → i < (a + bs.length) / 64 → e.cwAt i = .clean) ∧ (∀ i, i < a / 64 → e.cwAt i = d.cwAt i) := by
  have hone : ∀ (d : Dev) (a : Nat) (bs : Bytes), a % 64 = 0 → bs.length % 64 = 0 → a + bs.length ≤ memBytes d.code → d.flatFailed a = false →
      ∃ e, e = d.storeVia a bs.length (·.rawWrite a bs) ∧ e.code = d.code ∧ e.get HMC.STACK_MAP.FAILED = d.get HMC.STACK_MAP.FAILED ∧
      (∀ j, memGet e.hbm.mem j = if a ≤ j ∧ j < a + bs.length then bs.getD (j - a) 0 else memGet d.hbm.mem j) ∧
      (∀ i, a / 64 ≤ i → i < (a + bs.length) / 64 → e.cwAt i = .clean) ∧ (∀ i, i < a / 64 → e.cwAt i = d.cwAt i) := by
    intro d a bs ha hn hfit hok
    obtain ⟨e, he, hcode, hmem, hcw, hmap⟩ := Dev.storeVia_whole ha hn hfit rfl hok
    refine ⟨e, he, hcode, hmap, fun j => ?_, fun i hlo hhi => ?_, fun i hi => ?_⟩
    · rw [hmem, memGet_write]
    · rw [Dev.cwAt, hcw, smapGet_clear, if_pos (by omega)]
      rfl
    · rw [Dev.cwAt, hcw, smapGet_clear, if_neg (by omega), Dev.cwAt]
  have hwhole : ∀ (d : Dev) (a : Nat) (bs : Bytes), a % 64 = 0 → bs.length % 64 = 0 → a + bs.length ≤ memBytes d.code → (bs.length ≠ 0 → d.flatFailed a = false) →
      ∃ e, e = d.storePieces (if bs.length = 0 then [] else [(a, bs.length)]) bs ∧ e.code = d.code ∧
      (∀ j, memGet e.hbm.mem j = if a ≤ j ∧ j < a + bs.length then bs.getD (j - a) 0 else memGet d.hbm.mem j) ∧
      (∀ i, a / 64 ≤ i → i < (a + bs.length) / 64 → e.cwAt i = .clean) ∧ (∀ i, i < a / 64 → e.cwAt i = d.cwAt i) := by
    intro d a bs ha hn hfit hok
    by_cases h0 : bs.length = 0
    · refine ⟨d, by rw [if_pos h0]; rfl, rfl, fun j => by rw [if_neg (by omega)], fun i hlo hhi => by omega, fun i _ => rfl⟩
    · obtain ⟨e, he, hcode, hmap, hrest⟩ := hone d a bs ha hn hfit (hok h0)
      refine ⟨e, ?_, hcode, hrest⟩
      rw [if_neg h0, Dev.storePieces, List.take_length]
      exact he
  induction fuel with
  | zero =>
    intro d a bs ha hn hfit hok
    refine hwhole d a bs ha hn hfit fun h0 => hok (a, bs.length) ?_
    rw [flatCut, if_neg h0]
    exact List.mem_singleton.mpr rfl
  | succ fuel ih =>
    intro d a bs ha hn hfit hok
    rw [flatCut] at hok ⊢
    have hk64 : (stackBytes - a % stackBytes) % 64 = 0 := by
      rw [show stackBytes = 51539607552 from rfl]
      omega
    generalize hk : stackBytes - a % stackBytes = k at *
    by_cases hle : bs.length = 0 ∨ bs.length ≤ k
    · have hshape : (if bs.length = 0 then [] else if bs.length ≤ k then [(a, bs.length)] else (a, k) :: flatCut fuel (a + k) (bs.length - k)) =
          if bs.length = 0 then [] else [(a, bs.length)] := by
        split
        · rfl
        · rw [if_pos (by omega)]
      rw [hshape] at hok ⊢
      refine hwhole d a bs ha hn hfit fun h0 => hok (a, bs.length) ?_
      rw [if_neg h0]
      exact List.mem_singleton.mpr rfl
    · rw [if_neg (by omega), if_neg (by omega)] at hok ⊢
      have hfirst : (bs.take k).length = k := List.length_take_of_le (by omega)
      have hlast : (bs.drop k).length = bs.length - k := List.length_drop
      obtain ⟨e1, he1, hcode1, hmap1, hmem1, hclean1, hkeep1⟩ := hone d a (bs.take k) ha (by rw [hfirst]; exact hk64) (by rw [hfirst]; omega)
        (hok (a, k) List.mem_cons_self)
      rw [hfirst] at he1 hmem1 hclean1
      obtain ⟨e, he, hcode, hmem, hclean, hkeep⟩ := ih e1 (a + k) (bs.drop k) (by omega) (by rw [hlast]; omega) (by rw [hlast, hcode1]; omega)
        (fun g hg => by rw [Dev.flatFailed_congr hcode1 hmap1]; rw [hlast] at hg; exact hok g (List.mem_cons_of_mem _ hg))
      rw [hlast] at he hmem hclean
      refine ⟨e, ?_, hcode.trans hcode1, fun j => ?_, fun i hlo hhi => ?_, fun i hi => ?_⟩
      · rw [Dev.storePieces, ← he1]
        exact he
      · rw [hmem, hmem1]
        by_cases h1 : a + k ≤ j ∧ j < a + k + (bs.length - k)
        · rw [if_pos h1, if_pos (by omega), List.getD_eq_getElem?_getD, List.getD_eq_getElem?_getD, List.getElem?_drop]
          congr 2
          omega
        · rw [if_neg h1]
          by_cases h2 : a ≤ j ∧ j < a + k
          · rw [if_pos h2, if_pos (by omega), List.getD_eq_getElem?_getD, List.getD_eq_getElem?_getD, List.getElem?_take_of_lt (by omega)]
          · rw [if_neg h2, if_neg (by omega)]
      · by_cases h1 : (a + k) / 64 ≤ i
        · exact hclean i h1 (by omega)
        · rw [hkeep i (by omega)]
          exact hclean1 i hlo (by omega)
      · rw [hkeep i (by omega)]
        exact hkeep1 i hi

/-- Settles O28: byte by byte, and piece by piece. -/
theorem memoryKeepsWhatIsWritten : Obligations.MemoryKeepsWhatIsWritten := by
  refine ⟨fun m a bs hwf => ⟨memWrite_wf bs m a hwf, memRead_of_bytes bs fun j hlo hhi => ?_, fun b n hout => memRead_congr fun j hlo hhi => ?_,
    fun n => ⟨memZero_wf m a n hwf, ?_⟩⟩, fun d flat bs hwf hok hfit hflat hlen hpos => ?_⟩
  · rw [memGet_write, if_pos ⟨hlo, hhi⟩]
  · rw [memGet_write, if_neg (by omega)]
  · have h := memRead_of_bytes (m := memZero m a n) (a := a) (List.replicate n 0) fun j hlo hhi => by
      rw [List.length_replicate] at hhi
      rw [memGet_zero, if_pos ⟨hlo, hhi⟩, List.getD_eq_getElem?_getD, List.getElem?_replicate, if_pos (by omega), Option.getD_some]
    rwa [List.length_replicate] at h
  · obtain ⟨e, he, hcode, hmem, hclean, _⟩ := storePieces_whole 12 d flat bs hflat hlen hfit hok
    have hstore : d.store flat bs = e := he.symm
    rw [hstore]
    refine ⟨?_, fun a n hout => ?_, hclean⟩
    · rw [Dev.rawRead, if_pos (by rw [hcode]; exact hfit)]
      exact memRead_of_bytes bs fun j hlo hhi => by rw [hmem, if_pos ⟨hlo, hhi⟩]
    · rw [Dev.rawRead_eq_map, Dev.rawRead_eq_map, hcode]
      refine List.map_congr_left fun i hi => ?_
      have := List.mem_range.mp hi
      have hout' : ¬ (flat ≤ a + i ∧ a + i < flat + bs.length) := by omega
      rw [hmem, if_neg hout']

/-! ## MAP, UNMAP and INVALIDATE (R334 to R338) -/

section Catalogue
variable {d : Dev} {job : Nat} {ops : Bytes}

theorem Dev.mapEff_refused {st r : Nat} (h : d.mapCheck job ops = some (st, r)) : d.mapEff job ops = (d, .now (errA st r)) := by
  unfold Dev.mapEff
  rw [h]

theorem Dev.mapEff_mapped {d1 : Dev} {f : Nat} (h : d.mapCheck job ops = none) (hmap : d.mapPages (mapOps ops) = (d1, f)) : d.mapEff job ops =
    if (mapOps ops).replace = true ∧ (mapOps ops).sync = true then
      (d1.dropCached (mapOps ops).page (mapOps ops).count, .later (okR f) (.invalidate (mapOps ops).page (mapOps ops).count) [])
    else (d1, .now (okR f)) := by
  unfold Dev.mapEff
  rw [h]
  dsimp only
  rw [hmap]
  simp only [Bool.and_eq_true]

/-- The mapped pages of an UNMAP's range. -/
def Dev.mappedPages (d : Dev) (ops : Bytes) : List Nat :=
  ((List.range (opnd ops 24 4)).map (opnd ops 16 8 / pageBytes + ·)).filter (fun q => entValid (d.entryOf q))

theorem Dev.unmapEff_outside (h : pagesOk (opnd ops 16 8) (opnd ops 24 4) = false) : d.unmapEff job ops = (d, .now (errR 0x0215)) := by
  unfold Dev.unmapEff
  dsimp only
  rw [h]
  rfl

theorem Dev.unmapEff_inside (h : pagesOk (opnd ops 16 8) (opnd ops 24 4) = true) : d.unmapEff job ops =
    if ∃ q ∈ d.mappedPages ops, entDomain (d.entryOf q) ≠ d.domOf job then (d, .now (errR 0x0211))
    else (((d.each (d.mappedPages ops) (fun d q => { d with hbm.limbo := d.hbm.limbo ++ [(q, entPfn (d.entryOf q))] }.putEntryOf q 0)).weakDue.dropCached
      (opnd ops 16 8 / pageBytes) (opnd ops 24 4)), .later (okR (d.mappedPages ops).length) (.invalidate (opnd ops 16 8 / pageBytes) (opnd ops 24 4)) []) := by
  unfold Dev.unmapEff
  dsimp only
  rw [h]
  simp only [Bool.not_true, Bool.false_eq_true, if_false, List.any_eq_true, bne_iff_ne]
  rfl

theorem Dev.invalidateEff_all (h : opnd ops 24 4 = 0) : d.invalidateEff ops = (d.dropCached 0 0, .later (okR 0) (.invalidate 0 0) []) := if_pos h

theorem Dev.invalidateEff_range (h : opnd ops 24 4 ≠ 0) : d.invalidateEff ops =
    if pagesOk (opnd ops 16 8) (opnd ops 24 4) = true then
      (d.dropCached (opnd ops 16 8 / pageBytes) (opnd ops 24 4), .later (okR 0) (.invalidate (opnd ops 16 8 / pageBytes) (opnd ops 24 4)) [])
    else (d, .now (errR 0x0215)) := by
  unfold Dev.invalidateEff
  dsimp only
  rw [if_neg h]
  cases pagesOk (opnd ops 16 8) (opnd ops 24 4) <;> rfl

end Catalogue

/-! ## COPY, FILL and HOST_DMA (R339, R340) -/

section Moves
variable {d d1 d2 : Dev} {job : Nat} {ops : Bytes} {src dst segs : List Seg}

theorem Dev.copyEff_copies (hs : rangeOk (opnd ops 16 8) (opnd ops 32 8) = true) (hd : rangeOk (opnd ops 24 8) (opnd ops 32 8) = true)
    (hn : opnd ops 32 8 ≤ 2 ^ 40) (h1 : d.tryXlate (cmdAcc 1 (d.domOf job)) (opnd ops 16 8) (opnd ops 32 8) = (d1, .ok src))
    (h2 : d1.tryXlate (cmdAcc 2 (d.domOf job)) (opnd ops 24 8) (opnd ops 32 8) = (d2, .ok dst)) (hread : (d2.readSegs src).2 = none)
    (hfit : (d2.readSegs src).1.segFailed 0 dst = none) : d.copyEff job ops = ((d2.readSegs src).1.storeSparse (d2.segGather 0 src) 0 dst,
      .later (okR 0) .ready [(opnd ops 16 8, opnd ops 32 8), (opnd ops 24 8, opnd ops 32 8)]) := by
  have hgo : (!rangeOk (opnd ops 16 8) (opnd ops 32 8) || !rangeOk (opnd ops 24 8) (opnd ops 32 8) || decide (2 ^ 40 < opnd ops 32 8)) = false := by
    rw [hs, hd, decide_eq_false (Nat.not_lt.mpr hn)]
    rfl
  have hmove : d2.moveSegs src dst (opnd ops 16 8) (opnd ops 24 8) = ((d2.readSegs src).1.storeSparse (d2.segGather 0 src) 0 dst, okR 0) := by
    have hr : d2.readSegs src = ((d2.readSegs src).1, none) := Prod.ext rfl hread
    unfold Dev.moveSegs
    dsimp only
    rw [hread, hfit]
  unfold Dev.copyEff
  dsimp only
  rw [hgo, h1]
  dsimp only
  rw [h2]
  show (match (d2, (none : Option (Nat × Nat))) with
    | (d, some (st, a)) => (d, Answer.now (errA st a))
    | (d, none) => ((d.moveSegs src dst (opnd ops 16 8) (opnd ops 24 8)).1, .later (d.moveSegs src dst (opnd ops 16 8) (opnd ops 24 8)).2 .ready
        [(opnd ops 16 8, opnd ops 32 8), (opnd ops 24 8, opnd ops 32 8)])) = _
  dsimp only
  rw [hmove]

theorem Dev.copyEff_outside (h : rangeOk (opnd ops 16 8) (opnd ops 32 8) = false ∨ rangeOk (opnd ops 24 8) (opnd ops 32 8) = false ∨ 2 ^ 40 < opnd ops 32 8) :
    d.copyEff job ops = (d, .now (errR 0x0215)) := by
  unfold Dev.copyEff
  dsimp only
  refine if_pos ?_
  rcases h with h | h | h
  · rw [h]; rfl
  · rw [h]; simp
  · rw [decide_eq_true h]; simp

theorem Dev.fillEff_inRange (h : rangeOk (opnd ops 16 8) (opnd ops 24 8) = true) (hn : opnd ops 24 8 ≤ 2 ^ 40) : d.fillEff job ops =
    if opnd ops 36 1 ∉ [1, 2, 4] then (d, .now (errR 0x0107))
    else match d.xlate (cmdAcc 2 (d.domOf job)) (opnd ops 16 8) (opnd ops 24 8) with
    | (d, .error e) => (d, .now (errA (causeStatus e.cause) e.addr))
    | (d, .ok segs) =>
      match d.segFailed 0 segs with
      | none => (d.storeSegs segs (repeatBytes ((leBytes 4 (opnd ops 32 4)).take (opnd ops 36 1)) (opnd ops 24 8)), .later (okR 0) .ready [(opnd ops 16 8, opnd ops 24 8)])
      | some o => (d.draw.2.storeSegs segs (repeatBytes ((leBytes 4 (opnd ops 32 4)).take (opnd ops 36 1)) (d.draw.1 % (o + 1))),
          .later (errA 0x0216 ((opnd ops 16 8 + o) / 64 * 64)) .ready [(opnd ops 16 8, opnd ops 24 8)]) := by
  unfold Dev.fillEff
  dsimp only
  rw [h, decide_eq_false (Nat.not_lt.mpr hn)]
  simp only [List.mem_cons, List.not_mem_nil, or_false, not_or, Bool.not_true, Bool.or_self, Bool.false_eq_true, if_false] <;> rfl

theorem Dev.hostDmaEff_in (h : rangeOk (opnd ops 24 8) (opnd ops 32 8) = true) (hn : opnd ops 32 8 ≤ 2 ^ 40) (hout : opnd ops 40 1 = 0)
    (hx : d.xlate (hifAcc 2 (d.domOf job)) (opnd ops 24 8) (opnd ops 32 8) = (d1, .ok segs)) (hfit : d1.segFailed 0 segs = none) : d.hostDmaEff job ops =
      (d1.storeSparse ((smapRange d1.host (opnd ops 16 8) (opnd ops 32 8)).map (fun e => (e.1 - opnd ops 16 8, e.2))) 0 segs,
        .later (okR 0) .ready [(opnd ops 24 8, opnd ops 32 8)]) := by
  unfold Dev.hostDmaEff
  dsimp only
  rw [h, decide_eq_false (Nat.not_lt.mpr hn), hout, if_pos rfl, hx]
  dsimp only
  rw [if_pos rfl, hfit]
  rfl

theorem Dev.hostDmaEff_out (h : rangeOk (opnd ops 24 8) (opnd ops 32 8) = true) (hn : opnd ops 32 8 ≤ 2 ^ 40) (hout : opnd ops 40 1 = 1)
    (hx : d.xlate (hifAcc 1 (d.domOf job)) (opnd ops 24 8) (opnd ops 32 8) = (d1, .ok segs)) (hread : (d1.readSegs segs).2 = none)
    (h2 : d2 = (d1.readSegs segs).1) : d.hostDmaEff job ops =
      ({ d2 with
        host := smapSetAll memDflt (memZero d2.host (opnd ops 16 8) (opnd ops 32 8))
          ((smapRange (d2.segGather 0 segs) 0 (opnd ops 32 8)).map (fun (e : Nat × Byte) => (e.1 + opnd ops 16 8, e.2))) }.emit
          (.hostWrite [(opnd ops 16 8, opnd ops 32 8)] true false), .later (okR 0) .ready [(opnd ops 24 8, opnd ops 32 8)]) := by
  subst h2
  unfold Dev.hostDmaEff
  dsimp only
  rw [h, decide_eq_false (Nat.not_lt.mpr hn), hout, if_neg (by decide), if_neg (by decide), if_neg (by decide), hx]
  dsimp only
  rw [if_neg (by decide), hread]

end Moves

/-- Settles O29: each command's check that fails first, and what one that passes does. -/
theorem memoryCommands : Obligations.MemoryCommands := by
  refine ⟨fun s o ops => ⟨fun hat st r h => ?_, fun hat h d1 f hmap => ⟨fun hno => ?_, fun hrep hsync => ?_⟩, fun hat h => ?_, fun hat h ps hps => ?_,
    fun hat h => ?_, fun hat h hok => ?_, fun hat h hbad => ?_⟩, fun s o ops => ⟨fun hat hs hd hn d1 d2 src dst h1 h2 hread hfit => ?_, fun hat h => ?_,
    fun hat h hn hw d1 segs hx hfit => ?_, fun hat h hn hw => ?_, fun hat h hn hout d1 segs hx hfit => ?_, fun hat h hn hout d1 segs hx hread => ⟨_, rfl, ?_⟩⟩⟩
  · exact congrArg Host.Outcome.next (onDev_congr s _ _ (command_now hat (eff := fun d => d.mapEff (s.dev.jobOf o) ops) (Dev.mapEff_refused h)))
  · have heff := (Dev.mapEff_mapped h hmap).trans (if_neg hno)
    exact congrArg Host.Outcome.next (onDev_congr s _ _ (command_now hat (eff := fun d => d.mapEff (s.dev.jobOf o) ops) heff))
  · have heff := (Dev.mapEff_mapped h hmap).trans (if_pos ⟨hrep, hsync⟩)
    exact congrArg Host.Outcome.next (onDev_congr s _ _ (command_later hat (eff := fun d => d.mapEff (s.dev.jobOf o) ops) heff))
  · exact congrArg Host.Outcome.next (onDev_congr s _ _ (command_now hat (eff := fun d => d.unmapEff (s.dev.jobOf o) ops) (Dev.unmapEff_outside h)))
  · have hpages : s.here.mappedPages ops = ps := by
      rw [hps, Dev.mappedPages]
      simp only [State.here_entryOf]
    have heff := Dev.unmapEff_inside (d := s.here) (job := s.dev.jobOf o) h
    rw [hpages] at heff
    simp only [State.here_entryOf, State.here_domOf] at heff
    refine ⟨fun hforeign => ?_, fun hown => ?_⟩
    · exact congrArg Host.Outcome.next (onDev_congr s _ _ (command_now hat (eff := fun d => d.unmapEff (s.dev.jobOf o) ops) (heff.trans (if_pos hforeign))))
    · have hno : ¬ ∃ q ∈ ps, entDomain (s.dev.entryOf q) ≠ s.dev.domOf (s.dev.jobOf o) := fun ⟨q, hq, hne⟩ => hne (hown q hq)
      exact congrArg Host.Outcome.next (onDev_congr s _ _ (command_later hat (eff := fun d => d.unmapEff (s.dev.jobOf o) ops) (heff.trans (if_neg hno))))
  · exact congrArg Host.Outcome.next (onDev_congr s _ _ (command_later hat (Dev.invalidateEff_all h)))
  · exact congrArg Host.Outcome.next (onDev_congr s _ _ (command_later hat ((Dev.invalidateEff_range h).trans (if_pos hok))))
  · exact congrArg Host.Outcome.next (onDev_congr s _ _ (command_now hat ((Dev.invalidateEff_range h).trans (if_neg (by rw [hbad]; decide)))))
  · exact congrArg Host.Outcome.next (onDev_congr s _ _ (command_later hat (eff := fun d => d.copyEff (s.dev.jobOf o) ops)
      (Dev.copyEff_copies hs hd hn h1 h2 hread hfit)))
  · exact congrArg Host.Outcome.next (onDev_congr s _ _ (command_now hat (eff := fun d => d.copyEff (s.dev.jobOf o) ops) (Dev.copyEff_outside h)))
  · have heff := (Dev.fillEff_inRange (d := s.here) (job := s.dev.jobOf o) h hn).trans (if_neg (not_not_intro hw))
    rw [show s.here.domOf (s.dev.jobOf o) = s.dev.domOf (s.dev.jobOf o) from rfl, hx] at heff
    dsimp only at heff
    rw [hfit] at heff
    exact congrArg Host.Outcome.next (onDev_congr s _ _ (command_later hat (eff := fun d => d.fillEff (s.dev.jobOf o) ops) heff))
  · have heff := (Dev.fillEff_inRange (d := s.here) (job := s.dev.jobOf o) h hn).trans (if_pos hw)
    exact congrArg Host.Outcome.next (onDev_congr s _ _ (command_now hat (eff := fun d => d.fillEff (s.dev.jobOf o) ops) heff))
  · exact congrArg Host.Outcome.next (onDev_congr s _ _ (command_later hat (eff := fun d => d.hostDmaEff (s.dev.jobOf o) ops)
      (Dev.hostDmaEff_in h hn hout hx hfit)))
  · exact congrArg Host.Outcome.next (onDev_congr s _ _ (command_later hat (eff := fun d => d.hostDmaEff (s.dev.jobOf o) ops)
      (Dev.hostDmaEff_out h hn hout hx hread rfl)))

end Sys2Proof.Machine
end


section
/-! PROOFS. Programs, stage maps and pipelines (R286 to R288, R294 to R301, R312, R313). -/

namespace Sys2Proof.Machine

/-! ## PROG_LOAD and TILE_HALT (R286 to R288) -/

theorem Dev.steady_fetch (d : Dev) (a : Acc) (addr n : Nat) : (d.fetch a addr n).1.steady = d.steady := by
  have h := d.steady_xlate a addr n
  unfold Dev.fetch
  generalize d.xlate a addr n = x at h
  obtain ⟨e, res⟩ := x
  cases res with
  | error r => exact h
  | ok segs =>
    have hread : (e.readSegs segs).1.steady = d.steady := (Dev.steady_meetPieces _ e).trans h
    dsimp only
    generalize e.readSegs segs = y at hread ⊢
    obtain ⟨e', bad⟩ := y
    cases bad with
    | some o => exact hread
    | none => exact hread

/-- A read changes no job's domain. -/
theorem Dev.fetch_domOf {d d1 : Dev} {a : Acc} {addr n : Nat} {r : Except (Nat × Nat) Bytes} (h : d.fetch a addr n = (d1, r)) (j : Nat) : d1.domOf j = d.domOf j := by
  have hsteady := d.steady_fetch a addr n
  rw [h] at hsteady
  have hjobs : d1.cmd.jobs = d.cmd.jobs := Dev.steady_part hsteady (·.cmd.jobs)
  rw [Dev.domOf, Dev.job, hjobs, Dev.domOf, Dev.job]

section Programs
variable {d d1 : Dev} {job l t : Nat} {ops b : Bytes}

theorem Dev.progLoad_foreign (hl : l = opnd ops 16 2) (h : d.tileOwned l job = false) : d.progLoad job ops = (d, .now (errR 0x0105)) := by
  subst hl
  unfold Dev.progLoad
  dsimp only
  rw [h]
  rfl

theorem Dev.progLoad_busy (hl : l = opnd ops 16 2) (ht : t = d.phys l) (h : d.tileOwned l job = true) (hst : d.seqState t ∉ [tsEMPTY, tsREADY, tsHALTED]) :
    d.progLoad job ops = (d, .now (errR 0x0270)) := by
  subst hl ht
  have hst' : d.seqState (d.phys (opnd ops 16 2)) ≠ tsEMPTY ∧ d.seqState (d.phys (opnd ops 16 2)) ≠ tsREADY ∧ d.seqState (d.phys (opnd ops 16 2)) ≠ tsHALTED := by
    simpa using hst
  unfold Dev.progLoad
  dsimp only
  rw [h, if_neg (by decide), if_pos hst']

/-- An image that is read: its check, and its load. -/
theorem Dev.progLoad_read (hl : l = opnd ops 16 2) (ht : t = d.phys l) (h : d.tileOwned l job = true) (hst : d.seqState t ∈ [tsEMPTY, tsREADY, tsHALTED])
    (hread : d.fetch (cmdAcc 1 (d.domOf job)) (opnd ops 20 8) (opnd ops 28 4) = (d1, .ok b)) :
    (∀ st r, progCheck b (opnd ops 28 4) (!d1.arrValid t 7) = some (st, r) → d.progLoad job ops = (d1, .now (progErr st r))) ∧
    (progCheck b (opnd ops 28 4) (!d1.arrValid t 7) = none → d.progLoad job ops = ((d1.loadProgram t b (!d1.arrValid t 7)).onTile t
      (fun x => { x with img := (opnd ops 20 8, opnd ops 28 4, d1.domOf job) }),
      .now (okR ((if !d1.arrValid t 7 then code7 b else code8 b).count + if !d1.arrValid t 7 then 0x8000 else 0)))) := by
  subst hl ht
  have hst' : ¬ (d.seqState (d.phys (opnd ops 16 2)) ≠ tsEMPTY ∧ d.seqState (d.phys (opnd ops 16 2)) ≠ tsREADY ∧ d.seqState (d.phys (opnd ops 16 2)) ≠ tsHALTED) := by
    simp only [List.mem_cons, List.not_mem_nil, or_false] at hst
    omega
  unfold Dev.progLoad
  dsimp only
  rw [h, if_neg (by decide), if_neg hst', hread]
  dsimp only
  refine ⟨fun st r hc => ?_, fun hc => ?_⟩
  · rw [hc]
  · rw [hc]

theorem Dev.tileHalt_foreign (hl : l = opnd ops 16 2) (h : d.tileOwned l job = false) : d.tileHalt job ops = (d, .now (errR 0x0105)) := by
  subst hl
  unfold Dev.tileHalt
  dsimp only
  rw [h]
  rfl

theorem Dev.tileHalt_owned (hl : l = opnd ops 16 2) (ht : t = d.phys l) (h : d.tileOwned l job = true) : d.tileHalt job ops =
    if 1 < opnd ops 18 1 then (d, .now (errR 0x0107))
    else if opnd ops 18 1 = 0 then (d.hostHalt t, .now (okR ((d.hostHalt t).get (CMD.SEQ_HALT_PC.PC t))))
    else if d.halted t = true ∧ d.get (CMD.SEQ_HALT.STATUS t) ∉ [0x0273, 0x0276] then (d, .now (errR 0x0105))
    else (d.resumeTile t, .now (okR ((d.resumeTile t).get (CMD.SEQ_HALT_PC.PC t)))) := by
  subst hl ht
  unfold Dev.tileHalt
  dsimp only
  rw [h]
  simp only [Bool.not_true, Bool.false_eq_true, if_false, Bool.and_eq_true, bne_iff_ne, List.mem_cons, List.not_mem_nil, or_false, not_or, and_assoc]

end Programs

/-! ## Pipelines (R294 to R301, R312, R313) -/

section Pipelines
variable {d d1 : Dev} {job p : Nat} {ops b : Bytes} {m : PipeMap}

theorem Dev.stageMap_read (hop : opnd ops 28 1 = 0) (hread : d.fetch (cmdAcc 1 (d.domOf job)) (opnd ops 16 8) (opnd ops 24 4) = (d1, .ok b))
    (hown : ¬ (le b 0 2 ≤ 63 ∧ (d1.pipeState (le b 0 2) ≠ 0 ∨ (readMap b).job ≠ job))) :
    (∀ k, d1.mapCheckStage b (opnd ops 24 4) = some k → d.stageMap job ops = (d1, .now (errA 0x020C k))) ∧
    (d1.mapCheckStage b (opnd ops 24 4) = none → d.stageMap job ops = (d1.mapPipe (le b 0 2) (readMap b), .now (okR 0))) := by
  unfold Dev.stageMap
  dsimp only
  rw [hop, if_neg (by decide), if_neg (by decide), hread]
  dsimp only
  rw [if_neg hown]
  refine ⟨fun k hc => ?_, fun hc => ?_⟩
  · rw [hc]
  · rw [hc]

theorem Dev.stageMap_unmaps (hop : opnd ops 28 1 = 1) (hm : (d.pipe (opnd ops 29 2)).map = some m) (hjob : m.job = job)
    (hst : d.pipeState (opnd ops 29 2) ∈ [psMAPPED, psSTEPEND, psFAULTED]) : d.stageMap job ops = (d.unmapPipe (opnd ops 29 2) m, .now (okR 0)) := by
  unfold Dev.stageMap
  dsimp only
  rw [hop, if_neg (by decide), if_pos rfl, hm]
  exact if_pos ⟨hjob, by simpa using hst⟩

theorem Dev.jobPipe_map (h : d.jobPipe p job = some m) : (d.pipe p).map = some m := by
  unfold Dev.jobPipe at h
  split at h
  next x heq =>
    split at h
    · rw [heq, Option.some.inj h]
    · cases h
  · cases h

/-- A pipeline as it starts (R312). -/
def Dev.pipeStarted (p : Nat) (m : PipeMap) (d : Dev) : Dev :=
  ((((d.startTiles m).toService.set (CMD.PIPE_STATE.STATE p) psRUNNING).clearReg (CMD.PIPE_NEXT.REG p).off).clearReg
    (CMD.PIPE_RETIRED.REG p).off).set2 (CMD.PIPE_STEP_LO.STEP p) (CMD.PIPE_STEP_HI.STEP p) m.step

theorem Dev.pipelineStart_owned (hp : p = opnd ops 16 2) (hm : d.jobPipe p job = some m) : d.pipelineStart job ops =
    if d.pipeState p ≠ psMAPPED ∨ ∃ l ∈ d.localTiles m, d.seqState (d.phys l) ≠ tsREADY then (d, .now (errR 0x020B))
    else (d.pipeStarted p m, .now (okR 0)) := by
  subst hp
  unfold Dev.pipelineStart
  dsimp only
  rw [hm]
  simp only [Bool.not_eq_true', List.all_eq_false, beq_iff_eq]
  rfl

theorem Dev.microbatchAdmit_owned (hp : p = opnd ops 16 2) (hm : d.jobPipe p job = some m) :
    (d.admitCheck p m ops = none → d.microbatchAdmit job ops = (d.admitAll p m ops, .now (okU []))) ∧
    (∀ st r, p < 64 → d.admitCheck p m ops = some (st, r) → d.microbatchAdmit job ops = (d.bump (CMD.PIPE_REJECTS.COUNT p) 1, .now (errA st r))) := by
  subst hp
  unfold Dev.microbatchAdmit
  dsimp only
  rw [hm]
  dsimp only
  refine ⟨fun hc => ?_, fun st r hlt hc => ?_⟩
  · rw [hc]
  · rw [hc]
    dsimp only
    rw [if_pos hlt]

theorem Dev.pipelineDrain_owned (hp : p = opnd ops 16 2) (hm : d.jobPipe p job = some m) : d.pipelineDrain job ops =
    if d.pipeState p = psFAULTED then (d, .now (errR 0x020D))
    else if d.pipeState p ≠ psRUNNING ∨ d.get (CMD.PIPE_NEXT.N p) = 0 ∨ d.get (CMD.PIPE_NEXT.INDEX p) ≠ d.get (CMD.PIPE_NEXT.N p) then (d, .now (errR 0x020B))
    else (d.set (CMD.PIPE_STATE.STATE p) psDRAINING, .unit []) := by
  subst hp
  unfold Dev.pipelineDrain
  dsimp only
  rw [hm]

theorem Dev.drainNow_mapped (hp : p = opnd ops 16 2) (hm : (d.pipe p).map = some m) : d.drainNow ops = d.tryDrain p m := by
  subst hp
  unfold Dev.drainNow
  rw [hm]

end Pipelines

/-- Settles O31: an image and a map by their checks, a tile by its owner. -/
theorem programsAndStageMaps : Obligations.ProgramsAndStageMaps := by
  refine ⟨fun s o ops l t hat hl ht => ⟨fun h => ?_, fun h hst => ?_, fun h hst d1 b hread => ?_⟩, fun s o ops l t hat hl ht => ⟨fun h => ?_, fun h => ?_⟩,
    fun s o ops hat => ⟨fun hop d1 b hread hown => ?_, fun hop m hm hjob hst => ?_⟩⟩
  · exact congrArg Host.Outcome.next (onDev_congr s _ _ (command_now hat (eff := fun d => d.progLoad (s.dev.jobOf o) ops) (Dev.progLoad_foreign hl h)))
  · exact congrArg Host.Outcome.next (onDev_congr s _ _ (command_now hat (eff := fun d => d.progLoad (s.dev.jobOf o) ops) (Dev.progLoad_busy hl ht h hst)))
  · obtain ⟨hbad, hgood⟩ := Dev.progLoad_read (d := s.here) (job := s.dev.jobOf o) hl ht h hst hread
    have hdom : d1.domOf (s.dev.jobOf o) = s.dev.domOf (s.dev.jobOf o) := Dev.fetch_domOf hread _
    rw [hdom] at hgood
    refine ⟨fun st r hc => congrArg Host.Outcome.next (onDev_congr s _ _ (command_now hat (eff := fun d => d.progLoad (s.dev.jobOf o) ops) (hbad st r hc))),
      fun hc => ⟨fun h7 => ?_, fun h7 => ?_⟩⟩
    · have heff := hgood hc
      rw [h7] at heff
      exact congrArg Host.Outcome.next (onDev_congr s _ _ (command_now hat (eff := fun d => d.progLoad (s.dev.jobOf o) ops) heff))
    · have heff := hgood hc
      rw [h7] at heff
      exact congrArg Host.Outcome.next (onDev_congr s _ _ (command_now hat (eff := fun d => d.progLoad (s.dev.jobOf o) ops) heff))
  · exact congrArg Host.Outcome.next (onDev_congr s _ _ (command_now hat (eff := fun d => d.tileHalt (s.dev.jobOf o) ops) (Dev.tileHalt_foreign hl h)))
  · have heff := Dev.tileHalt_owned (d := s.here) (job := s.dev.jobOf o) hl ht h
    refine ⟨fun hact => ?_, fun hact => ?_, fun hact hstatus => ?_⟩
    · rw [if_pos hact] at heff
      exact congrArg Host.Outcome.next (onDev_congr s _ _ (command_now hat (eff := fun d => d.tileHalt (s.dev.jobOf o) ops) heff))
    · rw [hact, if_neg (by decide), if_pos rfl] at heff
      exact congrArg Host.Outcome.next (onDev_congr s _ _ (command_now hat (eff := fun d => d.tileHalt (s.dev.jobOf o) ops) heff))
    · have hmine : ¬ (s.here.halted t = true ∧ s.here.get (CMD.SEQ_HALT.STATUS t) ∉ [0x0273, 0x0276]) := fun hno => hno.2 (hstatus hno.1)
      rw [hact, if_neg (by decide), if_neg (by decide), if_neg hmine] at heff
      exact congrArg Host.Outcome.next (onDev_congr s _ _ (command_now hat (eff := fun d => d.tileHalt (s.dev.jobOf o) ops) heff))
  · obtain ⟨hbad, hgood⟩ := Dev.stageMap_read (d := s.here) (job := s.dev.jobOf o) hop hread hown
    exact ⟨fun k hc => congrArg Host.Outcome.next (onDev_congr s _ _ (command_now hat (eff := fun d => d.stageMap (s.dev.jobOf o) ops) (hbad k hc))),
      fun hc => congrArg Host.Outcome.next (onDev_congr s _ _ (command_now hat (eff := fun d => d.stageMap (s.dev.jobOf o) ops) (hgood hc)))⟩
  · exact congrArg Host.Outcome.next (onDev_congr s _ _ (command_now hat (eff := fun d => d.stageMap (s.dev.jobOf o) ops)
      (Dev.stageMap_unmaps (d := s.here) hop hm hjob hst)))

/-- Settles O32: a pipeline's start, admission and drain by its state, and the fault of a stage. -/
theorem pipelineCommands : Obligations.PipelineCommands := by
  refine ⟨fun s o ops p m hp hm => ⟨fun hat hst htiles => ⟨Dev.pipeStarted p m, fun _ => rfl, ?_⟩, fun hat hno => ?_, fun hat hc => ?_, fun hat hlt st r hc => ?_,
    fun hat hst hn hix => ?_, fun hat hst => ⟨_, rfl, ?_⟩⟩, fun s t ht => ⟨fun p k m hhalt hkeep hstage => ?_, fun hno => ?_⟩⟩
  · have hgo : ¬ (s.here.pipeState p ≠ psMAPPED ∨ ∃ l ∈ s.here.localTiles m, s.here.seqState (s.here.phys l) ≠ tsREADY) := by
      rintro (h | ⟨l, hl, hne⟩)
      · exact h hst
      · exact hne (htiles l hl)
    have heff := (Dev.pipelineStart_owned (d := s.here) hp hm).trans (if_neg hgo)
    exact congrArg Host.Outcome.next (onDev_congr s _ _ (command_now hat (eff := fun d => d.pipelineStart (s.dev.jobOf o) ops) heff))
  · have heff := (Dev.pipelineStart_owned (d := s.here) hp hm).trans (if_pos hno)
    exact congrArg Host.Outcome.next (onDev_congr s _ _ (command_now hat (eff := fun d => d.pipelineStart (s.dev.jobOf o) ops) heff))
  · exact congrArg Host.Outcome.next (onDev_congr s _ _ (command_now hat (eff := fun d => d.microbatchAdmit (s.dev.jobOf o) ops)
      ((Dev.microbatchAdmit_owned (d := s.here) hp hm).1 hc)))
  · exact congrArg Host.Outcome.next (onDev_congr s _ _ (command_now hat (eff := fun d => d.microbatchAdmit (s.dev.jobOf o) ops)
      ((Dev.microbatchAdmit_owned (d := s.here) hp hm).2 st r hlt hc)))
  · have hgo : ¬ (s.here.pipeState p ≠ psRUNNING ∨ s.here.get (CMD.PIPE_NEXT.N p) = 0 ∨ s.here.get (CMD.PIPE_NEXT.INDEX p) ≠ s.here.get (CMD.PIPE_NEXT.N p)) := by
      rintro (h | h | h)
      · exact h hst
      · exact hn h
      · exact h hix
    have hok : ¬ s.here.pipeState p = psFAULTED := by
      rw [State.here_pipeState, hst]
      decide
    have heff := ((Dev.pipelineDrain_owned (d := s.here) hp hm).trans (if_neg hok)).trans (if_neg hgo)
    have hcmd := command_unit hat (eff := fun d => d.pipelineDrain (s.dev.jobOf o) ops) heff
    have hmap : (((s.here.set (CMD.PIPE_STATE.STATE p) psDRAINING).toUnit []).pipe p).map = some m := Dev.jobPipe_map (d := s.dev) hm
    exact congrArg Host.Outcome.next (onDev_congr s _ _ ((congrArg (fun e : Dev => e.drainNow ops) hcmd).trans (Dev.drainNow_mapped hp hmap)))
  · have heff := (Dev.pipelineDrain_owned (d := s.here) hp hm).trans (if_pos hst)
    have hcmd := command_now hat (eff := fun d => d.pipelineDrain (s.dev.jobOf o) ops) heff
    exact congrArg Host.Outcome.next (onDev_congr s _ _ (congrArg (fun e : Dev => e.drainNow ops) hcmd))
  · refine congrArg Host.Outcome.next ((State.atTile_lt s _ ht).trans (onDev_congr s _ _ ?_))
    unfold Dev.stageFault
    simp only [State.here_get, State.here_halted, State.here_logical, State.here_stageOf, hhalt, hkeep, hstage, Bool.not_true, Bool.or_self, Bool.false_eq_true, if_false]
  · refine congrArg Host.Outcome.next ((State.atTile_lt s _ ht).trans (onDev_congr s _ _ ?_))
    unfold Dev.stageFault
    dsimp only
    exact if_pos (by rcases hno with h | h <;> simp [h])

end Sys2Proof.Machine
end


section
/-! PROOFS. Time: the commands of the time unit (R572, R582 to R587), timers and the time reference (R574 to R583),
PPS_OUT and the TCLK dividers (R569, R581). -/

namespace Sys2Proof.Machine

/-- A command whose effect answers OK holds its result until it completes. -/
theorem command_held {s : State} {o : Origin} {opc : Nat} {ops : Bytes} {eff : Dev → Dev × Result} {d : Dev} {r : Result} (hat : AtHead s o opc ops)
    (heff : eff s.here = (d, r)) (hr : r.status = 0) : s.here.command opc o ops (fun d => holdResult (eff d)) = d.hold r .ready [] := by
  refine command_later hat ?_
  simp [holdResult, heff, hr]

/-- One that refuses completes at once. -/
theorem command_refused {s : State} {o : Origin} {opc : Nat} {ops : Bytes} {eff : Dev → Dev × Result} {d : Dev} {r : Result} (hat : AtHead s o opc ops)
    (heff : eff s.here = (d, r)) (hr : r.status ≠ 0) : s.here.command opc o ops (fun d => holdResult (eff d)) = d.finish o opc r := by
  refine command_now hat ?_
  simp [holdResult, heff, hr]

theorem onTime_congr (s : State) (f g : Dev → Dev) (h : f s.here = g s.here) : s.onTime f = s.onTime g := by
  unfold State.onTime
  rw [onDev_congr s f g h]

/-! ## Timers (R583 to R585) -/

/-- The timer that TIMER_ARM arms (R584). -/
def armedTimer (ops : Bytes) (job disp : Nat) : Timer :=
  ⟨job, (le ops 4 1).testBit 0, (if (le ops 4 1).testBit 0 then 0 else disp) + le ops 8 8, if (le ops 4 1).testBit 1 then some (le ops 16 8) else none,
    (le ops 4 1).testBit 2, if (le ops 4 1).testBit 3 then some (le ops 24 2) else none, false, 0⟩

section TimerCommands
variable {d : Dev} {job disp : Nat} {ops : Bytes}

/-- TIMER_ARM of a free timer with operands in range arms it; an absolute deadline already passed expires at once (R584). -/
theorem Dev.timerArm_free (h1 : 128 ≤ le ops 0 2) (h2 : le ops 0 2 ≤ 1023) (hfree : d.timer (le ops 0 2) = none) (hjob : le ops 2 2 = job)
    (hfl : le ops 4 1 < 16) (hz1 : zeroBytes ops 5 3 = true) (hz2 : zeroBytes ops 26 22 = true)
    (hact : (le ops 4 1).testBit 2 = true ∨ (le ops 4 1).testBit 3 = true) (hper : (le ops 4 1).testBit 1 = true → 1000 ≤ le ops 16 8)
    (htally : (le ops 4 1).testBit 3 = true → d.tallyOwned (le ops 24 2) job = true) {x : Timer} (hx : x = armedTimer ops job disp) :
    d.timerArm job disp ops = ((d.setTimer (le ops 0 2) (some x)).when ((le ops 4 1).testBit 0 && decide (x.deadline < (d.setTimer (le ops 0 2) (some x)).now))
      (·.timerExpire (le ops 0 2) (match x.period with | some p => ((d.setTimer (le ops 0 2) (some x)).now - x.deadline) / p | none => 0)), okR (le ops 0 2)) := by
  have hwant : ¬ le ops 0 2 = 0xFFFF := by omega
  have hgood : ¬ (le ops 2 2 ≠ job ∨ 16 ≤ le ops 4 1 ∨ (!zeroBytes ops 5 3) = true ∨ (!zeroBytes ops 26 22) = true ∨
      ((!bit (le ops 4 1) 2) = true ∧ (!bit (le ops 4 1) 3) = true) ∨ (bit (le ops 4 1) 1 = true ∧ le ops 16 8 < 1000)) := by
    rintro (h | h | h | h | ⟨h2, h3⟩ | ⟨h, hlt⟩)
    · exact h hjob
    · omega
    · simp [hz1] at h
    · simp [hz2] at h
    · rcases hact with ha | ha <;> simp [bit, ha] at h2 h3
    · exact absurd (hper h) (by omega)
  have hown : ¬ (bit (le ops 4 1) 3 = true ∧ (!d.tallyOwned (le ops 24 2) job) = true) := by
    rintro ⟨h, hno⟩
    simp [htally h] at hno
  unfold Dev.timerArm
  dsimp only
  rw [if_neg hwant, if_pos ⟨h1, h2, by rw [hfree]; rfl⟩]
  dsimp only
  rw [if_neg hgood, if_neg hown, hx]
  rfl

/-- TIMER_CANCEL of a job's own timer (R585). -/
theorem Dev.timerCancel_own {x : Timer} (ht : d.timer (le ops 0 2) = some x) (h1 : 128 ≤ le ops 0 2) (h2 : le ops 0 2 ≤ 1023) (hown : x.owner = job)
    (hz : zeroBytes ops 2 46 = true) :
    d.timerCancel job ops = if x.fired then (d.setTimer (le ops 0 2) none, okR 1)
      else if x.deadline ≤ d.now then ((d.timerExpire (le ops 0 2) 0).setTimer (le ops 0 2) none, okR 1)
      else (d.setTimer (le ops 0 2) none, okR 0) := by
  have hgood : ¬ (le ops 0 2 < 128 ∨ 1023 < le ops 0 2 ∨ x.owner ≠ job ∨ (!zeroBytes ops 2 46) = true) := by
    rintro (h | h | h | h)
    · omega
    · omega
    · exact h hown
    · simp [hz] at h
  unfold Dev.timerCancel
  dsimp only
  rw [ht]
  dsimp only
  rw [if_neg hgood]

theorem Dev.timerCancel_none (ht : d.timer (le ops 0 2) = none) : d.timerCancel job ops = (d, errR 0x080B) := by
  unfold Dev.timerCancel
  dsimp only
  rw [ht]

/-- CAPTURE_CFG with operands in range (R587). -/
theorem Dev.captureCfg_good (h0 : le ops 0 1 ≤ 4) (h1 : le ops 1 1 ≤ 2) (h2 : le ops 2 1 ≤ 1) (h3 : 1 ≤ le ops 3 1) (h4 : le ops 3 1 ≤ 64)
    (hz : zeroBytes ops 4 44 = true) :
    d.captureCfg ops = (d.setCap (le ops 0 1) { d.cap (le ops 0 1) with
      edge := le ops 1 1, enable := (le ops 2 1).testBit 0, notify := le ops 3 1 }, okU []) := by
  have hgood : ¬ (4 < le ops 0 1 ∨ 2 < le ops 1 1 ∨ 1 < le ops 2 1 ∨ le ops 3 1 < 1 ∨ 64 < le ops 3 1 ∨ (!zeroBytes ops 4 44) = true) := by
    simp only [hz, Bool.not_true, Bool.false_eq_true, or_false]
    omega
  unfold Dev.captureCfg
  dsimp only
  exact if_neg hgood

theorem Dev.timeConfig_bad (h : timeOps ops = false ∨ ((le ops 6 1).testBit 0 = true ∧ (d.tmState ≠ tmUNSET ∨ le ops 8 8 < d.now))) :
    d.timeConfig ops = (d, errR 0x080C) := by
  unfold Dev.timeConfig
  dsimp only
  refine if_pos ?_
  rcases h with h | h
  · exact Or.inl (by simp [h])
  · exact Or.inr h

/-- The time unit as TIME_CONFIG sets it (R582). -/
def configuredTmu (t : TmuUnit) (ops : Bytes) : TmuUnit :=
  { t with
    sources := le ops 0 4, domain := le ops 4 1, syncLog := sext 8 (le ops 5 1), ppsOut := (le ops 6 1).testBit 1, always := (le ops 6 1).testBit 2,
    ppsFalling := (le ops 6 1).testBit 3, stepNs := le ops 16 4, lockNs := le ops 20 2, holdoverS := le ops 24 4, ppsOffset := le ops 28 4,
    ppsWidth := le ops 32 4, ppsHigh := t.ppsHigh && (le ops 6 1).testBit 1 }

/-- The step that SET makes, when the operands ask for one (R572). -/
def Dev.timeSetIf (d : Dev) (ops : Bytes) : Dev := if (le ops 6 1).testBit 0 then d.timeSet (le ops 8 8) else d

theorem Dev.timeConfig_good (h : timeOps ops = true) (hset : (le ops 6 1).testBit 0 = true → d.tmState = tmUNSET ∧ d.now ≤ le ops 8 8) {u : TmuUnit}
    (hu : u = configuredTmu d.tmu ops) {e : Dev} (he : e = Dev.timeSetIf { d with tmu := u } ops) :
    d.timeConfig ops = ({ e with tmu := { e.tmu with lastPps := e.now, ppsMissing := false } }, okU []) := by
  have hgood : ¬ ((!timeOps ops) = true ∨ (bit (le ops 6 1) 0 = true ∧ (d.tmState ≠ tmUNSET ∨ le ops 8 8 < d.now))) := by
    rintro (hno | ⟨hb, hno⟩)
    · simp [h] at hno
    · obtain ⟨hst, hle⟩ := hset hb
      exact hno.elim (· hst) (fun hlt => absurd hle (by omega))
  subst hu he
  unfold Dev.timeConfig
  dsimp only
  rw [if_neg hgood]
  rfl

end TimerCommands

/-- Settles O40: each command of the time unit, by what its operands allow. -/
theorem timeCommands : Obligations.TimeCommands := by
  refine fun s o ops => ⟨fun hat t x disp h1 h2 ht hfree hjob hfl hz1 hz2 hact hper htally hdisp hx => ?_, fun hat t x ht hx h1 h2 hown hz => ?_,
    fun hat h => ?_, fun hat h0 h1 h2 h3 h4 hz => ?_, fun hat h => ?_, fun hat h hset hno => ?_, fun hat h hset => ?_⟩
  · subst ht hdisp
    have heff := Dev.timerArm_free (d := s.here) (job := s.dev.jobOf o) h1 h2 hfree hjob hfl hz1 hz2 hact hper htally hx
    refine ⟨fun hnot => ?_, fun habs hlt hper => ?_⟩
    · have hoff : ((le ops 4 1).testBit 0 && decide (x.deadline < (s.here.setTimer (le ops 0 2) (some x)).now)) = false := by
        rw [Bool.and_eq_false_iff, decide_eq_false_iff_not]
        exact (Decidable.not_and_iff_or_not.mp hnot).imp_left (by simp)
      rw [hoff] at heff
      exact congrArg Host.Outcome.next (onDev_congr s _ _ (command_held hat (eff := fun d => d.timerArm (d.jobOf o) (d.dispTime o 0x0802 ops) ops) heff rfl))
    · have hon : ((le ops 4 1).testBit 0 && decide (x.deadline < (s.here.setTimer (le ops 0 2) (some x)).now)) = true := by
        rw [Bool.and_eq_true, decide_eq_true_eq]
        exact ⟨habs, hlt⟩
      rw [hon, hper] at heff
      exact congrArg Host.Outcome.next (onDev_congr s _ _ (command_held hat (eff := fun d => d.timerArm (d.jobOf o) (d.dispTime o 0x0802 ops) ops) heff rfl))
  · subst ht
    have heff := Dev.timerCancel_own (d := s.here) hx h1 h2 hown hz
    refine ⟨fun hf hlt => ?_, fun hf => ?_, fun hf hle => ?_⟩
    · rw [hf, if_neg (by decide), if_neg (Nat.not_le.mpr (show s.here.now < x.deadline from hlt))] at heff
      exact congrArg Host.Outcome.next (onDev_congr s _ _ (command_held hat (eff := fun d => d.timerCancel (d.jobOf o) ops) heff rfl))
    · rw [hf, if_pos rfl] at heff
      exact congrArg Host.Outcome.next (onDev_congr s _ _ (command_held hat (eff := fun d => d.timerCancel (d.jobOf o) ops) heff rfl))
    · rw [hf, if_neg (by decide), if_pos (show x.deadline ≤ s.here.now from hle)] at heff
      exact congrArg Host.Outcome.next (onDev_congr s _ _ (command_held hat (eff := fun d => d.timerCancel (d.jobOf o) ops) heff rfl))
  · exact congrArg Host.Outcome.next (onDev_congr s _ _ (command_refused hat (eff := fun d => d.timerCancel (d.jobOf o) ops)
      (Dev.timerCancel_none (d := s.here) h) (by decide)))
  · exact congrArg Host.Outcome.next (onDev_congr s _ _ (command_held hat (eff := fun d => d.captureCfg ops)
      (Dev.captureCfg_good (d := s.here) h0 h1 h2 h3 h4 hz) rfl))
  · exact congrArg Host.Outcome.next (onTime_congr s _ _ (command_refused hat (eff := fun d => d.timeConfig ops)
      (Dev.timeConfig_bad (d := s.here) (Or.inl h)) (by decide)))
  · exact congrArg Host.Outcome.next (onTime_congr s _ _ (command_refused hat (eff := fun d => d.timeConfig ops)
      (Dev.timeConfig_bad (d := s.here) (Or.inr ⟨hset, hno⟩)) (by decide)))
  · refine ⟨configuredTmu s.dev.tmu ops, (·.timeSetIf ops), rfl, rfl, ?_⟩
    exact congrArg Host.Outcome.next (onTime_congr s _ _ (command_held hat (eff := fun d => d.timeConfig ops)
      (Dev.timeConfig_good (d := s.here) h hset rfl rfl) rfl))

/-! ## PPS_OUT and the TCLK dividers (R569, R581) -/

/-- One step of a wing's divider towards the one it wants. -/
def Dev.divStep (d : Dev) (w : Nat) : Dev :=
  { d with
    tmu.divNow := smapSet divDflt d.tmu.divNow w (if d.divNow w < d.divWant w then d.divNow w + 1 else d.divNow w - 1)
    tmu.divAt := smapSet zeroDflt d.tmu.divAt w d.now }

/-- Settles O42: the pulse's edges by their times, and one step of a wing's divider. -/
theorem clockOutputs : Obligations.ClockOutputs := by
  refine ⟨fun s hd hh => ?_, fun s hh => ?_, fun s v => rfl, fun s c v => rfl, fun s w hw hne hc => ?_⟩
  · exact congrArg Host.Outcome.next (atTime_due _ _ (if_pos (by simp [hd, hh])) rfl)
  · exact congrArg Host.Outcome.next (atTime_due _ _ (if_pos hh) rfl)
  · obtain ⟨u, hu⟩ : ∃ u, u = s.until (smapGet zeroDflt s.dev.tmu.divAt w + 1000) := ⟨_, rfl⟩
    have hdev : u.dev = s.dev := by rw [hu, State.until_dev]
    have hcalm : Calm u := by
      unfold Calm
      rw [hdev]
      exact hc
    have hexec : exec (.tclkDividerStep w) s = .next (u.onDev (·.divStep w)) :=
      congrArg Host.Outcome.next ((atTime_due _ _ (if_pos ⟨hw, hne⟩) rfl).trans (congrArg (State.onDev · (·.divStep w)) hu.symm))
    refine ⟨{ u with dev := u.here.divStep w }, hexec.trans (congrArg Host.Outcome.next (onDev_quiet hcalm rfl rfl rfl)), ?_, fun x hx => ?_, ?_⟩
    · have hget : (u.here.divStep w).divNow w = if u.dev.divNow w < u.dev.divWant w then u.dev.divNow w + 1 else u.dev.divNow w - 1 :=
        smapGet_set_same ..
      rw [hdev] at hget
      exact hget
    · have hget : (u.here.divStep w).divNow x = u.dev.divNow x := smapGet_set_ne _ _ hx
      rw [hdev] at hget
      exact hget
    · show u.clock.ns = _
      rw [hu, State.until_ns]

/-! ## Expiries (R576, R583, R84) -/

section Expiry
variable {d : Dev} {t : Nat} {x : Timer}

/-- What becomes of a timer at its deadline: a periodic one runs on, a one-shot ends. -/
def Timer.rearmed (x : Timer) : Option Timer := x.period.map fun p => { x with deadline := x.deadline + p }

theorem Timer.rearmed_eq (x : Timer) :
    (match x.period with
      | some p => some { x with deadline := x.deadline + (0 + 1) * p, missed := x.missed + 0 }
      | none => none) = x.rearmed := by
  unfold Timer.rearmed
  cases x.period with
  | none => rfl
  | some p => simp only [Nat.zero_add, Nat.one_mul, Nat.add_zero, Option.map_some]

theorem Timer.rearmed_getD (x : Timer) : x.rearmed.getD x = match x.period with | some p => { x with deadline := x.deadline + p } | none => x := by
  unfold Timer.rearmed
  cases x.period <;> rfl

theorem Dev.when_zero (d : Dev) (g : Dev → Dev) : d.when (decide (0 < 0)) g = d := rfl

/-- Outside a rehang an expiry is delivered at once. -/
theorem Dev.timerExpire_now (hx : d.timer t = some x) (hcur : d.curator ≠ curREHANG) :
    d.timerExpire t 0 = (d.setTimer t x.rearmed).timerAction t x.owner x.event x.tally := by
  unfold Dev.timerExpire
  rw [hx]
  dsimp only
  rw [Dev.when_zero, if_pos hcur]
  exact congrArg (fun y => (d.setTimer t y).timerAction t x.owner x.event x.tally) x.rearmed_eq

/-- An expiry joins the hold queue; its timer becomes `y`, with an expiry undelivered. -/
def Dev.holdExpiry (d : Dev) (t : Nat) (x y : Timer) : Dev :=
  { d.setTimer t (some { y with fired := true }) with
    cmd.timerHold := d.cmd.timerHold ++ [(⟨t, x.deadline, x.owner, x.event, x.tally⟩ : HeldExpiry)] }

/-- Under REHANG it joins the hold queue while there is room. -/
theorem Dev.timerExpire_held (hx : d.timer t = some x) (hcur : d.curator = curREHANG) (hf : x.fired = false) (hroom : d.cmd.timerHold.length < 256) :
    d.timerExpire t 0 = d.holdExpiry t x (x.rearmed.getD x) := by
  unfold Dev.timerExpire
  rw [hx]
  dsimp only
  rw [Dev.when_zero, if_neg (by simp [hcur]), if_neg (by simp [hf]), if_neg (by omega)]
  exact congrArg (fun y : Option Timer => d.holdExpiry t x (y.getD x)) x.rearmed_eq

end Expiry

/-! ## The time reference (R574, R577, R578, R580) -/

section Reference
variable {d : Dev} {m : PtpMsg}

theorem Dev.ptpFollowUp_mine {rx : Nat} {c : Int} (hm : d.fromMaster m = true) (hseq : d.tmu.syncSeq = some (m.seq, rx, c)) :
    (if !d.fromMaster m then d
     else match d.tmu.syncSeq with
      | some (q, rx, c) => if q = m.seq then d.syncDone m.port ((m.origin : Int) + m.correction + c) rx else d
      | none => d) = d.syncDone m.port ((m.origin : Int) + m.correction + c) rx := by
  rw [hm, hseq]
  simp

theorem Dev.delayResp_mine {t3 t2 : Nat} {t1 : Int} (hm : d.fromMaster m = true) (hreq : d.tmu.reqOut = some (m.seq, t3))
    (hsync : d.tmu.syncTimes = some (t1, t2)) :
    d.delayResp m = { d with tmu.delay := some (((t2 - t1) + ((m.origin : Int) - m.correction - t3)) / 2), tmu.reqOut := none } := by
  unfold Dev.delayResp
  rw [hm, hreq, hsync]
  simp

/-- The master that an Announce message tells of. -/
def announcedMaster (m : PtpMsg) : Master :=
  ⟨m.port, m.clockId, [m.priority1, m.clockClass, m.accuracy, m.variance, m.priority2, m.clockId, m.stepsRemoved, m.port]⟩

theorem Dev.announce_other (h : d.ptpMine m = false) : d.announce m = d := by
  unfold Dev.announce
  simp [h]

theorem Dev.announce_first (h : d.ptpMine m = true) (hnone : d.tmu.master = none) :
    d.announce m = { d with tmu.master := some (announcedMaster m), tmu.announceAt := d.now, tmu.delay := none, tmu.syncSeq := none, tmu.reqOut := none } := by
  unfold Dev.announce
  rw [if_neg (by simp [h])]
  dsimp only
  rw [hnone]
  rfl

theorem Dev.announce_worse {y : Master} (h : d.ptpMine m = true) (hy : d.tmu.master = some y) (hport : y.port ≠ m.port)
    (hrank : rankLt (announcedMaster m).rank y.rank = false) : d.announce m = d := by
  unfold Dev.announce
  rw [if_neg (by simp [h])]
  dsimp only
  rw [hy]
  dsimp only
  rw [if_neg (fun hc => hport hc.1)]
  exact if_neg (by simpa [announcedMaster] using hrank)

theorem Dev.captureEdge_off {i : Nat} {rising : Bool} (h : (d.cap i).enable = false) : d.captureEdge i rising = d := by
  unfold Dev.captureEdge
  dsimp only
  exact if_pos (by simp [h])

theorem Dev.captureEdge_stamp {i : Nat} {rising : Bool} (hi : i < 5) (hen : (d.cap i).enable = true) (hedge : (d.cap i).edge = 2)
    (hroom : (d.cap i).fifo.length < 64) (hnot : (d.cap i).notify ≠ (d.cap i).fifo.length + 1) :
    d.captureEdge i rising = d.setCap i { d.cap i with fifo := (d.cap i).fifo ++ [d.now] } := by
  unfold Dev.captureEdge
  dsimp only
  rw [if_neg (by simp [hen, hedge]; omega), if_neg (by omega)]
  unfold Dev.when
  exact if_neg (by simpa using Ne.symm hnot)

theorem Dev.eventOpen_tmu (d : Dev) (st : Nat) : (d.eventOpen st).tmu = d.tmu :=
  Dev.steady_part (Dev.steady_event _ _ _) (·.tmu)

/-- An edge is ignored, finds the FIFO full, or is stamped, and may post its event. -/
theorem Dev.captureEdge_cases (d : Dev) (i : Nat) (rising : Bool) :
    d.captureEdge i rising = d ∨ d.captureEdge i rising = d.set (TMU.CAP_STATE.OVERFLOW i) 1 ∨
      ∃ c b, d.captureEdge i rising = (d.setCap i c).when b (·.eventOpen 0x0809) := by
  unfold Dev.captureEdge
  dsimp only
  split
  · exact Or.inl rfl
  · split
    · exact Or.inr (Or.inl rfl)
    · exact Or.inr (Or.inr ⟨_, _, rfl⟩)

theorem Dev.setCap_settings (d : Dev) (i : Nat) (c : Capture) : (d.setCap i c).tmu = { d.tmu with captures := (d.setCap i c).tmu.captures } := by
  unfold Dev.setCap
  simp only [Dev.set_tmu]

/-- An edge stamped, or its event, leaves the settings of the time unit alone. -/
theorem Dev.captureEdge_settings (d : Dev) (i : Nat) (rising : Bool) :
    (d.captureEdge i rising).tmu.sources = d.tmu.sources ∧ (d.captureEdge i rising).tmu.ppsFalling = d.tmu.ppsFalling := by
  rcases d.captureEdge_cases i rising with h | h | ⟨c, b, h⟩
  · rw [h]
    exact ⟨rfl, rfl⟩
  · rw [h, Dev.set_tmu]
    exact ⟨rfl, rfl⟩
  · have htmu : ((d.setCap i c).when b (·.eventOpen 0x0809)).tmu = (d.setCap i c).tmu := by
      cases b with
      | false => rfl
      | true => exact Dev.eventOpen_tmu _ _
    rw [h, htmu, Dev.setCap_settings]
    exact ⟨rfl, rfl⟩

theorem Dev.ppsIn_noSample {rising : Bool} (h : d.tmu.sources.testBit 20 = false ∨ rising = d.tmu.ppsFalling) :
    d.ppsIn rising = d.captureEdge 0 rising := by
  obtain ⟨hsrc, hfall⟩ := d.captureEdge_settings 0 rising
  unfold Dev.ppsIn
  dsimp only
  rw [hsrc, hfall]
  exact if_pos (h.imp_left (by simp [·]))

theorem Dev.ppsIn_sample {rising : Bool} (hcap : (d.cap 0).enable = false) (hsrc : d.tmu.sources.testBit 20 = true)
    (hedge : rising = !d.tmu.ppsFalling) (hlock : d.tmState ≠ tmLOCKED) :
    d.ppsIn rising = { d with tmu.lastPps := d.now, tmu.ppsMissing := false }.servoSample 20 (ppsOffsetOf d.now) := by
  unfold Dev.ppsIn
  rw [Dev.captureEdge_off hcap]
  dsimp only
  rw [if_neg (by simp [hsrc, hedge])]
  exact if_neg (fun hc => hlock hc.1)

end Reference

/-- Settles O41: each expiry and each message by the timer, the master and the state it meets. -/
theorem timersAndReference : Obligations.TimersAndReference := by
  refine ⟨fun s t x hx hruns => ⟨fun hcur => ?_, fun hcur hf hroom => ⟨_, rfl, ?_⟩⟩, fun s m hm => ⟨fun h => ?_, fun h => ?_, fun rx c hseq => ?_, fun t3 t1 t2 hreq hsync => ?_⟩,
    fun s m c hm hc => ?_, fun s m x hx => ⟨fun h => ?_, fun h hnone => ?_, fun y h hy hport hrank => ?_⟩, fun s rising => rfl, fun s rising h => ?_,
    fun s rising hcap hsrc hedge hlock => ?_, fun s i rising hi hlt hen hedge hroom hnot => ?_, fun s t h => ?_, fun s h => ?_, fun s hsrc hmiss => ?_⟩
  · have hdue : (s.dev.timer t).bind (fun x => if x.runs then some x.deadline else none) = some x.deadline := by simp [hx, hruns]
    refine congrArg Host.Outcome.next (atTime_due _ _ hdue (Dev.timerExpire_now ?_ ?_))
    · simpa using hx
    · simpa using hcur
  · have hdue : (s.dev.timer t).bind (fun x => if x.runs then some x.deadline else none) = some x.deadline := by simp [hx, hruns]
    refine congrArg Host.Outcome.next (atTime_due _ _ hdue ((Dev.timerExpire_held ?_ ?_ hf ?_).trans ?_))
    · simpa using hx
    · simpa using hcur
    · simpa using hroom
    · have hhere : (s.until x.deadline).here = { s.dev with now := (s.until x.deadline).clock.ns } := by
        unfold State.here
        rw [State.until_dev]
      rw [hhere]
      exact congrArg (Dev.holdExpiry _ t x) x.rearmed_getD
  · refine congrArg Host.Outcome.next (onTime_congr s _ _ ?_)
    unfold Dev.ptpSync
    rw [if_neg (by simpa using hm), if_neg (by simp [h])]
    rfl
  · refine congrArg Host.Outcome.next (onTime_congr s _ _ ?_)
    unfold Dev.ptpSync
    rw [if_neg (by simpa using hm), if_pos h]
    rfl
  · exact congrArg Host.Outcome.next (onTime_congr s _ _ (Dev.ptpFollowUp_mine (d := s.here) hm hseq))
  · exact congrArg Host.Outcome.next (onDev_congr s _ _ (Dev.delayResp_mine (d := s.here) hm hreq hsync))
  · simp only [List.mem_cons, List.not_mem_nil, or_false] at hc
    rcases hc with rfl | rfl
    · exact congrArg Host.Outcome.next (onTime_congr s _ _ (if_pos (by simpa using hm)))
    · exact congrArg Host.Outcome.next (onTime_congr s _ _ (if_pos (by simpa using hm)))
  · exact congrArg Host.Outcome.next (onDev_congr s _ _ (Dev.announce_other (d := s.here) h))
  · exact congrArg Host.Outcome.next (onDev_congr s _ _ (hx ▸ Dev.announce_first (d := s.here) h hnone))
  · rw [hx] at hrank
    exact congrArg Host.Outcome.next (onDev_congr s _ _ (Dev.announce_worse (d := s.here) h hy hport hrank))
  · exact congrArg Host.Outcome.next (onTime_congr s _ _ (Dev.ppsIn_noSample (d := s.here) h))
  · exact congrArg Host.Outcome.next (onTime_congr s _ _ (Dev.ppsIn_sample (d := s.here) hcap hsrc hedge hlock))
  · exact congrArg Host.Outcome.next (onTime_congr s _ _ ((if_neg hi).trans (Dev.captureEdge_stamp (d := s.here) hlt hen hedge hroom hnot)))
  · exact congrArg Host.Outcome.next (atTime_due _ _ h rfl)
  · exact congrArg Host.Outcome.next (atTime_due _ _ (if_pos h) rfl)
  · exact congrArg Host.Outcome.next (atTime_due _ _ (if_pos (by simp [hsrc, hmiss])) rfl)

end Sys2Proof.Machine
end


section
/-! PROOFS. The conservator's commands (R606, R609, R612, R615). -/

namespace Sys2Proof.Machine

/-! ## What each command answers -/

section ConservatorCommands
variable {d : Dev} {ops : Bytes}

/-- LOAN_POLICY that sets the interval and the deferral limit (R606). -/
theorem Dev.loanPolicy_sets (h : opnd ops 16 1 = 0) (hz1 : opndZero ops 17 1 = true) (hz2 : opndZero ops 24 40 = true) (hlo : 1 ≤ opnd ops 22 2)
    (hhi : opnd ops 22 2 ≤ 10080) :
    d.loanPolicy ops = ((d.set CSV.LOAN_CTL.INTERVAL_H (opnd ops 20 2)).set CSV.LOAN_CTL.DEFER_MIN (opnd ops 22 2), .now (okR (d.get CSV.LOAN_CTL.REG))) := by
  unfold Dev.loanPolicy
  dsimp only
  rw [if_neg (by simp [h, hz1, hz2]; omega), if_pos h]

theorem Dev.loanPolicy_bad (h : 2 < opnd ops 16 1 ∨ (opnd ops 16 1 ≠ 0 ∧ 200 ≤ opnd ops 18 2)) : d.loanPolicy ops = (d, .now (errR 0x0107)) := by
  unfold Dev.loanPolicy
  dsimp only
  refine if_pos ?_
  rcases h with h | h
  · exact Or.inl h
  · exact Or.inr (Or.inr (Or.inr (Or.inr h)))

/-- LOAN_POLICY that asks for a test (R606). -/
theorem Dev.loanPolicy_tests (h : opnd ops 16 1 = 1) (hz1 : opndZero ops 17 1 = true) (hz2 : opndZero ops 24 40 = true) (ht : opnd ops 18 2 < 200) :
    d.loanPolicy ops = if d.testFree (opnd ops 18 2) then (d.testDue (opnd ops 18 2), .now (okR 0)) else (d, .now (errR 0x070E)) := by
  unfold Dev.loanPolicy
  dsimp only
  rw [if_neg (by simp [h, hz1, hz2]; omega), if_neg (by simp [h]), if_pos h]

/-- MARGIN_SWEEP's operands are outside their ranges (R609). -/
def sweepBad (ops : Bytes) : Prop :=
  200 ≤ opnd ops 16 2 ∨ 512 ≤ opnd ops 18 2 ∨ opnd ops 20 1 < 5 ∨ 100 < opnd ops 20 1 ∨ (opnd ops 21 1 ≠ 0 ∧ (opnd ops 21 1 < 40 ∨ 100 < opnd ops 21 1))

theorem Dev.marginSweep_bad (h : sweepBad ops) : d.marginSweep ops = (d, .now (errR 0x0107)) := by
  unfold Dev.marginSweep
  exact if_pos h

/-- MARGIN_SWEEP with operands in their ranges. -/
theorem Dev.marginSweep_good (h : ¬ sweepBad ops) :
    d.marginSweep ops = if !((d.reserves (wingOf (opnd ops 16 2))).contains (opnd ops 16 2) && d.isFree (opnd ops 16 2)) then (d, .now (errR 0x070E))
      else (((sweepDivs (opnd ops 18 2)).foldl (Dev.sweepDiv (opnd ops 20 1) (opnd ops 16 2)) (d, [])).1,
        .later (okU (((sweepDivs (opnd ops 18 2)).foldl (Dev.sweepDiv (opnd ops 20 1) (opnd ops 16 2)) (d, [])).2.map (fun v => BitVec.ofNat 8 v))) .ready []) := by
  unfold Dev.marginSweep
  exact if_neg h

theorem Dev.marginSweep_busy (h : ¬ sweepBad ops) (hno : (d.reserves (wingOf (opnd ops 16 2))).contains (opnd ops 16 2) = false ∨ d.isFree (opnd ops 16 2) = false) :
    d.marginSweep ops = (d, .now (errR 0x070E)) :=
  (Dev.marginSweep_good h).trans (if_pos (by rcases hno with hno | hno <;> rw [hno] <;> simp))

theorem sweepPoint_range (deep x : Nat) : sweepPoint deep x = 0xFF ∨ (sweepPoint deep x % 5 = 0 ∧ sweepPoint deep x ≤ deep) := by
  unfold sweepPoint
  dsimp only
  have hlt := Nat.mod_lt x (show 0 < deep / 5 + 1 + 1 by omega)
  split
  · exact Or.inl rfl
  · exact Or.inr ⟨by omega, by omega⟩

/-- A sweep adds one result in range for each divider. -/
theorem Dev.sweepDiv_fold (deep t : Nat) (ds : List Nat) (d : Dev) (vs : List Nat) (hvs : ∀ v ∈ vs, v = 0xFF ∨ (v % 5 = 0 ∧ v ≤ deep)) :
    (ds.foldl (Dev.sweepDiv deep t) (d, vs)).2.length = vs.length + ds.length ∧
      ∀ v ∈ (ds.foldl (Dev.sweepDiv deep t) (d, vs)).2, v = 0xFF ∨ (v % 5 = 0 ∧ v ≤ deep) := by
  induction ds generalizing d vs with
  | nil => exact ⟨rfl, hvs⟩
  | cons x ds ih =>
    have hall : ∀ v ∈ vs ++ [sweepPoint deep d.draw.1], v = 0xFF ∨ (v % 5 = 0 ∧ v ≤ deep) := by
      intro v hv
      rcases List.mem_append.mp hv with hv | hv
      · exact hvs v hv
      · rw [List.mem_singleton.mp hv]
        exact sweepPoint_range deep _
    obtain ⟨hlen, hrange⟩ := ih (Dev.sweepDiv deep t (d, vs) x).1 (vs ++ [sweepPoint deep d.draw.1]) hall
    refine ⟨?_, hrange⟩
    rw [List.length_append, List.length_singleton, Nat.add_right_comm] at hlen
    exact hlen

/-- MARGIN_SWEEP of a free reserve tile (R609). -/
theorem Dev.marginSweep_sweeps (h : ¬ sweepBad ops) (hres : (d.reserves (wingOf (opnd ops 16 2))).contains (opnd ops 16 2) = true)
    (hfree : d.isFree (opnd ops 16 2) = true) :
    ∃ (d1 : Dev) (vs : List Nat), vs.length = (maskBits (opnd ops 18 2) 9).length ∧ (∀ v ∈ vs, v = 0xFF ∨ (v % 5 = 0 ∧ v ≤ opnd ops 20 1)) ∧
      d.marginSweep ops = (d1, .later (okU (vs.map (fun v => BitVec.ofNat 8 v))) .ready []) := by
  obtain ⟨hlen, hrange⟩ := Dev.sweepDiv_fold (opnd ops 20 1) (opnd ops 16 2) (sweepDivs (opnd ops 18 2)) d [] (fun _ hv => absurd hv List.not_mem_nil)
  refine ⟨_, _, hlen.trans ?_, hrange, (Dev.marginSweep_good h).trans (if_neg ?_)⟩
  · simp [sweepDivs]
  · rw [hres, hfree]
    decide

theorem Dev.telemetryCfg_good (h1 : opnd ops 24 1 ≤ 1) (h2 : 6 ≤ opnd ops 25 1) (h3 : opnd ops 25 1 ≤ 20) (h4 : 1 ≤ opnd ops 26 2) (h5 : opnd ops 26 2 ≤ 1000)
    (h6 : opnd ops 28 1 ≤ 1) :
    d.telemetryCfg ops = ({ d with csv.telem := ⟨opnd ops 16 8, opnd ops 24 1 == 1, opnd ops 25 1, opnd ops 26 2, opnd ops 28 1 == 1, 0, 0⟩ }, .now (okU [])) := by
  unfold Dev.telemetryCfg
  dsimp only
  exact if_neg (by omega)

/-! ## FAULT_HISTORY_READ and DUMP_READ (R615) -/

theorem Dev.historyRead_other (h : 3 < opnd ops 16 1) : d.historyRead ops = (d, .now (errR 0x0107)) := by
  obtain ⟨n, hn⟩ := Nat.exists_eq_add_of_lt h
  rw [show 3 + n + 1 = n + 4 by omega] at hn
  unfold Dev.historyRead
  dsimp only
  rw [hn]
  rfl

theorem Dev.historyRead_records (h : opnd ops 16 1 = 0) {rs : List FaultRec}
    (hrs : rs = (d.csv.history.filter (fun r => decide (opnd ops 20 8 ≤ r.id))).take (opnd ops 28 4)) :
    d.historyRead ops = (d.hostPut (opnd ops 32 8) (rs.flatMap d.recordOf) false, .now (okR rs.length)) := by
  unfold Dev.historyRead
  dsimp only
  rw [h, hrs]
  rfl

theorem Dev.historyRead_summaries (h : opnd ops 16 1 = 1) (hu : opnd ops 18 2 = 0xFFFF) :
    d.historyRead ops = (d.hostPut (opnd ops 32 8) ((allUnits.take (opnd ops 28 4)).flatMap d.summaryEntry) false,
      .now (okR (allUnits.take (opnd ops 28 4)).length)) := by
  unfold Dev.historyRead
  dsimp only
  rw [h, hu]
  rfl

theorem Dev.historyRead_acquits (h : opnd ops 16 1 = 2) : d.historyRead ops = d.acquit (opnd ops 18 2) := by
  unfold Dev.historyRead
  dsimp only
  rw [h]
  rfl

theorem Dev.historyRead_fatals (h : opnd ops 16 1 = 3) {fs : List Bytes} (hfs : fs = d.csv.fatals.take (opnd ops 28 4)) :
    d.historyRead ops = (d.hostPut (opnd ops 32 8) (fs.flatMap (fun b => slice b 0 4096)) false, .now (okR fs.length)) := by
  unfold Dev.historyRead
  dsimp only
  rw [h, hfs]
  rfl

theorem Dev.acquit_clear {u : Nat} (hu : u ∈ allUnits) (h : d.get (suspLevel u) < 2) : d.acquit u = (d, .now (okR (d.get (suspLevel u)))) := by
  unfold Dev.acquit
  dsimp only
  rw [if_neg (by simpa using hu), if_pos h]

/-- A unit in PENDING is acquitted. -/
theorem Dev.acquit_pending {u : Nat} (hu : u ∈ allUnits) (h : d.get (suspLevel u) = 2) :
    d.acquit u = ({ d with csv.reviews := d.csv.reviews.filter (· != u) }.suspect u 0, .now (okR 2)) := by
  unfold Dev.acquit
  dsimp only
  rw [h, if_neg (by simpa using hu), if_neg (by decide)]
  rfl

/-- A unit in PERMANENT is acquitted and waits for the next boot. -/
theorem Dev.acquit_permanent {u : Nat} (hu : u ∈ allUnits) (h : d.get (suspLevel u) = 3) (hnew : u ∉ d.csv.acquitted) :
    d.acquit u = ({ d with csv.reviews := d.csv.reviews.filter (· != u), csv.acquitted := d.csv.acquitted ++ [u] }.suspect u 0, .now (okR 3)) := by
  unfold Dev.acquit
  dsimp only
  rw [h, if_neg (by simpa using hu), if_neg (by decide), if_pos ⟨rfl, by simpa using hnew⟩]

theorem Dev.dumpRead_other (h : 1 < opnd ops 16 1) : d.dumpRead ops = (d, .now (errR 0x0107)) := by
  obtain ⟨n, hn⟩ := Nat.exists_eq_add_of_lt h
  rw [show 1 + n + 1 = n + 2 by omega] at hn
  unfold Dev.dumpRead
  dsimp only
  rw [hn]
  rfl

theorem Dev.dumpRead_releases (h : opnd ops 16 1 = 1) : d.dumpRead ops = (d.set CSV.DUMP_STATE.VALID 0, .now (okR 0)) := by
  unfold Dev.dumpRead
  dsimp only
  rw [h]
  rfl

theorem Dev.dumpRead_none (h : opnd ops 16 1 = 0) (hlen : opnd ops 28 4 ≤ 0x4000000)
    (hno : d.flag CSV.DUMP_STATE.VALID = false ∨ 2 ^ 28 < opnd ops 20 8 + opnd ops 28 4) : d.dumpRead ops = (d, .now (errR 0x070D)) := by
  have hbad : (!d.flag CSV.DUMP_STATE.VALID || decide (archiveBytes < opnd ops 20 8 + opnd ops 28 4)) = true := by
    rcases hno with hno | hno
    · rw [hno]
      rfl
    · rw [decide_eq_true (show archiveBytes < _ from hno), Bool.or_true]
  unfold Dev.dumpRead
  dsimp only
  rw [h]
  rw [if_neg (by omega), if_pos hbad]
  rfl

theorem Dev.dumpRead_copies {d1 : Dev} (h : opnd ops 16 1 = 0) (hlen : opnd ops 28 4 ≤ 0x4000000) (hv : d.flag CSV.DUMP_STATE.VALID = true)
    (hfit : opnd ops 20 8 + opnd ops 28 4 ≤ 2 ^ 28) (hread : d.readSegs [(archiveBase + opnd ops 20 8, opnd ops 28 4)] = (d1, none)) :
    d.dumpRead ops = ({ d1 with host := memCopy d1.hbm.mem (archiveBase + opnd ops 20 8) d1.host (opnd ops 32 8) (opnd ops 28 4) }.emit
      (.hostWrite [(opnd ops 32 8, opnd ops 28 4)] false false), .now (okR (opnd ops 28 4))) := by
  have hgood : ¬ (!d.flag CSV.DUMP_STATE.VALID || decide (archiveBytes < opnd ops 20 8 + opnd ops 28 4)) = true := by
    rw [hv, decide_eq_false (show ¬ archiveBytes < _ from Nat.not_lt.mpr hfit)]
    decide
  unfold Dev.dumpRead
  dsimp only
  rw [h]
  rw [if_neg (by omega), if_neg hgood, hread]
  rfl

end ConservatorCommands

/-- Settles O56: each command of the conservator, by its operands. -/
theorem conservatorCommands : Obligations.ConservatorCommands := by
  refine fun s o ops => ⟨fun hat h hz1 hz2 hlo hhi => ?_, fun hat h => ?_, fun hat h hz1 hz2 ht => ⟨fun hf => ?_, fun hf => ?_⟩,
    fun hat t deep temp ht hdeep htemp => ?_, fun hat h1 h2 h3 h4 h5 h6 => ?_,
    fun hat => ⟨fun h rs hrs => ?_, fun h hu => ?_, fun h hu hl => ?_, fun h hu hl => ?_, fun h hu hl hnew => ?_, fun h fs hfs => ?_, fun h => ?_⟩,
    fun hat => ⟨fun h hlen hno => ?_, fun h hlen hv hfit d1 hread => ?_, fun h => ?_, fun h => ?_⟩⟩
  · exact congrArg Host.Outcome.next (onDev_congr s _ _ (command_now hat (Dev.loanPolicy_sets (d := s.here) h hz1 hz2 hlo hhi)))
  · exact congrArg Host.Outcome.next (onDev_congr s _ _ (command_now hat (Dev.loanPolicy_bad (d := s.here) h)))
  · exact congrArg Host.Outcome.next (onDev_congr s _ _ (command_now hat ((Dev.loanPolicy_tests (d := s.here) h hz1 hz2 ht).trans (if_pos hf))))
  · exact congrArg Host.Outcome.next (onDev_congr s _ _ (command_now hat ((Dev.loanPolicy_tests (d := s.here) h hz1 hz2 ht).trans (if_neg (by simp [hf])))))
  · subst ht hdeep htemp
    refine ⟨fun hbad => ?_, fun h1 h2 h3 h4 h5 => ?_⟩
    · exact congrArg Host.Outcome.next (onDev_congr s _ _ (command_now hat (Dev.marginSweep_bad (d := s.here) hbad)))
    · have hgood : ¬ sweepBad ops := by
        unfold sweepBad
        omega
      refine ⟨fun hno => ?_, fun hres hfree => ?_⟩
      · exact congrArg Host.Outcome.next (onDev_congr s _ _ (command_now hat (Dev.marginSweep_busy (d := s.here) hgood hno)))
      · obtain ⟨d1, vs, hlen, hrange, heff⟩ := Dev.marginSweep_sweeps (d := s.here) hgood hres hfree
        exact ⟨d1, vs, hlen, hrange, congrArg Host.Outcome.next (onDev_congr s _ _ (command_later hat heff))⟩
  · exact congrArg Host.Outcome.next (onDev_congr s _ _ (command_now hat (Dev.telemetryCfg_good (d := s.here) h1 h2 h3 h4 h5 h6)))
  · exact congrArg Host.Outcome.next (onDev_congr s _ _ (command_now hat (Dev.historyRead_records (d := s.here) h hrs)))
  · exact congrArg Host.Outcome.next (onDev_congr s _ _ (command_now hat (Dev.historyRead_summaries (d := s.here) h hu)))
  · exact congrArg Host.Outcome.next (onDev_congr s _ _ (command_now hat ((Dev.historyRead_acquits (d := s.here) h).trans (Dev.acquit_clear hu hl))))
  · exact congrArg Host.Outcome.next (onDev_congr s _ _ (command_now hat ((Dev.historyRead_acquits (d := s.here) h).trans (Dev.acquit_pending hu hl))))
  · exact congrArg Host.Outcome.next (onDev_congr s _ _ (command_now hat ((Dev.historyRead_acquits (d := s.here) h).trans (Dev.acquit_permanent hu hl hnew))))
  · exact congrArg Host.Outcome.next (onDev_congr s _ _ (command_now hat (Dev.historyRead_fatals (d := s.here) h hfs)))
  · exact congrArg Host.Outcome.next (onDev_congr s _ _ (command_now hat (Dev.historyRead_other (d := s.here) h)))
  · exact congrArg Host.Outcome.next (onDev_congr s _ _ (command_now hat (Dev.dumpRead_none (d := s.here) h hlen hno)))
  · exact congrArg Host.Outcome.next (onDev_congr s _ _ (command_now hat (Dev.dumpRead_copies (d := s.here) h hlen hv hfit hread)))
  · exact congrArg Host.Outcome.next (onDev_congr s _ _ (command_now hat (Dev.dumpRead_releases (d := s.here) h)))
  · exact congrArg Host.Outcome.next (onDev_congr s _ _ (command_now hat (Dev.dumpRead_other (d := s.here) h)))

end Sys2Proof.Machine
end


section
/-! PROOFS. The issue of a tile's instructions (R256, R262, R266), waits, tally adds, releases and completions (R258 to
R263, R273, R274), and `CMD.SEQ_CTRL` (R283, R285, R289). -/

namespace Sys2Proof.Machine

/-! ## What holds an issue (R256, R262, R266) -/

section IssueHolds

variable {s : State} {t op : Nat} {d : Dev} {c : Bool} {w : Nat} (f : Dev → Bool → Nat → Issued) (ht : t < 200) (hd : d = s.here.pump t) (hc : c = d.ctx t)
  (hw : w = smapGet zeroDflt (d.tile t).prog (d.pc t c)) (hop : iOp w = op) (hrun : d.get (CMD.SEQ_STATE.STATE t) = tsRUNNING)
  (hpc : d.pc t c < d.get (CMD.SEQ_PROG.COUNT t))

/-- A tile that runs, with an instruction of the row at its PC, and nothing that holds its issue. -/
def Dev.free (d : Dev) (t : Nat) (c : Bool) : Prop :=
  (d.tile t).issueHeld c = false ∧ (c = false → (d.tile t).mbHold = false) ∧ (c = true → d.flag (CMD.SEQ_STATE.ROUTINE t) = true)

theorem Dev.free_iff (d : Dev) (t : Nat) (c : Bool) :
    d.free t c ↔ ¬ ((d.tile t).issueHeld c = true ∨ (!c && (d.tile t).mbHold) = true ∨ (c && !d.flag (CMD.SEQ_STATE.ROUTINE t)) = true) := by
  unfold Dev.free
  cases c <;> simp

include ht hd hc hw hop hrun hpc

/-- An issue that something holds counts a stall. -/
theorem issue_held (hheld : ¬ d.free t c) : s.atTile t (·.issue t op f) = s.onDev fun _ => d.bump (CMD.SEQ_STALL.COUNT t) 1 := by
  rw [Dev.free_iff, Decidable.not_not] at hheld
  rw [State.atTile_lt s _ ht]
  apply onDev_eq
  simp only [Dev.issue, ← hd, ← hc, ← hw]
  rw [if_neg (by simp [hrun, hop]; omega), if_pos hheld]

/-- A failed predicate makes the instruction a no-op that counts as issued. -/
theorem issue_skips (hfree : d.free t c) (hp : (d.tile t).rp c (iPred w) = iPneg w) :
    s.atTile t (·.issue t op f) = s.onDev fun _ => issued (d.advance t c) t c := by
  rw [Dev.free_iff] at hfree
  rw [State.atTile_lt s _ ht]
  apply onDev_eq
  simp only [Dev.issue, ← hd, ← hc, ← hw]
  rw [if_neg (by simp [hrun, hop]; omega), if_neg hfree, if_pos (by simpa using hp)]
  rfl

/-- A tally that is not the job's halts the tile. -/
theorem issue_foreign (hfree : d.free t c) (hp : (d.tile t).rp c (iPred w) ≠ iPneg w) (hneeds : iSig w = true ∨ op = 0x80 ∨ op = 0x82)
    (hown : d.tallyOwned (insTally (d.tile t) c w) (d.tileJob t) = false) :
    s.atTile t (·.issue t op f) = s.onDev fun _ => d.haltTile t 0x0106 (insTally (d.tile t) c w) ⟨d.pc t c, c, 0, 0⟩ [] := by
  rw [Dev.free_iff] at hfree
  rw [State.atTile_lt s _ ht]
  apply onDev_eq
  simp only [Dev.issue, ← hd, ← hc, ← hw]
  rw [if_neg (by simp [hrun, hop]; omega), if_neg hfree, if_neg (by simpa using hp), if_pos]
  rcases hneeds with h | h | h <;> simp [h, hown]

end IssueHolds

/-- Settles O43: the issue of every row, by what stands at the PC and what holds it. -/
theorem tileIssues : Obligations.TileIssues := by
  intro s t x op d c w ht hx hd hc hw
  obtain ⟨f, hexec⟩ := issueRows_exec s hx
  rw [hexec]
  refine ⟨fun hother => ?_, fun hop hrun hpc => ⟨fun hheld => ?_, fun h1 h2 h3 => ⟨fun hp => ?_, fun hp hneeds hown => ?_⟩⟩⟩
  · exact congrArg Host.Outcome.next (issue_other f ht hd hc hw hother)
  · refine congrArg Host.Outcome.next (issue_held f ht hd hc hw hop hrun hpc ?_)
    rintro ⟨h1, h2, h3⟩
    rcases hheld with h | ⟨h, hm⟩ | ⟨h, hr⟩
    · rw [h1] at h
      cases h
    · rw [h2 h] at hm
      cases hm
    · rw [h3 h] at hr
      cases hr
  · exact congrArg Host.Outcome.next (issue_skips f ht hd hc hw hop hrun hpc ⟨h1, h2, h3⟩ hp)
  · exact congrArg Host.Outcome.next (issue_foreign f ht hd hc hw hop hrun hpc ⟨h1, h2, h3⟩ hp hneeds hown)

/-! ## Waits, tally adds and releases (R262, R263, R273, R274) -/

/-- Is a wait met when it is issued? -/
def Dev.waitMet (d : Dev) (t : Nat) (wt : TWait) : Bool :=
  if wt.isTally then decide (wt.amount ≤ d.get (QSU.TALLY_VALUE.VALUE wt.key)) else d.regWaitMet t wt

section Waits

variable {d : Dev} {t : Nat} {c : Bool} {wt : TWait}

theorem Dev.waitIssue_stalls (h : 8 ≤ (d.tile t).waits.length ∨ (d.tile t).gateRoom wt.gates = false) : d.waitIssue t c wt = .stall d :=
  if_pos (h.imp_right (by simp [·]))

theorem Dev.waitIssue_room (hslot : (d.tile t).waits.length < 8) (hroom : (d.tile t).gateRoom wt.gates = true) :
    d.waitIssue t c wt = if d.waitMet t wt then .ok (d.advance t c) else .ok ((d.setTile t ((d.tile t).takeWait wt)).advance t c) :=
  if_neg (by rw [hroom, not_or, Nat.not_le]; exact ⟨hslot, by decide⟩)

end Waits

section SQueue

variable {d : Dev} {t : Nat} {c : Bool} {i : TIns}

theorem Dev.toS_stalls (h : 8 ≤ (d.tile t).sq.length) : d.toS t c i = .stall d := if_pos h

theorem Dev.toS_joins (h : (d.tile t).sq.length < 8) :
    d.toS t c i = .ok (((d.track t i 0).onTile t (fun x => { x with sq := x.sq ++ [.ins i] })).advance t c) := if_neg (Nat.not_le.mpr h)

end SQueue

/-! ## Completion (R259) -/

theorem Dev.instructionComplete_at {d : Dev} {t k : Nat} {i : TIns} (h : (d.tile t).done[k]? = some i) :
    d.instructionComplete t k = ((d.onTile t (fun x => { x with done := x.done.eraseIdx k })).when i.sig (·.tallyAdd i.tally 1)).pump t := by
  unfold Dev.instructionComplete
  rw [h]

/-! ## `CMD.SEQ_CTRL` (R283, R285, R289) -/

/-- A tile as a resume leaves it: a DMA that was aborted reads its descriptor again. -/
def Tile.resumed (x : Tile) : Tile :=
  { x with
    resumeHeld := false
    wasReady := false
    chans := x.chans.map (fun e => (e.1, { e.2 with
      redo := e.2.redo.map (fun q => match q.ins with
        | some i => if q.again then { q with bytes := descBytes x i, again := false } else q
        | none => q) })) }

/-- The device when a halted tile resumes, before its queue heads move. -/
def Dev.resumed (d : Dev) (t : Nat) : Dev :=
  ((d.set (CMD.SEQ_STATE.STATE t) (if (d.tile t).wasReady then tsREADY else tsRUNNING)).set (CMD.SEQ_HALT.VALID t) 0).onTile t Tile.resumed

section SeqCtrl

variable {d : Dev} {t : Nat}

theorem Dev.resumeTile_running (h : d.halted t = false) : d.resumeTile t = d := by
  unfold Dev.resumeTile
  rw [h]
  rfl

theorem Dev.resumeFree_iff :
    d.resumeFree t = true ↔ d.flag (TCX.FAULT_STATUS.VALID t) = false ∧ ∀ ch < 4, d.flag (TDMA.CH_STATE.ERROR t ch) = false := by
  simp [Dev.resumeFree]

theorem Dev.resumeTile_held (h : d.halted t = true) (hno : d.resumeFree t = false) :
    d.resumeTile t = d.onTile t (fun x => { x with resumeHeld := true }) := by
  unfold Dev.resumeTile
  rw [h, hno]
  rfl

theorem Dev.resumeTile_resumes (h : d.halted t = true) (hfree : d.resumeFree t = true) : d.resumeTile t = (d.resumed t).pump t := by
  unfold Dev.resumeTile
  rw [if_neg (by rw [h]; decide), if_pos hfree]
  rfl

theorem Dev.get_onTile (d : Dev) (t : Nat) (f : Tile → Tile) (g : FRef) : (d.onTile t f).get g = d.get g := rfl

theorem seqState_off_ne_seqHalt (t : Nat) : (CMD.SEQ_STATE.STATE t).off ≠ (CMD.SEQ_HALT.VALID t).off := by
  simp [CMD.SEQ_STATE.STATE, CMD.SEQ_HALT.VALID]

theorem Dev.resumed_state : (d.resumed t).get (CMD.SEQ_STATE.STATE t) = if (d.tile t).wasReady then tsREADY else tsRUNNING := by
  unfold Dev.resumed
  rw [Dev.get_onTile, Dev.get_set_ne _ _ _ _ (by simp [CMD.SEQ_HALT.VALID]) (fun h => absurd h (seqState_off_ne_seqHalt t)),
    Dev.get_set_same _ _ _ (by simp [CMD.SEQ_STATE.STATE]) (by simp [CMD.SEQ_STATE.STATE])]
  split <;> rfl

theorem Dev.resumed_valid : (d.resumed t).get (CMD.SEQ_HALT.VALID t) = 0 := by
  unfold Dev.resumed
  rw [Dev.get_onTile, Dev.get_set_same _ _ _ (by simp [CMD.SEQ_HALT.VALID]) (by simp [CMD.SEQ_HALT.VALID]), Nat.zero_mod]

theorem Dev.onTile_tile (d : Dev) (t : Nat) (f : Tile → Tile) : (d.onTile t f).tile t = f (d.tile t) := smapGet_set_same ..

theorem Dev.onTile_tile_ne (d : Dev) (f : Tile → Tile) {t u : Nat} (h : u ≠ t) : (d.onTile t f).tile u = d.tile u := smapGet_set_ne _ _ h

theorem Dev.set_tile (d : Dev) (f : FRef) (v t : Nat) : (d.set f v).tile t = d.tile t := rfl

theorem Dev.resumed_tile : (d.resumed t).tile t = (d.tile t).resumed := by
  unfold Dev.resumed
  rw [Dev.onTile_tile, Dev.set_tile, Dev.set_tile]

theorem Dev.resumed_tile_ne {u : Nat} (h : u ≠ t) : (d.resumed t).tile u = d.tile u := by
  unfold Dev.resumed
  rw [Dev.onTile_tile_ne _ _ h, Dev.set_tile, Dev.set_tile]

theorem Dev.hostHalt_halts (h : d.get (CMD.SEQ_STATE.STATE t) ∈ [tsRUNNING, tsREADY]) :
    d.hostHalt t = d.haltTile t 0x0276 0 ⟨d.pc t (d.ctx t), d.ctx t, 0, 0⟩ [] :=
  if_pos (by simpa using h)

theorem Dev.hostHalt_other (h : d.get (CMD.SEQ_STATE.STATE t) ∉ [tsRUNNING, tsREADY]) : d.hostHalt t = d :=
  if_neg (by simpa using h)

theorem Dev.seqUnload_unloads (h : d.get (CMD.SEQ_STATE.STATE t) ∈ [tsREADY, tsHALTED]) :
    d.seqUnload t = ((((d.onTile t (fun x => { x with prog := [], resumeHeld := false })).set (CMD.SEQ_STATE.STATE t) tsEMPTY).set (CMD.SEQ_HALT.VALID t) 0).set
      (CMD.SEQ_PROG.COUNT t) 0).set (CMD.SEQ_PROG.VARIANT7 t) 0 := by
  have hst : ¬ (d.get (CMD.SEQ_STATE.STATE t) ≠ tsREADY ∧ d.get (CMD.SEQ_STATE.STATE t) ≠ tsHALTED) := by
    simpa [Classical.or_iff_not_imp_left] using h
  unfold Dev.seqUnload
  dsimp only
  rw [if_neg hst]

theorem Dev.seqUnload_other (h : d.get (CMD.SEQ_STATE.STATE t) ∉ [tsREADY, tsHALTED]) : d.seqUnload t = d :=
  if_pos (by simpa using h)

end SeqCtrl

/-- Settles O46: each instruction by what its issue finds, and each write of `CMD.SEQ_CTRL` by the tile's state. -/
theorem waitsAndSequencerControl : Obligations.WaitsAndSequencerControl := by
  refine ⟨⟨fun s t op d c w wt hi hwt x met hx hmet => ?wait, fun s t d c w hi hno => ?waitr, fun s t op d c w i x hi hix => ?queue,
    fun s t d c w hi hno => ?rel, fun s t k i ht hk => ?complete⟩, fun s t ht => ?control⟩
  case wait =>
    obtain ⟨f, hf, hexec⟩ : ∃ f : Dev → Bool → Nat → Issued, f d c w = d.waitIssue t c wt ∧ exec x s = .next (s.atTile t (·.issue t op f)) := by
      rcases hwt with ⟨hop, hwt⟩ | ⟨hop, hreg, hwt⟩
      · subst hop hwt hx
        exact ⟨_, rfl, rfl⟩
      · subst hop hwt hx
        refine ⟨_, ?_, rfl⟩
        exact if_neg (by simpa using hreg)
    have hmet' : d.waitMet t wt = met := by
      rcases hwt with ⟨hop, hwt⟩ | ⟨hop, hreg, hwt⟩
      · rw [hmet, hop, hwt]
        rfl
      · rw [hmet, hop, hwt]
        rfl
    rw [hexec]
    refine ⟨fun hm hslot hroom => ?_, fun hm hslot hroom => ?_, fun hfull => ?_⟩
    · exact congrArg Host.Outcome.next (hi.ok (hf.trans ((Dev.waitIssue_room hslot hroom).trans (if_pos (hmet'.trans hm)))))
    · exact congrArg Host.Outcome.next (hi.ok (hf.trans ((Dev.waitIssue_room hslot hroom).trans (if_neg (by rw [hmet', hm]; decide)))))
    · exact congrArg Host.Outcome.next (hi.stall (hf.trans (Dev.waitIssue_stalls hfull)))
  case waitr => exact congrArg Host.Outcome.next (hi.halt (if_pos (by rw [hno]; rfl)) (by decide))
  case queue =>
    obtain ⟨f, hf, hexec⟩ : ∃ f : Dev → Bool → Nat → Issued, f d c w = d.toS t c i ∧ exec x s = .next (s.atTile t (·.issue t op f)) := by
      rcases hix with ⟨hop, hx, hii⟩ | ⟨hop, hx, hreg, hii⟩
      · subst hop hx hii
        exact ⟨_, rfl, rfl⟩
      · subst hop hx hii
        refine ⟨_, ?_, rfl⟩
        exact if_neg (by simpa using hreg)
    rw [hexec]
    exact ⟨fun h => congrArg Host.Outcome.next (hi.ok (hf.trans (Dev.toS_joins h))), fun h => congrArg Host.Outcome.next (hi.stall (hf.trans (Dev.toS_stalls h)))⟩
  case rel => exact congrArg Host.Outcome.next (hi.halt (if_pos (by rw [hno]; rfl)) (by decide))
  case complete =>
    have heff : s.here.instructionComplete t k = _ := Dev.instructionComplete_at (d := s.here) hk
    refine ⟨fun hsig => ?_, fun hsig => ?_⟩
    · rw [hsig] at heff
      exact congrArg Host.Outcome.next ((State.atTile_lt s _ ht).trans (onDev_congr s _ _ heff))
    · rw [hsig] at heff
      exact congrArg Host.Outcome.next ((State.atTile_lt s _ ht).trans (onDev_congr s _ _ heff))
  case control =>
    refine ⟨fun h => ?_, fun h => ?_, fun h => ?_, fun h hwhy => ?_, fun h hv hch => ⟨s.here.resumed t, ?_, Dev.resumed_state, Dev.resumed_valid, ?_⟩, fun h => ?_, fun h => ?_⟩
    · exact congrArg Host.Outcome.next ((State.atTile_lt s _ ht).trans (onDev_congr s _ _ (Dev.hostHalt_halts (d := s.here) h)))
    · exact congrArg Host.Outcome.next ((State.atTile_lt s _ ht).trans (onDev_congr s _ _ (Dev.hostHalt_other (d := s.here) h)))
    · exact congrArg Host.Outcome.next ((State.atTile_lt s _ ht).trans (onDev_congr s _ _ (Dev.resumeTile_running (d := s.here) h)))
    · have hno : s.here.resumeFree t = false := by
        rw [Bool.eq_false_iff, ne_eq, Dev.resumeFree_iff]
        rintro ⟨hv, hch⟩
        rcases hwhy with hval | ⟨ch, hlt, herr⟩
        · rw [show s.dev.flag (TCX.FAULT_STATUS.VALID t) = false from hv] at hval
          cases hval
        · rw [show s.dev.flag (TDMA.CH_STATE.ERROR t ch) = false from hch ch hlt] at herr
          cases herr
      exact congrArg Host.Outcome.next ((State.atTile_lt s _ ht).trans (onDev_congr s _ _ (Dev.resumeTile_held (d := s.here) h hno)))
    · exact congrArg Host.Outcome.next ((State.atTile_lt s _ ht).trans
        (onDev_congr s _ (fun _ => (s.here.resumed t).pump t) (Dev.resumeTile_resumes (d := s.here) h (Dev.resumeFree_iff.mpr ⟨hv, hch⟩))))
    · rw [Dev.resumed_tile]
      exact ⟨rfl, rfl, rfl, rfl, rfl, fun u hu => Dev.resumed_tile_ne hu⟩
    · exact congrArg Host.Outcome.next ((State.atTile_lt s _ ht).trans (onDev_congr s _ _ (Dev.seqUnload_unloads (d := s.here) h)))
    · exact congrArg Host.Outcome.next ((State.atTile_lt s _ ht).trans (onDev_congr s _ _ (Dev.seqUnload_other (d := s.here) h)))

end Sys2Proof.Machine
end


section
/-! PROOFS. The matrix and vector instructions (R201 to R203, R269 to R271), and the vector engine's takes and markers
(R194 to R197, R214 to R216). -/

namespace Sys2Proof.Machine

/-- A matrix instruction halts with its array in the halt record. -/
theorem Issues.haltArray {s : State} {t op : Nat} {d : Dev} {c : Bool} {w : Nat} (hi : Issues s t op d c w) {f : Dev → Bool → Nat → Issued} {st info : Nat}
    (hf : f d c w = .halt st info) (hop : op / 32 = 1) :
    s.atTile t (·.issue t op f) = s.onDev fun _ => d.haltTile t st info ⟨d.pc t c, c, 0, iArray w⟩ [] := by
  rw [issue_tile hi, hf, if_pos hop]

/-! ## MLOAD and MSTREAM (R269, R270) -/

/-- An instruction joins the M queue. -/
def Dev.joinM (d : Dev) (t : Nat) (c : Bool) (i : TIns) (chain : Nat) : Dev :=
  ((d.track t i chain).onTile t (fun x => { x with mq := x.mq ++ [.ins i] })).advance t c

section Matrix

variable {d : Dev} {t : Nat} {c : Bool} {w : Nat}

theorem Dev.mloadIssue_unmapped (h : d.arrValid t (iArray w) = false) : d.mloadIssue t c w = .halt 0x0243 (iArray w) :=
  if_pos (by rw [h]; rfl)

theorem Dev.mloadIssue_region (h : d.arrValid t (iArray w) = true) (hr : bit w 44 = true) (hno : d.regOk t (bits w 50 45) = false) :
    d.mloadIssue t c w = .halt 0x0261 (bits w 50 45) :=
  (if_neg (by rw [h]; decide)).trans (if_pos (by rw [hr, hno]; rfl))

theorem Dev.mloadIssue_checked (h : d.arrValid t (iArray w) = true) (hr : bit w 44 = true → d.regOk t (bits w 50 45) = true) :
    d.mloadIssue t c w = if 16 ≤ (d.tile t).mq.length then .stall d else .ok (d.joinM t c { d.mkIns t c w with x := d.loadFrom t c w } 0) := by
  have hreg : ¬ (bit w 44 && !d.regOk t (bits w 50 45)) = true := by
    cases hb : bit w 44 with
    | false => simp
    | true => simp [hr hb]
  exact (if_neg (by rw [h]; decide)).trans (if_neg hreg)

/-- The instruction that an MSTREAM with these captured registers is. -/
def Dev.streamIns (d : Dev) (t : Nat) (c : Bool) (w : Nat) (gregs : List Nat) : TIns :=
  { d.mkIns t c w with
    x := if bit w 68 then (d.regR t (bits w 74 69) + (d.tile t).ra c (bits w 67 64)) % m32 else (d.tile t).ra c (bits w 67 64) % spmBytes
    y := (d.tile t).streamM c w
    z := (d.tile t).streamRow0 c w
    w := (d.tile t).ra c (bits w 78 75) % spmBytes
    e0 := d.curE t (iChainM w)
    r0 := d.curRow t (iChainM w)
    c0 := d.curCol t (iChainM w)
    d0 := (d.tile t).eRed (iChainM w)
    gregs := gregs }

theorem Dev.mstreamIssue_unmapped (hm : 0 < (d.tile t).streamM c w) (h : d.arrValid t (iArray w) = false) :
    d.mstreamIssue t c w = .halt 0x0243 (iArray w) :=
  if_pos (by rw [decide_eq_true hm, h]; rfl)

theorem Dev.mstreamIssue_region (hm : 0 < (d.tile t).streamM c w) (h : d.arrValid t (iArray w) = true) (hr : bit w 68 = true)
    (hno : d.regOk t (bits w 74 69) = false) : d.mstreamIssue t c w = .halt 0x0261 (bits w 74 69) :=
  (if_neg (by rw [h, Bool.not_true, Bool.and_false]; decide)).trans (if_pos (by rw [decide_eq_true hm, hr, hno]; rfl))

/-- An MSTREAM past the checks of its array and its region. -/
def Dev.mstreamGoesOn (d : Dev) (t : Nat) (c : Bool) (w : Nat) : Issued :=
  if ((bit w 41 && decide (0 < (d.tile t).streamM c w)) && ((d.tile t).chTess (iChainM w) || (d.tile t).chRegion (iChainM w)) && d.uncommitted t (iChainM w)) = true then .stall d
  else if (decide (0 < (d.tile t).streamM c w) && !(bit w 41 && !bit w 40) && decide (512 < bits w 63 55 + (d.tile t).streamM c w * streamQ w)) = true then .halt 0x0241 (iArray w)
  else if (bit w 41 && decide (0 < (d.tile t).streamM c w)) = true then
    if d.finishCheck t (iChainM w) ((d.tile t).streamM c w) (streamQ w) ≠ 0 then .halt (d.finishCheck t (iChainM w) ((d.tile t).streamM c w) (streamQ w)) (iChainM w)
    else .ok ((d.reserveStream t (iChainM w) ((d.tile t).streamM c w) (streamQ w)).joinM t c (d.streamIns t c w ((d.tile t).captured c (iChainM w))) (iChainM w + 1))
  else .ok (d.joinM t c (d.streamIns t c w []) 0)

theorem Dev.mstreamIssue_checked (h : (d.tile t).streamM c w = 0 ∨ (d.arrValid t (iArray w) = true ∧ (bit w 68 = true → d.regOk t (bits w 74 69) = true))) :
    d.mstreamIssue t c w = if 16 ≤ (d.tile t).mq.length then .stall d else d.mstreamGoesOn t c w := by
  have harr : ¬ (decide (0 < (d.tile t).streamM c w) && !d.arrValid t (iArray w)) = true := by
    rcases h with h | ⟨h, -⟩
    · simp [h]
    · simp [h]
  have hreg : ¬ (decide (0 < (d.tile t).streamM c w) && bit w 68 && !d.regOk t (bits w 74 69)) = true := by
    rcases h with h | ⟨-, h⟩
    · simp [h]
    · cases hb : bit w 68 with
      | false => simp
      | true => simp [h hb]
  unfold Dev.mstreamIssue Dev.mstreamGoesOn
  dsimp only
  rw [if_neg harr, if_neg hreg]
  cases bit w 41 && decide (0 < (d.tile t).streamM c w) <;> rfl

/-- A stream that feeds no chain joins the M queue. -/
theorem Dev.mstreamGoesOn_plain (h : bit w 41 = false ∨ (d.tile t).streamM c w = 0)
    (hfit : (d.tile t).streamM c w = 0 ∨ bits w 63 55 + (d.tile t).streamM c w * streamQ w ≤ 512) :
    d.mstreamGoesOn t c w = .ok (d.joinM t c (d.streamIns t c w []) 0) := by
  have hactive : (bit w 41 && decide (0 < (d.tile t).streamM c w)) = false := by
    rcases h with h | h <;> simp [h]
  have hroom : ¬ (decide (0 < (d.tile t).streamM c w) && !(bit w 41 && !bit w 40) && decide (512 < bits w 63 55 + (d.tile t).streamM c w * streamQ w)) = true := by
    rcases hfit with h | h
    · simp [h]
    · simp [Nat.not_lt.mpr h]
  unfold Dev.mstreamGoesOn
  rw [hactive, if_neg (by simp), if_neg hroom, if_neg (by decide)]

/-- A stream that feeds a chain is checked against it (R201). -/
theorem Dev.mstreamGoesOn_finish (hf : bit w 41 = true) (hm : 0 < (d.tile t).streamM c w)
    (hun : (d.tile t).chTess (iChainM w) = true ∨ (d.tile t).chRegion (iChainM w) = true → d.uncommitted t (iChainM w) = false)
    (hfit : bit w 40 = true → bits w 63 55 + (d.tile t).streamM c w * streamQ w ≤ 512) :
    d.mstreamGoesOn t c w =
      if d.finishCheck t (iChainM w) ((d.tile t).streamM c w) (streamQ w) ≠ 0 then .halt (d.finishCheck t (iChainM w) ((d.tile t).streamM c w) (streamQ w)) (iChainM w)
      else .ok ((d.reserveStream t (iChainM w) ((d.tile t).streamM c w) (streamQ w)).joinM t c (d.streamIns t c w ((d.tile t).captured c (iChainM w))) (iChainM w + 1)) := by
  have hactive : (bit w 41 && decide (0 < (d.tile t).streamM c w)) = true := by simp [hf, hm]
  have hclear : ¬ ((bit w 41 && decide (0 < (d.tile t).streamM c w)) && ((d.tile t).chTess (iChainM w) || (d.tile t).chRegion (iChainM w)) && d.uncommitted t (iChainM w)) = true := by
    by_cases hc : (d.tile t).chTess (iChainM w) = true ∨ (d.tile t).chRegion (iChainM w) = true
    · simp [hun hc]
    · simp only [not_or, Bool.not_eq_true] at hc
      simp [hc.1, hc.2]
  have hroom : ¬ (decide (0 < (d.tile t).streamM c w) && !(bit w 41 && !bit w 40) && decide (512 < bits w 63 55 + (d.tile t).streamM c w * streamQ w)) = true := by
    cases hb : bit w 40 with
    | false => simp [hf]
    | true => simp [Nat.not_lt.mpr (hfit hb)]
  unfold Dev.mstreamGoesOn
  rw [if_neg hclear, if_neg hroom, if_pos hactive]

/-- A stream whose slots do not fit halts the tile (R270). -/
theorem Dev.mstreamGoesOn_overflows (hm : 0 < (d.tile t).streamM c w)
    (h : bit w 41 = false ∨ (bit w 40 = true ∧ ((d.tile t).chTess (iChainM w) = true ∨ (d.tile t).chRegion (iChainM w) = true → d.uncommitted t (iChainM w) = false)))
    (hbig : 512 < bits w 63 55 + (d.tile t).streamM c w * streamQ w) : d.mstreamGoesOn t c w = .halt 0x0241 (iArray w) := by
  have hclear : ¬ ((bit w 41 && decide (0 < (d.tile t).streamM c w)) && ((d.tile t).chTess (iChainM w) || (d.tile t).chRegion (iChainM w)) && d.uncommitted t (iChainM w)) = true := by
    rcases h with h | ⟨-, h⟩
    · simp [h]
    · by_cases hc : (d.tile t).chTess (iChainM w) = true ∨ (d.tile t).chRegion (iChainM w) = true
      · simp [h hc]
      · simp only [not_or, Bool.not_eq_true] at hc
        simp [hc.1, hc.2]
  have hover : (decide (0 < (d.tile t).streamM c w) && !(bit w 41 && !bit w 40) && decide (512 < bits w 63 55 + (d.tile t).streamM c w * streamQ w)) = true := by
    rcases h with h | ⟨h, -⟩ <;> simp [h, hm, hbig]
  unfold Dev.mstreamGoesOn
  rw [if_neg hclear, if_pos hover]

end Matrix

/-! ## VRUN, CRESET and CFLUSH (R202, R203, R271) -/

/-- An instruction joins the V queue. -/
def Dev.joinV (d : Dev) (t : Nat) (c : Bool) (i : TIns) (chain : Nat) : Dev :=
  ((d.track t i chain).onTile t (fun x => { x with vq := x.vq ++ [.ins i] })).advance t c

section Vector

variable {d : Dev} {t : Nat} {c : Bool} {w : Nat}

theorem Dev.vrunIssue_stalls (h : 8 ≤ (d.tile t).vq.length) : d.vrunIssue t c w = .stall d := if_pos h

theorem Dev.vrunIssue_shape (hroom : (d.tile t).vq.length < 8) (h : (d.tile t).runN c w = 0 ∨ (d.tile t).runN c w % (d.tile t).chCols (iChainV w) ≠ 0) :
    d.vrunIssue t c w = .halt 0x0254 (iChainV w) :=
  (if_neg (Nat.not_le.mpr hroom)).trans (if_pos h)

theorem Dev.vrunIssue_past (hroom : (d.tile t).vq.length < 8) (hn : (d.tile t).runN c w ≠ 0) (hcols : (d.tile t).runN c w % (d.tile t).chCols (iChainV w) = 0)
    (ht : (d.tile t).chTess (iChainV w) = true) (hbig : (d.tile t).chElems (iChainV w) < d.curE t (iChainV w) + (d.tile t).runN c w) :
    d.vrunIssue t c w = .halt 0x0307 (iChainV w) :=
  ((if_neg (Nat.not_le.mpr hroom)).trans (if_neg (by simp [hn, hcols]))).trans (if_pos (by rw [ht, decide_eq_true hbig]; rfl))

/-- The instruction that a VRUN is. -/
def Dev.runIns (d : Dev) (t : Nat) (c : Bool) (w : Nat) : TIns :=
  { d.mkIns t c w with
    x := (d.tile t).ra c (bits w 40 37) % spmBytes
    y := (d.tile t).runN c w
    e0 := d.curE t (iChainV w)
    r0 := d.curRow t (iChainV w)
    c0 := 0
    d0 := (d.tile t).eRed (iChainV w)
    gregs := (d.tile t).captured c (iChainV w) }

/-- The cursors past a VRUN (R202). -/
def Dev.pastRun (d : Dev) (t : Nat) (c : Bool) (w : Nat) : Dev :=
  d.setCursors t (iChainV w) ((d.curE t (iChainV w) + (d.tile t).runN c w) % 2 ^ 48)
    ((d.curRow t (iChainV w) + (d.tile t).runN c w / (d.tile t).chCols (iChainV w)) % m32) (d.curCol t (iChainV w)) ((d.tile t).eRed (iChainV w))

theorem Dev.vrunIssue_joins (hroom : (d.tile t).vq.length < 8) (hn : (d.tile t).runN c w ≠ 0) (hcols : (d.tile t).runN c w % (d.tile t).chCols (iChainV w) = 0)
    (ht : (d.tile t).chTess (iChainV w) = true → d.curE t (iChainV w) + (d.tile t).runN c w ≤ (d.tile t).chElems (iChainV w))
    (hsrc : (d.tile t).ra c (bits w 40 37) % spmBytes + (d.tile t).runN c w * elemBits ((d.tile t).chIn (iChainV w)) / 8 ≤ spmBytes)
    (hck : d.chainRanges t (iChainV w) (d.curE t (iChainV w)) ((d.tile t).runN c w) (d.curRow t (iChainV w)) ((d.tile t).runN c w / (d.tile t).chCols (iChainV w)) 0
      ((d.tile t).chCols (iChainV w)) ((d.tile t).eRed (iChainV w))
      ((if (d.tile t).chLane (iChainV w) then (d.tile t).runN c w / 32 else 0) + (if (d.tile t).chCol (iChainV w) then (d.tile t).chCols (iChainV w) else 0)) = 0) :
    d.vrunIssue t c w = .ok ((d.pastRun t c w).joinV t c (d.runIns t c w) (iChainV w + 1)) := by
  have hfits : ¬ ((d.tile t).chTess (iChainV w) && decide ((d.tile t).chElems (iChainV w) < d.curE t (iChainV w) + (d.tile t).runN c w)) = true := by
    cases hb : (d.tile t).chTess (iChainV w) with
    | false => simp
    | true => simpa using ht hb
  unfold Dev.vrunIssue
  dsimp only
  rw [if_neg (Nat.not_le.mpr hroom), if_neg (by simp [hn, hcols]), if_neg hfits, if_neg (Nat.not_lt.mpr hsrc), hck]
  rfl

theorem Dev.cresetIssue_stalls (h : 8 ≤ (d.tile t).vq.length ∨ (d.tile t).chainClear (iChainV w) (d.tile t).nextSeq = false ∨ (d.tile t).flushQueued (iChainV w) = true) :
    d.cresetIssue t c w = .stall d :=
  if_pos (h.imp_right (Or.imp_left (by simp [·])))

theorem Dev.cresetIssue_clear (hroom : (d.tile t).vq.length < 8) (hcl : (d.tile t).chainClear (iChainV w) (d.tile t).nextSeq = true)
    (hfl : (d.tile t).flushQueued (iChainV w) = false) :
    d.cresetIssue t c w = if ((d.tile t).encOf (iChainV w)).isOpen then .halt 0x0274 (iChainV w) else .ok ((d.resetChain t (iChainV w)).advance t c) :=
  if_neg (by simp [hcl, hfl]; omega)

theorem Dev.cflushIssue_stalls (h : 8 ≤ (d.tile t).vq.length) : d.cflushIssue t c w = .stall d := if_pos h

theorem Dev.cflushIssue_early (hroom : (d.tile t).vq.length < 8) (ht : (d.tile t).chTess (iChainV w) = true)
    (h : d.curE t (iChainV w) < (d.tile t).chElems (iChainV w)) : d.cflushIssue t c w = .halt 0x0307 (iChainV w) :=
  (if_neg (Nat.not_le.mpr hroom)).trans (if_pos (by rw [ht, decide_eq_true h]; rfl))

theorem Dev.cflushIssue_joins (hroom : (d.tile t).vq.length < 8)
    (h : (d.tile t).chTess (iChainV w) = true → (d.tile t).chElems (iChainV w) ≤ d.curE t (iChainV w)) :
    d.cflushIssue t c w = .ok (d.joinV t c (d.mkIns t c w) 0) := by
  refine (if_neg (Nat.not_le.mpr hroom)).trans (if_neg ?_)
  cases hb : (d.tile t).chTess (iChainV w) with
  | false => simp
  | true => simpa using h hb

end Vector

/-! ## Takes of the vector engine (R194, R196, R197) -/

section Takes

variable {d : Dev} {t : Nat}

/-- Is a run of the tile past its 64 cycles of waiting (R196)? -/
def Tile.runStarved (x : Tile) : Bool := match x.vrun with | some r => decide (64 ≤ r.starve) | none => false

theorem Tile.runStarved_yes {x : Tile} {r : VRunSt} (hr : x.vrun = some r) (h : 64 ≤ r.starve) : x.runStarved = true := by
  unfold Tile.runStarved
  rw [hr]
  exact decide_eq_true h

theorem Tile.runStarved_no {x : Tile} (h : ∀ r, x.vrun = some r → r.starve < 64) : x.runStarved = false := by
  unfold Tile.runStarved
  cases hv : x.vrun with
  | none => rfl
  | some r => exact decide_eq_false (Nat.not_le.mpr (h r hv))

theorem Dev.panelTake_eq {e : Dev} (he : e = (d.pump t).fillQueue t) :
    d.panelTake t = if (e.tile t).runStarved then e
      else (if (Dev.takeRows 8 e t (e.chainView t)).2 = 0 then
          (if ((Dev.takeRows 8 e t (e.chainView t)).1.tile t).vrun.isSome then (Dev.takeRows 8 e t (e.chainView t)).1.starveRun t
            else (Dev.takeRows 8 e t (e.chainView t)).1)
        else Dev.runGroups (Dev.takeRows 8 e t (e.chainView t)).2 (Dev.takeRows 8 e t (e.chainView t)).1 t (e.chainView t)).pump t := by
  subst he
  rfl

theorem Dev.starvedTake_takes {r : VRunSt} (hr : (d.tile t).vrun = some r) (h : 64 ≤ r.starve) :
    d.starvedTake t = (Dev.runGroups 8 d t (d.chainView t)).pump t := by
  unfold Dev.starvedTake
  rw [hr]
  exact if_pos h

theorem Dev.starvedTake_waits (h : ∀ r, (d.tile t).vrun = some r → r.starve < 64) : d.starvedTake t = d := by
  unfold Dev.starvedTake
  cases hv : (d.tile t).vrun with
  | none => rfl
  | some r => exact if_neg (Nat.not_le.mpr (h r hv))

theorem Dev.takeRows_row {n : Nat} {v : SMap Byte} {i : TIns} {a m ix : Nat} {isInt : Bool} {vals : List Nat} {fl : Nat} {rest : List Panel}
    (hq : (d.tile t).fpq = .row i a m ix isInt vals fl :: rest) :
    Dev.takeRows (n + 1) d t v = if (d.tile t).cbAdmits i then Dev.takeRows n ((d.setTile t { d.tile t with fpq := rest }).takeRow t v i a m ix isInt vals fl) t v
      else (d.bump (VEC.STALL_CB.COUNT t) 1, n + 1) := by
  rw [Dev.takeRows]
  simp only [hq]
  cases (d.tile t).cbAdmits i <;> rfl

theorem Dev.takeRows_mark {n : Nat} {v : SMap Byte} {e : Panel} {rest : List Panel} (hq : (d.tile t).fpq = e :: rest)
    (he : (∃ i a u, e = .commit i a u) ∨ ∃ i a, e = .abort i a) :
    Dev.takeRows (n + 1) d t v = Dev.takeRows n (d.setTile t { d.tile t with fpq := rest, marks := (d.tile t).marks ++ [e] }) t v := by
  rcases he with ⟨i, a, u, rfl⟩ | ⟨i, a, rfl⟩
  · rw [Dev.takeRows]
    simp only [hq]
  · rw [Dev.takeRows]
    simp only [hq]

end Takes

/-! ## Markers (R215, R216) -/

/-- Setting an unlisted key's other value first makes no difference to what a key is set to. -/
theorem smapPut_put {α : Type} (m : SMap α) (k : Nat) (a b : α) : smapPut (smapPut m k a) k b = smapPut m k b := by
  induction m with
  | nil => simp [smapPut]
  | cons e m ih =>
    obtain ⟨j, u⟩ := e
    unfold smapPut
    by_cases hlt : k < j
    · simp [smapPut, hlt]
    · by_cases heq : k = j
      · simp [smapPut, heq]
      · simp only [smapPut, hlt, heq, if_false]
        exact congrArg _ ih

theorem smapDrop_put {α : Type} (m : SMap α) (k : Nat) (a : α) : smapDrop (smapPut m k a) k = smapDrop m k := by
  induction m with
  | nil => simp [smapPut, smapDrop]
  | cons e m ih =>
    obtain ⟨j, u⟩ := e
    unfold smapDrop at ih ⊢
    unfold smapPut
    by_cases hlt : k < j
    · simp [hlt]
    · by_cases heq : k = j
      · simp [heq]
      · simp only [hlt, heq, if_false, List.filter_cons, ih]

theorem Dev.setTile_setTile (d : Dev) (t : Nat) {x : Tile} (y : Tile) (h : x ≠ tileDflt t) : (d.setTile t x).setTile t y = d.setTile t y := by
  have hmap : smapSet tileDflt (smapSet tileDflt d.tiles t x) t y = smapSet tileDflt d.tiles t y := by
    unfold smapSet
    rw [if_neg h]
    split
    · exact smapDrop_put ..
    · exact smapPut_put ..
  exact congrArg (fun m => { d with tiles := m }) hmap

theorem Tile.cbOpen_marks (x : Tile) (i : TIns) (ms : List Panel) : ({ x with marks := ms } : Tile).cbOpen i = { x.cbOpen i with marks := ms } := by
  unfold Tile.cbOpen
  rw [show ({ x with marks := ms } : Tile).cbOf i = x.cbOf i from rfl]
  cases x.cbOf i <;> rfl

/-- A tile when the lines of stream `i` are committed. -/
def Tile.committed (y : Tile) (i : TIns) : Tile :=
  { y with
    cb := y.cb.filter (fun b => b.ins.seq != i.seq)
    cbDone := y.cbDone ++ (y.cb.filter (fun b => b.ins.seq == i.seq)).map (fun b =>
      { b with rows := b.rows.map (fun r => { r with red := none }), cols := [],
               words := b.rows.filterMap (·.red) ++ y.colWords (iChainM i.word) i.d0 b.cols }) }

section Markers

variable {d : Dev} {t : Nat}

theorem Dev.settleMark_commit {i : TIns} {a : Nat} {u : Undo} {ms : List Panel} (h : (d.tile t).marks = .commit i a u :: ms) :
    d.settleMark t = d.setTile t ((({ d.tile t with marks := ms } : Tile).cbOpen i).committed i) := by
  unfold Dev.settleMark
  dsimp only
  rw [h, Tile.cbOpen_marks]
  rfl

theorem Dev.settleMark_abort {i : TIns} {a : Nat} {ms : List Panel} (h : (d.tile t).marks = .abort i a :: ms) :
    d.settleMark t = (d.setTile t { ({ d.tile t with marks := ms } : Tile) with
      cb := ({ d.tile t with marks := ms } : Tile).cb.filter (fun b => b.ins.seq != i.seq) }).bump (VEC.ABORTS.COUNT t) 1 := by
  unfold Dev.settleMark
  dsimp only
  rw [h]

/-- The marker due first: in the pipeline, or else at the head of the queue. A marker's row settles it when it is of its
kind; what stands in the tile's place there is `x`, the tile without it. -/
theorem Dev.marker_first {e : Dev} {kind : Panel → Bool} {p : Panel} {rest : List Panel} {x : Tile} (he : e = d.fillQueue t)
    (hp : (e.tile t).marks ++ (e.tile t).fpq = p :: rest)
    (hx : x = if (e.tile t).marks = [] then { e.tile t with fpq := rest, marks := [] } else { e.tile t with marks := (e.tile t).marks.drop 1 }) :
    (kind p = false → d.marker t kind = e) ∧
      (kind p = true → ∃ (e1 : Dev) (ms : List Panel), d.marker t kind = (e1.settleMark t).pump t ∧ (e1.tile t).marks = p :: ms ∧
        ({ e1.tile t with marks := ms } : Tile) = x ∧ ∀ y, e1.setTile t y = e.setTile t y) := by
  cases hm : (e.tile t).marks with
  | nil =>
    have hfpq : (e.tile t).fpq = p :: rest := by
      rw [hm] at hp
      exact hp
    refine ⟨fun hk => ?_, fun hk => ⟨e.setTile t { e.tile t with fpq := rest, marks := [p] }, [], ?_, ?_, ?_, fun y => ?_⟩⟩
    · simp only [Dev.marker, ← he, hm, hfpq, hk, Bool.false_eq_true, if_false]
    · simp only [Dev.marker, ← he, hm, hfpq, hk, if_true]
    · rw [Dev.tile, Dev.setTile, smapGet_set_same]
    · rw [hx, if_pos hm, Dev.tile, Dev.setTile, smapGet_set_same]
    · exact Dev.setTile_setTile _ _ _ (fun h => List.cons_ne_nil p [] (congrArg Tile.marks h))
  | cons q ms =>
    have hq : q = p := by
      rw [hm, List.cons_append] at hp
      exact (List.cons.inj hp).1
    subst hq
    refine ⟨fun hk => ?_, fun hk => ⟨e, ms, ?_, hm, ?_, fun y => rfl⟩⟩
    · simp only [Dev.marker, ← he, hm, hk, Bool.false_eq_true, if_false]
    · simp only [Dev.marker, ← he, hm, hk, if_true]
    · rw [hx, if_neg (by rw [hm]; exact List.cons_ne_nil _ _), hm]
      rfl

section Due

variable {e : Dev} {p : Panel} {rest : List Panel} {x : Tile} (he : e = d.fillQueue t) (hp : (e.tile t).marks ++ (e.tile t).fpq = p :: rest)
  (hx : x = if (e.tile t).marks = [] then { e.tile t with fpq := rest, marks := [] } else { e.tile t with marks := (e.tile t).marks.drop 1 })
include he hp hx

/-- A commit marker makes its stream's lines committed. -/
theorem Dev.commitMarker_commits {i : TIns} {a : Nat} {u : Undo} (hc : p = .commit i a u) :
    d.commitMarker t = (e.setTile t ((x.cbOpen i).committed i)).pump t := by
  subst hc
  obtain ⟨e1, ms, hmark, hms, hrest, hset⟩ := (Dev.marker_first (kind := fun e => match e with | .commit _ _ _ => true | _ => false) he hp hx).2 rfl
  rw [Dev.settleMark_commit hms, hrest, hset] at hmark
  exact hmark

theorem Dev.commitMarker_other {i : TIns} {a : Nat} (hc : p = .abort i a) : d.commitMarker t = e := by
  subst hc
  exact (Dev.marker_first (kind := fun e => match e with | .commit _ _ _ => true | _ => false) he hp hx).1 rfl

/-- An abort marker discards its stream's lines. -/
theorem Dev.abortMarker_aborts {i : TIns} {a : Nat} (hc : p = .abort i a) :
    d.abortMarker t = ((e.setTile t { x with cb := x.cb.filter (fun b => b.ins.seq != i.seq) }).bump (VEC.ABORTS.COUNT t) 1).pump t := by
  subst hc
  obtain ⟨e1, ms, hmark, hms, hrest, hset⟩ := (Dev.marker_first (kind := fun e => match e with | .abort _ _ => true | _ => false) he hp hx).2 rfl
  rw [Dev.settleMark_abort hms, hset, hrest] at hmark
  exact hmark

theorem Dev.abortMarker_other {i : TIns} {a : Nat} {u : Undo} (hc : p = .commit i a u) : d.abortMarker t = e := by
  subst hc
  exact (Dev.marker_first (kind := fun e => match e with | .abort _ _ => true | _ => false) he hp hx).1 rfl

end Due

/-- The lines of a stream that stands once in the commit buffer. -/
theorem Tile.committed_one {y : Tile} {i : TIns} {b : CbStream} (hb : y.cb.filter (fun b => b.ins.seq == i.seq) = [b]) :
    y.committed i = { y with
      cb := y.cb.filter (fun b => b.ins.seq != i.seq)
      cbDone := y.cbDone ++ [{ b with rows := b.rows.map (fun r => { r with red := none }), cols := [],
                                      words := b.rows.filterMap (·.red) ++ y.colWords (iChainM i.word) i.d0 b.cols }] } := by
  unfold Tile.committed
  rw [hb]
  rfl

theorem Dev.marker_none {e : Dev} (kind : Panel → Bool) (he : e = d.fillQueue t) (hm : (e.tile t).marks = []) (hq : (e.tile t).fpq = []) :
    d.marker t kind = e := by
  simp only [Dev.marker, ← he, hm, hq]

end Markers

/-- Settles O47: each instruction by its checks at issue, then the takes, the runs and the markers by the state they
find. -/
theorem matrixAndVectorInstructions : Obligations.MatrixAndVectorInstructions := by
  refine ⟨fun s t op d c w x r hi hx => ?matrix, fun s t op d c w k hi hk => ?vector, fun s t d ht hd => ?take, fun d t n v i a m ix isInt vals fl rest hq => ?row,
    fun d t n v e rest hq he => Dev.takeRows_mark hq he, fun s t ht => ?starved, fun s t d x e rest ht hd hp hx => ?marker, fun s t d ht hd hm hq => ?none⟩
  case matrix =>
    rcases hx with ⟨rfl, rfl, rfl⟩ | ⟨rfl, rfl, rfl⟩
    · refine ⟨fun _ hno => ?_, fun _ hok hr hno => ?_, fun hck => ?_⟩
      · exact congrArg Host.Outcome.next (hi.haltArray (Dev.mloadIssue_unmapped hno) rfl)
      · exact congrArg Host.Outcome.next (hi.haltArray (Dev.mloadIssue_region hok hr hno) rfl)
      · obtain ⟨hop, -⟩ | ⟨hok, hreg⟩ := hck
        · exact absurd hop (by decide)
        · have heff : d.mloadIssue t c w = _ := Dev.mloadIssue_checked hok hreg
          refine ⟨fun hfull => ?_, fun hroom => ⟨fun _ i hii => ?_, fun hop => absurd hop (by decide)⟩⟩
          · exact congrArg Host.Outcome.next (hi.stall (heff.trans (if_pos hfull)))
          · subst hii
            exact congrArg Host.Outcome.next (hi.ok (heff.trans (if_neg (Nat.not_le.mpr hroom))))
    · refine ⟨fun hm hno => ?_, fun hm hok hr hno => ?_, fun hck => ?_⟩
      · exact congrArg Host.Outcome.next (hi.haltArray (Dev.mstreamIssue_unmapped (hm.resolve_left (by decide)) hno) rfl)
      · exact congrArg Host.Outcome.next (hi.haltArray (Dev.mstreamIssue_region (hm.resolve_left (by decide)) hok hr hno) rfl)
      · have heff : d.mstreamIssue t c w = _ := Dev.mstreamIssue_checked (hck.imp_left And.right)
        refine ⟨fun hfull => ?_, fun hroom => ⟨fun hop => absurd hop (by decide), fun _ m q k base hm hq hk hbase => ?_⟩⟩
        · exact congrArg Host.Outcome.next (hi.stall (heff.trans (if_pos hfull)))
        · subst hm hq hk hbase
          rw [if_neg (Nat.not_le.mpr hroom)] at heff
          refine ⟨fun h hfit i hii => ?_, fun hf hm hun hfit => ⟨fun st hst hne => ?_, fun hst i hii => ?_⟩, fun hm h hbig => ?_⟩
          · subst hii
            exact congrArg Host.Outcome.next (hi.ok (heff.trans (Dev.mstreamGoesOn_plain h hfit)))
          · subst hst
            exact congrArg Host.Outcome.next (hi.haltArray (heff.trans ((Dev.mstreamGoesOn_finish hf hm hun hfit).trans (if_pos hne))) rfl)
          · subst hii
            exact congrArg Host.Outcome.next (hi.ok (heff.trans ((Dev.mstreamGoesOn_finish hf hm hun hfit).trans (if_neg (fun hne => hne hst)))))
          · exact congrArg Host.Outcome.next (hi.haltArray (heff.trans (Dev.mstreamGoesOn_overflows hm h hbig)) rfl)
  case vector =>
    subst hk
    refine ⟨fun hop hfull => ?_, fun hop hroom n src cols hn hsrc hcols => ?_, fun hop => ?_, fun hop hroom => ?_⟩
    · rcases hop with rfl | rfl
      · exact congrArg Host.Outcome.next (hi.stall (Dev.vrunIssue_stalls hfull))
      · exact congrArg Host.Outcome.next (hi.stall (Dev.cflushIssue_stalls hfull))
    · subst hop hn hsrc hcols
      refine ⟨fun h => ?_, fun hn hc ht hbig => ?_, fun hn hc ht hsrc hck i d1 hii hd1 => ?_⟩
      · exact congrArg Host.Outcome.next (hi.halt (Dev.vrunIssue_shape hroom h) (by decide))
      · exact congrArg Host.Outcome.next (hi.halt (Dev.vrunIssue_past hroom hn hc ht hbig) (by decide))
      · subst hii hd1
        exact congrArg Host.Outcome.next (hi.ok (Dev.vrunIssue_joins hroom hn hc ht hsrc hck))
    · subst hop
      refine ⟨fun h => ?_, fun hroom hcl hfl ho => ?_, fun hroom hcl hfl ho => ?_⟩
      · exact congrArg Host.Outcome.next (hi.stall (Dev.cresetIssue_stalls h))
      · exact congrArg Host.Outcome.next (hi.halt ((Dev.cresetIssue_clear hroom hcl hfl).trans (if_pos ho)) (by decide))
      · exact congrArg Host.Outcome.next (hi.ok ((Dev.cresetIssue_clear hroom hcl hfl).trans (if_neg (by rw [ho]; decide))))
    · subst hop
      refine ⟨fun ht h => ?_, fun h i hii => ?_⟩
      · exact congrArg Host.Outcome.next (hi.halt (Dev.cflushIssue_early hroom ht h) (by decide))
      · subst hii
        exact congrArg Host.Outcome.next (hi.ok (Dev.cflushIssue_joins hroom h))
  case take =>
    have heff : s.here.panelTake t = _ := Dev.panelTake_eq hd
    refine ⟨fun r hr h => ?_, fun h d1 free htake => ⟨fun hfree => ?_, fun hfree => ?_⟩⟩
    · exact next_atTile_eq ht (heff.trans (if_pos (Tile.runStarved_yes hr h)))
    · rw [Tile.runStarved_no h, if_neg Bool.false_ne_true, htake, if_neg hfree] at heff
      exact next_atTile_eq ht heff
    · rw [Tile.runStarved_no h, if_neg Bool.false_ne_true, htake, if_pos hfree] at heff
      exact next_atTile_eq ht heff
  case row =>
    exact ⟨fun h => (Dev.takeRows_row hq).trans (if_pos h), fun h => (Dev.takeRows_row hq).trans (if_neg (by rw [h]; decide))⟩
  case starved =>
    refine ⟨fun r hr h => ?_, fun h => ?_, ?_⟩
    · exact congrArg Host.Outcome.next ((State.atTile_lt s _ ht).trans (onDev_congr s _ _ (Dev.starvedTake_takes (d := s.here) hr h)))
    · exact congrArg Host.Outcome.next ((State.atTile_lt s _ ht).trans (onDev_congr s _ _ (Dev.starvedTake_waits (d := s.here) h)))
    · exact congrArg Host.Outcome.next (State.atTile_lt s _ ht)
  case marker =>
    refine ⟨fun i a u he => ⟨fun y b hy hb => ?_, ?_⟩, fun i a he => ⟨?_, ?_⟩⟩
    · have heff : s.here.commitMarker t = _ := Dev.commitMarker_commits hd hp hx he
      rw [← hy, Tile.committed_one hb] at heff
      exact next_atTile_eq ht heff
    · exact next_atTile_eq ht (Dev.abortMarker_other hd hp hx he)
    · exact next_atTile_eq ht (Dev.abortMarker_aborts hd hp hx he)
    · exact next_atTile_eq ht (Dev.commitMarker_other hd hp hx he)
  case none =>
    exact ⟨next_atTile_eq ht (Dev.marker_none _ hd hm hq), next_atTile_eq ht (Dev.marker_none _ hd hm hq)⟩

end Sys2Proof.Machine
end


section
/-! PROOFS. The arrays at work (R127, R130, R131, R143, R151 to R154), their map (R155, R157), and codec faults (R182 to
R186). -/

namespace Sys2Proof.Machine

/-! ## Loads and streams (R127, R131) -/

section Arrays

variable {d e : Dev} {t a p : Nat} {ar : Arr} (he : e = d.pump t) (hp : p = e.arrPhys t a) (har : ar = (e.tile t).arr p)
include he hp har

theorem Dev.mloadTransfer_incoming {i : TIns} {w : WBlock} (hin : ar.incoming = some (i, w)) :
    d.mloadTransfer t a = if e.arraysRun t then
      (((e.setTile t (((e.tile t).setArr p { ar with shadow := some w, incoming := none }).forgetRetry (e.operandBase t i))).showArr t p).insDone t i).pump t
      else e := by
  subst hp har
  simp only [Dev.mloadTransfer, Dev.loadTransfer, ← he, hin]

/-- A load that waits for its region counts as a waiting consumer. -/
theorem Dev.mloadTransfer_waits {i : TIns} {q : List TIns} (hin : ar.incoming = none) (hq : (e.tile t).aqOf a = i :: q) (hop : i.op = 0x20) (hf : ar.fault = none)
    (hh : e.halted t = false) (hs : e.supply t (loadSrc i).1 (loadSrc i).2 (bits i.word 39 36) (loadBlocks (bits i.word 39 36) - 1) = .wait) :
    d.mloadTransfer t a = (if ar.cur = [] then e else e.freezeEmpty t p).bump (SPM.REGION_WAITS.COUNT t) 1 := by
  subst hp har
  simp only [Dev.mloadTransfer, Dev.loadTransfer, ← he, hin, hq, hop, hf, hh, hs, Option.isNone_none, Bool.not_false, and_self, if_true, Dev.when, Bool.not_eq_true',
    List.isEmpty_eq_false_iff]
  by_cases hc : ((e.tile t).arr (e.arrPhys t a)).cur = []
  · rw [if_pos hc, if_neg (fun h => h hc)]
  · rw [if_neg hc, if_pos hc]

theorem Dev.mloadTransfer_idle (hin : ar.incoming = none) (hq : (e.tile t).aqOf a = []) : d.mloadTransfer t a = e := by
  subst hp har
  simp only [Dev.mloadTransfer, Dev.loadTransfer, ← he, hin, hq]

omit hp har in
theorem Dev.mstreamStart_idle (hq : (e.tile t).aqOf a = []) : d.mstreamStart t a = e := by
  simp only [Dev.mstreamStart, Dev.startStream, ← he, hq]

section Head

variable {i : TIns} {q : List TIns} (hq : (e.tile t).aqOf a = i :: q)
include hq

theorem Dev.mstreamStart_stays (h : i.op ≠ 0x21 ∨ ar.owed ≠ [] ∨ ar.fault.isSome = true ∨ e.halted t = true) : d.mstreamStart t a = e := by
  subst hp har
  simp only [Dev.mstreamStart, Dev.startStream, ← he, hq]
  exact if_pos (h.imp_right (Or.imp_left (by simp)))

variable (hop : i.op = 0x21) (ho : ar.owed = []) (hf : ar.fault = none) (hh : e.halted t = false)
include hop ho hf hh

/-- The stream at the head of its array, where nothing keeps it back. -/
theorem Dev.mstreamStart_head : d.mstreamStart t a =
    if sM i = 0 then ((e.setTile t ((e.tile t).setAq a q)).insDone t i).pump t
    else if (sSwap i && (ar.redoOf i).isNone && ar.incoming.isSome) = true then e.bump (MXA.LOAD_WAIT.COUNT t p) 1
    else if e.entersLate t (ar.foundBy i) i = true then e.haltArray t a 0x0306 a i
    else match e.imageSupply t (ar.foundBy i) i with
      | .wait => (e.freezeEmpty t p).bump (SPM.REGION_WAITS.COUNT t) 1
      | .tooBig => e.haltArray t a 0x0262 (sReg i - 1) i
      | .ready => ((e.runStream t a p i).replayCapture t p i).pump t := by
  have hgo : ¬ (i.op ≠ 0x21 ∨ (!ar.owed.isEmpty) = true ∨ ar.fault.isSome = true ∨ e.halted t = true) := by
    simp [hop, ho, hf, hh]
  subst hp har
  simp only [Dev.mstreamStart, Dev.startStream, ← he, hq]
  rw [if_neg hgo] <;> rfl

section Past

variable (hm : sM i ≠ 0) (hload : sSwap i = false ∨ ar.incoming = none)
include hm hload

/-- A stream past the load of the registers it swaps. -/
theorem Dev.mstreamStart_past : d.mstreamStart t a =
    if e.entersLate t (ar.foundBy i) i = true then e.haltArray t a 0x0306 a i
    else match e.imageSupply t (ar.foundBy i) i with
      | .wait => (e.freezeEmpty t p).bump (SPM.REGION_WAITS.COUNT t) 1
      | .tooBig => e.haltArray t a 0x0262 (sReg i - 1) i
      | .ready => ((e.runStream t a p i).replayCapture t p i).pump t := by
  have hno : ¬ (sSwap i && (ar.redoOf i).isNone && ar.incoming.isSome) = true := by
    rcases hload with h | h <;> simp [h]
  exact (Dev.mstreamStart_head he hp har hq hop ho hf hh).trans ((if_neg hm).trans (if_neg hno))

variable (hlate : e.entersLate t (ar.foundBy i) i = false)
include hlate

theorem Dev.mstreamStart_waits (hs : e.imageSupply t (ar.foundBy i) i = .wait) : d.mstreamStart t a = (e.freezeEmpty t p).bump (SPM.REGION_WAITS.COUNT t) 1 := by
  rw [Dev.mstreamStart_past he hp har hq hop ho hf hh hm hload, hlate, if_neg (by decide), hs]

theorem Dev.mstreamStart_tooBig (hs : e.imageSupply t (ar.foundBy i) i = .tooBig) : d.mstreamStart t a = e.haltArray t a 0x0262 (sReg i - 1) i := by
  rw [Dev.mstreamStart_past he hp har hq hop ho hf hh hm hload, hlate, if_neg (by decide), hs]

theorem Dev.mstreamStart_ready (hs : e.imageSupply t (ar.foundBy i) i = .ready) :
    d.mstreamStart t a = ((e.runStream t a p i).replayCapture t p i).pump t := by
  rw [Dev.mstreamStart_past he hp har hq hop ho hf hh hm hload, hlate, if_neg (by decide), hs]

end Past

end Head

end Arrays

section RunStream

variable {d : Dev} {t a p : Nat} {i : TIns} {ar : Arr} (har : ar = (d.tile t).arr p)
include har

/-- A stream that finds its weight registers empty halts the tile. -/
theorem Dev.runStream_empty (hw : (ar.foundBy i).weightsFor i = none) : d.runStream t a p i = d.haltArray t a 0x0242 a i := by
  subst har
  unfold Dev.runStream
  dsimp only
  rw [hw]

/-- So does one whose weights are of another format. -/
theorem Dev.runStream_format {w : WBlock} (hw : (ar.foundBy i).weightsFor i = some w) (h : w.fmt ≠ sWfmt i ∨ w.quad ≠ sQuad i) :
    d.runStream t a p i = d.haltArray t a 0x0246 a i := by
  subst har
  unfold Dev.runStream
  dsimp only
  rw [hw]
  exact if_pos h

/-- A stream without row scales whose image and rows pass is taken into the array. -/
theorem Dev.runStream_takes {w : WBlock} {d1 : Dev} {im : ImageRead} {out : StreamOut} (hw : (ar.foundBy i).weightsFor i = some w) (hf : w.fmt = sWfmt i) (hq : w.quad = sQuad i)
    (hread : d.readImage t (ar.foundBy i) i = (d1, .ok im)) (hscale : groupOfCode (sSfmt i) = none)
    (hrows : streamRows (ar.foundBy i) w i im.pos.lo im.pos.codes im.pos.scales ((d1.bump (TCX.BLOCKS_DECODED.COUNT t) im.fresh).rowScales t i) = .ok out) :
    d.runStream t a p i = (d1.bump (TCX.BLOCKS_DECODED.COUNT t) im.fresh).takeStream t a p i w im out := by
  subst har
  unfold Dev.runStream
  dsimp only
  rw [hw]
  dsimp only
  rw [if_neg (by simp [hf, hq]), hread]
  dsimp only [Dev.when]
  rw [hscale]
  simp only [Option.isSome_none, Bool.false_and, Bool.false_eq_true, if_false, hrows]

end RunStream

/-! ## The commit of a stream (R143) and the map (R155, R157) -/

section Commit

variable {d e : Dev} {t a p : Nat} {ar : Arr} (he : e = d.fillQueue t) (hp : p = e.arrPhys t a) (har : ar = (e.tile t).arr p)
include he hp har

theorem Dev.streamCommit_idle (hc : ar.cur = []) : d.streamCommit t a = e := by
  subst hp har
  simp only [Dev.streamCommit, ← he, hc]

variable {x : ArrStream} {rest : List ArrStream} (hc : ar.cur = x :: rest) (hrun : e.arraysRun t = true)
include hc hrun

/-- A row that finds the panel queue full freezes the array (R151). -/
theorem Dev.streamCommit_full (hr : x.rows ≠ []) :
    d.streamCommit t a = (e.bump (MXA.FREEZE_TOTAL.COUNT t p) 1).bump (MXA.FREEZE_FULL.COUNT t p) 1 := by
  subst hp har
  simp only [Dev.streamCommit, ← he, hc, hrun]
  exact (if_neg (by decide)).trans (if_pos (by simpa using hr))

theorem Dev.streamCommit_commits {ar' : Arr} {d1 : Dev} (hr : x.rows = [])
    (har' : ar' = { ar with cur := rest, slots := commitSlots ar.slots x, redo := ar.redo.filter (fun r => r.1 != x.ins.seq) })
    (hd1 : d1 = (((e.onTile t (fun y => (y.setArr p ar').forgetRetry (e.operandBase t x.ins))).showArr t p).bump (MXA.ROWS.COUNT t p) x.count).replayCaptured t p x.ins.seq) :
    d.streamCommit t a = (if x.finish then d1.putMarker t p (.commit x.ins a (ar.undoOf x)) else d1.insDone t x.ins).pump t := by
  subst hp har har' hd1
  simp only [Dev.streamCommit, ← he, hc, hrun]
  exact (if_neg (by decide)).trans (if_neg (by rw [hr]; decide))

end Commit

section Map

variable {d : Dev} {t : Nat} {v : Reg}

theorem Dev.mapWrite_refused (h : mapOk (d.get (MXA.FAILED.MASK t)) v.toNat = false) : d.mapWrite t v = d.refuseRegister (uTile t) (MXA.MAP.REG t).off :=
  if_pos (by rw [h]; rfl)

theorem Dev.mapFree_iff : d.mapFree t = true ↔ d.get (CMD.SEQ_STATE.STATE t) ∈ [tsEMPTY, tsREADY] ∨ d.boundaryHolds t = true ∨
    (d.halted t = true ∧ (d.tile t).wasReady = true) := by
  simp only [Dev.mapFree, Bool.or_eq_true, Bool.and_eq_true, beq_iff_eq, List.mem_cons, List.not_mem_nil, or_false, or_assoc]

theorem Dev.mapWrite_taken (h : mapOk (d.get (MXA.FAILED.MASK t)) v.toNat = true) :
    d.mapWrite t v = if (d.tile t).arraysIdle && d.mapFree t then d.applyMap t v else d.onTile t (fun x => { x with heldMap := some v }) :=
  if_neg (by rw [h]; decide)

end Map

/-! ## Codec faults (R182 to R186) -/

theorem Dev.arrPhys_bump (d : Dev) (t a : Nat) (f : FRef) (n : Nat) (h : f.off ≠ (MXA.MAP.REG t).off) : (d.bump f n).arrPhys t a = d.arrPhys t a := by
  unfold Dev.arrPhys Dev.bump
  rw [Dev.rd_set_ne _ _ _ _ (Ne.symm h)]

theorem faultCount_off_ne_map (t : Nat) : (TCX.FAULT_COUNT.COUNT t).off ≠ (MXA.MAP.REG t).off := by
  simp [TCX.FAULT_COUNT.COUNT, MXA.MAP.REG]

section CodecFault

variable {d e : Dev} {t a p : Nat} (he : e = d.pump t) (hp : p = e.arrPhys t a)
include he hp

theorem Dev.expanderFault_none (hf : ((e.tile t).arr p).fault = none) : d.expanderFault t a = e := by
  subst hp
  unfold Dev.expanderFault
  dsimp only
  rw [← he]
  split
  · rfl
  · exact if_pos (by rw [hf]; rfl)

variable (hf : ((e.tile t).arr p).fault.isSome = true)
include hf

/-- The faults of the arrays abort their instructions, and the earliest halts the tile. -/
theorem Dev.expanderFault_codec {a0 : Nat} {f0 : CodecFault} {rest cs es : List (Nat × CodecFault)} {c : Nat × CodecFault} {d1 : Dev}
    (hfs : e.faults t = (a0, f0) :: rest) (hcs : cs = ((a0, f0) :: rest).filter (fun f => f.2.status != 0x0265)) (hc : cs = c :: es)
    (hd1 : d1 = (((e.bump (TCX.FAULT_COUNT.COUNT t) cs.length).recordCodec t (cs.map (fun (f : Nat × CodecFault) => e.arrPhys t f.1)) c.2).each ((a0, f0) :: rest)
      (fun (y : Dev) (f : Nat × CodecFault) => y.abortHead t f.1 f.2.ins))) :
    d.expanderFault t a = ((d1.haltIns t f0.status a0 f0.ins 1 a0 (d1.tcxDetail t)).each rest
      (fun (y : Dev) (f : Nat × CodecFault) => y.haltFault t f.2.status f.1 f.2.ins.pc (y.tcxDetail t))).each cs (fun (y : Dev) (f : Nat × CodecFault) => y.faultDamage t f.2) := by
  have hphys : cs.map (fun (f : Nat × CodecFault) => (e.bump (TCX.FAULT_COUNT.COUNT t) cs.length).arrPhys t f.1) = cs.map (fun (f : Nat × CodecFault) => e.arrPhys t f.1) := by
    simp only [Dev.arrPhys_bump _ _ _ _ _ (faultCount_off_ne_map t)]
  have hnone : ¬ ((e.tile t).arr (e.arrPhys t a)).fault.isNone = true := by
    rw [← hp]
    cases hx : ((e.tile t).arr p).fault with
    | none => rw [hx] at hf; cases hf
    | some x => simp
  rw [← hphys] at hd1
  unfold Dev.expanderFault
  dsimp only
  rw [← he, hfs]
  dsimp only
  rw [if_neg hnone, ← hcs, hd1, hc]

/-- With no fault of an expander among them, one alone. -/
theorem Dev.expanderFault_data {f : CodecFault} {d1 : Dev} (hfs : e.faults t = [(a, f)]) (hst : f.status = 0x0265)
    (hd1 : d1 = (e.bump (TCX.FAULT_COUNT.COUNT t) 0).abortHead t a f.ins) :
    d.expanderFault t a = d1.haltIns t f.status a f.ins 1 a (d1.tcxDetail t) := by
  have hnone : ¬ ((e.tile t).arr (e.arrPhys t a)).fault.isNone = true := by
    rw [← hp]
    cases hx : ((e.tile t).arr p).fault with
    | none => rw [hx] at hf; cases hf
    | some x => simp
  have hcs : [(a, f)].filter (fun (e : Nat × CodecFault) => e.2.status != 0x0265) = [] := by simp [hst]
  unfold Dev.expanderFault
  dsimp only
  rw [← he, hfs]
  dsimp only
  rw [if_neg hnone, hcs, hd1]
  rfl

end CodecFault

theorem Dev.faultDamage_noCopy {d : Dev} {t : Nat} {f : CodecFault} (h : (d.tile t).hbmCopy f.base = none) :
    d.faultDamage t f = d.dataDamaged t none none f.status := by
  unfold Dev.faultDamage
  rw [h]

theorem Dev.faultDamage_copy {d : Dev} {t : Nat} {f : CodecFault} {c : Fill} (h : (d.tile t).hbmCopy f.base = some c) :
    d.faultDamage t f = if (d.tile t).retried.contains f.base then d.dataDamaged t (some c.source) (d.copySegment t c f.ins f.base f.block) f.status else d := by
  unfold Dev.faultDamage
  rw [h]

/-! ## CODEC_FAULT_RETRY (R184) -/

section Retry

variable {d : Dev} {t : Nat}

/-- May the transfers of the faulted streams be run again? -/
def Dev.retryFree (d : Dev) (t : Nat) : Prop :=
  d.flag (TCX.FAULT_STATUS.VALID t) = true ∧ d.halted t = true ∧ d.faultBases t ≠ [] ∧
    ∀ b ∈ d.faultBases t, (d.tile t).hbmCopy b ≠ none ∧ b ∉ (d.tile t).retried

theorem filterMap_length_lt_iff {α β : Type} (f : α → Option β) (l : List α) : (l.filterMap f).length < l.length ↔ ∃ x ∈ l, f x = none := by
  induction l with
  | nil => simp
  | cons x l ih =>
    have hle := List.length_filterMap_le f l
    cases h : f x with
    | none => simp [h]; omega
    | some y => simp [h, ih]

theorem Dev.retryFree_iff : d.retryFree t ↔ (!d.flag (TCX.FAULT_STATUS.VALID t) || !d.halted t || (d.faultBases t).isEmpty ||
    decide (((d.faultBases t).filterMap (d.tile t).hbmCopy).length < (d.faultBases t).length) || (d.faultBases t).any (d.tile t).retried.contains) = false := by
  simp only [Dev.retryFree, Bool.or_eq_false_iff, Bool.not_eq_false', List.isEmpty_eq_false_iff, decide_eq_false_iff_not, filterMap_length_lt_iff, not_exists, not_and,
    List.any_eq_false, List.contains_iff_mem, and_assoc]
  exact and_congr_right fun _ => and_congr_right fun _ => and_congr_right fun _ =>
    ⟨fun h => ⟨fun b hb => (h b hb).1, fun b hb => (h b hb).2⟩, fun h b hb => ⟨h.1 b hb, h.2 b hb⟩⟩

theorem Dev.codecRetry_no (h : ¬ d.retryFree t) : d.codecRetry t = d := by
  rw [Dev.retryFree_iff, Bool.not_eq_false] at h
  exact if_pos h

theorem Dev.codecRetry_stops {d1 : Dev} (h : d.retryFree t) (hr : Dev.refillAll t ((d.faultBases t).filterMap (d.tile t).hbmCopy).eraseDups d = (d1, false)) :
    d.codecRetry t = d1 := by
  rw [Dev.retryFree_iff] at h
  unfold Dev.codecRetry
  dsimp only
  rw [h, if_neg (by decide), hr]

theorem Dev.codecRetry_resumes {d1 : Dev} (h : d.retryFree t) (hr : Dev.refillAll t ((d.faultBases t).filterMap (d.tile t).hbmCopy).eraseDups d = (d1, true)) :
    d.codecRetry t = ((d1.onTile t (fun x => { x with retried := d.faultBases t ++ x.retried })).set (TCX.FAULT_STATUS.VALID t) 0).resumeTile t := by
  rw [Dev.retryFree_iff] at h
  unfold Dev.codecRetry
  dsimp only
  rw [h, if_neg (by decide), hr]

end Retry

/-- Settles O48: each row of the arrays by what the array holds, the map by what it names and what runs, and the codec's
faults and their retry by the copies there are. -/
theorem arraysAndCodec : Obligations.ArraysAndCodec := by
  refine ⟨⟨fun s t a d p ar ht hd hp har => ?arrays, fun s t a d p ar ht hd hp har => ?commit⟩, fun s t v ht => ?map, fun s t a d p ht hd hp => ?fault,
    fun s t bases ht hb => ?retry⟩
  case arrays =>
    refine ⟨fun i w hin => ?_, fun i q hin hq hop hf hh hs => ?_, fun hin hq => ?_, fun i q hq => ⟨fun h => ?_, fun hop ho hf hh => ?_⟩, fun hq => ?_⟩
    · have heff := Dev.mloadTransfer_incoming hd hp har hin
      exact ⟨fun hrun => next_atTile_eq ht (heff.trans (if_pos hrun)), fun hrun => next_atTile_eq ht (heff.trans (if_neg (by rw [hrun]; decide)))⟩
    · exact next_atTile_eq ht (Dev.mloadTransfer_waits hd hp har hin hq hop hf hh hs)
    · exact next_atTile_eq ht (Dev.mloadTransfer_idle hd hp har hin hq)
    · exact next_atTile_eq ht (Dev.mstreamStart_stays hd hp har hq h)
    · have hhead := Dev.mstreamStart_head hd hp har hq hop ho hf hh
      refine ⟨fun hm => ?_, fun hm hsw hre hin => ?_, fun hm hload => ⟨fun hlate => ?_, fun hlate => ⟨fun hs => ?_, fun hs => ?_, fun hs => ?_⟩⟩⟩
      · exact next_atTile_eq ht (hhead.trans (if_pos hm))
      · exact next_atTile_eq ht (hhead.trans ((if_neg hm).trans (if_pos (by rw [hsw, hre, hin]; rfl))))
      · exact next_atTile_eq ht ((Dev.mstreamStart_past hd hp har hq hop ho hf hh hm hload).trans (if_pos hlate))
      · exact next_atTile_eq ht (Dev.mstreamStart_waits hd hp har hq hop ho hf hh hm hload hlate hs)
      · exact next_atTile_eq ht (Dev.mstreamStart_tooBig hd hp har hq hop ho hf hh hm hload hlate hs)
      · have hready := Dev.mstreamStart_ready hd hp har hq hop ho hf hh hm hload hlate hs
        refine ⟨fun hw => ?_, fun w hw => ⟨fun hbad => ?_, fun d1 im out hf hq hread hscale hrows => ?_⟩⟩
        · rw [Dev.runStream_empty har hw] at hready
          exact next_atTile_eq ht hready
        · rw [Dev.runStream_format har hw hbad] at hready
          exact next_atTile_eq ht hready
        · rw [Dev.runStream_takes har hw hf hq hread hscale hrows] at hready
          exact next_atTile_eq ht hready
    · exact next_atTile_eq ht (Dev.mstreamStart_idle hd hq)
  case commit =>
    refine ⟨fun hc => ?_, fun x rest hc hrun => ⟨fun hr => ?_, fun hr ar' d1 har' hd1 => ?_⟩⟩
    · exact next_atTile_eq ht (Dev.streamCommit_idle hd hp har hc)
    · exact next_atTile_eq ht (Dev.streamCommit_full hd hp har hc hrun hr)
    · exact next_atTile_eq ht (Dev.streamCommit_commits hd hp har hc hrun hr har' hd1)
  case map =>
    refine ⟨fun h => ?_, fun h => ⟨fun hidle hfree => ?_, fun hno => ?_⟩⟩
    · exact congrArg Host.Outcome.next ((State.atTile_lt s _ ht).trans (onDev_congr s _ _ (Dev.mapWrite_refused (d := s.here) h)))
    · have hgo : ((s.here.tile t).arraysIdle && s.here.mapFree t) = true := by
        rw [Bool.and_eq_true]
        exact ⟨hidle, Dev.mapFree_iff.mpr hfree⟩
      exact congrArg Host.Outcome.next ((State.atTile_lt s _ ht).trans (onDev_congr s _ _ ((Dev.mapWrite_taken (d := s.here) h).trans (if_pos hgo))))
    · have hheld : ¬ ((s.here.tile t).arraysIdle && s.here.mapFree t) = true := by
        rw [Bool.and_eq_true, Dev.mapFree_iff]
        rintro ⟨hidle, hfree⟩
        rcases hno with h | ⟨hst, hbd, hhalt⟩
        · rw [show (s.dev.tile t).arraysIdle = true from hidle] at h
          cases h
        · rcases hfree with h | h | ⟨h1, h2⟩
          · exact hst h
          · rw [show s.dev.boundaryHolds t = true from h] at hbd
            cases hbd
          · rcases hhalt with h | h
            · rw [show s.dev.halted t = true from h1] at h
              cases h
            · rw [show (s.dev.tile t).wasReady = true from h2] at h
              cases h
      exact congrArg Host.Outcome.next ((State.atTile_lt s _ ht).trans (onDev_congr s _ _ ((Dev.mapWrite_taken (d := s.here) h).trans (if_neg hheld))))
  case fault =>
    refine ⟨fun hf => ?_, fun a0 f0 rest cs c es hf hfs hcs hc d1 hd1 => ?_, fun f d1 d2 hf hfs => ⟨fun hst hd1 => ?_, fun hst hd1 hd2 => ?_⟩⟩
    · exact next_atTile_eq ht (Dev.expanderFault_none hd hp hf)
    · exact next_atTile_eq ht (Dev.expanderFault_codec hd hp hf hfs hcs hc hd1)
    · exact next_atTile_eq ht (Dev.expanderFault_data hd hp hf hfs hst hd1)
    · have hcs : [(a, f)] = [(a, f)].filter (fun (e : Nat × CodecFault) => e.2.status != 0x0265) := by simp [hst]
      have heff : s.here.expanderFault t a = d2.faultDamage t f := by
        rw [hd2]
        exact Dev.expanderFault_codec hd hp hf hfs hcs rfl hd1
      refine ⟨fun h => ?_, fun c h => ⟨fun hagain => ?_, fun hfirst => ?_⟩⟩
      · exact next_atTile_eq ht (heff.trans (Dev.faultDamage_noCopy h))
      · exact next_atTile_eq ht (heff.trans ((Dev.faultDamage_copy h).trans (if_pos (by simpa using hagain))))
      · exact next_atTile_eq ht (heff.trans ((Dev.faultDamage_copy h).trans (if_neg (by simpa using hfirst))))
  case retry =>
    subst hb
    refine ⟨fun hno => ?_, fun hv hh hne hall d1 => ⟨fun hr => ?_, fun hr => ?_⟩⟩
    · have hnot : ¬ s.here.retryFree t := by
        rintro ⟨hv, hh, hne, hall⟩
        rcases hno with h | h | h | ⟨b, hb, h⟩
        · rw [show s.dev.flag (TCX.FAULT_STATUS.VALID t) = true from hv] at h
          cases h
        · rw [show s.dev.halted t = true from hh] at h
          cases h
        · exact hne h
        · exact h.elim (hall b hb).1 (hall b hb).2
      exact congrArg Host.Outcome.next ((State.atTile_lt s _ ht).trans (onDev_congr s _ _ (Dev.codecRetry_no hnot)))
    · exact next_atTile_eq ht (Dev.codecRetry_stops (d := s.here) ⟨hv, hh, hne, hall⟩ hr)
    · exact next_atTile_eq ht (Dev.codecRetry_resumes (d := s.here) ⟨hv, hh, hne, hall⟩ hr)

end Sys2Proof.Machine
end


section
/-! PROOFS. The DMA instruction and its descriptors (R239, R247 to R250, R253, R272), regions (R230, R233, R235) and banks
(R226). -/

namespace Sys2Proof.Machine

/-! ## The DMA instruction (R272) -/

section DmaIssue

variable {d : Dev} {t : Nat} {c : Bool} {w : Nat}

/-- The scratchpad address of the descriptor that a DMA instruction names. -/
def Dev.dmaAddr (d : Dev) (t : Nat) (c : Bool) (w : Nat) : Nat := ((d.tile t).ra c (bits w 37 34) + bits w 86 64) % spmBytes

theorem Dev.dmaIssue_misaligned (h : d.dmaAddr t c w % 64 ≠ 0) : d.dmaIssue t c w = .halt 0x0260 (bits w 33 32) := if_pos h

theorem Dev.dmaIssue_aligned (h : d.dmaAddr t c w % 64 = 0) :
    d.dmaIssue t c w = if 16 ≤ (d.tile t).dq.length then .stall d
      else .ok (((d.track t { d.mkIns t c w with
        x := d.dmaAddr t c w, y := (d.tile t).ra c (bits w 42 39), z := (d.tile t).ra c (bits w 47 44), w := (d.tile t).rg c (bits w 54 49) % m32 } 0).onTile t
        (fun x => { x with dq := x.dq ++ [.ins { d.mkIns t c w with
          x := d.dmaAddr t c w, y := (d.tile t).ra c (bits w 42 39), z := (d.tile t).ra c (bits w 47 44), w := (d.tile t).rg c (bits w 54 49) % m32 }] })).advance t c) :=
  if_neg (fun hno => hno h)

end DmaIssue

/-! ## The start of a descriptor (R247, R248) -/

section Start

variable {d e : Dev} {t ch : Nat} (he : e = d.pump t)
include he

theorem Dev.descriptorStart_no (h : e.flag (TDMA.CH_STATE.ERROR t ch) = true ∨ ((e.tile t).chan ch).cur.isSome = true ∨ e.nextDesc t ch = none) :
    d.descriptorStart t ch = e := by
  unfold Dev.descriptorStart
  dsimp only
  rw [← he]
  rcases h with h | h | h
  · exact if_pos (by rw [h, Bool.true_or])
  · exact if_pos (by rw [h, Bool.or_true])
  · rw [h]
    exact ite_self _

variable (herr : e.flag (TDMA.CH_STATE.ERROR t ch) = false) (hcur : ((e.tile t).chan ch).cur = none) {x : ChanEnt} {d1 : Dev} (hx : e.nextDesc t ch = some x)
  (hd1 : d1 = e.onTile t (fun y => y.setChan ch ((y.chan ch).without x)))
include herr hcur hx hd1

theorem Dev.descriptorStart_fails {d2 : Dev} {st a : Nat} (hck : d1.descCheck t x.bytes = (d2, .error (st, a))) :
    d.descriptorStart t ch = d2.chanError t ch x st a := by
  unfold Dev.descriptorStart
  dsimp only
  rw [← he, if_neg (by rw [herr, hcur]; decide), hx]
  dsimp only
  rw [← hd1, hck]

theorem Dev.descriptorStart_starts {d2 : Dev} {segs : List Seg} (hck : d1.descCheck t x.bytes = (d2, .ok segs)) :
    d.descriptorStart t ch = ((d2.onTile t (fun y => y.setChan ch { y.chan ch with cur := some { x with pages := (readDesc x.bytes).pages, segs := segs } })).showChan t ch).pump t := by
  unfold Dev.descriptorStart
  dsimp only
  rw [← he, if_neg (by rw [herr, hcur]; decide), hx]
  dsimp only
  rw [← hd1, hck]

end Start

/-! ## The completion and the data fault of a descriptor (R239, R249, R250) -/

section Complete

variable {d : Dev} {t ch : Nat}

theorem Dev.descriptorComplete_none (h : ((d.tile t).chan ch).cur = none) : d.descriptorComplete t ch = d := by
  unfold Dev.descriptorComplete
  rw [h]

theorem Dev.descriptorFault_none (h : ((d.tile t).chan ch).cur = none) : d.descriptorFault t ch = d := by
  unfold Dev.descriptorFault
  rw [h]

variable {e : ChanEnt} (he : ((d.tile t).chan ch).cur = some e)
include he

theorem Dev.descriptorComplete_waits (h : d.srcReady t e = false ∨ d.dstOpen t e = false) : d.descriptorComplete t ch = d.bump (SPM.REGION_WAITS.COUNT t) 1 := by
  unfold Dev.descriptorComplete
  rw [he]
  exact if_pos (by rcases h with h | h <;> simp [h])

theorem Dev.descriptorFault_waits (h : d.srcReady t e = false ∨ d.dstOpen t e = false) : d.descriptorFault t ch = d := by
  have hno : (d.srcReady t e && d.dstOpen t e) = false := by rcases h with h | h <;> simp [h]
  unfold Dev.descriptorFault
  rw [he]
  dsimp only
  rw [hno, if_neg Bool.false_ne_true]

variable (hsrc : d.srcReady t e = true) (hdst : d.dstOpen t e = true)
include hsrc hdst

theorem Dev.descriptorComplete_faulty (h : (d.descFault t e).isSome = true) : d.descriptorComplete t ch = d := by
  unfold Dev.descriptorComplete
  rw [he]
  exact (if_neg (by rw [hsrc, hdst]; decide)).trans (if_pos h)

theorem Dev.descriptorComplete_moves {m : Moved} (h : d.descFault t e = none) (hm : d.descMove t e = .ok m) {d1 : Dev}
    (hd1 : d1 = if ((readDesc e.bytes).dstReg && decide (d.dstRoom t e < m.stop)) = true then d.descPart t ch e m
      else if d.descReleases t e = true then (d.onTile t (·.forgetRetry e.retryKey)).descComplete t ch e m else d.descUnreleased t ch e m) :
    d.descriptorComplete t ch = (d1.pump (d1.dstPhys t (readDesc e.bytes))).pump t := by
  subst hd1
  unfold Dev.descriptorComplete
  rw [he]
  dsimp only
  rw [if_neg (by rw [hsrc, hdst]; decide), if_neg (by rw [h]; decide), hm]

omit hsrc hdst in
theorem Dev.descriptorFault_clean (h : d.descFault t e = none) : d.descriptorFault t ch = d := by
  unfold Dev.descriptorFault
  rw [he]
  dsimp only
  rw [h, ite_self]

/-- A data fault stops the channel, and the response of R184 follows. -/
theorem Dev.descriptorFault_stops {st block : Nat} {d1 : Dev} (h : d.descFault t e = some (st, block))
    (hd1 : d1 = ((d.descTouch t e).chanError t ch e st (d.get2 (TDMA.CH_FAULT_LO.ADDR t ch) (TDMA.CH_FAULT_HI.ADDR t ch))).onTile t
      (fun x => { x with retried := e.retryKey :: x.retried.filter (· != e.retryKey) })) :
    d.descriptorFault t ch = d1.descResponse t e st (d.descSegment t e block) ((d.tile t).retried.contains e.retryKey) := by
  subst hd1
  unfold Dev.descriptorFault
  rw [he]
  dsimp only
  rw [hsrc, hdst, h]
  rfl

end Complete

theorem Dev.errorClear_plain {d : Dev} {t ch : Nat} (h : (d.tile t).resumeHeld = false) : d.errorClear t ch = d.set (TDMA.CH_STATE.ERROR t ch) 0 := by
  refine if_neg ?_
  rw [Dev.set_tile, h, Bool.false_and]
  decide

/-! ## Regions (R230, R233, R235) -/

section Region

variable {d : Dev} {t off r : Nat} {v : Reg} (hr : regionOf t off = some r) (hal : off % 4 = 0)
include hr hal

theorem Dev.regionWrite_refused (h : d.regionValid t r off v.toNat = false) : d.regionWrite t off v = d.refuseRegister (uTile t) off := by
  unfold Dev.regionWrite
  rw [hr]
  dsimp only
  rw [if_neg (fun hno => hno hal), if_pos (by rw [h]; rfl)]

theorem Dev.regionWrite_valid (h : d.regionValid t r off v.toNat = true) {v' : Reg} (hv : v' = BitVec.ofNat 32 (v.toNat &&& regionMask t off)) :
    d.regionWrite t off v = if d.regionBusy t r then d.onTile t (fun x => { x with heldRegion := x.heldRegion ++ [(off, v')] }) else (d.regionStore t off v').pump t := by
  subst hv
  unfold Dev.regionWrite
  rw [hr]
  dsimp only
  rw [if_neg (fun hno => hno hal), if_neg (by rw [h]; decide)]

end Region

section Remote

variable {d : Dev} {t r : Nat} {line : Bytes}

theorem Dev.remoteWrite_lands (hok : d.regOk t r = true) (hen : d.flag (SPM.REGION_BIND.REMOTE_EN t r) = true)
    (hroom : d.creditRoom t r (d.regTail t r) line.length = true) :
    d.remoteWrite t r line = ((d.regWrite t r (d.regTail t r) line).setTailR t r ((d.regTail t r + line.length) % m32)).pump t :=
  if_neg (by rw [hok, hen, hroom]; decide)

theorem Dev.remoteWrite_no (h : d.regOk t r = false ∨ d.flag (SPM.REGION_BIND.REMOTE_EN t r) = false ∨ d.creditRoom t r (d.regTail t r) line.length = false) :
    d.remoteWrite t r line = d :=
  if_pos (by rcases h with h | h | h <;> simp [h])

end Remote

/-! ## Banks (R226) -/

section Banks

variable {d : Dev} {t b q : Nat}

/-- The cycle of a tile's wing. -/
def Dev.cycleOf (d : Dev) (t : Nat) : Nat := d.tclkAt (wingOf t) d.now

/-- The starved requesters of a tile that still wait, or had their grant less than 16 cycles ago. -/
def Dev.starvedLive (d : Dev) (t : Nat) : List StarveEnt := (d.tile t).starved.filter (fun e => decide (d.cycleOf t ≤ e.grant + 15))

/-- A tile's starved requesters when another joins them. -/
def Dev.starvedNext (d : Dev) (t b q : Nat) : List StarveEnt :=
  (d.starvedLive t).filter (fun f => f.bank != b || decide (f.grant < d.cycleOf t)) ++
    grantFrom (d.cycleOf t) ((⟨b, q, d.cycleOf t, d.cycleOf t⟩ :: (d.starvedLive t).filter (fun f => f.bank == b && decide (d.cycleOf t ≤ f.grant))).mergeSort StarveEnt.before)

theorem Dev.bankStarved_no (h : 32 ≤ b ∨ 16 ≤ q ∨ ∃ e ∈ d.starvedLive t, e.bank = b ∧ e.requester = q) : d.bankStarved t b q = d :=
  if_pos (h.imp_right (Or.imp_right (fun ⟨e, he, hb, hq⟩ => List.any_eq_true.mpr ⟨e, he, by rw [hb, hq]; simp⟩)))

theorem Dev.bankStarved_joins (hb : b < 32) (hq : q < 16) (h : ∀ e ∈ d.starvedLive t, e.bank = b → e.requester ≠ q) :
    d.bankStarved t b q = (d.countLosses t q).onTile t (fun x => { x with starved := d.starvedNext t b q }) := by
  refine if_neg ?_
  rintro (h1 | h1 | h1)
  · omega
  · omega
  · obtain ⟨e, he, heq⟩ := List.any_eq_true.mp h1
    rw [Bool.and_eq_true, beq_iff_eq, beq_iff_eq] at heq
    exact h e he heq.1 heq.2

theorem Dev.bump_noRegs (d : Dev) (f : FRef) (n : Nat) : (d.bump f n).noRegs = d.noRegs := rfl

theorem Dev.bump_bit (d : Dev) (f : FRef) (n off i : Nat) (h : f.lo ≤ f.hi + 1) (hd : off = f.off → ¬ (f.lo ≤ i ∧ i ≤ f.hi)) :
    ((d.bump f n).rd off).getLsbD i = (d.rd off).getLsbD i := Dev.rd_set_bit d f _ off i h hd

theorem Dev.countLosses_noRegs : (d.countLosses t q).noRegs = d.noRegs := by
  unfold Dev.countLosses
  dsimp only
  split
  · split
    · rfl
    · rw [Dev.bump_noRegs, Dev.bump_noRegs, Dev.bump_noRegs]
  · split
    · rw [Dev.bump_noRegs, Dev.bump_noRegs]
    · rfl

/-- The counters that lost cycles count in. -/
def lossFields (t q : Nat) : List FRef := [SPM.BANK_LOSSES.COUNT t, MXA.FREEZE_TOTAL.COUNT t q, MXA.FREEZE_BANK.COUNT t q, VEC.STALL_BANK.COUNT t]

theorem Dev.bump_lossField (d : Dev) {f : FRef} (n : Nat) {off i : Nat} (hf : f ∈ lossFields t q)
    (h : ∀ g ∈ lossFields t q, g.off = off → ¬ (g.lo ≤ i ∧ i ≤ g.hi)) : ((d.bump f n).rd off).getLsbD i = (d.rd off).getLsbD i := by
  refine Dev.bump_bit d f n off i ?_ (fun ho => h f hf ho.symm)
  simp only [lossFields, List.mem_cons, List.not_mem_nil, or_false] at hf
  rcases hf with rfl | rfl | rfl | rfl <;> exact Nat.zero_le _

theorem Dev.countLosses_bit {off i : Nat} (h : ∀ f ∈ lossFields t q, f.off = off → ¬ (f.lo ≤ i ∧ i ≤ f.hi)) :
    ((d.countLosses t q).rd off).getLsbD i = (d.rd off).getLsbD i := by
  unfold Dev.countLosses
  dsimp only
  split
  · split
    · rw [Dev.bump_lossField d _ (by simp [lossFields]) h]
    · rw [Dev.bump_lossField _ _ (by simp [lossFields]) h, Dev.bump_lossField _ _ (by simp [lossFields]) h, Dev.bump_lossField _ _ (by simp [lossFields]) h]
  · split
    · rw [Dev.bump_lossField _ _ (by simp [lossFields]) h, Dev.bump_lossField _ _ (by simp [lossFields]) h]
    · rw [Dev.bump_lossField d _ (by simp [lossFields]) h]

theorem Dev.get_bump_ne (d : Dev) (f g : FRef) (n : Nat) (h : g.off ≠ f.off) : (d.bump f n).get g = d.get g :=
  Dev.get_congr g (Dev.rd_set_ne _ _ _ _ h)

/-- A counter of 32 bits stops at its limit. -/
theorem Dev.get_bump_word (d : Dev) (f : FRef) (n : Nat) (hhi : f.hi = 31) (hlo : f.lo = 0) : (d.bump f n).get f = min (2 ^ 32 - 1) (d.get f + n) := by
  unfold Dev.bump
  rw [Dev.get_set_same _ _ _ (by omega) (by omega), hhi, hlo]
  omega

theorem Dev.countLosses_losses : (d.countLosses t q).get (SPM.BANK_LOSSES.COUNT t) = min (2 ^ 32 - 1) (d.get (SPM.BANK_LOSSES.COUNT t) + 32) := by
  have hword := Dev.get_bump_word d (SPM.BANK_LOSSES.COUNT t) 32 rfl rfl
  unfold Dev.countLosses
  dsimp only
  split
  · split
    · exact hword
    · rw [Dev.get_bump_ne _ _ _ _ (by simp only [SPM.BANK_LOSSES.COUNT, MXA.FREEZE_BANK.COUNT]; omega),
        Dev.get_bump_ne _ _ _ _ (by simp only [SPM.BANK_LOSSES.COUNT, MXA.FREEZE_TOTAL.COUNT]; omega), hword]
  · split
    · rw [Dev.get_bump_ne _ _ _ _ (by simp only [SPM.BANK_LOSSES.COUNT, VEC.STALL_BANK.COUNT]; omega), hword]
    · exact hword

end Banks

theorem onlyParts_regsTiles (s : State) (rs : SMap Reg) (ts : SMap Tile) : OnlyParts [.regs, .tiles] s { s with dev := { s.here with regs := rs, tiles := ts } } := by
  refine ⟨rfl, rfl, rfl, rfl, fun p _ hp => ?_⟩
  cases p
  case regs | tiles => simp at hp
  all_goals rfl

/-- A device whose registers alone changed, and then a tile. -/
theorem Dev.onTile_frame {d e : Dev} (h : e.noRegs = d.noRegs) (t : Nat) (f : Tile → Tile) : e.onTile t f = { d with regs := e.regs, tiles := (e.onTile t f).tiles } :=
  congrArg (fun x : Dev => { x with tiles := (e.onTile t f).tiles }) (Dev.eq_withRegs h)

/-- Settles O49: the instruction and its descriptors by what their checks and their data allow, then regions and banks. -/
theorem tileDmaAndScratchpad : Obligations.TileDmaAndScratchpad := by
  refine ⟨⟨fun s t d c w a hi ha => ?dma, fun s t ch d ht hd => ?start, fun s t ch ht => ?complete, fun s t ch ht hch h => ?clear⟩,
    fun s t off v r ht hr hal => ?region, fun s t r line ht => ?remote, fun s t b q now live ht hnow hlive => ?bank⟩
  case dma =>
    subst ha
    refine ⟨fun h => ?_, fun h hfull => ?_, fun h hroom i hii => ?_⟩
    · exact congrArg Host.Outcome.next (hi.halt (Dev.dmaIssue_misaligned h) (by decide))
    · exact congrArg Host.Outcome.next (hi.stall ((Dev.dmaIssue_aligned h).trans (if_pos hfull)))
    · subst hii
      exact congrArg Host.Outcome.next (hi.ok ((Dev.dmaIssue_aligned h).trans (if_neg (Nat.not_le.mpr hroom))))
  case start =>
    refine ⟨fun h => ?_, fun herr hcur e d1 he hd1 => ⟨fun d2 st a hck => ?_, fun d2 segs hck => ?_⟩⟩
    · exact next_atTile_eq ht (Dev.descriptorStart_no hd h)
    · exact next_atTile_eq ht (Dev.descriptorStart_fails hd herr hcur he hd1 hck)
    · exact next_atTile_eq ht (Dev.descriptorStart_starts hd herr hcur he hd1 hck)
  case complete =>
    have hid : ∀ {f : Dev → Dev}, f s.here = s.here → (.next (s.atTile t f) : Host.Outcome State Fault Refusal) = .next (s.onDev id) := fun {f} hf =>
      congrArg Host.Outcome.next ((State.atTile_lt s f ht).trans (onDev_congr s f id hf))
    refine ⟨fun h => ⟨hid (Dev.descriptorComplete_none h), hid (Dev.descriptorFault_none h)⟩, fun e he => ⟨fun h => ⟨?_, hid (Dev.descriptorFault_waits he h)⟩, fun hsrc hdst => ?_⟩⟩
    · exact congrArg Host.Outcome.next ((State.atTile_lt s _ ht).trans (onDev_congr s _ _ (Dev.descriptorComplete_waits (d := s.here) he h)))
    · refine ⟨fun h => hid (Dev.descriptorFault_clean (d := s.here) he h), fun h m d1 hm => ⟨fun ⟨hreg, hroom⟩ hd1 => ?_, fun hwhole => ⟨fun hrel hd1 => ?_, fun hrel hd1 => ?_⟩⟩,
        fun st block d1 h hd1 => ⟨hid (Dev.descriptorComplete_faulty (d := s.here) he hsrc hdst (by rw [h]; rfl)), ?_⟩⟩
      · exact next_atTile_eq ht (Dev.descriptorComplete_moves (d := s.here) he hsrc hdst h hm (hd1.trans (if_pos (by rw [hreg, decide_eq_true hroom]; rfl)).symm))
      · have hfit : ¬ ((readDesc e.bytes).dstReg && decide (s.here.dstRoom t e < m.stop)) = true := by
          rcases hwhole with h | h
          · rw [h, Bool.false_and]
            exact Bool.false_ne_true
          · rw [decide_eq_false (Nat.not_lt.mpr h), Bool.and_false]
            exact Bool.false_ne_true
        exact next_atTile_eq ht (Dev.descriptorComplete_moves (d := s.here) he hsrc hdst h hm (hd1.trans ((if_neg hfit).trans (if_pos hrel)).symm))
      · have hfit : ¬ ((readDesc e.bytes).dstReg && decide (s.here.dstRoom t e < m.stop)) = true := by
          rcases hwhole with h | h
          · rw [h, Bool.false_and]
            exact Bool.false_ne_true
          · rw [decide_eq_false (Nat.not_lt.mpr h), Bool.and_false]
            exact Bool.false_ne_true
        exact next_atTile_eq ht (Dev.descriptorComplete_moves (d := s.here) he hsrc hdst h hm (hd1.trans ((if_neg hfit).trans (if_neg (by rw [hrel]; decide))).symm))
      · exact next_atTile_eq ht (Dev.descriptorFault_stops (d := s.here) he hsrc hdst h hd1)
  case clear =>
    exact congrArg Host.Outcome.next ((if_pos hch).trans ((State.atTile_lt s _ ht).trans (onDev_congr s _ _ (Dev.errorClear_plain (d := s.here) h))))
  case region =>
    refine ⟨fun h => ?_, fun h v' hv' => ⟨fun hbusy => ?_, fun hbusy => ?_⟩⟩
    · exact congrArg Host.Outcome.next ((State.atTile_lt s _ ht).trans (onDev_congr s _ _ (Dev.regionWrite_refused (d := s.here) hr hal h)))
    · exact congrArg Host.Outcome.next ((State.atTile_lt s _ ht).trans (onDev_congr s _ _ ((Dev.regionWrite_valid (d := s.here) hr hal h hv').trans (if_pos hbusy))))
    · exact congrArg Host.Outcome.next ((State.atTile_lt s _ ht).trans (onDev_congr s _ _ ((Dev.regionWrite_valid (d := s.here) hr hal h hv').trans
        (if_neg (by rw [show s.here.regionBusy t r = false from hbusy]; decide)))))
  case remote =>
    exact ⟨fun hok hen hroom => congrArg Host.Outcome.next ((State.atTile_lt s _ ht).trans (onDev_congr s _ _ (Dev.remoteWrite_lands (d := s.here) hok hen hroom))),
      fun h => congrArg Host.Outcome.next ((State.atTile_lt s _ ht).trans (onDev_congr s _ _ (Dev.remoteWrite_no (d := s.here) h)))⟩
  case bank =>
    subst hnow
    subst hlive
    refine ⟨fun h => ?_, fun hb hq h hcalm => ⟨{ s with dev := (s.here.countLosses t q).onTile t (fun x => { x with starved := s.here.starvedNext t b q }) },
      ?_, ?_, fun off i hout => ?_, ?_, ?_⟩⟩
    · exact congrArg Host.Outcome.next ((State.atTile_lt s _ ht).trans (onDev_congr s _ _ (Dev.bankStarved_no (d := s.here) h)))
    · have hframe := Dev.onTile_frame (Dev.countLosses_noRegs (d := s.here) (t := t) (q := q)) t (fun x => { x with starved := s.here.starvedNext t b q })
      exact congrArg Host.Outcome.next ((State.atTile_lt s _ ht).trans (onDev_quiet hcalm (Dev.bankStarved_joins (d := s.here) hb hq h)
        (congrArg (·.csv.fatal) hframe) (congrArg (·.hbm.notes) hframe)))
    · rw [Dev.onTile_frame (Dev.countLosses_noRegs (d := s.here) (t := t) (q := q))]
      exact onlyParts_regsTiles s _ _
    · exact Dev.countLosses_bit hout
    · exact (Dev.get_onTile ..).trans Dev.countLosses_losses
    · exact congrArg Tile.starved (Dev.onTile_tile ..)

end Sys2Proof.Machine
end


section
/-! PROOFS. What a cell port does with a frame (R393, R396, R397), the transport frames that reach their meaning (R397 to
R399, R406, R411, R422), links between devices (R296, R297) and the transport's timers (R399, R400). -/

namespace Sys2Proof.Machine

/-! ## A frame before its meaning (R393, R396, R397) -/

section Receive

variable {d e : Dev} {port type : Nat} {bs : Bytes} {act : Dev → TFrame → Bool → Dev}

theorem Dev.cfiFrame_down (h : d.cellUp port = false) : d.cfiFrame port type bs act = d := if_pos (by rw [h]; rfl)

variable (hup : d.cellUp port = true) (he : e = d.bump (CFI.PORT_RX.COUNT port) 1)
include hup he

theorem Dev.cfiFrame_noUdp (h : readUdp6c bs = none) : d.cfiFrame port type bs act = e.bump (CFI.PORT_DISCARDS.COUNT port) 1 := by
  subst he
  unfold Dev.cfiFrame
  rw [if_neg (by rw [hup]; decide), h]

variable {u : UdpIn} {sum : Bool} (hu : readUdp6c bs = some (u, sum)) {x : Dev} (hx : x = e.when u.ce (·.bump (CFI.PORT_ECN.COUNT port) 1))
include hu hx

theorem Dev.cfiFrame_elsewhere (h : u.dport ≠ x.get CFI.CTL.UDP_PORT ∨ u.dst ≠ x.cellIp port) :
    d.cfiFrame port type bs act = x.bump (CFI.PORT_DISCARDS.COUNT port) 1 := by
  subst he hx
  unfold Dev.cfiFrame
  rw [if_neg (by rw [hup]; decide), hu]
  exact if_pos h

variable (hport : u.dport = x.get CFI.CTL.UDP_PORT) (hdst : u.dst = x.cellIp port)
include hport hdst

theorem Dev.cfiFrame_damaged (h : sum = false ∨ icrcOk u.pay = false) : d.cfiFrame port type bs act = x.bump (CFI.PORT_ICRC_ERR.COUNT port) 1 := by
  subst he hx
  unfold Dev.cfiFrame
  rw [if_neg (by rw [hup]; decide), hu]
  exact (if_neg (not_or.mpr ⟨not_not_intro hport, not_not_intro hdst⟩)).trans (if_pos (by rcases h with h | h <;> simp [h]))

variable (hsum : sum = true) (hicrc : icrcOk u.pay = true)
include hsum hicrc

theorem Dev.cfiFrame_whole : d.cfiFrame port type bs act = match readTframe u.pay with
    | none => x.bump (CFI.PORT_DISCARDS.COUNT port) 1
    | some f => if f.type ≠ type ∨ f.dst ≠ x.rank then x.bump (CFI.PORT_DISCARDS.COUNT port) 1 else act x f u.ce := by
  subst he hx
  unfold Dev.cfiFrame
  rw [if_neg (by rw [hup]; decide), hu]
  refine (if_neg (not_or.mpr ⟨not_not_intro hport, not_not_intro hdst⟩)).trans ((if_neg (by rw [hsum, hicrc]; decide)).trans ?_)
  rfl

theorem Dev.cfiFrame_malformed (h : readTframe u.pay = none) : d.cfiFrame port type bs act = x.bump (CFI.PORT_DISCARDS.COUNT port) 1 := by
  rw [Dev.cfiFrame_whole hup he hu hx hport hdst hsum hicrc, h]

theorem Dev.cfiFrame_read {f : TFrame} (h : readTframe u.pay = some f) :
    d.cfiFrame port type bs act = if f.type ≠ type ∨ f.dst ≠ x.rank then x.bump (CFI.PORT_DISCARDS.COUNT port) 1 else act x f u.ce := by
  rw [Dev.cfiFrame_whole hup he hu hx hport hdst hsum hicrc, h]

end Receive

theorem readUdp6_some {bs : Bytes} {u : UdpIn} (h : readUdp6 bs = some u) : readUdp6c bs = some (u, true) := by
  unfold readUdp6 at h
  split at h
  · rename_i v hv
    rw [hv, Option.some.inj h]
  · cases h

theorem icrcOk_of_read {b : Bytes} {f : TFrame} (h : readTframe b = some f) : icrcOk b = true := by
  unfold readTframe at h
  dsimp only at h
  split at h
  · rename_i hok
    exact hok.1
  · cases h

/-- A frame that reaches its meaning acts. -/
theorem CellFrame.acts {s : State} {port type : Nat} {bs : Bytes} {d : Dev} {f : TFrame} {ce : Bool} (h : CellFrame s port type bs d f ce)
    (act : Dev → TFrame → Bool → Dev) : s.here.cfiFrame port type bs act = act d f ce := by
  obtain ⟨hup, u, d0, hd0, hu, hce, hd, hport, hdst, hread, htype, hrank⟩ := h
  rw [Dev.cfiFrame_read (d := s.here) hup hd0 (readUdp6_some hu) hd hport hdst rfl (icrcOk_of_read hread) hread, if_neg (by simp [htype, hrank]), hce]

theorem CellFrame.type_eq {s : State} {port type : Nat} {bs : Bytes} {d : Dev} {f : TFrame} {ce : Bool} (h : CellFrame s port type bs d f ce) : f.type = type := by
  obtain ⟨-, -, -, -, -, -, -, -, -, -, htype, -⟩ := h
  exact htype

/-- Every row of transport frames acts by one operation. -/
theorem cellRows_exec {port type : Nat} {bs : Bytes} {c : Instr} (s : State) (h : (c, type) ∈ cellRows port bs) :
    ∃ act, exec c s = .next (s.onDev (·.cfiFrame port type bs act)) := by
  simp only [cellRows, List.mem_cons, Prod.mk.injEq, List.not_mem_nil, or_false] at h
  rcases h with ⟨rfl, rfl⟩ | ⟨rfl, rfl⟩ | ⟨rfl, rfl⟩ | ⟨rfl, rfl⟩ | ⟨rfl, rfl⟩ <;> exact ⟨_, rfl⟩

/-- What becomes of a frame, by what the port makes of it. -/
theorem next_onDev_eq {s : State} {f : Dev → Dev} {e : Dev} (hf : f s.here = e) :
    (.next (s.onDev f) : Host.Outcome State Fault Refusal) = .next (s.onDev fun _ => e) := congrArg Host.Outcome.next (onDev_eq s f e hf)

/-! ## DATA frames (R397, R398) -/

section Data

variable {d : Dev} {f : TFrame} {ce : Bool}

theorem Dev.dataIn_seen (h : (d.rxPeer (peerKey f.src f.cls)).seen f.psn = true) : d.dataIn f ce = d.takePsn f ce := if_pos h

section Fresh

variable (hnew : (d.rxPeer (peerKey f.src f.cls)).seen f.psn = false)
include hnew

theorem Dev.dataIn_coll (hcls : f.cls = 0) : d.dataIn f ce = d.dataColl f ce :=
  (if_neg (by rw [hnew]; decide)).trans (if_pos hcls)

theorem Dev.dataIn_link (hcls : f.cls ≠ 0) : d.dataIn f ce = d.dataLink f ce :=
  (if_neg (by rw [hnew]; decide)).trans (if_neg hcls)

end Fresh

theorem Dev.dataColl_none (h : d.slotOf f.tag f.seq = none) : d.dataColl f ce = d.stale := by
  unfold Dev.dataColl
  rw [h]

/-- A DATA frame of the collective that runs takes its place when the collective expects it. -/
theorem Dev.dataColl_running {k m : Nat} {g : Group} {c : Coll} {cs : List Coll} (hk : d.slotOf f.tag f.seq = some k) (hg : d.group k = some g)
    (hm : g.members.findIdx? (· == f.src) = some m) (hq : g.queue = c :: cs) :
    d.dataColl f ce = if c.rx.any (fun r => r.peer == m && r.grant == f.grant) then (((d.collData k m f).takePsn f ce).collAdvance k).kick else d.stale := by
  unfold Dev.dataColl
  rw [hk]
  dsimp only
  rw [hg]
  dsimp only
  rw [hm, hq]

theorem Dev.dataLink_none (h : d.linkIn f.tag f.src = none) : d.dataLink f ce = d.stale := by
  unfold Dev.dataLink
  rw [h]

theorem Dev.dataLink_other {l : LinkEnt} {t : Nat} (h : d.linkIn f.tag f.src = some (l, t)) (hk : (d.linkRx f.tag).k ≠ f.seq) : d.dataLink f ce = d.stale := by
  unfold Dev.dataLink
  rw [h]
  exact if_pos hk

end Data

/-! ## READY, GRANT and CREDIT (R406, R411, R422) -/

section Control

variable {d : Dev} {f : TFrame}

theorem Dev.ctlIn_none (h : d.slotTag f.tag = none) : d.ctlIn f = d := by
  unfold Dev.ctlIn
  rw [h]

theorem Dev.ctlIn_running {k m : Nat} {g : Group} {x : Coll} {xs : List Coll} (hk : d.slotTag f.tag = some (k, g))
    (hm : g.members.findIdx? (· == f.src) = some m) (hq : g.queue = x :: xs) (hst : x.started = true) (hseq : x.seq = f.seq) :
    d.ctlIn f = ((if f.type = ftREADY then d.readyIn k m f.data else d.grantIn k m f.grant f.data).collAdvance k).kick := by
  unfold Dev.ctlIn
  rw [hk]
  dsimp only
  rw [hm, hq]
  dsimp only
  rw [if_pos (by rw [hst, hseq]; simp)]

/-- One for a collective not issued yet is kept. -/
theorem Dev.ctlIn_early {k m : Nat} {g : Group} (hk : d.slotTag f.tag = some (k, g)) (hm : g.members.findIdx? (· == f.src) = some m) (hq : g.queue = [])
    (hc : d.rnd.cfg = none) (hlo : 0 < psnDiff (d.get (CFI.GROUP_SEQ.SEQ k)) f.seq) (hhi : psnDiff (d.get (CFI.GROUP_SEQ.SEQ k)) f.seq < 2 ^ 31) :
    d.ctlIn f = d.setGroup k (some { g with early := g.early ++ [(⟨f.type, f.seq, f.src, f.grant, f.data⟩ : EarlyCtl)] }) := by
  have hcfg : (d.setGroup k (some { g with early := g.early ++ [(⟨f.type, f.seq, f.src, f.grant, f.data⟩ : EarlyCtl)] })).rnd.cfg = none := hc
  unfold Dev.ctlIn
  rw [hk]
  dsimp only
  rw [hm, hq]
  dsimp only
  rw [if_neg Bool.false_ne_true, if_neg (by omega)]
  rw [hq] at hcfg
  rw [hcfg]

theorem Dev.creditIn_none (h : d.linkOut f.tag = none) : d.creditIn f = d := by
  unfold Dev.creditIn
  rw [h]

theorem Dev.creditIn_raises {m : PipeMap} {l : LinkEnt} {dd t c : Nat} {d1 : Dev} (h : d.linkOut f.tag = some (m, l, dd, t)) (hc : c = be f.data 0 8 % m32)
    (hsrc : dd = f.src) (hcls : f.cls = 1) (hnew : psnDiff (d.linkTx f.tag).credit c < 2 ^ 31) (hd1 : d1 = d.setLinkTx f.tag { d.linkTx f.tag with credit := c }) :
    d.creditIn f = Dev.txPump 1 dd (d1.pumpFuel (peerKey dd 1)) d1 := by
  subst hc hd1
  unfold Dev.creditIn
  rw [h]
  exact if_neg (by rw [hcls]; omega)

end Control

/-! ## Links at the producer (R296) -/

section Link

variable {d : Dev} {tag dd t : Nat} {m : PipeMap} {l : LinkEnt} (hl : d.linkOut tag = some (m, l, dd, t))
include hl

/-- Does a link's next micro-batch wait: not READY, or the one before it not yet read and acknowledged? -/
def Dev.slotWaits (d : Dev) (tag dd : Nat) (m : PipeMap) (l : LinkEnt) : Prop :=
  d.get (QSU.TALLY_VALUE.VALUE (m.tallyBase + l.readyOff)) < (d.linkTx tag).k + 1 ∨ (d.linkTx tag).reading = true ∨ (d.txPeer (peerKey dd 1)).holdsTag tag = true

section Rows

variable {rows : Nat × Nat} (hrows : (d.pipe (tag / 65536)).rows.find? (fun e => e.1 == (d.linkTx tag).k) = some rows)
include hrows

theorem Dev.slotSend_waits (h : d.slotWaits tag dd m l) : d.slotSend tag = d := by
  unfold Dev.slotSend
  rw [hl]
  dsimp only
  rw [hrows]
  exact if_pos h

theorem Dev.slotSend_sends (h : ¬ d.slotWaits tag dd m l) {len a : Nat} {d1 : Dev} (hlen : len = l.rowBytes * rows.2 + l.fixedBytes)
    (ha : a = l.stageAddr + l.slotBytes * ((d.linkTx tag).k % max 1 l.slots)) (hbad : (d.tile t).spmBad a len = none)
    (hd1 : d1 = (d.spmTouch t a len).setLinkTx tag { d.linkTx tag with k := (d.linkTx tag).k + 1, base := up128 ((d.linkTx tag).base + len), reading := true }) :
    d.slotSend tag = d1.txAdd 1 dd ⟨tag, (d.linkTx tag).k, (d.linkTx tag).base, len, 0, .bytes ((d1.tile t).rdSpm a len)⟩ := by
  subst hd1 hlen ha
  unfold Dev.slotSend
  rw [hl]
  dsimp only
  rw [hrows]
  dsimp only
  rw [hbad]
  exact if_neg h

end Rows

theorem Dev.slotSent_counts (h : (d.linkTx tag).reading = true) (hb : ∀ i ∈ (d.txPeer (peerKey dd 1)).backlog, i.tag ≠ tag) :
    d.slotSent tag = (d.setLinkTx tag { d.linkTx tag with reading := false }).tallyAdd (m.tallyBase + l.sentOff) 1 := by
  unfold Dev.slotSent
  rw [hl]
  exact if_neg (by simpa [h] using hb)

theorem Dev.slotSent_no (h : (d.linkTx tag).reading = false) : d.slotSent tag = d := by
  unfold Dev.slotSent
  rw [hl]
  exact if_pos (Or.inl (by rw [h]; rfl))

end Link

/-! ## The transport's timers (R399, R400) -/

theorem until_here (s : State) (t : Nat) : (s.until t).here = { s.dev with now := (s.until t).clock.ns } := by
  unfold State.here
  rw [State.until_dev]

section Timers

variable {d : Dev} {cls peer : Nat}

theorem Dev.ackTimer_due (h : (d.rxPeer (peerKey peer cls)).count ≠ 0) : d.ackTimer cls peer = d.sendAck cls peer := if_neg h

theorem Dev.cfiRetxDue_some {psn : Nat} {f : TxFrame} (h : (d.txPeer (peerKey peer cls)).unacked.find? (fun f => f.psn == psn) = some f) :
    d.cfiRetxDue cls peer psn = some (d.rtoAt (d.txPeer (peerKey peer cls)).srtt f) := by
  unfold Dev.cfiRetxDue
  dsimp only
  rw [h]
  rfl

theorem Dev.cfiRetxDue_none {psn : Nat} (h : ∀ f ∈ (d.txPeer (peerKey peer cls)).unacked, f.psn ≠ psn) : d.cfiRetxDue cls peer psn = none := by
  unfold Dev.cfiRetxDue
  dsimp only
  rw [List.find?_eq_none.mpr (fun f hf => by simpa using h f hf)]
  rfl

theorem Dev.retxTimer_resends {psn : Nat} {f : TxFrame} (h : (d.txPeer (peerKey peer cls)).unacked.find? (fun f => f.psn == psn) = some f) :
    d.retxTimer cls peer psn = (d.setTx (peerKey peer cls) { d.txPeer (peerKey peer cls) with
      unacked := (d.txPeer (peerKey peer cls)).unacked.map (fun u => if u.psn = psn then { u with tries := u.tries + 1, sentAt := d.now, fast := false } else u) }).resend cls peer f := by
  unfold Dev.retxTimer
  dsimp only
  rw [h]

end Timers

theorem Dev.raiseRate_pumps {u : State} {d0 d1 : Dev} {peer : Nat}
    (hd0 : d0 = (u.here.setRate peer (min (max 1000 u.dev.lineRate) (u.dev.rateTo peer + 2000))).flushHeld)
    (hd1 : d1 = Dev.txPump 0 peer (d0.pumpFuel (peerKey peer 0)) d0) :
    ((u.here.setRate peer (min (max 1000 u.here.lineRate) (u.here.rateTo peer + 2000))).flushHeld).each [0, 1]
      (fun d c => Dev.txPump c peer (d.pumpFuel (peerKey peer c)) d) = Dev.txPump 1 peer (d1.pumpFuel (peerKey peer 1)) d1 := by
  rw [State.here_lineRate, State.here_rateTo, ← hd0, hd1]
  rfl

/-- Settles O50: a frame by what the port checks, each transport frame by what it finds, links and timers. -/
theorem cellFrames : Obligations.CellFrames := by
  refine ⟨fun s c type port bs d hc hd => ?frame, ⟨fun s port bs d f ce h => ?data, fun s port bs d f ce h => next_onDev_eq (CellFrame.acts h _),
    fun s port bs d f ce c type hc h => ?control, fun s port bs d f ce h => ?credit⟩, fun s pipe link tag m l dd t rows htag hl hrows => ?link,
    fun s peer cls => ?timers, fun s peer u d0 d1 hu hd0 hd1 => ?rate⟩
  case frame =>
    obtain ⟨act, hexec⟩ := cellRows_exec s hc
    rw [hexec]
    refine ⟨fun hdown => ?_, fun hup => ⟨fun hu => ?_, fun u sum hu hce => ?_⟩⟩
    · exact congrArg Host.Outcome.next (onDev_congr s _ id (Dev.cfiFrame_down (d := s.here) hdown))
    · exact next_onDev_eq (Dev.cfiFrame_noUdp (d := s.here) hup hd hu)
    · have hx : d = d.when u.ce (·.bump (CFI.PORT_ECN.COUNT port) 1) := by
        rw [hce]
        rfl
      refine ⟨fun h => ?_, fun hport hdst => ⟨fun h => ?_, fun hsum hicrc => ⟨fun hread => ?_, fun f hread h => ?_⟩⟩⟩
      · exact next_onDev_eq (Dev.cfiFrame_elsewhere (d := s.here) hup hd hu hx h)
      · exact next_onDev_eq (Dev.cfiFrame_damaged (d := s.here) hup hd hu hx hport hdst h)
      · exact next_onDev_eq (Dev.cfiFrame_malformed (d := s.here) hup hd hu hx hport hdst hsum hicrc hread)
      · exact next_onDev_eq ((Dev.cfiFrame_read (d := s.here) hup hd hu hx hport hdst hsum hicrc hread).trans (if_pos h))
  case data =>
    have hacts := CellFrame.acts h Dev.dataIn
    refine ⟨fun hseen => ?_, fun hnew hcls => ⟨fun hk => ?_, fun k g m c cs hk hg hm hq => ⟨fun hrx => ?_, fun hrx => ?_⟩⟩, fun hnew hcls => ⟨fun hl => ?_, fun l t hl hk => ?_⟩⟩
    · exact next_onDev_eq (hacts.trans (Dev.dataIn_seen hseen))
    · exact next_onDev_eq (hacts.trans ((Dev.dataIn_coll hnew hcls).trans (Dev.dataColl_none hk)))
    · exact next_onDev_eq (hacts.trans ((Dev.dataIn_coll hnew hcls).trans ((Dev.dataColl_running hk hg hm hq).trans (if_pos hrx))))
    · exact next_onDev_eq (hacts.trans ((Dev.dataIn_coll hnew hcls).trans ((Dev.dataColl_running hk hg hm hq).trans (if_neg (by rw [hrx]; decide)))))
    · exact next_onDev_eq (hacts.trans ((Dev.dataIn_link hnew hcls).trans (Dev.dataLink_none hl)))
    · exact next_onDev_eq (hacts.trans ((Dev.dataIn_link hnew hcls).trans (Dev.dataLink_other hl hk)))
  case control =>
    have hexec : exec c s = .next (s.onDev fun _ => d.ctlIn f) := by
      simp only [List.mem_cons, Prod.mk.injEq, List.not_mem_nil, or_false] at hc
      rcases hc with ⟨rfl, rfl⟩ | ⟨rfl, rfl⟩ <;> exact next_onDev_eq (CellFrame.acts h _)
    rw [hexec]
    refine ⟨fun hk => ?_, fun k g m x xs hk hm hq hst hseq => ?_, fun k g m hk hm hq hcfg hlo hhi => ?_⟩
    · rw [Dev.ctlIn_none hk]
    · rw [Dev.ctlIn_running hk hm hq hst hseq, CellFrame.type_eq h]
    · rw [Dev.ctlIn_early hk hm hq hcfg hlo hhi]
  case credit =>
    refine ⟨fun hl => ?_, fun m l dd t c d1 hl hc hsrc hcls hnew hd1 => ?_⟩
    · exact next_onDev_eq ((CellFrame.acts h _).trans (Dev.creditIn_none hl))
    · exact next_onDev_eq ((CellFrame.acts h _).trans (Dev.creditIn_raises hl hc hsrc hcls hnew hd1))
  case link =>
    subst htag
    refine ⟨fun h => ?_, fun hk hr hh len a d1 hlen ha hbad hd1 => ?_, fun hr hb => ?_, fun hr => ?_⟩
    · exact congrArg Host.Outcome.next (onDev_congr s _ id (Dev.slotSend_waits (d := s.here) hl hrows h))
    · have hgo : ¬ s.here.slotWaits (pipe * 65536 + link % 65536) dd m l := by
        rintro (h | h | h)
        · exact Nat.not_lt.mpr hk h
        · exact Bool.false_ne_true (hr.symm.trans h)
        · exact Bool.false_ne_true (hh.symm.trans h)
      exact next_onDev_eq (Dev.slotSend_sends (d := s.here) hl hrows hgo hlen ha hbad hd1)
    · exact congrArg Host.Outcome.next (onDev_congr s _ _ (Dev.slotSent_counts (d := s.here) hl hr hb))
    · exact congrArg Host.Outcome.next (onDev_congr s _ id (Dev.slotSent_no (d := s.here) hl hr))
  case timers =>
    refine ⟨fun h => ?_, fun h => ?_, fun psn f hf => ?_, fun psn hf => ?_⟩
    · refine congrArg Host.Outcome.next (atTime_due _ _ (if_neg h) (Dev.ackTimer_due ?_))
      rw [until_here]
      exact h
    · exact congrArg Host.Outcome.next (atTime_not _ (if_pos h))
    · refine congrArg Host.Outcome.next (atTime_due _ _ (Dev.cfiRetxDue_some hf) (Dev.retxTimer_resends ?_))
      rw [until_here]
      exact hf
    · exact congrArg Host.Outcome.next (atTime_not _ (Dev.cfiRetxDue_none hf))
  case rate =>
    have hdev : u.dev = s.dev := by rw [hu, State.until_dev]
    rw [← hdev] at hd0
    subst hu
    exact congrArg Host.Outcome.next (atTime_due _ _ rfl (Dev.raiseRate_pumps hd0 hd1))

end Sys2Proof.Machine
end


section
/-! PROOFS. Ports apart from their transports: links that go down or come up (R417, R421, R478), pauses (R394), the frames a port answers itself (R393,
R476), path MTU (R477) and the frames it throws away. -/

namespace Sys2Proof.Machine

/-! ## Links of ports -/

section Links

variable {d : Dev} {p : Nat}

/-- A link stays as it is: the port is not there, it is no change, or the port may not come up. -/
theorem Dev.cellLink_keeps {up : Bool} (h : cellPorts d.code ≤ p ∨ d.flag (CFI.PORT_STATE.UP p) = up ∨
    (up = true ∧ (d.flag (CFI.PORT_STATE.ENABLE p) = false ∨ uCell p ∈ d.csv.reviews))) : d.cellLink p up = d :=
  if_pos (by simpa using h)

theorem Dev.farLink_keeps {up : Bool} (h : farPorts d.code ≤ p ∨ d.flag (WXU.FAR_STATE.UP p) = up ∨
    (up = true ∧ (d.flag (WXU.FAR_STATE.ENABLE p) = false ∨ uFar p ∈ d.csv.reviews))) : d.farLink p up = d :=
  if_pos (by simpa using h)

theorem Dev.cellLink_falls (hp : p < cellPorts d.code) (h : d.flag (CFI.PORT_STATE.UP p) = true) :
    d.cellLink p false = (((d.set (CFI.PORT_STATE.UP p) 0).event 0x040C p).msix1 4).rescale.pumpAll.storeOn :=
  if_neg (by simp [h]; omega)

theorem Dev.cellLink_rises (hp : p < cellPorts d.code) (h : d.flag (CFI.PORT_STATE.UP p) = false) (hen : d.flag (CFI.PORT_STATE.ENABLE p) = true)
    (hrev : uCell p ∉ d.csv.reviews) : d.cellLink p true = ((d.set (CFI.PORT_STATE.UP p) 1).eventOpen 0x040D).rescale.pumpAll.storeOn :=
  if_neg (by simp [h, hen, hrev]; omega)

theorem Dev.farLink_falls (hp : p < farPorts d.code) (h : d.flag (WXU.FAR_STATE.UP p) = true) :
    d.farLink p false = (((d.set (WXU.FAR_STATE.UP p) 0).event 0x0510 p).msix1 4).updateActive true :=
  if_neg (by simp [h]; omega)

theorem Dev.farLink_rises (hp : p < farPorts d.code) (h : d.flag (WXU.FAR_STATE.UP p) = false) (hen : d.flag (WXU.FAR_STATE.ENABLE p) = true)
    (hrev : uFar p ∉ d.csv.reviews) : d.farLink p true = ((d.set (WXU.FAR_STATE.UP p) 1).event 0x0511 p).updateActive true :=
  if_neg (by simp [h, hen, hrev]; omega)

end Links

/-! ## Frames a port answers -/

section Answers

variable {d x : Dev} {p : Nat} {bs : Bytes}

theorem Dev.pfcPause_holds {mask q : Nat} (hup : d.cellUp p = true) (hx : x = d.bump (CFI.PORT_RX.COUNT p) 1) :
    d.pfcPause p mask q = ({ x with cfi.paused := smapSetAll zeroDflt x.cfi.paused ((maskBits (mask &&& x.get CFI.CTL.PFC_OBEY) 8).map
      (fun k => (8 * p + k, if q = 0 then 0 else x.now + ceilDiv (q * 512) 800))) } : Dev).flushHeld := by
  subst hx
  exact if_neg (by rw [hup]; decide)

theorem Dev.pfcPause_down {mask q : Nat} (h : d.cellUp p = false) : d.pfcPause p mask q = d := if_pos (by rw [h]; rfl)

theorem Dev.solicited_down (h : d.portUp p = false) : d.solicited p bs = d := if_pos (by rw [h]; rfl)

theorem Dev.echoIn_down (h : d.portUp p = false) : d.echoIn p bs = d := if_pos (by rw [h]; rfl)

section Icmp

variable {src dst : Nat} {msg : Bytes} (hup : d.portUp p = true) (hx : x = d.portRx p) (hread : readIcmp6 bs = some (src, dst, msg))
include hup hx hread

theorem Dev.solicited_read : d.solicited p bs = if be msg 0 1 ≠ 135 ∨ be msg 8 16 ≠ x.portIp6 p ∨ msg.length < 24 then x.portDiscard p
    else x.portSend p 0x86DD (icmp6 (x.portIp6 p) (if src = 0 then 0xFF02 * 2 ^ 112 + 1 else src) 255 (x.portDscp p)
      ([136, 0, 0, 0] ++ beBytes 4 (if src = 0 then 0x20000000 else 0x60000000) ++ beBytes 16 (x.portIp6 p) ++ [2, 1] ++ beBytes 6 (portMac p))) := by
  subst hx
  unfold Dev.solicited
  rw [if_neg (by rw [hup]; decide), hread]

theorem Dev.echoIn_read : d.echoIn p bs = if be msg 0 1 = 128 ∧ dst = x.portIp6 p then
    x.echoReply p 0x86DD (icmp6 dst src 64 (x.portDscp p) ([129] ++ msg.drop 1)) else x.portDiscard p := by
  subst hx
  unfold Dev.echoIn
  rw [if_neg (by rw [hup]; decide), hread]

end Icmp

section Reply

variable {type : Nat} {pkt : Bytes}

theorem Dev.echoReply_spent (h : 1000 ≤ (d.echoed p).length) : d.echoReply p type pkt = d := if_pos h

theorem Dev.echoReply_cell (h : (d.echoed p).length < 1000) (hp : p < 16) :
    d.echoReply p type pkt = { d with cfi.echoes := smapSet echoDflt d.cfi.echoes p (d.now :: d.echoed p) }.portSend p type pkt := by
  unfold Dev.echoReply
  dsimp only
  rw [if_neg (Nat.not_le.mpr h), if_pos hp]

theorem Dev.echoReply_far (h : (d.echoed p).length < 1000) (hp : 16 ≤ p) :
    d.echoReply p type pkt = { d with wxu.echoes := smapSet echoDflt d.wxu.echoes (p - 16) (d.now :: d.echoed p) }.portSend p type pkt := by
  unfold Dev.echoReply
  dsimp only
  rw [if_neg (Nat.not_le.mpr h), if_neg (Nat.not_lt.mpr hp)]

end Reply

theorem Dev.arpIn_asks {a : Bytes} (hup : d.farUp p = true) (ha : a = bs.drop 14) (hx : x = d.portRx (16 + p)) :
    d.arpIn p bs = if be bs 12 2 = 0x0806 ∧ be a 0 8 = 0x0001080006040001 ∧ be a 24 4 = x.get (WXU.FAR_IP4.ADDR p) ∧ x.flag (WXU.FAR_STATE.IPV4_EN p) = true
      ∧ 28 ≤ a.length then
      x.portSend (16 + p) 0x0806 (beBytes 8 0x0001080006040002 ++ beBytes 6 (portMac (16 + p)) ++ beBytes 4 (x.get (WXU.FAR_IP4.ADDR p)) ++ (a.drop 8).take 10)
      else x.portDiscard (16 + p) := by
  subst ha hx
  exact if_neg (by rw [hup]; decide)

/-- A slot's packets are at most an IPv6 packet's overhead longer than its fragments. -/
theorem Dev.packetSize_le (d : Dev) (slot : Nat) : d.packetSize slot ≤ d.fragSize + 112 := by
  unfold Dev.packetSize
  split <;> omega

end Answers

/-- What becomes of a frame that a port throws away. -/
theorem Dev.cellDiscard_up {d : Dev} {p : Nat} {why : FrameFault} (h : d.cellUp p = true) : d.cellDiscard p why = match why with
    | .fcs => d.bump (CFI.PORT_FCS_ERR.COUNT p) 1
    | .icrc => (d.portRx p).bump (CFI.PORT_ICRC_ERR.COUNT p) 1
    | .unhandled => (d.portRx p).portDiscard p
    | .fec c u => (d.bump (CFI.PORT_FEC_CORR.COUNT p) c).bump (CFI.PORT_FEC_UNCORR.COUNT p) u := if_neg (by rw [h]; decide)

theorem Dev.farDiscard_up {d : Dev} {q : Nat} {why : FrameFault} (h : d.farUp q = true) : d.farDiscard q why = match why with
    | .fcs => d.bump (WXU.FAR_FCS_ERR.COUNT q) 1
    | .icrc => (d.portRx (16 + q)).bump WXU.MALFORMED.COUNT 1
    | .unhandled => (d.portRx (16 + q)).portDiscard (16 + q)
    | .fec c u => (d.bump (WXU.FAR_FEC_CORR.COUNT q) c).bump (WXU.FAR_FEC_UNCORR.COUNT q) u := if_neg (by rw [h]; decide)

/-- Settles O51: links by what they may do, frames by what the port answers. -/
theorem ports : Obligations.Ports := by
  refine ⟨⟨fun s p hp => ?cell, fun s p hp => ?far, fun s p hp => ⟨?_, ?_⟩, fun s p hp => ⟨?_, ?_⟩⟩,
    fun s p mask q d hup hd => ?_, fun s p mask q h => ?_, fun s p bs d hup hd src dst msg hread => ?icmp, fun s p bs h => ⟨?_, ?_⟩,
    fun s q bs a d hup ha hd => ?arp, fun s q mtu slot hup => ?mtu, fun s p hup => ?cellDiscard, fun s q hup => ?farDiscard⟩
  case cell =>
    refine ⟨fun h => ?_, fun h => ?_, fun h hen hrev => ?_, fun h => ?_⟩
    · exact next_onDev_congr (Dev.cellLink_falls (d := s.here) hp h)
    · exact next_onDev_congr (g := id) (Dev.cellLink_keeps (d := s.here) (.inr (.inl h)))
    · exact next_onDev_congr (Dev.cellLink_rises (d := s.here) hp h hen hrev)
    · exact next_onDev_congr (g := id) (Dev.cellLink_keeps (d := s.here) (.inr (h.imp_right fun h => ⟨rfl, h⟩)))
  case far =>
    refine ⟨fun h => ?_, fun h => ?_, fun h hen hrev => ?_, fun h => ?_⟩
    · exact next_onDev_congr (Dev.farLink_falls (d := s.here) hp h)
    · exact next_onDev_congr (g := id) (Dev.farLink_keeps (d := s.here) (.inr (.inl h)))
    · exact next_onDev_congr (Dev.farLink_rises (d := s.here) hp h hen hrev)
    · exact next_onDev_congr (g := id) (Dev.farLink_keeps (d := s.here) (.inr (h.imp_right fun h => ⟨rfl, h⟩)))
  · exact next_onDev_congr (g := id) (Dev.cellLink_keeps (d := s.here) (.inl hp))
  · exact next_onDev_congr (g := id) (Dev.cellLink_keeps (d := s.here) (.inl hp))
  · exact next_onDev_congr (g := id) (Dev.farLink_keeps (d := s.here) (.inl hp))
  · exact next_onDev_congr (g := id) (Dev.farLink_keeps (d := s.here) (.inl hp))
  · exact next_onDev_eq (Dev.pfcPause_holds (d := s.here) hup hd)
  · exact next_onDev_congr (g := id) (Dev.pfcPause_down (d := s.here) h)
  case icmp =>
    have hsol := Dev.solicited_read (d := s.here) hup hd hread
    have hecho := Dev.echoIn_read (d := s.here) hup hd hread
    refine ⟨fun ht hip hlen => ?_, fun h => ?_, fun ht hdst => ⟨fun h => ?_, fun h hp => ?_, fun h hp => ?_⟩, fun h => ?_⟩
    · exact next_onDev_eq (hsol.trans (if_neg (by simp [ht, hip]; omega)))
    · exact next_onDev_eq (hsol.trans (if_pos h))
    · exact next_onDev_eq (hecho.trans ((if_pos ⟨ht, hdst⟩).trans (Dev.echoReply_spent h)))
    · exact next_onDev_eq (hecho.trans ((if_pos ⟨ht, hdst⟩).trans (Dev.echoReply_cell h hp)))
    · exact next_onDev_eq (hecho.trans ((if_pos ⟨ht, hdst⟩).trans (Dev.echoReply_far h hp)))
    · exact next_onDev_eq (hecho.trans (if_neg fun hx => h.elim (fun hn => hn hx.1) (fun hn => hn hx.2)))
  · exact next_onDev_congr (g := id) (Dev.solicited_down (d := s.here) h)
  · exact next_onDev_congr (g := id) (Dev.echoIn_down (d := s.here) h)
  case arp =>
    have harp := Dev.arpIn_asks (d := s.here) hup ha hd
    refine ⟨fun ht hop hip hen hlen => ?_, fun h => ?_⟩
    · exact next_onDev_eq (harp.trans (if_pos ⟨ht, hop, hip, hen, hlen⟩))
    · refine next_onDev_eq (harp.trans (if_neg ?_))
      rintro ⟨-, -, hip, hen, -⟩
      exact h.elim (fun h => h hip) (fun h => Bool.false_ne_true (h.symm.trans hen))
  case mtu =>
    have hup' : ¬ (!s.here.farUp q) = true := by
      show ¬ (!s.dev.farUp q) = true
      rw [hup]
      decide
    refine ⟨fun hslot hst hsize => ?_, fun h => ?_⟩
    · exact next_onDev_congr ((if_neg hup').trans (if_pos ⟨hslot, hst, hsize⟩))
    · refine next_onDev_congr ((if_neg hup').trans (if_neg fun hbig => ?_))
      exact absurd hbig.2.2 (Nat.not_lt.mpr (Nat.le_trans (Dev.packetSize_le s.here slot) h))
  case cellDiscard =>
    exact ⟨next_onDev_congr (Dev.cellDiscard_up (d := s.here) hup), next_onDev_congr (Dev.cellDiscard_up (d := s.here) hup),
      next_onDev_congr (Dev.cellDiscard_up (d := s.here) hup), fun c u => next_onDev_congr (Dev.cellDiscard_up (d := s.here) hup)⟩
  case farDiscard =>
    exact ⟨next_onDev_congr (Dev.farDiscard_up (d := s.here) hup), next_onDev_congr (Dev.farDiscard_up (d := s.here) hup),
      next_onDev_congr (Dev.farDiscard_up (d := s.here) hup), fun c u => next_onDev_congr (Dev.farDiscard_up (d := s.here) hup)⟩

end Sys2Proof.Machine
end


section
/-! PROOFS. The far path: arrival (R476, R485), the cipher engine (R487, R509, R512 to R518), the drain (R488, R503) and the requests of the control
cores (R513 to R515). -/

namespace Sys2Proof.Machine

/-! ## Arrival on a far port -/

section Arrival

variable {d e : Dev} {q : Nat} {bs : Bytes}

theorem Dev.farArrival_down (h : d.farUp q = false) : d.farArrival q bs = d := if_pos (by rw [h]; rfl)

variable (hup : d.farUp q = true) (he : e = d.portRx (16 + q))
include hup he

theorem Dev.farArrival_noUdp (h : notUdp bs = true) : d.farArrival q bs = e.portDiscard (16 + q) := by
  subst he
  exact (if_neg (by rw [hup]; decide)).trans (if_pos h)

theorem Dev.farArrival_unread (hudp : notUdp bs = false) (h : e.readTxp q bs = none) : d.farArrival q bs = e.bump WXU.MALFORMED.COUNT 1 := by
  subst he
  unfold Dev.farArrival
  rw [if_neg (by rw [hup]; decide)]
  dsimp only
  rw [if_neg (by rw [hudp]; decide), h]

theorem Dev.farArrival_read {x : TxpIn} (hudp : notUdp bs = false) (h : e.readTxp q bs = some x) (hce : x.ce = false) :
    d.farArrival q bs = if txpWell x.pay then e.txpArrive x x.pay else e.bump WXU.MALFORMED.COUNT 1 := by
  subst he
  unfold Dev.farArrival
  rw [if_neg (by rw [hup]; decide)]
  dsimp only
  rw [if_neg (by rw [hudp]; decide), h]
  dsimp only
  rw [hce]
  rfl

end Arrival

section Slots

variable {d : Dev} {x : TxpIn} {b h : Bytes} {k : Nat} (hh : h = b.take 48) (hk : k = hRecv b) (hkind : hKind h ≠ tkHANDSHAKE)
include hh hk hkind

theorem Dev.txpArrive_noSlot (hp : d.pslot k = none) : d.txpArrive x b = d.bump WXU.STALE_GEN.COUNT 1 := by
  subst hh hk
  unfold Dev.txpArrive
  dsimp only
  rw [if_neg hkind, hp]

/-- Does a frame name a slot that is OPEN with both its generations? -/
def Dev.namesSlot (d : Dev) (k : Nat) (h : Bytes) : Bool :=
  d.slotOpen k && d.slotGen k == hRecvGen h && d.get (WXU.SLOT_PEER.PEER_SLOT k) == hSend h && d.get (WXU.SLOT_PEER.PEER_GEN k) == hSendGen h

section Named

variable {p : PSlot} (hp : d.pslot k = some p)
include hp

theorem Dev.txpArrive_stale (hn : d.namesSlot k h = false) : d.txpArrive x b = d.bump WXU.STALE_GEN.COUNT 1 := by
  subst hh hk
  unfold Dev.txpArrive
  dsimp only
  rw [if_neg hkind, hp]
  exact if_pos (by rw [← Dev.namesSlot, hn]; rfl)

section Fresh

variable (hn : d.namesSlot k h = true)
include hn

theorem Dev.txpArrive_replay (hr : d.replayOk k p h = false) : d.txpArrive x b = d.bump WXU.REPLAYS.COUNT 1 := by
  subst hh hk
  unfold Dev.txpArrive
  dsimp only
  rw [if_neg hkind, hp]
  exact (if_neg (by rw [← Dev.namesSlot, hn]; decide)).trans (if_pos (by rw [hr]; rfl))

theorem Dev.txpArrive_full (hr : d.replayOk k p h = true) (hv : d.vestRoom h = false) : d.txpArrive x b =
    if hIsData h then { d.bump WXU.VEST_DROPS.COUNT 1 with wxu.fullDrop := true, wxu.calmSince := d.now }.nackFrame k 3 h
    else d.bump WXU.VEST_DROPS.COUNT 1 := by
  subst hh hk
  unfold Dev.txpArrive
  dsimp only
  rw [if_neg hkind, hp]
  exact (if_neg (by rw [← Dev.namesSlot, hn]; decide)).trans ((if_neg (by rw [hr]; decide)).trans (if_pos (by rw [hv]; rfl)))

theorem Dev.txpArrive_waits (hr : d.replayOk k p h = true) (hv : d.vestRoom h = true) {level : Nat} {d1 : Dev}
    (hl : level = d.get WXU.VEST_LEVEL.CELLS + hCells h)
    (hd1 : d1 = (d.set WXU.VEST_LEVEL.CELLS level).set WXU.VEST_PEAK.CELLS (max level (d.get WXU.VEST_PEAK.CELLS))) :
    d.txpArrive x b = d1.setCqueue 0 (d1.cqueue 0 ++ [.openFrame ⟨k, h, slice b 48 (hLen h), (b.drop (48 + hLen h)).take 16, x.ce, d.now⟩
      (d1.get (WXU.SLOT_KEY.KEY_SLOT k)) false]) := by
  subst hh hk hd1 hl
  unfold Dev.txpArrive
  dsimp only
  rw [if_neg hkind, hp]
  exact (if_neg (by rw [← Dev.namesSlot, hn]; decide)).trans ((if_neg (by rw [hr]; decide)).trans (if_neg (by rw [hv]; decide)))

end Fresh

end Named

end Slots

/-! ## The cipher engine: opening -/

section Open

variable {d d1 : Dev} {pr : Nat}

theorem Dev.openRequest_takes {f : VFrame} {k : Nat} {b : Bool} {rest : List CReq} {y : Session} (hq : d.cqueue 0 = .openFrame f k b :: rest)
    (hpr : d.freePair none = some pr) (h : (d.setCqueue 0 rest).useKey k = (d1, .ok (.session y))) :
    d.openRequest 0 = d1.pairTake pr (.openFrame f k b) := by
  unfold Dev.openRequest
  rw [hq, hpr]
  simp only [h]

theorem Dev.openRequest_noKey {f : VFrame} {k : Nat} {b : Bool} {rest : List CReq} {e : Nat} (hq : d.cqueue 0 = .openFrame f k b :: rest)
    (hpr : d.freePair none = some pr) (h : (d.setCqueue 0 rest).useKey k = (d1, .error e)) :
    d.openRequest 0 = ((d1.freeCells f.hdr).when (!d1.slotOpen f.slot) (·.bump WXU.STALE_GEN.COUNT 1)).keyRelease := by
  unfold Dev.openRequest
  rw [hq, hpr]
  simp only [h]

theorem Dev.openRequest_idle {q : Nat} (h : q ≠ 0 ∨ d.cqueue q = [] ∨ d.freePair none = none) : d.openRequest q = d := by
  unfold Dev.openRequest
  split
  next hq hpr =>
    rw [hq, hpr] at h
    simp at h
  next => rfl

section Complete

variable {f : VFrame} {k : Nat} {b : Bool} {e : Dev} (hp : d.cpair pr = some (.openFrame f k b)) (hup : pr ∉ d.sec.upset)
  (he : e = (d.setCpair pr none).countBlocks false (ceilDiv f.text.length 16))
include hp hup he

theorem Dev.openComplete_noKey (h : e.key k = none) : d.openComplete pr = (e.freeCells f.hdr).keyRelease := by
  subst he
  unfold Dev.openComplete
  rw [hp]
  dsimp only
  rw [if_neg (by simpa using hup), h]

theorem Dev.openComplete_fails {y : Session} {w : Nat} (hk : e.key k = some ⟨.session y, false⟩) (h : y.open_ f = (w, none)) :
    d.openComplete pr = (e.openFail f).keyRelease := by
  subst he
  unfold Dev.openComplete
  rw [hp]
  dsimp only
  rw [if_neg (by simpa using hup), hk]
  dsimp only
  rw [h]

theorem Dev.openComplete_passes {y : Session} {w : Nat} {text : Bytes} (hk : e.key k = some ⟨.session y, false⟩) (h : y.open_ f = (w, some text))
    (hopen : e.slotOpen f.slot = true) (hkey : e.get (WXU.SLOT_KEY.KEY_SLOT f.slot) = k) :
    d.openComplete pr = (if hIsData f.hdr then (e.openPass f.slot k w y f).fragment f text else (e.openPass f.slot k w y f).control f text).keyRelease := by
  subst he
  unfold Dev.openComplete
  rw [hp]
  dsimp only
  rw [if_neg (by simpa using hup), hk]
  dsimp only
  rw [h]
  dsimp only
  rw [hopen, hkey, Bool.true_and, beq_self_eq_true]
  rfl

end Complete

theorem Dev.openComplete_none (h : d.cpair pr = none) : d.openComplete pr = d := by
  unfold Dev.openComplete
  rw [h]

end Open

/-! ## The drain -/

section Drain

variable {d e : Dev}

theorem Dev.drainedAt_none {k : Nat} (h : k ≠ 0 ∨ d.wxu.drains = []) : d.drainedAt k = d := by
  unfold Dev.drainedAt
  by_cases hk : k = 0
  · rw [if_pos hk, h.resolve_left (not_not_intro hk)]
    rfl
  · rw [if_neg hk]

variable {x : Drain} {xs : List Drain} (hx : d.wxu.drains = x :: xs) (he : e = { d with wxu.drains := xs }.freeCells x.hdr)
include hx he

/-- The first fragment: its cells are free, and its shard decides. -/
theorem Dev.drainedAt_first : d.drainedAt 0 = match e.rnd.cfg with
    | none => (e.bump WXU.MALFORMED.COUNT 1).release x.slot (hDseq x.hdr)
    | some c => match c.fragShard x.slot (hShard x.hdr) with
      | none => (e.bump WXU.MALFORMED.COUNT 1).release x.slot (hDseq x.hdr)
      | some (i, sh, p) =>
        match e.deposit (wxuAcc 2 e.roundDom) ((if hKind x.hdr = tkLOAN then c.loanAddr (e.roundSize c) i else c.inAddr (e.roundSize c) i p (hAcc x.hdr % 4))
          + hFragIx x.hdr * 2 ^ hFrag x.hdr) x.text with
        | (d1, some _) => (d1.bump WXU.MALFORMED.COUNT 1).release x.slot (hDseq x.hdr)
        | (d1, none) => (((d1.countDrain x.text.length).release x.slot (hDseq x.hdr)).fragTake c x i p sh).kick := by
  subst he
  unfold Dev.drainedAt
  rw [if_pos rfl, hx]
  rfl

theorem Dev.drainedAt_noShard (h : e.rnd.cfg = none ∨ ∃ c, e.rnd.cfg = some c ∧ c.fragShard x.slot (hShard x.hdr) = none) :
    d.drainedAt 0 = (e.bump WXU.MALFORMED.COUNT 1).release x.slot (hDseq x.hdr) := by
  rw [Dev.drainedAt_first hx he]
  rcases h with h | ⟨c, hc, hs⟩
  · rw [h]
  · rw [hc]
    dsimp only
    rw [hs]

section Shard

variable {c : RoundCfg} {i p base : Nat} {sh : Shard} (hc : e.rnd.cfg = some c) (hs : c.fragShard x.slot (hShard x.hdr) = some (i, sh, p))
  (hbase : base = (if hKind x.hdr = tkLOAN then c.loanAddr (e.roundSize c) i else c.inAddr (e.roundSize c) i p (hAcc x.hdr % 4)))
include hc hs hbase

theorem Dev.drainedAt_written {d1 : Dev} (h : e.deposit (wxuAcc 2 e.roundDom) (base + hFragIx x.hdr * 2 ^ hFrag x.hdr) x.text = (d1, none)) :
    d.drainedAt 0 = (((d1.countDrain x.text.length).release x.slot (hDseq x.hdr)).fragTake c x i p sh).kick := by
  subst hbase
  rw [Dev.drainedAt_first hx he, hc]
  dsimp only
  rw [hs]
  dsimp only
  rw [h]

theorem Dev.drainedAt_refused {d1 : Dev} {f : Nat × Nat}
    (h : e.deposit (wxuAcc 2 e.roundDom) (base + hFragIx x.hdr * 2 ^ hFrag x.hdr) x.text = (d1, some f)) :
    d.drainedAt 0 = (d1.bump WXU.MALFORMED.COUNT 1).release x.slot (hDseq x.hdr) := by
  subst hbase
  rw [Dev.drainedAt_first hx he, hc]
  dsimp only
  rw [hs]
  dsimp only
  rw [h]

end Shard

end Drain

/-! ## The cipher engine: sealing -/

/-- Is a request the one of a slot whose frame may be sealed now (R530)? -/
def Dev.sealsNow (d : Dev) (r : CReq) : Bool := match r with
  | .sealFrame s _ _ _ _ _ => d.canSeal s
  | .openFrame .. | .core .. => false

/-- Is a request the sealing of a slot's frame on a port? -/
def CReq.seals (slot port : Nat) (hdr text : Bytes) (r : CReq) : Bool := match r with
  | .sealFrame a _ b h t _ => a == slot && b == port && h == hdr && t == text
  | _ => false

/-- A slot's frame goes onto a pair, sealed under the slot's session with its next TX_SEQ. -/
def Dev.sealOne (d : Dev) (pr slot key port : Nat) (hdr text : Bytes) : Dev :=
  let d := match d.pslot slot with | some p => if 0xF0000000 ≤ p.txSeq + 1 then d.rekey slot else d | none => d
  match d.useKey key with
  | (d, .ok (.session s)) =>
    let seq := (match d.pslot slot with | some p => p.txSeq | none => 0) + 1
    let (h, c) := sealFrame s seq hdr text
    (d.onPslot slot (fun p => { p with txSeq := seq })).pairTake pr (.sealFrame slot key port h c false)
  | (d, _) => d

theorem Dev.sealRequest_eq (d : Dev) (q : Nat) : d.sealRequest q = match (d.cqueue q).find? d.sealsNow, d.freePair none with
    | some (.sealFrame slot _ port hdr text _), some pr =>
      (d.setCqueue q ((d.cqueue q).eraseP (CReq.seals slot port hdr text))).sealOne pr slot (d.get (WXU.SLOT_KEY.KEY_SLOT slot)) port hdr text
    | _, _ => d := rfl

section Seal

variable {d d1 e : Dev} {pr slot k port : Nat} {hdr text : Bytes} {b : Bool}

theorem Dev.sealRequest_takes {q : Nat} (hq : (d.cqueue q).find? d.sealsNow = some (.sealFrame slot k port hdr text b)) (hpr : d.freePair none = some pr)
    (he : e = d.setCqueue q ((d.cqueue q).eraseP (CReq.seals slot port hdr text))) {p : PSlot} (hp : e.pslot slot = some p)
    (hseq : p.txSeq + 1 < 0xF0000000) {y : Session} (hkey : e.useKey (d.get (WXU.SLOT_KEY.KEY_SLOT slot)) = (d1, .ok (.session y)))
    (hp1 : d1.pslot slot = some p) {h c : Bytes} (hc : sealFrame y (p.txSeq + 1) hdr text = (h, c)) :
    d.sealRequest q = (d1.onPslot slot (fun z => { z with txSeq := p.txSeq + 1 })).pairTake pr
      (.sealFrame slot (d.get (WXU.SLOT_KEY.KEY_SLOT slot)) port h c false) := by
  rw [Dev.sealRequest_eq, hq, hpr]
  dsimp only
  rw [← he]
  unfold Dev.sealOne
  rw [hp]
  dsimp only
  rw [if_neg (Nat.not_le.mpr hseq)]
  simp only [hkey, hp1, hc]

theorem Dev.sealRequest_idle {q : Nat} (h : d.cqueue q = [] ∨ d.freePair none = none) : d.sealRequest q = d := by
  unfold Dev.sealRequest
  rcases h with h | h
  · rw [h]
    rfl
  · rw [h]
    split
    next hpr => exact absurd hpr (by simp)
    next => rfl

theorem Dev.onPslot_now (s : Nat) (f : PSlot → PSlot) : (d.onPslot s f).now = d.now := by
  unfold Dev.onPslot
  split <;> rfl

theorem Dev.farSend_now (dscp : Nat) (pay : Bytes) : (d.farSend slot port dscp pay).now = d.now := by
  unfold Dev.farSend
  split
  · rfl
  · exact Dev.onPslot_now ..

section Complete

variable (hp : d.cpair pr = some (.sealFrame slot k port hdr text b)) (hup : pr ∉ d.sec.upset)
  (he : e = (d.setCpair pr none).countBlocks true (ceilDiv (text.length - 16) 16))
include hp hup he

theorem Dev.sealComplete_frame : d.sealComplete pr = (if !e.slotOpen slot then e
    else match (if e.farUp port then some port else e.farNext none) with
      | none => e
      | some p => (e.farSend slot p (if hIsData hdr then e.get WXU.DSCP.DATA else e.get WXU.DSCP.CTRL) (hdr ++ text)).when (hIsData hdr)
          (fun d => d.onPslot slot (fun q => { q with lastUse := d.now }))).keyRelease := by
  subst he
  unfold Dev.sealComplete
  rw [hp]
  dsimp only
  rw [if_neg (by simpa using hup)] <;> rfl

theorem Dev.sealComplete_closed (h : e.slotOpen slot = false) : d.sealComplete pr = e.keyRelease := by
  rw [Dev.sealComplete_frame hp hup he, if_pos (by rw [h]; rfl)]

/-- A control frame leaves. -/
theorem Dev.sealComplete_control {q : Nat} (h : e.slotOpen slot = true) (hq : (if e.farUp port then some port else e.farNext none) = some q)
    (hd : hIsData hdr = false) : d.sealComplete pr = (e.farSend slot q (e.get WXU.DSCP.CTRL) (hdr ++ text)).keyRelease := by
  rw [Dev.sealComplete_frame hp hup he, if_neg (by rw [h]; decide), hq]
  dsimp only
  rw [hd]
  rfl

theorem Dev.sealComplete_data {q : Nat} (h : e.slotOpen slot = true) (hq : (if e.farUp port then some port else e.farNext none) = some q)
    (hd : hIsData hdr = true) : d.sealComplete pr =
      ((e.farSend slot q (e.get WXU.DSCP.DATA) (hdr ++ text)).onPslot slot (fun p => { p with lastUse := e.now })).keyRelease := by
  rw [Dev.sealComplete_frame hp hup he, if_neg (by rw [h]; decide), hq]
  dsimp only
  rw [hd, ← Dev.farSend_now (e.get WXU.DSCP.DATA) (hdr ++ text)]
  rfl

theorem Dev.sealComplete_noPort (h : e.slotOpen slot = true) (hq : (if e.farUp port then some port else e.farNext none) = none) :
    d.sealComplete pr = e.keyRelease := by
  rw [Dev.sealComplete_frame hp hup he, if_neg (by rw [h]; decide), hq]

end Complete

/-- A first cipher fault on a pair: the frame runs again on another. -/
theorem Dev.sealComplete_upset {p2 : Nat} (hp : d.cpair pr = some (.sealFrame slot k port hdr text false)) (hup : pr ∈ d.sec.upset)
    (he : e = (d.setCpair pr none).bump SEC.CIPHER_FAULTS.COUNT 1)
    (hd1 : d1 = { e with sec.upset := e.sec.upset.filter (· != pr) }.fault (uPair pr) 0x0608 0) (hp2 : d1.freePair (some pr) = some p2) :
    d.sealComplete pr = (d1.pairTake p2 (.sealFrame slot k port hdr text true)).keyRelease := by
  subst he hd1
  unfold Dev.sealComplete
  rw [hp]
  dsimp only
  rw [if_pos (by simpa using hup)]
  unfold Dev.cipherFault
  dsimp only
  rw [if_neg Bool.false_ne_true, hp2]

theorem Dev.sealComplete_none (h : d.cpair pr = none) : d.sealComplete pr = d := by
  unfold Dev.sealComplete
  rw [h]

end Seal

/-! ## Requests of the control cores -/

section Core

variable {d e : Dev} {op : Nat} {r : Bytes}

/-- What becomes of the request itself: none, one that is not good, one that joins queue 2 or finds it full. -/
def Dev.coreJoins (d : Dev) (op : Nat) (r : Bytes) : Dev :=
  if r.isEmpty then d
  else if !coreReqOk r || le r 0 1 != op then d.coreEnd r 0x0612
  else if 256 ≤ (d.cqueue 2).length then d
  else d.setCqueue 2 (d.cqueue 2 ++ [.core r false])

theorem Dev.coreJoins_eq (h : (r = [] ∧ e = d) ∨ (r ≠ [] ∧ (coreReqOk r = false ∨ le r 0 1 ≠ op) ∧ e = d.coreEnd r 0x0612) ∨
    (r ≠ [] ∧ coreReqOk r = true ∧ le r 0 1 = op ∧ ((256 ≤ (d.cqueue 2).length ∧ e = d) ∨
      ((d.cqueue 2).length < 256 ∧ e = d.setCqueue 2 (d.cqueue 2 ++ [.core r false]))))) : d.coreJoins op r = e := by
  unfold Dev.coreJoins
  rcases h with ⟨rfl, rfl⟩ | ⟨hr, hbad, rfl⟩ | ⟨hr, hok, hop, hroom⟩
  · rfl
  · rw [if_neg (by simpa using hr), if_pos (by simpa using hbad)]
  · rw [if_neg (by simpa using hr), if_neg (by simp [hok, hop])]
    rcases hroom with ⟨h, rfl⟩ | ⟨h, rfl⟩
    · exact if_pos h
    · exact if_neg (Nat.not_le.mpr h)

variable (he : d.coreJoins op r = e)
include he

theorem Dev.coreRequest_joins : d.coreRequest op r = match e.cqueue 2, e.freePair none with
    | .core x b :: rest, some pr => if le x 0 1 = op then (e.setCqueue 2 rest).pairTake pr (.core x b) else e
    | _, _ => e := by
  subst he
  rfl

theorem Dev.coreRequest_idle (h : e.cqueue 2 = [] ∨ e.freePair none = none) : d.coreRequest op r = e := by
  rw [Dev.coreRequest_joins he]
  split
  next hq hpr =>
    rw [hq, hpr] at h
    simp at h
  next => rfl

theorem Dev.coreRequest_front {x : Bytes} {b : Bool} {rest : List CReq} {pr : Nat} (hq : e.cqueue 2 = .core x b :: rest) (hpr : e.freePair none = some pr) :
    d.coreRequest op r = if le x 0 1 = op then (e.setCqueue 2 rest).pairTake pr (.core x b) else e := by
  rw [Dev.coreRequest_joins he, hq, hpr]

end Core

section CoreRun

variable {d d1 d2 d3 : Dev} {pr : Nat} {r : Bytes} {b : Bool} {st : Nat}

theorem Dev.coreComplete_runs (hup : pr ∉ d.sec.upset) (h : (d.setCpair pr none).coreRun r = (d1, st)) :
    d.coreComplete pr r b = (d1.coreEnd r st).keyRelease := by
  unfold Dev.coreComplete
  rw [if_neg (by simpa using hup), h]

theorem Dev.sealComplete_core (hp : d.cpair pr = some (.core r b)) (hop : le r 0 1 = 1) : d.sealComplete pr = d.coreComplete pr r b := by
  unfold Dev.sealComplete
  rw [hp]
  exact if_pos hop

theorem Dev.openComplete_core (hp : d.cpair pr = some (.core r b)) (hop : le r 0 1 = 2) : d.openComplete pr = d.coreComplete pr r b := by
  unfold Dev.openComplete
  rw [hp]
  exact if_pos hop

variable {key aad text : Bytes} (hkey : d.coreKey r = (d1, .ok key)) (haad : d1.coreRead (le r 16 8) (le r 24 4) = (d2, .ok aad))
  (htext : d2.coreRead (le r 32 8) (le r 28 4) = (d3, .ok text))
include hkey haad htext

theorem Dev.coreRun_seals (hop : le r 0 1 = 1) {c : Bytes} {d4 : Dev} (hc : c = gcmCrypt key (slice r 4 12) text)
    (hd4 : d4 = (d3.countBlocks true (ceilDiv text.length 16)).store (le r 40 8) c) :
    d.coreRun r = (d4.store (le r 48 8) (gcmTag key (slice r 4 12) aad c), 0) := by
  subst hc hd4
  unfold Dev.coreRun
  dsimp only
  rw [hkey]
  dsimp only
  rw [haad]
  dsimp only
  rw [htext]
  dsimp only
  rw [if_pos hop, hop]
  rfl

theorem Dev.coreRun_opens (hop : le r 0 1 ≠ 1) {d4 : Dev} {tag : Bytes}
    (htag : (d3.countBlocks false (ceilDiv text.length 16)).coreRead (le r 48 8) 16 = (d4, .ok tag)) :
    d.coreRun r = (if gcmTag key (slice r 4 12) aad text = tag then (d4.store (le r 40 8) (gcmCrypt key (slice r 4 12) text), 0)
      else (d4.bump SEC.TAG_FAILS.COUNT 1, 0x0607)) := by
  unfold Dev.coreRun
  dsimp only
  rw [hkey]
  dsimp only
  rw [haad]
  dsimp only
  rw [htext]
  dsimp only
  rw [if_neg hop, beq_eq_false_iff_ne.mpr hop, htag]

end CoreRun

theorem Dev.freeCells_rnd (d : Dev) (h : Bytes) : (d.freeCells h).rnd = d.rnd := Dev.set_rnd ..

/-- A request of a control core goes in by the row of its kind. -/
theorem coreRows_exec {i : Instr} {r : Bytes} {op : Nat} (s : State)
    (h : (i, op) ∈ [(Instr.cipherSealRequest ⟨2, r⟩, 1), (.cipherOpenRequest ⟨2, r⟩, 2)]) : exec i s = .next (s.onDev (·.coreRequest op r)) := by
  simp only [List.mem_cons, Prod.mk.injEq, List.not_mem_nil, or_false] at h
  rcases h with ⟨rfl, rfl⟩ | ⟨rfl, rfl⟩ <;> rfl

theorem next_openRequest {s : State} {q : Nat} {r : Bytes} {e : Dev} (hq : q ≠ 2) (h : s.here.openRequest q = e) :
    exec (.cipherOpenRequest ⟨q, r⟩) s = .next (s.onDev fun _ => e) := next_onDev_eq ((if_neg hq).trans h)

theorem next_sealRequest {s : State} {q : Nat} {r : Bytes} {e : Dev} (hq : q ≠ 2) (h : s.here.sealRequest q = e) :
    exec (.cipherSealRequest ⟨q, r⟩) s = .next (s.onDev fun _ => e) := next_onDev_eq ((if_neg hq).trans h)

theorem next_openComplete {s : State} {pr : Nat} {e : Dev} (h : s.here.openComplete pr = e) :
    exec (.cipherOpenComplete pr) s = .next (s.onDev fun _ => e.kick) := next_onDev_eq (congrArg Dev.kick h)

/-- Settles O52: the checks of an arrival in their order, then the cipher engine's requests and completions, and the drain. -/
theorem farPath : Obligations.FarPath := by
  refine ⟨⟨fun s q bs h => next_onDev_congr (g := id) (Dev.farArrival_down (d := s.here) h), fun s q bs d hup hd => ?arrival⟩,
    ⟨fun s r f k x rest pr hq hpr => ?openTake, fun s q r h2 h => next_onDev_congr (g := id) ((if_neg h2).trans (Dev.openRequest_idle (d := s.here) h)),
      fun s pr f k x d hp hup hd => ?openDone, fun s pr h => ⟨?_, ?_⟩, fun s k h => next_onDev_congr (g := id) (Dev.drainedAt_none (d := s.here) h),
      fun s x xs d hx hd h => ?noShard, fun s x xs c i sh p d base hx hc hs hd hbase d1 => ?drain⟩,
    ⟨fun s q rq slot k port hdr text x pr d h2 hq hpr hd p hp hseq d1 y hkey hp1 h c hc => ?sealTake,
      fun s q rq h2 h => next_onDev_congr (g := id) ((if_neg h2).trans (Dev.sealRequest_idle (d := s.here) h)),
      fun s pr slot k port hdr text x d hp hup hd => ?sealDone, fun s pr slot k port hdr text d p2 hp hup hd d1 hd1 hp2 => ?sealAgain⟩,
    fun s r i op d1 hi h => ?core, fun s pr r b d1 st hp hup h => ?coreDone, fun d d1 d2 d3 r key aad text hkey haad htext => ?coreRun⟩
  case arrival =>
    refine ⟨fun h => ?_, fun hudp h => ?_, fun x hudp hx hce => ?_⟩
    · exact next_onDev_eq (Dev.farArrival_noUdp (d := s.here) hup hd h)
    · exact next_onDev_eq (Dev.farArrival_unread (d := s.here) hup hd hudp h)
    · have harr := Dev.farArrival_read (d := s.here) hup hd hudp hx hce
      refine ⟨fun h => ?_, fun hw h k hh hk hkind => ?_⟩
      · exact next_onDev_eq (harr.trans (if_neg (by rw [h]; decide)))
      · have hwell := harr.trans (if_pos hw)
        refine ⟨fun hp => ?_, fun p hp => ⟨fun hbad => ?_, fun ho hg hs hsg => ?_⟩⟩
        · exact next_onDev_eq (hwell.trans (Dev.txpArrive_noSlot hh hk hkind hp))
        · refine next_onDev_eq (hwell.trans (Dev.txpArrive_stale hh hk hkind hp ?_))
          unfold Dev.namesSlot
          rcases hbad with h | h | h | h <;> simp [h]
        · have hn : d.namesSlot k h = true := by simp [Dev.namesSlot, ho, hg, hs, hsg]
          refine ⟨fun hr => ?_, fun hr hv hdata => ?_, fun hr hv hdata => ?_, fun hr hv level d1 hl hd1 => 
            ⟨⟨k, h, slice x.pay 48 (hLen h), (x.pay.drop (48 + hLen h)).take 16, x.ce, d.now⟩, rfl, rfl, rfl, rfl, ?_⟩⟩
          · exact next_onDev_eq (hwell.trans (Dev.txpArrive_replay hh hk hkind hp hn hr))
          · exact next_onDev_eq (hwell.trans ((Dev.txpArrive_full hh hk hkind hp hn hr hv).trans (if_neg (by rw [hdata]; decide))))
          · exact next_onDev_eq (hwell.trans ((Dev.txpArrive_full hh hk hkind hp hn hr hv).trans (if_pos hdata)))
          · exact next_onDev_eq (hwell.trans (Dev.txpArrive_waits hh hk hkind hp hn hr hv hl hd1))
  case openTake =>
    refine ⟨fun d1 y h => ?_, fun d1 e h => ⟨fun ho => ?_, fun ho => ?_⟩⟩
    · exact next_openRequest (by decide) (Dev.openRequest_takes (d := s.here) hq hpr h)
    · refine next_openRequest (by decide) ((Dev.openRequest_noKey (d := s.here) hq hpr h).trans ?_)
      rw [ho]
      rfl
    · refine next_openRequest (by decide) ((Dev.openRequest_noKey (d := s.here) hq hpr h).trans ?_)
      rw [ho]
      rfl
  case openDone =>
    refine ⟨fun hk => ?_, fun y hk => ⟨fun h => ?_, fun b h ho hkey d1 hd1 => ⟨fun hdata => ?_, fun hdata => ?_⟩⟩⟩
    · exact next_openComplete (Dev.openComplete_noKey (d := s.here) hp hup hd hk)
    · exact next_openComplete (Dev.openComplete_fails (d := s.here) hp hup hd hk (Prod.ext rfl h))
    · subst hd1
      exact next_openComplete ((Dev.openComplete_passes (d := s.here) hp hup hd hk (Prod.ext rfl h) ho hkey).trans (congrArg Dev.keyRelease (if_pos hdata)))
    · subst hd1
      exact next_openComplete ((Dev.openComplete_passes (d := s.here) hp hup hd hk (Prod.ext rfl h) ho hkey).trans
        (congrArg Dev.keyRelease (if_neg (by rw [hdata]; decide))))
  · exact next_onDev_congr (congrArg Dev.kick (Dev.openComplete_none (d := s.here) h))
  · exact next_onDev_congr (g := id) (Dev.sealComplete_none (d := s.here) h)
  case noShard =>
    refine next_onDev_eq (Dev.drainedAt_noShard (d := s.here) hx hd ?_)
    rw [hd, Dev.freeCells_rnd]
    exact h
  case drain =>
    have hc' : d.rnd.cfg = some c := by
      rw [hd, Dev.freeCells_rnd]
      exact hc
    refine ⟨fun h => ?_, fun e h => ?_⟩
    · exact next_onDev_eq (Dev.drainedAt_written (d := s.here) hx hd hc' hs hbase h)
    · exact next_onDev_eq (Dev.drainedAt_refused (d := s.here) hx hd hc' hs hbase h)
  case sealTake =>
    exact next_sealRequest h2 (Dev.sealRequest_takes (d := s.here) hq hpr hd hp hseq hkey hp1 hc)
  case sealDone =>
    refine ⟨fun ho => ?_, fun ho hup1 hdata => ?_, fun ho hup1 hdata => ?_, fun ho hdown hnone => ?_, fun q ho hdown hq hdata => ?_⟩
    · exact next_onDev_eq (Dev.sealComplete_closed (d := s.here) hp hup hd ho)
    · exact next_onDev_eq (Dev.sealComplete_control (d := s.here) hp hup hd ho (if_pos hup1) hdata)
    · exact next_onDev_eq (Dev.sealComplete_data (d := s.here) hp hup hd ho (if_pos hup1) hdata)
    · exact next_onDev_eq (Dev.sealComplete_noPort (d := s.here) hp hup hd ho ((if_neg (by rw [hdown]; decide)).trans hnone))
    · exact next_onDev_eq (Dev.sealComplete_control (d := s.here) hp hup hd ho ((if_neg (by rw [hdown]; decide)).trans hq) hdata)
  case sealAgain => exact next_onDev_eq (Dev.sealComplete_upset (d := s.here) hp hup hd hd1 hp2)
  case core =>
    rw [coreRows_exec s hi]
    have hjoin : s.here.coreJoins op r = d1 := Dev.coreJoins_eq h
    refine ⟨fun h => ?_, fun x b rest pr hq hpr => ⟨fun hop => ?_, fun hop => ?_⟩⟩
    · exact next_onDev_eq (Dev.coreRequest_idle hjoin h)
    · exact next_onDev_eq ((Dev.coreRequest_front hjoin hq hpr).trans (if_pos hop))
    · exact next_onDev_eq ((Dev.coreRequest_front hjoin hq hpr).trans (if_neg hop))
  case coreDone =>
    refine ⟨fun hop => ?_, fun hop => ?_⟩
    · exact next_onDev_eq ((Dev.sealComplete_core (d := s.here) hp hop).trans (Dev.coreComplete_runs hup h))
    · exact next_openComplete ((Dev.openComplete_core (d := s.here) hp hop).trans (Dev.coreComplete_runs hup h))
  case coreRun =>
    exact ⟨fun hop c d4 hc hd4 => Dev.coreRun_seals hkey haad htext hop hc hd4, fun hop d4 tag htag => Dev.coreRun_opens hkey haad htext hop htag⟩

end Sys2Proof.Machine
end


section
/-! PROOFS. The timers of a partner slot (R464, R483, R484, R490 to R495, R531), windows, the active set, overcommit and pacing (R496 to R501). -/

namespace Sys2Proof.Machine

/-! ## A slot as its timers meet it -/

section Until

variable (s : State) (t slot : Nat)

@[simp] theorem until_pslot : (s.until t).here.pslot slot = s.dev.pslot slot := by
  rw [until_here]
  rfl

@[simp] theorem until_slotOpen : (s.until t).here.slotOpen slot = s.dev.slotOpen slot := by
  rw [until_here]
  rfl

@[simp] theorem until_farDown : (s.until t).here.farDown = s.dev.farDown := by
  rw [until_here]
  rfl

@[simp] theorem until_backlogOf (p : PSlot) : (s.until t).here.backlogOf p = s.dev.backlogOf p := by
  rw [until_here]
  rfl

@[simp] theorem until_session : (s.until t).here.session slot = s.dev.session slot := by
  rw [until_here]
  rfl

@[simp] theorem until_get (f : FRef) : (s.until t).here.get f = s.dev.get f := by
  rw [until_here]
  rfl

@[simp] theorem until_fullDrop : (s.until t).here.wxu.fullDrop = s.dev.wxu.fullDrop := by
  rw [until_here]

end Until

/-- A timer that has ended makes of the device what another operation does. -/
theorem next_due {s : State} {w : Option Nat} {t : Nat} {f : Dev → Dev} (g : Dev → Dev) (hw : w = some t) (h : f (s.until t).here = g (s.until t).here) :
    (.next (s.atTime w f) : Host.Outcome State Fault Refusal) = .next ((s.until t).onDev g) := congrArg Host.Outcome.next (atTime_due f g hw h)

/-- A timer that does not run. -/
theorem next_notDue {s : State} {w : Option Nat} {f : Dev → Dev} (hw : w = none) :
    (.next (s.atTime w f) : Host.Outcome State Fault Refusal) = .next s := congrArg Host.Outcome.next (atTime_not f hw)

/-! ## What a slot sends in time (R484, R490 to R495) -/

section Send

variable {d : Dev} {slot : Nat} {p : PSlot}

theorem Dev.onPslot_regs (f : PSlot → PSlot) : (d.onPslot slot f).regs = d.regs := by
  unfold Dev.onPslot
  split <;> rfl

theorem Dev.onPslot_rnd (f : PSlot → PSlot) : (d.onPslot slot f).rnd = d.rnd := by
  unfold Dev.onPslot
  split <;> rfl

theorem Dev.onPslot_get (f : PSlot → PSlot) (r : FRef) : (d.onPslot slot f).get r = d.get r :=
  Dev.get_congr r (by rw [Dev.rd, Dev.onPslot_regs, Dev.rd])

theorem Dev.onPslot_accLimit (f : PSlot → PSlot) : (d.onPslot slot f).accLimit = d.accLimit := by
  unfold Dev.accLimit Dev.lowestAcc Dev.flag
  rw [Dev.onPslot_rnd, Dev.onPslot_get, Dev.onPslot_get]

variable (hp : d.pslot slot = some p)
include hp

theorem Dev.ackDue_open (ho : d.slotOpen slot = true) : d.ackDue slot = if p.ackCount ≠ 0 then some (p.ackSince + 100000) else none := by
  unfold Dev.ackDue
  rw [hp]
  dsimp only
  rw [ho, Bool.true_and]
  by_cases h : p.ackCount = 0 <;> simp [h]

theorem Dev.txpAck_down (hf : d.farDown = true) : d.txpAck slot = d := by
  unfold Dev.txpAck
  rw [hp]
  exact if_pos hf

theorem Dev.txpAck_sends (hf : d.farDown = false) : d.txpAck slot = (d.onPslot slot (fun p => { p with ackCount := 0, marks := 0 })).txpCtl slot tkACK
    (beBytes 4 p.relCum ++ beBytes 8 ((List.range 64).foldl (fun a k => if p.relAbove.contains ((p.relCum + 1 + k) % 2 ^ 32) then a + 2 ^ k else a) 0)
      ++ beBytes 2 (min p.marks 65535) ++ [0, 0]) := by
  unfold Dev.txpAck
  rw [hp]
  exact if_neg (by rw [hf]; decide)

theorem Dev.gapDue_open (ho : d.slotOpen slot = true) : d.gapDue slot = ((p.gaps d.now).map (·.2)).min? := by
  unfold Dev.gapDue
  rw [hp]
  exact if_pos ho

theorem Dev.creditDue_open (ho : d.slotOpen slot = true) : d.creditDue slot = some (p.creditAt + min 100000000 (max 1000000 (10 * p.srtt))) := by
  unfold Dev.creditDue
  rw [hp]
  exact if_pos ho

theorem Dev.sendCredit_down (hf : d.farDown = true) : d.sendCredit slot = d := by
  unfold Dev.sendCredit
  rw [hp]
  exact if_pos (by rw [hf, Bool.or_true])

theorem Dev.sendCredit_sends (ho : d.slotOpen slot = true) (hf : d.farDown = false) : d.sendCredit slot =
    (d.onPslot slot (fun p => { p with creditSeq := p.creditSeq + 1, creditAt := d.now, limitSent := d.accLimit })).txpCtl slot tkCREDIT
      (beBytes 4 (p.creditSeq + 1) ++ beBytes 4 (d.get (WXU.SLOT_WINDOW.BYTES slot)) ++ beBytes 4 d.accLimit ++ zeros 4) := by
  unfold Dev.sendCredit
  rw [hp]
  dsimp only
  rw [if_neg (by rw [ho, hf]; decide), Dev.onPslot_get, Dev.onPslot_accLimit]

theorem Dev.wantDue_of : d.wantDue slot = p.wantAt.map (· + 100000000) := by
  unfold Dev.wantDue
  rw [hp]

theorem Dev.wantCheck_gone {w : Nat} (ho : d.slotOpen slot = true) (hw : p.wantAt = some w) (hb : d.backlogOf p = 0) (timer : Bool) :
    d.wantCheck slot timer = (d.onPslot slot (fun p => { p with wantAt := none })).txpCtl slot tkWANT (beBytes 8 0 ++ beBytes 4 p.oldest ++ zeros 4) := by
  unfold Dev.wantCheck
  rw [hp]
  dsimp only
  rw [if_neg (by rw [ho]; decide), if_pos hb, if_pos (by rw [hw]; rfl), hb]

theorem Dev.wantCheck_again (ho : d.slotOpen slot = true) (hb : d.backlogOf p ≠ 0) : d.wantCheck slot true =
    (d.onPslot slot (fun p => { p with wantAt := some d.now })).txpCtl slot tkWANT (beBytes 8 (d.backlogOf p) ++ beBytes 4 p.oldest ++ zeros 4) := by
  unfold Dev.wantCheck
  rw [hp]
  dsimp only
  rw [if_neg (by rw [ho]; decide), if_neg hb, if_neg (by simp)]

theorem Dev.probeDue_open (ho : d.slotOpen slot = true) : d.probeDue slot = some (p.sentAt + 100000000) := by
  unfold Dev.probeDue
  rw [hp]
  exact if_pos ho

theorem Dev.silentDue_open (ho : d.slotOpen slot = true) : d.silentDue slot =
    if p.silent = false then some (p.heardAt + 8 * d.get WXU.RTO_MAX.MILLISECONDS * 1000000) else none := by
  unfold Dev.silentDue
  rw [hp]
  dsimp only
  rw [ho, Bool.true_and]
  cases p.silent <;> rfl

end Send

/-! ## Fragments kept (R492) -/

section Kept

variable {d : Dev} {slot dseq : Nat} {p : PSlot} {k : SentFrag} (hp : d.pslot slot = some p) (hk : p.kept.find? (fun k => k.dseq == dseq) = some k)
include hp hk

theorem Dev.keptFrag_of : d.keptFrag slot dseq = some k := by
  unfold Dev.keptFrag
  rw [hp]
  exact hk

theorem Dev.retxDue_of : d.retxDue slot dseq = if k.again || k.due.isSome then none
    else some (k.sentAt + min (d.get WXU.RTO_MAX.MILLISECONDS * 1000000) (d.txpRto p * 2 ^ k.tries)) := by
  unfold Dev.retxDue
  rw [hp, Dev.keptFrag_of hp hk]

theorem Dev.retxExpire_of : d.retxExpire slot dseq = d.againFrag slot k (fun x => { x with again := true, tries := x.tries + 1 }) := by
  unfold Dev.retxExpire
  rw [Dev.keptFrag_of hp hk]

theorem Dev.fullDue_of : d.fullDue slot dseq = k.due := by
  unfold Dev.fullDue
  rw [Dev.keptFrag_of hp hk]
  rfl

theorem Dev.fullExpire_of : d.fullExpire slot dseq = d.againFrag slot k (fun x => { x with again := true, due := none }) := by
  unfold Dev.fullExpire
  rw [Dev.keptFrag_of hp hk]

end Kept

/-! ## Quarantine and the previous key (R464, R483, R531) -/

section Keys

variable {d : Dev} {slot : Nat}

theorem Dev.quarDue_of {p : PSlot} (hp : d.pslot slot = some p) : d.quarDue slot =
    if d.slotState slot = wsQUARANTINE then some (p.lastUse + d.get WXU.QUARANTINE.MILLISECONDS * 1000000) else none := by
  unfold Dev.quarDue
  rw [hp]

theorem Dev.slotFree_eq : d.slotFree slot = ((((((d.clearReg (WXU.SLOT_STATE.REG slot).off).clearReg (WXU.SLOT_PEER.REG slot).off).clearReg
    (WXU.SLOT_PEER_WINDOW.REG slot).off).clearReg (WXU.SLOT_RTT.REG slot).off).clearReg (WXU.SLOT_OUTSTANDING.REG slot).off).clearReg
    (WXU.SLOT_KEY.REG slot).off).set (WXU.SLOT_STATE.GEN slot) (d.slotGen slot) := by
  unfold Dev.slotFree
  simp only [Dev.each, List.foldl_cons, List.foldl_nil]

theorem Dev.slotState_of_open (h : d.slotOpen slot = true) : d.slotState slot ≠ wsQUARANTINE := by
  rw [show d.slotState slot = wsOPEN from eq_of_beq h]
  decide

variable {k : Nat} {x : Session} (hx : d.session slot = some (k, x))
include hx

theorem Dev.prevDue_of : d.prevDue slot = if x.prev.isSome then some (x.movedAt + d.get WXU.QUARANTINE.MILLISECONDS * 1000000) else none := by
  unfold Dev.prevDue
  rw [hx]

theorem Dev.prevErase_of : d.prevErase slot = (d.setSession k { x with prev := none }).tryRekey slot := by
  unfold Dev.prevErase
  rw [hx]

end Keys

/-! ## Windows and the active set (R496 to R499) -/

section Windows

variable {d : Dev} {slot : Nat}

theorem Dev.windowWrite_keeps {v : Reg} (h : 4096 ≤ slot ∨ bits v.toNat 27 0 % 1024 ≠ 0 ∨ bits v.toNat 27 0 = d.get (WXU.SLOT_WINDOW.BYTES slot)) :
    d.windowWrite slot v = d := by
  unfold Dev.windowWrite
  dsimp only
  by_cases hbad : 4096 ≤ slot ∨ bits v.toNat 27 0 % 1024 ≠ 0
  · exact if_pos hbad
  · rw [if_neg hbad]
    exact if_pos ((or_assoc.mpr h).resolve_left hbad)

section Write

variable {v : Reg} {w : Nat} (hslot : slot < 4096) (hw : w = bits v.toNat 27 0) (hmul : w % 1024 = 0) (hne : w ≠ d.get (WXU.SLOT_WINDOW.BYTES slot))
include hslot hw hmul hne

theorem Dev.windowWrite_refused (h : 131072 < d.windowSum - d.get (WXU.SLOT_WINDOW.BYTES slot) / 1024 + w / 1024) :
    d.windowWrite slot v = (d.refuseRegister (uCore 0) (WXU.SLOT_WINDOW.REG slot).off).eventOpen 0x0516 := by
  subst hw
  exact (if_neg (by omega)).trans ((if_neg hne).trans (if_pos h))

theorem Dev.windowWrite_grants (h : d.windowSum - d.get (WXU.SLOT_WINDOW.BYTES slot) / 1024 + w / 1024 ≤ 131072) {d1 : Dev}
    (hd1 : d1 = d.set (WXU.SLOT_WINDOW.BYTES slot) w) : d.windowWrite slot v = (d1.set WXU.GRANT_SUM.KIB d1.windowSum).sendCredit slot := by
  subst hw hd1
  exact (if_neg (by omega)).trans ((if_neg hne).trans (if_neg (Nat.not_lt.mpr h)))

end Write

theorem Dev.rotate_stays {e : Dev} {n : Nat} (hn : d.now = n) (he : e = { d with wxu.rotateAt := n }) (h : e.waiters = [] ∨ e.activeSlots.length < e.get WXU.VEST_CTL.ACTIVE_MAX) :
    d.rotate = e := by
  subst hn he
  exact if_pos (by rcases h with h | h <;> simp [h])

theorem Dev.rotate_leaves {e : Dev} {n x : Nat} (hn : d.now = n) (he : e = { d with wxu.rotateAt := n }) (hw : e.waiters ≠ [])
    (hfull : e.get WXU.VEST_CTL.ACTIVE_MAX ≤ e.activeSlots.length) (hx : e.leaver = some x) :
    d.rotate = ((e.onPslot x (fun p => { p with leavingAt := some e.now })).grantWindow x 0).updateActive true := by
  have hgo : ¬ (e.waiters.isEmpty || decide (e.activeSlots.length < e.get WXU.VEST_CTL.ACTIVE_MAX)) = true := by simp [hw, hfull]
  subst hn he
  unfold Dev.rotate
  dsimp only
  rw [if_neg hgo, hx]

theorem Dev.leaverDue_of {p : PSlot} (hp : d.pslot slot = some p) : d.leaverDue slot = p.leavingAt.map (· + 2 * d.txpRto p) := by
  unfold Dev.leaverDue
  rw [hp]

theorem Dev.leaverOut_alone (h : d.waiters = []) : d.leaverOut slot = (d.leaveActive slot).updateActive true := by
  unfold Dev.leaverOut
  rw [h]
  rfl

theorem Dev.leaverOut_enters {x : Nat} {xs : List Nat} (h : d.waiters = x :: xs) : d.leaverOut slot =
    (((d.leaveActive slot).set (WXU.SLOT_STATE.ACTIVE x) 1).onPslot x
      (fun p => { p with activeAt := (d.leaveActive slot).now, leavingAt := none })).updateActive true := by
  unfold Dev.leaverOut
  rw [h]
  rfl

theorem Dev.overDown_calm (h : d.wxu.fullDrop = false) : d.overDown = d := if_pos (by rw [h]; rfl)

theorem Dev.overDown_full (h : d.wxu.fullDrop = true) : d.overDown =
    ({ d with wxu.fullDrop := false, wxu.calmSince := d.now }.set WXU.VEST_CTL.EFFECTIVE (max 1 (d.get WXU.VEST_CTL.EFFECTIVE - 1))).updateActive true :=
  if_neg (by rw [h]; decide)

theorem Dev.overUp_rises (h : d.get WXU.VEST_CTL.EFFECTIVE < d.get WXU.VEST_CTL.OVERCOMMIT) : d.overUp =
    ({ d with wxu.calmSince := d.now }.set WXU.VEST_CTL.EFFECTIVE (d.get WXU.VEST_CTL.EFFECTIVE + 1)).updateActive true := if_pos h

theorem Dev.overUp_full (h : d.get WXU.VEST_CTL.OVERCOMMIT ≤ d.get WXU.VEST_CTL.EFFECTIVE) : d.overUp = { d with wxu.calmSince := d.now } :=
  if_neg (Nat.not_lt.mpr h)

end Windows

/-! ## Pacing and the send of a fragment (R500, R501) -/

section Fragments

variable {d e : Dev} {slot : Nat}

theorem Dev.paceDue_of {p : PSlot} (hp : d.pslot slot = some p) : d.paceDue slot = if d.slotOpen slot then some (p.rateAt + p.srtt) else none := by
  unfold Dev.paceDue
  rw [hp]

theorem Dev.fragmentSend_waits (he : e = d.drr) (h : e.sendReady slot = false ∨ e.wxu.turn ≠ slot ∨ 256 ≤ (e.cqueue 1).length) : d.fragmentSend slot = e := by
  subst he
  unfold Dev.fragmentSend
  dsimp only
  split
  · rfl
  · exact if_pos (by rcases h with h | h | h <;> simp [h])

section Sends

variable {p : PSlot} {st : OutStream} {f : Nat} {old : Option SentFrag} {d1 : Dev} (he : e = d.drr) (hready : e.sendReady slot = true)
  (hturn : e.wxu.turn = slot) (hroom : (e.cqueue 1).length < 256) (hp : e.pslot slot = some p) (hnext : Dev.nextFrag p = some (st, f, old))
  (hd1 : d1 = e.sendFrag slot st f old) {q : PSlot} (hq : d1.pslot slot = some q)
include he hready hturn hroom hp hnext hd1 hq

theorem Dev.fragmentSend_tries : d.fragmentSend slot =
    if q.dseq != p.dseq && old.isNone then
      ((d1.when (q.dseq != p.dseq) (·.paced slot (fragLen d1.fragSize st.bytes f))).onPslot slot (fun p => { p with streams := p.streams.map (fun s =>
        if s.loan == st.loan && s.acc == st.acc && s.shard == st.shard then { s with todo := s.todo.drop 1 } else s) })).wantCheck slot false
    else d1.when (q.dseq != p.dseq) (·.paced slot (fragLen d1.fragSize st.bytes f)) := by
  have hgo : ¬ (!e.sendReady slot || e.wxu.turn != slot || decide (256 ≤ (e.cqueue 1).length)) = true := by
    simp [hready, hturn, hroom]
  subst he hd1
  unfold Dev.fragmentSend
  dsimp only
  rw [hp]
  dsimp only
  rw [if_neg hgo, hnext]
  dsimp only
  rw [hq]

theorem Dev.fragmentSend_unsent (h : q.dseq = p.dseq) : d.fragmentSend slot = d1 := by
  rw [Dev.fragmentSend_tries he hready hturn hroom hp hnext hd1 hq, h, bne_self_eq_false]
  rfl

theorem Dev.fragmentSend_sent (h : q.dseq ≠ p.dseq) {d2 : Dev} (hd2 : d2 = d1.paced slot (fragLen d1.fragSize st.bytes f)) : d.fragmentSend slot =
    if old.isNone then (d2.onPslot slot (fun p => { p with streams := p.streams.map (fun s =>
      if s.loan == st.loan && s.acc == st.acc && s.shard == st.shard then { s with todo := s.todo.drop 1 } else s) })).wantCheck slot false
    else d2 := by
  subst hd2
  rw [Dev.fragmentSend_tries he hready hturn hroom hp hnext hd1 hq, bne_iff_ne.mpr h, Bool.true_and]
  rfl

end Sends

end Fragments

/-- Settles O53: each timer by when it ends and what it then does. -/
theorem exchangeTimers : Obligations.ExchangeTimers := by
  refine ⟨⟨fun s slot p hp hst => ?quarantine, fun s slot p hp ho => ⟨fun ha hf => ?_, fun ha => ?_, fun t ht => ?_, fun hg => ?_, fun hf => ?_,
      fun hf => ⟨?_, fun ha => ?_⟩, fun w hw => ⟨fun hb => ?_, fun hb => ?_⟩, fun hw => ?_, ?_, fun hs => ?_, fun hs => ?_, fun dseq k hk => ?kept,
      fun k x hx => ⟨fun hprev => ?_, fun hprev => ?_⟩, ?_⟩⟩,
    fun s slot v h => next_onDev_congr (g := id) (Dev.windowWrite_keeps (d := s.here) h),
    fun s slot v w hslot hw hmul hne => ⟨fun h => next_onDev_congr (Dev.windowWrite_refused (d := s.here) hslot hw hmul hne h),
      fun h d1 hd1 => next_onDev_eq (Dev.windowWrite_grants (d := s.here) hslot hw hmul hne h hd1)⟩,
    fun s t ht d hd => ?rotate, fun s slot p t0 hp => ?leaver, fun s u hu => ?down, fun s u hu => ?up, fun s slot p hp => ⟨fun ho => ?_, fun ho => ?_⟩,
    fun s slot u d hu hd => ?fragment⟩
  case quarantine =>
    exact next_due _ ((Dev.quarDue_of hp).trans (if_pos hst)) Dev.slotFree_eq
  case kept =>
    refine ⟨fun hag hdue => ?_, fun t ht => ⟨?_, ?_⟩, fun hdue => ?_⟩
    · exact next_due _ ((Dev.retxDue_of hp hk).trans (if_neg (by rw [hag, hdue]; decide))) (Dev.retxExpire_of (by rwa [until_pslot]) hk)
    · exact next_due _ ((Dev.fullDue_of hp hk).trans ht) (Dev.fullExpire_of (by rwa [until_pslot]) hk)
    · exact next_notDue ((Dev.retxDue_of hp hk).trans (if_pos (by rw [ht]; exact Bool.or_true _)))
    · exact next_notDue ((Dev.fullDue_of hp hk).trans hdue)
  case rotate =>
    subst ht
    refine ⟨fun h => ?_, fun x hw hfull hx => ?_⟩
    · exact next_due _ rfl (Dev.rotate_stays (State.here_now _) hd h)
    · exact next_due _ rfl (Dev.rotate_leaves (State.here_now _) hd hw hfull hx)
  case leaver =>
    refine ⟨fun hl t ht => ?_, fun hl => ?_⟩
    · have hdue : s.dev.leaverDue slot = some t := by
        rw [Dev.leaverDue_of hp, hl, ht]
        rfl
      exact ⟨fun h => next_due _ hdue (Dev.leaverOut_alone h), fun x xs h => next_due _ hdue (Dev.leaverOut_enters h)⟩
    · exact next_notDue (by rw [Dev.leaverDue_of hp, hl]; rfl)
  case down =>
    subst hu
    exact ⟨fun h => next_due id rfl (Dev.overDown_calm (by rwa [until_fullDrop])), fun h => next_due _ rfl (Dev.overDown_full (by rwa [until_fullDrop]))⟩
  case up =>
    subst hu
    exact ⟨fun h => next_due _ rfl (Dev.overUp_rises (by rwa [until_get, until_get])), fun h => next_due _ rfl (Dev.overUp_full (by rwa [until_get, until_get]))⟩
  case fragment =>
    have hexec : exec (.fragmentSend slot) s = .next (u.onDev (·.fragmentSend slot)) := by
      subst hu
      show Host.Outcome.next (match s.dev.sendAt slot with | some t => _ | none => _) = _
      cases s.dev.sendAt slot <;> rfl
    rw [hexec]
    refine ⟨fun h => ?_, fun p st f old d1 hready hturn hroom hp hnext hd1 => ⟨fun q hq h => ?_, fun q d2 hq h hd2 => ⟨fun k hk => ?_, fun hk => ?_⟩⟩⟩
    · exact next_onDev_eq (Dev.fragmentSend_waits hd h)
    · exact next_onDev_eq (Dev.fragmentSend_unsent hd hready hturn hroom hp hnext hd1 hq h)
    · exact next_onDev_eq ((Dev.fragmentSend_sent hd hready hturn hroom hp hnext hd1 hq h hd2).trans (if_neg (by simp [hk])))
    · exact next_onDev_eq ((Dev.fragmentSend_sent hd hready hturn hroom hp hnext hd1 hq h hd2).trans (if_pos (by rw [hk]; rfl)))
  · exact next_due _ ((Dev.ackDue_open hp ho).trans (if_pos ha)) (Dev.txpAck_sends (by rwa [until_pslot]) (by rwa [until_farDown]))
  · exact next_notDue ((Dev.ackDue_open hp ho).trans (if_neg (not_not_intro ha)))
  · exact next_due _ ((Dev.gapDue_open hp ho).trans ht) rfl
  · exact next_notDue ((Dev.gapDue_open hp ho).trans (by rw [hg]; rfl))
  · exact next_due _ (Dev.creditDue_open hp ho) (Dev.sendCredit_sends (by rwa [until_pslot]) (by rwa [until_slotOpen]) (by rwa [until_farDown]))
  · exact next_due id (Dev.creditDue_open hp ho) (Dev.sendCredit_down (by rwa [until_pslot]) (by rwa [until_farDown]))
  · exact next_due id ((Dev.ackDue_open hp ho).trans (if_pos ha)) (Dev.txpAck_down (by rwa [until_pslot]) (by rwa [until_farDown]))
  · exact next_due _ ((Dev.wantDue_of hp).trans (by rw [hw]; rfl))
      (Dev.wantCheck_gone (by rwa [until_pslot]) (by rwa [until_slotOpen]) hw (by rwa [until_backlogOf]) true)
  · exact next_due _ ((Dev.wantDue_of hp).trans (by rw [hw]; rfl))
      (Dev.wantCheck_again (by rwa [until_pslot]) (by rwa [until_slotOpen]) (by rwa [until_backlogOf]))
  · exact next_notDue ((Dev.wantDue_of hp).trans (by rw [hw]; rfl))
  · exact next_due _ (Dev.probeDue_open hp ho) rfl
  · exact next_due _ ((Dev.silentDue_open hp ho).trans (if_pos hs)) rfl
  · exact next_notDue ((Dev.silentDue_open hp ho).trans (if_neg (by rw [hs]; decide)))
  · exact next_due _ ((Dev.prevDue_of hx).trans (if_pos hprev)) (Dev.prevErase_of (by rwa [until_session]))
  · exact next_notDue ((Dev.prevDue_of hx).trans (if_neg (by rw [hprev]; decide)))
  · exact next_notDue ((Dev.quarDue_of hp).trans (if_neg (Dev.slotState_of_open ho)))
  · refine next_due _ ((Dev.paceDue_of hp).trans (if_pos ho)) ?_
    rw [until_pslot, hp]
  · exact next_notDue ((Dev.paceDue_of hp).trans (if_neg (by rw [ho]; decide)))

end Sys2Proof.Machine
end


section
/-! PROOFS. The conservator: the fault ring and verdicts (R592, R593, R596, R597), and lending tiles (R602, R603, R605). -/

namespace Sys2Proof.Machine

/-! ## The fault ring and verdicts -/

section Verdicts

variable {d : Dev}

theorem Dev.ringRetire_beyond {v n : Nat} (hn : n = (v % 64 + 64 - d.get CSV.FRING_HEAD.INDEX) % 64) (h : d.get CSV.STATE.FRING_LEVEL < n) :
    d.ringRetire v = d := by
  subst hn
  exact if_pos h

theorem Dev.ringRetire_retires {v n : Nat} {e : Dev} (hn : n = (v % 64 + 64 - d.get CSV.FRING_HEAD.INDEX) % 64) (h : n ≤ d.get CSV.STATE.FRING_LEVEL)
    (he : e = d.each (List.range n) (fun d _ => d.retireEntry)) : d.ringRetire v = { e with csv.handling := e.csv.handling.filter e.inHandling } := by
  subst hn he
  exact if_neg (Nat.not_lt.mpr h)

theorem Dev.handleEnd_of {k : Nat} {h : Handling} (hk : d.csv.handling[k]? = some h) :
    d.handleEnd k = if h.retired then some (h.entered + d.get CSV.HANDLE_MIN.MICROSECONDS * 1000) else none := by
  unfold Dev.handleEnd
  rw [hk]

variable {u : Nat}

theorem Dev.decayAt_watch {e : Nat × Nat} {es : List (Nat × Nat)} (h : d.get (suspLevel u) = 1) (hu : u ∈ allUnits) (he : (d.unitSum u).recent = e :: es) :
    d.decayAt u = some (e.1 + dayNs) := by
  unfold Dev.decayAt
  rw [if_pos ⟨h, List.contains_iff_mem.mpr hu⟩, he]

theorem Dev.decayAt_none (h : d.get (suspLevel u) ≠ 1) : d.decayAt u = none := if_neg fun hc => h hc.1

theorem Dev.reviewEnd_none {pass : Bool} (h : d.csv.reviews.contains u = false ∨ reviewsAtOnce u = false) : d.reviewEnd u pass = d :=
  if_pos (by rcases h with h | h <;> rw [h] <;> simp)

section Review

variable {pass : Bool} {e : Dev} (hr : d.csv.reviews.contains u = true) (ho : reviewsAtOnce u = true)
  (he : e = { d with csv.reviews := d.csv.reviews.filter (· != u) }.suspect u (if pass then 1 else 3))
include hr ho he

/-- A review that ran at once ends: the unit's verdict, and then what its type of unit does. -/
theorem Dev.reviewEnd_of : d.reviewEnd u pass = match u / 4096 with
    | 4 => if pass then e.cellLink (u % 4096) true else e.rescale.pumpAll.storeOn
    | 5 => if pass then e.farLink (u % 4096) true else e.updateActive true
    | _ => e := by
  subst he
  exact if_neg (by rw [hr, ho]; decide)

theorem Dev.reviewEnd_cell (h : u / 4096 = 4) : d.reviewEnd u pass = if pass then e.cellLink (u % 4096) true else e.rescale.pumpAll.storeOn := by
  rw [Dev.reviewEnd_of hr ho he, h]
  rfl

theorem Dev.reviewEnd_far (h : u / 4096 = 5) : d.reviewEnd u pass = if pass then e.farLink (u % 4096) true else e.updateActive true := by
  rw [Dev.reviewEnd_of hr ho he, h]
  rfl

theorem Dev.reviewEnd_other (h4 : u / 4096 ≠ 4) (h5 : u / 4096 ≠ 5) : d.reviewEnd u pass = e := by
  rw [Dev.reviewEnd_of hr ho he]
  split
  next h => exact absurd h h4
  next h => exact absurd h h5
  next => rfl

end Review

end Verdicts

/-! ## Lending tiles -/

section Loans

variable {d : Dev}

section Due

variable {t : Nat} (hf : d.testFree t = true)
include hf

theorem Dev.testDue_reserve (h : (d.reserves (wingOf t)).contains t = true) : d.testDue t = (d.preempt t).startTest t :=
  (if_neg (by rw [hf]; decide)).trans (if_pos h)

variable (h : (d.reserves (wingOf t)).contains t = false)
include h

theorem Dev.testDue_lends {r : Nat} (hr : d.reserveFor (wingOf t) = some r) : d.testDue t = d.lend t r := by
  unfold Dev.testDue
  rw [if_neg (by rw [hf]; decide), if_neg (by rw [h]; decide), hr]

theorem Dev.testDue_skips (hr : d.reserveFor (wingOf t) = none) : d.testDue t = ((d.bump CSV.TESTS_SKIPPED.COUNT 1).eventOpen 0x0707).dueLater t := by
  unfold Dev.testDue
  rw [if_neg (by rw [hf]; decide), if_neg (by rw [h]; decide), hr]
  rfl

end Due

section Boundary

variable {w : Nat} {l : Loan}

theorem Dev.loanBoundary_rehang (h : d.curator = curREHANG) : d.loanBoundary = d := if_pos h

theorem Dev.loanBoundary_of (hc : d.curator ≠ curREHANG)
    (hl : d.findLoan (fun l => l.phase == 1 && (d.atBoundary l.tile || d.seqState l.tile == tsEMPTY)) = some (w, l)) : d.loanBoundary =
    if d.seqState l.tile = tsEMPTY then ((d.assign l.tile l.reserve).setLoan w (some { l with phase := 3, since := d.now })).startTest l.tile
    else (d.onTile l.tile (fun x => { x with creditHeld := some ((List.range 64).map (d.regHead l.tile)) })).setLoan w (some { l with phase := 2, since := d.now }) := by
  unfold Dev.loanBoundary
  rw [if_neg hc, hl]

theorem Dev.loanCopied_none (h : d.findLoan (fun l => l.phase == 2) = none) : d.loanCopied = d := by
  unfold Dev.loanCopied
  rw [h]

theorem Dev.loanCopied_fails {bad : Nat} (h : d.findLoan (fun l => l.phase == 2) = some (w, l)) (hb : (d.tile l.tile).spmBad 0 spmBytes = some bad) :
    d.loanCopied = (d.setLoan w none).moveFails l.tile bad := by
  unfold Dev.loanCopied
  rw [h]
  dsimp only
  rw [hb]

theorem Dev.loanCopied_moves (h : d.findLoan (fun l => l.phase == 2) = some (w, l)) (hb : (d.tile l.tile).spmBad 0 spmBytes = none) : d.loanCopied =
    (((d.moveState l.tile l.reserve).setLoan w (some { l with phase := 3, since := d.now })).startTest l.tile).releaseCredit l.reserve := by
  unfold Dev.loanCopied
  rw [h]
  dsimp only
  rw [hb]

end Boundary

/-- The record of a loan past its deferral limit. -/
def Dev.deferralRec (d : Dev) (l : Loan) : FaultRec :=
  ⟨d.csv.recSeq, uTile l.tile, 0x0708, 3, d.get (suspLevel (uTile l.tile)), d.get (suspLevel (uTile l.tile)), 0, d.now, 0, 0, d.tileJob l.tile,
    d.logical l.tile, 0, 0, zeros 64⟩

theorem Dev.deferralRec_unit (l : Loan) : (d.deferralRec l).unit = uTile l.tile := rfl

theorem Dev.deferralRec_status (l : Loan) : (d.deferralRec l).status = 0x0708 := rfl

theorem Dev.deferExpired_of {w : Nat} {l : Loan} {r : FaultRec} (h : d.oldestWait = some (w, l)) (hr : r = d.deferralRec l) : d.deferExpired =
    (((({ (d.setLoan w none).logRecords [r] with csv.recSeq := d.csv.recSeq + 1 } : Dev).bump CSV.TESTS_SKIPPED.COUNT 1).eventOpen 0x0708).dueLater
      l.tile).replayGo.pump l.tile := by
  subst hr
  unfold Dev.deferExpired
  rw [h]
  rfl

theorem Dev.deferEnd_of {w : Nat} {l : Loan} (h : d.oldestWait = some (w, l)) : d.deferEnd = some (l.since + d.get CSV.LOAN_CTL.DEFER_MIN * 60000000000) := by
  unfold Dev.deferEnd
  rw [h]
  rfl

end Loans

/-- Settles O54: faults and verdicts by what they find, loans by their phases. -/
theorem faultsAndLoans : Obligations.FaultsAndLoans := by
  refine ⟨⟨fun s v n hn => ⟨fun h => ?_, fun h d hd => ?_⟩, fun s k h hk => ⟨fun hr => ?_, fun hr => ?_⟩, fun s u e es h hu he => ?_, fun s u h => ?_,
      fun s u pass h => ?_, fun s u pass d hr ho hd => ⟨fun h => ?_, fun h => ?_, fun h4 h5 => ?_⟩⟩,
    fun s t at_ hf hdue d hd => ?due, fun s t h => ?_, fun s w l hc hl => ⟨fun h => ?_, fun h => ?_⟩, fun s h => ?_, fun s h => ?_,
    fun s w l hl => ⟨fun bad hb => ?_, fun hb => ?_⟩, fun s w l h u hu => ?_, fun s h => ?_⟩
  case due =>
    have hat : (if s.dev.testFree t then s.dev.dueAt t else none) = some at_ := (if_pos hf).trans hdue
    subst hd
    refine ⟨fun hf' hr => ?_, fun hf' hr => ⟨fun r hres => ?_, fun hres => ?_⟩⟩
    · exact next_due _ hat (Dev.testDue_reserve hf' hr)
    · exact next_due _ hat (Dev.testDue_lends hf' hr hres)
    · exact next_due _ hat (Dev.testDue_skips hf' hr hres)
  · exact next_onDev_congr (g := id) (Dev.ringRetire_beyond (d := s.here) hn h)
  · exact next_onDev_eq (Dev.ringRetire_retires (d := s.here) hn h hd)
  · exact next_due _ ((Dev.handleEnd_of hk).trans (if_pos hr)) rfl
  · exact next_notDue ((Dev.handleEnd_of hk).trans (if_neg (by rw [hr]; decide)))
  · exact next_due _ (Dev.decayAt_watch h hu he) rfl
  · exact next_notDue (Dev.decayAt_none h)
  · exact next_onDev_congr (congrArg Dev.kick (Dev.reviewEnd_none (d := s.here) h))
  · exact next_onDev_eq (congrArg Dev.kick (Dev.reviewEnd_cell (d := s.here) hr ho hd h))
  · exact next_onDev_eq (congrArg Dev.kick (Dev.reviewEnd_far (d := s.here) hr ho hd h))
  · exact next_onDev_eq (congrArg Dev.kick (Dev.reviewEnd_other (d := s.here) hr ho hd h4 h5))
  · refine next_notDue ?_
    rcases h with h | h
    · exact if_neg (by rw [h]; decide)
    · rw [h, ite_self]
  · exact next_onDev_congr ((Dev.loanBoundary_of (d := s.here) hc hl).trans (if_pos h))
  · exact next_onDev_congr ((Dev.loanBoundary_of (d := s.here) hc hl).trans (if_neg h))
  · exact next_onDev_congr (g := id) (Dev.loanBoundary_rehang (d := s.here) h)
  · exact next_onDev_congr (congrArg Dev.kick (Dev.loanCopied_none (d := s.here) h))
  · exact next_onDev_congr (congrArg Dev.kick (Dev.loanCopied_fails (d := s.here) hl hb))
  · exact next_onDev_congr (congrArg Dev.kick (Dev.loanCopied_moves (d := s.here) hl hb))
  · have hw : u.here.oldestWait = some (w, l) := by rw [State.here_oldestWait, hu, State.until_dev, h]
    have hexec : exec .loanDeferralExpiry s = .next (u.onDev (·.deferExpired)) := by
      subst hu
      exact next_due _ (Dev.deferEnd_of h) rfl
    exact ⟨u.here.deferralRec l, Dev.deferralRec_unit l, Dev.deferralRec_status l, hexec.trans (next_onDev_congr (Dev.deferExpired_of hw rfl))⟩
  · exact next_notDue (by rw [Dev.deferEnd, h]; rfl)

end Sys2Proof.Machine
end


section
/-! PROOFS. The public-key engine (R516, R519, R520) and the timers of handshakes (R527). -/

namespace Sys2Proof.Machine

/-! ## The public-key engine -/

section Engine

/-- Every row of the engine starts an operation of its kind. -/
theorem pkRows_exec {c slot : Nat} {x pt dg sg : Bytes} {i : Instr} {k : PkKind} (s : State) (h : (i, k) ∈ pkRows c slot x pt dg sg) :
    ∃ own, exec i s = .next (s.onDev (·.pkStart k c own)) := by
  simp only [pkRows, List.mem_cons, Prod.mk.injEq, List.not_mem_nil, or_false] at h
  rcases h with ⟨rfl, rfl⟩ | ⟨rfl, rfl⟩ | ⟨rfl, rfl⟩ | ⟨rfl, rfl⟩ | ⟨rfl, rfl⟩ | ⟨rfl, rfl⟩ | ⟨rfl, rfl⟩ <;> exact ⟨_, rfl⟩

variable {d : Dev} {k : PkKind} {c : Nat} {own : Dev → Dev × PkOp}

theorem Dev.pkStart_taken (h : 4 ≤ c ∨ (d.pkCore c).isSome ∨ d.pkInService c = false) : d.pkStart k c own = d := if_pos (by simpa using h)

section Free

variable (hc : c < 4) (hfree : d.pkCore c = none) (hin : d.pkInService c = true)
include hc hfree hin

theorem Dev.pkStart_free : d.pkStart k c own = match d.sec.pkQueue with
    | [] => (own d).1.setPkCore c (some (own d).2)
    | o :: os => if o.kind = k then { d with sec.pkQueue := os }.setPkCore c (some o) else d :=
  if_neg (by simp [hfree, hin]; omega)

theorem Dev.pkStart_queued {q : PkOp} {qs : List PkOp} (hq : d.sec.pkQueue = q :: qs) :
    d.pkStart k c own = if q.kind = k then { d with sec.pkQueue := qs }.setPkCore c (some q) else d := by
  rw [Dev.pkStart_free hc hfree hin, hq]

theorem Dev.pkStart_own (hq : d.sec.pkQueue = []) {e : Dev} {o : PkOp} (ho : own d = (e, o)) : d.pkStart k c own = e.setPkCore c (some o) := by
  rw [Dev.pkStart_free hc hfree hin, hq, ho]

end Free

theorem slotOp_ok {slot : Nat} {pt dg key : Bytes} {e : Dev} (h : d.privateKey slot = (e, .ok key)) :
    slotOp k slot pt dg d = (e, ⟨k, key, pt, dg, [], .core 0⟩) := by
  unfold slotOp
  rw [h]

theorem slotOp_error {slot st : Nat} {pt dg : Bytes} {e : Dev} (h : d.privateKey slot = (e, .error st)) :
    slotOp k slot pt dg d = (e, ⟨k, [], pt, dg, [], .core st⟩) := by
  unfold slotOp
  rw [h]

/-- The status an operation completes with: that of using its slot, else that of its checks. -/
def Dev.pkEnds (d : Dev) (o : PkOp) : Nat := match o.use with
  | .core (n + 1) => n + 1
  | _ => d.pkStatus o

theorem Dev.pkComplete_of {o : PkOp} (h : d.pkCore c = some o) :
    d.pkComplete c = (((d.setPkCore c none).pkCount (d.pkEnds o)).pkFollow o (d.pkEnds o)).keyRelease := by
  unfold Dev.pkComplete
  rw [h]
  rfl

end Engine

/-! ## Handshakes in time -/

section Handshake

variable {d : Dev} {slot : Nat} {p : PSlot}

theorem Dev.onPslot_congr {f g : PSlot → PSlot} (hp : d.pslot slot = some p) (h : f p = g p) : d.onPslot slot f = d.onPslot slot g := by
  unfold Dev.onPslot
  rw [hp]
  dsimp only
  rw [h]

theorem Dev.bump_pslot (f : FRef) (n : Nat) : (d.bump f n).pslot slot = d.pslot slot := by
  rw [Dev.pslot, Dev.bump_wxu, Dev.pslot]

variable (hp : d.pslot slot = some p)
include hp

/-- The first failure of a cause is counted, posted, and followed by a fresh start in 1 s. -/
theorem Dev.hsFail_first {cause : Nat} (h : cause ∉ p.causes) : d.hsFail slot cause =
    ((d.bump SEC.HS_FAILED.COUNT 1).onPslot slot (fun p => { p with retryAt := some (d.now + 1000000000), causes := cause :: p.causes })).event 0x060A
      (slot + cause * 65536) := by
  have hno : p.causes.contains cause = false := by simpa using h
  unfold Dev.hsFail
  rw [hp]
  dsimp only
  rw [hno, Dev.onPslot_congr (d := d.bump SEC.HS_FAILED.COUNT 1)
    (g := fun p => { p with retryAt := some (d.now + 1000000000), causes := cause :: p.causes }) ((Dev.bump_pslot ..).trans hp) (by rw [hno]; rfl)]
  rfl

theorem Dev.helloResend_of : d.helloResend slot =
    (d.onPslot slot (fun p => { p with helloSends := p.helloSends + 1, helloAt := d.now })).sendHandshake slot 0xFFFF 0 p.hello := by
  unfold Dev.helloResend
  rw [hp]

variable (hst : d.slotState slot = wsHANDSHAKE)
include hst

theorem Dev.helloDue_of (hh : p.hello ≠ []) (hpeer : p.peerHello = []) : d.helloDue slot = some (p.helloAt + 200000000) := by
  unfold Dev.helloDue
  rw [hp]
  exact if_pos ⟨hst, by simpa using hh, by rw [hpeer]; rfl⟩

theorem Dev.retryDue_of : d.retryDue slot = p.retryAt := by
  unfold Dev.retryDue
  rw [hp]
  exact if_pos hst

theorem Dev.hsDue_of (h : 8 ∉ p.causes) : d.hsDue slot = some (p.addedAt + 30000000000) := by
  unfold Dev.hsDue
  rw [hp]
  exact if_pos ⟨hst, by simpa using h⟩

end Handshake

/-- Settles O38: operations by what the engine finds, the timers of a handshake by when they end. -/
theorem pkEngineAndHandshakes : Obligations.PkEngineAndHandshakes := by
  refine ⟨⟨fun s c k i q qs slot x pt dg sg hc hfree hin hq hi => ?_, fun s c k i slot x pt dg sg h hi => ?_,
      fun s c x pt dg sg hc hfree hin hq => ⟨fun i op hi => ?own, fun slot d1 k hk => ⟨?_, ?_⟩, fun slot d1 st hk => ⟨?_, ?_⟩⟩,
      fun s c q hq => ⟨s.here.pkEnds q, rfl, ?_⟩, fun s => rfl⟩,
    fun s k p hp hst => ⟨fun hh hpeer => ?_, fun t ht => ?_, fun h => ?_⟩⟩
  case own =>
    simp only [List.mem_cons, Prod.mk.injEq, List.not_mem_nil, or_false] at hi
    rcases hi with ⟨rfl, rfl⟩ | ⟨rfl, rfl⟩ | ⟨rfl, rfl⟩ | ⟨rfl, rfl⟩ | ⟨rfl, rfl⟩ <;>
      exact next_onDev_congr (Dev.pkStart_own (d := s.here) hc hfree hin hq rfl)
  · obtain ⟨own, hexec⟩ := pkRows_exec s hi
    rw [hexec]
    exact next_onDev_congr (Dev.pkStart_queued (d := s.here) hc hfree hin hq)
  · obtain ⟨own, hexec⟩ := pkRows_exec s hi
    rw [hexec]
    exact next_onDev_congr (g := id) (Dev.pkStart_taken (d := s.here) h)
  · exact next_onDev_eq (Dev.pkStart_own (d := s.here) hc hfree hin hq (slotOp_ok hk))
  · exact next_onDev_eq (Dev.pkStart_own (d := s.here) hc hfree hin hq (slotOp_ok hk))
  · exact next_onDev_eq (Dev.pkStart_own (d := s.here) hc hfree hin hq (slotOp_error hk))
  · exact next_onDev_eq (Dev.pkStart_own (d := s.here) hc hfree hin hq (slotOp_error hk))
  · exact next_onDev_congr (Dev.pkComplete_of (d := s.here) hq)
  · exact next_due _ (Dev.helloDue_of hp hst hh hpeer) (Dev.helloResend_of (by rwa [until_pslot]))
  · exact next_due _ ((Dev.retryDue_of hp hst).trans ht) rfl
  · exact next_due _ (Dev.hsDue_of hp hst h) (Dev.hsFail_first (by rwa [until_pslot]) h)

end Sys2Proof.Machine
end


section
/-! PROOFS. The commands of keys and partners: KEY_GENERATE, KEY_DESTROY and ATTEST (R510, R511, R520, R536), PARTNER_ADD and HANDSHAKE (R462, R522 to
R524). -/

namespace Sys2Proof.Machine

/-! ## KEY_GENERATE -/

section Generate

variable {d : Dev} {dom k : Nat} {o : Origin} {ops : Bytes}

theorem Dev.keyGenerate_reserved (h : opnd ops 16 2 < 16) : d.keyGenerate dom o ops = (d, .now (errR 0x0105)) := if_pos h

variable (h16 : 16 ≤ opnd ops 16 2) (hok : d.keyOperandsOk ops = true) (hk : d.keyTarget (opnd ops 16 2) = .ok k)
include h16 hok hk

theorem Dev.keyGenerate_aes (hty : opnd ops 18 1 = ktAES) (he : d.entropyOk = true) : d.keyGenerate dom o ops =
    ({ d with draws := d.draws + 1 }.setKey k (opnd ops 20 2) (some ⟨.aes (leBytes 32 (Config.free d.draws)), false⟩), .now (okR k)) := by
  unfold Dev.keyGenerate
  dsimp only
  rw [if_neg (Nat.not_lt.mpr h16), if_neg (by rw [hok]; decide), hk]
  dsimp only
  rw [if_pos hty, if_neg (by rw [he]; decide)]
  rfl

theorem Dev.keyGenerate_noEntropy (hty : opnd ops 18 1 = ktAES) (he : d.entropyOk = false) : d.keyGenerate dom o ops = (d, .now (errR 0x0613)) := by
  unfold Dev.keyGenerate
  dsimp only
  rw [if_neg (Nat.not_lt.mpr h16), if_neg (by rw [hok]; decide), hk]
  dsimp only
  rw [if_pos hty, if_pos (by rw [he]; rfl)]

theorem Dev.keyGenerate_private (hty : opnd ops 18 1 = ktPRIV) {d1 : Dev} {segs : List Seg} (hx : d.xlate (hifAcc 2 dom) (opnd ops 24 8) 97 = (d1, .ok segs)) :
    d.keyGenerate dom o ops = (d1.pkAdd ⟨.keygen, [], [], [], [], .generate o ops k⟩, .unit [(opnd ops 24 8, 97)]) := by
  unfold Dev.keyGenerate
  dsimp only
  rw [if_neg (Nat.not_lt.mpr h16), if_neg (by rw [hok]; decide), hk]
  dsimp only
  rw [if_neg (by rw [hty]; decide), if_pos hty, hx]

theorem Dev.keyGenerate_public (ha : opnd ops 18 1 ≠ ktAES) (hp : opnd ops 18 1 ≠ ktPRIV) {d1 : Dev} {pt : Bytes}
    (hx : d.fetch (hifAcc 1 dom) (opnd ops 24 8) 97 = (d1, .ok pt)) :
    d.keyGenerate dom o ops = (d1.pkAdd ⟨.validate, [], pt, [], [], .import_ o ops k⟩, .unit [(opnd ops 24 8, 97)]) := by
  unfold Dev.keyGenerate
  dsimp only
  rw [if_neg (Nat.not_lt.mpr h16), if_neg (by rw [hok]; decide), hk]
  dsimp only
  rw [if_neg ha, if_neg hp, hx]

end Generate

/-! ## KEY_DESTROY -/

section Destroy

variable {d : Dev} {job k : Nat} {ops : Bytes} (hk : k = opnd ops 16 2) (hlo : 16 ≤ k) (hhi : k ≤ 1023) {x : KeySlot} (hx : d.key k = some x)
  (hs : ¬ (x.val.type = ktSESSION ∧ d.sessionUsed k = true))
include hk hlo hhi hx hs

theorem Dev.keyDestroy_of : d.keyDestroy job ops = if d.get (SEC.KEY_TYPE.OWNER k) ≠ job then (d, .now (errR 0x0211))
    else if d.keyNamed k then (d, .unit []) else (d.setKey k 0 none, .now (okU [])) := by
  subst hk
  unfold Dev.keyDestroy
  dsimp only
  rw [if_neg (Nat.not_lt.mpr hlo), if_neg (Nat.not_lt.mpr hhi), hx]
  exact if_neg hs

end Destroy

/-! ## ATTEST -/

section Attest

variable {d : Dev} {o : Origin} {ops : Bytes}

theorem Dev.attest_locked (h : d.flag SEC.STATE.IDENTITY_LOCKED = true) : d.attest o ops = (d, .now (errR 0x0614)) := if_pos h

theorem Dev.attest_signs (hl : d.flag SEC.STATE.IDENTITY_LOCKED = false) (hd : d.flag SEC.STATE.DIK_LOADED = true) (hz : opndZero ops 32 32 = true)
    {d1 d2 : Dev} {segs : List Seg} {nonce : Bytes} (hx : d.xlate (hifAcc 2 (d.attestDom o)) (opnd ops 16 8) 512 = (d1, .ok segs))
    (hf : d1.fetch (hifAcc 1 (d.attestDom o)) (opnd ops 24 8) 48 = (d2, .ok nonce)) :
    d.attest o ops = (d2.pkAdd ⟨.sign, beBytes 48 dikScalar, [], nonce, [], .attest o ops⟩, .unit [(opnd ops 16 8, 512), (opnd ops 24 8, 48)]) := by
  unfold Dev.attest
  dsimp only
  rw [if_neg (by rw [hl]; decide), if_neg (by rw [hd]; decide), if_neg (by rw [hz]; decide), hx]
  dsimp only
  rw [hf]

end Attest

/-! ## PARTNER_ADD -/

section Partner

variable {d : Dev} {job k n : Nat} {ops : Bytes} (hk : k = opnd ops 16 2) (h4096 : k < 4096)
include hk h4096

theorem Dev.partnerAdd_busy (h : d.slotState k = wsHANDSHAKE ∨ d.slotState k = wsOPEN) : d.partnerAdd job ops = (d, .now (errR 0x0505)) := by
  subst hk
  exact (if_neg (Nat.not_le.mpr h4096)).trans (if_pos h)

theorem Dev.partnerAdd_issues (hn : n = opnd ops 24 2) (h : d.slotState k = wsFREE) (hok : partnerOk ops = true) (h16 : 16 ≤ n) {d1 : Dev} {pt : Bytes}
    (hkey : d.useKey n = (d1, .ok (.pub pt))) :
    d.partnerAdd job ops = ((d1.issueSlot job k ops).hsStart k, .now (okR ((d1.issueSlot job k ops).slotGen k))) := by
  subst hk hn
  unfold Dev.partnerAdd
  dsimp only
  rw [if_neg (Nat.not_le.mpr h4096), if_neg (by rw [h]; decide), if_neg (by rw [h]; decide), if_neg (by rw [hok]; decide), if_neg (Nat.not_lt.mpr h16), hkey]

end Partner

/-! ## HANDSHAKE -/

section Handshake

variable {d : Dev} {dom : Nat} {o : Origin} {ops : Bytes}

section Endorse

variable {d1 d2 : Dev} {pt e : Bytes} (hlo : 16 ≤ opnd ops 18 2) (hhi : opnd ops 18 2 ≤ 1023) (hkey : d.useKey (opnd ops 18 2) = (d1, .ok (.pub pt)))
  (he : d1.fetch (hifAcc 1 dom) (opnd ops 24 8) 256 = (d2, .ok e))
include hlo hhi hkey he

theorem Dev.setEndorsement_read : d.setEndorsement dom o ops =
    if endorsPoint e ≠ pubOf dikScalar ∨ le e 24 8 ≠ Config.serial.toNat ∨ (d2.cfgCell ≠ 0xFF ∧ le e 6 1 ≠ d2.cfgCell) then (d2, .now (errR 0x0609))
    else (d2.pkAdd ⟨.verify, e, pt, endorsDigest e, endorsSig e, .ownEndorse o ops⟩, .unit [(opnd ops 24 8, 256)]) := by
  unfold Dev.setEndorsement
  dsimp only
  rw [if_neg (Nat.not_lt.mpr hlo), if_neg (Nat.not_lt.mpr hhi), hkey]
  dsimp only
  rw [he]

end Endorse

theorem Dev.rekeyCommand_open {p : PSlot} {x : Nat} {ss : Session} (hslot : opnd ops 18 2 < 4096) (hp : d.pslot (opnd ops 18 2) = some p)
    (hs : d.session (opnd ops 18 2) = some (x, ss)) (ho : d.slotOpen (opnd ops 18 2) = true) : d.rekeyCommand o ops =
    if p.rekeyCmd.isSome then (d, .now (errR 0x060E))
    else ((d.onPslot (opnd ops 18 2) (fun p => { p with rekeyCmd := some (o, ops), rekeyTo := ss.phase + 1 })).rekey (opnd ops 18 2), .unit []) := by
  unfold Dev.rekeyCommand
  dsimp only
  rw [hp, hs]
  exact if_neg (by rw [ho]; simp; omega)

end Handshake

theorem State.here_lowestKey (s : State) : s.here.lowestKey = s.dev.lowestKey := by
  unfold Dev.lowestKey
  rfl

theorem State.here_keyTarget (s : State) (k : Nat) : s.here.keyTarget k = s.dev.keyTarget k := by
  unfold Dev.keyTarget
  rw [State.here_lowestKey]
  rfl

theorem leBytes_length (n v : Nat) : (leBytes n v).length = n := by
  induction n generalizing v with
  | zero => rfl
  | succ n ih => rw [leBytes, List.length_cons, ih]

/-- What KEY_GENERATE makes of the device, by its operation in the domain of the command's job. -/
theorem keyGenerate_command (s : State) (o : Origin) (ops : Bytes) : exec (.keyGenerate o ops) s =
    .next (s.onDev fun _ => s.here.command 0x0601 o ops (·.keyGenerate (s.dev.domOf (s.dev.jobOf o)) o ops)) := next_onDev_eq rfl

theorem keyDestroy_command (s : State) (o : Origin) (ops : Bytes) : exec (.keyDestroy o ops) s =
    .next (s.onDev fun _ => s.here.command 0x0603 o ops (·.keyDestroy (s.dev.jobOf o) ops)) := next_onDev_eq rfl

theorem partnerAdd_command (s : State) (o : Origin) (ops : Bytes) : exec (.partnerAdd o ops) s =
    .next (s.onDev fun _ => s.here.command 0x0503 o ops (·.partnerAdd (s.dev.jobOf o) ops)) := next_onDev_eq rfl

/-- Settles O37: each command by its first check that fails, else by what it begins. -/
theorem keysAndPartners : Obligations.KeysAndPartners := by
  refine ⟨fun s o ops k => ⟨fun hat h => ?_, fun hat h16 hok hkey => ⟨fun hty he => ⟨leBytes 32 (Config.free s.here.draws), leBytes_length .., ?_⟩,
      fun hty he => ?_, fun hty d1 segs hx => ?_, fun ha hp d1 pt hx => ?_⟩, fun hat hk hlo hhi x hx hs => ⟨fun ho => ?_, fun ho hn => ?_, fun ho hn => ?_⟩,
      fun hat hl => ?_, fun hat hl hd hz d1 segs d2 nonce hx hf => ?_⟩,
    fun s o ops => ⟨fun hat k n hk hn h4096 => ⟨fun h => ?_, fun h hok h16 d1 pt hkey => ?_⟩,
      fun hat hop hlo hhi d1 pt d2 e hkey he => ⟨fun ⟨hpt, hser, hcell⟩ => ?_, fun h => ?_⟩,
      fun hat hop p x ss hslot hp hs ho => ⟨fun h => ?_, fun h => ?_⟩, fun hat hop => ?_⟩⟩
  · rw [keyGenerate_command]
    exact next_onDev_congr (command_now hat (Dev.keyGenerate_reserved (d := s.here) h))
  · rw [keyGenerate_command]
    exact next_onDev_congr (command_now hat
      (Dev.keyGenerate_aes (d := s.here) h16 hok ((State.here_keyTarget ..).trans hkey) hty he))
  · rw [keyGenerate_command]
    exact next_onDev_congr (command_now hat
      (Dev.keyGenerate_noEntropy (d := s.here) h16 hok ((State.here_keyTarget ..).trans hkey) hty he))
  · rw [keyGenerate_command]
    exact next_onDev_eq (command_unit hat
      (Dev.keyGenerate_private (d := s.here) h16 hok ((State.here_keyTarget ..).trans hkey) hty hx))
  · rw [keyGenerate_command]
    exact next_onDev_eq (command_unit hat
      (Dev.keyGenerate_public (d := s.here) h16 hok ((State.here_keyTarget ..).trans hkey) ha hp hx))
  · rw [keyDestroy_command]
    exact next_onDev_congr (command_now hat
      ((Dev.keyDestroy_of (d := s.here) hk hlo hhi hx hs).trans (if_pos ho)))
  · rw [keyDestroy_command]
    exact next_onDev_congr (command_now hat
      ((Dev.keyDestroy_of (d := s.here) hk hlo hhi hx hs).trans ((if_neg (not_not_intro ho)).trans (if_neg (ne_true_of_eq_false hn)))))
  · rw [keyDestroy_command]
    exact next_onDev_congr (command_unit hat
      ((Dev.keyDestroy_of (d := s.here) hk hlo hhi hx hs).trans ((if_neg (not_not_intro ho)).trans (if_pos hn))))
  · exact next_onDev_congr (command_now hat (eff := fun d => d.attest o ops) (Dev.attest_locked (d := s.here) hl))
  · exact next_onDev_eq (command_unit hat (eff := fun d => d.attest o ops) (Dev.attest_signs (d := s.here) hl hd hz hx hf))
  · rw [partnerAdd_command]
    exact next_onDev_congr (command_now hat (Dev.partnerAdd_busy (d := s.here) hk h4096 h))
  · rw [partnerAdd_command]
    exact next_onDev_eq (command_now hat
      (Dev.partnerAdd_issues (d := s.here) hk h4096 hn h hok h16 hkey))
  · refine next_onDev_eq (command_unit hat ((if_pos hop).trans ((Dev.setEndorsement_read (d := s.here) hlo hhi hkey he).trans (if_neg ?_))))
    rintro (h | h | ⟨h, h'⟩)
    · exact h hpt
    · exact h hser
    · exact hcell.elim h h'
  · exact next_onDev_eq (command_now hat ((if_pos hop).trans ((Dev.setEndorsement_read (d := s.here) hlo hhi hkey he).trans (if_pos h))))
  · refine next_onDev_congr (command_unit hat ((if_neg (by rw [hop]; decide)).trans ((if_pos hop).trans
      ((Dev.rekeyCommand_open (d := s.here) hslot hp hs ho).trans (if_neg ?_)))))
    rw [h]
    exact Bool.false_ne_true
  · exact next_onDev_congr (command_now hat ((if_neg (by rw [hop]; decide)).trans ((if_pos hop).trans
      ((Dev.rekeyCommand_open (d := s.here) hslot hp hs ho).trans (if_pos (Option.isSome_iff_ne_none.mpr h))))))
  · exact next_onDev_congr (command_now hat ((if_neg (by omega)).trans (if_neg (by omega))))

end Sys2Proof.Machine
end


section
/-! PROOFS. The commands and events of rounds: LOAN_COPY_SEND (R469), ROUND_CONFIG, ROUND_OPEN, PARTNER_REMOVE and EPOCH_COMMIT (R433 to R437, R465,
R467, R468), and the boundaries and deadlines of accessions (R378, R440, R444, R452). -/

namespace Sys2Proof.Machine

/-! ## A PSE command by its opcode (R386) -/

section PseDo

variable {d : Dev} {j : Nat} {o : Origin} {ops : Bytes} {c : PseJob}

theorem Dev.pseDo_config : d.pseDo j 0x0401 o ops = ((d.pseConfig j ops).1, some (d.pseConfig j ops).2) := rfl

theorem Dev.pseDo_read : d.pseDo j 0x0702 o ops = d.ckReadStart j o ops := rfl

variable (hc : (d.pseUnit j).cfg = some c)
include hc

theorem Dev.pseDo_step : d.pseDo j 0x0402 o ops = d.stepStart j c ops := by
  unfold Dev.pseDo
  rw [hc]
  rfl

theorem Dev.pseDo_guard : d.pseDo j 0x0403 o ops = ((d.guardConfig j ops).1, some (d.guardConfig j ops).2) := by
  unfold Dev.pseDo
  rw [hc]
  rfl

theorem Dev.pseDo_seal : d.pseDo j 0x0404 o ops = ((d.pseSeal j c ops).1, some (d.pseSeal j c ops).2) := by
  unfold Dev.pseDo
  rw [hc]
  rfl

theorem Dev.pseDo_outer : d.pseDo j 0x0405 o ops = ((d.pseOuter j c ops).1, some (d.pseOuter j c ops).2) := by
  unfold Dev.pseDo
  rw [hc]
  rfl

theorem Dev.pseDo_rollout : d.pseDo j 0x0406 o ops = ((d.pseRollout j c ops).1, some (d.pseRollout j c ops).2) := by
  unfold Dev.pseDo
  rw [hc]
  rfl

theorem Dev.pseDo_digest : d.pseDo j 0x0407 o ops = ((d.pseDigest j c ops).1, some (d.pseDigest j c ops).2) := by
  unfold Dev.pseDo
  rw [hc]
  rfl

theorem Dev.pseDo_write : d.pseDo j 0x0701 o ops = d.ckWriteStart j c 0x0701 o ops := by
  unfold Dev.pseDo
  rw [hc]
  rfl

theorem Dev.pseDo_snapshot : d.pseDo j 0x0704 o ops = d.ckWriteStart j c 0x0704 o ops := by
  unfold Dev.pseDo
  rw [hc]
  rfl

theorem Dev.pseDo_loan : d.pseDo j 0x0506 o ops = d.loanSend j c o ops := by
  unfold Dev.pseDo
  rw [hc]
  rfl

end PseDo

/-! ## LOAN_COPY_SEND (R469) -/

section Loan

variable {d : Dev} {j : Nat} {c : PseJob} {o : Origin} {ops : Bytes} {rc : RoundCfg} (hcfg : d.rnd.cfg = some rc) (hj : rc.job = j)
  (hz : zeroBytes ops 2 46 = true) (hopen : d.flag WXU.ROUND_STATE.OPEN = true)
include hcfg hj hz hopen

theorem Dev.loanSend_noSlot (h : 4096 ≤ le ops 0 2 ∨ d.slotUsed (le ops 0 2) = false) : d.loanSend j c o ops = (d, some (errR 0x0507)) := by
  unfold Dev.loanSend
  dsimp only
  rw [if_neg (by rw [hz]; decide), hcfg]
  dsimp only
  rw [if_neg (by simp [hj, hopen]), if_pos (by simpa using h)]

section Slot

variable (hlo : le ops 0 2 < 4096) (hu : d.slotUsed (le ops 0 2) = true) {d1 d2 : Dev} {es : List PEnt} {mine : List (Nat × Shard)}
  (ht : d.pseTable c (d.domOf j) (·.round) = (d1, .ok es))
  (hm : mine = (d1.recorded rc).filter (fun e => e.2.partners.any (fun p => p.2 == le ops 0 2)))
  (he : Dev.loanEncode rc (d.domOf j) (le ops 0 2) (d1.get WXU.ROUND_OPEN_ACC.ACCESSION + 1) es d1 mine = (d2, none))
include hlo hu ht hm he

theorem Dev.loanSend_encodes : d.loanSend j c o ops = if mine.isEmpty then (d2, some (okU []))
    else (({ d2 with rnd.loansOut := d2.rnd.loansOut ++ [⟨o, ops, le ops 0 2, d1.get WXU.ROUND_OPEN_ACC.ACCESSION + 1⟩] } : Dev).wantCheck (le ops 0 2) false,
      none) := by
  subst hm
  unfold Dev.loanSend
  dsimp only
  rw [if_neg (by rw [hz]; decide), hcfg]
  dsimp only
  rw [if_neg (by simp [hj, hopen]), if_neg (by simp [hu]; omega), ht]
  dsimp only
  rw [he]

end Slot

end Loan

/-! ## ROUND_CONFIG and ROUND_OPEN (R433 to R437) -/

section Config

variable {d d1 : Dev} {job : Nat} {ops : Bytes}

theorem Dev.roundConfig_refused {st r : Nat} (h : d.roundCheck job ops = (d1, .error (st, r))) : d.roundConfig job ops = (d1, .now (errA st r)) := by
  unfold Dev.roundConfig
  rw [h]

theorem Dev.roundConfig_passes {c : RoundCfg} {need : Nat} (h : d.roundCheck job ops = (d1, .ok (c, need))) : d.roundConfig job ops =
    if (le ops 11 1).testBit 0 then (d1, .now (okR need))
    else ((({ d1.abandonAccs with rnd.cfg := some c, rnd.loansIn := [], rnd.joined := false, rnd.hostApply := [] } : Dev).set WXU.ROUND_STATE.JOIN_WAIT
      (if c.join then 1 else 0)).updateActive true, .now (okU [])) := by
  unfold Dev.roundConfig
  rw [h]
  rfl

end Config

section Open

variable {d : Dev} {ops : Bytes} {c : RoundCfg} {job : Nat} (hz : zeroBytes ops 13 35 = true) (hcfg : d.rnd.cfg = some c) (hj : c.job = job)
  (hex : d.flag WXU.ROUND_STATE.EXHAUSTED = false)
include hz hcfg hj hex

theorem Dev.roundOpen_stops (hs : le ops 12 1 = 1) : d.roundOpen job ops =
    if d.flag WXU.ROUND_STATE.OPEN then (d.set WXU.ROUND_STATE.STOPPING 1, .now (okU [])) else (d, .now (errR 0x0503)) := by
  unfold Dev.roundOpen
  dsimp only
  rw [if_neg (by rw [hs, hz]; decide), hcfg]
  dsimp only
  rw [if_neg (not_not_intro hj), if_neg (by rw [hex]; decide), if_pos hs]

theorem Dev.roundOpen_opens (hs : le ops 12 1 = 0) (hopen : d.flag WXU.ROUND_STATE.OPEN = false) (hopening : d.rnd.opening = none)
    (hjoin : c.join = true → d.rnd.joined = true) (hstep : d.nextStep c.job ≤ le ops 4 8)
    (hseal : d.rnd.restart = true ∨ ∀ l, d.rnd.lastSealed = some l → l < le ops 0 4) {e : Dev}
    (he : e = { d with rnd.opening := some (le ops 0 4, le ops 4 8), rnd.restart := false }) : d.roundOpen job ops =
    ((if (d.pseUnit c.job).run.isNone ∧ le ops 4 8 = d.nextStep c.job then e.openRound c (le ops 0 4) (le ops 4 8) else e).creditAll, .now (okU [])) := by
  subst hj he
  have hbusy : ¬ (d.flag WXU.ROUND_STATE.OPEN = true ∨ d.rnd.opening.isSome = true ∨ (c.join = true ∧ (!d.rnd.joined) = true) ∨ le ops 4 8 < d.nextStep c.job) := by
    rintro (h | h | ⟨hj, hn⟩ | h)
    · exact Bool.false_ne_true (hopen.symm.trans h)
    · rw [hopening] at h
      cases h
    · rw [hjoin hj] at hn
      cases hn
    · omega
  have hlate : ¬ (!d.rnd.restart && (match d.rnd.lastSealed with | some l => decide (le ops 0 4 ≤ l) | none => false)) = true := by
    rcases hseal with h | h
    · rw [h]
      exact Bool.false_ne_true
    · cases hl : d.rnd.lastSealed with
      | none => simp
      | some l => simp [h l hl]
  unfold Dev.roundOpen
  dsimp only
  rw [if_neg (by rw [hs, hz]; decide), hcfg]
  dsimp only
  rw [if_neg (not_not_intro rfl), if_neg (by rw [hex]; decide), if_neg (by rw [hs]; decide), if_neg hbusy]
  exact if_neg hlate

end Open

/-! ## PARTNER_REMOVE and EPOCH_COMMIT (R465, R467, R468) -/

section Partner

variable {d : Dev} {ops : Bytes} (hz : zeroBytes ops 2 46 = true)
include hz

theorem Dev.partnerRemove_none (h : 4096 ≤ le ops 0 2 ∨ d.slotUsed (le ops 0 2) = false) : d.partnerRemove ops = (d, .now (errR 0x0507)) :=
  (if_neg (by rw [hz]; decide)).trans (if_pos (by simpa using h))

theorem Dev.partnerRemove_removes (hlo : le ops 0 2 < 4096) (hu : d.slotUsed (le ops 0 2) = true) :
    d.partnerRemove ops = (d.removeSlot (le ops 0 2), .now (okU [])) :=
  (if_neg (by rw [hz]; decide)).trans (if_neg (by simp [hu]; omega))

end Partner

/-- The epoch that is to come, as EPOCH_COMMIT records it. -/
def Dev.pendEpoch (ops : Bytes) (d : Dev) : Dev :=
  { (d.set WXU.EPOCH.PENDING (le ops 0 2)).set WXU.EPOCH_CTL.PENDING_VALID 1 with rnd.pendRestart := le ops 2 1 == 1, rnd.pendMembers := le ops 8 8 }

section Epoch

variable {d : Dev} {ops : Bytes}

theorem Dev.pendEpoch_open : (d.pendEpoch ops).flag WXU.ROUND_STATE.OPEN = d.flag WXU.ROUND_STATE.OPEN := by
  show ((d.set WXU.EPOCH.PENDING (le ops 0 2)).set WXU.EPOCH_CTL.PENDING_VALID 1).flag WXU.ROUND_STATE.OPEN = _
  unfold Dev.flag
  rw [Dev.get_set_ne, Dev.get_set_ne] <;> decide

variable (h2 : le ops 2 1 ≤ 1) (hz : zeroBytes ops 3 5 = true) (hz' : zeroBytes ops 16 32 = true)
include h2 hz hz'

theorem Dev.epochCommit_pending (h : d.flag WXU.EPOCH_CTL.PENDING_VALID = true) : d.epochCommit ops = (d, .now (errR 0x0503)) :=
  (if_neg (by simp [hz, hz']; omega)).trans (if_pos h)

theorem Dev.epochCommit_takes (h : d.flag WXU.EPOCH_CTL.PENDING_VALID = false)
    (hnext : d.rnd.everOpened = true → le ops 0 2 = (d.get WXU.EPOCH.CURRENT + 1) % 65536)
    (hown : d.ownCell < 64 → (le ops 8 8).testBit d.ownCell = true) :
    d.epochCommit ops = (if d.flag WXU.ROUND_STATE.OPEN then d.pendEpoch ops else (d.pendEpoch ops).takeEpoch, .now (okU [])) := by
  have hgo : ¬ ((d.rnd.everOpened = true ∧ le ops 0 2 ≠ (d.get WXU.EPOCH.CURRENT + 1) % 65536) ∨ (d.ownCell < 64 ∧ (!(le ops 8 8).testBit d.ownCell) = true)) := by
    rintro (⟨he, hn⟩ | ⟨ho, hn⟩)
    · exact hn (hnext he)
    · rw [hown ho] at hn
      cases hn
  rw [← Dev.pendEpoch_open (d := d) (ops := ops)]
  exact (if_neg (by simp [hz, hz']; omega)).trans ((if_neg (by rw [h]; decide)).trans (if_neg hgo))

end Epoch

end Sys2Proof.Machine
end


section
/-! PROOFS. The boundaries and deadlines of accessions (R378, R440, R444, R452), and what the commands and events of rounds do as rows. -/

namespace Sys2Proof.Machine

/-! ## APPLY_BOUNDARY (R378) -/

section Apply

variable {d d1 d2 : Dev} {j k : Nat} {c : PseJob} {r : StepRun} {rc : RoundCfg} {x : AccSlot} (hc : (d.pseUnit j).cfg = some c)
  (hr : (d.pseUnit j).run = some r) (hrc : d.rnd.cfg = some rc) (hj : rc.job = j) (hw : r.waiting = true) (hk : d.applySlot rc (le r.ops 0 8) = some k)
  (hx : d.accSlot k = some x) (hst : d.accState k = acDISTRIBUTED)
include hc hr hrc hj hw hk hx hst

theorem Dev.applyBoundary_applies {es : List PEnt} {mine : PEnt → List Contrib}
    (hes : es = (readTable r.table).filter (fun e => e.round && rc.shards.any (fun z => z.entry == e.ix)))
    (hmine : mine = fun e => x.contribs.filter (fun y => match rc.shards[y.shard]? with | some z => z.entry == e.ix | none => false))
    (hranges : d.pseRanges (d.domOf j) (es.flatMap (outerCopies false (!f32Zero c.betaO))) (es.flatMap (fun e => (mine e).flatMap (fun y =>
      d.sliceRanges 1 (d.domOf j) e y.addr (fmtBytes 1) 0 e.count))) = (d1, none))
    (hrun : Dev.entriesRun (fun d' e => (Dev.contribList rc c e d' (mine e)).1.applyEntry c (d.domOf j) (le r.ops 0 8)
      (Dev.contribList rc c e d' (mine e)).2 e) d1 es = (d2, none)) {d3 : Dev}
    (hd3 : d3 = (d2.onPse j (fun u => { u with applied := x.acc, run := some { r with waiting := false }, phase := 5 })).setAccState k acLATE) :
    d.applyBoundary j = (d3.when (!d3.flag WXU.ROUND_STATE.OPEN && d3.rnd.opening.isNone && !d3.flag WXU.ROUND_STATE.EXHAUSTED
      && (List.range 4).all (fun i => (d3.accSlot i).isNone || d3.accState i == acLATE)) (·.closeWindows (fun _ => true))).retireAccs.stepFinish j c r := by
  subst hes hmine hd3
  unfold Dev.applyBoundary
  rw [hc, hr, hrc]
  dsimp only
  rw [if_neg (by simp [hw, hj]), hk]
  dsimp only
  rw [hx]
  dsimp only
  rw [if_neg (not_not_intro hst)]
  -- the contributions of an entry are the same list by definition
  erw [hranges]
  dsimp only
  erw [hrun]

end Apply

/-! ## OWN_PACKAGE_GATHER and DECISION_DEADLINE (R444, R452) -/

section Gather

variable {d : Dev} {c : RoundCfg} {k : Nat} {x : AccSlot}

/-- The accessions held, when slot `k` alone holds one. -/
theorem Dev.held_alone (hk : k < 4) (hx : d.accSlot k = some x) (ho : ∀ i < 4, i ≠ k → d.accSlot i = none) :
    (List.range 4).filterMap (fun k => (d.accSlot k).map (fun x => (k, x))) = [(k, x)] := by
  have h (i : Nat) (hi : i < 4) : (d.accSlot i).map (fun x => (i, x)) = if i = k then some (k, x) else none := by
    by_cases hik : i = k
    · rw [if_pos hik, hik, hx]
      rfl
    · rw [if_neg hik, ho i hi hik]
      rfl
  have hr : List.range 4 = [0, 1, 2, 3] := rfl
  rw [hr]
  simp only [List.filterMap_cons, List.filterMap_nil, h 0 (by omega), h 1 (by omega), h 2 (by omega), h 3 (by omega)]
  obtain rfl | rfl | rfl | rfl : k = 0 ∨ k = 1 ∨ k = 2 ∨ k = 3 := by omega
  all_goals rfl

theorem Dev.ownPackageGather_alone (hc : d.rnd.cfg = some c) (hk : k < 4) (hx : d.accSlot k = some x) (ho : ∀ i < 4, i ≠ k → d.accSlot i = none)
    (hsent : x.pkgSent = false) (henc : x.encoded = true) (hst : d.accState k = acSEALING) : d.ownPackageGather c.job =
    (d.onAcc k (fun y => { y with pkgSent := true })).collAdd c.group
      { Coll.fresh (.package c.job x.acc) ocAG 1 0 0 (c.outAddr (d.roundSize c) k (d.roundIx c)) (c.outBlock (d.roundSize c) k) c.ownSlot d.roundDom d.now with
        own := x.ownLen, lenVec := c.outVec (d.roundSize c) k } := by
  unfold Dev.ownPackageGather
  rw [hc]
  dsimp only
  rw [Dev.held_alone hk hx ho]
  simp only [sortBy, insertBy, List.find?_cons, hsent, Bool.not_false, List.any_cons, List.any_nil, Nat.lt_irrefl, decide_false, Bool.false_and, Bool.or_self]
  rw [if_neg (by simp [henc, hst])]

theorem Dev.decisionDue_of {j acc : Nat} (hc : d.rnd.cfg = some c) (hj : c.job = j) (hx : d.accSlot (acc % 4) = some x) (ha : x.acc = acc)
    (hst : d.accState (acc % 4) = acEXCHANGE) : d.decisionDue j acc = some (x.sealedAt + c.deadlineMs * 1000000) := by
  unfold Dev.decisionDue
  rw [hc, hx]
  exact if_pos ⟨hj, ha, hst⟩

end Gather

/-! ## Rounds as rows -/

theorem roundConfig_command (s : State) (o : Origin) (ops : Bytes) : exec (.roundConfig o ops) s =
    .next (s.onDev fun _ => s.here.command 0x0501 o ops (fun d => d.roundConfig (d.jobOf o) ops)) := next_onDev_eq rfl

theorem roundOpen_command (s : State) (o : Origin) (ops : Bytes) : exec (.roundOpen o ops) s =
    .next (s.onDev fun _ => s.here.command 0x0502 o ops (fun d => d.roundOpen (d.jobOf o) ops)) := next_onDev_eq rfl

theorem partnerRemove_command (s : State) (o : Origin) (ops : Bytes) : exec (.partnerRemove o ops) s =
    .next (s.onDev fun _ => (s.here.command 0x0504 o ops (·.partnerRemove ops)).kick) := next_onDev_eq rfl

theorem epochCommit_command (s : State) (o : Origin) (ops : Bytes) : exec (.epochCommit o ops) s =
    .next (s.onDev fun _ => (s.here.command 0x0505 o ops (·.epochCommit ops)).kick) := next_onDev_eq rfl

/-- Settles O36: the commands of rounds by their checks, accessions by their states. -/
theorem rounds : Obligations.Rounds := by
  refine ⟨fun s o ops j c rc hat hj hc hw hcfg hrj hz hopen => ?loan, fun s o ops => ⟨fun hat d1 st r h => ?_, fun hat d1 c need h => ⟨fun hq => ?_, fun hq => ?_⟩,
      fun hat hz c hcfg hj hex => ?roundOpen, fun hat hz => ⟨fun hlo hu => ?_, fun h => ?_⟩, fun hat h2 hz hz' => ⟨fun h => ?_, fun h hnext hown => ?epoch⟩⟩,
    fun s j c r rc k x d1 d2 es mine dom hc hr hrc hj hw hk hx hst hdom hes hmine hranges hrun => ?apply,
    fun s j c k x hc hj hx hk ho hsent henc hst => ?gather, fun s j acc c x hc hj hx ha hst => ?deadline⟩
  case loan =>
    have hdo : s.here.pseDo j 0x0506 o ops = s.here.loanSend j c o ops := Dev.pseDo_loan hc
    refine ⟨fun h => ?_, fun hlo hu d1 es d2 mine ht hm he => ?_⟩
    · exact next_onDev_congr (pse_now hat hj hw (hdo.trans (Dev.loanSend_noSlot (d := s.here) hcfg hrj hz hopen h)) (by decide))
    · have henc := hdo.trans (Dev.loanSend_encodes (d := s.here) (o := o) hcfg hrj hz hopen hlo hu ht hm he)
      refine ⟨fun hnil => ?_, fun hne => ?_⟩
      · exact next_onDev_congr (pse_later hat hj hw (henc.trans (if_pos (by rw [hnil]; rfl))) rfl)
      · exact next_onDev_congr (pse_unit hat hj hw (henc.trans (if_neg (by simpa using hne))))
  case roundOpen =>
    rw [roundOpen_command]
    refine ⟨fun hs hopen => ?_, fun hs hopen => ?_, fun hs hopen hopening hjoin hstep hseal => ⟨fun hrun hn => ?_, fun h => ?_⟩⟩
    · exact next_onDev_congr (command_now hat ((Dev.roundOpen_stops (d := s.here) hz hcfg hj hex hs).trans (if_pos hopen)))
    · exact next_onDev_congr (command_now hat ((Dev.roundOpen_stops (d := s.here) hz hcfg hj hex hs).trans (if_neg (ne_true_of_eq_false hopen))))
    · refine next_onDev_congr (command_now hat ((Dev.roundOpen_opens (d := s.here) hz hcfg hj hex hs hopen hopening hjoin hstep hseal rfl).trans ?_))
      rw [if_pos ⟨Option.isNone_iff_eq_none.mpr hrun, hn⟩]
    · refine next_onDev_congr (command_now hat ((Dev.roundOpen_opens (d := s.here) hz hcfg hj hex hs hopen hopening hjoin hstep hseal rfl).trans ?_))
      rw [if_neg fun hc => h.elim (fun h => h (Option.isNone_iff_eq_none.mp hc.1)) (fun h => h hc.2)]
  case epoch =>
    rw [epochCommit_command]
    refine ⟨Dev.pendEpoch ops, fun d => rfl, fun hopen => ?_, fun hopen => ?_⟩
    · exact next_onDev_congr (congrArg Dev.kick (command_now hat ((Dev.epochCommit_takes (d := s.here) h2 hz hz' h hnext hown).trans
        (Prod.ext (if_pos hopen) rfl))))
    · exact next_onDev_congr (congrArg Dev.kick (command_now hat ((Dev.epochCommit_takes (d := s.here) h2 hz hz' h hnext hown).trans
        (Prod.ext (if_neg (ne_true_of_eq_false hopen)) rfl))))
  case apply =>
    subst hdom
    exact ⟨_, rfl, next_onDev_eq (congrArg (fun d : Dev => (d.pseDrain j).kick)
      (Dev.applyBoundary_applies (d := s.here) hc hr hrc hj hw hk hx hst hes hmine hranges hrun rfl))⟩
  case gather =>
    subst hj
    exact next_onDev_congr (congrArg Dev.kick (Dev.ownPackageGather_alone (d := s.here) hc hk hx ho hsent henc hst))
  case deadline =>
    exact next_due _ (Dev.decisionDue_of hc hj hx ha hst) rfl
  · rw [roundConfig_command]
    exact next_onDev_eq (command_now hat (Dev.roundConfig_refused (d := s.here) h))
  · rw [roundConfig_command]
    exact next_onDev_eq (command_now hat ((Dev.roundConfig_passes (d := s.here) h).trans (if_pos hq)))
  · rw [roundConfig_command]
    exact next_onDev_eq (command_now hat ((Dev.roundConfig_passes (d := s.here) h).trans (if_neg (ne_true_of_eq_false hq))))
  · rw [partnerRemove_command]
    exact next_onDev_congr (congrArg Dev.kick (command_now hat (Dev.partnerRemove_removes (d := s.here) hz hlo hu)))
  · rw [partnerRemove_command]
    exact next_onDev_congr (congrArg Dev.kick (command_now hat (Dev.partnerRemove_none (d := s.here) hz h)))
  · rw [epochCommit_command]
    exact next_onDev_congr (congrArg Dev.kick (command_now hat (Dev.epochCommit_pending (d := s.here) h2 hz hz' h)))

end Sys2Proof.Machine
end


section
/-! PROOFS. The commands of the parameter state engine: PSE_CONFIG and NORM_GUARD_CFG (R359, R360, R368), STEP_UPDATE (R361 to R365), SEAL, OUTER_APPLY,
ROLLOUT_COPY and DIGEST (R381 to R384). -/

namespace Sys2Proof.Machine

/-! ## A command that must wait (R386) -/

/-- It joins the job's queue. -/
theorem pse_waits {s : State} {o : Origin} {ops : Bytes} {j opc : Nat} (h : AtHead s o opc ops) (hj : j = s.dev.jobOf o)
    (hw : (s.dev.pseUnit j).mustWait (s.dev.ckHolds j) (s.dev.pseBusy j) opc = true) : s.here.pseRun opc o ops =
    pseAfter ((s.here.onPse j (fun u => { u with queue := u.queue ++ [(o, opc, ops)] })).toUnit (s.here.pseCovers j opc ops)) j := by
  unfold Dev.pseRun
  rw [command_unit h (d := s.here.onPse j (fun u => { u with queue := u.queue ++ [(o, opc, ops)] })) (rs := s.here.pseCovers j opc ops), State.here_jobOf, hj]
  · rfl
  · unfold Dev.pseCommand
    simp only [State.here_jobOf, State.here_pseUnit, State.here_ckHolds, State.here_pseBusy, ← hj, hw, if_true]

/-! ## PSE_CONFIG and NORM_GUARD_CFG -/

section Config

variable {d : Dev} {j : Nat} {ops : Bytes} {c : PseJob}

theorem Dev.pseConfig_invalid (h : readPseCfg ops = none) : d.pseConfig j ops = (d, errR 0x0107) := by
  unfold Dev.pseConfig
  rw [h]

section Job

variable {job : Job} (hc : readPseCfg ops = some c) (hjob : d.job j = some job)
include hc hjob

theorem Dev.pseConfig_taken (hs : job.seed = none ∨ job.seed = some c.seed) {d1 : Dev} {es : List PEnt}
    (ht : d.pseTable c job.domain (fun _ => true) = (d1, .ok es)) :
    d.pseConfig j ops = (((d1.setJob j (some { job with seed := some c.seed })).onPse j (fun u => { u with cfg := some c })).pseReport j, okU []) := by
  have hgo : ¬ (match job.seed with | some s => s != c.seed | none => false) = true := by rcases hs with h | h <;> simp [h]
  unfold Dev.pseConfig
  rw [hc, hjob]
  dsimp only
  rw [ht]
  exact if_neg hgo

theorem Dev.pseConfig_otherSeed {x : Nat} (hs : job.seed = some x) (hx : x ≠ c.seed) : d.pseConfig j ops = (d, errR 0x0281) := by
  unfold Dev.pseConfig
  rw [hc, hjob]
  dsimp only
  rw [hs]
  exact if_pos (bne_iff_ne.mpr hx)

end Job

theorem Dev.guardConfig_taken (hr : f32Pos (le ops 0 4) = true) (hr' : f32Zero (le ops 0 4) = true ∨ 0x3F800000 ≤ le ops 0 4) (hm : 1 ≤ le ops 6 2)
    (hmw : le ops 6 2 ≤ le ops 4 2) (hw : le ops 4 2 ≤ 1024) (hclip : f32Pos (le ops 8 4) = true) (hx : le ops 12 1 ≤ 1) (hz : zeroBytes ops 13 35 = true)
    (hp : (d.pseUnit j).pending = none) : d.guardConfig j ops = ((d.onPse j (fun u => { u with
      pending := some (le ops 0 4, le ops 4 2, le ops 6 2, le ops 8 4, le ops 12 1 == 1) })).pseReport j, okU []) := by
  unfold Dev.guardConfig
  dsimp only
  rw [if_pos ⟨hr, hr', Nat.le_trans hm hmw, hw, hm, hmw, hclip, hx, hz⟩, hp]
  dsimp only
  rw [Bool.or_false]

end Config

/-! ## STEP_UPDATE -/

/-- The step of a job that is due. -/
def Dev.stepDue (d : Dev) (j : Nat) (job : Job) : Nat := match (d.pseUnit j).last with
  | some l => stepAfter l
  | none => job.firstStep

section Step

variable {d : Dev} {j : Nat} {ops : Bytes} {c : PseJob} {job : Job} (hjob : d.job j = some job) (hops : stepOps ops = true)
  (hg : d.get (CFI.GROUP_STATE.STATE (le ops 24 2)) = gsACTIVE)
include hjob

theorem Dev.stepDue_eq : (match (d.pseUnit j).last, d.job j with
    | some l, _ => stepAfter l
    | none, some x => x.firstStep
    | none, none => 0) = d.stepDue j job := by
  unfold Dev.stepDue
  rw [hjob]
  cases (d.pseUnit j).last <;> rfl

include hops hg

theorem Dev.stepStart_outOfOrder (hn : le ops 0 8 ≠ d.stepDue j job) : d.stepStart j c ops = (d, some (errR 0x0283)) := by
  unfold Dev.stepStart
  dsimp only
  rw [if_neg (by rw [hops]; decide), if_neg (not_not_intro hg)]
  exact if_pos (by rwa [← Dev.stepDue_eq hjob] at hn)

theorem Dev.stepStart_due (hn : le ops 0 8 = d.stepDue j job) {d1 d2 d3 d4 : Dev} {es : List PEnt} {tb : Bytes} {acc bad : Nat}
    (ht : d.pseTable c job.domain (fun _ => true) = (d1, .ok es))
    (hr : d1.pseRanges job.domain (es.flatMap (stepCopies c (le ops 0 8)) ++ d1.boundaryCopies j c (le ops 0 8) es) [] = (d2, none))
    (hf : d2.fetch (d2.pseAny c.table 1 job.domain) c.table (128 * c.entries) = (d3, .ok tb))
    (hnorm : Dev.normPass job.domain (d3.onPse j (·.takeGuard)) (es.filter (·.norm)) = (d4, .ok (acc, bad))) : d.stepStart j c ops =
    ((((d4.onPse j (fun u => { u with run := some ⟨ops, tb, le ops 24 2, 0, false⟩, phase := 2 })).collAdd (le ops 24 2)
      { Coll.fresh (.normReduce j) ocRS 2 fcEX48 fcEX48 0 0 12 job.domain d4.now with limbs := limbsOf acc bad }).collAdd (le ops 24 2)
      { Coll.fresh (.normGather j) ocAG 0 fcEX48 fcEX48 0 0 72 job.domain d4.now with limbs := limbsOf acc bad }).pseReport j, none) := by
  have hdom : d.domOf j = job.domain := by
    unfold Dev.domOf
    rw [hjob]
  unfold Dev.stepStart
  dsimp only
  rw [if_neg (by rw [hops]; decide), if_neg (not_not_intro hg), hdom, ht]
  dsimp only
  rw [hr]
  dsimp only
  rw [hf]
  dsimp only
  rw [hnorm]
  exact if_neg (by rw [← Dev.stepDue_eq hjob] at hn; exact not_not_intro hn)

end Step

/-! ## SEAL and OUTER_APPLY -/

section HostOuter

variable {d : Dev} {j : Nat} {ops : Bytes} {c : PseJob}

theorem Dev.pseSeal_notHost (h : c.hostOuter = false) : d.pseSeal j c ops = (d, errR 0x0285) := if_pos (by rw [h]; rfl)

theorem Dev.pseOuter_notHost (h : c.hostOuter = false) : d.pseOuter j c ops = (d, errR 0x0285) := if_pos (by rw [h]; rfl)

theorem Dev.pseSeal_runs (h : c.hostOuter = true) (hz : zeroBytes ops 4 44 = true) {d1 d2 d3 : Dev} {all es : List PEnt}
    (ht : d.pseTable c (d.domOf j) (·.round) = (d1, .ok all)) (hes : es = all.filter (·.round))
    (hr : d1.pseRanges (d.domOf j) (es.flatMap (sealCopies true)) [] = (d2, none))
    (hrun : Dev.entriesRun (fun d' e => d'.entryRun e (fun d' lo m => d'.sealRun (d.domOf j) true e lo m)) d2 es = (d3, none)) : d.pseSeal j c ops =
    ((d3.onPse j (fun u => { u with sealedAcc := some (le ops 0 4), hostSeal := some (le ops 0 4), phase := 4 })).pseReport j, okR (le ops 0 4)) := by
  subst hes
  unfold Dev.pseSeal
  dsimp only
  rw [if_neg (by rw [h]; decide), if_neg (by rw [hz]; decide), ht]
  dsimp only
  rw [hr]
  dsimp only
  rw [hrun]

section Outer

variable (h : c.hostOuter = true) (h4 : le ops 4 1 ≤ 1) (h5 : le ops 5 1 ≤ 1) (hz : zeroBytes ops 6 2 = true) (hz' : zeroBytes ops 16 32 = true)
include h h4 h5 hz hz'

theorem Dev.pseOuter_notSealed (hs : (d.pseUnit j).hostSeal ≠ some (le ops 0 4) ∨ le ops 0 4 ∈ (d.pseUnit j).appliedAccs) :
    d.pseOuter j c ops = (d, errR 0x0283) :=
  (if_neg (by rw [h]; decide)).trans ((if_neg (by simp [hz, hz']; omega)).trans (if_pos (by simpa using hs)))

/-- The elements of the entries before one: where its part of the buffer begins. -/
def outerPlace (es : List PEnt) (e : PEnt) : Nat := (es.filter (fun x => decide (x.ix < e.ix))).foldl (fun a x => a + x.count) 0

/-- The part of the buffer that an entry's elements are given by: a difference or an anchor. -/
def outerPart (es : List PEnt) (ops b : Bytes) (e : PEnt) (lo m : Nat) : OuterIn :=
  let vs := ((fmtValues (le ops 5 1) (es.foldl (fun a e => a + e.count) 0) b).drop (outerPlace es e + lo)).take m
  if le ops 4 1 = 0 then OuterIn.delta vs else OuterIn.anchor vs

theorem Dev.pseOuter_runs (hs : (d.pseUnit j).hostSeal = some (le ops 0 4)) (ha : le ops 0 4 ∉ (d.pseUnit j).appliedAccs) {d1 d2 d3 d4 : Dev}
    {all es : List PEnt} {b : Bytes} {buffer : List (Acc × Nat × Nat)} (ht : d.pseTable c (d.domOf j) (·.round) = (d1, .ok all)) (hes : es = all.filter (·.round))
    (hb : buffer = es.flatMap (fun e => d1.sliceRanges 1 (d.domOf j) e (le ops 8 8 + elemBits (le ops 5 1) / 8 * outerPlace es e)
      (elemBits (le ops 5 1) / 8 * ·) 0 e.count))
    (hr : d1.pseRanges (d.domOf j) (es.flatMap (outerCopies (le ops 4 1 == 1) (!f32Zero c.betaO))) buffer = (d2, none))
    (hf : d2.fetchAll buffer = (d3, .ok b))
    (hrun : Dev.entriesRun (fun d' e => d'.entryRun e (fun d' lo m => d'.outerRun c (d.domOf j) ((d.pseUnit j).last.getD 0) (outerPart es ops b e) e lo m)) d3 es =
      (d4, none)) : d.pseOuter j c ops = ((d4.onPse j (fun u => { u with appliedAccs := le ops 0 4 :: u.appliedAccs, applied := le ops 0 4, held := false, phase := 5 })).pseReport j,
        okR (le ops 0 4)) := by
  subst hes hb
  have hgo : ¬ ((d.pseUnit j).hostSeal ≠ some (le ops 0 4) ∨ (d.pseUnit j).appliedAccs.contains (le ops 0 4) = true) := by
    simpa using ⟨hs, ha⟩
  unfold outerPlace at hr hf
  unfold outerPart outerPlace at hrun
  unfold Dev.pseOuter
  dsimp only
  rw [if_neg (by rw [h]; decide), if_neg (by simp [hz, hz']; omega), if_neg hgo, ht]
  dsimp only
  rw [hr]
  dsimp only
  rw [hf]
  dsimp only
  rw [hrun]

end Outer

end HostOuter

/-! ## ROLLOUT_COPY and DIGEST -/

section Copies

variable {d d1 d2 d3 : Dev} {j : Nat} {ops : Bytes} {c : PseJob} {all es : List PEnt}

theorem Dev.pseRollout_runs (hz : zeroBytes ops 0 48 = true) (ht : d.pseTable c (d.domOf j) (·.rollout) = (d1, .ok all)) (hes : es = all.filter (·.rollout))
    (hr : d1.pseRanges (d.domOf j) (es.flatMap (fun e => [(e, cWEIGHT, 1), (e, cROLL, 2)])) [] = (d2, none))
    (hrun : Dev.entriesRun (fun d' e => d'.entryRun e (fun d' lo m => d'.rolloutRun (d.domOf j) e lo m)) d2 es = (d3, none)) :
    d.pseRollout j c ops = ((d3.psePhase j 8).pseReport j, okU []) := by
  subst hes
  unfold Dev.pseRollout
  dsimp only
  rw [if_neg (by rw [hz]; decide), ht]
  dsimp only
  rw [hr]
  dsimp only
  rw [hrun]

theorem Dev.pseDigest_runs (h8 : le ops 8 1 ≤ 7) (h9 : le ops 9 1 ≤ 1) (hz : zeroBytes ops 10 38 = true) (hn : le ops 0 4 + le ops 4 4 ≤ c.entries)
    {a b m : Nat} (ht : d.pseTable c (d.domOf j) (fun e => decide (le ops 0 4 ≤ e.ix ∧ e.ix < le ops 0 4 + le ops 4 4)) = (d1, .ok all))
    (hes : es = ((all.drop (le ops 0 4)).take (le ops 4 4)).filter (fun e => e.keeps c (ckptCopy (le ops 8 1))))
    (hr : d1.pseRanges (d.domOf j) (es.map (fun e => (e, ckptCopy (le ops 8 1), 1))) [] = (d2, none))
    (hrun : Dev.digestRun (d.domOf j) (ckptCopy (le ops 8 1)) (le ops 9 1 == 1) d2 es = (d3, .ok (a, b, m))) :
    d.pseDigest j c ops = ((d3.psePhase j 9).pseReport j, okI a (leBytes 8 a ++ leBytes 8 b ++ leBytes 8 m ++ zeros 8)) := by
  subst hes
  unfold Dev.pseDigest
  dsimp only
  rw [if_neg (by simp [hz]; omega), ht]
  dsimp only
  rw [hr]
  dsimp only
  rw [hrun]

end Copies

end Sys2Proof.Machine
end


section
/-! PROOFS. The commands of the parameter state engine as rows (R359 to R387). -/

namespace Sys2Proof.Machine

/-- The rows of PSE commands run by opcode in their job's order. -/
theorem pseRows_exec {o : Origin} {ops : Bytes} {c : Instr} {opc : Nat} (s : State)
    (h : (c, opc) ∈ [(Instr.pseConfig o ops, 0x0401), (.stepUpdate o ops, 0x0402), (.normGuardCfg o ops, 0x0403), (.sealCmd o ops, 0x0404),
      (.outerApply o ops, 0x0405), (.rolloutCopy o ops, 0x0406), (.digest o ops, 0x0407), (.loanCopySend o ops, 0x0506)]) :
    exec c s = .next (s.onDev (·.pseRun opc o ops)) := by
  simp only [List.mem_cons, Prod.mk.injEq, List.not_mem_nil, or_false] at h
  rcases h with ⟨rfl, rfl⟩ | ⟨rfl, rfl⟩ | ⟨rfl, rfl⟩ | ⟨rfl, rfl⟩ | ⟨rfl, rfl⟩ | ⟨rfl, rfl⟩ | ⟨rfl, rfl⟩ | ⟨rfl, rfl⟩ <;> rfl

/-- Settles O35: each command by its first check that fails, else entry by entry. -/
theorem pseCommands : Obligations.PseCommands := by
  refine ⟨fun s o ops j c opc hc hat hj hw => ?wait, ⟨fun s o ops j c job hat hj hw hc hjob => ⟨fun hs d1 es ht => ?taken, fun x hs hx => ?otherSeed⟩,
      fun s o ops j hat hj hw hc => ?invalid,
      fun s o ops j c hat hj hw hc ratio w m clip x hratio hwe hme hce hxe hr hr' hm hmw hw' hclip hx hz hp => ?guard⟩,
    fun s o ops j c hat hj hw hc hops hg job hjob => ?step, fun s o ops j c hj hc opc hw hat => ?copies⟩
  case wait =>
    rw [pseRows_exec s hc]
    exact next_onDev_congr (pse_waits hat hj hw)
  case taken =>
    have hdo := (Dev.pseDo_config (d := s.here) (j := j) (o := o) (ops := ops)).trans (congrArg (fun x : Dev × Result => (x.1, some x.2)) (Dev.pseConfig_taken (d := s.here) hc hjob hs ht))
    exact next_onDev_congr (pse_later hat hj hw hdo rfl)
  case otherSeed =>
    have hdo := (Dev.pseDo_config (d := s.here) (j := j) (o := o) (ops := ops)).trans (congrArg (fun x : Dev × Result => (x.1, some x.2)) (Dev.pseConfig_otherSeed (d := s.here) hc hjob hs hx))
    exact next_onDev_congr (pse_now hat hj hw hdo (by decide))
  case invalid =>
    have hdo := (Dev.pseDo_config (d := s.here) (j := j) (o := o) (ops := ops)).trans (congrArg (fun x : Dev × Result => (x.1, some x.2)) (Dev.pseConfig_invalid (d := s.here) (j := j) hc))
    exact next_onDev_congr (pse_now hat hj hw hdo (by decide))
  case guard =>
    subst hratio hwe hme hce hxe
    have hdo := (Dev.pseDo_guard (d := s.here) (o := o) hc).trans (congrArg (fun x : Dev × Result => (x.1, some x.2))
      (Dev.guardConfig_taken (d := s.here) hr hr' hm hmw hw' hclip hx hz hp))
    exact next_onDev_congr (pse_later hat hj hw hdo rfl)
  case step =>
    have hdo : s.here.pseDo j 0x0402 o ops = s.here.stepStart j c ops := Dev.pseDo_step hc
    refine ⟨fun hn => ?_, fun hn d1 d2 d3 d4 es tb acc bad ht hr hf hnorm => ?_⟩
    · exact next_onDev_congr (pse_now hat hj hw (hdo.trans (Dev.stepStart_outOfOrder (d := s.here) hjob hops hg hn)) (by decide))
    · exact next_onDev_congr (pse_unit hat hj hw (hdo.trans (Dev.stepStart_due (d := s.here) hjob hops hg hn ht hr hf hnorm)))
  case copies =>
    have hc' : (s.here.pseUnit j).cfg = some c := hc
    refine ⟨fun ho h => ?_, fun ho h => ?_, fun ho h hz d1 d2 d3 all es ht hes hr hrun => ?_, fun ho h h4 h5 hz hz' hs => ?_,
      fun ho h h4 h5 hz hz' hs ha d1 d2 d3 d4 all es b total input place buffer ht hes htotal hplace hb hr hf hinput hrun => ?_,
      fun ho hz d1 d2 d3 all es ht hes hr hrun => ?_, fun ho h8 h9 hz hn d1 d2 d3 all es a b m ht hes hr hrun => ?_⟩ <;> subst ho
    · have hdo := (Dev.pseDo_seal (o := o) (ops := ops) hc').trans (congrArg (fun x : Dev × Result => (x.1, some x.2)) (Dev.pseSeal_notHost (d := s.here) h))
      exact next_onDev_congr (pse_now hat hj hw hdo (by decide))
    · have hdo := (Dev.pseDo_outer (o := o) (ops := ops) hc').trans (congrArg (fun x : Dev × Result => (x.1, some x.2)) (Dev.pseOuter_notHost (d := s.here) h))
      exact next_onDev_congr (pse_now hat hj hw hdo (by decide))
    · have hdo := (Dev.pseDo_seal (o := o) hc').trans (congrArg (fun x : Dev × Result => (x.1, some x.2))
        (Dev.pseSeal_runs (d := s.here) h hz ht hes hr hrun))
      exact next_onDev_congr (pse_later hat hj hw hdo rfl)
    · have hdo := (Dev.pseDo_outer (o := o) hc').trans (congrArg (fun x : Dev × Result => (x.1, some x.2))
        (Dev.pseOuter_notSealed (d := s.here) (c := c) h h4 h5 hz hz' hs))
      exact next_onDev_congr (pse_now hat hj hw hdo (by decide))
    · subst htotal hplace hinput
      have hdo := (Dev.pseDo_outer (o := o) hc').trans (congrArg (fun x : Dev × Result => (x.1, some x.2))
        (Dev.pseOuter_runs (d := s.here) h h4 h5 hz hz' hs ha ht hes hb hr hf hrun))
      exact next_onDev_congr (pse_later hat hj hw hdo rfl)
    · have hdo := (Dev.pseDo_rollout (o := o) hc').trans (congrArg (fun x : Dev × Result => (x.1, some x.2))
        (Dev.pseRollout_runs (d := s.here) hz ht hes hr hrun))
      exact next_onDev_congr (pse_later hat hj hw hdo rfl)
    · have hdo := (Dev.pseDo_digest (o := o) hc').trans (congrArg (fun x : Dev × Result => (x.1, some x.2))
        (Dev.pseDigest_runs (d := s.here) h8 h9 hz hn ht hes hr hrun))
      exact next_onDev_congr (pse_later hat hj hw hdo rfl)

end Sys2Proof.Machine
end


section
/-! PROOFS. Storage targets, the start of checkpoint commands and what reaches a queue pair (R423, R424, R541 to R560). -/

namespace Sys2Proof.Machine

/-! ## Storage targets -/

section TargetAdd

variable {d : Dev} {ops : Bytes}

theorem Dev.targetAdd_range (h : 16 ≤ le ops 0 1 ∨ 1 < le ops 1 1) : d.targetAdd ops = (d, errR 0x0291) := by
  unfold Dev.targetAdd
  exact if_pos h

theorem Dev.targetAdd_removed (ht : le ops 0 1 < 16) (ha : le ops 1 1 = 1) (hu : d.targetUsed (le ops 0 1) = true)
    (hb : d.targetBusy (le ops 0 1) = false) : d.targetAdd ops = (d.targetRemove (le ops 0 1), okU []) := by
  unfold Dev.targetAdd
  exact (if_neg (by omega)).trans ((if_pos ha).trans (if_neg (by simp [hu, hb])))

theorem Dev.targetAdd_notRemoved (ht : le ops 0 1 < 16) (ha : le ops 1 1 = 1)
    (h : d.targetUsed (le ops 0 1) = false ∨ d.targetBusy (le ops 0 1) = true) : d.targetAdd ops = (d, errR 0x0291) := by
  unfold Dev.targetAdd
  exact (if_neg (by omega)).trans ((if_pos ha).trans (if_pos (by simpa using h)))

theorem Dev.targetAdd_notAdded (ht : le ops 0 1 < 16) (ha : le ops 1 1 = 0)
    (h : d.targetUsed (le ops 0 1) = true ∨ targetOk ops = false ∨ d.freeQps (le ops 2 1) = none) : d.targetAdd ops = (d, errR 0x0291) := by
  unfold Dev.targetAdd
  refine (if_neg (by omega)).trans ((if_neg (by omega)).trans ?_)
  by_cases hbad : d.targetUsed (le ops 0 1) = true ∨ (!targetOk ops) = true
  · exact if_pos hbad
  · refine (if_neg hbad).trans ?_
    have hnone : d.freeQps (le ops 2 1) = none := by
      rcases h with hu | hok | hn
      · exact absurd (.inl hu) hbad
      · exact absurd (.inr (by simp [hok])) hbad
      · exact hn
    simp only [hnone]

/-- A target's queue pairs, server, window and state as STORAGE_TARGET_ADD sets them from queue pair `q` on (R541). -/
def Dev.targetTaken (d : Dev) (ops : Bytes) (q psn : Nat) : Dev :=
  let d := { d with draws := d.draws + 1 }.each (List.range (le ops 2 1)) (fun d i => d.setQp (q + i) { qpDflt 0 with
    target := le ops 0 1 + 1, remote := le ops (48 + 4 * i) 4, psn := psn })
  let d := { d with ckpt.servers := smapSet zeroDflt d.ckpt.servers (le ops 0 1) (le ops 24 16) }
  ((((d.set (CFI.STORE_STATE.FIRST_QP (le ops 0 1)) q).set (CFI.STORE_STATE.QP_COUNT (le ops 0 1)) (le ops 2 1)).set
    (CFI.STORE_STATE.STATE (le ops 0 1)) 1).set (CFI.STORE_RKEY.RKEY (le ops 0 1)) (le ops 4 4)).set2 (CFI.STORE_BASE_LO.ADDR (le ops 0 1))
    (CFI.STORE_BASE_HI.ADDR (le ops 0 1)) (le ops 8 8) |>.set2 (CFI.STORE_LEN_LO.BYTES (le ops 0 1)) (CFI.STORE_LEN_HI.BYTES (le ops 0 1)) (le ops 16 8)

theorem Dev.targetAdd_added (ht : le ops 0 1 < 16) (ha : le ops 1 1 = 0) (hu : d.targetUsed (le ops 0 1) = false) (hok : targetOk ops = true)
    {q : Nat} (hq : d.freeQps (le ops 2 1) = some q) :
    d.targetAdd ops = (d.targetTaken ops q (Config.free d.draws % 2 ^ 24), okR (0x100 + q + Config.free d.draws % 2 ^ 24 * 2 ^ 24)) := by
  unfold Dev.targetAdd
  refine (if_neg (by omega)).trans ((if_neg (by omega)).trans ((if_neg (by simp [hu, hok])).trans ?_))
  simp only [hq]
  rfl

end TargetAdd

/-! ## Checkpoint commands -/

/-- A checkpoint command's run at its start: nothing read, written or staged yet. -/
def Dev.ckFresh (d : Dev) (j opc : Nat) (o : Origin) (ops : Bytes) (target base len : Nat) (sources : List (Nat × Nat)) : CkRun :=
  { id := d.ckpt.nextRun, org := o, ops := ops, opcode := opc, job := j, stage := 0, target := target, base := base, len := len, src := none,
    sources := sources, at_ := 0, recs := [], step := 0, tasks := [], table := [], piece := 0, inb := [], moved := 0, err := none }

section CkptStart

variable {d : Dev} {j : Nat} {o : Origin} {ops : Bytes} {c : PseJob} {opc : Nat}

theorem Dev.ckWriteStart_operands (h : ckWriteOps (opc == 0x0704) ops = false) : d.ckWriteStart j c opc o ops = (d, some (errR 0x0107)) := by
  unfold Dev.ckWriteStart
  exact if_pos (by rw [h]; rfl)

theorem Dev.ckWriteStart_noTarget (h : ckWriteOps (opc == 0x0704) ops = true) (hl : (le ops 1 1).testBit 1 = false)
    (ht : d.targetReady (le ops 0 1) = false) : d.ckWriteStart j c opc o ops = (d, some (errR 0x0298)) := by
  unfold Dev.ckWriteStart
  exact (if_neg (by rw [h]; decide)).trans (if_pos (by simp [bit, hl, ht]))

section Unstaged

variable {d1 d2 : Dev} {es : List PEnt} {rs : List (Nat × PEnt × Nat × Nat)} {len : Nat} (h : ckWriteOps (opc == 0x0704) ops = true)
  (h0 : (le ops 1 1).testBit 0 = false) (h1 : (le ops 1 1).testBit 1 = false) (ht : d.targetReady (le ops 0 1) = true)
  (htable : d.pseTable c (d.domOf j) (fun e => !(ckRecords c (le ops 6 2) (le ops 2 2) (le ops 4 2) [e]).isEmpty) = (d1, .ok es))
  (hrs : rs = ckRecords c (le ops 6 2) (le ops 2 2) (le ops 4 2) es) (hlen : len = (ckLayout (256 + 128 * (ckSizes rs).length) (ckSizes rs)).2)
include h ht htable hrs hlen

include h1 in
theorem Dev.ckWriteStart_tooLong (hfit : d1.targetLen (le ops 0 1) < le ops 16 8 + len) :
    d.ckWriteStart j c opc o ops = (d1, some (errA 0x0292 len)) := by
  subst hrs hlen
  unfold Dev.ckWriteStart
  refine (if_neg (by rw [h]; decide)).trans ((if_neg (by simp [ht])).trans ?_)
  simp only [htable]
  exact if_pos ⟨by simp [bit, h1], hfit⟩

include h0 in
/-- An unstaged write begins its run and puts 256 zero bytes where its header will stand (R552). -/
theorem Dev.ckWriteStart_begins (hfit : le ops 16 8 + len ≤ d1.targetLen (le ops 0 1))
    (hranges : d1.pseRanges (d.domOf j) [] (rs.flatMap (fun (x, e, lo, hi) => d1.copyRanges 1 (d.domOf j) e (ckptCopy x) (lo - e.first) (hi - lo))) = (d2, none)) :
    ∃ run : CkRun, run.org = o ∧ run.ops = ops ∧ run.target = le ops 0 1 ∧ run.base = le ops 16 8 ∧ run.len = len ∧ run.job = j ∧
      d.ckWriteStart j c opc o ops = ((d2.ckBegin run).ckPut run 0 0 256 (.bytes (zeros 256)), none) := by
  subst hrs hlen
  refine ⟨d2.ckFresh j opc o ops (le ops 0 1) (le ops 16 8) (ckLayout (256 + 128 * (ckSizes (ckRecords c (le ops 6 2) (le ops 2 2) (le ops 4 2) es)).length)
    (ckSizes (ckRecords c (le ops 6 2) (le ops 2 2) (le ops 4 2) es))).2 [], rfl, rfl, rfl, rfl, rfl, rfl, ?_⟩
  unfold Dev.ckWriteStart
  refine (if_neg (by rw [h]; decide)).trans ((if_neg (by simp [ht])).trans ?_)
  simp only [htable]
  refine (if_neg (fun hx => Nat.not_lt.mpr hfit hx.2)).trans ((if_neg (by simp [bit, h0])).trans ?_)
  simp only [bit, h0, Bool.false_eq_true, if_false, List.append_nil, hranges]
  exact if_pos rfl

end Unstaged

theorem Dev.ckReadStart_notConfigured (h : (d.pseUnit j).cfg = none) : d.ckReadStart j o ops = (d, some (errR 0x0290)) := by
  unfold Dev.ckReadStart
  simp only [h]

theorem Dev.ckReadStart_begins {d1 d2 : Dev} {es : List PEnt} {b : Bytes} {ss : List (Nat × Nat)} (hc : (d.pseUnit j).cfg = some c)
    (hp : d.jobRuns j = false) (hr : d.jobRound j = false) (hn : 1 ≤ le ops 8 4) (hn' : le ops 8 4 ≤ 65536) (hm : (le ops 12 2 &&& 0xFE40) = 0)
    (hv : le ops 14 1 ≤ 1) (hz : zeroBytes ops 15 1 = true) (hz' : zeroBytes ops 24 24 = true)
    (ht : d.pseTable c (d.domOf j) (fun e => !(ckWanted c (le ops 12 2) [e]).isEmpty) = (d1, .ok es))
    (hf : d1.fetch (d1.cfiAcc (le ops 0 8) 1 (d.domOf j)) (le ops 0 8) (16 * le ops 8 4) = (d2, .ok b))
    (hs : d2.ckSources b (le ops 8 4) 0 = .ok ss) : ∃ run : CkRun, run.org = o ∧ run.ops = ops ∧ run.sources = ss ∧ run.job = j ∧
      d.ckReadStart j o ops = ((d2.ckBegin run).ckGet run 0 0 256, none) := by
  refine ⟨d2.ckFresh j 0x0702 o ops 0 0 0 ss, rfl, rfl, rfl, rfl, ?_⟩
  unfold Dev.ckReadStart
  simp only [hc]
  refine (if_neg (by simp [hp, hr])).trans ((if_neg (by simp [hn, hn', hm, hv, hz, hz'])).trans ?_)
  simp only [ht, hf, hs]
  rfl

end CkptStart

/-- The rows of checkpoint commands run by opcode in their job's order. -/
theorem ckRows_exec {o : Origin} {ops : Bytes} {c : Instr} {opc : Nat} (s : State)
    (h : (c, opc) ∈ [(Instr.ckptWrite o ops, 0x0701), (.ckptRead o ops, 0x0702), (.snapshot o ops, 0x0704)]) :
    exec c s = .next (s.onDev (·.ckRun opc o ops)) := by
  simp only [List.mem_cons, Prod.mk.injEq, List.not_mem_nil, or_false] at h
  rcases h with ⟨rfl, rfl⟩ | ⟨rfl, rfl⟩ | ⟨rfl, rfl⟩ <;> rfl

/-- CKPT_WRITE and SNAPSHOT start alike (R549, R555). -/
theorem Dev.pseDo_ckWrite {d : Dev} {j opc : Nat} {o : Origin} {ops : Bytes} {c : PseJob} (hc : (d.pseUnit j).cfg = some c)
    (h : opc = 0x0701 ∨ opc = 0x0704) : d.pseDo j opc o ops = d.ckWriteStart j c opc o ops := by
  rcases h with rfl | rfl
  · exact Dev.pseDo_write hc
  · exact Dev.pseDo_snapshot hc

/-- What runs in a PSE order is followed by what a storage event lets go on. -/
theorem Dev.ckRun_eq {d e : Dev} {opc j : Nat} {o : Origin} {ops : Bytes} (h : d.pseRun opc o ops = pseAfter e j) :
    d.ckRun opc o ops = storeAfter e j := congrArg Dev.storeOn h

/-! ## Queue pairs -/

theorem Dev.onQueuePair_serves {d : Dev} {q : Nat} (ht : (d.qp q).target ≠ 0) (he : (d.qp q).err = false) (f : Dev → Dev) :
    d.onQueuePair q f = (f d).storeOn := by
  unfold Dev.onQueuePair
  exact if_neg (by simp [ht, he])

theorem Dev.onQueuePair_ignores {d : Dev} {q : Nat} (h : (d.qp q).target = 0 ∨ (d.qp q).err = true) (f : Dev → Dev) : d.onQueuePair q f = d := by
  unfold Dev.onQueuePair
  exact if_pos h

theorem until_qp (s : State) (t q : Nat) : (s.until t).here.qp q = s.dev.qp q := by
  rw [State.here_qp, State.until_dev]

/-- An inbound request of a storage queue pair is received, discarded and counted (R423). -/
theorem roceInboundRequest_counted {s : State} {p : Nat} (hc : Calm s) (hup : s.dev.cellUp p = true) :
    ∃ t, exec (.roceInboundRequest p) s = .next t ∧ OnlyParts [.regs] s t ∧
      t.dev.get (CFI.PORT_DISCARDS.COUNT p) = min (2 ^ 32 - 1) (s.dev.get (CFI.PORT_DISCARDS.COUNT p) + 1) ∧
      OnlyFields [CFI.PORT_RX.COUNT p, CFI.PORT_DISCARDS.COUNT p] s t := by
  have hne : (CFI.PORT_DISCARDS.COUNT p).off ≠ (CFI.PORT_RX.COUNT p).off := by
    simp only [CFI.PORT_DISCARDS.COUNT, CFI.PORT_RX.COUNT]
    omega
  have heff : (if s.here.cellUp p then (s.here.bump (CFI.PORT_RX.COUNT p) 1).bump (CFI.PORT_DISCARDS.COUNT p) 1 else s.here) =
      (s.here.bump (CFI.PORT_RX.COUNT p) 1).bump (CFI.PORT_DISCARDS.COUNT p) 1 := if_pos hup
  refine ⟨_, congrArg Host.Outcome.next (onDev_quiet hc heff rfl rfl), onlyParts_noRegs s.clock.ns rfl, ?_, fun off i h => ?_⟩
  · exact (Dev.get_bump_word _ _ _ rfl rfl).trans (by rw [Dev.get_bump_ne _ _ _ _ hne]; rfl)
  · refine (Dev.bump_bit _ _ _ off i (Nat.zero_le _) fun ho => h (CFI.PORT_DISCARDS.COUNT p) (by simp) ho.symm).trans ?_
    exact Dev.bump_bit _ _ _ off i (Nat.zero_le _) fun ho => h (CFI.PORT_RX.COUNT p) List.mem_cons_self ho.symm

/-- Settles O39: storage targets, the start of checkpoint commands, and what reaches a queue pair. -/
theorem checkpointStorage : Obligations.CheckpointStorage := by
  refine ⟨fun s o ops t hat ht => ?targets, ⟨fun s o ops j c opc hc hat hj hw => ?wait, fun s o ops j c cfg opc hc hat hj hw hcfg => ?write,
      fun d j cfg opc o ops d1 d2 es rs hops h0 h1 ht htab hrs len hlen => ⟨?_, ?_⟩, fun s o ops j cfg hat hj hw => ?read⟩,
    fun s q ht he => ?serves, fun s q psn bs c h hc => ?ignores, fun s q => rfl, fun s p hc _ hup => roceInboundRequest_counted hc hup⟩
  case targets =>
    subst ht
    have hnow : ∀ {d : Dev} {r : Result}, s.here.targetAdd ops = (d, r) → r.status ≠ 0 → exec (.storageTargetAdd o ops) s = .next (s.onDev fun _ => d.finish o 0x0703 r) :=
      fun hr hst => next_onDev_eq (command_now hat (by rw [hr]; exact congrArg (Prod.mk _) (if_neg hst)))
    have hlater : ∀ {d : Dev} {r : Result}, s.here.targetAdd ops = (d, r) → r.status = 0 → exec (.storageTargetAdd o ops) s = .next (s.onDev fun _ => d.hold r .ready []) :=
      fun hr hst => next_onDev_eq (command_later hat (by rw [hr]; exact congrArg (Prod.mk _) (if_pos hst)))
    refine ⟨fun h => ?_, fun h ha hu hb => ?_, fun h ha hx => ?_, fun h ha hx => ?_, fun h ha hu hok q hq => ?_⟩
    · exact (hnow (Dev.targetAdd_range h) (by decide)).trans (next_onDev_congr rfl)
    · exact (hlater (Dev.targetAdd_removed (d := s.here) h ha hu hb) rfl).trans (next_onDev_congr rfl)
    · exact (hnow (Dev.targetAdd_notRemoved (d := s.here) h ha hx) (by decide)).trans (next_onDev_congr rfl)
    · exact (hnow (Dev.targetAdd_notAdded (d := s.here) h ha hx) (by decide)).trans (next_onDev_congr rfl)
    · exact ⟨_, _, Nat.mod_lt _ (by decide), rfl, _, rfl, hlater (Dev.targetAdd_added (d := s.here) h ha hu hok hq) rfl⟩
  case wait =>
    rw [ckRows_exec s hc]
    exact next_onDev_congr (Dev.ckRun_eq (pse_waits hat hj hw))
  case write =>
    have hopc : opc = 0x0701 ∨ opc = 0x0704 := by
      simp only [List.mem_cons, Prod.mk.injEq, List.not_mem_nil, or_false] at hc
      exact hc.imp And.right And.right
    have hdo := Dev.pseDo_ckWrite (d := s.here) (o := o) (ops := ops) hcfg hopc
    rw [ckRows_exec s (by simp only [List.mem_cons, List.not_mem_nil, or_false] at hc ⊢; exact hc.imp id .inr)]
    refine ⟨fun h => ?_, fun h h1 ht => ?_, fun d1 r h hr => ?_, fun d1 h => ?_⟩
    · exact next_onDev_congr (Dev.ckRun_eq (pse_now hat hj hw (hdo.trans (Dev.ckWriteStart_operands h)) (by decide)))
    · exact next_onDev_congr (Dev.ckRun_eq (pse_now hat hj hw (hdo.trans (Dev.ckWriteStart_noTarget (d := s.here) h h1 ht)) (by decide)))
    · exact next_onDev_congr (Dev.ckRun_eq (pse_later hat hj hw (hdo.trans h) hr))
    · exact next_onDev_congr (Dev.ckRun_eq (pse_unit hat hj hw (hdo.trans h)))
  · exact Dev.ckWriteStart_tooLong hops h1 ht htab hrs hlen
  · exact Dev.ckWriteStart_begins hops h0 ht htab hrs hlen
  case read =>
    refine ⟨fun hn => ?_, fun hcfg hp hr hn hn' hm hv hz hz' d1 es d2 b ss ht hf hs => ?_⟩
    · exact next_onDev_congr (Dev.ckRun_eq (pse_now hat hj hw (Dev.pseDo_read.trans (Dev.ckReadStart_notConfigured (d := s.here) hn)) (by decide)))
    · obtain ⟨run, ho, hops, hss, hjob, hstart⟩ := Dev.ckReadStart_begins (d := s.here) (o := o) hcfg hp hr hn hn' hm hv hz hz' ht hf hs
      exact ⟨run, ho, hops, hss, hjob, next_onDev_congr (Dev.ckRun_eq (pse_unit hat hj hw (Dev.pseDo_read.trans hstart)))⟩
  case serves =>
    refine ⟨fun psn => ?_, fun psn => ?_, fun psn ns => ?_, fun psn bs => ?_, fun t h => ?_, fun t h => ?_⟩
    · exact next_onDev_congr (Dev.onQueuePair_serves (d := s.here) ht he _)
    · exact next_onDev_congr (Dev.onQueuePair_serves (d := s.here) ht he _)
    · exact next_onDev_congr (Dev.onQueuePair_serves (d := s.here) ht he _)
    · exact next_onDev_congr (Dev.onQueuePair_serves (d := s.here) ht he _)
    · exact next_due _ h (Dev.onQueuePair_serves (by rw [until_qp]; exact ht) (by rw [until_qp]; exact he) _)
    · exact next_due _ h (Dev.onQueuePair_serves (by rw [until_qp]; exact ht) (by rw [until_qp]; exact he) _)
  case ignores =>
    simp only [List.mem_cons, List.not_mem_nil, or_false] at hc
    rcases hc with rfl | rfl | rfl <;> exact next_onDev_congr (g := id) (Dev.onQueuePair_ignores (d := s.here) h _)

end Sys2Proof.Machine
end


section
/-! PROOFS. Background work (R607, R608, R610 to R612). What its statement asks of a write of the flash summaries hangs on the free
wear of the write (log 2), and the free values are constants without a body: `BackgroundWork` is shown to hold where no free value
names a wear of 80 % or more, and to fail where the first one does, so it is neither proved nor refuted. -/

namespace Sys2Proof.Machine

/-! ## Shadow replay (R607, R608) -/

section Replay

variable {d : Dev} {r : Replay} {m : ReplayMatch}

/-- A selection with no sample in hand takes the tile and array due. -/
theorem Dev.replaySelect_takes (h : d.csv.replay = none ∨
      (∃ r, d.csv.replay = some r ∧ (r.stage = 0 ∨ (r.stage = 1 ∧ ((d.tile r.tile).arr r.array).cur = [])))) :
    d.replaySelect = { d with
      csv.replayAt := d.now, csv.replayNext := (d.csv.replayNext % 200 + 1) % 200,
      csv.replay := some ⟨d.csv.replayNext % 200, d.now % 8, 0, 0, 0, d.now, 0, []⟩ } := by
  unfold Dev.replaySelect Dev.replayPick
  dsimp only
  rcases h with hn | ⟨r, hr, h0 | ⟨h1, hcur⟩⟩
  · rw [hn]
    rfl
  · rw [hr]
    exact if_neg (by simp [h0])
  · rw [hr]
    refine if_neg ?_
    show ¬ (r.stage != 0 && (r.stage != 1 || !((d.tile r.tile).arr r.array).cur.isEmpty)) = true
    simp [h1, hcur]

/-- A sample in hand is finished first. -/
theorem Dev.replaySelect_held (hr : d.csv.replay = some r) (h0 : r.stage ≠ 0) (h1 : r.stage ≠ 1 ∨ ((d.tile r.tile).arr r.array).cur ≠ []) :
    d.replaySelect = { d with csv.replayAt := d.now, csv.replayNext := (d.csv.replayNext % 200 + 1) % 200 } := by
  unfold Dev.replaySelect Dev.replayPick
  dsimp only
  rw [hr]
  refine if_pos ?_
  show (r.stage != 0 && (r.stage != 1 || !((d.tile r.tile).arr r.array).cur.isEmpty)) = true
  simpa [h0] using h1

theorem Dev.replayCompare_none (hr : d.csv.replay = none) : d.replayCompare m = d := by
  unfold Dev.replayCompare
  rw [hr]

variable (hr : d.csv.replay = some r)
include hr

theorem Dev.replayCompare_agrees (h2 : r.stage = 2) :
    d.replayCompare .sample = { d.bump CSV.REPLAY_SAMPLES.COUNT 1 with csv.replay := none } := by
  unfold Dev.replayCompare
  simp only [hr]
  exact (if_pos h2).trans (if_pos trivial)

theorem Dev.replayCompare_differs (h2 : r.stage = 2) (hm : m ≠ .sample) :
    d.replayCompare m = { ((d.bump CSV.REPLAY_SAMPLES.COUNT 1).bump CSV.REPLAY_MISMATCH.COUNT 1) with
      csv.replay := some { r with stage := 3, since := d.now } }.replayGo := by
  unfold Dev.replayCompare
  simp only [hr]
  exact (if_pos h2).trans (if_neg hm)

theorem Dev.replayCompare_second (h4 : r.stage = 4) : d.replayCompare m = d.chargeReplay r (m != .sample) (m != .first) := by
  unfold Dev.replayCompare
  simp only [hr]
  refine (if_neg (by omega)).trans ((if_pos h4).trans ?_)
  cases m <;> rfl

theorem Dev.replayCompare_other (h2 : r.stage ≠ 2) (h4 : r.stage ≠ 4) : d.replayCompare m = d.replayGo := by
  unfold Dev.replayCompare
  simp only [hr]
  exact (if_neg h2).trans (if_neg h4)

theorem Dev.secondEnd_waits (h3 : r.stage = 3) : d.secondEnd = some (r.since + 10000000000) := by
  unfold Dev.secondEnd
  simp only [hr]
  exact if_pos h3

theorem Dev.secondEnd_other (h3 : r.stage ≠ 3) : d.secondEnd = none := by
  unfold Dev.secondEnd
  simp only [hr]
  exact if_neg h3

end Replay

theorem Dev.secondEnd_none {d : Dev} (hr : d.csv.replay = none) : d.secondEnd = none := by
  unfold Dev.secondEnd
  rw [hr]

/-! ## Telemetry (R612) -/

section Telemetry

variable {d : Dev} {m : Bytes} {c : Telem} {a b f : Nat} (hc : c = d.csv.telem) (ht : d.errorTotals = (a, b, f))
include hc ht

theorem Dev.telemSample_host (he : c.en = true) (hk : c.count % c.decim = 0) (hd : c.device = false) {bs : Bytes}
    (hbs : bs = d.sampleBytes (c.count / c.decim) m) : d.telemSample m =
      (({ d with csv.lastSample := bs, csv.telemBase := ((a : Int), (b : Int), (f : Int)), csv.telem := { c with count := c.count + 1 } } : Dev).hostPut
        (c.addr + 128 * (c.count / c.decim % 2 ^ c.log2)) bs false).set CSV.TELEM_SEQ.SEQ (c.count / c.decim) := by
  subst hc hbs
  unfold Dev.telemSample
  simp only [ht, he, hk, hd, BEq.rfl, Bool.and_true, if_true, Bool.false_eq_true, if_false]

theorem Dev.telemSample_device (he : c.en = true) (hk : c.count % c.decim = 0) (hd : c.device = true) {bs : Bytes}
    (hbs : bs = d.sampleBytes (c.count / c.decim) m) : d.telemSample m =
      (({ d with csv.lastSample := bs, csv.telemBase := ((a : Int), (b : Int), (f : Int)), csv.telem := { c with count := c.count + 1 } } : Dev).plainWrite
        (c.addr + 128 * (c.count / c.decim % 2 ^ c.log2)) bs).set CSV.TELEM_SEQ.SEQ (c.count / c.decim) := by
  subst hc hbs
  unfold Dev.telemSample
  simp only [ht, he, hk, hd, BEq.rfl, Bool.and_true, if_true]

theorem Dev.telemSample_off (he : c.en = false) : d.telemSample m =
    { d with csv.lastSample := d.sampleBytes (d.get CSV.TELEM_SEQ.SEQ) m, csv.telemBase := ((a : Int), (b : Int), (f : Int)) } := by
  subst hc
  unfold Dev.telemSample
  simp only [ht, he, Bool.false_and, Bool.false_eq_true, if_false]

end Telemetry

/-! ## Flash summaries (R611) -/

/-- The summaries in flash and the wear `w` that the write leaves, before the event of a wear that reaches 80 %. -/
def Dev.sumsWritten (d : Dev) (w : Nat) : Dev :=
  { d with draws := d.draws + 1, csv.flashSums := d.csv.sums.map (fun (e : Nat × UnitSum) => (e.1, (d.get (suspLevel e.1), e.2))),
           csv.dirty := false, csv.dirtyPerm := false, csv.flashAt := d.now }.set CSV.FLASH_WEAR.PERCENT w

theorem Dev.flashWriteSums_quiet {d : Dev} (h : Config.free d.draws % 90 < 80) : d.flashWriteSums = d.sumsWritten (Config.free d.draws % 90) := by
  unfold Dev.flashWriteSums Dev.when
  exact if_neg (by simp only [decide_eq_true_eq]; omega)

theorem Dev.flashWriteSums_worn {d : Dev} (hold : d.get CSV.FLASH_WEAR.PERCENT < 80) (h : 80 ≤ Config.free d.draws % 90) :
    d.flashWriteSums = (d.sumsWritten (Config.free d.draws % 90)).eventOpen 0x070C := by
  unfold Dev.flashWriteSums Dev.when
  exact if_pos (decide_eq_true ⟨hold, h⟩)

theorem Dev.flashDue_perm {d : Dev} (h : d.csv.dirtyPerm = true) : d.flashDue = some d.now := by
  unfold Dev.flashDue
  rw [h]
  rfl

theorem Dev.flashDue_clean {d : Dev} (hp : d.csv.dirtyPerm = false) (hd : d.csv.dirty = false) : d.flashDue = none := by
  unfold Dev.flashDue
  rw [hp, hd]
  rfl

/-- Where the write's wear stays below 80 %, the summaries stand in flash and nothing waits to be written. -/
theorem flashSummaryWrite_quiet {s : State} (hc : Calm s) (hp : s.dev.csv.dirtyPerm = true) (h : Config.free s.dev.draws % 90 < 80) :
    ∃ t, exec .flashSummaryWrite s = .next t ∧ t.dev.csv.dirty = false ∧ t.dev.csv.dirtyPerm = false ∧
      t.dev.csv.flashSums = s.dev.csv.sums.map (fun (e : Nat × UnitSum) => (e.1, (s.dev.get (suspLevel e.1), e.2))) ∧
      t.dev.get CSV.FLASH_WEAR.PERCENT < 90 := by
  obtain ⟨u, hu⟩ : ∃ u, u = s.until s.dev.now := ⟨_, rfl⟩
  have hdev : u.dev = s.dev := hu ▸ State.until_dev s _
  have heff : u.here.flashWriteSums = u.here.sumsWritten (Config.free u.here.draws % 90) :=
    Dev.flashWriteSums_quiet (d := u.here) (by rw [State.here_draws, hdev]; exact h)
  have hexec : exec .flashSummaryWrite s = .next { u with dev := u.here.sumsWritten (Config.free u.here.draws % 90) } := by
    refine congrArg Host.Outcome.next ((atTime_due _ (·.flashWriteSums) (Dev.flashDue_perm hp) rfl).trans ?_)
    rw [← hu]
    exact onDev_quiet (hu ▸ hc.until _) heff rfl rfl
  refine ⟨_, hexec, rfl, rfl, ?_, ?_⟩
  · show u.dev.csv.sums.map (fun (e : Nat × UnitSum) => (e.1, (u.dev.get (suspLevel e.1), e.2))) = _
    rw [hdev]
  · have hget : (u.here.sumsWritten (Config.free u.here.draws % 90)).get CSV.FLASH_WEAR.PERCENT = Config.free u.here.draws % 90 % 2 ^ 7 :=
      Dev.get_set_same _ CSV.FLASH_WEAR.PERCENT _ (by decide) (by decide)
    exact Nat.lt_of_le_of_lt (Nat.le_of_eq hget) (by omega)

/-- `BackgroundWork` holds where no free value names a wear of 80 % or more. -/
theorem backgroundWork_of_lowWear (hwear : ∀ n, Config.free n % 90 < 80) : Obligations.BackgroundWork := by
  refine ⟨fun s u t a hu ht ha => ?select, fun s m r hr => ?compare, fun s m hr => ⟨?_, ?_⟩, fun s t p ht hp hp' => ?scrub,
    fun s p hp => ⟨fun h => ?_, fun h => ?_⟩, fun s q hq => ⟨fun h => ?_, fun h => ?_⟩, fun s m c a b f hc ht => ?telemetry,
    fun s hc hp => flashSummaryWrite_quiet hc hp (hwear _), fun s hp hd => next_notDue (Dev.flashDue_clean hp hd)⟩
  case select =>
    have hdev : u.dev = s.dev := hu ▸ State.until_dev s _
    have hpick : u.here.replayPick = (t, a) := by
      show (u.dev.csv.replayNext % 200, u.clock.ns % 8) = (t, a)
      rw [hdev, ht, ha]
    have hnow : a = u.here.now % 8 := ha
    have hnext : t = u.here.csv.replayNext % 200 := by rw [ht, State.here_csv, hdev]
    have hexec : ∀ x y (g : Dev → Dev), (if u.here.replayPick = (x, y) then u.here.replaySelect else u.here) = g u.here →
        exec (.replaySelect x y) s = .next (u.onDev g) := fun x y g h => by
      subst hu
      exact next_due (w := some s.dev.replayDue) g rfl h
    refine ⟨fun h => hexec t a _ ((if_pos hpick).trans ?_), fun r hr h0 h1 => hexec t a _ ((if_pos hpick).trans ?_),
      fun x y hne => hexec x y id (if_neg fun h => hne (h.symm.trans hpick))⟩
    · refine (Dev.replaySelect_takes (d := u.here) (by simpa only [State.here_csv, State.here_tile, hdev] using h)).trans ?_
      rw [hnow, hnext]
    · refine (Dev.replaySelect_held (d := u.here) (r := r) (by rw [State.here_csv, hdev]; exact hr) h0 (by rw [State.here_tile, hdev]; exact h1)).trans ?_
      rw [hnext]
  case compare =>
    refine ⟨fun h2 hm => ?_, fun h2 hm => ?_, fun h4 => ?_, fun h2 h4 => ?_, fun h3 u d hu hd => ?_, fun h3 => next_notDue (Dev.secondEnd_other hr h3)⟩
    · subst hm
      exact next_onDev_congr (Dev.replayCompare_agrees (d := s.here) hr h2)
    · exact next_onDev_congr (Dev.replayCompare_differs (d := s.here) hr h2 hm)
    · exact next_onDev_congr (Dev.replayCompare_second (d := s.here) hr h4)
    · exact next_onDev_congr (Dev.replayCompare_other (d := s.here) hr h2 h4)
    · have hru : u.here.csv.replay = some r := by rw [State.here_csv, hu, State.until_dev]; exact hr
      subst hu
      refine next_due (w := s.dev.secondEnd) _ (Dev.secondEnd_waits hr h3) ?_
      simp only [hru, ← hd, List.contains_iff_mem]
  · exact next_onDev_congr (g := id) (Dev.replayCompare_none (d := s.here) hr)
  · exact next_notDue (Dev.secondEnd_none hr)
  case scrub =>
    refine (congrArg Host.Outcome.next (State.atTile_lt s _ ht)).trans (next_onDev_congr ((if_neg (by omega)).trans ?_))
    have hpos : smapGet zeroDflt s.here.csv.spmPos t = p := hp.symm
    simp only [hpos]
    rw [if_pos (show p < spmLines from hp')]
    rfl
  · exact next_onDev_congr ((if_pos hp).trans (if_pos h))
  · exact next_onDev_congr (g := id) ((if_pos hp).trans (if_neg (ne_true_of_eq_false h)))
  · have hq' : 16 + q - 16 = q := Nat.add_sub_cancel_left 16 q
    refine next_onDev_congr ((if_neg (by omega)).trans ?_)
    rw [hq']
    exact if_pos ⟨h, by omega⟩
  · have hq' : 16 + q - 16 = q := Nat.add_sub_cancel_left 16 q
    refine next_onDev_congr (g := id) ((if_neg (by omega)).trans ?_)
    rw [hq']
    exact if_neg fun hup => Bool.false_ne_true (h.symm.trans hup.1)
  case telemetry =>
    exact ⟨fun he hk hd bs hbs => next_onDev_congr (Dev.telemSample_host (d := s.here) hc ht he hk hd hbs),
      fun he hk hd bs hbs => next_onDev_congr (Dev.telemSample_device (d := s.here) hc ht he hk hd hbs),
      fun he => next_onDev_congr (Dev.telemSample_off (d := s.here) hc ht he)⟩

/-- A running device with summaries to write, unworn flash, and an event ring for class 7 in device memory: its next entry lies in a codeword
with one symbol in error, which is enough to make the frame weak (R345). -/
def wearingState : State :=
  { State.reset with dev := { (((((State.reset.dev.set (QSU.RING_CFG.ENABLE 18) 1).set (QSU.RING_CFG.KIND 18) 2).set (QSU.RING_CFG.LOC 18) 1).set
      (QSU.RING_CFG.LOG2_COUNT 18) 6).set HMC.RETIRE_THRESHOLD.COUNT 1).set CMD.CURATOR_STATE.STATE curRUNNING with
    code := .m12x2, csv.dirtyPerm := true, cmd.evBind := smapSet evBindDflt [] 7 19, hbm.cw := smapSet cwDflt [] 0 (.errs 1 0) } }

/-- The record of 0x070C turns the frame weak, and the fault that this raises leaves summaries to write. -/
theorem wearingState_dirty : ∀ w < 90, 80 ≤ w → ((wearingState.here.sumsWritten w).eventOpen 0x070C).serveFatal.csv.dirty = true := by
  decide +kernel

/-- `BackgroundWork` fails where the first free value names a wear of 80 % or more, as such a write of the summaries posts 0x070C. -/
theorem lowWear_of_backgroundWork (h : Obligations.BackgroundWork) : Config.free 0 % 90 < 80 := by
  obtain ⟨-, -, -, -, -, -, -, hflash, -⟩ := h
  by_cases hw : Config.free 0 % 90 < 80
  · exact hw
  · have hwear : 80 ≤ Config.free 0 % 90 := Nat.not_lt.mp hw
    obtain ⟨t, hexec, hclean, -⟩ := hflash wearingState ⟨rfl, rfl⟩ rfl
    have heff : wearingState.here.flashWriteSums = (wearingState.here.sumsWritten (Config.free 0 % 90)).eventOpen 0x070C :=
      Dev.flashWriteSums_worn (by decide +kernel) hwear
    have hstep : exec .flashSummaryWrite wearingState =
        .next (wearingState.onDev fun _ => (wearingState.here.sumsWritten (Config.free 0 % 90)).eventOpen 0x070C) := by
      have huntil : wearingState.until wearingState.dev.now = wearingState := if_neg (by decide +kernel)
      refine congrArg Host.Outcome.next ((atTime_due _ (·.flashWriteSums) (Dev.flashDue_perm rfl) rfl).trans ?_)
      rw [huntil]
      exact onDev_eq _ _ _ heff
    obtain rfl := Host.Outcome.next.inj (hstep.symm.trans hexec)
    exact absurd (wearingState_dirty _ (Nat.mod_lt _ (by decide)) hwear) (ne_true_of_eq_false hclean)

end Sys2Proof.Machine
end
